-- ==== Sys2Proof/Word.lean ====
section
/-! DEFINITION. The plain data the model is built from: 64-bit words, byte order (R23), sorted sparse maps keyed by
a number, and the plainest arithmetic on them. -/

namespace Sys2Proof

/-- A register of the device (R24) or a word of a host record. -/
abbrev Word := BitVec 64

/-- One byte of memory. -/
abbrev Byte := BitVec 8

/-- A sparse map: pairs with strictly rising keys. An unlisted key has no entry. -/
abbrev NMap (α : Type) := List (Nat × α)

/-- The entry of a key, if it is listed. -/
def NMap.get? {α : Type} : NMap α → Nat → Option α
  | [], _ => none
  | (k, v) :: rest, i => if k = i then some v else NMap.get? rest i

/-- The entry of a key, or a default for an unlisted key. -/
def NMap.getD {α : Type} (m : NMap α) (i : Nat) (d : α) : α := (NMap.get? m i).getD d

/-- Put an entry at a key, replacing the one that is there, in the sorted place. -/
def NMap.set {α : Type} : NMap α → Nat → α → NMap α
  | [], i, v => [(i, v)]
  | (k, w) :: rest, i, v =>
    if i < k then (i, v) :: (k, w) :: rest
    else if i = k then (i, v) :: rest
    else (k, w) :: NMap.set rest i v

/-- Take a key out of the map. -/
def NMap.erase {α : Type} : NMap α → Nat → NMap α
  | [], _ => []
  | (k, w) :: rest, i => if k = i then NMap.erase rest i else (k, w) :: NMap.erase rest i

/-- Change the entry of a key, starting from a default where it is unlisted. -/
def NMap.update {α : Type} (m : NMap α) (i : Nat) (d : α) (f : α → α) : NMap α :=
  NMap.set m i (f (NMap.getD m i d))

/-- The canonical form: keys strictly rising. -/
def NMap.wf {α : Type} : NMap α → Bool
  | [] => true
  | [_] => true
  | (a, _) :: (b, w) :: rest => decide (a < b) && NMap.wf ((b, w) :: rest)

/-- The first element of a list that a test accepts, with its place. -/
def firstIdx {α : Type} (p : α → Bool) (l : List α) : Option Nat := l.findIdx? p

/-- The byte of a word at a little-endian place (R23). -/
def byteOf (w : Word) (i : Nat) : Byte := BitVec.ofNat 8 (w.toNat / 2 ^ (8 * i))

/-- A number as so many little-endian bytes. -/
def leBytes : Nat → Nat → List Byte
  | 0, _ => []
  | n + 1, v => BitVec.ofNat 8 v :: leBytes n (v / 256)

/-- The number that little-endian bytes spell. -/
def leNat : List Byte → Nat
  | [] => 0
  | b :: rest => b.toNat + 256 * leNat rest

/-- A number as so many big-endian bytes (the far-wire headers of R23). -/
def beBytes (n v : Nat) : List Byte := (leBytes n v).reverse

/-- A big-endian number. -/
def beNat (bs : List Byte) : Nat := leNat bs.reverse

/-- A big-endian field of a message or header. -/
def beAt (bs : List Byte) (o n : Nat) : Nat := beNat ((bs.drop o).take n)

/-- The 64-bit words that a list of bytes holds, least significant byte first. -/
def leWords : Nat → List Byte → List Nat
  | 0, _ => []
  | n + 1, bs => leNat (bs.take 8) :: leWords n (bs.drop 8)

/-- The bits `[lo + n - 1 : lo]` of a number (R20). -/
def bitsOf (v lo n : Nat) : Nat := v / 2 ^ lo % 2 ^ n

/-- One bit of a number. -/
def bitAt (v i : Nat) : Bool := v.testBit i

/-- 1 or 0. -/
def b2n (b : Bool) : Nat := if b then 1 else 0

/-- A count that stops at its largest value. -/
def satAdd (max a b : Nat) : Nat := if a + b ≤ max then a + b else max

/-- The signed value of the low `n` bits of a number. -/
def signedOf (n v : Nat) : Int :=
  let w := v % 2 ^ n
  if 2 ^ (n - 1) ≤ w then (w : Int) - 2 ^ n else w

/-- A signed number as `n` bits of two's complement. -/
def unsignedOf (n : Nat) (v : Int) : Nat := (v % (2 ^ n : Int)).toNat

/-- Ceiling division. -/
def ceilDiv (a b : Nat) : Nat := (a + b - 1) / b

/-- The bits set in a mask of `n` bits, lowest first. -/
def maskBits (n v : Nat) : List Nat := (List.range n).filter fun i => v.testBit i

/-- How many bits of the low `n` are set. -/
def popCount (n v : Nat) : Nat := (maskBits n v).length

/-- Fold `f` over `0, 1, …, n - 1`. -/
def foldRange {α : Type} (n : Nat) (f : Nat → α → α) (a : α) : α := (List.range n).foldl (fun x i => f i x) a

end Sys2Proof
end

