-- ==== Sys2Proof/Syntax.lean ====
section
/-! DEFINITION. The commands of the block as data: their operand groups and the one inductive `Instr`, a constructor
for each row of the opcode table. -/

namespace Sys2Proof

/-- Which part of a register a host access names (R24). -/
inductive Half where
  | low | high | whole
deriving DecidableEq, Repr

/-- A host access through BAR4 (R51). -/
inductive Bar4Op where
  | read (len : Nat)
  | write (bytes : List Byte)
deriving DecidableEq, Repr

/-- An uncorrectable (`hard`) or corrected error that an access meets in a codeword of a stack cache (R331). -/
structure CacheErr where
  addr : BitVec 48
  hard : Bool
deriving DecidableEq, Repr

/-- Symbols of a codeword of memory that are wrong: the pin of each, and the bits of it that differ (R332). -/
abbrev SymErrs := List (Fin 36 × BitVec 8)

/-- What goes wrong on the way of an access: an error in a cached codeword (R331), wrong symbols of the codeword at an address of memory (R332),
or a bit that the codec gets wrong in a block that it codes (R360). -/
inductive Mishap where
  | cache (e : CacheErr)
  | symbols (addr : BitVec 48) (e : SymErrs)
  | codec (block bit : Nat)
deriving DecidableEq, Repr

/-- The end of a host DMA: the command of its queue, and what went wrong on the way of its bytes. -/
structure DmaEnd where
  cmd  : Nat
  errs : List Mishap
deriving DecidableEq, Repr

/-- The pass after which digests are taken (R501). -/
inductive DigestPass where
  | update
  | form
  | apply
  | restore
  | repair
deriving DecidableEq, Repr

/-- What digests belong to: the pass and its step (Table 14-1). -/
structure DigestOf where
  pass : DigestPass
  step : BitVec 64
deriving DecidableEq, Repr

/-- What another member of a collective has posted for its TAG (R397). -/
structure CollPost where
  dev   : BitVec 16
  op    : BitVec 8
  ifmt  : BitVec 8
  dims  : BitVec 8
  group : BitVec 16
  count : BitVec 64
  root  : BitVec 32
deriving DecidableEq, Repr

/-- What has come for a collective: the other members' postings (R397), the streams received so far in the order in which the collective takes
them (R399 to R401), and what the codec of the fabric ports gets wrong in a stream that this device sends: its number, the block and the bit
(R360). -/
structure CollParts where
  posts  : List CollPost
  parts  : List (List Byte)
  faults : List (Nat × Nat × Nat)
deriving DecidableEq, Repr

/-- The unit classes of Table 2-8. -/
inductive EpochClass where
  | host | sori | num | base | fabric | exchange | far | power
deriving DecidableEq, Repr

/-- A slot of a bundle (Table 3-1). -/
inductive SlotName where
  | m | v0 | v1 | l | c
deriving DecidableEq, Repr

/-- Where a slot's operation stands: its tile, its slot, its guard (R98, R102), its bundle's header bits (Table 3-2),
whether it is the first and whether it is the last operation of its bundle, and whether a reserved bit of the slot or the header is set
(R133). -/
structure SlotHdr where
  tile : Fin 512
  slot : SlotName
  pneg : Bool
  pred : Fin 8
  first : Bool
  last : Bool
  drain : Bool
  her  : Bool
  rsv  : Bool
deriving DecidableEq, Repr

/-- The operand fields of MMA, MMAX and MMIN (Table 3-7). -/
structure MmaOps where
  acc  : Bool
  z    : Bool
  fmta : Fin 16
  fmtb : Fin 16
  ta   : Bool
  tb   : Bool
  sa   : Fin 32
  sb   : Fin 32
  sk   : Fin 32
  msh  : Fin 4
  nsh  : Fin 4
deriving DecidableEq, Repr

/-- The operand fields of ACST and ACLD (Table 3-9). -/
structure AccOps where
  acc : Bool
  int : Bool
  sa  : Fin 32
  msh : Fin 4
  nsh : Fin 4
deriving DecidableEq, Repr

/-- The operand fields of a vector operation (Table 3-10). -/
structure VOps where
  w   : Fin 4
  vd  : Fin 64
  va  : Fin 64
  vb  : Fin 64
  vc  : Fin 64
  mod : Fin 4096
deriving DecidableEq, Repr

/-- The operand fields of VCVT (Table 3-12). -/
structure CvtOps where
  rm   : Fin 4
  vd   : Fin 64
  va   : Fin 64
  sfmt : Fin 16
  dfmt : Fin 16
  st   : Fin 32
  se   : Fin 32
  ss   : Fin 32
  sat  : Bool
deriving DecidableEq, Repr

/-- The operand fields of DMA and DMA2 (Table 3-14). -/
structure DmaOps where
  dir   : Bool
  cmp   : Bool
  hint  : Fin 4
  stash : Bool
  st    : Fin 32
  sm    : Fin 32
  sl    : Fin 32
  sv    : Fin 32
deriving DecidableEq, Repr

/-- The fields of an engine instruction (R296), with the engine that executes it. -/
structure EngOps where
  eng : Fin 48
  d   : Fin 64
  a   : Fin 64
  b   : Fin 64
  c   : Fin 64
  mod : Fin 4
deriving DecidableEq, Repr

/-- The trailer of a received flit (Table 11-2): LSEQ, LACK and NAK. -/
structure Trailer where
  lseq : BitVec 12
  lack : BitVec 12
  nak  : Bool
deriving DecidableEq, Repr

/-- The header of a received DATA or CTRL flit (Table 11-2). -/
structure FlitHead where
  dst     : BitVec 16
  src     : BitVec 16
  vc      : Fin 4
  last    : Bool
  attempt : Fin 16
  len     : Fin 233
  stream  : BitVec 32
  index   : BitVec 32
deriving DecidableEq, Repr

/-- What the board management controller asks over PLDM (R527): a base request, or a numeric sensor. -/
inductive PldmQuery where
  | base
  | power
  | die (d : Fin 5)
  | stack (st : Fin 12)
  | rail (k : Fin 16)
deriving DecidableEq, Repr

/-- A register that SEC_FA reaches through the TAP (R566, R567). -/
inductive FaReg where
  | req | ctl
  | resp (i : Fin 12)
deriving DecidableEq, Repr

/-- A bring-up stage that is reached, with what the ROM and the training have found (Table 17-5): the flash's capacity in MiB where its SFDP
tables are present, the core that fails to report healthy (0 PMC, 1 SCH, 2 CCC, 3 APP), the channels that cannot be trained. -/
inductive StageEvent where
  | s1 (flash : Option (BitVec 32))
  | s2
  | s3 (unhealthy : Option (Fin 4))
  | s4 (untrained : List (Fin 384))
  | s5
  | s6
deriving DecidableEq, Repr

/-- The reference clocks (R602). -/
inductive RefClk where
  | sds0 | sds1 | pcie | hub
deriving DecidableEq, Repr

/-- The commands of the block: one constructor for each row of the opcode table, with the row's operands. -/
inductive Instr where
  /-- REGISTER_WRITE (R24). A host write to a register that has no row of its own stores the written bits under the access type of its field, or is ignored or counted as blocked. -/
  | registerWrite (fn : Fin 64) (offset : BitVec 26) (half : Half) (value : BitVec 64)
  /-- HIF_BLOCKED_CLEAR (R61). A write of 1 to HIF_BLOCKED.CLEAR clears COUNT, BAR and OFFSET of the function. -/
  | hifBlockedClear (fn : Fin 64)
  /-- HOST_BAR4_ACCESS (R51). A host read or write through the BAR4 window reaches memory through the stack cache, or follows R50 outside the memory region. -/
  | hostBar4Access (fn : Fin 64) (offset : BitVec 39) (op : Bar4Op) (errs : List Mishap)
  /-- SQ_TAIL_WRITE (R70). A doorbell write of a new submission tail makes entries available to fetch, or is a queue protocol error. -/
  | sqTailWrite (fn : Fin 64) (q : Fin 65536) (tail : BitVec 16)
  /-- CQ_HEAD_WRITE (R76). A doorbell write of a new completion head consumes records before it and frees slots, or is a queue protocol error. -/
  | cqHeadWrite (fn : Fin 64) (q : Fin 65536) (head : BitVec 16)
  /-- SUBMISSION_FETCH (R72). The device fetches the next submission entry of a queue by priority and round-robin while the paired completion queue has room. -/
  | submissionFetch
  /-- COMMAND_START (R90). A fetched command starts once its FENCE, MIN_EPOCH and open-step conditions hold. -/
  | commandStart (q : Fin 65536)
  /-- COMPLETION_RECORD_WRITE (R74). The device writes a completion record as two posted writes into a free slot, then raises MSI-X when enabled. -/
  | completionRecordWrite (q : Fin 65536)
  /-- MSIX_UNMASK (R80). When the host unmasks a vector while unconsumed records remain, one MSI-X message is sent. -/
  | msixUnmask (fn : Fin 64) (vector : Fin 2048)
  /-- DEADLINE_EXPIRY (R85). A command's DEADLINE passes and it is ended as by an ABORT with TIMEOUT, or with EPOCH_WAIT while waiting for MIN_EPOCH. -/
  | deadlineExpiry (q : Fin 65536) (c : Nat)
  /-- ABORT_POINT (R84). A running command reaches its next abort point and ends with ABORTED or TIMEOUT. -/
  | abortPoint (q : Fin 65536) (c units : Nat)
  /-- NOP (R73). The host NOP command completes with RESULT 0. -/
  | nop (q : Fin 65536) (c : Nat)
  /-- LOAD_PROGRAM (R62). The binder binds a Tarca-P image against the context's grants. -/
  | loadProgram (q : Fin 65536) (c : Nat)
  /-- LOAD_PROGRAM_COMPLETE (R63). Binding ends with a program handle and image CRC, or with REFUSED_FIT or REFUSED_FORMAT and nothing reserved. -/
  | loadProgramComplete (q : Fin 65536) (c : Nat)
  /-- UNLOAD_PROGRAM (R65). A program handle is released once its running launches have completed. -/
  | unloadProgram (q : Fin 65536) (c : Nat)
  /-- LAUNCH (R132). A bound program starts on its tiles with the given argument block and step index. -/
  | launch (q : Fin 65536) (c : Nat)
  /-- LAUNCH_COMPLETE (R132). Every tile has executed END and every transfer, collective and deferred descriptor has completed, so the launch completes. -/
  | launchComplete (q : Fin 65536) (c : Nat)
  /-- DMA_COPY (R71). The host command copies bytes between host and device memory, compressing when COMPRESS is set. -/
  | dmaCopy (q : Fin 65536) (c : Nat)
  /-- DMA_FILL (R71). The host command fills a destination range with a 64-bit pattern. -/
  | dmaFill (q : Fin 65536) (c : Nat)
  /-- HOST_DMA_COMPLETE (R71). A host DMA_COPY or DMA_FILL finishes moving its bytes and completes. -/
  | hostDmaComplete (q : Fin 65536) (e : DmaEnd)
  /-- SYNC_SIGNAL (R158). The host command adds its increment to a synchronisation counter. -/
  | syncSignal (q : Fin 65536) (c : Nat)
  /-- SYNC_WAIT (R161). The host command waits until a counter reaches its target. -/
  | syncWait (q : Fin 65536) (c : Nat)
  /-- ABORT (R82). The host command ends a named command of its context according to that command's state at dispatch. -/
  | abort (q : Fin 65536) (c : Nat)
  /-- CONTEXT_ENABLE (R59). A write that sets QUE_CTX_CFG.EN enables the context, or is refused with ERR and event 0x0005. -/
  | contextEnable (fn : Fin 64) (ctx : Fin 256) (value : BitVec 64)
  /-- CONTEXT_RESET (R585). A write that clears QUE_CTX_CFG.EN starts a per-context reset. -/
  | contextReset (fn : Fin 64) (ctx : Fin 256)
  /-- FUNCTION_LEVEL_RESET (R585). A function level reset resets every context of the function, and for the physical function its HIF, MBX and EXC ring registers. -/
  | functionLevelReset (fn : Fin 64)
  /-- CONTEXT_RESET_DONE (R585). A per-context reset completes and raises event 0x0816. -/
  | contextResetDone (ctx : Fin 256)
  /-- QUEUE_ENABLE (R612). A write that sets QUE_CFG.EN enables the queue pair with indices 0, PHASE 1 and SEQ 1, or is discarded whole. -/
  | queueEnable (fn : Fin 64) (q : Fin 65536) (value : BitVec 64)
  /-- QUEUE_DISABLE (R79). A write that clears QUE_CFG.EN puts the queue in DRAINING and discards unstarted commands. -/
  | queueDisable (fn : Fin 64) (q : Fin 65536) (value : BitVec 64)
  /-- QUEUE_DRAIN_DONE (R79). The last running command of a draining queue ends and the queue enters DISABLED. -/
  | queueDrainDone (q : Fin 65536)
  /-- EPOCH_COMMIT (R87). A write of 1 to HIF_EPOCH_COMMIT.COMMIT raises the committed epoch and freezes the staging copies. -/
  | epochCommit (fn : Fin 64)
  /-- EPOCH_ADOPT (R88). A configuration unit reaches its boundary and adopts the latest committed epoch. -/
  | epochAdopt (unit : EpochClass) (inst : Fin 32)
  /-- DRIVER_HEARTBEAT (R536). A physical-function write to HIF_HEARTBEAT restarts the driver watchdog. -/
  | driverHeartbeat (fn : Fin 64)
  /-- EVENT_RING_ENABLE (R95). A write that sets EXC_EVQ_CFG.EN enables the event ring, delivering held events and then EVENTS_LOST. -/
  | eventRingEnable (fn : Fin 64) (value : BitVec 64)
  /-- EVENT_RING_HEAD_WRITE (R93). A write to EXC_EVQ_HEAD consumes event records, or is ignored and counted as blocked. -/
  | eventRingHeadWrite (fn : Fin 64) (head : BitVec 16)
  /-- SLOT_NOP (R98). Opcode 0x00 in any slot performs nothing. -/
  | slotNop (h : SlotHdr)
  /-- MMA (R191). A matrix product is accumulated into an accumulator set in the fixed group and replica order. -/
  | mma (h : SlotHdr) (o : MmaOps)
  /-- MMAX (R205). The running maximum of products and the winner index are kept per cell. -/
  | mmax (h : SlotHdr) (o : MmaOps)
  /-- MMIN (R205). The running minimum of products and the winner index are kept per cell. -/
  | mmin (h : SlotHdr) (o : MmaOps)
  /-- MATRIX_OP_COMPLETE (R202). An M-slot product completes and any invalid it raised is recorded, or trapped under the context's policy. -/
  | matrixOpComplete (tile : Fin 512) (acc : Bool)
  /-- ACLR (R212). Every cell of a set is cleared to +0, its INV flag is cleared and any MMAX or MMIN run ends. -/
  | aclr (h : SlotHdr) (acc : Bool)
  /-- ACST (R210). An accumulator block is stored to the tile store unchanged. -/
  | acst (h : SlotHdr) (o : AccOps)
  /-- ACLD (R210). An accumulator block is loaded from the tile store unchanged. -/
  | acld (h : SlotHdr) (o : AccOps)
  /-- ACRV (R211). Two accumulator rows are copied to a vector register. -/
  | acrv (h : SlotHdr) (acc : Bool) (vd row : Fin 64)
  /-- VRAC (R211). A vector register is copied to two accumulator rows. -/
  | vrac (h : SlotHdr) (acc : Bool) (va row : Fin 64)
  /-- VADD (R116). Lane-wise floating-point addition. -/
  | vadd (h : SlotHdr) (o : VOps)
  /-- VSUB (R116). Lane-wise floating-point subtraction. -/
  | vsub (h : SlotHdr) (o : VOps)
  /-- VMUL (R116). Lane-wise floating-point multiplication. -/
  | vmul (h : SlotHdr) (o : VOps)
  /-- VFMA (R116). Lane-wise fused multiply-add with one rounding. -/
  | vfma (h : SlotHdr) (o : VOps)
  /-- VFMS (R116). Lane-wise fused multiply-subtract with one rounding. -/
  | vfms (h : SlotHdr) (o : VOps)
  /-- VMAX (R231). Lane-wise IEEE 754-2019 maximum. -/
  | vmax (h : SlotHdr) (o : VOps)
  /-- VMIN (R231). Lane-wise IEEE 754-2019 minimum. -/
  | vmin (h : SlotHdr) (o : VOps)
  /-- VABS (R230). Lane-wise absolute value acting on the sign bit alone. -/
  | vabs (h : SlotHdr) (o : VOps)
  /-- VNEG (R230). Lane-wise negation acting on the sign bit alone. -/
  | vneg (h : SlotHdr) (o : VOps)
  /-- VRCP (R116). Lane-wise correctly rounded reciprocal. -/
  | vrcp (h : SlotHdr) (o : VOps)
  /-- VRSQ (R116). Lane-wise correctly rounded reciprocal square root. -/
  | vrsq (h : SlotHdr) (o : VOps)
  /-- VEXP2 (R116). Lane-wise correctly rounded power of two. -/
  | vexp2 (h : SlotHdr) (o : VOps)
  /-- VLOG2 (R116). Lane-wise correctly rounded base-2 logarithm. -/
  | vlog2 (h : SlotHdr) (o : VOps)
  /-- VSQRT (R116). Lane-wise correctly rounded square root. -/
  | vsqrt (h : SlotHdr) (o : VOps)
  /-- VSCAL (R116). Lane-wise scaling of FP32 lanes by a power of two. -/
  | vscal (h : SlotHdr) (o : VOps)
  /-- VAND (R116). Lane-wise bitwise AND of INT32 lanes. -/
  | vand (h : SlotHdr) (o : VOps)
  /-- VOR (R116). Lane-wise bitwise OR of INT32 lanes. -/
  | vor (h : SlotHdr) (o : VOps)
  /-- VXOR (R116). Lane-wise bitwise XOR of INT32 lanes. -/
  | vxor (h : SlotHdr) (o : VOps)
  /-- VSHL (R116). Lane-wise left shift of INT32 lanes. -/
  | vshl (h : SlotHdr) (o : VOps)
  /-- VSHR (R116). Lane-wise logical right shift of INT32 lanes. -/
  | vshr (h : SlotHdr) (o : VOps)
  /-- VSRA (R116). Lane-wise arithmetic right shift of INT32 lanes. -/
  | vsra (h : SlotHdr) (o : VOps)
  /-- VIADD (R116). Lane-wise integer addition modulo 2^32. -/
  | viadd (h : SlotHdr) (o : VOps)
  /-- VISUB (R116). Lane-wise integer subtraction modulo 2^32. -/
  | visub (h : SlotHdr) (o : VOps)
  /-- VCMP (R117). Lane-wise comparison that writes predicate bits of active lanes. -/
  | vcmp (h : SlotHdr) (o : VOps)
  /-- VSEL (R116). Lane-wise selection between two vectors by a predicate. -/
  | vsel (h : SlotHdr) (o : VOps)
  /-- VRED (R118). Reduction over the active lanes in a fixed tree, with the result in lane 0. -/
  | vred (h : SlotHdr) (o : VOps)
  /-- VBC (R116). Every lane takes the low bits of a scalar register. -/
  | vbc (h : SlotHdr) (o : VOps)
  /-- VEXT (R117). A 32-bit lane slice of a vector is zero-extended into a scalar register. -/
  | vext (h : SlotHdr) (o : VOps)
  /-- VPERM (R116). Lanes are permuted by an index vector. -/
  | vperm (h : SlotHdr) (o : VOps)
  /-- VCVT (R221). Active lanes are converted between formats with scaling, rounding, saturation and tracking. -/
  | vcvt (h : SlotHdr) (o : CvtOps)
  /-- VLD (R123). 512 B are loaded from the tile store into a vector register. -/
  | vld (h : SlotHdr) (vd : Fin 64) (sb : Fin 32) (off : BitVec 22)
  /-- VST (R123). A vector register is stored to the tile store. -/
  | vst (h : SlotHdr) (vs : Fin 64) (sb : Fin 32) (off : BitVec 22)
  /-- SLD (R123). 8 B are loaded from the tile store into a scalar register. -/
  | sld (h : SlotHdr) (sd sb : Fin 32) (off : BitVec 22)
  /-- SST (R123). A scalar register is stored to 8 B of the tile store. -/
  | sst (h : SlotHdr) (ss sb : Fin 32) (off : BitVec 22)
  /-- DMA (R124). A one-dimensional transfer between the tile store and memory or another tile starts. -/
  | dma (h : SlotHdr) (o : DmaOps)
  /-- DMA2 (R124). A two-dimensional strided transfer between the tile store and memory starts. -/
  | dma2 (h : SlotHdr) (o : DmaOps)
  /-- DMA_COMPLETE (R125). A tile DMA or DMA2 has moved its last byte and adds 1 to its SV counter. -/
  | dmaComplete (id : Nat) (errs : List Mishap)
  /-- BLOCK_REREAD (R369). A block read from memory that failed decoding is read again and decoded a second time. -/
  | blockReread (id : Nat) (block : Nat)
  /-- REDUCE_SCATTER (R400). The COLL operation reduces members' inputs phase by phase in fixed order, leaving each its slice. -/
  | reduceScatter (h : SlotHdr) (sd sv : Fin 32)
  /-- ALL_GATHER (R399). The COLL operation gathers every member's slice to every member unchanged. -/
  | allGather (h : SlotHdr) (sd sv : Fin 32)
  /-- ALL_REDUCE (R399). The COLL operation performs a reduce-scatter followed by an all-gather. -/
  | allReduce (h : SlotHdr) (sd sv : Fin 32)
  /-- NORM (R403). The COLL operation combines one FP32 partial per rank over group 0 toward rank 0. -/
  | norm (h : SlotHdr) (sd sv : Fin 32)
  /-- BROADCAST (R399). The COLL operation sends the root rank's elements to every member. -/
  | broadcast (h : SlotHdr) (sd sv : Fin 32)
  /-- SHIFT (R399). The COLL operation passes elements one ring rank onward. -/
  | shift (h : SlotHdr) (sd sv : Fin 32)
  /-- COLL_COMPLETE (R125). A collective completes on the device and adds 1 to its SV counter; a FINAL one starts the intake pass. -/
  | collComplete (id : Nat) (e : CollParts)
  /-- SADD (R128). Scalar addition modulo 2^64. -/
  | sadd (h : SlotHdr) (sd sa sb : Fin 32)
  /-- SSUB (R128). Scalar subtraction modulo 2^64. -/
  | ssub (h : SlotHdr) (sd sa sb : Fin 32)
  /-- SMUL (R128). Scalar multiplication keeping the low 64 bits. -/
  | smul (h : SlotHdr) (sd sa sb : Fin 32)
  /-- SAND (R128). Scalar bitwise AND. -/
  | sand (h : SlotHdr) (sd sa sb : Fin 32)
  /-- SOR (R128). Scalar bitwise OR. -/
  | sor (h : SlotHdr) (sd sa sb : Fin 32)
  /-- SXOR (R128). Scalar bitwise XOR. -/
  | sxor (h : SlotHdr) (sd sa sb : Fin 32)
  /-- SSHL (R128). Scalar left shift. -/
  | sshl (h : SlotHdr) (sd sa sb : Fin 32)
  /-- SSHR (R128). Scalar logical right shift. -/
  | sshr (h : SlotHdr) (sd sa sb : Fin 32)
  /-- SSRA (R128). Scalar arithmetic right shift. -/
  | ssra (h : SlotHdr) (sd sa sb : Fin 32)
  /-- SLT (R128). Signed scalar less-than, writing 1 or 0. -/
  | slt (h : SlotHdr) (sd sa sb : Fin 32)
  /-- SLTU (R128). Unsigned scalar less-than, writing 1 or 0. -/
  | sltu (h : SlotHdr) (sd sa sb : Fin 32)
  /-- SMIN (R128). Signed scalar minimum. -/
  | smin (h : SlotHdr) (sd sa sb : Fin 32)
  /-- SMAX (R128). Signed scalar maximum. -/
  | smax (h : SlotHdr) (sd sa sb : Fin 32)
  /-- SADDI (R128). Scalar addition of a sign-extended immediate. -/
  | saddi (h : SlotHdr) (sd sa : Fin 32) (imm : BitVec 28)
  /-- SINS (R128). A 16-bit immediate is inserted into a quarter of a scalar register. -/
  | sins (h : SlotHdr) (sd : Fin 32) (quarter : Fin 4) (imm : BitVec 16)
  /-- SCMP (R128). A scalar comparison sets all bits of a predicate. -/
  | scmp (h : SlotHdr) (pd cnd : Fin 8) (sa sb : Fin 32)
  /-- PLOG (R128). A logical operation combines two predicates. -/
  | plog (h : SlotHdr) (pd pa pb : Fin 8) (opn : Fin 4)
  /-- SRD (R129). A special value such as device time or tile index is read into a scalar register. -/
  | srd (h : SlotHdr) (sd : Fin 32) (idx : BitVec 8)
  /-- BR (R109). Control goes to the bundle at a signed offset after this bundle. -/
  | br (h : SlotHdr) (off : BitVec 24)
  /-- LOOP (R128). A counter is decremented and the branch is taken while it is non-zero. -/
  | loop (h : SlotHdr) (sc : Fin 32) (off : BitVec 24)
  /-- CALL (R128). The next bundle index is saved in s31 and the branch is taken. -/
  | call (h : SlotHdr) (off : BitVec 24)
  /-- JR (R128). Control goes to the bundle index held in a scalar register. -/
  | jr (h : SlotHdr) (sa : Fin 32)
  /-- END (R132). The tile runs its queued deferred bodies and finishes its part of the launch. -/
  | endTile (h : SlotHdr)
  /-- SIG (R158). A value is added to a synchronisation counter. -/
  | sig (h : SlotHdr) (si sn : Fin 32)
  /-- WAIT (R161). The bundle issues once a counter reaches the target. -/
  | wait (h : SlotHdr) (si sn : Fin 32)
  /-- WAITT (R130). The bundle issues once a counter reaches the target, writing a predicate that says whether it was reached. -/
  | waitt (h : SlotHdr) (pd : Fin 8) (si sn sto : Fin 32)
  /-- WAITT_TIMEOUT (R130). A WAITT's timeout expires and the bundle issues with its predicate at zero. -/
  | waittTimeout (tile : Fin 512)
  /-- BAR (R165). The tile arrives at a barrier for an epoch and holds until that epoch completes. -/
  | bar (h : SlotHdr) (si se : Fin 32)
  /-- BARRIER_LEAVE (R165). A released participant acknowledges the release and the barrier moves toward the next epoch. -/
  | barrierLeave (tile : Fin 512) (ctx : Fin 256) (vid : Fin 65536)
  /-- DEFQ (R245). A weight-gradient descriptor is posted to the tile's deferred queue. -/
  | defq (h : SlotHdr) (sd sh : Fin 32)
  /-- DEFERRED_YIELD (R248). The main stream has been held for YIELD_NS, so the tile runs its oldest permitted deferred body. -/
  | deferredYield (tile : Fin 512)
  /-- CODE_PAGE_REFETCH (R135). A bundle that failed parity has its code page refetched from memory and is retried once. -/
  | codePageRefetch (tile : Fin 512)
  /-- LD (R297). Engine instruction: a plane value is decoded to FP32. -/
  | ld (o : EngOps)
  /-- ST (R297). Engine instruction: a value is stored to a plane. -/
  | st (o : EngOps)
  /-- LDM (R279). Engine instruction: the master value is loaded into a wide register. -/
  | ldm (o : EngOps)
  /-- STM (R283). Engine instruction: the master value is stored and the working copy derived. -/
  | stm (o : EngOps)
  /-- LDV (R293). Engine instruction: the sketch estimate for the element is loaded. -/
  | ldv (o : EngOps)
  /-- WADD (R296). Engine instruction: a wide addition rounded to the master grid. -/
  | wadd (o : EngOps)
  /-- WMUL (R296). Engine instruction: a wide multiplication rounded to the master grid. -/
  | wmul (o : EngOps)
  /-- WTOF (R296). Engine instruction: a wide value is rounded to FP32. -/
  | wtof (o : EngOps)
  /-- ADD (R296). Engine instruction: FP32 addition. -/
  | add (o : EngOps)
  /-- SUB (R296). Engine instruction: FP32 subtraction. -/
  | sub (o : EngOps)
  /-- MUL (R296). Engine instruction: FP32 multiplication. -/
  | mul (o : EngOps)
  /-- FMA (R296). Engine instruction: FP32 fused multiply-add. -/
  | fma (o : EngOps)
  /-- FMS (R296). Engine instruction: FP32 fused multiply-subtract. -/
  | fms (o : EngOps)
  /-- DIV (R296). Engine instruction: FP32 division. -/
  | div (o : EngOps)
  /-- MAX (R296). Engine instruction: FP32 maximum. -/
  | max (o : EngOps)
  /-- MIN (R296). Engine instruction: FP32 minimum. -/
  | min (o : EngOps)
  /-- ABS (R296). Engine instruction: FP32 absolute value. -/
  | abs (o : EngOps)
  /-- NEG (R296). Engine instruction: FP32 negation. -/
  | neg (o : EngOps)
  /-- SQRT (R296). Engine instruction: FP32 square root. -/
  | sqrt (o : EngOps)
  /-- RSQ (R296). Engine instruction: FP32 reciprocal square root. -/
  | rsq (o : EngOps)
  /-- RCP (R296). Engine instruction: FP32 reciprocal. -/
  | rcp (o : EngOps)
  /-- EXP2 (R296). Engine instruction: FP32 power of two. -/
  | exp2 (o : EngOps)
  /-- LOG2 (R296). Engine instruction: FP32 base-2 logarithm. -/
  | log2 (o : EngOps)
  /-- CSGN (R296). Engine instruction: a magnitude takes the sign of another value. -/
  | csgn (o : EngOps)
  /-- CMP (R296). Engine instruction: a comparison writes a mask register. -/
  | cmp (o : EngOps)
  /-- SEL (R296). Engine instruction: selection between two values by a mask. -/
  | sel (o : EngOps)
  /-- ENGINE_NOP (R296). Engine instruction 0x00 does nothing. -/
  | engineNop (o : EngOps)
  /-- CREATE (R154). The SYN_OP maps a virtual id to a new synchronisation object. -/
  | create (fn : Fin 64) (ctx : Fin 256) (vid : Fin 65536) (rsv : Bool)
  /-- DESTROY (R156). The SYN_OP unmaps an object, releasing its waiters and cancelling its watches. -/
  | destroy (fn : Fin 64) (ctx : Fin 256) (vid : Fin 65536) (rsv : Bool)
  /-- READ (R152). The SYN_OP returns an object's value and state word. -/
  | read (fn : Fin 64) (ctx : Fin 256) (vid : Fin 65536) (rsv : Bool)
  /-- WATCH (R168). The SYN_OP registers a watch on an object. -/
  | watch (fn : Fin 64) (ctx : Fin 256) (vid : Fin 65536) (rsv : Bool)
  /-- UNWATCH (R168). The SYN_OP removes a watch. -/
  | unwatch (fn : Fin 64) (ctx : Fin 256) (vid : Fin 65536) (rsv : Bool)
  /-- TRACE (R175). The SYN_OP turns tracing of an object on or off. -/
  | trace (fn : Fin 64) (ctx : Fin 256) (vid : Fin 65536) (rsv : Bool)
  /-- DBG_SET (R177). The intervene SYN_OP writes any value to an object. -/
  | dbgSet (fn : Fin 64) (ctx : Fin 256) (vid : Fin 65536) (rsv : Bool)
  /-- DBG_RELEASE (R177). The intervene SYN_OP releases every held waiter on an object. -/
  | dbgRelease (fn : Fin 64) (ctx : Fin 256) (vid : Fin 65536) (rsv : Bool)
  /-- DBG_EPOCH (R177). The intervene SYN_OP sets a barrier to a given open epoch. -/
  | dbgEpoch (fn : Fin 64) (ctx : Fin 256) (vid : Fin 65536) (rsv : Bool)
  /-- DBG_CLEAR (R177). The intervene SYN_OP ends an object's ERROR state. -/
  | dbgClear (fn : Fin 64) (ctx : Fin 256) (vid : Fin 65536) (rsv : Bool)
  /-- DBG_HOLD (R177). The intervene SYN_OP holds or releases increments to an object. -/
  | dbgHold (fn : Fin 64) (ctx : Fin 256) (vid : Fin 65536) (rsv : Bool)
  /-- SYN_OP_COMPLETE (R153). A SYN_OP completes, writes its results and status, and clears BUSY. -/
  | synOpComplete (fn : Fin 64)
  /-- CORE_INCREMENT (R158). An application or firmware core adds to a counter through the internal control window. -/
  | coreIncrement (core : Fin 21) (ctx : Fin 256) (vid : Fin 65536) (inc : BitVec 64)
  /-- SYN_DBG_CTL_WRITE (R176). A write to SYN_DBG_CTL sets observe mode, or intervene mode only while the scope is open. -/
  | synDbgCtlWrite (fn : Fin 64) (ctx : Fin 256) (value : BitVec 64)
  /-- NOTIFY_RING_ENABLE (R172). A write that sets SYN_NQ_CFG.EN enables the notification ring, first writing a LOST record when LOST is non-zero. -/
  | notifyRingEnable (fn : Fin 64) (ctx : Fin 256) (value : BitVec 64)
  /-- NOTIFY_RING_HEAD_WRITE (R173). A write to SYN_NQ_HEAD consumes records and delivers held records, then LOST, then newer records. -/
  | notifyRingHeadWrite (fn : Fin 64) (ctx : Fin 256) (head : BitVec 16)
  /-- NUM_RECORD_CLEAR (R240). A write of 1 to EXC_NUM_STATE.CLEAR empties the exception record. -/
  | numRecordClear (fn : Fin 64) (ctx : Fin 256)
  /-- TENSOR_REGISTER (R316). A write of GO to NUM_TENSOR_REG starts the registration of a tracked tensor. -/
  | tensorRegister (fn : Fin 64) (ctx : Fin 256) (tid : BitVec 32)
  /-- TENSOR_REGISTER_DONE (R316). Registration checks the descriptor, resets its history, marks every block cold and writes the CRCs. -/
  | tensorRegisterDone (ctx : Fin 256)
  /-- STEP_OPEN (R242). A step program's launch opens the step, checking the shard table and refreshing stale working copies before its first bundle. -/
  | stepOpen (q : Fin 65536) (c : Nat) (fetched : List (BitVec 24 × List Byte))
  /-- REPLAY_ARM (R270). A write that sets EXC_REPLAY_CTL.ARM makes the next step launch a replay. -/
  | replayArm (fn : Fin 64) (ctx : Fin 256)
  /-- DECISION_RECORD (R287). A device receives the root's norm decision record, adopts it and evaluates the crozier for an applied step. -/
  | decisionRecord (ctx : Fin 256) (step : BitVec 64) (sum norm kappa : BitVec 32) (reason : Fin 4)
  /-- UPDATE_START (R53). With the decision adopted and the gradient handed to MIR or received, an engine begins the update passes of a shard. -/
  | updateStart (eng : Fin 48) (ctx : Fin 256) (shard : BitVec 24)
  /-- ENGINE_PASS_COMPLETE (R298). An engine pass (intake, sketch, microprogram, form or apply) completes over a shard. -/
  | enginePassComplete (eng : Fin 48)
  /-- FORM_PASS (R410). After the update of a round's last step, the form pass quantises each exchanged shard's difference. -/
  | formPass (eng : Fin 48) (ctx : Fin 256) (shard : BitVec 24)
  /-- CHECKPOINT_GO (R309). A write of GO to UPD_CKPT_CTL arms a checkpoint at the close of the open step. -/
  | checkpointGo (fn : Fin 64) (ctx : Fin 256)
  /-- CHECKPOINT_WRITE (R310). At the logical point, the device writes the checkpoint image while later steps run. -/
  | checkpointWrite (ctx : Fin 256)
  /-- CHECKPOINT_DONE (R310). The checkpoint image is complete and event 0x0605 is raised, or it fails with event 0x0606. -/
  | checkpointDone (ctx : Fin 256)
  /-- RESTORE (R311). A write of RESTORE to UPD_CKPT_CTL verifies a checkpoint image, or refuses it. -/
  | restore (fn : Fin 64) (ctx : Fin 256)
  /-- RESTORE_DONE (R312). The restore writes shard records, crozier, scale and outer state and raises event 0x0607. -/
  | restoreDone (ctx : Fin 256)
  /-- REGION_CONFIG (R322). A write to MEM_REGION_CFG remaps the regions while no context is enabled. -/
  | regionConfig (fn : Fin 64) (value : BitVec 64)
  /-- CAL_SLICE (R336). The calibration schedule takes a pseudo-channel out of data service for one slice. -/
  | calSlice (ch : Fin 384) (pc : Fin 2)
  /-- CAL_SLICE_DONE (R339). A slice ends, and pins below margin get a spare lane or an erasure, which may retire or lose the channel. -/
  | calSliceDone (ch : Fin 384) (pins : List (Fin 36)) (margin : Option (BitVec 8)) (last : Bool)
  /-- CHANNEL_RETIRE (R342). The RETIRE operation of MEM_CH_CMD retires a channel and starts its migration. -/
  | channelRetire (fn : Fin 64) (ch : BitVec 9)
  /-- CLEAR_COUNTS (R342). The CLEAR_COUNTS operation of MEM_CH_CMD zeroes the channel's error window. -/
  | clearCounts (fn : Fin 64) (ch : BitVec 9)
  /-- MIGRATION_SLOT_MOVE (R343). Migration moves the next slot of a retired channel and advances the watermark; after the last slot, event 0x0107. -/
  | migrationSlotMove (st : Fin 12) (errs : List (Fin 8 × SymErrs))
  /-- SCRUB_READ (R335). The patrol scrub reads a codeword and writes back corrections or poisons it. -/
  | scrubRead (ch : Fin 384) (slot : BitVec 23) (word : Fin 8) (errs : SymErrs)
  /-- CHANNEL_NO_RESPONSE (R344). A memory request goes unanswered for 100 µs, so the channel is lost and a device-fatal fault is declared. -/
  | channelNoResponse (ch : Fin 384)
  /-- DIE_LINK_RETRY (R46). A die-to-die or die-to-hub transfer fails its CRC and is retried; after 16 retries the device declares a fatal fault. -/
  | dieLinkRetry (l : Fin 10) (again : Bool)
  /-- MEM_THROTTLE_TICK (R347). Every 1 ms each stack's bandwidth and engine rate are set from its hottest sensor. -/
  | memThrottleTick (st : Fin 12) (tMax tBase : BitVec 8)
  /-- DIE_THROTTLE_UPDATE (R349). A change in a compute die's hottest junction temperature changes its tile clock limit. -/
  | dieThrottleUpdate (d : Fin 4) (tj : BitVec 12)
  /-- SUPPLY_DROOP (R38). A fast supply droop makes the island stretch its clock cycles. -/
  | supplyDroop (rail : Fin 6)
  /-- RAIL_UNDERVOLT (R598). Rail 0–5 stays below 94 % of its set point for more than 10 µs and a device-fatal fault is declared. -/
  | railUndervolt (rail : Fin 6)
  /-- FLIT_DATA (R378). A DATA flit is received, checked and sequenced, then delivered or forwarded. -/
  | flitData (port : Fin 7) (t : Trailer) (h : FlitHead) (payload : List Byte)
  /-- FLIT_CTRL (R378). A CTRL flit is received, checked and sequenced, then delivered or forwarded. -/
  | flitCtrl (port : Fin 7) (t : Trailer) (h : FlitHead) (payload : List Byte)
  /-- FLIT_TIME (R391). A TIME flit is received and its timestamps give an offset that corrects device time. -/
  | flitTime (port : Fin 7) (t : Trailer) (replayed : Bool) (t1 t3 t4 : BitVec 64)
  /-- FLIT_DISCOVER (R382). A DISCOVER flit gives the peer's id, port and dimensions, and the link goes UP or HELD. -/
  | flitDiscover (port : Fin 7) (t : Trailer) (id : BitVec 16) (peer : Fin 7) (dx dy : BitVec 5) (dz : BitVec 6)
  /-- FLIT_LINK (R380). A LINK flit returns credits on the link. -/
  | flitLink (port : Fin 7) (t : Trailer) (vc : Fin 4) (n : BitVec 16)
  /-- FLIT_IDLE (R378). An IDLE flit is received, carrying only its acknowledgement. -/
  | flitIdle (port : Fin 7) (t : Trailer)
  /-- LINK_SILENCE_TIMEOUT (R379). No flit with a correct CRC arrives for 2 µs and the link goes DOWN. -/
  | linkSilenceTimeout (port : Fin 7)
  /-- LINK_TRAIN_DONE (R381). Training measures the loss and sets full or reduced rate, or returns the link to DOWN. -/
  | linkTrainDone (port : Fin 7) (loss : BitVec 16) (trains : Bool)
  /-- LINK_TRAIN_RETRY (R381). Every 100 ms a DOWN link that could not train tries again. -/
  | linkTrainRetry (port : Fin 7)
  /-- TIME_FLIT_SEND (R391). Every 125 µs each UP port sends a TIME flit. -/
  | timeFlitSend (port : Fin 7)
  /-- TIME_MASTER_TIMEOUT (R390). The master sends no TIME flit for 1 ms, so devices take the backup master. -/
  | timeMasterTimeout
  /-- PPS_EDGE (R393). A 1PPS edge is timestamped, and on the master it corrects device time. -/
  | ppsEdge
  /-- PPS_TIMEOUT (R393). The master sees no 1PPS edge for 2 s and raises event 0x020D. -/
  | ppsTimeout
  /-- VSB_BYP_LOSS (R384). VSB_BYP falls below its threshold and every bypass closes. -/
  | vsbBypLoss
  /-- VSB_BYP_PRESENT (R604). VSB_BYP rises and is held present, so releases can take effect. -/
  | vsbBypPresent
  /-- BYPASS_RELEASE (R385). The RELEASE operation of FAB_BYP_CTL releases the bypasses of MASK. -/
  | bypassRelease (fn : Fin 64) (mask : BitVec 3)
  /-- BYPASS_CLOSE (R385). The CLOSE operation of FAB_BYP_CTL closes the bypasses of MASK. -/
  | bypassClose (fn : Fin 64) (mask : BitVec 3)
  /-- RETRAIN (R382). A write of RETRAIN to FAB_PORT_CTL takes the link DOWN and retrains it. -/
  | retrain (fn : Fin 64) (port : Fin 7)
  /-- PORT_DISABLE (R381). A write to FAB_PORT_CTL.DISABLE disables or re-enables a fabric port. -/
  | portDisable (fn : Fin 64) (port : Fin 7) (on : Bool)
  /-- COLL_STALL_TIMEOUT (R406). A collective makes no progress for STALL_MS and raises event 0x020B. -/
  | collStallTimeout (ctx : Fin 256) (tag : BitVec 32)
  /-- MEMBER_REWRITE (R405). A member-table rewrite reaches a device, and its collectives of that group restart with a new ATTEMPT. -/
  | memberRewrite (ctx : Fin 256) (group rank dev : BitVec 16)
  /-- XCH_ENABLE (R451). A write of XCH_CFG.EN enables outer rounds for a context, or is refused when four are already enabled. -/
  | xchEnable (fn : Fin 64) (ctx : Fin 256) (value : BitVec 64)
  /-- ROUND_CODE (R418). The exchange engine builds group histograms and tables and codes the round's soredia. -/
  | roundCode (ctx : Fin 256) (lost : List (BitVec 24 × BitVec 24))
  /-- SEAL_SEND (R484). After the round's last soredium is handed to the gateway, the origin sends its seal to every remote site. -/
  | sealSend (ctx : Fin 256) (round : BitVec 32) (site : Fin 64)
  /-- GATEWAY_ITEM_RECEIVE (R462). A gateway receives a soredium or message from an origin device against a credit. -/
  | gatewayItemReceive (ctx : Fin 256) (dev : BitVec 16) (site : Fin 64) (rep : Bool) (kind : Fin 9) (dst : BitVec 16) (bytes : List Byte)
  /-- GATEWAY_CREDIT (R462). A credit granted by a gateway over CTRL lets the origin send one more item. -/
  | gatewayCredit (ctx : Fin 256) (gw : BitVec 16)
  /-- PATH_ANNOUNCE (R459). A gateway's announcement of a change in its UP paths changes the origins' routing. -/
  | pathAnnounce (ctx : Fin 256) (gw : BitVec 16) (site : Fin 64) (up : Bool)
  /-- SOREDIUM_RECEIVE (R425). An owner receives a sealed soredium and checks tag, CRC, header, table and stream. -/
  | sorediumReceive (ctx : Fin 256) (bytes : List Byte)
  /-- SEAL_RECEIVE (R485). An owner receives and parks a seal and checks the shard digests of its records. -/
  | sealReceive (ctx : Fin 256) (body : List Byte)
  /-- REFETCH_TIMEOUT (R487). A seal's soredia are still missing after REFETCH_MS, so a REFETCH is sent. -/
  | refetchTimeout (ctx : Fin 256) (site : Fin 64) (src : BitVec 16) (round : BitVec 64)
  /-- REFETCH (R487). An origin receives a REFETCH and resends held soredia with REPEAT, or answers GONE. -/
  | refetch (ctx : Fin 256) (frm : Fin 64) (dev : BitVec 16) (body : List Byte)
  /-- GONE (R487). An owner receives GONE; the contribution stays incomplete and event 0x030B is raised. -/
  | gone (ctx : Fin 256) (body : List Byte)
  /-- CONTRIBUTION_REPORT (R438). The site's ledger device receives an owner's report that a contribution is complete. -/
  | contributionReport (ctx : Fin 256) (dev : BitVec 16) (site : Fin 64) (round : BitVec 32)
  /-- SITE_REPORT (R438). The holder's ledger device receives a site report, and closes the round when all reports hold it complete. -/
  | siteReport (ctx : Fin 256) (body : List Byte)
  /-- LEDGER_DEADLINE (R439). DEADLINE_MS after its site's form, the holder's ledger device closes the round with absent sites. -/
  | ledgerDeadline (ctx : Fin 256)
  /-- LEDGER_ENTRY (R439). A ledger entry is received and adopted, or refused on a PARAMS mismatch; a higher epoch moves the token or heals. -/
  | ledgerEntry (ctx : Fin 256) (body : List Byte)
  /-- PROVISIONAL_TIMEOUT (R442). No canonical entry arrives within DEADLINE_MS plus GRACE_MS and the site enters PROVISIONAL. -/
  | provisionalTimeout (ctx : Fin 256) (told : Bool)
  /-- ROUND_APPLY (R411). At the open of the apply step, once the ledger entry and the decodes are ready, the apply pass runs and accounting becomes final. -/
  | roundApply (ctx : Fin 256)
  /-- APPLY_STALL_TIMER (R411). The apply wait exceeds 1 ms and event 0x070F is raised. -/
  | applyStallTimer (ctx : Fin 256)
  /-- EFFICIENCY_REPORT (R490). An origin receives a gateway's FIRST and ALL bit counts for one of its rounds. -/
  | efficiencyReport (ctx : Fin 256) (gw : BitVec 16) (round : BitVec 32) (first all : BitVec 64)
  /-- SNAP_REQ (R446). A source owner receives a snapshot request and answers with a manifest or chunks. -/
  | snapReq (ctx : Fin 256) (frm : Fin 64) (dev : BitVec 16) (body : List Byte)
  /-- SNAP_MANIFEST (R446). A joiner receives a manifest and accepts it when source and twin agree. -/
  | snapManifest (ctx : Fin 256) (dev : BitVec 16) (role : Fin 3) (body : List Byte)
  /-- SNAP_CHUNK (R446). A joiner receives a snapshot chunk and checks its CRC-64, fetching it again on failure. -/
  | snapChunk (ctx : Fin 256) (dev : BitVec 16) (body : List Byte)
  /-- SNAPSHOT_HOLD_TIMEOUT (R447). A source's hold of its apply pass for a restarted fetch reaches 2 s and ends. -/
  | snapshotHoldTimeout (ctx : Fin 256)
  /-- HANDOVER (R441). The HANDOVER operation of XCH_CMD hands the lineage token to a target site. -/
  | handover (fn : Fin 64) (ctx : Fin 256) (target : Fin 64)
  /-- CLAIM (R441). The CLAIM operation of XCH_CMD takes the token with a higher epoch. -/
  | claim (fn : Fin 64) (ctx : Fin 256)
  /-- JOIN (R448). The JOIN operation of XCH_CMD starts a late join by snapshot fetch. -/
  | join (fn : Fin 64) (ctx : Fin 256)
  /-- RESUME (R449). The RESUME operation of XCH_CMD returns a restored context to outer rounds, or is refused. -/
  | resume (fn : Fin 64) (ctx : Fin 256)
  /-- FAR_PORT_ENABLE (R453). A write of FAR_PORT_CFG.EN enables or disables a far port, held off before S6. -/
  | farPortEnable (fn : Fin 64) (port : Fin 2) (value : BitVec 64)
  /-- FAR_PORT_UP (R453). Every lane is aligned with no PCS fault and the far port is UP. -/
  | farPortUp (port : Fin 2)
  /-- FAR_PORT_DOWN (R453). A local or remote fault takes the far port DOWN, and every path on it with it. -/
  | farPortDown (port : Fin 2) (remote : Bool)
  /-- DATA_SEGMENT (R472). A gateway receives an AXT DATA segment, checks and accepts it, and forwards its soredium to the owner. -/
  | dataSegment (port : Fin 2) (frame : List Byte)
  /-- ACK_SEGMENT (R475). An ACK segment acknowledges segments, gives an RTT sample and declares reorder losses. -/
  | ackSegment (port : Fin 2) (frame : List Byte)
  /-- MSG_SEGMENT (R482). A MSG fragment is accepted and reassembled, and a whole message is forwarded to its device. -/
  | msgSegment (port : Fin 2) (frame : List Byte)
  /-- PROBE_SEGMENT (R479). A PROBE segment is received and answered by an ACK at once. -/
  | probeSegment (port : Fin 2) (frame : List Byte)
  /-- SEGMENT_SEND (R480). A path sends its next paced DATA or MSG segment, or a declared loss again first. -/
  | segmentSend (ctx : Fin 256) (path : Fin 128)
  /-- ACK_DELAY_TIMEOUT (R474). ACK_US after the first unacknowledged segment, the receiver sends an ACK. -/
  | ackDelayTimeout (ctx : Fin 256) (path : Fin 128)
  /-- RTO_TIMEOUT (R478). The oldest unacknowledged segment outlasts the effective timeout and is resent, and rto doubles. -/
  | rtoTimeout (ctx : Fin 256) (path : Fin 128)
  /-- PROBE_TIMER (R479). An idle path, or a DOWN path every 100 ms, sends a PROBE. -/
  | probeTimer (ctx : Fin 256) (path : Fin 128)
  /-- PATH_DEAD_TIMEOUT (R479). No ACK arrives for DEAD_MS while something is outstanding and the path goes DOWN. -/
  | pathDeadTimeout (ctx : Fin 256) (path : Fin 128)
  /-- PACE_INTERVAL (R480). Once per control interval the path updates alpha and its rate. -/
  | paceInterval (ctx : Fin 256) (path : Fin 128)
  /-- BUFFER_FULL_TIMER (R469). A retransmit buffer has held no room for 10 ms and event 0x0308 is raised. -/
  | bufferFullTimer (port : Fin 2)
  /-- SEGMENT_DROP (R470). Segments that no ledger can still include, or MSG segments past MSG_TTL_S, are dropped from the buffer. -/
  | segmentDrop (ctx : Fin 256) (path : Fin 128)
  /-- MSG_TTL_EXPIRY (R482). A message still incomplete MSG_TTL_S after its first fragment is discarded. -/
  | msgTtlExpiry (ctx : Fin 256) (site : Fin 64) (gw : BitVec 16) (id : BitVec 32)
  /-- KEY_PHASE_SWITCH (R466). The SWITCH operation of FAR_PATH_SEL inverts the key phase in which the selected path sends. -/
  | keyPhaseSwitch (fn : Fin 64) (ctx : Fin 256) (path : Fin 128)
  /-- HELLO (R496). A HELLO from the twin pairs the devices, or reports a mismatch and leaves each ALONE. -/
  | hello (order stepping : BitVec 8) (serial : BitVec 40) (dev : BitVec 16) (pos : Fin 2) (pst : Fin 5)
  /-- HELLO_SEND (R495). Every 1 ms until pairing completes, the device sends HELLO. -/
  | helloSend
  /-- PAIR_TIMEOUT (R496). No pairing within 60 s of S6 raises event 0x0402 with reason 3. -/
  | pairTimeout
  /-- HEARTBEAT_SEND (R495). Every 2 µs the device sends a HEARTBEAT over MIR. -/
  | heartbeatSend
  /-- HEARTBEAT (R506). A twin's HEARTBEAT restarts the silence timer, or with FATAL set makes the device declare its twin failed. -/
  | heartbeat (seq time : BitVec 64) (pst : Fin 5) (fatal : Bool)
  /-- TWIN_SILENCE_TIMEOUT (R507). Twin silence reaches 20 µs; the device declares the twin failed and asserts PAIR_RST_N. -/
  | twinSilenceTimeout
  /-- ADOPTION (R508). The survivor rewrites shard tables and announces its adoption to the site. -/
  | adoption
  /-- ADOPTION_ANNOUNCE (R461). An adoption announcement rewrites group members, forwarding entries, the ledger device and the origin of record. -/
  | adoptionAnnounce (ctx : Fin 256) (failed adopter replica other : BitVec 16) (drop back : Bool)
  /-- GRADIENT (R497). A mirror receives a finalised gradient shard over MIR. -/
  | gradient (ctx : Fin 256) (shard : BitVec 24) (grad gexp : List Byte)
  /-- DECISION (R288). A mirror receives the decision record and crozier values over MIR. -/
  | decision (ctx : Fin 256) (step : BitVec 64) (sum norm kappa : BitVec 32) (reason : Fin 4) (k : List (BitVec 32))
  /-- DELTA (R435). A mirror receives the dlt values of an exchanged shard over MIR. -/
  | delta (ctx : Fin 256) (shard : BitVec 24) (round : BitVec 32) (dlt : List (BitVec 32))
  /-- DIGEST (R503). An owner receives the mirror's block digests, compares them and resolves any divergence. -/
  | digest (ctx : Fin 256) (shard : BitVec 24) (of_ : DigestOf) (first : Nat) (digests : List (BitVec 64)) (marks : List Nat)
  /-- REPAIR (R503). A device receives a winning digest block, writes it and checks its digest again. -/
  | repair (ctx : Fin 256) (shard : BitVec 24) (block : Nat) (bytes : List Byte)
  /-- COPY (R514). A reintegrating device receives digest blocks of a shard from its twin. -/
  | copy (ctx : Fin 256) (shard : BitVec 24) (block : Nat) (bytes : List Byte)
  /-- PAIR_HOLD (R494). PAIR_HOLD_N is asserted and the device is held in reset with its bypasses closed. -/
  | pairHold
  /-- PAIR_HOLD_RELEASE (R570). PAIR_HOLD_N is released and the device may leave reset. -/
  | pairHoldRelease
  /-- RELEASE (R514). The RELEASE operation of PAIR_CTL releases PAIR_RST_N. -/
  | release (fn : Fin 64)
  /-- REINTEGRATE (R514). The REINTEGRATE operation of PAIR_CTL starts copying owned shards to the repaired twin. -/
  | reintegrate (fn : Fin 64)
  /-- HANDBACK (R515). The HANDBACK operation of PAIR_CTL makes adopted shards go back at the next step boundary. -/
  | handback (fn : Fin 64)
  /-- CONTINUE (R505). The CONTINUE operation of PAIR_CTL lets the held step of a context open. -/
  | continueStep (fn : Fin 64) (ctx : Fin 256)
  /-- GET_VERSION (R522). The mailbox message returns the ROM, slot and image versions. -/
  | getVersion (fn : Fin 64)
  /-- TELEMETRY (R522). The mailbox message returns the power and thermal registers. -/
  | telemetry (fn : Fin 64)
  /-- DRIVER_ATTACH (R535). The mailbox message opens, continues, resumes or forces a driver session. -/
  | driverAttach (fn : Fin 64)
  /-- DRIVER_DETACH (R536). The mailbox message ends the driver session without orphan hold. -/
  | driverDetach (fn : Fin 64)
  /-- SET_ORPHAN (R538). The mailbox message sets the orphan hold time. -/
  | setOrphan (fn : Fin 64)
  /-- FW_STAGE (R529). The long mailbox message writes a bundle into the inactive slot. -/
  | fwStage (fn : Fin 64)
  /-- FW_STAGE_DONE (R529). The staged bundle is verified and the slot becomes STAGED, or INVALID with event 0x0802. -/
  | fwStageDone (readOk : Bool)
  /-- FW_ACTIVATE (R530). The long mailbox message starts activation of a staged or previous slot. -/
  | fwActivate (fn : Fin 64)
  /-- ACTIVATION_CLEAR_WAIT (R530). No emergency has been active for 1 s, so activation starts to quiesce. -/
  | activationClearWait
  /-- ACTIVATION_QUIESCED (R530). No command or engine pass runs, so the firmware cores restart from the named slot. -/
  | activationQuiesced
  /-- ACTIVATION_QUIESCE_TIMEOUT (R530). Quiesce does not finish within WAIT_MS; dispatch resumes and activation is abandoned. -/
  | activationQuiesceTimeout
  /-- ACTIVATION_DEFER_TIMEOUT (R531). MAX_DEFER_S passes before restart and activation is abandoned. -/
  | activationDeferTimeout
  /-- ACTIVATION_HEALTH (R530). Every restarted core reports healthy; the slot becomes ACTIVE and event 0x0803 is raised. -/
  | activationHealth
  /-- CORE_HEALTH_TIMEOUT (R533). A core fails to report healthy within 1 s and every core rolls back to the previous slot. -/
  | coreHealthTimeout (core : Fin 4)
  /-- FW_QUERY (R522). The mailbox message returns the state and versions of both slots. -/
  | fwQuery (fn : Fin 64)
  /-- DIAG_RUN (R526). The long mailbox message starts a diagnostic test. -/
  | diagRun (fn : Fin 64)
  /-- DIAG_DONE (R526). A diagnostic test finishes and event 0x080F is raised. -/
  | diagDone (result : BitVec 32)
  /-- DRIVER_WATCHDOG_EXPIRY (R536). No driver heartbeat for 2 s; the device enters orphan hold and stops fetching. -/
  | driverWatchdogExpiry
  /-- ORPHAN_TIMEOUT (R538). Orphan hold lasts ORPHAN_S; the token is invalidated and every context is shut down. -/
  | orphanTimeout
  /-- PLDM_REQUEST (R527). An MCTP PLDM request from the board management controller over I3C is answered. -/
  | pldmRequest (query : PldmQuery)
  /-- PLDM_FIRMWARE_UPDATE (R527). A PLDM firmware update stages a bundle and activates it with default settings. -/
  | pldmFirmwareUpdate (bundle : List Byte)
  /-- POWER_CONTROL_PERIOD (R540). At each whole millisecond, the power loop sets f_pwr and the memory limit and checks over-power. -/
  | powerControlPeriod (p1 p100 : BitVec 16)
  /-- PMB_ALERT_SAMPLE (R545). Every 100 µs PMB_ALERT_N is sampled and regulator warnings are read. -/
  | pmbAlertSample (alert : Bool) (rails : List (BitVec 16 × BitVec 16 × BitVec 16 × Bool))
  /-- PWR_BRAKE_ASSERT (R545). PWR_BRAKE_N is asserted and the BRAKE emergency clamp is applied. -/
  | pwrBrakeAssert
  /-- PWR_BRAKE_RELEASE (R545). PWR_BRAKE_N is released and the BRAKE cause clears. -/
  | pwrBrakeRelease
  /-- VR_HOT_ASSERT (R545). VR_HOT_N is asserted and the VR_FAULT clamp is applied. -/
  | vrHotAssert
  /-- VR_HOT_RELEASE (R545). VR_HOT_N is released and the VR_FAULT cause may clear. -/
  | vrHotRelease
  /-- THERMAL_TRIP (R546). A junction reaches 115 °C or a stack 105 °C; THERM_TRIP_N is asserted and a device-fatal fault declared. -/
  | thermalTrip (source temp : BitVec 8)
  /-- SPDM_GET_VERSION (R552). The SPDM request returns the supported versions. -/
  | spdmGetVersion
  /-- SPDM_GET_CAPABILITIES (R552). The SPDM request returns the responder capabilities. -/
  | spdmGetCapabilities
  /-- SPDM_NEGOTIATE_ALGORITHMS (R552). The SPDM request negotiates the algorithms. -/
  | spdmNegotiateAlgorithms (offered : Bool)
  /-- SPDM_GET_DIGESTS (R553). The SPDM request returns certificate chain digests. -/
  | spdmGetDigests
  /-- SPDM_GET_CERTIFICATE (R553). The SPDM request returns a certificate chain. -/
  | spdmGetCertificate (slot : Fin 8) (offset length : BitVec 16)
  /-- SPDM_CHALLENGE (R553). The SPDM request is answered with an alias-key signature. -/
  | spdmChallenge (slot : Fin 8) (nonce : List Byte)
  /-- SPDM_GET_MEASUREMENTS (R554). The SPDM request returns the signed measurement blocks. -/
  | spdmGetMeasurements (index : BitVec 8) (signed : Bool) (nonce : List Byte)
  /-- SPDM_KEY_EXCHANGE (R552). The SPDM request starts a secure session. -/
  | spdmKeyExchange (slot : Fin 8) (exchange : List Byte)
  /-- SPDM_FINISH (R552). The SPDM request completes a secure session handshake. -/
  | spdmFinish (session : BitVec 32) (verifies : Bool)
  /-- SPDM_KEY_UPDATE (R552). The SPDM request updates a session's keys. -/
  | spdmKeyUpdate (session : BitVec 32)
  /-- SPDM_HEARTBEAT (R552). The SPDM request keeps a secure session alive. -/
  | spdmHeartbeat (session : BitVec 32)
  /-- SPDM_END_SESSION (R552). The SPDM request ends a secure session. -/
  | spdmEndSession (session : BitVec 32)
  /-- IDE_KM (R560). An IDE_KM message inside an SPDM session loads IDE stream keys. -/
  | ideKm (session : BitVec 32) (stream : Fin 4) (tx : Bool) (sub : Fin 3) (set : Fin 2) (key : BitVec 256)
  /-- IDE_TLP_RECEIVE (R560). An IDE-protected TLP is checked, and a MAC failure discards it and makes the stream insecure. -/
  | ideTlpReceive (stream : Fin 4) (sub : Fin 3) (set : Fin 2) (iv aad sealed : List Byte)
  /-- KEY_LOAD (R558). The LOAD operation of SEC_KEY_CMD checks and unwraps a key blob into a slot. -/
  | keyLoad (fn : Fin 64)
  /-- KEY_ERASE (R559). The ERASE operation of SEC_KEY_CMD empties a key slot. -/
  | keyErase (fn : Fin 64) (slot : BitVec 12)
  /-- KEY_SLOT_UPDATE (R559). Once every unit that took the old key has completed, a slot takes its new contents. -/
  | keySlotUpdate
  /-- SECURITY_ALARM (R564). An alarm sensor fires; keys and secrets are erased, scopes closed and a device-fatal fault declared. -/
  | securityAlarm (mask : BitVec 6) (corrected : BitVec 32) (link : Bool)
  /-- CHALLENGE (R567). The CHALLENGE operation of SEC_FA_CTL draws a field-access nonce. -/
  | challenge (fn : Fin 64)
  /-- SUBMIT (R567). The SUBMIT operation of SEC_FA_CTL checks the signed response and opens the scopes, or counts a failure. -/
  | submit (fn : Fin 64)
  /-- CLOSE (R568). The CLOSE operation of SEC_FA_CTL closes every open scope. -/
  | close (fn : Fin 64)
  /-- NONCE_EXPIRY (R567). A field-access nonce reaches 60 s and is no longer valid. -/
  | nonceExpiry
  /-- SCOPE_EXPIRY (R568). A scope's minutes expire and it closes, clearing intervene mode for SYNC_INTERVENE. -/
  | scopeExpiry (scope : Fin 4)
  /-- IDCODE (R566). The TAP instruction reads the device identity. -/
  | idcode
  /-- BYPASS (R566). The TAP instruction selects the bypass register. -/
  | bypass
  /-- SAMPLE_PRELOAD (R566). The TAP instruction samples or preloads the boundary scan cells. -/
  | samplePreload (cells : List Bool)
  /-- EXTEST (R566). The TAP instruction drives boundary cells while the device is held in reset. -/
  | extest
  /-- EXTEST_PULSE (R566). The IEEE 1149.6 TAP instruction, allowed only while the device is held in reset. -/
  | extestPulse
  /-- EXTEST_TRAIN (R566). The IEEE 1149.6 TAP instruction, allowed only while the device is held in reset. -/
  | extestTrain
  /-- SEC_FA (R566). The TAP instruction reaches the field-access registers. -/
  | secFa (reg : FaReg) (value : BitVec 64)
  /-- PWR_GOOD_RISE (R571). PWR_GOOD rises and the straps are sampled. -/
  | pwrGoodRise (straps : BitVec 4)
  /-- PWR_GOOD_FALL (R601). PWR_GOOD falls and the device enters cold reset. -/
  | pwrGoodFall
  /-- COLD_RESET_ASSERT (R570). COLD_RST_N is asserted and the device enters cold reset. -/
  | coldResetAssert
  /-- WARM_RESET_ASSERT (R570). WARM_RST_N is asserted and the device enters warm reset. -/
  | warmResetAssert
  /-- PERST_ASSERT (R570). PCIe PERST_N is asserted and the device enters warm reset. -/
  | perstAssert
  /-- PCIE_HOT_RESET (R570). A PCIe hot reset or link disable causes a warm reset. -/
  | pcieHotReset
  /-- WARM (R570). A write of 1 to BOOT_CTL.WARM performs a warm reset. -/
  | warm (fn : Fin 64)
  /-- RESET_RELEASE (R570). Every reset input is deasserted and the device leaves reset at the start of its stage sequence. -/
  | resetRelease
  /-- STAGE_REACHED (R577). The conditions of the next bring-up stage are met and the device enters it. -/
  | stageReached (event : StageEvent)
  /-- STAGE_BOUND_TIMEOUT (R578). A stage is not reached within its bound and bring-up halts with fault 7. -/
  | stageBoundTimeout
  /-- RECOVER (R583). A write of RECOVER to BOOT_CTL starts fetching a recovery bundle from the host. -/
  | recover (fn : Fin 64)
  /-- RECOVERY_FETCH_DONE (R583). The recovery bundle is fetched and verified, then the device enters S2 or waits again. -/
  | recoveryFetchDone (fault : Option (BitVec 32))
  /-- REFCLK_LOSS (R602). A reference clock stops for more than 1 µs, with the port, link or alarm consequence for that clock. -/
  | refclkLoss (clock : RefClk)
  /-- FLIT_BAD_CRC (R378). A flit arrives with a bad CRC; the receiver discards it and every later flit and sends NAK with LACK at the last accepted flit. -/
  | flitBadCrc (port : Fin 7)
  /-- FRAME_DISCARD (R454). A frame received on a far port fails an Ethernet, IP or UDP check, such as a bad FCS, a wrong address, a fragment, a non-UDP protocol or ARP, and is discarded and counted in RX_DISCARD. -/
  | frameDiscard (port : Fin 2) (frame : List Byte)
  /-- HUB_JUNCTION_TEMPERATURE (R545). A change in the hub's hottest junction temperature above 105 °C, or back to 103 °C or below, enters or clears the DIE_HOT emergency cause. -/
  | hubJunctionTemperature (tj : BitVec 12)
deriving DecidableEq, Repr

end Sys2Proof
end

