-- ==== Sys2Proof/Machine/Aes.lean ====
section
/-! DEFINITION. The ciphers and digests that the rules take from other standards: AES-256 (FIPS 197) under GCM (SP 800-38D), SHA-384
(FIPS 180-4), HMAC (FIPS 198-1) and ECDSA over P-384 (FIPS 186-5) (R424, R463, R549, R557). -/

namespace Sys2Proof.Machine

-- # AES-256 (FIPS 197)

/-- Multiplication by x in GF(2^8), modulo x^8 + x^4 + x^3 + x + 1. -/
def aesTimes (a : Nat) : Nat := if 128 ≤ a then (2 * a) ^^^ 0x11B else 2 * a

/-- The product in GF(2^8). -/
def aesMul (a b : Nat) : Nat :=
  ((List.range 8).foldl (fun (s : Nat × Nat) i => (if b.testBit i then s.1 ^^^ s.2 else s.1, aesTimes s.2)) (0, a)).1

/-- The inverse in GF(2^8), a^254; zero for zero. -/
def aesInv (a : Nat) : Nat := ((List.range 7).foldl (fun (s : Nat × Nat) _ => let q := aesMul s.2 s.2; (aesMul s.1 q, q)) (1, a)).1

/-- A byte turned left. -/
def aesTurn (b n : Nat) : Nat := (b * 2 ^ n) % 256 + b / 2 ^ (8 - n)

/-- SubBytes of one byte. -/
def aesSub (a : Nat) : Nat := let b := aesInv a; b ^^^ aesTurn b 1 ^^^ aesTurn b 2 ^^^ aesTurn b 3 ^^^ aesTurn b 4 ^^^ 0x63

/-- Two rows of bytes added. -/
def aesAdd (a b : List Nat) : List Nat := a.zipWith (· ^^^ ·) b

/-- The next word of the key schedule: `i` is its index, `ws` the words before it, newest first. -/
def aesKeyWord (i : Nat) (ws : List (List Nat)) : List Nat :=
  let last := ws.headD []
  let t :=
    if i % 8 = 0 then aesAdd ((last.drop 1 ++ last.take 1).map aesSub) [2 ^ (i / 8 - 1), 0, 0, 0]
    else if i % 8 = 4 then last.map aesSub else last
  aesAdd (ws.getD 7 []) t

/-- The 60 words of the key schedule, in order. -/
def aesKeys (key : List Byte) : List (List Nat) :=
  let first := ((List.range 8).map fun i => ((key.drop (4 * i)).take 4).map (·.toNat)).reverse
  (((List.range 52).foldl (fun ws i => aesKeyWord (8 + i) ws :: ws) first)).reverse

/-- The sixteen bytes of a round's key. -/
def aesRoundKey (ks : List (List Nat)) (r : Nat) : List Nat := ((ks.drop (4 * r)).take 4).flatMap id

/-- ShiftRows: the state is kept column by column. -/
def aesShift (s : List Nat) : List Nat := (List.range 16).map fun i => s.getD (i % 4 + 4 * ((i / 4 + i % 4) % 4)) 0

/-- MixColumns. -/
def aesMix (s : List Nat) : List Nat :=
  (List.range 16).map fun i =>
    let c (k : Nat) : Nat := s.getD (4 * (i / 4) + (i + k) % 4) 0
    aesTimes (c 0) ^^^ (aesTimes (c 1) ^^^ c 1) ^^^ c 2 ^^^ c 3

/-- One block enciphered under a key schedule. -/
def aesBlock (ks : List (List Nat)) (b : List Nat) : List Nat :=
  let s := (List.range 13).foldl (fun s r => aesAdd (aesMix (aesShift (s.map aesSub))) (aesRoundKey ks (r + 1))) (aesAdd b (aesRoundKey ks 0))
  aesAdd (aesShift (s.map aesSub)) (aesRoundKey ks 14)

-- # GCM (SP 800-38D), with an IV of 96 bits

/-- The counter block of a number. -/
def gcmBlock (ks : List (List Nat)) (iv : List Byte) (n : Nat) : List Nat := aesBlock ks ((iv ++ beBytes 4 n).map (·.toNat))

/-- Byte `i` of the key stream. -/
@[irreducible] def gcmStream (ks : List (List Nat)) (iv : List Byte) (i : Nat) : Byte := BitVec.ofNat 8 ((gcmBlock ks iv (2 + i / 16)).getD (i % 16) 0)

/-- The product of two blocks; bit 0 of a block is its most significant. -/
def gcmMul (x y : Nat) : Nat :=
  ((List.range 128).foldl (fun (s : Nat × Nat) i =>
    (if x.testBit (127 - i) then s.1 ^^^ s.2 else s.1, if s.2 % 2 = 1 then s.2 / 2 ^^^ 0xE1 * 2 ^ 120 else s.2 / 2)) (0, y)).1

/-- Bytes as blocks, the last one filled with zeros. -/
def gcmBlocks (bs : List Byte) : List Nat :=
  (List.range ((bs.length + 15) / 16)).map fun i =>
    let b := (bs.drop (16 * i)).take 16
    beNat (b ++ List.replicate (16 - b.length) 0)

/-- GHASH over the additional data and the ciphertext. -/
def ghash (h : Nat) (aad ct : List Byte) : Nat :=
  (gcmBlocks aad ++ gcmBlocks ct ++ [2 ^ 64 * (8 * aad.length) + 8 * ct.length]).foldl (fun y x => gcmMul (y ^^^ x) h) 0

/-- The tag, as a number whose first byte is most significant. -/
@[irreducible] def gcmTag (key iv aad ct : List Byte) : Nat :=
  let ks := aesKeys key
  let num (b : List Nat) : Nat := b.foldl (fun a x => 256 * a + x) 0
  ghash (num (aesBlock ks (List.replicate 16 0))) aad ct ^^^ num (gcmBlock ks iv 1)

-- # SHA-384 (FIPS 180-4)

/-- The first so many primes, by trial. -/
def primesTo (n : Nat) : List Nat := (List.range (n + 1)).filter fun p => decide (2 ≤ p) && (List.range p).all fun d => d < 2 || p % d != 0

/-- The greatest number whose k-th power is at most n, with so many bits. -/
def rootOf (k n : Nat) : Nat → Nat → Nat
  | 0, a => a
  | b + 1, a => if (a + 2 ^ b) ^ k ≤ n then rootOf k n b (a + 2 ^ b) else rootOf k n b a

/-- The first 64 bits of the fraction of a prime's k-th root. -/
def rootFraction (k p : Nat) : Nat := rootOf k (p * 2 ^ (64 * k)) 70 0 % 2 ^ 64

/-- The 80 constants of the rounds: of the cube roots of the first 80 primes. -/
def shaK : List Nat := (primesTo 409).map (rootFraction 3)

/-- The initial value of SHA-384: of the square roots of the ninth to the sixteenth prime. -/
def shaStart : List Nat := ((primesTo 53).drop 8).map (rootFraction 2)

/-- 64 bits turned right. -/
def rotr64 (x n : Nat) : Nat := x / 2 ^ n + (x % 2 ^ n) * 2 ^ (64 - n)

/-- The next word of the message schedule, of the words before it, newest first. -/
def shaNext (ws : List Nat) : Nat :=
  let a := ws.getD 1 0
  let b := ws.getD 14 0
  let s1 := rotr64 a 19 ^^^ rotr64 a 61 ^^^ a / 2 ^ 6
  let s0 := rotr64 b 1 ^^^ rotr64 b 8 ^^^ b / 2 ^ 7
  (s1 + ws.getD 6 0 + s0 + ws.getD 15 0) % 2 ^ 64

/-- One round, with its constant and its word. -/
def shaRound (v : List Nat) (kw : Nat × Nat) : List Nat :=
  match v with
  | [a, b, c, d, e, f, g, h] =>
    let t1 := h + (rotr64 e 14 ^^^ rotr64 e 18 ^^^ rotr64 e 41) + ((e &&& f) ^^^ ((2 ^ 64 - 1 - e) &&& g)) + kw.1 + kw.2
    let t2 := (rotr64 a 28 ^^^ rotr64 a 34 ^^^ rotr64 a 39) + ((a &&& b) ^^^ (a &&& c) ^^^ (b &&& c))
    [(t1 + t2) % 2 ^ 64, a, b, c, (d + t1) % 2 ^ 64, e, f, g]
  | _ => v

/-- One block of 128 bytes. -/
def shaBlock (v : List Nat) (b : List Byte) : List Nat :=
  let first := ((List.range 16).map fun i => beNat ((b.drop (8 * i)).take 8)).reverse
  let ws := ((List.range 64).foldl (fun l _ => shaNext l :: l) first).reverse
  (((shaK.zip ws).foldl shaRound v).zipWith (· + ·) v).map (· % 2 ^ 64)

/-- A message with its padding and its length. -/
def shaPad (m : List Byte) : List Byte :=
  let z := (239 - m.length % 128) % 128
  m ++ [0x80] ++ List.replicate z 0 ++ beBytes 16 (8 * m.length)

/-- SHA-384. -/
@[irreducible] def sha384 (m : List Byte) : List Byte :=
  let p := shaPad m
  (((List.range (p.length / 128)).foldl (fun v i => shaBlock v ((p.drop (128 * i)).take 128)) shaStart).take 6).flatMap (beBytes 8)

/-- HMAC with SHA-384, by key and message. -/
def hmac384 (key m : List Byte) : List Byte :=
  let k := if 128 < key.length then sha384 key else key
  let k := k ++ List.replicate (128 - k.length) 0
  sha384 (k.map (· ^^^ 0x5C) ++ sha384 (k.map (· ^^^ 0x36) ++ m))

-- # ECDSA over P-384 (FIPS 186-5, SP 800-186)

/-- The field, the order of the base point, and the coefficient b. -/
def p384 : Nat := 2 ^ 384 - 2 ^ 128 - 2 ^ 96 + 2 ^ 32 - 1
def n384 : Nat := 0xFFFFFFFFFFFFFFFFFFFFFFFFFFFFFFFFFFFFFFFFFFFFFFFFC7634D81F4372DDF581A0DB248B0A77AECEC196ACCC52973
def b384 : Nat := 0xB3312FA7E23EE7E4988E056BE3F82D19181D9C6EFE8141120314088F5013875AC656398D8A2ED19D2A85C8EDD3EC2AEF

/-- The base point. -/
def g384 : Nat × Nat :=
  (0xAA87CA22BE8B05378EB1C71EF320AD746E1D3B628BA79B9859F741E082542A385502F25DBF55296C3A545E3872760AB7,
    0x3617DE4A96262C6F5D9E98BF9292DC29F8F41DBD289A147CE9DA3113B5F0B8C00A60B1CE1D7E819D7A431D7C90EA0E5F)

/-- The difference modulo m. -/
def subMod (m a b : Nat) : Nat := (a + (m - b % m)) % m

/-- a^e modulo m, from the bits of e, the highest first. -/
def powMod (m a e : Nat) : Nat :=
  ((List.range 384).reverse).foldl (fun r i => let q := r * r % m; if e.testBit i then q * a % m else q) 1

/-- The inverse modulo a prime. -/
def invMod (m a : Nat) : Nat := powMod m a (m - 2)

/-- The sum of two points of the curve y^2 = x^3 - 3x + b; none is the point at infinity. -/
def addPoint : Option (Nat × Nat) → Option (Nat × Nat) → Option (Nat × Nat)
  | none, q => q
  | p, none => p
  | some (x, y), some (u, v) =>
    if x = u ∧ (y + v) % p384 = 0 then none
    else
      let l :=
        if x = u then 3 * (subMod p384 (x * x) 1) * invMod p384 (2 * y % p384) % p384
        else subMod p384 v y * invMod p384 (subMod p384 u x) % p384
      let w := subMod p384 (l * l) (x + u)
      some (w, subMod p384 (l * subMod p384 x w) y)

/-- A multiple of a point. -/
def mulPoint (k : Nat) (p : Option (Nat × Nat)) : Option (Nat × Nat) :=
  ((List.range 384).reverse).foldl (fun r i => let q := addPoint r r; if k.testBit i then addPoint q p else q) none

/-- A point of 96 bytes, X then Y. -/
def pointOf (bs : List Byte) : Nat × Nat := (beNat (bs.take 48), beNat ((bs.drop 48).take 48))

/-- 96 bytes are a point of P-384 (R558). -/
def onCurve (bs : List Byte) : Bool :=
  let (x, y) := pointOf bs
  bs.length == 96 && decide (x < p384) && decide (y < p384) && y * y % p384 == (subMod p384 (x * x * x) (3 * x) + b384) % p384

/-- ECDSA P-384 with SHA-384 verifies: the public key, the message, the signature as r then s (R549, R567). -/
def ecdsa384 (pub m sig : List Byte) : Bool :=
  let (r, s) := pointOf sig
  onCurve pub && sig.length == 96 && decide (0 < r) && decide (r < n384) && decide (0 < s) && decide (s < n384) &&
    (let w := invMod n384 s
     let e := beNat (sha384 m)
     match addPoint (mulPoint (e * w % n384) (some g384)) (mulPoint (r * w % n384) (some (pointOf pub))) with
     | none => false
     | some p => p.1 % n384 == r)

end Sys2Proof.Machine
end

