-- ==== Sys2Proof/Config.lean ====
section
/-! DEFINITION. The values the spec leaves open, as constants with no body: nothing in Lean can evaluate one or prove
a value of it, so a statement that holds holds for every value. Each names the log entry that declares it. -/

namespace Sys2Proof.Config

/-- A value the spec leaves undefined, drawn afresh: the argument is the state's count of such draws. Log 3. -/
opaque freeNat : Nat → Nat

/-- One bit of such a value. Log 3. -/
opaque freeBool : Nat → Bool

/-- A scalar register that R100 leaves undefined at the start of a launch, by the launch's draw and the register. Log 3. -/
opaque freeScalar : Nat → Nat → BitVec 64

/-- A vector register so left. Log 3. -/
opaque freeVector : Nat → Nat → BitVec 4096

/-- A predicate register so left. Log 3. -/
opaque freePred : Nat → Nat → BitVec 256

/-- What the binder lays out is fixed by the inputs of R64 and given by no rule: the first argument of these is those inputs, as bytes, the second
a record's offset. The bundles that the binder adds at a point of a record, to move virtual registers and tensors. Log 18. -/
opaque moves : List (BitVec 8) → Nat → Nat → List Nat

/-- The physical register that holds a virtual register at a record, by its kind and number. Log 18. -/
opaque physReg : List (BitVec 8) → Nat → Nat → Nat → Nat

/-- A register, or another choice, that the binder makes for its own use at a record, by the use's number. Log 18. -/
opaque scratch : List (BitVec 8) → Nat → Nat → Nat

/-- Where a TMMA or TRED record's code has its operands: 0 A, 1 B, 2 the partial sums. Log 18. -/
opaque tmmaPlace : List (BitVec 8) → Nat → Nat → Nat

/-- The lengths, in multiples of 64 and from 0 for one, of the pieces in which a chunk of a TMMA is run (R195). Log 18. -/
opaque tmmaPiece : List (BitVec 8) → Nat → Nat

/-- Whether the chunks of a TMMA that the canonical order does not bind go on from each other (R141). Log 18. -/
opaque nativeChain : List (BitVec 8) → Nat → Bool

/-- What a constant pool's entry, or a tensor reference, stands for as a number, by the image, the operand's kind and its value: no rule gives the
layout of the pool (R139). Log 18. -/
opaque constValue : List (BitVec 8) → Nat → Nat → Nat

/-- The page of 4 KiB of a tile store at which the bound code starts (R96). Log 18. -/
opaque codePage : List (BitVec 8) → Nat

/-- What the tensor references of a TMMA record say, by the image and the record's offset: 0 M, 1 N, 2 K, 3 whether it accumulates (its lowest
bit), 4 and 5 the formats. No rule gives the layout of the constant pool. Log 18. -/
opaque tmmaShape : List (BitVec 8) → Nat → Nat → Nat

/-- The blocks, and the chunks along K, that the binder chooses for a TMMA with ORDER = NATIVE (R141), by the record's offset. Log 18. -/
opaque nativeBlocks : List (BitVec 8) → Nat → List (Nat × Nat × Nat × Nat × Nat × Nat)
opaque nativeChunks : List (BitVec 8) → Nat → List (Nat × Nat)

/-- How many entries a constant pool has, by the bytes of its section: no rule gives their size (R140). Log 18. -/
opaque constEntries : List (BitVec 8) → Nat

/-- The CRC-32C of the bound image. Log 18. -/
opaque boundCrc : List (BitVec 8) → Nat

/-- The stages of the image that this device holds (R256). Log 18. -/
opaque localStages : List (BitVec 8) → List Nat

/-- Where the binder places, in the context's region, the boundary arena (0), the segment arena (1) and the mark table (2) of a local
stage of a bound image (R256, R257). Log 18. -/
opaque arenaPlace : List (BitVec 8) → Nat → Nat → Nat

/-- The devices that the replica of a stage spans (R263): no rule says where the binder finds it. Log 18. -/
opaque replicaSpan : List (BitVec 8) → Nat → Nat

/-- The set of its stack's cache in which a slot is placed: no rule gives it (R329). Log 38. -/
opaque cacheSet : Nat → Nat

/-- FAR_PORT_FEC of a port at a device time: what the wire has damaged comes from outside, and no command tells it. Log 79. -/
opaque fecCount : Nat → Nat → BitVec 64

/-- The declared input tensors of a bound image (Table 7-5, section 3): no format declares them. Each is a tensor id, an address in the
context's region and a length. Log 22. -/
opaque inputTensors : List (BitVec 8) → List (Nat × Nat × Nat)

/-- Where a bound image keeps the gradient buffer of a tensor on this device (R252, R253): its address, or nothing where it lies on another. No
format declares it. Log 37. -/
opaque tieBuffer : List (BitVec 8) → Nat → Option Nat

/-- The elements of a tensor of a bound image (R275): no format declares them. Log 22. -/
opaque tensorElems : List (BitVec 8) → Nat → Nat

/-- The X coordinate of the ECDH product of a public key with this device's import key (R553, R557). Log 23. -/
opaque importAgree : List (BitVec 8) → List (BitVec 8)
/-- A signature by this device's alias key, by the digest of the running SEC image and the message (R553). Log 23. -/
opaque aliasSign : List (BitVec 8) → List (BitVec 8) → List (BitVec 8)
/-- The certificate chain of a slot, by the slot and the digest of the running SEC image (R553). Log 23. -/
opaque certChain : Nat → List (BitVec 8) → List (BitVec 8)
/-- A response field whose content DMTF SPDM gives and no rule does, by the response code and what it depends on (R552). Log 23. -/
opaque spdmField : Nat → List (BitVec 8) → List (BitVec 8)
/-- The fused digest of a firmware-signing key (R549). Log 23. -/
opaque fuseKey : Nat → List (BitVec 8)
/-- A field-access public key in the fuses (R567). Log 23. -/
opaque faKey : Nat → List (BitVec 8)
/-- The ROM version (Tables 15-3 and 16-2). Log 23. -/
opaque romVersion : Nat
/-- The protocol minor version of the firmware in a bundle (MBX_VERSION.MINOR). Log 23. -/
opaque firmwareMinor : List (BitVec 8) → Nat
/-- The vendor's JEDEC manufacturer identity, as IDCODE carries it (R566). Log 23. -/
opaque manufacturer : Nat
/-- What a PLDM base request is answered with: DSP0240's (R527). Log 23. -/
opaque pldmBase : List Nat

/-- A byte of a message, or of the contents of a TIME, DISCOVER or LINK flit, whose layout no rule gives: by its kind, its contents and the byte's
index. Log 113. -/
opaque messageByte : Nat → List Nat → Nat → BitVec 8
/-- A byte of PAYLOAD past LEN (R377). Log 113. -/
opaque flitPad : Nat → BitVec 8
/-- The device that holds use 0 of a tie group of a bound image (R253). No format declares it. Log 37. -/
opaque tieHome : List (BitVec 8) → Nat → Nat
/-- The frequency correction, in ns per ms, that an error of device time leaves (R392, R393): no rule says how it follows. Log 114. -/
opaque freqOf : Int → Int

/-- An element of a collective's input at a rank that an adopter serves beside its own, where no rule gives it: by TAG, rank and element. Log 115. -/
opaque adoptedInput : Nat → Nat → Nat → Nat

/-- Where the symbol buffer keeps a quantisation block of a shard, in the context's memory (R427): no rule places it. Log 117. -/
opaque symbolPlace : Nat → Nat → Nat → Nat

end Sys2Proof.Config
end

