-- ==== Sys2Proof/Machine/Regs.lean ====
section
/-! DEFINITION. The register map (R24 to R28 and the field tables of every block): each register's name, its place in
BAR0, its fields with their access type and reset value, and the fields' names. The reserved fields are not listed:
they read as zero and ignore writes (R26). Written from the field tables of spec/, one row for one row. -/

namespace Sys2Proof.Machine

/-- The access types of Table 0-4. -/
inductive Access where
  | ro | rw | w1c | w1s | wo | rws
deriving DecidableEq, Repr

/-- The registers of BAR0, under the names of their field tables. -/
inductive RegName where
  | HIF_ID
  | HIF_SERIAL
  | HIF_STATUS
  | HIF_DEVTIME
  | HIF_EPOCH_STATUS
  | HIF_EPOCH_PENDING
  | HIF_EPOCH_COMMIT
  | HIF_BAR4_BASE
  | HIF_HEARTBEAT
  | HIF_BLOCKED
  | QUE_CTX_CFG
  | QUE_CTX_SORI
  | QUE_CTX_MEM
  | QUE_CTX_SYN
  | QUE_SQ_BASE
  | QUE_CQ_BASE
  | QUE_CFG
  | QUE_STATE
  | EXC_EVQ_BASE
  | EXC_EVQ_CFG
  | EXC_EVQ_HEAD
  | EXC_EVQ_STATE
  | SYN_OP
  | SYN_ARG0
  | SYN_ARG1
  | SYN_ARG2
  | SYN_RESULT0
  | SYN_RESULT1
  | SYN_OP_STATUS
  | SYN_NQ_BASE
  | SYN_NQ_CFG
  | SYN_NQ_HEAD
  | SYN_NQ_STATE
  | SYN_CTX_USE
  | SYN_ERR
  | SYN_DBG_CTL
  | SYN_DBG_STATUS
  | SYN_FREE
  | SYN_WATCH_FREE
  | EXC_NUM_CFG
  | EXC_NUM_STATE
  | EXC_NUM_INV
  | EXC_NUM_E0
  | EXC_NUM_E1
  | EXC_NUM_E2
  | EXC_NUM_E3
  | EXC_STEP_CFG
  | EXC_CAP_BASE
  | EXC_STEP_STATE
  | EXC_STEP_INDEX
  | EXC_STEP_OPEN_T
  | EXC_STEP_CLOSE_T
  | EXC_DEFER_RUNS
  | EXC_DEFER_TIME
  | EXC_PHASE
  | EXC_PHASE_MAX
  | EXC_STASH_CFG
  | EXC_STASH_USE
  | EXC_STASH_MARKS
  | EXC_REPLAY_CTL
  | EXC_REPLAY_ADDR
  | EXC_REPLAY_STATUS
  | NUM_JOB_SEED
  | NUM_TENSOR_BASE
  | NUM_TENSOR_COUNT
  | NUM_TENSOR_REG
  | NUM_REG_STATUS
  | UPD_SHARD_BASE
  | UPD_SHARD_COUNT
  | UPD_NORM_CFG
  | UPD_SKIP_CFG
  | UPD_CROZ_BASE
  | UPD_CROZ_BETA
  | UPD_CROZ_T
  | UPD_CROZ_P
  | UPD_DECISION
  | UPD_NORM_LAST
  | UPD_STATE
  | UPD_CROZ_STATUS
  | UPD_CKPT_ADDR
  | UPD_CKPT_CTL
  | UPD_CKPT_STATUS
  | UPD_NONFINITE
  | UPD_CROZ_K
  | UPD_BASE_STATUS
  | MEM_MAP
  | MEM_REGION_CFG
  | MEM_OUTSIDE
  | MEM_OUTSIDE_CNT
  | MEM_CACHE_CFG
  | MEM_CAL_CFG
  | MEM_SPARE_CFG
  | MEM_SCRUB_CFG
  | MEM_CH_CMD
  | MEM_CMD_STATUS
  | MEM_SPARE
  | MEM_THERM
  | MEM_CACHE_STAT
  | MEM_CACHE_ERR
  | MEM_CH_STATE
  | MEM_CH_ECC
  | MEM_CH_WINDOW
  | MEM_LINK
  | EXC_INT_REC
  | EXC_INT_ADDR
  | EXC_INT_CNT
  | EXC_CMP_STAT
  | FAB_ID
  | FAB_DIMS
  | FAB_LINK_CFG
  | FAB_BYP_CTL
  | FAB_BYP_STATE
  | FAB_TIME_CFG
  | FAB_TIME_STATE
  | FAB_PPS_TIME
  | FAB_COLL_CFG
  | FAB_UNREACH
  | FAB_PORT_CTL
  | FAB_PORT_STATE
  | FAB_PORT_CNT
  | FAB_GRP_BASE
  | FAB_GRP_COUNT
  | XCH_CFG
  | XCH_TIMING
  | XCH_STALE
  | XCH_OUTER
  | XCH_LEDGER
  | XCH_OUT_BASE
  | XCH_IN_BASE
  | XCH_STORE_SIZE
  | XCH_CMD
  | XCH_CMD_STATUS
  | XCH_STATE
  | XCH_ROUND
  | XCH_LEDGER_LAST
  | XCH_EFF_STATE
  | XCH_EFF_BWIRE
  | XCH_EFF_HROUND
  | XCH_EFF_ETA
  | XCH_EFF_ALL
  | XCH_EFF_ELEMS
  | XCH_STATS
  | FAR_PORT_CFG
  | FAR_PORT_MAC
  | FAR_PORT_ADDR_HI
  | FAR_PORT_ADDR_LO
  | FAR_PORT_BUF
  | FAR_PORT_STATE
  | FAR_PORT_FEC
  | FAR_PORT_CNT
  | FAR_PORT_XSEQ
  | FAR_NET_CFG
  | FAR_AXT_CFG
  | FAR_PACE_CFG
  | FAR_PATH_SEL
  | FAR_PATH_RTT
  | FAR_PATH_RATE
  | FAR_PATH_CNT
  | FAR_JOB
  | FAR_PATH_BASE
  | FAR_PATH_COUNT
  | FAR_RTAB_BASE
  | FAR_FWD_BASE
  | FAR_FWD_COUNT
  | FAR_RND_STATE
  | FAR_RND_RETX
  | FAR_RND_ACK
  | FAR_RND_FWD
  | PAIR_CFG
  | PAIR_STATE
  | PAIR_CTL
  | PAIR_LAST_HB
  | PAIR_FAIL
  | PAIR_DIV_STAT
  | PAIR_DIV_LAST
  | PAIR_DIV_STEP
  | PAIR_REINT
  | PAIR_CTX
  | PAIR_SAMP_BASE
  | PAIR_SAMP_COUNT
  | PAIR_CTX_STATE
  | MBX_CTL
  | MBX_STATUS
  | MBX_IRQ
  | MBX_VERSION
  | PWR_CAP
  | PWR_STATUS
  | PWR_EMERG
  | PWR_EMERG_CNT
  | PWR_TRIP
  | PWR_DIE_THERM
  | PWR_RAIL
  | SEC_STATE
  | SEC_KEY_ADDR
  | SEC_KEY_CMD
  | SEC_KEY_STATUS
  | SEC_SLOT_SEL
  | SEC_SLOT_INFO
  | SEC_ALARM
  | SEC_FA_REQ
  | SEC_FA_CTL
  | SEC_FA_STATE
  | SEC_FA_NONCE
  | SEC_FA_RESP
  | CIP_PAGE_CFG
  | CIP_PAGE_STAT
  | CIP_PAGE_GUARD
  | BOOT_STAGE
  | BOOT_STRAPS
  | BOOT_RESET
  | BOOT_CTL
  | BOOT_CFG
  | BOOT_FLASH
  | BOOT_RECOV_ADDR
  | BOOT_RECOV_LEN
  | BOOT_RECOV_STATUS
  | BOOT_STAGE_T
deriving DecidableEq, Repr

/-- One field of a register: its place and width, and what its type and reset columns say. -/
structure FieldRow where
  lo    : Nat
  width : Nat
  acc   : Access
  reset : Nat
deriving DecidableEq, Repr

/-- A named field: which register, its low bit, its width. -/
structure Field where
  reg   : RegName
  lo    : Nat
  width : Nat
deriving DecidableEq, Repr

/-- Where a register lies in BAR0: the offset of its first copy, the outer index (stride and count) and the inner
index (stride and count). A register with a copy for each PCIe function has no index. -/
structure Place where
  base    : Nat
  stride1 : Nat
  count1  : Nat
  stride2 : Nat
  count2  : Nat
  perFn   : Bool
deriving DecidableEq, Repr

/-- The place of each register (the offset lines of the register maps). -/
def RegName.place : RegName → Place
  | .HIF_ID => ⟨0x0, 0, 1, 0, 1, true⟩
  | .HIF_SERIAL => ⟨0x8, 0, 1, 0, 1, false⟩
  | .HIF_STATUS => ⟨0x10, 0, 1, 0, 1, false⟩
  | .HIF_DEVTIME => ⟨0x18, 0, 1, 0, 1, false⟩
  | .HIF_EPOCH_STATUS => ⟨0x20, 0, 1, 0, 1, false⟩
  | .HIF_EPOCH_PENDING => ⟨0x28, 0, 1, 0, 1, false⟩
  | .HIF_EPOCH_COMMIT => ⟨0x30, 0, 1, 0, 1, false⟩
  | .HIF_BAR4_BASE => ⟨0x38, 0, 1, 0, 1, true⟩
  | .HIF_HEARTBEAT => ⟨0x40, 0, 1, 0, 1, false⟩
  | .HIF_BLOCKED => ⟨0x48, 0, 1, 0, 1, true⟩
  | .QUE_CTX_CFG => ⟨0x101000, 32, 256, 0, 1, false⟩
  | .QUE_CTX_SORI => ⟨0x101008, 32, 256, 0, 1, false⟩
  | .QUE_CTX_MEM => ⟨0x101010, 32, 256, 0, 1, false⟩
  | .QUE_CTX_SYN => ⟨0x101018, 32, 256, 0, 1, false⟩
  | .QUE_SQ_BASE => ⟨0x200000, 32, 65536, 0, 1, false⟩
  | .QUE_CQ_BASE => ⟨0x200008, 32, 65536, 0, 1, false⟩
  | .QUE_CFG => ⟨0x200010, 32, 65536, 0, 1, false⟩
  | .QUE_STATE => ⟨0x200018, 32, 65536, 0, 1, false⟩
  | .EXC_EVQ_BASE => ⟨0x800000, 0, 1, 0, 1, true⟩
  | .EXC_EVQ_CFG => ⟨0x800008, 0, 1, 0, 1, true⟩
  | .EXC_EVQ_HEAD => ⟨0x800010, 0, 1, 0, 1, true⟩
  | .EXC_EVQ_STATE => ⟨0x800018, 0, 1, 0, 1, true⟩
  | .SYN_OP => ⟨0x400000, 0, 1, 0, 1, true⟩
  | .SYN_ARG0 => ⟨0x400008, 0, 1, 0, 1, true⟩
  | .SYN_ARG1 => ⟨0x400010, 0, 1, 0, 1, true⟩
  | .SYN_ARG2 => ⟨0x400018, 0, 1, 0, 1, true⟩
  | .SYN_RESULT0 => ⟨0x400020, 0, 1, 0, 1, true⟩
  | .SYN_RESULT1 => ⟨0x400028, 0, 1, 0, 1, true⟩
  | .SYN_OP_STATUS => ⟨0x400030, 0, 1, 0, 1, true⟩
  | .SYN_NQ_BASE => ⟨0x410000, 64, 256, 0, 1, false⟩
  | .SYN_NQ_CFG => ⟨0x410008, 64, 256, 0, 1, false⟩
  | .SYN_NQ_HEAD => ⟨0x410010, 64, 256, 0, 1, false⟩
  | .SYN_NQ_STATE => ⟨0x410018, 64, 256, 0, 1, false⟩
  | .SYN_CTX_USE => ⟨0x410020, 64, 256, 0, 1, false⟩
  | .SYN_ERR => ⟨0x410028, 64, 256, 0, 1, false⟩
  | .SYN_DBG_CTL => ⟨0x410030, 64, 256, 0, 1, false⟩
  | .SYN_DBG_STATUS => ⟨0x410038, 64, 256, 0, 1, false⟩
  | .SYN_FREE => ⟨0x420000, 8, 4, 0, 1, false⟩
  | .SYN_WATCH_FREE => ⟨0x420020, 0, 1, 0, 1, false⟩
  | .EXC_NUM_CFG => ⟨0x880000, 4096, 256, 0, 1, false⟩
  | .EXC_NUM_STATE => ⟨0x880008, 4096, 256, 0, 1, false⟩
  | .EXC_NUM_INV => ⟨0x880100, 4096, 256, 8, 16, false⟩
  | .EXC_NUM_E0 => ⟨0x880800, 4096, 256, 32, 64, false⟩
  | .EXC_NUM_E1 => ⟨0x880808, 4096, 256, 32, 64, false⟩
  | .EXC_NUM_E2 => ⟨0x880810, 4096, 256, 32, 64, false⟩
  | .EXC_NUM_E3 => ⟨0x880818, 4096, 256, 32, 64, false⟩
  | .EXC_STEP_CFG => ⟨0xa00000, 4096, 256, 0, 1, false⟩
  | .EXC_CAP_BASE => ⟨0xa00008, 4096, 256, 0, 1, false⟩
  | .EXC_STEP_STATE => ⟨0xa00010, 4096, 256, 0, 1, false⟩
  | .EXC_STEP_INDEX => ⟨0xa00018, 4096, 256, 0, 1, false⟩
  | .EXC_STEP_OPEN_T => ⟨0xa00020, 4096, 256, 0, 1, false⟩
  | .EXC_STEP_CLOSE_T => ⟨0xa00028, 4096, 256, 0, 1, false⟩
  | .EXC_DEFER_RUNS => ⟨0xa00030, 4096, 256, 0, 1, false⟩
  | .EXC_DEFER_TIME => ⟨0xa00038, 4096, 256, 0, 1, false⟩
  | .EXC_PHASE => ⟨0xa00040, 4096, 256, 16, 10, false⟩
  | .EXC_PHASE_MAX => ⟨0xa00048, 4096, 256, 16, 10, false⟩
  | .EXC_STASH_CFG => ⟨0xa00100, 4096, 256, 32, 8, false⟩
  | .EXC_STASH_USE => ⟨0xa00108, 4096, 256, 32, 8, false⟩
  | .EXC_STASH_MARKS => ⟨0xa00110, 4096, 256, 32, 8, false⟩
  | .EXC_REPLAY_CTL => ⟨0xa00200, 4096, 256, 0, 1, false⟩
  | .EXC_REPLAY_ADDR => ⟨0xa00208, 4096, 256, 0, 1, false⟩
  | .EXC_REPLAY_STATUS => ⟨0xa00210, 4096, 256, 0, 1, false⟩
  | .NUM_JOB_SEED => ⟨0x2000000, 64, 256, 0, 1, false⟩
  | .NUM_TENSOR_BASE => ⟨0x2000008, 64, 256, 0, 1, false⟩
  | .NUM_TENSOR_COUNT => ⟨0x2000010, 64, 256, 0, 1, false⟩
  | .NUM_TENSOR_REG => ⟨0x2000018, 64, 256, 0, 1, false⟩
  | .NUM_REG_STATUS => ⟨0x2000020, 64, 256, 0, 1, false⟩
  | .UPD_SHARD_BASE => ⟨0x2400000, 256, 256, 0, 1, false⟩
  | .UPD_SHARD_COUNT => ⟨0x2400008, 256, 256, 0, 1, false⟩
  | .UPD_NORM_CFG => ⟨0x2400010, 256, 256, 0, 1, false⟩
  | .UPD_SKIP_CFG => ⟨0x2400018, 256, 256, 0, 1, false⟩
  | .UPD_CROZ_BASE => ⟨0x2400020, 256, 256, 0, 1, false⟩
  | .UPD_CROZ_BETA => ⟨0x2400028, 256, 256, 0, 1, false⟩
  | .UPD_CROZ_T => ⟨0x2400030, 256, 256, 0, 1, false⟩
  | .UPD_CROZ_P => ⟨0x2400038, 256, 256, 0, 1, false⟩
  | .UPD_DECISION => ⟨0x2400040, 256, 256, 0, 1, false⟩
  | .UPD_NORM_LAST => ⟨0x2400048, 256, 256, 0, 1, false⟩
  | .UPD_STATE => ⟨0x2400050, 256, 256, 0, 1, false⟩
  | .UPD_CROZ_STATUS => ⟨0x2400058, 256, 256, 0, 1, false⟩
  | .UPD_CKPT_ADDR => ⟨0x2400060, 256, 256, 0, 1, false⟩
  | .UPD_CKPT_CTL => ⟨0x2400068, 256, 256, 0, 1, false⟩
  | .UPD_CKPT_STATUS => ⟨0x2400070, 256, 256, 0, 1, false⟩
  | .UPD_NONFINITE => ⟨0x2400078, 256, 256, 0, 1, false⟩
  | .UPD_CROZ_K => ⟨0x2400080, 256, 256, 8, 8, false⟩
  | .UPD_BASE_STATUS => ⟨0x2410000, 8, 12, 0, 1, false⟩
  | .MEM_MAP => ⟨0x1000000, 0, 1, 0, 1, false⟩
  | .MEM_REGION_CFG => ⟨0x1000008, 0, 1, 0, 1, false⟩
  | .MEM_OUTSIDE => ⟨0x1000010, 0, 1, 0, 1, false⟩
  | .MEM_OUTSIDE_CNT => ⟨0x1000018, 0, 1, 0, 1, false⟩
  | .MEM_CACHE_CFG => ⟨0x1000020, 0, 1, 0, 1, false⟩
  | .MEM_CAL_CFG => ⟨0x1000028, 0, 1, 0, 1, false⟩
  | .MEM_SPARE_CFG => ⟨0x1000030, 0, 1, 0, 1, false⟩
  | .MEM_SCRUB_CFG => ⟨0x1000038, 0, 1, 0, 1, false⟩
  | .MEM_CH_CMD => ⟨0x1000040, 0, 1, 0, 1, false⟩
  | .MEM_CMD_STATUS => ⟨0x1000048, 0, 1, 0, 1, false⟩
  | .MEM_SPARE => ⟨0x1001000, 64, 12, 0, 1, false⟩
  | .MEM_THERM => ⟨0x1001008, 64, 12, 0, 1, false⟩
  | .MEM_CACHE_STAT => ⟨0x1001010, 64, 12, 0, 1, false⟩
  | .MEM_CACHE_ERR => ⟨0x1001018, 64, 12, 0, 1, false⟩
  | .MEM_CH_STATE => ⟨0x1004000, 32, 384, 0, 1, false⟩
  | .MEM_CH_ECC => ⟨0x1004008, 32, 384, 0, 1, false⟩
  | .MEM_CH_WINDOW => ⟨0x1004010, 32, 384, 0, 1, false⟩
  | .MEM_LINK => ⟨0x1008000, 16, 10, 0, 1, false⟩
  | .EXC_INT_REC => ⟨0xc00000, 64, 256, 0, 1, false⟩
  | .EXC_INT_ADDR => ⟨0xc00008, 64, 256, 0, 1, false⟩
  | .EXC_INT_CNT => ⟨0xc00010, 64, 256, 0, 1, false⟩
  | .EXC_CMP_STAT => ⟨0xc00018, 64, 256, 0, 1, false⟩
  | .FAB_ID => ⟨0x1400000, 0, 1, 0, 1, false⟩
  | .FAB_DIMS => ⟨0x1400008, 0, 1, 0, 1, false⟩
  | .FAB_LINK_CFG => ⟨0x1400010, 0, 1, 0, 1, false⟩
  | .FAB_BYP_CTL => ⟨0x1400018, 0, 1, 0, 1, false⟩
  | .FAB_BYP_STATE => ⟨0x1400020, 0, 1, 0, 1, false⟩
  | .FAB_TIME_CFG => ⟨0x1400028, 0, 1, 0, 1, false⟩
  | .FAB_TIME_STATE => ⟨0x1400030, 0, 1, 0, 1, false⟩
  | .FAB_PPS_TIME => ⟨0x1400038, 0, 1, 0, 1, false⟩
  | .FAB_COLL_CFG => ⟨0x1400040, 0, 1, 0, 1, false⟩
  | .FAB_UNREACH => ⟨0x1400048, 0, 1, 0, 1, false⟩
  | .FAB_PORT_CTL => ⟨0x1401000, 64, 7, 0, 1, false⟩
  | .FAB_PORT_STATE => ⟨0x1401008, 64, 7, 0, 1, false⟩
  | .FAB_PORT_CNT => ⟨0x1401010, 64, 7, 0, 1, false⟩
  | .FAB_GRP_BASE => ⟨0x1410000, 16, 256, 0, 1, false⟩
  | .FAB_GRP_COUNT => ⟨0x1410008, 16, 256, 0, 1, false⟩
  | .XCH_CFG => ⟨0x2800000, 512, 256, 0, 1, false⟩
  | .XCH_TIMING => ⟨0x2800008, 512, 256, 0, 1, false⟩
  | .XCH_STALE => ⟨0x2800010, 512, 256, 0, 1, false⟩
  | .XCH_OUTER => ⟨0x2800018, 512, 256, 0, 1, false⟩
  | .XCH_LEDGER => ⟨0x2800020, 512, 256, 0, 1, false⟩
  | .XCH_OUT_BASE => ⟨0x2800028, 512, 256, 0, 1, false⟩
  | .XCH_IN_BASE => ⟨0x2800030, 512, 256, 0, 1, false⟩
  | .XCH_STORE_SIZE => ⟨0x2800038, 512, 256, 0, 1, false⟩
  | .XCH_CMD => ⟨0x2800040, 512, 256, 0, 1, false⟩
  | .XCH_CMD_STATUS => ⟨0x2800048, 512, 256, 0, 1, false⟩
  | .XCH_STATE => ⟨0x2800050, 512, 256, 0, 1, false⟩
  | .XCH_ROUND => ⟨0x2800058, 512, 256, 0, 1, false⟩
  | .XCH_LEDGER_LAST => ⟨0x2800060, 512, 256, 0, 1, false⟩
  | .XCH_EFF_STATE => ⟨0x2800068, 512, 256, 0, 1, false⟩
  | .XCH_EFF_BWIRE => ⟨0x2800070, 512, 256, 0, 1, false⟩
  | .XCH_EFF_HROUND => ⟨0x2800078, 512, 256, 0, 1, false⟩
  | .XCH_EFF_ETA => ⟨0x2800080, 512, 256, 0, 1, false⟩
  | .XCH_EFF_ALL => ⟨0x2800088, 512, 256, 0, 1, false⟩
  | .XCH_EFF_ELEMS => ⟨0x2800090, 512, 256, 0, 1, false⟩
  | .XCH_STATS => ⟨0x2800098, 512, 256, 0, 1, false⟩
  | .FAR_PORT_CFG => ⟨0x1800000, 256, 2, 0, 1, false⟩
  | .FAR_PORT_MAC => ⟨0x1800008, 256, 2, 0, 1, false⟩
  | .FAR_PORT_ADDR_HI => ⟨0x1800010, 256, 2, 0, 1, false⟩
  | .FAR_PORT_ADDR_LO => ⟨0x1800018, 256, 2, 0, 1, false⟩
  | .FAR_PORT_BUF => ⟨0x1800020, 256, 2, 0, 1, false⟩
  | .FAR_PORT_STATE => ⟨0x1800028, 256, 2, 0, 1, false⟩
  | .FAR_PORT_FEC => ⟨0x1800030, 256, 2, 0, 1, false⟩
  | .FAR_PORT_CNT => ⟨0x1800038, 256, 2, 0, 1, false⟩
  | .FAR_PORT_XSEQ => ⟨0x1800040, 256, 2, 0, 1, false⟩
  | .FAR_NET_CFG => ⟨0x1800200, 0, 1, 0, 1, false⟩
  | .FAR_AXT_CFG => ⟨0x1800208, 0, 1, 0, 1, false⟩
  | .FAR_PACE_CFG => ⟨0x1800210, 0, 1, 0, 1, false⟩
  | .FAR_PATH_SEL => ⟨0x1800300, 0, 1, 0, 1, false⟩
  | .FAR_PATH_RTT => ⟨0x1800308, 0, 1, 0, 1, false⟩
  | .FAR_PATH_RATE => ⟨0x1800310, 0, 1, 0, 1, false⟩
  | .FAR_PATH_CNT => ⟨0x1800318, 0, 1, 0, 1, false⟩
  | .FAR_JOB => ⟨0x1810000, 64, 256, 0, 1, false⟩
  | .FAR_PATH_BASE => ⟨0x1810008, 64, 256, 0, 1, false⟩
  | .FAR_PATH_COUNT => ⟨0x1810010, 64, 256, 0, 1, false⟩
  | .FAR_RTAB_BASE => ⟨0x1810018, 64, 256, 0, 1, false⟩
  | .FAR_FWD_BASE => ⟨0x1810020, 64, 256, 0, 1, false⟩
  | .FAR_FWD_COUNT => ⟨0x1810028, 64, 256, 0, 1, false⟩
  | .FAR_RND_STATE => ⟨0x1820000, 32, 256, 0, 1, false⟩
  | .FAR_RND_RETX => ⟨0x1820008, 32, 256, 0, 1, false⟩
  | .FAR_RND_ACK => ⟨0x1820010, 32, 256, 0, 1, false⟩
  | .FAR_RND_FWD => ⟨0x1820018, 32, 256, 0, 1, false⟩
  | .PAIR_CFG => ⟨0x1c00000, 0, 1, 0, 1, false⟩
  | .PAIR_STATE => ⟨0x1c00008, 0, 1, 0, 1, false⟩
  | .PAIR_CTL => ⟨0x1c00010, 0, 1, 0, 1, false⟩
  | .PAIR_LAST_HB => ⟨0x1c00018, 0, 1, 0, 1, false⟩
  | .PAIR_FAIL => ⟨0x1c00020, 0, 1, 0, 1, false⟩
  | .PAIR_DIV_STAT => ⟨0x1c00028, 0, 1, 0, 1, false⟩
  | .PAIR_DIV_LAST => ⟨0x1c00030, 0, 1, 0, 1, false⟩
  | .PAIR_DIV_STEP => ⟨0x1c00038, 0, 1, 0, 1, false⟩
  | .PAIR_REINT => ⟨0x1c00040, 0, 1, 0, 1, false⟩
  | .PAIR_CTX => ⟨0x1c01000, 32, 256, 0, 1, false⟩
  | .PAIR_SAMP_BASE => ⟨0x1c01008, 32, 256, 0, 1, false⟩
  | .PAIR_SAMP_COUNT => ⟨0x1c01010, 32, 256, 0, 1, false⟩
  | .PAIR_CTX_STATE => ⟨0x1c01018, 32, 256, 0, 1, false⟩
  | .MBX_CTL => ⟨0x12000, 0, 1, 0, 1, true⟩
  | .MBX_STATUS => ⟨0x12008, 0, 1, 0, 1, true⟩
  | .MBX_IRQ => ⟨0x12010, 0, 1, 0, 1, true⟩
  | .MBX_VERSION => ⟨0x12018, 0, 1, 0, 1, true⟩
  | .PWR_CAP => ⟨0x3400000, 0, 1, 0, 1, false⟩
  | .PWR_STATUS => ⟨0x3400008, 0, 1, 0, 1, false⟩
  | .PWR_EMERG => ⟨0x3400010, 0, 1, 0, 1, false⟩
  | .PWR_EMERG_CNT => ⟨0x3400018, 0, 1, 0, 1, false⟩
  | .PWR_TRIP => ⟨0x3400020, 0, 1, 0, 1, false⟩
  | .PWR_DIE_THERM => ⟨0x3400100, 8, 5, 0, 1, false⟩
  | .PWR_RAIL => ⟨0x3400200, 8, 16, 0, 1, false⟩
  | .SEC_STATE => ⟨0x3000000, 0, 1, 0, 1, false⟩
  | .SEC_KEY_ADDR => ⟨0x3000010, 0, 1, 0, 1, false⟩
  | .SEC_KEY_CMD => ⟨0x3000018, 0, 1, 0, 1, false⟩
  | .SEC_KEY_STATUS => ⟨0x3000020, 0, 1, 0, 1, false⟩
  | .SEC_SLOT_SEL => ⟨0x3000028, 0, 1, 0, 1, false⟩
  | .SEC_SLOT_INFO => ⟨0x3000030, 0, 1, 0, 1, false⟩
  | .SEC_ALARM => ⟨0x3000038, 0, 1, 0, 1, false⟩
  | .SEC_FA_REQ => ⟨0x3000040, 0, 1, 0, 1, false⟩
  | .SEC_FA_CTL => ⟨0x3000048, 0, 1, 0, 1, false⟩
  | .SEC_FA_STATE => ⟨0x3000050, 0, 1, 0, 1, false⟩
  | .SEC_FA_NONCE => ⟨0x3000100, 8, 6, 0, 1, false⟩
  | .SEC_FA_RESP => ⟨0x3000140, 8, 12, 0, 1, false⟩
  | .CIP_PAGE_CFG => ⟨0x2c00000, 64, 256, 0, 1, false⟩
  | .CIP_PAGE_STAT => ⟨0x2c00008, 64, 256, 0, 1, false⟩
  | .CIP_PAGE_GUARD => ⟨0x2c00010, 64, 256, 0, 1, false⟩
  | .BOOT_STAGE => ⟨0x3800000, 0, 1, 0, 1, false⟩
  | .BOOT_STRAPS => ⟨0x3800008, 0, 1, 0, 1, false⟩
  | .BOOT_RESET => ⟨0x3800010, 0, 1, 0, 1, false⟩
  | .BOOT_CTL => ⟨0x3800018, 0, 1, 0, 1, false⟩
  | .BOOT_CFG => ⟨0x3800020, 0, 1, 0, 1, false⟩
  | .BOOT_FLASH => ⟨0x3800028, 0, 1, 0, 1, false⟩
  | .BOOT_RECOV_ADDR => ⟨0x3800030, 0, 1, 0, 1, false⟩
  | .BOOT_RECOV_LEN => ⟨0x3800038, 0, 1, 0, 1, false⟩
  | .BOOT_RECOV_STATUS => ⟨0x3800040, 0, 1, 0, 1, false⟩
  | .BOOT_STAGE_T => ⟨0x3800100, 8, 7, 0, 1, false⟩

/-- The fields of each register, from high bit to low (the field tables). -/
def RegName.rows : RegName → List FieldRow
  | .HIF_ID => [⟨48, 16, .ro, 3076⟩, ⟨40, 8, .ro, 176⟩, ⟨32, 8, .ro, 1⟩, ⟨0, 6, .ro, 0⟩]
  | .HIF_SERIAL => [⟨0, 40, .ro, 0⟩]
  | .HIF_STATUS => [⟨63, 1, .ro, 0⟩, ⟨60, 3, .ro, 1⟩, ⟨0, 4, .ro, 0⟩]
  | .HIF_DEVTIME => [⟨0, 64, .ro, 0⟩]
  | .HIF_EPOCH_STATUS => [⟨32, 32, .ro, 0⟩, ⟨0, 32, .ro, 0⟩]
  | .HIF_EPOCH_PENDING => [⟨0, 8, .ro, 0⟩]
  | .HIF_EPOCH_COMMIT => [⟨0, 1, .wo, 0⟩]
  | .HIF_BAR4_BASE => [⟨0, 12, .rw, 0⟩]
  | .HIF_HEARTBEAT => [⟨0, 64, .wo, 0⟩]
  | .HIF_BLOCKED => [⟨63, 1, .wo, 0⟩, ⟨32, 31, .ro, 0⟩, ⟨31, 1, .ro, 0⟩, ⟨0, 26, .ro, 0⟩]
  | .QUE_CTX_CFG => [⟨63, 1, .rw, 0⟩, ⟨56, 6, .rw, 0⟩, ⟨52, 4, .ro, 0⟩, ⟨16, 16, .rw, 0⟩, ⟨0, 13, .rw, 0⟩]
  | .QUE_CTX_SORI => [⟨0, 32, .rw, 0⟩]
  | .QUE_CTX_MEM => [⟨32, 12, .rw, 0⟩, ⟨0, 12, .rw, 0⟩]
  | .QUE_CTX_SYN => [⟨0, 17, .rw, 0⟩]
  | .QUE_SQ_BASE => [⟨12, 52, .rw, 0⟩, ⟨0, 1, .rw, 0⟩]
  | .QUE_CQ_BASE => [⟨12, 52, .rw, 0⟩, ⟨0, 1, .rw, 0⟩]
  | .QUE_CFG => [⟨63, 1, .rw, 0⟩, ⟨62, 1, .rw, 0⟩, ⟨48, 5, .rw, 4⟩, ⟨40, 5, .rw, 4⟩, ⟨32, 2, .rw, 0⟩, ⟨0, 11, .rw, 0⟩]
  | .QUE_STATE => [⟨61, 3, .ro, 0⟩, ⟨48, 1, .ro, 1⟩, ⟨32, 16, .ro, 0⟩, ⟨16, 16, .ro, 0⟩]
  | .EXC_EVQ_BASE => [⟨12, 52, .rw, 0⟩]
  | .EXC_EVQ_CFG => [⟨63, 1, .rw, 0⟩, ⟨62, 1, .rw, 0⟩, ⟨16, 5, .rw, 6⟩, ⟨0, 11, .rw, 0⟩]
  | .EXC_EVQ_HEAD => [⟨0, 16, .rw, 0⟩]
  | .EXC_EVQ_STATE => [⟨32, 32, .ro, 0⟩, ⟨16, 1, .ro, 1⟩, ⟨0, 16, .ro, 0⟩]
  | .SYN_OP => [⟨56, 8, .wo, 0⟩, ⟨48, 8, .wo, 0⟩, ⟨0, 16, .wo, 0⟩]
  | .SYN_ARG0 => [⟨0, 64, .rw, 0⟩]
  | .SYN_ARG1 => [⟨0, 64, .rw, 0⟩]
  | .SYN_ARG2 => [⟨0, 64, .rw, 0⟩]
  | .SYN_RESULT0 => [⟨0, 64, .ro, 0⟩]
  | .SYN_RESULT1 => [⟨0, 64, .ro, 0⟩]
  | .SYN_OP_STATUS => [⟨32, 32, .ro, 0⟩, ⟨31, 1, .ro, 0⟩, ⟨30, 1, .w1c, 0⟩, ⟨0, 16, .ro, 0⟩]
  | .SYN_NQ_BASE => [⟨12, 52, .rw, 0⟩, ⟨0, 1, .rw, 0⟩]
  | .SYN_NQ_CFG => [⟨63, 1, .rw, 0⟩, ⟨62, 1, .rw, 0⟩, ⟨16, 5, .rw, 6⟩, ⟨0, 11, .rw, 0⟩]
  | .SYN_NQ_HEAD => [⟨0, 16, .rw, 0⟩]
  | .SYN_NQ_STATE => [⟨32, 32, .ro, 0⟩, ⟨16, 1, .ro, 1⟩, ⟨0, 16, .ro, 0⟩]
  | .SYN_CTX_USE => [⟨32, 17, .ro, 0⟩, ⟨0, 13, .ro, 0⟩]
  | .SYN_ERR => [⟨63, 1, .w1c, 0⟩, ⟨48, 8, .ro, 0⟩, ⟨32, 16, .ro, 0⟩, ⟨28, 4, .ro, 0⟩, ⟨0, 28, .ro, 0⟩]
  | .SYN_DBG_CTL => [⟨1, 1, .rw, 0⟩, ⟨0, 1, .rw, 0⟩]
  | .SYN_DBG_STATUS => [⟨63, 1, .ro, 0⟩, ⟨0, 32, .ro, 0⟩]
  | .SYN_FREE => [⟨0, 19, .ro, 0x40000⟩]
  | .SYN_WATCH_FREE => [⟨0, 19, .ro, 0x40000⟩]
  | .EXC_NUM_CFG => [⟨0, 2, .rw, 0⟩]
  | .EXC_NUM_STATE => [⟨63, 1, .wo, 0⟩, ⟨32, 7, .ro, 0⟩, ⟨0, 32, .ro, 0⟩]
  | .EXC_NUM_INV => [⟨0, 64, .ro, 0⟩]
  | .EXC_NUM_E0 => [⟨0, 64, .ro, 0⟩]
  | .EXC_NUM_E1 => [⟨60, 4, .ro, 0⟩, ⟨58, 2, .ro, 0⟩, ⟨57, 1, .ro, 0⟩, ⟨56, 1, .ro, 0⟩, ⟨50, 6, .ro, 0⟩, ⟨41, 9, .ro, 0⟩, ⟨0, 32, .ro, 0⟩]
  | .EXC_NUM_E2 => [⟨56, 8, .ro, 0⟩, ⟨48, 8, .ro, 0⟩, ⟨0, 48, .ro, 0⟩]
  | .EXC_NUM_E3 => [⟨63, 1, .ro, 0⟩, ⟨0, 32, .ro, 0⟩]
  | .EXC_STEP_CFG => [⟨63, 1, .rw, 0⟩, ⟨56, 4, .rw, 0⟩, ⟨48, 5, .rw, 6⟩, ⟨0, 16, .rw, 500⟩]
  | .EXC_CAP_BASE => [⟨12, 52, .rw, 0⟩]
  | .EXC_STEP_STATE => [⟨32, 32, .ro, 0⟩, ⟨31, 1, .ro, 0⟩, ⟨0, 12, .ro, 0⟩]
  | .EXC_STEP_INDEX => [⟨0, 64, .ro, 0⟩]
  | .EXC_STEP_OPEN_T => [⟨0, 64, .ro, 0⟩]
  | .EXC_STEP_CLOSE_T => [⟨0, 64, .ro, 0⟩]
  | .EXC_DEFER_RUNS => [⟨32, 32, .ro, 0⟩, ⟨0, 32, .ro, 0⟩]
  | .EXC_DEFER_TIME => [⟨32, 32, .ro, 0⟩, ⟨0, 32, .ro, 0⟩]
  | .EXC_PHASE => [⟨55, 9, .ro, 0⟩, ⟨0, 32, .ro, 0⟩]
  | .EXC_PHASE_MAX => [⟨0, 32, .ro, 0⟩]
  | .EXC_STASH_CFG => [⟨56, 8, .ro, 0⟩, ⟨55, 1, .ro, 0⟩, ⟨54, 1, .ro, 0⟩, ⟨32, 20, .ro, 0⟩, ⟨31, 1, .ro, 0⟩, ⟨0, 20, .ro, 0⟩]
  | .EXC_STASH_USE => [⟨32, 32, .ro, 0⟩, ⟨0, 32, .ro, 0⟩]
  | .EXC_STASH_MARKS => [⟨32, 32, .ro, 0⟩, ⟨0, 32, .ro, 0⟩]
  | .EXC_REPLAY_CTL => [⟨63, 1, .rw, 0⟩]
  | .EXC_REPLAY_ADDR => [⟨12, 52, .rw, 0⟩]
  | .EXC_REPLAY_STATUS => [⟨61, 3, .ro, 0⟩, ⟨58, 3, .ro, 0⟩, ⟨0, 32, .ro, 0⟩]
  | .NUM_JOB_SEED => [⟨0, 64, .rw, 0⟩]
  | .NUM_TENSOR_BASE => [⟨6, 58, .rw, 0⟩]
  | .NUM_TENSOR_COUNT => [⟨0, 21, .rw, 0⟩]
  | .NUM_TENSOR_REG => [⟨63, 1, .wo, 0⟩, ⟨0, 32, .wo, 0⟩]
  | .NUM_REG_STATUS => [⟨63, 1, .ro, 0⟩, ⟨60, 3, .ro, 0⟩, ⟨0, 32, .ro, 0⟩]
  | .UPD_SHARD_BASE => [⟨6, 58, .rw, 0⟩]
  | .UPD_SHARD_COUNT => [⟨0, 21, .rw, 0⟩]
  | .UPD_NORM_CFG => [⟨32, 32, .rw, 0x4b800000⟩, ⟨0, 32, .rw, 0⟩]
  | .UPD_SKIP_CFG => [⟨0, 16, .rw, 8⟩]
  | .UPD_CROZ_BASE => [⟨6, 58, .rw, 0⟩]
  | .UPD_CROZ_BETA => [⟨32, 32, .rw, 0x3f7fbe77⟩, ⟨0, 32, .rw, 0x3f666666⟩]
  | .UPD_CROZ_T => [⟨0, 64, .rw, 0⟩]
  | .UPD_CROZ_P => [⟨32, 32, .rw, 0x3f800000⟩, ⟨0, 32, .rw, 0x3f800000⟩]
  | .UPD_DECISION => [⟨63, 1, .ro, 0⟩, ⟨62, 1, .ro, 0⟩, ⟨60, 2, .ro, 0⟩, ⟨0, 32, .ro, 0⟩]
  | .UPD_NORM_LAST => [⟨32, 32, .ro, 0⟩, ⟨0, 32, .ro, 0⟩]
  | .UPD_STATE => [⟨32, 32, .ro, 0⟩, ⟨16, 16, .ro, 0⟩, ⟨0, 16, .ro, 0⟩]
  | .UPD_CROZ_STATUS => [⟨4, 4, .ro, 0⟩, ⟨0, 4, .ro, 0⟩]
  | .UPD_CKPT_ADDR => [⟨12, 52, .rw, 0⟩, ⟨0, 1, .rw, 0⟩]
  | .UPD_CKPT_CTL => [⟨63, 1, .w1s, 0⟩, ⟨62, 1, .w1s, 0⟩, ⟨0, 32, .rw, 0⟩]
  | .UPD_CKPT_STATUS => [⟨61, 3, .ro, 0⟩, ⟨57, 4, .ro, 0⟩, ⟨56, 1, .w1c, 0⟩, ⟨0, 32, .ro, 0⟩]
  | .UPD_NONFINITE => [⟨32, 32, .ro, 0⟩, ⟨0, 32, .ro, 0⟩]
  | .UPD_CROZ_K => [⟨0, 32, .ro, 0⟩]
  | .UPD_BASE_STATUS => [⟨60, 4, .ro, 0⟩, ⟨40, 8, .ro, 0⟩, ⟨32, 8, .ro, 0⟩, ⟨0, 32, .ro, 0⟩]
  | .MEM_MAP => [⟨56, 1, .ro, 1⟩, ⟨32, 8, .ro, 186⟩]
  | .MEM_REGION_CFG => [⟨63, 1, .ro, 0⟩, ⟨32, 8, .rw, 0⟩, ⟨0, 8, .rw, 0⟩]
  | .MEM_OUTSIDE => [⟨63, 1, .w1c, 0⟩, ⟨59, 4, .ro, 0⟩, ⟨48, 8, .ro, 0⟩, ⟨0, 48, .ro, 0⟩]
  | .MEM_OUTSIDE_CNT => [⟨0, 32, .ro, 0⟩]
  | .MEM_CACHE_CFG => [⟨0, 4, .rw, 8⟩]
  | .MEM_CAL_CFG => [⟨32, 16, .rw, 2000⟩, ⟨0, 8, .rw, 5⟩]
  | .MEM_SPARE_CFG => [⟨63, 1, .rw, 1⟩, ⟨48, 8, .rw, 20⟩, ⟨32, 16, .rw, 2⟩, ⟨0, 32, .rw, 0x10000⟩]
  | .MEM_SCRUB_CFG => [⟨0, 8, .rw, 24⟩]
  | .MEM_CH_CMD => [⟨63, 1, .wo, 0⟩, ⟨48, 8, .wo, 0⟩, ⟨0, 9, .wo, 0⟩]
  | .MEM_CMD_STATUS => [⟨63, 1, .ro, 0⟩, ⟨60, 3, .ro, 0⟩, ⟨0, 9, .ro, 0⟩]
  | .MEM_SPARE => [⟨61, 3, .ro, 0⟩, ⟨56, 5, .ro, 0⟩, ⟨53, 3, .ro, 0⟩, ⟨0, 23, .ro, 0⟩]
  | .MEM_THERM => [⟨40, 8, .ro, 0⟩, ⟨32, 8, .ro, 0⟩, ⟨0, 8, .ro, 100⟩]
  | .MEM_CACHE_STAT => [⟨32, 32, .ro, 0⟩, ⟨0, 32, .ro, 0⟩]
  | .MEM_CACHE_ERR => [⟨32, 32, .ro, 0⟩, ⟨0, 32, .ro, 0⟩]
  | .MEM_CH_STATE => [⟨61, 3, .ro, 0⟩, ⟨50, 2, .ro, 0⟩, ⟨48, 2, .ro, 0⟩, ⟨44, 4, .ro, 0⟩, ⟨40, 4, .ro, 0⟩, ⟨32, 8, .ro, 0⟩, ⟨0, 32, .ro, 0⟩]
  | .MEM_CH_ECC => [⟨32, 32, .ro, 0⟩, ⟨16, 16, .ro, 0⟩, ⟨0, 16, .ro, 0⟩]
  | .MEM_CH_WINDOW => [⟨32, 32, .ro, 0⟩, ⟨0, 32, .ro, 0⟩]
  | .MEM_LINK => [⟨32, 32, .ro, 0⟩, ⟨0, 5, .ro, 0⟩]
  | .EXC_INT_REC => [⟨63, 1, .w1c, 0⟩, ⟨60, 3, .ro, 0⟩, ⟨58, 2, .ro, 0⟩, ⟨32, 16, .ro, 0⟩, ⟨0, 32, .ro, 0⟩]
  | .EXC_INT_ADDR => [⟨0, 48, .ro, 0⟩]
  | .EXC_INT_CNT => [⟨32, 32, .ro, 0⟩, ⟨0, 32, .ro, 0⟩]
  | .EXC_CMP_STAT => [⟨32, 32, .ro, 0⟩, ⟨0, 32, .ro, 0⟩]
  | .FAB_ID => [⟨63, 1, .ro, 0⟩, ⟨0, 16, .rw, 0⟩]
  | .FAB_DIMS => [⟨16, 6, .rw, 0⟩, ⟨8, 5, .rw, 0⟩, ⟨0, 5, .rw, 0⟩]
  | .FAB_LINK_CFG => [⟨0, 16, .rw, 360⟩]
  | .FAB_BYP_CTL => [⟨63, 1, .wo, 0⟩, ⟨62, 1, .wo, 0⟩, ⟨0, 3, .rw, 0⟩]
  | .FAB_BYP_STATE => [⟨63, 1, .ro, 0⟩, ⟨32, 16, .ro, 0⟩, ⟨0, 3, .ro, 0⟩]
  | .FAB_TIME_CFG => [⟨48, 16, .rw, 0⟩, ⟨32, 16, .rw, 0⟩, ⟨31, 1, .rw, 0⟩, ⟨0, 30, .rw, 0⟩]
  | .FAB_TIME_STATE => [⟨62, 2, .ro, 3⟩, ⟨61, 1, .ro, 0⟩, ⟨56, 3, .ro, 0⟩, ⟨40, 16, .ro, 0⟩, ⟨0, 32, .ro, 0⟩]
  | .FAB_PPS_TIME => [⟨0, 64, .ro, 0⟩]
  | .FAB_COLL_CFG => [⟨0, 16, .rw, 100⟩]
  | .FAB_UNREACH => [⟨48, 16, .ro, 0⟩, ⟨0, 32, .ro, 0⟩]
  | .FAB_PORT_CTL => [⟨63, 1, .rw, 0⟩, ⟨62, 1, .wo, 0⟩]
  | .FAB_PORT_STATE => [⟨61, 3, .ro, 0⟩, ⟨59, 2, .ro, 0⟩, ⟨57, 2, .ro, 0⟩, ⟨53, 4, .ro, 0⟩, ⟨48, 5, .ro, 0⟩, ⟨32, 16, .ro, 0⟩, ⟨16, 16, .ro, 0⟩, ⟨0, 16, .ro, 0⟩]
  | .FAB_PORT_CNT => [⟨32, 32, .ro, 0⟩, ⟨0, 32, .ro, 0⟩]
  | .FAB_GRP_BASE => [⟨3, 61, .rw, 0⟩]
  | .FAB_GRP_COUNT => [⟨0, 17, .rw, 0⟩]
  | .XCH_CFG => [⟨63, 1, .rw, 0⟩, ⟨60, 3, .ro, 0⟩, ⟨48, 6, .rw, 0⟩, ⟨40, 6, .rw, 0⟩, ⟨32, 4, .rw, 4⟩, ⟨16, 16, .rw, 256⟩, ⟨0, 16, .rw, 32⟩]
  | .XCH_TIMING => [⟨32, 32, .rw, 10000⟩, ⟨0, 32, .rw, 30000⟩]
  | .XCH_STALE => [⟨32, 32, .rw, 0x3f000000⟩, ⟨0, 4, .rw, 2⟩]
  | .XCH_OUTER => [⟨32, 32, .rw, 0x3f333333⟩, ⟨0, 32, .rw, 0x3f666666⟩]
  | .XCH_LEDGER => [⟨16, 6, .rw, 0⟩, ⟨0, 16, .rw, 0⟩]
  | .XCH_OUT_BASE => [⟨12, 52, .rw, 0⟩]
  | .XCH_IN_BASE => [⟨12, 52, .rw, 0⟩]
  | .XCH_STORE_SIZE => [⟨32, 32, .rw, 0⟩, ⟨0, 32, .rw, 0⟩]
  | .XCH_CMD => [⟨63, 1, .wo, 0⟩, ⟨48, 8, .wo, 0⟩, ⟨0, 6, .wo, 0⟩]
  | .XCH_CMD_STATUS => [⟨63, 1, .ro, 0⟩, ⟨60, 3, .ro, 0⟩]
  | .XCH_STATE => [⟨61, 3, .ro, 0⟩, ⟨60, 1, .ro, 0⟩, ⟨48, 6, .ro, 0⟩, ⟨32, 16, .ro, 0⟩, ⟨0, 32, .ro, 0⟩]
  | .XCH_ROUND => [⟨32, 32, .ro, 0xffffffff⟩, ⟨0, 32, .ro, 0xffffffff⟩]
  | .XCH_LEDGER_LAST => [⟨32, 32, .ro, 0⟩, ⟨31, 1, .ro, 0⟩, ⟨0, 16, .ro, 0⟩]
  | .XCH_EFF_STATE => [⟨32, 32, .ro, 0⟩, ⟨31, 1, .ro, 0⟩, ⟨30, 1, .ro, 0⟩, ⟨29, 1, .ro, 0⟩, ⟨28, 1, .ro, 0⟩, ⟨27, 1, .ro, 0⟩, ⟨26, 1, .ro, 0⟩, ⟨25, 1, .ro, 0⟩]
  | .XCH_EFF_BWIRE => [⟨0, 64, .ro, 0⟩]
  | .XCH_EFF_HROUND => [⟨0, 64, .ro, 0⟩]
  | .XCH_EFF_ETA => [⟨0, 32, .ro, 0⟩]
  | .XCH_EFF_ALL => [⟨0, 64, .ro, 0⟩]
  | .XCH_EFF_ELEMS => [⟨0, 64, .ro, 0⟩]
  | .XCH_STATS => [⟨48, 16, .ro, 0⟩, ⟨32, 16, .ro, 0⟩, ⟨0, 32, .ro, 0⟩]
  | .FAR_PORT_CFG => [⟨63, 1, .rw, 0⟩, ⟨62, 1, .rw, 0⟩, ⟨61, 1, .rw, 1⟩, ⟨60, 1, .rw, 0⟩, ⟨56, 4, .ro, 0⟩, ⟨0, 12, .rw, 0⟩]
  | .FAR_PORT_MAC => [⟨0, 48, .rw, 0⟩]
  | .FAR_PORT_ADDR_HI => [⟨0, 64, .rw, 0⟩]
  | .FAR_PORT_ADDR_LO => [⟨0, 64, .rw, 0⟩]
  | .FAR_PORT_BUF => [⟨32, 32, .ro, 0⟩, ⟨0, 12, .rw, 0⟩]
  | .FAR_PORT_STATE => [⟨63, 1, .ro, 0⟩, ⟨62, 1, .ro, 0⟩, ⟨61, 1, .ro, 0⟩, ⟨0, 16, .ro, 0⟩]
  | .FAR_PORT_FEC => [⟨32, 32, .ro, 0⟩, ⟨0, 32, .ro, 0⟩]
  | .FAR_PORT_CNT => [⟨32, 32, .ro, 0⟩, ⟨0, 32, .ro, 0⟩]
  | .FAR_PORT_XSEQ => [⟨0, 64, .ro, 0⟩]
  | .FAR_NET_CFG => [⟨48, 16, .rw, 44616⟩, ⟨40, 8, .rw, 64⟩]
  | .FAR_AXT_CFG => [⟨56, 8, .rw, 64⟩, ⟨40, 16, .rw, 50⟩, ⟨32, 8, .rw, 10⟩, ⟨20, 12, .rw, 500⟩, ⟨8, 12, .rw, 200⟩, ⟨0, 8, .rw, 120⟩]
  | .FAR_PACE_CFG => [⟨48, 16, .rw, 100⟩, ⟨32, 16, .rw, 10⟩, ⟨16, 16, .rw, 1⟩]
  | .FAR_PATH_SEL => [⟨56, 8, .rw, 0⟩, ⟨8, 8, .rw, 0⟩, ⟨0, 8, .rw, 0⟩]
  | .FAR_PATH_RTT => [⟨32, 32, .ro, 0⟩, ⟨0, 32, .ro, 0⟩]
  | .FAR_PATH_RATE => [⟨62, 2, .ro, 0⟩, ⟨61, 1, .ro, 0⟩, ⟨60, 1, .ro, 0⟩, ⟨59, 1, .ro, 0⟩, ⟨32, 16, .ro, 0⟩, ⟨0, 32, .ro, 0⟩]
  | .FAR_PATH_CNT => [⟨32, 32, .ro, 0⟩, ⟨16, 16, .ro, 0⟩, ⟨0, 16, .ro, 0⟩]
  | .FAR_JOB => [⟨0, 16, .rw, 0⟩]
  | .FAR_PATH_BASE => [⟨6, 58, .rw, 0⟩]
  | .FAR_PATH_COUNT => [⟨0, 8, .rw, 0⟩]
  | .FAR_RTAB_BASE => [⟨6, 58, .rw, 0⟩]
  | .FAR_FWD_BASE => [⟨6, 58, .rw, 0⟩]
  | .FAR_FWD_COUNT => [⟨0, 21, .rw, 0⟩]
  | .FAR_RND_STATE => [⟨32, 32, .ro, 0⟩, ⟨31, 1, .ro, 0⟩]
  | .FAR_RND_RETX => [⟨0, 64, .ro, 0⟩]
  | .FAR_RND_ACK => [⟨0, 64, .ro, 0⟩]
  | .FAR_RND_FWD => [⟨0, 64, .ro, 0⟩]
  | .PAIR_CFG => [⟨63, 1, .ro, 0⟩, ⟨62, 1, .ro, 0⟩, ⟨0, 2, .rw, 0⟩]
  | .PAIR_STATE => [⟨61, 3, .ro, 0⟩, ⟨60, 1, .ro, 0⟩, ⟨59, 1, .ro, 0⟩, ⟨57, 2, .ro, 0⟩, ⟨0, 16, .ro, 0⟩]
  | .PAIR_CTL => [⟨63, 1, .wo, 0⟩, ⟨62, 1, .wo, 0⟩, ⟨61, 1, .wo, 0⟩, ⟨60, 1, .wo, 0⟩, ⟨0, 8, .wo, 0⟩]
  | .PAIR_LAST_HB => [⟨0, 64, .ro, 0⟩]
  | .PAIR_FAIL => [⟨62, 2, .rws, 0⟩, ⟨0, 48, .rws, 0⟩]
  | .PAIR_DIV_STAT => [⟨48, 16, .ro, 0⟩, ⟨24, 24, .ro, 0⟩, ⟨0, 24, .ro, 0⟩]
  | .PAIR_DIV_LAST => [⟨62, 2, .ro, 0⟩, ⟨61, 1, .ro, 0⟩, ⟨48, 8, .ro, 0⟩, ⟨24, 24, .ro, 0⟩, ⟨0, 24, .ro, 0⟩]
  | .PAIR_DIV_STEP => [⟨0, 64, .ro, 0⟩]
  | .PAIR_REINT => [⟨32, 32, .ro, 0⟩, ⟨0, 32, .ro, 0⟩]
  | .PAIR_CTX => [⟨48, 16, .rw, 0⟩, ⟨32, 16, .rw, 0⟩, ⟨0, 32, .rw, 1⟩]
  | .PAIR_SAMP_BASE => [⟨3, 61, .rw, 0⟩]
  | .PAIR_SAMP_COUNT => [⟨0, 17, .rw, 0⟩]
  | .PAIR_CTX_STATE => [⟨63, 1, .ro, 0⟩, ⟨62, 1, .ro, 0⟩, ⟨0, 32, .ro, 0⟩]
  | .MBX_CTL => [⟨63, 1, .wo, 0⟩]
  | .MBX_STATUS => [⟨63, 1, .ro, 0⟩, ⟨62, 1, .w1c, 0⟩, ⟨61, 1, .w1c, 0⟩, ⟨0, 32, .ro, 0⟩]
  | .MBX_IRQ => [⟨63, 1, .rw, 0⟩, ⟨0, 11, .rw, 0⟩]
  | .MBX_VERSION => [⟨56, 8, .ro, 1⟩, ⟨48, 8, .ro, 0⟩]
  | .PWR_CAP => [⟨63, 1, .ro, 0⟩, ⟨16, 1, .rw, 0⟩, ⟨0, 16, .rw, 2300⟩]
  | .PWR_STATUS => [⟨48, 16, .ro, 0⟩, ⟨32, 16, .ro, 0⟩, ⟨16, 16, .ro, 1900⟩, ⟨8, 8, .ro, 100⟩, ⟨0, 4, .ro, 0⟩]
  | .PWR_EMERG => [⟨63, 1, .ro, 0⟩, ⟨48, 5, .ro, 0⟩, ⟨0, 48, .ro, 0⟩]
  | .PWR_EMERG_CNT => [⟨0, 32, .ro, 0⟩]
  | .PWR_TRIP => [⟨63, 1, .rws, 0⟩, ⟨48, 8, .rws, 0⟩, ⟨0, 8, .rws, 0⟩]
  | .PWR_DIE_THERM => [⟨40, 8, .ro, 0⟩, ⟨16, 16, .ro, 1900⟩]
  | .PWR_RAIL => [⟨48, 16, .ro, 0⟩, ⟨32, 16, .ro, 0⟩, ⟨16, 16, .ro, 0⟩, ⟨0, 1, .ro, 0⟩]
  | .SEC_STATE => [⟨58, 6, .ro, 0⟩, ⟨54, 4, .ro, 0⟩, ⟨52, 2, .ro, 0⟩, ⟨0, 16, .ro, 0⟩]
  | .SEC_KEY_ADDR => [⟨6, 58, .rw, 0⟩, ⟨0, 1, .rw, 0⟩]
  | .SEC_KEY_CMD => [⟨63, 1, .wo, 0⟩, ⟨48, 8, .wo, 0⟩, ⟨0, 12, .wo, 0⟩]
  | .SEC_KEY_STATUS => [⟨63, 1, .ro, 0⟩, ⟨60, 3, .ro, 0⟩, ⟨32, 12, .ro, 0⟩, ⟨0, 32, .ro, 0⟩]
  | .SEC_SLOT_SEL => [⟨0, 12, .rw, 0⟩]
  | .SEC_SLOT_INFO => [⟨63, 1, .ro, 0⟩, ⟨56, 4, .ro, 0⟩, ⟨48, 8, .ro, 0⟩, ⟨0, 32, .ro, 0⟩]
  | .SEC_ALARM => [⟨58, 6, .rws, 0⟩, ⟨0, 32, .rws, 0⟩]
  | .SEC_FA_REQ => [⟨48, 16, .rw, 0⟩, ⟨32, 16, .rw, 0⟩, ⟨0, 1, .rw, 0⟩]
  | .SEC_FA_CTL => [⟨63, 1, .wo, 0⟩, ⟨62, 1, .wo, 0⟩, ⟨61, 1, .wo, 0⟩]
  | .SEC_FA_STATE => [⟨63, 1, .ro, 0⟩, ⟨62, 1, .ro, 0⟩, ⟨32, 16, .ro, 0⟩, ⟨24, 8, .ro, 0⟩, ⟨0, 24, .ro, 0⟩]
  | .SEC_FA_NONCE => [⟨0, 64, .ro, 0⟩]
  | .SEC_FA_RESP => [⟨0, 64, .wo, 0⟩]
  | .CIP_PAGE_CFG => [⟨32, 32, .rw, 0⟩, ⟨31, 1, .rw, 0⟩, ⟨30, 1, .rw, 0⟩, ⟨16, 12, .rw, 0⟩, ⟨0, 12, .rw, 0⟩]
  | .CIP_PAGE_STAT => [⟨32, 32, .ro, 0⟩, ⟨16, 16, .ro, 0⟩, ⟨0, 16, .ro, 0⟩]
  | .CIP_PAGE_GUARD => [⟨63, 1, .ro, 0⟩, ⟨0, 32, .ro, 0⟩]
  | .BOOT_STAGE => [⟨63, 1, .ro, 0⟩, ⟨56, 7, .ro, 0⟩, ⟨32, 16, .ro, 0⟩, ⟨0, 4, .ro, 0⟩]
  | .BOOT_STRAPS => [⟨3, 1, .ro, 0⟩, ⟨2, 1, .ro, 1⟩, ⟨1, 1, .ro, 0⟩, ⟨0, 1, .ro, 0⟩]
  | .BOOT_RESET => [⟨60, 4, .ro, 1⟩, ⟨32, 16, .rws, 0⟩, ⟨0, 16, .ro, 0⟩]
  | .BOOT_CTL => [⟨63, 1, .wo, 0⟩, ⟨62, 1, .wo, 0⟩]
  | .BOOT_CFG => [⟨63, 1, .ro, 0⟩, ⟨62, 1, .ro, 0⟩]
  | .BOOT_FLASH => [⟨63, 1, .ro, 0⟩, ⟨48, 8, .ro, 255⟩, ⟨32, 16, .ro, 0⟩, ⟨16, 16, .ro, 0⟩]
  | .BOOT_RECOV_ADDR => [⟨12, 52, .rw, 0⟩]
  | .BOOT_RECOV_LEN => [⟨0, 32, .rw, 0⟩]
  | .BOOT_RECOV_STATUS => [⟨61, 3, .ro, 0⟩, ⟨48, 8, .ro, 0⟩, ⟨0, 32, .ro, 0⟩]
  | .BOOT_STAGE_T => [⟨0, 64, .ro, 0⟩]

/-- The registers, part 1 of 6. -/
def RegName.list1 : List RegName :=
  [.HIF_ID, .HIF_SERIAL, .HIF_STATUS, .HIF_DEVTIME, .HIF_EPOCH_STATUS, .HIF_EPOCH_PENDING, .HIF_EPOCH_COMMIT, .HIF_BAR4_BASE, .HIF_HEARTBEAT, .HIF_BLOCKED, .QUE_CTX_CFG, .QUE_CTX_SORI, .QUE_CTX_MEM, .QUE_CTX_SYN, .QUE_SQ_BASE, .QUE_CQ_BASE, .QUE_CFG, .QUE_STATE, .EXC_EVQ_BASE, .EXC_EVQ_CFG, .EXC_EVQ_HEAD, .EXC_EVQ_STATE, .SYN_OP, .SYN_ARG0, .SYN_ARG1, .SYN_ARG2, .SYN_RESULT0, .SYN_RESULT1, .SYN_OP_STATUS, .SYN_NQ_BASE, .SYN_NQ_CFG, .SYN_NQ_HEAD, .SYN_NQ_STATE, .SYN_CTX_USE, .SYN_ERR, .SYN_DBG_CTL, .SYN_DBG_STATUS, .SYN_FREE, .SYN_WATCH_FREE, .EXC_NUM_CFG]

/-- The registers, part 2 of 6. -/
def RegName.list2 : List RegName :=
  [.EXC_NUM_STATE, .EXC_NUM_INV, .EXC_NUM_E0, .EXC_NUM_E1, .EXC_NUM_E2, .EXC_NUM_E3, .EXC_STEP_CFG, .EXC_CAP_BASE, .EXC_STEP_STATE, .EXC_STEP_INDEX, .EXC_STEP_OPEN_T, .EXC_STEP_CLOSE_T, .EXC_DEFER_RUNS, .EXC_DEFER_TIME, .EXC_PHASE, .EXC_PHASE_MAX, .EXC_STASH_CFG, .EXC_STASH_USE, .EXC_STASH_MARKS, .EXC_REPLAY_CTL, .EXC_REPLAY_ADDR, .EXC_REPLAY_STATUS, .NUM_JOB_SEED, .NUM_TENSOR_BASE, .NUM_TENSOR_COUNT, .NUM_TENSOR_REG, .NUM_REG_STATUS, .UPD_SHARD_BASE, .UPD_SHARD_COUNT, .UPD_NORM_CFG, .UPD_SKIP_CFG, .UPD_CROZ_BASE, .UPD_CROZ_BETA, .UPD_CROZ_T, .UPD_CROZ_P, .UPD_DECISION, .UPD_NORM_LAST, .UPD_STATE, .UPD_CROZ_STATUS, .UPD_CKPT_ADDR]

/-- The registers, part 3 of 6. -/
def RegName.list3 : List RegName :=
  [.UPD_CKPT_CTL, .UPD_CKPT_STATUS, .UPD_NONFINITE, .UPD_CROZ_K, .UPD_BASE_STATUS, .MEM_MAP, .MEM_REGION_CFG, .MEM_OUTSIDE, .MEM_OUTSIDE_CNT, .MEM_CACHE_CFG, .MEM_CAL_CFG, .MEM_SPARE_CFG, .MEM_SCRUB_CFG, .MEM_CH_CMD, .MEM_CMD_STATUS, .MEM_SPARE, .MEM_THERM, .MEM_CACHE_STAT, .MEM_CACHE_ERR, .MEM_CH_STATE, .MEM_CH_ECC, .MEM_CH_WINDOW, .MEM_LINK, .EXC_INT_REC, .EXC_INT_ADDR, .EXC_INT_CNT, .EXC_CMP_STAT, .FAB_ID, .FAB_DIMS, .FAB_LINK_CFG, .FAB_BYP_CTL, .FAB_BYP_STATE, .FAB_TIME_CFG, .FAB_TIME_STATE, .FAB_PPS_TIME, .FAB_COLL_CFG, .FAB_UNREACH, .FAB_PORT_CTL, .FAB_PORT_STATE, .FAB_PORT_CNT]

/-- The registers, part 4 of 6. -/
def RegName.list4 : List RegName :=
  [.FAB_GRP_BASE, .FAB_GRP_COUNT, .XCH_CFG, .XCH_TIMING, .XCH_STALE, .XCH_OUTER, .XCH_LEDGER, .XCH_OUT_BASE, .XCH_IN_BASE, .XCH_STORE_SIZE, .XCH_CMD, .XCH_CMD_STATUS, .XCH_STATE, .XCH_ROUND, .XCH_LEDGER_LAST, .XCH_EFF_STATE, .XCH_EFF_BWIRE, .XCH_EFF_HROUND, .XCH_EFF_ETA, .XCH_EFF_ALL, .XCH_EFF_ELEMS, .XCH_STATS, .FAR_PORT_CFG, .FAR_PORT_MAC, .FAR_PORT_ADDR_HI, .FAR_PORT_ADDR_LO, .FAR_PORT_BUF, .FAR_PORT_STATE, .FAR_PORT_FEC, .FAR_PORT_CNT, .FAR_PORT_XSEQ, .FAR_NET_CFG, .FAR_AXT_CFG, .FAR_PACE_CFG, .FAR_PATH_SEL, .FAR_PATH_RTT, .FAR_PATH_RATE, .FAR_PATH_CNT, .FAR_JOB, .FAR_PATH_BASE]

/-- The registers, part 5 of 6. -/
def RegName.list5 : List RegName :=
  [.FAR_PATH_COUNT, .FAR_RTAB_BASE, .FAR_FWD_BASE, .FAR_FWD_COUNT, .FAR_RND_STATE, .FAR_RND_RETX, .FAR_RND_ACK, .FAR_RND_FWD, .PAIR_CFG, .PAIR_STATE, .PAIR_CTL, .PAIR_LAST_HB, .PAIR_FAIL, .PAIR_DIV_STAT, .PAIR_DIV_LAST, .PAIR_DIV_STEP, .PAIR_REINT, .PAIR_CTX, .PAIR_SAMP_BASE, .PAIR_SAMP_COUNT, .PAIR_CTX_STATE, .MBX_CTL, .MBX_STATUS, .MBX_IRQ, .MBX_VERSION, .PWR_CAP, .PWR_STATUS, .PWR_EMERG, .PWR_EMERG_CNT, .PWR_TRIP, .PWR_DIE_THERM, .PWR_RAIL, .SEC_STATE, .SEC_KEY_ADDR, .SEC_KEY_CMD, .SEC_KEY_STATUS, .SEC_SLOT_SEL, .SEC_SLOT_INFO, .SEC_ALARM, .SEC_FA_REQ]

/-- The registers, part 6 of 6. -/
def RegName.list6 : List RegName :=
  [.SEC_FA_CTL, .SEC_FA_STATE, .SEC_FA_NONCE, .SEC_FA_RESP, .CIP_PAGE_CFG, .CIP_PAGE_STAT, .CIP_PAGE_GUARD, .BOOT_STAGE, .BOOT_STRAPS, .BOOT_RESET, .BOOT_CTL, .BOOT_CFG, .BOOT_FLASH, .BOOT_RECOV_ADDR, .BOOT_RECOV_LEN, .BOOT_RECOV_STATUS, .BOOT_STAGE_T]

/-- Every register. -/
def RegName.all : List RegName :=
  RegName.list1 ++ RegName.list2 ++ RegName.list3 ++ RegName.list4 ++ RegName.list5 ++ RegName.list6

namespace F

/-- HIF_ID.DEVICE[63:48]. -/
def HIF_ID_DEVICE : Field := ⟨.HIF_ID, 48, 16⟩
/-- HIF_ID.STEPPING[47:40]. -/
def HIF_ID_STEPPING : Field := ⟨.HIF_ID, 40, 8⟩
/-- HIF_ID.ORDER[39:32]. -/
def HIF_ID_ORDER : Field := ⟨.HIF_ID, 32, 8⟩
/-- HIF_ID.FUNCTION[5:0]. -/
def HIF_ID_FUNCTION : Field := ⟨.HIF_ID, 0, 6⟩
/-- HIF_SERIAL.SERIAL[39:0]. -/
def HIF_SERIAL_SERIAL : Field := ⟨.HIF_SERIAL, 0, 40⟩
/-- HIF_STATUS.FATAL[63:63]. -/
def HIF_STATUS_FATAL : Field := ⟨.HIF_STATUS, 63, 1⟩
/-- HIF_STATUS.DRIVER[62:60]. -/
def HIF_STATUS_DRIVER : Field := ⟨.HIF_STATUS, 60, 3⟩
/-- HIF_STATUS.STAGE[3:0]. -/
def HIF_STATUS_STAGE : Field := ⟨.HIF_STATUS, 0, 4⟩
/-- HIF_DEVTIME.TIME[63:0]. -/
def HIF_DEVTIME_TIME : Field := ⟨.HIF_DEVTIME, 0, 64⟩
/-- HIF_EPOCH_STATUS.COMMITTED[63:32]. -/
def HIF_EPOCH_STATUS_COMMITTED : Field := ⟨.HIF_EPOCH_STATUS, 32, 32⟩
/-- HIF_EPOCH_STATUS.ADOPTED_MIN[31:0]. -/
def HIF_EPOCH_STATUS_ADOPTED_MIN : Field := ⟨.HIF_EPOCH_STATUS, 0, 32⟩
/-- HIF_EPOCH_PENDING.UNITS[7:0]. -/
def HIF_EPOCH_PENDING_UNITS : Field := ⟨.HIF_EPOCH_PENDING, 0, 8⟩
/-- HIF_EPOCH_COMMIT.COMMIT[0:0]. -/
def HIF_EPOCH_COMMIT_COMMIT : Field := ⟨.HIF_EPOCH_COMMIT, 0, 1⟩
/-- HIF_BAR4_BASE.BASE[11:0]. -/
def HIF_BAR4_BASE_BASE : Field := ⟨.HIF_BAR4_BASE, 0, 12⟩
/-- HIF_HEARTBEAT.BEAT[63:0]. -/
def HIF_HEARTBEAT_BEAT : Field := ⟨.HIF_HEARTBEAT, 0, 64⟩
/-- HIF_BLOCKED.CLEAR[63:63]. -/
def HIF_BLOCKED_CLEAR : Field := ⟨.HIF_BLOCKED, 63, 1⟩
/-- HIF_BLOCKED.COUNT[62:32]. -/
def HIF_BLOCKED_COUNT : Field := ⟨.HIF_BLOCKED, 32, 31⟩
/-- HIF_BLOCKED.BAR[31:31]. -/
def HIF_BLOCKED_BAR : Field := ⟨.HIF_BLOCKED, 31, 1⟩
/-- HIF_BLOCKED.OFFSET[25:0]. -/
def HIF_BLOCKED_OFFSET : Field := ⟨.HIF_BLOCKED, 0, 26⟩
/-- QUE_CTX_CFG.EN[63:63]. -/
def QUE_CTX_CFG_EN : Field := ⟨.QUE_CTX_CFG, 63, 1⟩
/-- QUE_CTX_CFG.FUNCTION[61:56]. -/
def QUE_CTX_CFG_FUNCTION : Field := ⟨.QUE_CTX_CFG, 56, 6⟩
/-- QUE_CTX_CFG.ERR[55:52]. -/
def QUE_CTX_CFG_ERR : Field := ⟨.QUE_CTX_CFG, 52, 4⟩
/-- QUE_CTX_CFG.Q_FIRST[31:16]. -/
def QUE_CTX_CFG_Q_FIRST : Field := ⟨.QUE_CTX_CFG, 16, 16⟩
/-- QUE_CTX_CFG.Q_COUNT[12:0]. -/
def QUE_CTX_CFG_Q_COUNT : Field := ⟨.QUE_CTX_CFG, 0, 13⟩
/-- QUE_CTX_SORI.MASK[31:0]. -/
def QUE_CTX_SORI_MASK : Field := ⟨.QUE_CTX_SORI, 0, 32⟩
/-- QUE_CTX_MEM.SIZE[43:32]. -/
def QUE_CTX_MEM_SIZE : Field := ⟨.QUE_CTX_MEM, 32, 12⟩
/-- QUE_CTX_MEM.BASE[11:0]. -/
def QUE_CTX_MEM_BASE : Field := ⟨.QUE_CTX_MEM, 0, 12⟩
/-- QUE_CTX_SYN.IDS[16:0]. -/
def QUE_CTX_SYN_IDS : Field := ⟨.QUE_CTX_SYN, 0, 17⟩
/-- QUE_SQ_BASE.ADDR[63:12]. -/
def QUE_SQ_BASE_ADDR : Field := ⟨.QUE_SQ_BASE, 12, 52⟩
/-- QUE_SQ_BASE.SPACE[0:0]. -/
def QUE_SQ_BASE_SPACE : Field := ⟨.QUE_SQ_BASE, 0, 1⟩
/-- QUE_CQ_BASE.ADDR[63:12]. -/
def QUE_CQ_BASE_ADDR : Field := ⟨.QUE_CQ_BASE, 12, 52⟩
/-- QUE_CQ_BASE.SPACE[0:0]. -/
def QUE_CQ_BASE_SPACE : Field := ⟨.QUE_CQ_BASE, 0, 1⟩
/-- QUE_CFG.EN[63:63]. -/
def QUE_CFG_EN : Field := ⟨.QUE_CFG, 63, 1⟩
/-- QUE_CFG.IRQ_EN[62:62]. -/
def QUE_CFG_IRQ_EN : Field := ⟨.QUE_CFG, 62, 1⟩
/-- QUE_CFG.CQ_LOG2[52:48]. -/
def QUE_CFG_CQ_LOG2 : Field := ⟨.QUE_CFG, 48, 5⟩
/-- QUE_CFG.SQ_LOG2[44:40]. -/
def QUE_CFG_SQ_LOG2 : Field := ⟨.QUE_CFG, 40, 5⟩
/-- QUE_CFG.PRIO[33:32]. -/
def QUE_CFG_PRIO : Field := ⟨.QUE_CFG, 32, 2⟩
/-- QUE_CFG.VECTOR[10:0]. -/
def QUE_CFG_VECTOR : Field := ⟨.QUE_CFG, 0, 11⟩
/-- QUE_STATE.STATE[63:61]. -/
def QUE_STATE_STATE : Field := ⟨.QUE_STATE, 61, 3⟩
/-- QUE_STATE.PHASE[48:48]. -/
def QUE_STATE_PHASE : Field := ⟨.QUE_STATE, 48, 1⟩
/-- QUE_STATE.SQ_HEAD[47:32]. -/
def QUE_STATE_SQ_HEAD : Field := ⟨.QUE_STATE, 32, 16⟩
/-- QUE_STATE.CQ_TAIL[31:16]. -/
def QUE_STATE_CQ_TAIL : Field := ⟨.QUE_STATE, 16, 16⟩
/-- EXC_EVQ_BASE.ADDR[63:12]. -/
def EXC_EVQ_BASE_ADDR : Field := ⟨.EXC_EVQ_BASE, 12, 52⟩
/-- EXC_EVQ_CFG.EN[63:63]. -/
def EXC_EVQ_CFG_EN : Field := ⟨.EXC_EVQ_CFG, 63, 1⟩
/-- EXC_EVQ_CFG.IRQ_EN[62:62]. -/
def EXC_EVQ_CFG_IRQ_EN : Field := ⟨.EXC_EVQ_CFG, 62, 1⟩
/-- EXC_EVQ_CFG.LOG2[20:16]. -/
def EXC_EVQ_CFG_LOG2 : Field := ⟨.EXC_EVQ_CFG, 16, 5⟩
/-- EXC_EVQ_CFG.VECTOR[10:0]. -/
def EXC_EVQ_CFG_VECTOR : Field := ⟨.EXC_EVQ_CFG, 0, 11⟩
/-- EXC_EVQ_HEAD.HEAD[15:0]. -/
def EXC_EVQ_HEAD_HEAD : Field := ⟨.EXC_EVQ_HEAD, 0, 16⟩
/-- EXC_EVQ_STATE.LOST[63:32]. -/
def EXC_EVQ_STATE_LOST : Field := ⟨.EXC_EVQ_STATE, 32, 32⟩
/-- EXC_EVQ_STATE.PHASE[16:16]. -/
def EXC_EVQ_STATE_PHASE : Field := ⟨.EXC_EVQ_STATE, 16, 1⟩
/-- EXC_EVQ_STATE.TAIL[15:0]. -/
def EXC_EVQ_STATE_TAIL : Field := ⟨.EXC_EVQ_STATE, 0, 16⟩
/-- SYN_OP.OP[63:56]. -/
def SYN_OP_OP : Field := ⟨.SYN_OP, 56, 8⟩
/-- SYN_OP.CTX[55:48]. -/
def SYN_OP_CTX : Field := ⟨.SYN_OP, 48, 8⟩
/-- SYN_OP.VID[15:0]. -/
def SYN_OP_VID : Field := ⟨.SYN_OP, 0, 16⟩
/-- SYN_ARG0.ARG0[63:0]. -/
def SYN_ARG0_ARG0 : Field := ⟨.SYN_ARG0, 0, 64⟩
/-- SYN_ARG1.ARG1[63:0]. -/
def SYN_ARG1_ARG1 : Field := ⟨.SYN_ARG1, 0, 64⟩
/-- SYN_ARG2.ARG2[63:0]. -/
def SYN_ARG2_ARG2 : Field := ⟨.SYN_ARG2, 0, 64⟩
/-- SYN_RESULT0.RESULT0[63:0]. -/
def SYN_RESULT0_RESULT0 : Field := ⟨.SYN_RESULT0, 0, 64⟩
/-- SYN_RESULT1.RESULT1[63:0]. -/
def SYN_RESULT1_RESULT1 : Field := ⟨.SYN_RESULT1, 0, 64⟩
/-- SYN_OP_STATUS.DETAIL[63:32]. -/
def SYN_OP_STATUS_DETAIL : Field := ⟨.SYN_OP_STATUS, 32, 32⟩
/-- SYN_OP_STATUS.BUSY[31:31]. -/
def SYN_OP_STATUS_BUSY : Field := ⟨.SYN_OP_STATUS, 31, 1⟩
/-- SYN_OP_STATUS.OVERRUN[30:30]. -/
def SYN_OP_STATUS_OVERRUN : Field := ⟨.SYN_OP_STATUS, 30, 1⟩
/-- SYN_OP_STATUS.STATUS[15:0]. -/
def SYN_OP_STATUS_STATUS : Field := ⟨.SYN_OP_STATUS, 0, 16⟩
/-- SYN_NQ_BASE.ADDR[63:12]. -/
def SYN_NQ_BASE_ADDR : Field := ⟨.SYN_NQ_BASE, 12, 52⟩
/-- SYN_NQ_BASE.SPACE[0:0]. -/
def SYN_NQ_BASE_SPACE : Field := ⟨.SYN_NQ_BASE, 0, 1⟩
/-- SYN_NQ_CFG.EN[63:63]. -/
def SYN_NQ_CFG_EN : Field := ⟨.SYN_NQ_CFG, 63, 1⟩
/-- SYN_NQ_CFG.IRQ_EN[62:62]. -/
def SYN_NQ_CFG_IRQ_EN : Field := ⟨.SYN_NQ_CFG, 62, 1⟩
/-- SYN_NQ_CFG.LOG2[20:16]. -/
def SYN_NQ_CFG_LOG2 : Field := ⟨.SYN_NQ_CFG, 16, 5⟩
/-- SYN_NQ_CFG.VECTOR[10:0]. -/
def SYN_NQ_CFG_VECTOR : Field := ⟨.SYN_NQ_CFG, 0, 11⟩
/-- SYN_NQ_HEAD.HEAD[15:0]. -/
def SYN_NQ_HEAD_HEAD : Field := ⟨.SYN_NQ_HEAD, 0, 16⟩
/-- SYN_NQ_STATE.LOST[63:32]. -/
def SYN_NQ_STATE_LOST : Field := ⟨.SYN_NQ_STATE, 32, 32⟩
/-- SYN_NQ_STATE.PHASE[16:16]. -/
def SYN_NQ_STATE_PHASE : Field := ⟨.SYN_NQ_STATE, 16, 1⟩
/-- SYN_NQ_STATE.TAIL[15:0]. -/
def SYN_NQ_STATE_TAIL : Field := ⟨.SYN_NQ_STATE, 0, 16⟩
/-- SYN_CTX_USE.MAPPED[48:32]. -/
def SYN_CTX_USE_MAPPED : Field := ⟨.SYN_CTX_USE, 32, 17⟩
/-- SYN_CTX_USE.WATCHES[12:0]. -/
def SYN_CTX_USE_WATCHES : Field := ⟨.SYN_CTX_USE, 0, 13⟩
/-- SYN_ERR.VALID[63:63]. -/
def SYN_ERR_VALID : Field := ⟨.SYN_ERR, 63, 1⟩
/-- SYN_ERR.CODE[55:48]. -/
def SYN_ERR_CODE : Field := ⟨.SYN_ERR, 48, 8⟩
/-- SYN_ERR.VID[47:32]. -/
def SYN_ERR_VID : Field := ⟨.SYN_ERR, 32, 16⟩
/-- SYN_ERR.KIND[31:28]. -/
def SYN_ERR_KIND : Field := ⟨.SYN_ERR, 28, 4⟩
/-- SYN_ERR.SOURCE[27:0]. -/
def SYN_ERR_SOURCE : Field := ⟨.SYN_ERR, 0, 28⟩
/-- SYN_DBG_CTL.INTERVENE[1:1]. -/
def SYN_DBG_CTL_INTERVENE : Field := ⟨.SYN_DBG_CTL, 1, 1⟩
/-- SYN_DBG_CTL.OBSERVE[0:0]. -/
def SYN_DBG_CTL_OBSERVE : Field := ⟨.SYN_DBG_CTL, 0, 1⟩
/-- SYN_DBG_STATUS.SCOPE[63:63]. -/
def SYN_DBG_STATUS_SCOPE : Field := ⟨.SYN_DBG_STATUS, 63, 1⟩
/-- SYN_DBG_STATUS.INTERVENTIONS[31:0]. -/
def SYN_DBG_STATUS_INTERVENTIONS : Field := ⟨.SYN_DBG_STATUS, 0, 32⟩
/-- SYN_FREE.FREE[18:0]. -/
def SYN_FREE_FREE : Field := ⟨.SYN_FREE, 0, 19⟩
/-- SYN_WATCH_FREE.FREE[18:0]. -/
def SYN_WATCH_FREE_FREE : Field := ⟨.SYN_WATCH_FREE, 0, 19⟩
/-- EXC_NUM_CFG.TRAP[1:0]. -/
def EXC_NUM_CFG_TRAP : Field := ⟨.EXC_NUM_CFG, 0, 2⟩
/-- EXC_NUM_STATE.CLEAR[63:63]. -/
def EXC_NUM_STATE_CLEAR : Field := ⟨.EXC_NUM_STATE, 63, 1⟩
/-- EXC_NUM_STATE.COUNT[38:32]. -/
def EXC_NUM_STATE_COUNT : Field := ⟨.EXC_NUM_STATE, 32, 7⟩
/-- EXC_NUM_STATE.LOST[31:0]. -/
def EXC_NUM_STATE_LOST : Field := ⟨.EXC_NUM_STATE, 0, 32⟩
/-- EXC_NUM_INV.INV[63:0]. -/
def EXC_NUM_INV_INV : Field := ⟨.EXC_NUM_INV, 0, 64⟩
/-- EXC_NUM_E0.TIME[63:0]. -/
def EXC_NUM_E0_TIME : Field := ⟨.EXC_NUM_E0, 0, 64⟩
/-- EXC_NUM_E1.CLASS[63:60]. -/
def EXC_NUM_E1_CLASS : Field := ⟨.EXC_NUM_E1, 60, 4⟩
/-- EXC_NUM_E1.SLOT[59:58]. -/
def EXC_NUM_E1_SLOT : Field := ⟨.EXC_NUM_E1, 58, 2⟩
/-- EXC_NUM_E1.HER[57:57]. -/
def EXC_NUM_E1_HER : Field := ⟨.EXC_NUM_E1, 57, 1⟩
/-- EXC_NUM_E1.SET[56:56]. -/
def EXC_NUM_E1_SET : Field := ⟨.EXC_NUM_E1, 56, 1⟩
/-- EXC_NUM_E1.OPCODE[55:50]. -/
def EXC_NUM_E1_OPCODE : Field := ⟨.EXC_NUM_E1, 50, 6⟩
/-- EXC_NUM_E1.TILE[49:41]. -/
def EXC_NUM_E1_TILE : Field := ⟨.EXC_NUM_E1, 41, 9⟩
/-- EXC_NUM_E1.BUNDLE[31:0]. -/
def EXC_NUM_E1_BUNDLE : Field := ⟨.EXC_NUM_E1, 0, 32⟩
/-- EXC_NUM_E2.ROW_LANE[63:56]. -/
def EXC_NUM_E2_ROW_LANE : Field := ⟨.EXC_NUM_E2, 56, 8⟩
/-- EXC_NUM_E2.COL[55:48]. -/
def EXC_NUM_E2_COL : Field := ⟨.EXC_NUM_E2, 48, 8⟩
/-- EXC_NUM_E2.INDEX[47:0]. -/
def EXC_NUM_E2_INDEX : Field := ⟨.EXC_NUM_E2, 0, 48⟩
/-- EXC_NUM_E3.VALID[63:63]. -/
def EXC_NUM_E3_VALID : Field := ⟨.EXC_NUM_E3, 63, 1⟩
/-- EXC_NUM_E3.TENSOR[31:0]. -/
def EXC_NUM_E3_TENSOR : Field := ⟨.EXC_NUM_E3, 0, 32⟩
/-- EXC_STEP_CFG.CAP_EN[63:63]. -/
def EXC_STEP_CFG_CAP_EN : Field := ⟨.EXC_STEP_CFG, 63, 1⟩
/-- EXC_STEP_CFG.CAP_LOG2_SLOTS[59:56]. -/
def EXC_STEP_CFG_CAP_LOG2_SLOTS : Field := ⟨.EXC_STEP_CFG, 56, 4⟩
/-- EXC_STEP_CFG.CAP_SLOT_LOG2[52:48]. -/
def EXC_STEP_CFG_CAP_SLOT_LOG2 : Field := ⟨.EXC_STEP_CFG, 48, 5⟩
/-- EXC_STEP_CFG.YIELD_NS[15:0]. -/
def EXC_STEP_CFG_YIELD_NS : Field := ⟨.EXC_STEP_CFG, 0, 16⟩
/-- EXC_CAP_BASE.ADDR[63:12]. -/
def EXC_CAP_BASE_ADDR : Field := ⟨.EXC_CAP_BASE, 12, 52⟩
/-- EXC_STEP_STATE.CLOSED[63:32]. -/
def EXC_STEP_STATE_CLOSED : Field := ⟨.EXC_STEP_STATE, 32, 32⟩
/-- EXC_STEP_STATE.OPEN[31:31]. -/
def EXC_STEP_STATE_OPEN : Field := ⟨.EXC_STEP_STATE, 31, 1⟩
/-- EXC_STEP_STATE.CAP_SLOT[11:0]. -/
def EXC_STEP_STATE_CAP_SLOT : Field := ⟨.EXC_STEP_STATE, 0, 12⟩
/-- EXC_STEP_INDEX.STEP[63:0]. -/
def EXC_STEP_INDEX_STEP : Field := ⟨.EXC_STEP_INDEX, 0, 64⟩
/-- EXC_STEP_OPEN_T.TIME[63:0]. -/
def EXC_STEP_OPEN_T_TIME : Field := ⟨.EXC_STEP_OPEN_T, 0, 64⟩
/-- EXC_STEP_CLOSE_T.TIME[63:0]. -/
def EXC_STEP_CLOSE_T_TIME : Field := ⟨.EXC_STEP_CLOSE_T, 0, 64⟩
/-- EXC_DEFER_RUNS.YIELD_RUNS[63:32]. -/
def EXC_DEFER_RUNS_YIELD_RUNS : Field := ⟨.EXC_DEFER_RUNS, 32, 32⟩
/-- EXC_DEFER_RUNS.FORCED_RUNS[31:0]. -/
def EXC_DEFER_RUNS_FORCED_RUNS : Field := ⟨.EXC_DEFER_RUNS, 0, 32⟩
/-- EXC_DEFER_TIME.YIELD_NS[63:32]. -/
def EXC_DEFER_TIME_YIELD_NS : Field := ⟨.EXC_DEFER_TIME, 32, 32⟩
/-- EXC_DEFER_TIME.FORCED_NS[31:0]. -/
def EXC_DEFER_TIME_FORCED_NS : Field := ⟨.EXC_DEFER_TIME, 0, 32⟩
/-- EXC_PHASE.MAX_TILE[63:55]. -/
def EXC_PHASE_MAX_TILE : Field := ⟨.EXC_PHASE, 55, 9⟩
/-- EXC_PHASE.TIME[31:0]. -/
def EXC_PHASE_TIME : Field := ⟨.EXC_PHASE, 0, 32⟩
/-- EXC_PHASE_MAX.MAX_NS[31:0]. -/
def EXC_PHASE_MAX_MAX_NS : Field := ⟨.EXC_PHASE_MAX, 0, 32⟩
/-- EXC_STASH_CFG.STAGE[63:56]. -/
def EXC_STASH_CFG_STAGE : Field := ⟨.EXC_STASH_CFG, 56, 8⟩
/-- EXC_STASH_CFG.DYN[55:55]. -/
def EXC_STASH_CFG_DYN : Field := ⟨.EXC_STASH_CFG, 55, 1⟩
/-- EXC_STASH_CFG.POLICY[54:54]. -/
def EXC_STASH_CFG_POLICY : Field := ⟨.EXC_STASH_CFG, 54, 1⟩
/-- EXC_STASH_CFG.QUOTA[51:32]. -/
def EXC_STASH_CFG_QUOTA : Field := ⟨.EXC_STASH_CFG, 32, 20⟩
/-- EXC_STASH_CFG.VALID[31:31]. -/
def EXC_STASH_CFG_VALID : Field := ⟨.EXC_STASH_CFG, 31, 1⟩
/-- EXC_STASH_CFG.BND_MIB[19:0]. -/
def EXC_STASH_CFG_BND_MIB : Field := ⟨.EXC_STASH_CFG, 0, 20⟩
/-- EXC_STASH_USE.PEAK_KIB[63:32]. -/
def EXC_STASH_USE_PEAK_KIB : Field := ⟨.EXC_STASH_USE, 32, 32⟩
/-- EXC_STASH_USE.CUR_KIB[31:0]. -/
def EXC_STASH_USE_CUR_KIB : Field := ⟨.EXC_STASH_USE, 0, 32⟩
/-- EXC_STASH_MARKS.TOTAL[63:32]. -/
def EXC_STASH_MARKS_TOTAL : Field := ⟨.EXC_STASH_MARKS, 32, 32⟩
/-- EXC_STASH_MARKS.STEP[31:0]. -/
def EXC_STASH_MARKS_STEP : Field := ⟨.EXC_STASH_MARKS, 0, 32⟩
/-- EXC_REPLAY_CTL.ARM[63:63]. -/
def EXC_REPLAY_CTL_ARM : Field := ⟨.EXC_REPLAY_CTL, 63, 1⟩
/-- EXC_REPLAY_ADDR.ADDR[63:12]. -/
def EXC_REPLAY_ADDR_ADDR : Field := ⟨.EXC_REPLAY_ADDR, 12, 52⟩
/-- EXC_REPLAY_STATUS.RESULT[63:61]. -/
def EXC_REPLAY_STATUS_RESULT : Field := ⟨.EXC_REPLAY_STATUS, 61, 3⟩
/-- EXC_REPLAY_STATUS.POINT[60:58]. -/
def EXC_REPLAY_STATUS_POINT : Field := ⟨.EXC_REPLAY_STATUS, 58, 3⟩
/-- EXC_REPLAY_STATUS.SHARD[31:0]. -/
def EXC_REPLAY_STATUS_SHARD : Field := ⟨.EXC_REPLAY_STATUS, 0, 32⟩
/-- NUM_JOB_SEED.SEED[63:0]. -/
def NUM_JOB_SEED_SEED : Field := ⟨.NUM_JOB_SEED, 0, 64⟩
/-- NUM_TENSOR_BASE.ADDR[63:6]. -/
def NUM_TENSOR_BASE_ADDR : Field := ⟨.NUM_TENSOR_BASE, 6, 58⟩
/-- NUM_TENSOR_COUNT.COUNT[20:0]. -/
def NUM_TENSOR_COUNT_COUNT : Field := ⟨.NUM_TENSOR_COUNT, 0, 21⟩
/-- NUM_TENSOR_REG.GO[63:63]. -/
def NUM_TENSOR_REG_GO : Field := ⟨.NUM_TENSOR_REG, 63, 1⟩
/-- NUM_TENSOR_REG.TID[31:0]. -/
def NUM_TENSOR_REG_TID : Field := ⟨.NUM_TENSOR_REG, 0, 32⟩
/-- NUM_REG_STATUS.BUSY[63:63]. -/
def NUM_REG_STATUS_BUSY : Field := ⟨.NUM_REG_STATUS, 63, 1⟩
/-- NUM_REG_STATUS.ERR[62:60]. -/
def NUM_REG_STATUS_ERR : Field := ⟨.NUM_REG_STATUS, 60, 3⟩
/-- NUM_REG_STATUS.TID[31:0]. -/
def NUM_REG_STATUS_TID : Field := ⟨.NUM_REG_STATUS, 0, 32⟩
/-- UPD_SHARD_BASE.ADDR[63:6]. -/
def UPD_SHARD_BASE_ADDR : Field := ⟨.UPD_SHARD_BASE, 6, 58⟩
/-- UPD_SHARD_COUNT.COUNT[20:0]. -/
def UPD_SHARD_COUNT_COUNT : Field := ⟨.UPD_SHARD_COUNT, 0, 21⟩
/-- UPD_NORM_CFG.LIMIT[63:32]. -/
def UPD_NORM_CFG_LIMIT : Field := ⟨.UPD_NORM_CFG, 32, 32⟩
/-- UPD_NORM_CFG.CLIP[31:0]. -/
def UPD_NORM_CFG_CLIP : Field := ⟨.UPD_NORM_CFG, 0, 32⟩
/-- UPD_SKIP_CFG.LIMIT[15:0]. -/
def UPD_SKIP_CFG_LIMIT : Field := ⟨.UPD_SKIP_CFG, 0, 16⟩
/-- UPD_CROZ_BASE.ADDR[63:6]. -/
def UPD_CROZ_BASE_ADDR : Field := ⟨.UPD_CROZ_BASE, 6, 58⟩
/-- UPD_CROZ_BETA.BETA2[63:32]. -/
def UPD_CROZ_BETA_BETA2 : Field := ⟨.UPD_CROZ_BETA, 32, 32⟩
/-- UPD_CROZ_BETA.BETA1[31:0]. -/
def UPD_CROZ_BETA_BETA1 : Field := ⟨.UPD_CROZ_BETA, 0, 32⟩
/-- UPD_CROZ_T.T[63:0]. -/
def UPD_CROZ_T_T : Field := ⟨.UPD_CROZ_T, 0, 64⟩
/-- UPD_CROZ_P.P2[63:32]. -/
def UPD_CROZ_P_P2 : Field := ⟨.UPD_CROZ_P, 32, 32⟩
/-- UPD_CROZ_P.P1[31:0]. -/
def UPD_CROZ_P_P1 : Field := ⟨.UPD_CROZ_P, 0, 32⟩
/-- UPD_DECISION.VALID[63:63]. -/
def UPD_DECISION_VALID : Field := ⟨.UPD_DECISION, 63, 1⟩
/-- UPD_DECISION.SKIP[62:62]. -/
def UPD_DECISION_SKIP : Field := ⟨.UPD_DECISION, 62, 1⟩
/-- UPD_DECISION.REASON[61:60]. -/
def UPD_DECISION_REASON : Field := ⟨.UPD_DECISION, 60, 2⟩
/-- UPD_DECISION.KAPPA[31:0]. -/
def UPD_DECISION_KAPPA : Field := ⟨.UPD_DECISION, 0, 32⟩
/-- UPD_NORM_LAST.SUMSQ[63:32]. -/
def UPD_NORM_LAST_SUMSQ : Field := ⟨.UPD_NORM_LAST, 32, 32⟩
/-- UPD_NORM_LAST.NORM[31:0]. -/
def UPD_NORM_LAST_NORM : Field := ⟨.UPD_NORM_LAST, 0, 32⟩
/-- UPD_STATE.SKIPS[63:32]. -/
def UPD_STATE_SKIPS : Field := ⟨.UPD_STATE, 32, 32⟩
/-- UPD_STATE.SKIP_STREAK[31:16]. -/
def UPD_STATE_SKIP_STREAK : Field := ⟨.UPD_STATE, 16, 16⟩
/-- UPD_STATE.STALE_LAST[15:0]. -/
def UPD_STATE_STALE_LAST : Field := ⟨.UPD_STATE, 0, 16⟩
/-- UPD_CROZ_STATUS.ERR[7:4]. -/
def UPD_CROZ_STATUS_ERR : Field := ⟨.UPD_CROZ_STATUS, 4, 4⟩
/-- UPD_CROZ_STATUS.CHANNEL[3:0]. -/
def UPD_CROZ_STATUS_CHANNEL : Field := ⟨.UPD_CROZ_STATUS, 0, 4⟩
/-- UPD_CKPT_ADDR.ADDR[63:12]. -/
def UPD_CKPT_ADDR_ADDR : Field := ⟨.UPD_CKPT_ADDR, 12, 52⟩
/-- UPD_CKPT_ADDR.SPACE[0:0]. -/
def UPD_CKPT_ADDR_SPACE : Field := ⟨.UPD_CKPT_ADDR, 0, 1⟩
/-- UPD_CKPT_CTL.GO[63:63]. -/
def UPD_CKPT_CTL_GO : Field := ⟨.UPD_CKPT_CTL, 63, 1⟩
/-- UPD_CKPT_CTL.RESTORE[62:62]. -/
def UPD_CKPT_CTL_RESTORE : Field := ⟨.UPD_CKPT_CTL, 62, 1⟩
/-- UPD_CKPT_CTL.LEN_MIB[31:0]. -/
def UPD_CKPT_CTL_LEN_MIB : Field := ⟨.UPD_CKPT_CTL, 0, 32⟩
/-- UPD_CKPT_STATUS.STATE[63:61]. -/
def UPD_CKPT_STATUS_STATE : Field := ⟨.UPD_CKPT_STATUS, 61, 3⟩
/-- UPD_CKPT_STATUS.REASON[60:57]. -/
def UPD_CKPT_STATUS_REASON : Field := ⟨.UPD_CKPT_STATUS, 57, 4⟩
/-- UPD_CKPT_STATUS.OVERRUN[56:56]. -/
def UPD_CKPT_STATUS_OVERRUN : Field := ⟨.UPD_CKPT_STATUS, 56, 1⟩
/-- UPD_CKPT_STATUS.MIB[31:0]. -/
def UPD_CKPT_STATUS_MIB : Field := ⟨.UPD_CKPT_STATUS, 0, 32⟩
/-- UPD_NONFINITE.TOTAL[63:32]. -/
def UPD_NONFINITE_TOTAL : Field := ⟨.UPD_NONFINITE, 32, 32⟩
/-- UPD_NONFINITE.STEP[31:0]. -/
def UPD_NONFINITE_STEP : Field := ⟨.UPD_NONFINITE, 0, 32⟩
/-- UPD_CROZ_K.VALUE[31:0]. -/
def UPD_CROZ_K_VALUE : Field := ⟨.UPD_CROZ_K, 0, 32⟩
/-- UPD_BASE_STATUS.BUSY[63:60]. -/
def UPD_BASE_STATUS_BUSY : Field := ⟨.UPD_BASE_STATUS, 60, 4⟩
/-- UPD_BASE_STATUS.CTX[47:40]. -/
def UPD_BASE_STATUS_CTX : Field := ⟨.UPD_BASE_STATUS, 40, 8⟩
/-- UPD_BASE_STATUS.PASS[39:32]. -/
def UPD_BASE_STATUS_PASS : Field := ⟨.UPD_BASE_STATUS, 32, 8⟩
/-- UPD_BASE_STATUS.BLOCKS[31:0]. -/
def UPD_BASE_STATUS_BLOCKS : Field := ⟨.UPD_BASE_STATUS, 0, 32⟩
/-- MEM_MAP.RESERVE[56:56]. -/
def MEM_MAP_RESERVE : Field := ⟨.MEM_MAP, 56, 1⟩
/-- MEM_MAP.V_3G[39:32]. -/
def MEM_MAP_V_3G : Field := ⟨.MEM_MAP, 32, 8⟩
/-- MEM_REGION_CFG.ERR[63:63]. -/
def MEM_REGION_CFG_ERR : Field := ⟨.MEM_REGION_CFG, 63, 1⟩
/-- MEM_REGION_CFG.AFF_3G[39:32]. -/
def MEM_REGION_CFG_AFF_3G : Field := ⟨.MEM_REGION_CFG, 32, 8⟩
/-- MEM_REGION_CFG.LOCAL_768M[7:0]. -/
def MEM_REGION_CFG_LOCAL_768M : Field := ⟨.MEM_REGION_CFG, 0, 8⟩
/-- MEM_OUTSIDE.VALID[63:63]. -/
def MEM_OUTSIDE_VALID : Field := ⟨.MEM_OUTSIDE, 63, 1⟩
/-- MEM_OUTSIDE.AGENT[62:59]. -/
def MEM_OUTSIDE_AGENT : Field := ⟨.MEM_OUTSIDE, 59, 4⟩
/-- MEM_OUTSIDE.CTX[55:48]. -/
def MEM_OUTSIDE_CTX : Field := ⟨.MEM_OUTSIDE, 48, 8⟩
/-- MEM_OUTSIDE.ADDR[47:0]. -/
def MEM_OUTSIDE_ADDR : Field := ⟨.MEM_OUTSIDE, 0, 48⟩
/-- MEM_OUTSIDE_CNT.COUNT[31:0]. -/
def MEM_OUTSIDE_CNT_COUNT : Field := ⟨.MEM_OUTSIDE_CNT, 0, 32⟩
/-- MEM_CACHE_CFG.KEEP_WAYS[3:0]. -/
def MEM_CACHE_CFG_KEEP_WAYS : Field := ⟨.MEM_CACHE_CFG, 0, 4⟩
/-- MEM_CAL_CFG.PERIOD_MS[47:32]. -/
def MEM_CAL_CFG_PERIOD_MS : Field := ⟨.MEM_CAL_CFG, 32, 16⟩
/-- MEM_CAL_CFG.TEMP_DELTA[7:0]. -/
def MEM_CAL_CFG_TEMP_DELTA : Field := ⟨.MEM_CAL_CFG, 0, 8⟩
/-- MEM_SPARE_CFG.AUTO[63:63]. -/
def MEM_SPARE_CFG_AUTO : Field := ⟨.MEM_SPARE_CFG, 63, 1⟩
/-- MEM_SPARE_CFG.RATE[55:48]. -/
def MEM_SPARE_CFG_RATE : Field := ⟨.MEM_SPARE_CFG, 48, 8⟩
/-- MEM_SPARE_CFG.UE_LIMIT[47:32]. -/
def MEM_SPARE_CFG_UE_LIMIT : Field := ⟨.MEM_SPARE_CFG, 32, 16⟩
/-- MEM_SPARE_CFG.CE_LIMIT[31:0]. -/
def MEM_SPARE_CFG_CE_LIMIT : Field := ⟨.MEM_SPARE_CFG, 0, 32⟩
/-- MEM_SCRUB_CFG.HOURS[7:0]. -/
def MEM_SCRUB_CFG_HOURS : Field := ⟨.MEM_SCRUB_CFG, 0, 8⟩
/-- MEM_CH_CMD.GO[63:63]. -/
def MEM_CH_CMD_GO : Field := ⟨.MEM_CH_CMD, 63, 1⟩
/-- MEM_CH_CMD.OP[55:48]. -/
def MEM_CH_CMD_OP : Field := ⟨.MEM_CH_CMD, 48, 8⟩
/-- MEM_CH_CMD.CHANNEL[8:0]. -/
def MEM_CH_CMD_CHANNEL : Field := ⟨.MEM_CH_CMD, 0, 9⟩
/-- MEM_CMD_STATUS.BUSY[63:63]. -/
def MEM_CMD_STATUS_BUSY : Field := ⟨.MEM_CMD_STATUS, 63, 1⟩
/-- MEM_CMD_STATUS.ERR[62:60]. -/
def MEM_CMD_STATUS_ERR : Field := ⟨.MEM_CMD_STATUS, 60, 3⟩
/-- MEM_CMD_STATUS.CHANNEL[8:0]. -/
def MEM_CMD_STATUS_CHANNEL : Field := ⟨.MEM_CMD_STATUS, 0, 9⟩
/-- MEM_SPARE.STATE[63:61]. -/
def MEM_SPARE_STATE : Field := ⟨.MEM_SPARE, 61, 3⟩
/-- MEM_SPARE.CHANNEL[60:56]. -/
def MEM_SPARE_CHANNEL : Field := ⟨.MEM_SPARE, 56, 5⟩
/-- MEM_SPARE.TRIGGER[55:53]. -/
def MEM_SPARE_TRIGGER : Field := ⟨.MEM_SPARE, 53, 3⟩
/-- MEM_SPARE.WATERMARK[22:0]. -/
def MEM_SPARE_WATERMARK : Field := ⟨.MEM_SPARE, 0, 23⟩
/-- MEM_THERM.T_MAX[47:40]. -/
def MEM_THERM_T_MAX : Field := ⟨.MEM_THERM, 40, 8⟩
/-- MEM_THERM.T_BASE[39:32]. -/
def MEM_THERM_T_BASE : Field := ⟨.MEM_THERM, 32, 8⟩
/-- MEM_THERM.BW_PCT[7:0]. -/
def MEM_THERM_BW_PCT : Field := ⟨.MEM_THERM, 0, 8⟩
/-- MEM_CACHE_STAT.HIT_K[63:32]. -/
def MEM_CACHE_STAT_HIT_K : Field := ⟨.MEM_CACHE_STAT, 32, 32⟩
/-- MEM_CACHE_STAT.MISS_K[31:0]. -/
def MEM_CACHE_STAT_MISS_K : Field := ⟨.MEM_CACHE_STAT, 0, 32⟩
/-- MEM_CACHE_ERR.CORRECTED[63:32]. -/
def MEM_CACHE_ERR_CORRECTED : Field := ⟨.MEM_CACHE_ERR, 32, 32⟩
/-- MEM_CACHE_ERR.DIRTY_LOST[31:0]. -/
def MEM_CACHE_ERR_DIRTY_LOST : Field := ⟨.MEM_CACHE_ERR, 0, 32⟩
/-- MEM_CH_STATE.STATE[63:61]. -/
def MEM_CH_STATE_STATE : Field := ⟨.MEM_CH_STATE, 61, 3⟩
/-- MEM_CH_STATE.SPARES_PC1[51:50]. -/
def MEM_CH_STATE_SPARES_PC1 : Field := ⟨.MEM_CH_STATE, 50, 2⟩
/-- MEM_CH_STATE.SPARES_PC0[49:48]. -/
def MEM_CH_STATE_SPARES_PC0 : Field := ⟨.MEM_CH_STATE, 48, 2⟩
/-- MEM_CH_STATE.ERAS_PC1[47:44]. -/
def MEM_CH_STATE_ERAS_PC1 : Field := ⟨.MEM_CH_STATE, 44, 4⟩
/-- MEM_CH_STATE.ERAS_PC0[43:40]. -/
def MEM_CH_STATE_ERAS_PC0 : Field := ⟨.MEM_CH_STATE, 40, 4⟩
/-- MEM_CH_STATE.MARGIN[39:32]. -/
def MEM_CH_STATE_MARGIN : Field := ⟨.MEM_CH_STATE, 32, 8⟩
/-- MEM_CH_STATE.LAST_CAL[31:0]. -/
def MEM_CH_STATE_LAST_CAL : Field := ⟨.MEM_CH_STATE, 0, 32⟩
/-- MEM_CH_ECC.CORRECTED[63:32]. -/
def MEM_CH_ECC_CORRECTED : Field := ⟨.MEM_CH_ECC, 32, 32⟩
/-- MEM_CH_ECC.UNCORRECTABLE[31:16]. -/
def MEM_CH_ECC_UNCORRECTABLE : Field := ⟨.MEM_CH_ECC, 16, 16⟩
/-- MEM_CH_ECC.POISONED[15:0]. -/
def MEM_CH_ECC_POISONED : Field := ⟨.MEM_CH_ECC, 0, 16⟩
/-- MEM_CH_WINDOW.CE_HOUR[63:32]. -/
def MEM_CH_WINDOW_CE_HOUR : Field := ⟨.MEM_CH_WINDOW, 32, 32⟩
/-- MEM_CH_WINDOW.UE_DAY[31:0]. -/
def MEM_CH_WINDOW_UE_DAY : Field := ⟨.MEM_CH_WINDOW, 0, 32⟩
/-- MEM_LINK.RETRIES[63:32]. -/
def MEM_LINK_RETRIES : Field := ⟨.MEM_LINK, 32, 32⟩
/-- MEM_LINK.MAX_RUN[4:0]. -/
def MEM_LINK_MAX_RUN : Field := ⟨.MEM_LINK, 0, 5⟩
/-- EXC_INT_REC.VALID[63:63]. -/
def EXC_INT_REC_VALID : Field := ⟨.EXC_INT_REC, 63, 1⟩
/-- EXC_INT_REC.PATH[62:60]. -/
def EXC_INT_REC_PATH : Field := ⟨.EXC_INT_REC, 60, 3⟩
/-- EXC_INT_REC.KIND[59:58]. -/
def EXC_INT_REC_KIND : Field := ⟨.EXC_INT_REC, 58, 2⟩
/-- EXC_INT_REC.SOURCE[47:32]. -/
def EXC_INT_REC_SOURCE : Field := ⟨.EXC_INT_REC, 32, 16⟩
/-- EXC_INT_REC.BLOCK[31:0]. -/
def EXC_INT_REC_BLOCK : Field := ⟨.EXC_INT_REC, 0, 32⟩
/-- EXC_INT_ADDR.ADDR[47:0]. -/
def EXC_INT_ADDR_ADDR : Field := ⟨.EXC_INT_ADDR, 0, 48⟩
/-- EXC_INT_CNT.DAMAGED[63:32]. -/
def EXC_INT_CNT_DAMAGED : Field := ⟨.EXC_INT_CNT, 32, 32⟩
/-- EXC_INT_CNT.REREAD_OK[31:0]. -/
def EXC_INT_CNT_REREAD_OK : Field := ⟨.EXC_INT_CNT, 0, 32⟩
/-- EXC_CMP_STAT.PLAIN_MIB[63:32]. -/
def EXC_CMP_STAT_PLAIN_MIB : Field := ⟨.EXC_CMP_STAT, 32, 32⟩
/-- EXC_CMP_STAT.STREAM_MIB[31:0]. -/
def EXC_CMP_STAT_STREAM_MIB : Field := ⟨.EXC_CMP_STAT, 0, 32⟩
/-- FAB_ID.LOCK[63:63]. -/
def FAB_ID_LOCK : Field := ⟨.FAB_ID, 63, 1⟩
/-- FAB_ID.ID[15:0]. -/
def FAB_ID_ID : Field := ⟨.FAB_ID, 0, 16⟩
/-- FAB_DIMS.DZ_M1[21:16]. -/
def FAB_DIMS_DZ_M1 : Field := ⟨.FAB_DIMS, 16, 6⟩
/-- FAB_DIMS.DY_M1[12:8]. -/
def FAB_DIMS_DY_M1 : Field := ⟨.FAB_DIMS, 8, 5⟩
/-- FAB_DIMS.DX_M1[4:0]. -/
def FAB_DIMS_DX_M1 : Field := ⟨.FAB_DIMS, 0, 5⟩
/-- FAB_LINK_CFG.FULL_BUDGET[15:0]. -/
def FAB_LINK_CFG_FULL_BUDGET : Field := ⟨.FAB_LINK_CFG, 0, 16⟩
/-- FAB_BYP_CTL.RELEASE[63:63]. -/
def FAB_BYP_CTL_RELEASE : Field := ⟨.FAB_BYP_CTL, 63, 1⟩
/-- FAB_BYP_CTL.CLOSE[62:62]. -/
def FAB_BYP_CTL_CLOSE : Field := ⟨.FAB_BYP_CTL, 62, 1⟩
/-- FAB_BYP_CTL.MASK[2:0]. -/
def FAB_BYP_CTL_MASK : Field := ⟨.FAB_BYP_CTL, 0, 3⟩
/-- FAB_BYP_STATE.VSB[63:63]. -/
def FAB_BYP_STATE_VSB : Field := ⟨.FAB_BYP_STATE, 63, 1⟩
/-- FAB_BYP_STATE.CLOSES[47:32]. -/
def FAB_BYP_STATE_CLOSES : Field := ⟨.FAB_BYP_STATE, 32, 16⟩
/-- FAB_BYP_STATE.OPEN[2:0]. -/
def FAB_BYP_STATE_OPEN : Field := ⟨.FAB_BYP_STATE, 0, 3⟩
/-- FAB_TIME_CFG.MASTER[63:48]. -/
def FAB_TIME_CFG_MASTER : Field := ⟨.FAB_TIME_CFG, 48, 16⟩
/-- FAB_TIME_CFG.BACKUP[47:32]. -/
def FAB_TIME_CFG_BACKUP : Field := ⟨.FAB_TIME_CFG, 32, 16⟩
/-- FAB_TIME_CFG.PPS_EN[31:31]. -/
def FAB_TIME_CFG_PPS_EN : Field := ⟨.FAB_TIME_CFG, 31, 1⟩
/-- FAB_TIME_CFG.PPS_OFFSET[29:0]. -/
def FAB_TIME_CFG_PPS_OFFSET : Field := ⟨.FAB_TIME_CFG, 0, 30⟩
/-- FAB_TIME_STATE.ROLE[63:62]. -/
def FAB_TIME_STATE_ROLE : Field := ⟨.FAB_TIME_STATE, 62, 2⟩
/-- FAB_TIME_STATE.PPS_SEEN[61:61]. -/
def FAB_TIME_STATE_PPS_SEEN : Field := ⟨.FAB_TIME_STATE, 61, 1⟩
/-- FAB_TIME_STATE.UP_PORT[58:56]. -/
def FAB_TIME_STATE_UP_PORT : Field := ⟨.FAB_TIME_STATE, 56, 3⟩
/-- FAB_TIME_STATE.MASTER_NOW[55:40]. -/
def FAB_TIME_STATE_MASTER_NOW : Field := ⟨.FAB_TIME_STATE, 40, 16⟩
/-- FAB_TIME_STATE.OFFSET[31:0]. -/
def FAB_TIME_STATE_OFFSET : Field := ⟨.FAB_TIME_STATE, 0, 32⟩
/-- FAB_PPS_TIME.TIME[63:0]. -/
def FAB_PPS_TIME_TIME : Field := ⟨.FAB_PPS_TIME, 0, 64⟩
/-- FAB_COLL_CFG.STALL_MS[15:0]. -/
def FAB_COLL_CFG_STALL_MS : Field := ⟨.FAB_COLL_CFG, 0, 16⟩
/-- FAB_UNREACH.LAST_DST[63:48]. -/
def FAB_UNREACH_LAST_DST : Field := ⟨.FAB_UNREACH, 48, 16⟩
/-- FAB_UNREACH.COUNT[31:0]. -/
def FAB_UNREACH_COUNT : Field := ⟨.FAB_UNREACH, 0, 32⟩
/-- FAB_PORT_CTL.DISABLE[63:63]. -/
def FAB_PORT_CTL_DISABLE : Field := ⟨.FAB_PORT_CTL, 63, 1⟩
/-- FAB_PORT_CTL.RETRAIN[62:62]. -/
def FAB_PORT_CTL_RETRAIN : Field := ⟨.FAB_PORT_CTL, 62, 1⟩
/-- FAB_PORT_STATE.STATE[63:61]. -/
def FAB_PORT_STATE_STATE : Field := ⟨.FAB_PORT_STATE, 61, 3⟩
/-- FAB_PORT_STATE.RATE[60:59]. -/
def FAB_PORT_STATE_RATE : Field := ⟨.FAB_PORT_STATE, 59, 2⟩
/-- FAB_PORT_STATE.B[58:57]. -/
def FAB_PORT_STATE_B : Field := ⟨.FAB_PORT_STATE, 57, 2⟩
/-- FAB_PORT_STATE.HELD_WHY[56:53]. -/
def FAB_PORT_STATE_HELD_WHY : Field := ⟨.FAB_PORT_STATE, 53, 4⟩
/-- FAB_PORT_STATE.LANES[52:48]. -/
def FAB_PORT_STATE_LANES : Field := ⟨.FAB_PORT_STATE, 48, 5⟩
/-- FAB_PORT_STATE.PEER[47:32]. -/
def FAB_PORT_STATE_PEER : Field := ⟨.FAB_PORT_STATE, 32, 16⟩
/-- FAB_PORT_STATE.LOSS[31:16]. -/
def FAB_PORT_STATE_LOSS : Field := ⟨.FAB_PORT_STATE, 16, 16⟩
/-- FAB_PORT_STATE.UPS[15:0]. -/
def FAB_PORT_STATE_UPS : Field := ⟨.FAB_PORT_STATE, 0, 16⟩
/-- FAB_PORT_CNT.CRC_ERR[63:32]. -/
def FAB_PORT_CNT_CRC_ERR : Field := ⟨.FAB_PORT_CNT, 32, 32⟩
/-- FAB_PORT_CNT.REPLAYS[31:0]. -/
def FAB_PORT_CNT_REPLAYS : Field := ⟨.FAB_PORT_CNT, 0, 32⟩
/-- FAB_GRP_BASE.ADDR[63:3]. -/
def FAB_GRP_BASE_ADDR : Field := ⟨.FAB_GRP_BASE, 3, 61⟩
/-- FAB_GRP_COUNT.COUNT[16:0]. -/
def FAB_GRP_COUNT_COUNT : Field := ⟨.FAB_GRP_COUNT, 0, 17⟩
/-- XCH_CFG.EN[63:63]. -/
def XCH_CFG_EN : Field := ⟨.XCH_CFG, 63, 1⟩
/-- XCH_CFG.ERR[62:60]. -/
def XCH_CFG_ERR : Field := ⟨.XCH_CFG, 60, 3⟩
/-- XCH_CFG.SITE[53:48]. -/
def XCH_CFG_SITE : Field := ⟨.XCH_CFG, 48, 6⟩
/-- XCH_CFG.SITES_M1[45:40]. -/
def XCH_CFG_SITES_M1 : Field := ⟨.XCH_CFG, 40, 6⟩
/-- XCH_CFG.WIDTH[35:32]. -/
def XCH_CFG_WIDTH : Field := ⟨.XCH_CFG, 32, 4⟩
/-- XCH_CFG.H[31:16]. -/
def XCH_CFG_H : Field := ⟨.XCH_CFG, 16, 16⟩
/-- XCH_CFG.LAG[15:0]. -/
def XCH_CFG_LAG : Field := ⟨.XCH_CFG, 0, 16⟩
/-- XCH_TIMING.DEADLINE_MS[63:32]. -/
def XCH_TIMING_DEADLINE_MS : Field := ⟨.XCH_TIMING, 32, 32⟩
/-- XCH_TIMING.GRACE_MS[31:0]. -/
def XCH_TIMING_GRACE_MS : Field := ⟨.XCH_TIMING, 0, 32⟩
/-- XCH_STALE.GAMMA[63:32]. -/
def XCH_STALE_GAMMA : Field := ⟨.XCH_STALE, 32, 32⟩
/-- XCH_STALE.S_MAX[3:0]. -/
def XCH_STALE_S_MAX : Field := ⟨.XCH_STALE, 0, 4⟩
/-- XCH_OUTER.ETA[63:32]. -/
def XCH_OUTER_ETA : Field := ⟨.XCH_OUTER, 32, 32⟩
/-- XCH_OUTER.MU[31:0]. -/
def XCH_OUTER_MU : Field := ⟨.XCH_OUTER, 0, 32⟩
/-- XCH_LEDGER.HOLDER0[21:16]. -/
def XCH_LEDGER_HOLDER0 : Field := ⟨.XCH_LEDGER, 16, 6⟩
/-- XCH_LEDGER.LEDGER_ID[15:0]. -/
def XCH_LEDGER_LEDGER_ID : Field := ⟨.XCH_LEDGER, 0, 16⟩
/-- XCH_OUT_BASE.ADDR[63:12]. -/
def XCH_OUT_BASE_ADDR : Field := ⟨.XCH_OUT_BASE, 12, 52⟩
/-- XCH_IN_BASE.ADDR[63:12]. -/
def XCH_IN_BASE_ADDR : Field := ⟨.XCH_IN_BASE, 12, 52⟩
/-- XCH_STORE_SIZE.IN_MIB[63:32]. -/
def XCH_STORE_SIZE_IN_MIB : Field := ⟨.XCH_STORE_SIZE, 32, 32⟩
/-- XCH_STORE_SIZE.OUT_MIB[31:0]. -/
def XCH_STORE_SIZE_OUT_MIB : Field := ⟨.XCH_STORE_SIZE, 0, 32⟩
/-- XCH_CMD.GO[63:63]. -/
def XCH_CMD_GO : Field := ⟨.XCH_CMD, 63, 1⟩
/-- XCH_CMD.OP[55:48]. -/
def XCH_CMD_OP : Field := ⟨.XCH_CMD, 48, 8⟩
/-- XCH_CMD.TARGET[5:0]. -/
def XCH_CMD_TARGET : Field := ⟨.XCH_CMD, 0, 6⟩
/-- XCH_CMD_STATUS.BUSY[63:63]. -/
def XCH_CMD_STATUS_BUSY : Field := ⟨.XCH_CMD_STATUS, 63, 1⟩
/-- XCH_CMD_STATUS.ERR[62:60]. -/
def XCH_CMD_STATUS_ERR : Field := ⟨.XCH_CMD_STATUS, 60, 3⟩
/-- XCH_STATE.MODE[63:61]. -/
def XCH_STATE_MODE : Field := ⟨.XCH_STATE, 61, 3⟩
/-- XCH_STATE.HOLDER[60:60]. -/
def XCH_STATE_HOLDER : Field := ⟨.XCH_STATE, 60, 1⟩
/-- XCH_STATE.TOKEN_SITE[53:48]. -/
def XCH_STATE_TOKEN_SITE : Field := ⟨.XCH_STATE, 48, 6⟩
/-- XCH_STATE.PROV_ROUNDS[47:32]. -/
def XCH_STATE_PROV_ROUNDS : Field := ⟨.XCH_STATE, 32, 16⟩
/-- XCH_STATE.EPOCH[31:0]. -/
def XCH_STATE_EPOCH : Field := ⟨.XCH_STATE, 0, 32⟩
/-- XCH_ROUND.LAST_FORMED[63:32]. -/
def XCH_ROUND_LAST_FORMED : Field := ⟨.XCH_ROUND, 32, 32⟩
/-- XCH_ROUND.LAST_APPLIED[31:0]. -/
def XCH_ROUND_LAST_APPLIED : Field := ⟨.XCH_ROUND, 0, 32⟩
/-- XCH_LEDGER_LAST.ROUND[63:32]. -/
def XCH_LEDGER_LAST_ROUND : Field := ⟨.XCH_LEDGER_LAST, 32, 32⟩
/-- XCH_LEDGER_LAST.PROVISIONAL[31:31]. -/
def XCH_LEDGER_LAST_PROVISIONAL : Field := ⟨.XCH_LEDGER_LAST, 31, 1⟩
/-- XCH_LEDGER_LAST.RECORDS[15:0]. -/
def XCH_LEDGER_LAST_RECORDS : Field := ⟨.XCH_LEDGER_LAST, 0, 16⟩
/-- XCH_EFF_STATE.ROUND[63:32]. -/
def XCH_EFF_STATE_ROUND : Field := ⟨.XCH_EFF_STATE, 32, 32⟩
/-- XCH_EFF_STATE.VALID[31:31]. -/
def XCH_EFF_STATE_VALID : Field := ⟨.XCH_EFF_STATE, 31, 1⟩
/-- XCH_EFF_STATE.INSIDE[30:30]. -/
def XCH_EFF_STATE_INSIDE : Field := ⟨.XCH_EFF_STATE, 30, 1⟩
/-- XCH_EFF_STATE.UNMEASURABLE[29:29]. -/
def XCH_EFF_STATE_UNMEASURABLE : Field := ⟨.XCH_EFF_STATE, 29, 1⟩
/-- XCH_EFF_STATE.BREACH[28:28]. -/
def XCH_EFF_STATE_BREACH : Field := ⟨.XCH_EFF_STATE, 28, 1⟩
/-- XCH_EFF_STATE.WHY_SMALL[27:27]. -/
def XCH_EFF_STATE_WHY_SMALL : Field := ⟨.XCH_EFF_STATE, 27, 1⟩
/-- XCH_EFF_STATE.WHY_WIDTH[26:26]. -/
def XCH_EFF_STATE_WHY_WIDTH : Field := ⟨.XCH_EFF_STATE, 26, 1⟩
/-- XCH_EFF_STATE.WHY_ZERO[25:25]. -/
def XCH_EFF_STATE_WHY_ZERO : Field := ⟨.XCH_EFF_STATE, 25, 1⟩
/-- XCH_EFF_BWIRE.BITS[63:0]. -/
def XCH_EFF_BWIRE_BITS : Field := ⟨.XCH_EFF_BWIRE, 0, 64⟩
/-- XCH_EFF_HROUND.H[63:0]. -/
def XCH_EFF_HROUND_H : Field := ⟨.XCH_EFF_HROUND, 0, 64⟩
/-- XCH_EFF_ETA.ETA[31:0]. -/
def XCH_EFF_ETA_ETA : Field := ⟨.XCH_EFF_ETA, 0, 32⟩
/-- XCH_EFF_ALL.BITS[63:0]. -/
def XCH_EFF_ALL_BITS : Field := ⟨.XCH_EFF_ALL, 0, 64⟩
/-- XCH_EFF_ELEMS.ELEMS[63:0]. -/
def XCH_EFF_ELEMS_ELEMS : Field := ⟨.XCH_EFF_ELEMS, 0, 64⟩
/-- XCH_STATS.LATE[63:48]. -/
def XCH_STATS_LATE : Field := ⟨.XCH_STATS, 48, 16⟩
/-- XCH_STATS.DISCARDED[47:32]. -/
def XCH_STATS_DISCARDED : Field := ⟨.XCH_STATS, 32, 16⟩
/-- XCH_STATS.SOREDIA[31:0]. -/
def XCH_STATS_SOREDIA : Field := ⟨.XCH_STATS, 0, 32⟩
/-- FAR_PORT_CFG.EN[63:63]. -/
def FAR_PORT_CFG_EN : Field := ⟨.FAR_PORT_CFG, 63, 1⟩
/-- FAR_PORT_CFG.MODE[62:62]. -/
def FAR_PORT_CFG_MODE : Field := ⟨.FAR_PORT_CFG, 62, 1⟩
/-- FAR_PORT_CFG.IPV6[61:61]. -/
def FAR_PORT_CFG_IPV6 : Field := ⟨.FAR_PORT_CFG, 61, 1⟩
/-- FAR_PORT_CFG.VLAN[60:60]. -/
def FAR_PORT_CFG_VLAN : Field := ⟨.FAR_PORT_CFG, 60, 1⟩
/-- FAR_PORT_CFG.ERR[59:56]. -/
def FAR_PORT_CFG_ERR : Field := ⟨.FAR_PORT_CFG, 56, 4⟩
/-- FAR_PORT_CFG.VID[11:0]. -/
def FAR_PORT_CFG_VID : Field := ⟨.FAR_PORT_CFG, 0, 12⟩
/-- FAR_PORT_MAC.MAC[47:0]. -/
def FAR_PORT_MAC_MAC : Field := ⟨.FAR_PORT_MAC, 0, 48⟩
/-- FAR_PORT_ADDR_HI.ADDR[63:0]. -/
def FAR_PORT_ADDR_HI_ADDR : Field := ⟨.FAR_PORT_ADDR_HI, 0, 64⟩
/-- FAR_PORT_ADDR_LO.ADDR[63:0]. -/
def FAR_PORT_ADDR_LO_ADDR : Field := ⟨.FAR_PORT_ADDR_LO, 0, 64⟩
/-- FAR_PORT_BUF.USED_MIB[63:32]. -/
def FAR_PORT_BUF_USED_MIB : Field := ⟨.FAR_PORT_BUF, 32, 32⟩
/-- FAR_PORT_BUF.BASE[11:0]. -/
def FAR_PORT_BUF_BASE : Field := ⟨.FAR_PORT_BUF, 0, 12⟩
/-- FAR_PORT_STATE.UP[63:63]. -/
def FAR_PORT_STATE_UP : Field := ⟨.FAR_PORT_STATE, 63, 1⟩
/-- FAR_PORT_STATE.LF[62:62]. -/
def FAR_PORT_STATE_LF : Field := ⟨.FAR_PORT_STATE, 62, 1⟩
/-- FAR_PORT_STATE.RF[61:61]. -/
def FAR_PORT_STATE_RF : Field := ⟨.FAR_PORT_STATE, 61, 1⟩
/-- FAR_PORT_STATE.UPS[15:0]. -/
def FAR_PORT_STATE_UPS : Field := ⟨.FAR_PORT_STATE, 0, 16⟩
/-- FAR_PORT_FEC.CORRECTED_K[63:32]. -/
def FAR_PORT_FEC_CORRECTED_K : Field := ⟨.FAR_PORT_FEC, 32, 32⟩
/-- FAR_PORT_FEC.UNCORRECTABLE[31:0]. -/
def FAR_PORT_FEC_UNCORRECTABLE : Field := ⟨.FAR_PORT_FEC, 0, 32⟩
/-- FAR_PORT_CNT.RX_DISCARD[63:32]. -/
def FAR_PORT_CNT_RX_DISCARD : Field := ⟨.FAR_PORT_CNT, 32, 32⟩
/-- FAR_PORT_CNT.AUTH_FAIL[31:0]. -/
def FAR_PORT_CNT_AUTH_FAIL : Field := ⟨.FAR_PORT_CNT, 0, 32⟩
/-- FAR_PORT_XSEQ.XSEQ[63:0]. -/
def FAR_PORT_XSEQ_XSEQ : Field := ⟨.FAR_PORT_XSEQ, 0, 64⟩
/-- FAR_NET_CFG.UDP_PORT[63:48]. -/
def FAR_NET_CFG_UDP_PORT : Field := ⟨.FAR_NET_CFG, 48, 16⟩
/-- FAR_NET_CFG.HOP[47:40]. -/
def FAR_NET_CFG_HOP : Field := ⟨.FAR_NET_CFG, 40, 8⟩
/-- FAR_AXT_CFG.ACK_SEGS[63:56]. -/
def FAR_AXT_CFG_ACK_SEGS : Field := ⟨.FAR_AXT_CFG, 56, 8⟩
/-- FAR_AXT_CFG.ACK_US[55:40]. -/
def FAR_AXT_CFG_ACK_US : Field := ⟨.FAR_AXT_CFG, 40, 16⟩
/-- FAR_AXT_CFG.PROBE_MS[39:32]. -/
def FAR_AXT_CFG_PROBE_MS : Field := ⟨.FAR_AXT_CFG, 32, 8⟩
/-- FAR_AXT_CFG.DEAD_MS[31:20]. -/
def FAR_AXT_CFG_DEAD_MS : Field := ⟨.FAR_AXT_CFG, 20, 12⟩
/-- FAR_AXT_CFG.REFETCH_MS[19:8]. -/
def FAR_AXT_CFG_REFETCH_MS : Field := ⟨.FAR_AXT_CFG, 8, 12⟩
/-- FAR_AXT_CFG.MSG_TTL_S[7:0]. -/
def FAR_AXT_CFG_MSG_TTL_S : Field := ⟨.FAR_AXT_CFG, 0, 8⟩
/-- FAR_PACE_CFG.INIT[63:48]. -/
def FAR_PACE_CFG_INIT : Field := ⟨.FAR_PACE_CFG, 48, 16⟩
/-- FAR_PACE_CFG.INC[47:32]. -/
def FAR_PACE_CFG_INC : Field := ⟨.FAR_PACE_CFG, 32, 16⟩
/-- FAR_PACE_CFG.RMIN[31:16]. -/
def FAR_PACE_CFG_RMIN : Field := ⟨.FAR_PACE_CFG, 16, 16⟩
/-- FAR_PATH_SEL.OP[63:56]. -/
def FAR_PATH_SEL_OP : Field := ⟨.FAR_PATH_SEL, 56, 8⟩
/-- FAR_PATH_SEL.CTX[15:8]. -/
def FAR_PATH_SEL_CTX : Field := ⟨.FAR_PATH_SEL, 8, 8⟩
/-- FAR_PATH_SEL.PATH[7:0]. -/
def FAR_PATH_SEL_PATH : Field := ⟨.FAR_PATH_SEL, 0, 8⟩
/-- FAR_PATH_RTT.SRTT[63:32]. -/
def FAR_PATH_RTT_SRTT : Field := ⟨.FAR_PATH_RTT, 32, 32⟩
/-- FAR_PATH_RTT.RTTVAR[31:0]. -/
def FAR_PATH_RTT_RTTVAR : Field := ⟨.FAR_PATH_RTT, 0, 32⟩
/-- FAR_PATH_RATE.STATE[63:62]. -/
def FAR_PATH_RATE_STATE : Field := ⟨.FAR_PATH_RATE, 62, 2⟩
/-- FAR_PATH_RATE.SLOW[61:61]. -/
def FAR_PATH_RATE_SLOW : Field := ⟨.FAR_PATH_RATE, 61, 1⟩
/-- FAR_PATH_RATE.RUN[60:60]. -/
def FAR_PATH_RATE_RUN : Field := ⟨.FAR_PATH_RATE, 60, 1⟩
/-- FAR_PATH_RATE.PHASE[59:59]. -/
def FAR_PATH_RATE_PHASE : Field := ⟨.FAR_PATH_RATE, 59, 1⟩
/-- FAR_PATH_RATE.RATE[47:32]. -/
def FAR_PATH_RATE_RATE : Field := ⟨.FAR_PATH_RATE, 32, 16⟩
/-- FAR_PATH_RATE.INFLIGHT[31:0]. -/
def FAR_PATH_RATE_INFLIGHT : Field := ⟨.FAR_PATH_RATE, 0, 32⟩
/-- FAR_PATH_CNT.RETX[63:32]. -/
def FAR_PATH_CNT_RETX : Field := ⟨.FAR_PATH_CNT, 32, 32⟩
/-- FAR_PATH_CNT.REBASE[31:16]. -/
def FAR_PATH_CNT_REBASE : Field := ⟨.FAR_PATH_CNT, 16, 16⟩
/-- FAR_PATH_CNT.DROPS[15:0]. -/
def FAR_PATH_CNT_DROPS : Field := ⟨.FAR_PATH_CNT, 0, 16⟩
/-- FAR_JOB.JOB[15:0]. -/
def FAR_JOB_JOB : Field := ⟨.FAR_JOB, 0, 16⟩
/-- FAR_PATH_BASE.ADDR[63:6]. -/
def FAR_PATH_BASE_ADDR : Field := ⟨.FAR_PATH_BASE, 6, 58⟩
/-- FAR_PATH_COUNT.COUNT[7:0]. -/
def FAR_PATH_COUNT_COUNT : Field := ⟨.FAR_PATH_COUNT, 0, 8⟩
/-- FAR_RTAB_BASE.ADDR[63:6]. -/
def FAR_RTAB_BASE_ADDR : Field := ⟨.FAR_RTAB_BASE, 6, 58⟩
/-- FAR_FWD_BASE.ADDR[63:6]. -/
def FAR_FWD_BASE_ADDR : Field := ⟨.FAR_FWD_BASE, 6, 58⟩
/-- FAR_FWD_COUNT.COUNT[20:0]. -/
def FAR_FWD_COUNT_COUNT : Field := ⟨.FAR_FWD_COUNT, 0, 21⟩
/-- FAR_RND_STATE.ROUND[63:32]. -/
def FAR_RND_STATE_ROUND : Field := ⟨.FAR_RND_STATE, 32, 32⟩
/-- FAR_RND_STATE.VALID[31:31]. -/
def FAR_RND_STATE_VALID : Field := ⟨.FAR_RND_STATE, 31, 1⟩
/-- FAR_RND_RETX.BITS[63:0]. -/
def FAR_RND_RETX_BITS : Field := ⟨.FAR_RND_RETX, 0, 64⟩
/-- FAR_RND_ACK.BITS[63:0]. -/
def FAR_RND_ACK_BITS : Field := ⟨.FAR_RND_ACK, 0, 64⟩
/-- FAR_RND_FWD.BITS[63:0]. -/
def FAR_RND_FWD_BITS : Field := ⟨.FAR_RND_FWD, 0, 64⟩
/-- PAIR_CFG.EN[63:63]. -/
def PAIR_CFG_EN : Field := ⟨.PAIR_CFG, 63, 1⟩
/-- PAIR_CFG.POS[62:62]. -/
def PAIR_CFG_POS : Field := ⟨.PAIR_CFG, 62, 1⟩
/-- PAIR_CFG.DIV_ACTION[1:0]. -/
def PAIR_CFG_DIV_ACTION : Field := ⟨.PAIR_CFG, 0, 2⟩
/-- PAIR_STATE.STATE[63:61]. -/
def PAIR_STATE_STATE : Field := ⟨.PAIR_STATE, 61, 3⟩
/-- PAIR_STATE.DRIVING[60:60]. -/
def PAIR_STATE_DRIVING : Field := ⟨.PAIR_STATE, 60, 1⟩
/-- PAIR_STATE.HOLD[59:59]. -/
def PAIR_STATE_HOLD : Field := ⟨.PAIR_STATE, 59, 1⟩
/-- PAIR_STATE.MIR_RATE[58:57]. -/
def PAIR_STATE_MIR_RATE : Field := ⟨.PAIR_STATE, 57, 2⟩
/-- PAIR_STATE.TWIN_ID[15:0]. -/
def PAIR_STATE_TWIN_ID : Field := ⟨.PAIR_STATE, 0, 16⟩
/-- PAIR_CTL.RELEASE[63:63]. -/
def PAIR_CTL_RELEASE : Field := ⟨.PAIR_CTL, 63, 1⟩
/-- PAIR_CTL.REINTEGRATE[62:62]. -/
def PAIR_CTL_REINTEGRATE : Field := ⟨.PAIR_CTL, 62, 1⟩
/-- PAIR_CTL.HANDBACK[61:61]. -/
def PAIR_CTL_HANDBACK : Field := ⟨.PAIR_CTL, 61, 1⟩
/-- PAIR_CTL.CONTINUE[60:60]. -/
def PAIR_CTL_CONTINUE : Field := ⟨.PAIR_CTL, 60, 1⟩
/-- PAIR_CTL.CTX[7:0]. -/
def PAIR_CTL_CTX : Field := ⟨.PAIR_CTL, 0, 8⟩
/-- PAIR_LAST_HB.TIME[63:0]. -/
def PAIR_LAST_HB_TIME : Field := ⟨.PAIR_LAST_HB, 0, 64⟩
/-- PAIR_FAIL.REASON[63:62]. -/
def PAIR_FAIL_REASON : Field := ⟨.PAIR_FAIL, 62, 2⟩
/-- PAIR_FAIL.TIME[47:0]. -/
def PAIR_FAIL_TIME : Field := ⟨.PAIR_FAIL, 0, 48⟩
/-- PAIR_DIV_STAT.UNRESOLVED[63:48]. -/
def PAIR_DIV_STAT_UNRESOLVED : Field := ⟨.PAIR_DIV_STAT, 48, 16⟩
/-- PAIR_DIV_STAT.EXPLAINED[47:24]. -/
def PAIR_DIV_STAT_EXPLAINED : Field := ⟨.PAIR_DIV_STAT, 24, 24⟩
/-- PAIR_DIV_STAT.SILENT[23:0]. -/
def PAIR_DIV_STAT_SILENT : Field := ⟨.PAIR_DIV_STAT, 0, 24⟩
/-- PAIR_DIV_LAST.KIND[63:62]. -/
def PAIR_DIV_LAST_KIND : Field := ⟨.PAIR_DIV_LAST, 62, 2⟩
/-- PAIR_DIV_LAST.WINNER[61:61]. -/
def PAIR_DIV_LAST_WINNER : Field := ⟨.PAIR_DIV_LAST, 61, 1⟩
/-- PAIR_DIV_LAST.CTX[55:48]. -/
def PAIR_DIV_LAST_CTX : Field := ⟨.PAIR_DIV_LAST, 48, 8⟩
/-- PAIR_DIV_LAST.SHARD[47:24]. -/
def PAIR_DIV_LAST_SHARD : Field := ⟨.PAIR_DIV_LAST, 24, 24⟩
/-- PAIR_DIV_LAST.BLOCK[23:0]. -/
def PAIR_DIV_LAST_BLOCK : Field := ⟨.PAIR_DIV_LAST, 0, 24⟩
/-- PAIR_DIV_STEP.STEP[63:0]. -/
def PAIR_DIV_STEP_STEP : Field := ⟨.PAIR_DIV_STEP, 0, 64⟩
/-- PAIR_REINT.TOTAL[63:32]. -/
def PAIR_REINT_TOTAL : Field := ⟨.PAIR_REINT, 32, 32⟩
/-- PAIR_REINT.DONE[31:0]. -/
def PAIR_REINT_DONE : Field := ⟨.PAIR_REINT, 0, 32⟩
/-- PAIR_CTX.REPLICA[63:48]. -/
def PAIR_CTX_REPLICA : Field := ⟨.PAIR_CTX, 48, 16⟩
/-- PAIR_CTX.TWIN_REPLICA[47:32]. -/
def PAIR_CTX_TWIN_REPLICA : Field := ⟨.PAIR_CTX, 32, 16⟩
/-- PAIR_CTX.GRANULE[31:0]. -/
def PAIR_CTX_GRANULE : Field := ⟨.PAIR_CTX, 0, 32⟩
/-- PAIR_SAMP_BASE.ADDR[63:3]. -/
def PAIR_SAMP_BASE_ADDR : Field := ⟨.PAIR_SAMP_BASE, 3, 61⟩
/-- PAIR_SAMP_COUNT.COUNT[16:0]. -/
def PAIR_SAMP_COUNT_COUNT : Field := ⟨.PAIR_SAMP_COUNT, 0, 17⟩
/-- PAIR_CTX_STATE.DROPPED[63:63]. -/
def PAIR_CTX_STATE_DROPPED : Field := ⟨.PAIR_CTX_STATE, 63, 1⟩
/-- PAIR_CTX_STATE.HELD[62:62]. -/
def PAIR_CTX_STATE_HELD : Field := ⟨.PAIR_CTX_STATE, 62, 1⟩
/-- PAIR_CTX_STATE.ADOPTED[31:0]. -/
def PAIR_CTX_STATE_ADOPTED : Field := ⟨.PAIR_CTX_STATE, 0, 32⟩
/-- MBX_CTL.GO[63:63]. -/
def MBX_CTL_GO : Field := ⟨.MBX_CTL, 63, 1⟩
/-- MBX_STATUS.BUSY[63:63]. -/
def MBX_STATUS_BUSY : Field := ⟨.MBX_STATUS, 63, 1⟩
/-- MBX_STATUS.DONE[62:62]. -/
def MBX_STATUS_DONE : Field := ⟨.MBX_STATUS, 62, 1⟩
/-- MBX_STATUS.OVERRUN[61:61]. -/
def MBX_STATUS_OVERRUN : Field := ⟨.MBX_STATUS, 61, 1⟩
/-- MBX_STATUS.SEQ[31:0]. -/
def MBX_STATUS_SEQ : Field := ⟨.MBX_STATUS, 0, 32⟩
/-- MBX_IRQ.IRQ_EN[63:63]. -/
def MBX_IRQ_IRQ_EN : Field := ⟨.MBX_IRQ, 63, 1⟩
/-- MBX_IRQ.VECTOR[10:0]. -/
def MBX_IRQ_VECTOR : Field := ⟨.MBX_IRQ, 0, 11⟩
/-- MBX_VERSION.MAJOR[63:56]. -/
def MBX_VERSION_MAJOR : Field := ⟨.MBX_VERSION, 56, 8⟩
/-- MBX_VERSION.MINOR[55:48]. -/
def MBX_VERSION_MINOR : Field := ⟨.MBX_VERSION, 48, 8⟩
/-- PWR_CAP.ERR[63:63]. -/
def PWR_CAP_ERR : Field := ⟨.PWR_CAP, 63, 1⟩
/-- PWR_CAP.TURBO[16:16]. -/
def PWR_CAP_TURBO : Field := ⟨.PWR_CAP, 16, 1⟩
/-- PWR_CAP.CAP_W[15:0]. -/
def PWR_CAP_CAP_W : Field := ⟨.PWR_CAP, 0, 16⟩
/-- PWR_STATUS.P_1MS[63:48]. -/
def PWR_STATUS_P_1MS : Field := ⟨.PWR_STATUS, 48, 16⟩
/-- PWR_STATUS.P_100MS[47:32]. -/
def PWR_STATUS_P_100MS : Field := ⟨.PWR_STATUS, 32, 16⟩
/-- PWR_STATUS.F_PWR[31:16]. -/
def PWR_STATUS_F_PWR : Field := ⟨.PWR_STATUS, 16, 16⟩
/-- PWR_STATUS.MEM_PCT[15:8]. -/
def PWR_STATUS_MEM_PCT : Field := ⟨.PWR_STATUS, 8, 8⟩
/-- PWR_STATUS.BOUND[3:0]. -/
def PWR_STATUS_BOUND : Field := ⟨.PWR_STATUS, 0, 4⟩
/-- PWR_EMERG.ACTIVE[63:63]. -/
def PWR_EMERG_ACTIVE : Field := ⟨.PWR_EMERG, 63, 1⟩
/-- PWR_EMERG.CAUSES[52:48]. -/
def PWR_EMERG_CAUSES : Field := ⟨.PWR_EMERG, 48, 5⟩
/-- PWR_EMERG.CLEAR_T[47:0]. -/
def PWR_EMERG_CLEAR_T : Field := ⟨.PWR_EMERG, 0, 48⟩
/-- PWR_EMERG_CNT.ENTRIES[31:0]. -/
def PWR_EMERG_CNT_ENTRIES : Field := ⟨.PWR_EMERG_CNT, 0, 32⟩
/-- PWR_TRIP.TRIPPED[63:63]. -/
def PWR_TRIP_TRIPPED : Field := ⟨.PWR_TRIP, 63, 1⟩
/-- PWR_TRIP.SOURCE[55:48]. -/
def PWR_TRIP_SOURCE : Field := ⟨.PWR_TRIP, 48, 8⟩
/-- PWR_TRIP.TEMP[7:0]. -/
def PWR_TRIP_TEMP : Field := ⟨.PWR_TRIP, 0, 8⟩
/-- PWR_DIE_THERM.TJ_MAX[47:40]. -/
def PWR_DIE_THERM_TJ_MAX : Field := ⟨.PWR_DIE_THERM, 40, 8⟩
/-- PWR_DIE_THERM.F_THERM[31:16]. -/
def PWR_DIE_THERM_F_THERM : Field := ⟨.PWR_DIE_THERM, 16, 16⟩
/-- PWR_RAIL.VOUT[63:48]. -/
def PWR_RAIL_VOUT : Field := ⟨.PWR_RAIL, 48, 16⟩
/-- PWR_RAIL.IOUT[47:32]. -/
def PWR_RAIL_IOUT : Field := ⟨.PWR_RAIL, 32, 16⟩
/-- PWR_RAIL.PIN[31:16]. -/
def PWR_RAIL_PIN : Field := ⟨.PWR_RAIL, 16, 16⟩
/-- PWR_RAIL.WARN[0:0]. -/
def PWR_RAIL_WARN : Field := ⟨.PWR_RAIL, 0, 1⟩
/-- SEC_STATE.FLOOR[63:58]. -/
def SEC_STATE_FLOOR : Field := ⟨.SEC_STATE, 58, 6⟩
/-- SEC_STATE.REVOKED[57:54]. -/
def SEC_STATE_REVOKED : Field := ⟨.SEC_STATE, 54, 4⟩
/-- SEC_STATE.FA_REVOKED[53:52]. -/
def SEC_STATE_FA_REVOKED : Field := ⟨.SEC_STATE, 52, 2⟩
/-- SEC_STATE.BOOTS[15:0]. -/
def SEC_STATE_BOOTS : Field := ⟨.SEC_STATE, 0, 16⟩
/-- SEC_KEY_ADDR.ADDR[63:6]. -/
def SEC_KEY_ADDR_ADDR : Field := ⟨.SEC_KEY_ADDR, 6, 58⟩
/-- SEC_KEY_ADDR.SPACE[0:0]. -/
def SEC_KEY_ADDR_SPACE : Field := ⟨.SEC_KEY_ADDR, 0, 1⟩
/-- SEC_KEY_CMD.GO[63:63]. -/
def SEC_KEY_CMD_GO : Field := ⟨.SEC_KEY_CMD, 63, 1⟩
/-- SEC_KEY_CMD.OP[55:48]. -/
def SEC_KEY_CMD_OP : Field := ⟨.SEC_KEY_CMD, 48, 8⟩
/-- SEC_KEY_CMD.SLOT[11:0]. -/
def SEC_KEY_CMD_SLOT : Field := ⟨.SEC_KEY_CMD, 0, 12⟩
/-- SEC_KEY_STATUS.BUSY[63:63]. -/
def SEC_KEY_STATUS_BUSY : Field := ⟨.SEC_KEY_STATUS, 63, 1⟩
/-- SEC_KEY_STATUS.ERR[62:60]. -/
def SEC_KEY_STATUS_ERR : Field := ⟨.SEC_KEY_STATUS, 60, 3⟩
/-- SEC_KEY_STATUS.SLOT[43:32]. -/
def SEC_KEY_STATUS_SLOT : Field := ⟨.SEC_KEY_STATUS, 32, 12⟩
/-- SEC_KEY_STATUS.LOAD_SEQ[31:0]. -/
def SEC_KEY_STATUS_LOAD_SEQ : Field := ⟨.SEC_KEY_STATUS, 0, 32⟩
/-- SEC_SLOT_SEL.SLOT[11:0]. -/
def SEC_SLOT_SEL_SLOT : Field := ⟨.SEC_SLOT_SEL, 0, 12⟩
/-- SEC_SLOT_INFO.VALID[63:63]. -/
def SEC_SLOT_INFO_VALID : Field := ⟨.SEC_SLOT_INFO, 63, 1⟩
/-- SEC_SLOT_INFO.CLASS[59:56]. -/
def SEC_SLOT_INFO_CLASS : Field := ⟨.SEC_SLOT_INFO, 56, 4⟩
/-- SEC_SLOT_INFO.CTX[55:48]. -/
def SEC_SLOT_INFO_CTX : Field := ⟨.SEC_SLOT_INFO, 48, 8⟩
/-- SEC_SLOT_INFO.LOAD_SEQ[31:0]. -/
def SEC_SLOT_INFO_LOAD_SEQ : Field := ⟨.SEC_SLOT_INFO, 0, 32⟩
/-- SEC_ALARM.CAUSES[63:58]. -/
def SEC_ALARM_CAUSES : Field := ⟨.SEC_ALARM, 58, 6⟩
/-- SEC_ALARM.CORRECTED[31:0]. -/
def SEC_ALARM_CORRECTED : Field := ⟨.SEC_ALARM, 0, 32⟩
/-- SEC_FA_REQ.SCOPES[63:48]. -/
def SEC_FA_REQ_SCOPES : Field := ⟨.SEC_FA_REQ, 48, 16⟩
/-- SEC_FA_REQ.MINUTES[47:32]. -/
def SEC_FA_REQ_MINUTES : Field := ⟨.SEC_FA_REQ, 32, 16⟩
/-- SEC_FA_REQ.KEY_IDX[0:0]. -/
def SEC_FA_REQ_KEY_IDX : Field := ⟨.SEC_FA_REQ, 0, 1⟩
/-- SEC_FA_CTL.CHALLENGE[63:63]. -/
def SEC_FA_CTL_CHALLENGE : Field := ⟨.SEC_FA_CTL, 63, 1⟩
/-- SEC_FA_CTL.SUBMIT[62:62]. -/
def SEC_FA_CTL_SUBMIT : Field := ⟨.SEC_FA_CTL, 62, 1⟩
/-- SEC_FA_CTL.CLOSE[61:61]. -/
def SEC_FA_CTL_CLOSE : Field := ⟨.SEC_FA_CTL, 61, 1⟩
/-- SEC_FA_STATE.PENDING[63:63]. -/
def SEC_FA_STATE_PENDING : Field := ⟨.SEC_FA_STATE, 63, 1⟩
/-- SEC_FA_STATE.LOCKED[62:62]. -/
def SEC_FA_STATE_LOCKED : Field := ⟨.SEC_FA_STATE, 62, 1⟩
/-- SEC_FA_STATE.OPEN[47:32]. -/
def SEC_FA_STATE_OPEN : Field := ⟨.SEC_FA_STATE, 32, 16⟩
/-- SEC_FA_STATE.FAILS[31:24]. -/
def SEC_FA_STATE_FAILS : Field := ⟨.SEC_FA_STATE, 24, 8⟩
/-- SEC_FA_STATE.REMAIN_S[23:0]. -/
def SEC_FA_STATE_REMAIN_S : Field := ⟨.SEC_FA_STATE, 0, 24⟩
/-- SEC_FA_NONCE.NONCE[63:0]. -/
def SEC_FA_NONCE_NONCE : Field := ⟨.SEC_FA_NONCE, 0, 64⟩
/-- SEC_FA_RESP.SIG[63:0]. -/
def SEC_FA_RESP_SIG : Field := ⟨.SEC_FA_RESP, 0, 64⟩
/-- CIP_PAGE_CFG.SWITCH_ROUND[63:32]. -/
def CIP_PAGE_CFG_SWITCH_ROUND : Field := ⟨.CIP_PAGE_CFG, 32, 32⟩
/-- CIP_PAGE_CFG.EN[31:31]. -/
def CIP_PAGE_CFG_EN : Field := ⟨.CIP_PAGE_CFG, 31, 1⟩
/-- CIP_PAGE_CFG.B_EN[30:30]. -/
def CIP_PAGE_CFG_B_EN : Field := ⟨.CIP_PAGE_CFG, 30, 1⟩
/-- CIP_PAGE_CFG.SLOT_B[27:16]. -/
def CIP_PAGE_CFG_SLOT_B : Field := ⟨.CIP_PAGE_CFG, 16, 12⟩
/-- CIP_PAGE_CFG.SLOT_A[11:0]. -/
def CIP_PAGE_CFG_SLOT_A : Field := ⟨.CIP_PAGE_CFG, 0, 12⟩
/-- CIP_PAGE_STAT.SEALED[63:32]. -/
def CIP_PAGE_STAT_SEALED : Field := ⟨.CIP_PAGE_STAT, 32, 32⟩
/-- CIP_PAGE_STAT.TAG_FAIL[31:16]. -/
def CIP_PAGE_STAT_TAG_FAIL : Field := ⟨.CIP_PAGE_STAT, 16, 16⟩
/-- CIP_PAGE_STAT.REFUSED[15:0]. -/
def CIP_PAGE_STAT_REFUSED : Field := ⟨.CIP_PAGE_STAT, 0, 16⟩
/-- CIP_PAGE_GUARD.ACTIVE[63:63]. -/
def CIP_PAGE_GUARD_ACTIVE : Field := ⟨.CIP_PAGE_GUARD, 63, 1⟩
/-- CIP_PAGE_GUARD.SEQ[31:0]. -/
def CIP_PAGE_GUARD_SEQ : Field := ⟨.CIP_PAGE_GUARD, 0, 32⟩
/-- BOOT_STAGE.FAULT[63:63]. -/
def BOOT_STAGE_FAULT : Field := ⟨.BOOT_STAGE, 63, 1⟩
/-- BOOT_STAGE.CODE[62:56]. -/
def BOOT_STAGE_CODE : Field := ⟨.BOOT_STAGE, 56, 7⟩
/-- BOOT_STAGE.UNIT[47:32]. -/
def BOOT_STAGE_UNIT : Field := ⟨.BOOT_STAGE, 32, 16⟩
/-- BOOT_STAGE.STAGE[3:0]. -/
def BOOT_STAGE_STAGE : Field := ⟨.BOOT_STAGE, 0, 4⟩
/-- BOOT_STRAPS.BOOT_SRC[3:3]. -/
def BOOT_STRAPS_BOOT_SRC : Field := ⟨.BOOT_STRAPS, 3, 1⟩
/-- BOOT_STRAPS.SPARE_EN[2:2]. -/
def BOOT_STRAPS_SPARE_EN : Field := ⟨.BOOT_STRAPS, 2, 1⟩
/-- BOOT_STRAPS.PAIR_POS[1:1]. -/
def BOOT_STRAPS_PAIR_POS : Field := ⟨.BOOT_STRAPS, 1, 1⟩
/-- BOOT_STRAPS.PAIR_EN[0:0]. -/
def BOOT_STRAPS_PAIR_EN : Field := ⟨.BOOT_STRAPS, 0, 1⟩
/-- BOOT_RESET.CAUSE[63:60]. -/
def BOOT_RESET_CAUSE : Field := ⟨.BOOT_RESET, 60, 4⟩
/-- BOOT_RESET.WARMS[47:32]. -/
def BOOT_RESET_WARMS : Field := ⟨.BOOT_RESET, 32, 16⟩
/-- BOOT_RESET.T0_MS[15:0]. -/
def BOOT_RESET_T0_MS : Field := ⟨.BOOT_RESET, 0, 16⟩
/-- BOOT_CTL.WARM[63:63]. -/
def BOOT_CTL_WARM : Field := ⟨.BOOT_CTL, 63, 1⟩
/-- BOOT_CTL.RECOVER[62:62]. -/
def BOOT_CTL_RECOVER : Field := ⟨.BOOT_CTL, 62, 1⟩
/-- BOOT_CFG.VALID[63:63]. -/
def BOOT_CFG_VALID : Field := ⟨.BOOT_CFG, 63, 1⟩
/-- BOOT_CFG.BYP_AUTO[62:62]. -/
def BOOT_CFG_BYP_AUTO : Field := ⟨.BOOT_CFG, 62, 1⟩
/-- BOOT_FLASH.SFDP_OK[63:63]. -/
def BOOT_FLASH_SFDP_OK : Field := ⟨.BOOT_FLASH, 63, 1⟩
/-- BOOT_FLASH.SLOT[55:48]. -/
def BOOT_FLASH_SLOT : Field := ⟨.BOOT_FLASH, 48, 8⟩
/-- BOOT_FLASH.CAP_MIB[47:32]. -/
def BOOT_FLASH_CAP_MIB : Field := ⟨.BOOT_FLASH, 32, 16⟩
/-- BOOT_FLASH.REPAIR_ENTRIES[31:16]. -/
def BOOT_FLASH_REPAIR_ENTRIES : Field := ⟨.BOOT_FLASH, 16, 16⟩
/-- BOOT_RECOV_ADDR.ADDR[63:12]. -/
def BOOT_RECOV_ADDR_ADDR : Field := ⟨.BOOT_RECOV_ADDR, 12, 52⟩
/-- BOOT_RECOV_LEN.LEN[31:0]. -/
def BOOT_RECOV_LEN_LEN : Field := ⟨.BOOT_RECOV_LEN, 0, 32⟩
/-- BOOT_RECOV_STATUS.STATE[63:61]. -/
def BOOT_RECOV_STATUS_STATE : Field := ⟨.BOOT_RECOV_STATUS, 61, 3⟩
/-- BOOT_RECOV_STATUS.REASON[55:48]. -/
def BOOT_RECOV_STATUS_REASON : Field := ⟨.BOOT_RECOV_STATUS, 48, 8⟩
/-- BOOT_RECOV_STATUS.BYTES[31:0]. -/
def BOOT_RECOV_STATUS_BYTES : Field := ⟨.BOOT_RECOV_STATUS, 0, 32⟩
/-- BOOT_STAGE_T.TIME[63:0]. -/
def BOOT_STAGE_T_TIME : Field := ⟨.BOOT_STAGE_T, 0, 64⟩

end F

end Sys2Proof.Machine
end

