-- ==== Sys2Proof/Machine/State.lean ====
section
/-! DEFINITION. The state of the block, as plain data: its registers, memories, queues, rings, contexts, programs,
launches, tiles, synchronisation objects, engines, ports, paths, keys and sessions, and the queue of commands that
wait. Each structure's docstring names the rules of spec/ that give it. -/

namespace Sys2Proof.Machine

/-- Why a step stops as a fault. No command of this block ends the machine with one: what the spec calls a fault of the
device is a state (FATAL, a halt, a status), not a stop. -/
inductive Fault where
  /-- Nobody raises it: kept so that the type is closed and named. Safe. -/
  | none
deriving DecidableEq, Repr

/-- Why a command has no meaning. -/
inductive Refusal where
  /-- Raised by `exec` for a command that has no meaning yet. Safe: no claim is made about it. -/
  | notModelled (mnemonic : String)
  /-- Raised by a command whose operands fail `Instr.wellFormed` (no sender can issue it). Safe: no claim is made. -/
  | illFormed
deriving DecidableEq, Repr

-- # Host queues, rings and contexts (R58 to R95)

/-- A submission entry: its eight words (Table 2-2). -/
structure Sqe where
  w0 : Nat
  w1 : Nat
  w2 : Nat
  w3 : Nat
  w4 : Nat
  w5 : Nat
  w6 : Nat
  w7 : Nat
deriving DecidableEq, Repr

/-- How far a fetched command has come (R71, R82). -/
inductive CmdPhase where
  | fetched | running
deriving DecidableEq, Repr

/-- A fetched command that has not ended (R71 to R85). `stop` is the status an ABORT, a deadline or a reset asks it to
end with at its next abort point; `waitsFor` is the command whose record must come first (R83). -/
structure Cmd where
  num      : Nat
  entry    : Sqe
  sqHead   : Nat
  phase    : CmdPhase
  begun    : Bool
  stop     : Option Nat
  nx       : Bool
  value    : Nat
  waitsFor : Option (Nat × Nat)
  silent   : Bool
deriving DecidableEq, Repr

/-- A completion that waits for a free slot (R77). -/
structure Rec where
  result : Nat
  detail : Nat
  cmdId  : Nat
  sqHead : Nat
  nx     : Bool
  status : Nat
deriving DecidableEq, Repr

/-- The hidden part of a queue pair; QUE_CFG and QUE_STATE hold the rest (R69 to R79). -/
structure Queue where
  sqTail   : Nat
  cqHead   : Nat
  used     : Nat
  seq      : Nat
  fetched  : Nat
  cmds     : List Cmd
  waiting  : List Rec
  doneIds  : List Nat
  preAbort : List Nat
deriving DecidableEq, Repr

/-- An event (Table 2-9) before it has its PHASE and SEQ. -/
structure Event where
  time   : Nat
  code   : Nat
  sev    : Nat
  ctx    : Option Nat
  source : Nat
  detail : Nat
deriving DecidableEq, Repr

/-- The hidden part of an event ring (R92 to R95, R582). -/
structure Ring where
  used        : Nat
  seq         : Nat
  everEnabled : Bool
  held        : List Event
deriving DecidableEq, Repr

/-- Where an event goes (R92). -/
inductive Scope where
  | device
  | context (n : Nat)
  | function (fn : Nat) (copyToPf : Bool)
deriving DecidableEq, Repr

-- # Programs and launches (R62 to R68, R132)

/-- A block of a TMMA's output: its first row and column, how many it holds, and the codes of the shape it runs in (R193, Table 5-3). -/
structure TmmaBlock where
  row  : Nat
  rows : Nat
  col  : Nat
  cols : Nat
  msh  : Nat
  nsh  : Nat
deriving DecidableEq, Repr

/-- What the binder makes of a TMMA record (R139, R141, R193 to R195): its place in the image, its dimensions, whether it accumulates, its
formats, ORDER (true NATIVE), DEFER, its guard, its blocks and its chunks along K (the first k and the length); `chain` where each chunk goes on
from the one before it, which a free decomposition may. -/
structure TmmaPlan where
  off    : Nat
  m      : Nat
  n      : Nat
  k      : Nat
  adds   : Bool
  fmta   : Nat
  fmtb   : Nat
  native : Bool
  defer  : Bool
  guard  : Option (Nat × Bool)
  chain  : Bool
  blocks : List TmmaBlock
  chunks : List (Nat × Nat)
deriving DecidableEq, Repr

/-- A program loaded into a context (R62 to R66, R614): its handle's state and what the binder fixed. `entries` are the bundles that its
stage labels go to, each with its class (0 FWD, 1 BWD); `need` what it holds of the context's stages and memory (stages, quota and memory in
MiB, R256). -/
structure Program where
  ready     : Bool
  crc       : Nat
  image     : List Byte
  tiles     : Nat
  heritage  : Bool
  isStep    : Bool
  stages    : Nat
  usesColl  : Bool
  usesMem   : Bool
  bundles   : Nat
  madeIds   : List Nat
  key       : List Byte
  imgLen    : Nat
  plans     : List TmmaPlan
  entries   : List (Nat × Nat)
  need      : Nat × Nat × Nat
deriving DecidableEq, Repr

/-- The first fault of a launch (R134). -/
structure LaunchFault where
  status : Nat
  detail : Nat
  tile   : Nat
  bundle : Nat
deriving DecidableEq, Repr

/-- What a launch has converted of one tracked tensor (R233): the lanes counted for N and UF, whether event 0x0507 has been
raised, and the blocks whose entries it has checked. -/
structure Conv where
  tensor  : Nat
  n       : Nat
  uf      : Nat
  ranged  : Bool
  checked : List Nat
deriving DecidableEq, Repr

/-- One converted lane of a tracked tensor: its element index, the FP32 magnitude of a finite source (0 for none), whether it
overflowed, and whether a finite non-zero source came out as zero. -/
structure LaneTrack where
  x    : Nat
  mag  : Nat
  ovf  : Bool
  lost : Bool
  zero : Bool
deriving DecidableEq, Repr

/-- A running launch (R132): the command it serves, its program, its arguments and its tiles by rank; `lost` the shards whose deferred
work a fault has discarded (R251), `key` and `entries` the binding and the stage labels of its program, `numLost` the entries that the full
exception record has dropped (R240). -/
structure Launch where
  queue    : Nat
  cmd      : Nat
  ctx      : Nat
  handle   : Nat
  argAddr  : Nat
  argLen   : Nat
  step     : Nat
  tiles    : List Nat
  heritage : Bool
  isStep   : Bool
  opened   : Bool
  replay   : Bool
  bundles  : Nat
  crc      : Nat
  jobSeed  : Nat
  trap     : Nat
  numLost  : Nat
  convs    : List Conv
  nonzero  : List Nat
  fault    : Option LaunchFault
  lost     : List Nat
  key      : List Byte
  entries  : List (Nat × Nat)
  result   : Nat
  nx       : Bool
deriving DecidableEq, Repr

-- # Synchronisation objects (R147 to R179)

/-- Who waits or arrives at an object (R161, R165). -/
inductive WaiterRef where
  /-- a tile's main stream, held by a WAIT, WAITT or BAR -/
  | tile (t : Nat)
  /-- a deferred body of a tile, held by a WAIT or WAITT of its own (R247) -/
  | body (t : Nat)
  /-- a SYNC_WAIT command, by queue and fetch number -/
  | cmd (q c : Nat)
deriving DecidableEq, Repr

/-- A held waiter: the side it names (false PRODUCED or the only one, true CONSUMED) and its target. -/
structure Waiter where
  who    : WaiterRef
  vid    : Nat
  side   : Bool
  target : Nat
deriving DecidableEq, Repr

/-- A registered watch (R168, Table 4-6), with the threshold it waits for next. -/
structure Watch where
  vid    : Nat
  side   : Bool
  tag    : Nat
  thresh : Nat
  period : Nat
  inc    : Nat
  target : Nat
  repeats : Bool
  signal : Bool
  notify : Bool
deriving DecidableEq, Repr

/-- Where an increment or an arrival comes from: SYN_ERR.KIND and SYN_ERR.SOURCE. -/
structure Origin where
  kind   : Nat
  source : Nat
deriving DecidableEq, Repr

/-- To whom an increment reports (Table 4-4): nobody but the context (a watch action), a SYNC_SIGNAL command, the launch of the tile and
bundle that issued it, or a core. -/
inductive IncReply where
  | none
  | cmd (q c : Nat)
  | launch (q c tile bundle : Nat)
  | core (n : Nat)
deriving DecidableEq, Repr

/-- An increment kept by DBG_HOLD, or stalled at its source by a full store of kept ones (R177): to whom it reports, and how many watch
actions its chain may still apply (R171). -/
structure HeldInc where
  vid    : Nat
  inc    : Nat
  origin : Origin
  reply  : IncReply
  chain  : Nat
deriving DecidableEq, Repr

/-- The kinds of Table 4-1. -/
inductive ObjKind where
  | counter | bounded | barrier
deriving DecidableEq, Repr

/-- A synchronisation object (R147 to R166). `p` is the counter, the PRODUCED side or the completed epochs; `c` the
CONSUMED side; `n` the buffer or participant count, or a COUNTER's initial value (R155); `heldIncs` the increments that DBG_HOLD keeps,
`stalled` those that a full store of kept ones stalls at a source which does not present them again. -/
structure SyncObj where
  kind      : ObjKind
  die       : Nat
  phys      : List Nat
  p         : Nat
  c         : Nat
  n         : Nat
  err       : Option Nat
  binder    : Bool
  hold      : Bool
  heldIncs  : List HeldInc
  stalled   : List HeldInc
  releasing : Bool
  arrived   : List Nat
  parked    : List Nat
  leaving   : List Nat
  waiters   : List Waiter
  watches   : List Watch
  trace     : Bool
deriving DecidableEq, Repr

/-- A notification record (Table 4-7) before it has its PHASE and SEQ. -/
structure NRec where
  time  : Nat
  kind  : Nat
  count : Nat
  vid   : Nat
  tag   : Nat
  value : Nat
deriving DecidableEq, Repr

/-- The hidden part of a notification ring (R172, R173). -/
structure NRing where
  used : Nat
  seq  : Nat
  held : List NRec
deriving DecidableEq, Repr

/-- A SYN_OP in progress in a function's command window: what it will report when it completes (R153). -/
structure SynOp where
  status : Nat
  detail : Nat
  r0     : Nat
  r1     : Nat
deriving DecidableEq, Repr

-- # Tiles (R100 to R135, R180, R181, R203, R245 to R251)

/-- The registers and accumulator cells of one tile (Table 3-4, R180). An unlisted scalar, vector or predicate register
holds the undefined value that R100 leaves it at the launch whose draw is `seed`; an unlisted cell holds +0. A cell's key
is `4096 * set + 64 * row + column`. -/
structure TileCore where
  seed  : Nat
  s     : NMap (BitVec 64)
  v     : NMap (BitVec 4096)
  p     : NMap (BitVec 256)
  cells : NMap (BitVec 32)
deriving DecidableEq, Repr

/-- An open MMAX or MMIN run on the set pair (R203, R204): the shape it keeps and the K operands so far. -/
structure MaxRun where
  isMax : Bool
  acc   : Bool
  msh   : Nat
  nsh   : Nat
  ksum  : Nat
deriving DecidableEq, Repr

/-- An entry for the exception record (R238, EXC_NUM_E0 to E3). -/
structure NumEntry where
  cls    : Nat
  slot   : Nat
  her    : Bool
  set    : Nat
  opcode : Nat
  tile   : Nat
  bundle : Nat
  row    : Nat
  col    : Nat
  index  : Nat
  tensor : Nat
deriving DecidableEq, Repr

/-- An M-slot product in flight (R105, R202): the sets it writes and the invalid it raised. -/
structure MFlight where
  sets  : List Bool
  entry : Option NumEntry
deriving DecidableEq, Repr

/-- A tile DMA or DMA2 in flight (Table 3-14, R107, R125). -/
structure Transfer where
  id     : Nat
  tile   : Nat
  ctx    : Nat
  queue  : Nat
  cmd    : Nat
  toMem  : Bool
  comp   : Bool
  hint   : Nat
  stash  : Bool
  toff   : Nat
  maddr  : Nat
  rowLen : Nat
  rows   : Nat
  stride : Nat
  sv     : Nat
  bundle : Nat
deriving DecidableEq, Repr

/-- A deferred-work descriptor in a tile's deferred queue, tagged with its shard (Table 7-1, R245). -/
structure Deferred where
  entry : Nat
  limit : Nat
  arg   : Nat
  acc   : Bool
  rdOff : Nat
  rdLen : Nat
  shard : Nat
deriving DecidableEq, Repr

/-- A collective descriptor (Table 11-5). -/
structure CollDesc where
  op      : Nat
  ifmt    : Nat
  flags   : Nat
  dims    : Nat
  group   : Nat
  src     : Nat
  dst     : Nat
  count   : Nat
  tag     : Nat
  shard   : Nat
  itensor : Nat
  root    : Nat
deriving DecidableEq, Repr

/-- A collective in flight on this device (R107, R397, R405): where it was posted, its counter, its attempt, since when it has made no
progress (R406), how many streams of this attempt it has sent, whether it restarts after it had completed, so that its counter has been incremented (R510), whether the gather pass of its
shard's tie group is in flight (R253), and whether another member's posting has been found to differ from this device's, so that it never completes
here (R397); `began` that this attempt has read its input. -/
structure Coll where
  id      : Nat
  tile    : Nat
  ctx     : Nat
  queue   : Nat
  cmd     : Nat
  bundle  : Nat
  off     : Nat
  sv      : Nat
  desc    : CollDesc
  attempt : Nat
  since   : Nat
  stalled : Bool
  sent    : Nat
  again   : Bool
  gather  : Bool
  odd     : Bool
  began   : Bool
deriving DecidableEq, Repr

-- # The activation stash (R255 to R259)

/-- A stored segment of a boundary slot: its boundary, the bytes it has added, and whether it has been dropped. -/
structure Segment where
  slot    : Nat
  bnd     : Nat
  bytes   : Nat
  dropped : Bool
deriving DecidableEq, Repr

/-- The two arenas of a stage in a context's memory, with what is counted of the segment arena. -/
structure Arena where
  ctx       : Nat
  place     : Nat
  stage     : Nat
  dyn       : Bool
  faults    : Bool
  bndBase   : Nat
  bslot     : Nat
  nbnd      : Nat
  slots     : Nat
  segBase   : Nat
  quota     : Nat
  segStatic : Nat
  markBase  : Nat
  used      : Nat
  peak      : Nat
  segs      : List Segment
  opened    : Option (Nat × Nat)
  marks     : Nat
deriving DecidableEq, Repr

/-- What a stash write changes when its bundle passes: its arena by context and local stage, the boundary slot it opens, or
the bytes it adds, or the drop of the open segment (R257 to R259). -/
inductive StashAct where
  | opens (ctx stage slot bnd : Nat)
  | adds (ctx stage n : Nat)
  | drops (ctx stage n : Nat)
deriving DecidableEq, Repr

/-- What a slot's operation does outside the tile's registers, put off until its bundle has passed (R103, R134). -/
inductive SlotEffect where
  | store (off : Nat) (bytes : List Byte)
  | signal (vid inc : Nat)
  | dma (x : Transfer)
  | coll (x : Coll)
  | stash (x : Transfer)
  | defq (d : Deferred)
  | endTile
  | num (e : NumEntry)
  | mflight (m : MFlight)
  | clearInv (set : Bool)
  | track (tensor : Nat) (lanes : List LaneTrack)
  | reads (a n : Nat)
deriving DecidableEq, Repr

/-- Which operation holds a tile's bundle at issue (R130). -/
inductive HoldKind where
  | wait | waitt | bar
deriving DecidableEq, Repr

/-- A bundle held at issue by a WAIT, WAITT or BAR (R130, R161, R165). -/
structure Hold where
  kind     : HoldKind
  vid      : Nat
  target   : Nat
  pd       : Nat
  deadline : Nat
  since    : Nat
  last     : Bool
deriving DecidableEq, Repr

/-- A deferred body that runs on a tile (R247 to R249): its descriptor, why it runs, and what comes back at its end. `mainRel` says how
the main stream's hold has been decided in the meantime: its bundle issues when the body has ended. The set, INV and run state lie in the
save area of the tile store. -/
structure Body where
  desc      : Deferred
  forced    : Bool
  started   : Nat
  mainNext  : Nat
  mainHold  : Option Hold
  mainRel   : Option Bool
  mainMet   : Option (Option (Nat × Bool))
deriving DecidableEq, Repr

/-- One tile. `snap` holds the registers as the current bundle found them and `snapRun` the open run (R103), `wrote` the registers its slots
have written (R104), `effects` what it will do when it has passed; `met` says that the bundle's WAIT, WAITT or BAR is over, with the predicate
that a WAITT writes and its value (R130): a bundle that is held afterwards does not wait again. `bundle` is the index of the bundle at issue, `stall` when DRAIN or a lock
first held it, `parity` the bundle whose code page was refetched (R135), `code` the phase of the code that it ran last, and `marked` says that the
mark byte it read last is 1 (R260, R266). -/
structure Tile where
  launch   : Option (Nat × Nat)
  core     : TileCore
  snap     : Option TileCore
  snapRun  : Option MaxRun
  met      : Option (Option (Nat × Bool))
  used     : List SlotName
  wrote    : List Nat
  effects  : List SlotEffect
  bundle   : Nat
  target   : Option Nat
  hold     : Option Hold
  ended    : Bool
  stopped  : Bool
  run      : Option MaxRun
  flights  : List MFlight
  deferred : List Deferred
  body     : Option Body
  ending   : Bool
  phase    : Nat
  since    : Nat
  phaseNs  : NMap Nat
  yieldRuns : Nat
  forcedRuns : Nat
  yieldNs  : Nat
  forcedNs : Nat
  parity   : Option Nat
  stall    : Option Nat
  code     : Nat
  marked   : Bool
deriving DecidableEq, Repr

-- # The training step (R242 to R271, R286 to R301)

/-- A global-norm decision (R287) with the crozier's values for an applied step (R307). -/
structure Decision where
  sum    : Nat
  norm   : Nat
  kappa  : Nat
  reason : Nat
  k      : List Nat
deriving DecidableEq, Repr

/-- The time of a device activity within a step: how many operations of it are in flight, since when, and the time so far
(phases 4 to 8 of R266). -/
structure Activity where
  count : Nat
  since : Nat
  total : Nat
deriving DecidableEq, Repr

/-- The digests of a replayed or recorded step (R268, R271); `zero` says that the capsule's SAMPLES entry of this device's replica is 0 (R510). -/
structure Replay where
  localDigest : Nat
  shards      : List (Nat × Nat × Nat)
  norm        : Nat
  repro       : Bool
  saved       : List (Nat × List Byte)
  zero        : Bool
deriving DecidableEq, Repr

/-- The open step of a context (R242, R317): the values it took at its open, and what it has done so far; `finals` its completed FINAL
collectives and NORMs, `lost` the groups' ranks that a failed device served (R510), `broken` says that one of its collectives has ended with
INTEGRITY (R371). -/
structure Step where
  queue     : Nat
  cmd       : Nat
  handle    : Nat
  index     : Nat
  jobSeed   : Nat
  epoch     : Nat
  shardBase : Nat
  shardCount : Nat
  limit     : Nat
  clip      : Nat
  skipLimit : Nat
  croz      : Option (List Byte)
  beta1     : Nat
  beta2     : Nat
  opened    : Nat
  locals    : List (Nat × Nat × List Byte)
  finalised : List Nat
  handed    : List Nat
  received  : List Nat
  intakes   : NMap Nat
  waiting   : List Nat
  decision  : Option Decision
  mirror    : Option Decision
  started   : List Nat
  updated   : List Nat
  digests   : List (Nat × Nat × Nat)
  activity  : NMap Activity
  coldBlocks : Nat
  intervened : Bool
  adopted   : Bool
  scales    : List Byte
  layout    : Nat
  argDigest : Nat
  samples   : List Nat
  replay    : Option Replay
  inputs    : List Byte
  finals    : List Coll
  lost      : List (Nat × Nat)
  tied      : List Nat
  broken    : Bool
deriving DecidableEq, Repr

/-- What a rhizoid engine runs (R299, R310, R312, R410, R411). -/
inductive PassKind where
  | intake | sketch | program | form | apply | copy | restore
deriving DecidableEq, Repr

/-- A rhizoid engine with its pass over the blocks of one shard that lie in its stack (R277, R294 to R301, R325): the element it is at, its
instruction, its registers for that element, the elements it has kept for a non-finite value (R300), and whether its part is done. -/
structure Engine where
  ctx    : Nat
  shard  : Nat
  kind   : PassKind
  elem   : Nat
  ip     : Nat
  e      : NMap (BitVec 32)
  w      : NMap (BitVec 48)
  q      : NMap Bool
  rinv   : BitVec 32
  kept   : Nat
  first  : Nat
  lastKept : Option Nat
  memErr : List Nat
  done   : Bool
deriving DecidableEq, Repr

/-- The calibration of a channel (R337): the number of the period in which its last regular pass began, from 1 on; the slices of the pass that
runs, 0 where none does; the stack's hottest sensor at its last pass; and whether an extra pass is due. -/
structure CalPass where
  period : Nat
  slices : Nat
  temp   : Option Nat
  extra  : Bool
deriving DecidableEq, Repr

-- # The twin pair (R493 to R516)

/-- A comparison of a shard's digests between owner and mirror after a pass of a step (R501 to R504): the owner's digests once its own pass has
ended, those that have come from the twin with the twin's marks, the blocks compared, and the blocks under repair with how often each has been
sent and whether the mirror's copy wins. -/
structure PairCmp where
  ctx     : Nat
  shard   : Nat
  pass    : DigestPass
  step    : Nat
  own     : Option (List Nat)
  twin    : NMap Nat
  marks   : List Nat
  settled : List Nat
  repairs : List (Nat × Nat × Bool)
deriving DecidableEq, Repr

/-- The hidden part of the pair block: the heartbeats sent, whether this device is the receiver of a reintegration, since when an
adoption is due, a HANDBACK that waits for the step boundary, whether PAIR_HOLD_N is asserted, whether HELLO has timed out, the copy
that REINTEGRATE has started; how many shards have been handed back, and the device whose HELLO a survivor has reported as a mismatch. -/
structure PairRest where
  beats    : Nat
  receiver : Bool
  adoptDue : Option Nat
  handback : Bool
  holdN    : Bool
  late     : Bool
  copying  : Bool
  back     : Nat
  told     : Option Nat
deriving DecidableEq, Repr

-- # Outer rounds (R408 to R451, R483 to R491)

/-- The symbols and scale bytes that a form pass leaves for a shard (R413, R427). -/
structure SymShard where
  shard  : Nat
  scales : List Nat
  syms   : List Nat
deriving DecidableEq, Repr

/-- A soredium of this device's own, in the clear (R421, R422). -/
structure Sored where
  shard : Nat
  seq   : Nat
  bytes : List Byte
deriving DecidableEq, Repr

/-- A round that this device has formed (R409, R413, R418, R428), kept until its own contribution has been applied or discarded (R431, R437):
`src` is the owner of record it was formed for, `outer`, `stale` and `timing` are XCH_OUTER, XCH_STALE and XCH_TIMING in force at its form,
`time` when it was formed, `refused` that its sealing was refused (R563), `whole` that the outgoing store has taken every soredium, `body` its
seal (Table 13-9) and the sites it has been sent to, `counts` the FIRST and ALL bits that each gateway has reported, `done` that the round has
been applied, `via` the gateway that took its last soredium for a site (R484). -/
structure Round where
  round  : Nat
  src    : Nat
  width  : Nat
  h      : Nat
  lag    : Nat
  outer  : Nat
  stale  : Nat
  timing : Nat
  heal   : Bool
  join   : Bool
  formed : List Nat
  syms   : List SymShard
  coded  : Bool
  out    : List Sored
  hists  : List (List Nat)
  elems  : Nat
  time   : Nat
  refused : Bool
  whole  : Bool
  body   : List Byte
  sealedTo : List Nat
  counts : List (Nat × Nat × Nat)
  done   : Bool
  via    : NMap Nat
deriving DecidableEq, Repr

/-- A received soredium that has passed its checks (R425, R431). -/
structure InSored where
  site  : Nat
  src   : Nat
  round : Nat
  seq   : Nat
  shard : Nat
  width : Nat
  first : Nat
  heal  : Bool
  scales : List Nat
  syms  : List Nat
  bytes : List Byte
deriving DecidableEq, Repr

/-- A soredium that failed, and how often (R425, R488). -/
structure SorFail where
  site  : Nat
  src   : Nat
  round : Nat
  seq   : Nat
  tries : Nat
deriving DecidableEq, Repr

/-- A shard record of a seal (Table 13-9), with how often its digest has failed (R486). -/
structure SealRec where
  shard   : Nat
  first   : Nat
  count   : Nat
  digest  : Nat
  fails   : Nat
deriving DecidableEq, Repr

/-- A parked seal (R485): when it came, and when its missing soredia were last asked for (R487). -/
structure Seal where
  site  : Nat
  src   : Nat
  round : Nat
  join  : Bool
  body  : List Byte
  recs  : List SealRec
  came  : Nat
  asked : Option Nat
deriving DecidableEq, Repr

/-- What leaves through a gateway (R462): a soredium or a message. -/
inductive Item where
  | sored (src round seq : Nat) (sealed : List Byte)
  | msg (kind src dst : Nat) (body : List Byte)
deriving DecidableEq, Repr

/-- An item that waits in the outgoing store for a credit, for one remote site; `via` is the one gateway that may take it, where it is bound
to one (R484). -/
structure OutItem where
  site : Nat
  rep  : Bool
  item : Item
  via  : Option Nat
deriving DecidableEq, Repr

/-- A contribution record of a ledger entry (Table 12-2). -/
structure LedRec where
  site    : Nat
  kind    : Nat
  stale   : Nat
  origin  : Nat
  samples : Nat
  omega   : Nat
deriving DecidableEq, Repr

/-- A ledger entry (Table 12-2). -/
structure Entry where
  round  : Nat
  epoch  : Nat
  holder : Nat
  next   : Nat
  prov   : Bool
  absent : Nat
  params : Nat
  recs   : List LedRec
deriving DecidableEq, Repr

/-- A site's report to the holder's ledger device (Table 13-8): the contributions it holds, by site, kind and origin round. -/
structure SiteReport where
  site    : Nat
  round   : Nat
  samples : Nat
  holds   : List (Nat × Nat × Nat)
deriving DecidableEq, Repr

/-- A fetch of a shard's snapshot (R446): the round of the accepted manifest, the manifests taken from the source and from its twin
(device, round and the chunks' CRCs), the chunks got, and how often each has failed. -/
structure Snap where
  shard    : Nat
  round    : Option Nat
  source   : Option (Nat × Nat × List Nat)
  twin     : Option (Nat × Nat × List Nat)
  got      : NMap (List Byte)
  tries    : NMap Nat
deriving DecidableEq, Repr

/-- A fetch that this device serves as a source (R447): the joiner, the shard, the round of its manifest, how often it has restarted,
since when the apply pass is held, and whether the last chunk asked for has been sent. -/
structure Serve where
  dev      : Nat
  shard    : Nat
  round    : Nat
  restarts : Nat
  held     : Option Nat
  sent     : Bool
deriving DecidableEq, Repr

/-- The outer rounds of a context: what has been formed and received, the ledger's entries and books, the apply that runs, and the
fetches of snapshots. `snapFor` is the mode (3 JOINING, 4 HEALING) for whose sake snapshots replace the next apply, `fresh` the round to
which a joiner contributes its empty seal, `provRecs` the contributions that provisional entries have listed, `gone` those that have been applied, `staleTo` the last origin round
that S_MAX has overtaken (R437), `healed` by site the origin round of its last HEAL or JOIN contribution (R443, R444). -/
structure Xch where
  rounds    : List Round
  inbound   : List InSored
  fails     : List SorFail
  seals     : List Seal
  done      : List (Nat × Nat)
  gone      : List (Nat × Nat)
  entries   : List Entry
  outQueue  : List OutItem
  credits   : NMap Nat
  noPath    : List (Nat × Nat)
  applying  : Option Nat
  applied   : List Nat
  passQueue : List Nat
  deltas    : List (Nat × Nat × List Nat)
  waitSince : Option Nat
  stalled   : Bool
  owners    : List (Nat × Nat × Nat)
  sites     : List SiteReport
  closed    : Option Nat
  handTo    : Option Nat
  provSites : List Nat
  provRecs  : List (Nat × Nat)
  samples   : NMap Nat
  snaps     : List Snap
  serves    : List Serve
  snapFor   : Option Nat
  fresh     : Option Nat
  healNext  : Bool
  firstRound : Option Nat
  staleTo   : Option Nat
  healed    : NMap Nat
deriving DecidableEq, Repr

-- # Far paths (R456 to R491)

/-- A sequenced segment that a path holds until it is acknowledged or dropped (R467, R470, R471): its kind (1 DATA, 3 MSG), the device
and round that its bits count for, when it was first and last sent, and whether it is declared lost. -/
structure Seg where
  psn     : Nat
  typ     : Nat
  rep     : Bool
  dev     : Nat
  round   : Option Nat
  payload : List Byte
  firstAt : Nat
  sentAt  : Nat
  lost    : Bool
deriving DecidableEq, Repr

/-- A path as its gateway keeps it. The sender: its key phase, the next PSN, the held segments, the estimator (R476, R477) with the open
run and the send time that it began with, the newest acknowledged segment's send time and sample, the rate in units of 100 MB/s, alpha and
the interval's counts (R480), when it may send again, its counters, since when it waits for an ACK, since when it is idle, its last probe
and since when it is DOWN. The receiver (R472 to R474): the cumulative point, the PSNs above it, its counts, the echo, and the accepted
segments that no ACK has covered. -/
structure Path where
  up       : Bool
  phase    : Bool
  nextPsn  : Nat
  segs     : List Seg
  srtt     : Nat
  rttvar   : Nat
  rto      : Nat
  sampled  : Bool
  run      : List Nat
  runSent  : Nat
  lastTs   : Option Nat
  newest   : Option (Nat × Nat)
  rate     : Rat
  alpha    : Rat
  slow     : Bool
  interval : Nat
  ceBase   : Nat
  rcvdBase : Nat
  ceSeen   : Nat
  rcvdSeen : Nat
  loss     : Bool
  paceAt   : Nat
  retx     : Nat
  rebase   : Nat
  drops    : Nat
  quiet    : Option Nat
  idle     : Nat
  probed   : Nat
  downAt   : Nat
  cum      : Nat
  got      : List Nat
  rcvd     : Nat
  ce       : Nat
  echo     : Nat
  echoAt   : Nat
  pend     : Nat
  pendAt   : Option Nat
  probing  : Bool
  ends     : Nat × Nat × Nat × Nat
deriving DecidableEq, Repr

/-- A segment that waits at a gateway for its path (R462): its site, its origin device, its kind, and the round it counts for. -/
structure GateItem where
  site    : Nat
  dev     : Nat
  rep     : Bool
  typ     : Nat
  round   : Option Nat
  payload : List Byte
deriving DecidableEq, Repr

/-- A message whose fragments a gateway reassembles (R482). -/
structure Assembly where
  site   : Nat
  gw     : Nat
  id     : Nat
  path   : Nat
  kind   : Nat
  src    : Nat
  dst    : Nat
  count  : Nat
  since  : Nat
  parts  : NMap (List Byte)
  early  : Nat × Nat
deriving DecidableEq, Repr

/-- The frame bits of an origin device's round that a gateway has sent, by remote site (R490). -/
structure FirstAll where
  dev   : Nat
  round : Nat
  bits  : NMap Nat
deriving DecidableEq, Repr

/-- A context at a gateway: the segments that wait, the next MSG_ID, the seals that it keeps (R484), the devices that are owed a credit,
the counts of R490, those of R491 (round, resent, ACK and other bits), the messages under reassembly, and the adopters of failed devices
(R461). -/
structure Gate where
  queue    : List GateItem
  msgId    : Nat
  seals    : List (List Byte)
  owed     : List (Nat × Nat × Nat)
  granted  : List (Nat × Nat)
  counts   : List FirstAll
  rnd      : List (Nat × Nat × Nat × Nat)
  asm      : List Assembly
  adopters : NMap Nat
deriving DecidableEq, Repr

-- # Keys (R555)

/-- A key-store slot that holds a key: its class, its owning context, its LOAD_SEQ and the key. -/
structure KeySlot where
  cls : Nat
  ctx : Nat
  seq : Nat
  key : List Byte
deriving DecidableEq, Repr

-- # The site fabric (R374 to R393)

/-- What a flit carries (R377, R380, R381, R391): payload bytes, the times t1, t3 and t4, an id with a port index and the three dimensions less
one, credits of a channel, or nothing. -/
inductive FlitBody where
  | bytes (b : List Byte)
  | time (t1 t3 t4 : Nat)
  | discover (id port dx dy dz : Nat)
  | credits (vc n : Nat)
  | none
deriving DecidableEq, Repr

/-- A flit without its trailer (Table 11-2). -/
structure Flit where
  typ     : Nat
  dst     : Nat
  src     : Nat
  vc      : Nat
  last    : Bool
  attempt : Nat
  len     : Nat
  stream  : Nat
  index   : Nat
  body    : FlitBody
deriving DecidableEq, Repr

/-- What device time is still to be corrected by slewing, in ns (ahead is negative), the ns since the last ns of a correction (R43), and the
last frequency correction, in ns per ms (R392, R393). -/
structure Slew where
  left  : Int
  ticks : Nat
  freq  : Int
deriving DecidableEq, Repr

/-- A fabric port (R378 to R381, R391): the next LSEQ, the flits that wait for an acknowledgement with theirs, the LSEQ expected, how often
the oldest has been replayed, the flits that wait to be sent, each with the port and the channel that it came in by, the credits of the four channels, when the last good flit came, when training
was last tried, the times t1 and t2 of the last TIME flit, when one was last sent, the peer that the numbers are agreed with, for how many
exchanges the offset has exceeded 40 ns, whether a NAK is out and what it asks for has not come (R378), when the link last came UP, and when it last went down from UP or HELD
(R577). -/
structure Port where
  next    : Nat
  buffer  : List (Nat × Flit)
  expect  : Nat
  tries   : Nat
  queue   : List (Flit × Option (Nat × Nat))
  credits : List Nat
  good    : Nat
  tried   : Nat
  time    : Option (Nat × Nat)
  timed   : Option Nat
  met     : Option (Nat × Nat)
  far     : Nat
  nakked  : Bool
  upAt    : Nat
  lostAt  : Nat
deriving DecidableEq, Repr

-- # Power and temperature (R540 to R546)

/-- The hidden part of the power block: the next control period that is due (in ms, plus one), for how many periods f_pwr has stood at
its floor, when the emergency began, the junction temperatures in sixteenths of a degree by die (4 the hub), when PMB_ALERT_N was last
sampled, and the pins: PWR_BRAKE_N and VR_HOT_N as inputs, EMERG_N and THERM_TRIP_N as outputs (each true while asserted). -/
structure PowerRest where
  period  : Nat
  floor   : Nat
  since   : Nat
  tj      : NMap Nat
  sampled : Option Nat
  brake   : Bool
  vrHot   : Bool
  emerg   : Bool
  trip    : Bool
deriving DecidableEq, Repr

-- # Firmware (R519 to R538)

/-- A driver session (R535 to R538): its token, the ORPHAN_S in force, the last heartbeat, and since when orphan hold lasts. -/
structure Session where
  token  : Option Nat
  orphan : Nat
  beat   : Nat
  held   : Nat
deriving DecidableEq, Repr

/-- An activation (R530 to R533): the slot, the bounds in ns, when it was accepted, its step (1 clear wait, 2 quiesce, 5 restart and
health), when quiesce began, when the cores were released, how often it was deferred, and the slot that was ACTIVE before. -/
structure Activation where
  slot     : Nat
  maxDefer : Nat
  wait     : Nat
  accepted : Nat
  step     : Nat
  quiesced : Nat
  released : Nat
  deferred : Nat
  before   : Nat
deriving DecidableEq, Repr

/-- A message from the twin that is held while dispatch is held for an activation (R534). -/
inductive PairMsg where
  | gradient (ctx shard : Nat) (grad gexp : List Byte)
  | decision (ctx step : Nat) (d : Decision)
  | delta (ctx shard round : Nat) (dlt : List Nat)
  | digest (ctx shard : Nat) (pass : DigestPass) (step first : Nat) (digests marks : List Nat)
  | repair (ctx shard block : Nat) (bytes : List Byte)
  | copy (ctx shard block : Nat) (bytes : List Byte)
  | hello (order stepping dev pos state : Nat)
deriving DecidableEq, Repr

/-- The hidden part of the firmware: the driver session, the staging that runs (its slot, host address and length, and whether it comes
from the board management controller), the activation, the diagnostic test that runs (TEST and PARAM), the shutdown of contexts that runs
(those left, how many have been shut down, and whether a forced attach waits for its end), the messages that are held, and the VERSION and
the DIGEST of each running image, SEC first. -/
structure Firmware where
  session : Session
  staging : Option (Nat × Nat × Nat)
  act     : Option Activation
  diag    : Option (Nat × Nat)
  shut    : Option (List Nat × Nat × Bool)
  held    : List PairMsg
  running : List (Nat × List Byte)
deriving DecidableEq, Repr

-- # Security (R552 to R568)

/-- The SPDM responder: how far the connection has come (0 none, 1 version, 2 capabilities, 3 algorithms), and the secure sessions, each
with whether its handshake is complete. -/
structure Spdm where
  phase    : Nat
  sessions : List (Nat × Bool)
deriving DecidableEq, Repr

/-- The hidden part of the security block: SEC_ALARM as it stood at boot, when the nonce was drawn, the open scopes with when each
expires, the SCOPES of every opening since cold reset, whether SCAN has been opened (no service until cold reset), the slot whose new
contents wait (R559), the IDE streams that are insecure, and the SPDM responder. -/
structure Secure where
  alarm    : Nat
  drawn    : Nat
  scopes   : NMap Nat
  opened   : List Nat
  scanned  : Bool
  keyDue   : Option (Nat × Option KeySlot)
  insecure : List Nat
  spdm     : Spdm
deriving DecidableEq, Repr

/-- The instructions of the TAP (R566). -/
inductive TapInstr where
  | idcode | bypass | sample | extest | extestPulse | extestTrain | secFa
deriving DecidableEq, Repr

/-- The TAP: its instruction and the boundary cells as last preloaded (R566). -/
structure Tap where
  instr : TapInstr
  cells : List Bool
deriving DecidableEq, Repr

-- # Resets and bring-up (R570 to R583)

/-- The hidden part of bring-up: the reset inputs that are asserted (PWR_GOOD low, COLD_RST_N, WARM_RST_N, PERST_N, PCIe hot reset or link
disable), the kind of the reset that runs (0 none, 1 warm, 2 pair-forced, 3 cold) and its cause, the straps as sampled, T0, whether
VSB_BYP is present, whether this bring-up has recovered a bundle from the host (R583), whether the device has reached S6 since its cold
reset (R43), whether the repair record has been applied since then (R579), and the events that wait for S3: code, severity, SOURCE, DETAIL0. -/
structure Boot where
  pwrLow  : Bool
  coldN   : Bool
  warmN   : Bool
  perstN  : Bool
  linkOff : Bool
  kind    : Nat
  cause   : Nat
  straps  : Nat
  t0      : Nat
  vsb     : Bool
  recovered : Bool
  served  : Bool
  repaired : Bool
  late    : List (Nat × Nat × Nat × Nat)
deriving DecidableEq, Repr

-- # What leaves the device

/-- A line of a stack cache (R329, Table 9-3): the slot it holds, by its number among all nominal slots, whether it is dirty, and
whether it is marked keep. -/
structure CacheLine where
  line  : Nat
  dirty : Bool
  keep  : Bool
deriving DecidableEq, Repr

/-- Something the device sends out: the host, the fabric, the twin, the far wire and the board see it. -/
inductive Out where
  /-- an MSI-X message of a function (R80) -/
  | msix (fn vector : Nat)
  /-- a GRADIENT message to the twin over MIR (R402): the shard, its GRAD plane and its GEXP plane -/
  | gradient (ctx shard : Nat) (grad gexp : List Byte)
  /-- the decision record and the crozier's values to the twin over MIR (R288) -/
  | decision (ctx step : Nat) (d : Decision)
  /-- the root's decision record to every device of the site on CTRL (R287) -/
  | record (ctx step : Nat) (d : Decision)
  /-- a stream of a collective toward the device that serves another rank, by tag, attempt and rank (R399 to R404) -/
  | part (ctx tag attempt rank : Nat) (bytes : List Byte)
  /-- the gradient buffer of a use of a tie group toward the device that holds use 0, in FP32 (R253): the group, the use and the buffer -/
  | tied (ctx step group use : Nat) (bytes : List Byte)
  /-- the device partial of the gradient norm toward rank 0 (R403) -/
  | partialSum (ctx step sum : Nat)
  /-- digests of a shard to the twin, from a block on, with this device's memory-error marks (R501, R503) -/
  | digest (ctx shard : Nat) (pass : DigestPass) (step first : Nat) (digests marks : List Nat)
  /-- a digest block of the winning copy to the twin (R503) -/
  | repair (ctx shard block : Nat) (bytes : List Byte)
  /-- a digest block of a shard to a twin under reintegration (R514) -/
  | copy (ctx shard block : Nat) (bytes : List Byte)
  /-- the dlt of each element of an exchanged shard to the twin (R435) -/
  | delta (ctx shard round : Nat) (dlt : List Nat)
  /-- an item handed to a gateway against a credit (R462) -/
  | item (ctx gateway site : Nat) (rep : Bool) (x : Item)
  /-- an owner's report that it holds a contribution, to the site's ledger device on CTRL (R438) -/
  | report (ctx ledger site round : Nat)
  /-- a ledger entry to the devices of this site on CTRL (R439) -/
  | entry (ctx : Nat) (bytes : List Byte)
  /-- the ledger device tells its site's devices that it stands provisional (R442) -/
  | provisional (ctx round : Nat)
  /-- a frame leaves a far port (R455, R456) -/
  | frame (port : Nat) (bytes : List Byte)
  /-- a gateway tells its site whether it has an UP path to a remote site (R459) -/
  | announce (ctx site : Nat) (up : Bool)
  /-- a gateway grants an origin device credits, in units of one segment (R462) -/
  | credit (ctx dev n : Nat)
  /-- a gateway forwards a sealed soredium to its owner (R472) -/
  | soredium (ctx dev : Nat) (sealed : List Byte)
  /-- a gateway forwards a message to a device: from which site and device, its kind and its body (R482) -/
  | message (ctx dst site src kind : Nat) (body : List Byte)
  /-- a gateway reports FIRST and ALL of an origin's round (R490) -/
  | counts (ctx dev round first all : Nat)
  /-- HELLO over MIR: ordering code, stepping, serial number, device id, pair position, pair state (R495) -/
  | hello (order stepping serial dev pos state : Nat)
  /-- HEARTBEAT over MIR: sequence number, device time, pair state, FATAL (R495) -/
  | heartbeat (seq time state : Nat) (fatal : Bool)
  /-- an adoption, or with `back` a handback, announced to the site on CTRL: the failed device and the adopter, their replicas, and
  whether the failed device's replica is dropped from the open step (R508, R510, R515) -/
  | adoption (ctx failed adopter replica other : Nat) (drop back : Bool)
  /-- a member-table rewrite to every member of a group on CTRL: the rank and the device that serves it now (R395) -/
  | rewrite (ctx group rank dev : Nat)
  /-- a reading for the board management controller over MCTP (R527): the words of the sensor -/
  | pldm (reading : List Nat)
  /-- what an increment of a core came to (R158, Table 4-4): the core, the status, its DETAIL and the value after the increment -/
  | coreReply (core status detail : Nat) (value : Option Nat)
  /-- a response of the DOE mailbox (R552): its code in the SPDM numbering and its body -/
  | spdm (code : Nat) (body : List Byte)
  /-- what the TAP shifts out (R566) -/
  | tap (value : Nat)
  /-- a flit leaves a fabric port, with its LSEQ, LACK and NAK, and its 256 bytes (R377, R378) -/
  | flit (port : Nat) (f : Flit) (lseq lack : Nat) (nak : Bool) (wire : List Byte)
deriving DecidableEq, Repr

-- # The state

/-- The whole state of the block. -/
structure State where
  /-- the commands that wait, first in, first out -/
  pending   : List Instr
  /-- device time in ns (R41) -/
  now       : Nat
  /-- how many free values have been drawn (log 3) -/
  draws     : Nat
  /-- the register file: an unlisted register holds its reset value (R24, R28) -/
  regs      : NMap Word
  /-- the staging copies, by register (R86) -/
  staging   : NMap Word
  /-- the frozen staging copies of each committed epoch, newest first (R87) -/
  frozen    : List (Nat × NMap Word)
  /-- the epoch each unit instance has adopted, by `32 * class + instance` (R88) -/
  adopted   : NMap Nat
  /-- device memory by nominal slot byte (R319, R323) -/
  mem       : NMap Byte
  /-- the host's memory, which the device reads and writes -/
  host      : NMap Byte
  /-- the tile stores, by `0x400000 * tile + offset` (R49) -/
  store     : NMap Byte
  /-- the poisoned codewords of device memory (R334) -/
  poison    : List Nat
  /-- the lines of the stack caches by set, the most recent first and the next victim last (R329) -/
  cache     : NMap (List CacheLine)
  /-- the codewords of device memory that lie there with wrong symbols: the pin of each and the bits that differ (R332) -/
  wrong     : NMap (NMap Nat)
  /-- the accesses to lines of each stack that have hit its cache, and those that have missed it (MEM_CACHE_STAT, log 38) -/
  cacheHits : NMap Nat
  cacheMisses : NMap Nat
  /-- the MSI-X vectors the host has unmasked, by `2048 * function + vector` (R80) -/
  unmasked  : List Nat
  /-- virtual functions 1 to `vfs` are enabled under SR-IOV (R59) -/
  vfs       : Nat
  /-- what the device has sent, newest first -/
  sent      : List Out
  /-- the data of the last BAR4 read (R51) -/
  bar4Data  : List Byte
  /-- the last BAR4 read carried poisoned data (Table 9-5) -/
  bar4Poison : Bool
  /-- when a rate-limited event was last raised, by its key (R611) -/
  limits    : NMap Nat
  /-- when an activity with a span began, by its kind and place -/
  began     : NMap Nat
  queues    : NMap Queue
  /-- the queue last served at each priority (R72) -/
  served    : NMap Nat
  rings     : NMap Ring
  programs  : NMap Program
  /-- when the running reset of a context began (R585) -/
  resetting : NMap Nat
  launches  : List Launch
  tiles     : NMap Tile
  transfers : List Transfer
  nextId    : Nat
  colls     : List Coll
  arenas    : List Arena
  /-- bytes coded or decoded by each context's transfers: plain, and stored (EXC_CMP_STAT) -/
  plain     : NMap Nat
  stored    : NMap Nat
  /-- when each channel met its uncorrectable and its corrected codewords (MEM_CH_WINDOW) -/
  ueTimes   : NMap (List Nat)
  ceTimes   : NMap (List Nat)
  /-- the correction of device time that is being slewed (R43) -/
  slew      : Slew
  /-- the corrected codewords of a channel since its last event 0x0102 (R611) -/
  ceOwed    : NMap Nat
  steps     : NMap Step
  engines   : NMap Engine
  /-- the schedule table in force for each context, as it was validated (R303) -/
  croz      : NMap (List Byte)
  /-- the tables that have been found valid, by their bases (R303) -/
  crozValid : NMap (NMap (List Byte))
  /-- the codewords whose uncorrectable data a read has met: the memory-error marks of R502 -/
  memErrs   : List Nat
  /-- contexts whose checkpoint has reached its logical point and is still to be written (R309, R310) -/
  ckptDue   : List Nat
  /-- the images of the logical points that are still to be written (R309, R310) -/
  ckptImages : NMap (List Byte)
  /-- dispatch is held for a firmware activation (R530) -/
  quiesce   : Bool
  objs      : NMap SyncObj
  nrings    : NMap NRing
  synOps    : NMap SynOp
  /-- digest comparisons that have not ended (R501) -/
  cmps      : List PairCmp
  /-- shards copied in a reintegration and confirmed, by context and shard (R514) -/
  copied    : List (Nat × Nat)
  /-- shards whose copy has been sent and waits for its first comparison (R514) -/
  copying   : List (Nat × Nat)
  /-- the hidden part of the pair block -/
  pair      : PairRest
  /-- the adoptions whose rebalancing waits for a step boundary, by context: the replicas of the failed device and of the adopter (R513) -/
  rebalances : NMap (List (Nat × Nat))
  /-- the outer rounds of each context -/
  xch       : NMap Xch
  /-- the far paths, by `128 * context + index` -/
  paths     : NMap Path
  /-- the contexts at this gateway -/
  gates     : NMap Gate
  /-- the counter of key loads since cold reset (R555) -/
  loadSeq   : Nat
  /-- the slots that hold a key (R555) -/
  keys      : NMap KeySlot
  /-- the times of the failures of the last second, by kind and place (Tables 13-10, 16-9) -/
  failTimes : NMap (List Nat)
  /-- the fabric ports (R375) -/
  ports     : NMap Port
  /-- the flits delivered to this device whose collective has not completed, oldest first (R397), each with the port and the channel whose
  credit it holds back, until the TAG is posted -/
  inbox     : List (Flit × Option (Nat × Nat))
  /-- how many messages this device has handed to its fabric queues (log 113) -/
  posted    : Nat
  /-- the calibration slice that runs or ran last on each channel: its pseudo-channel and when it began (R336) -/
  slices    : NMap (Nat × Nat)
  /-- the calibration passes of each channel (R337) -/
  calPasses : NMap CalPass
  /-- the codewords that each stack's migration has moved poisoned (R343) -/
  moved     : NMap Nat
  /-- the failed tries of the transfer in hand, by link (R46) -/
  linkRuns  : NMap Nat
  /-- the hidden part of the power block -/
  power     : PowerRest
  /-- the request and the response buffers, by `4096 * function + offset` (R519) -/
  request   : NMap Byte
  response  : NMap Byte
  /-- the request that each function's mailbox serves, as copied (R524) -/
  serving   : NMap (List Byte)
  /-- SEQ and CRC of each function's last answered request (R525) -/
  answered  : NMap (Nat × Nat)
  /-- the hidden part of the firmware -/
  firmware  : Firmware
  /-- the hidden part of the security block -/
  secure    : Secure
  /-- the TAP -/
  tap       : Tap
  /-- what the slots of the boot flash hold (R528) -/
  slots     : NMap (List Byte)
  /-- the hidden part of bring-up -/
  boot      : Boot
  /-- the boot flash (R572, R573) -/
  flash     : NMap Byte
deriving DecidableEq, Repr

/-- The block right after reset: every register at its reset value (nothing listed), memories with nothing listed, no
queue, context, program or object, device time 0 (R28, R42, R584). -/
def State.reset : State where
  pending := []
  now := 0
  draws := 0
  regs := []
  staging := []
  frozen := []
  adopted := []
  mem := []
  host := []
  store := []
  poison := []
  cache := []
  wrong := []
  cacheHits := []
  cacheMisses := []
  unmasked := []
  vfs := 63
  sent := []
  bar4Data := []
  bar4Poison := false
  limits := []
  began := []
  queues := []
  served := []
  rings := []
  programs := []
  resetting := []
  launches := []
  tiles := []
  transfers := []
  nextId := 0
  colls := []
  arenas := []
  plain := []
  stored := []
  ueTimes := []
  ceTimes := []
  ceOwed := []
  slew := ⟨0, 0, 0⟩
  steps := []
  engines := []
  croz := []
  crozValid := []
  memErrs := []
  ckptDue := []
  ckptImages := []
  quiesce := false
  objs := []
  nrings := []
  synOps := []
  cmps := []
  copied := []
  copying := []
  pair := ⟨0, false, none, false, false, false, false, 0, none⟩
  rebalances := []
  xch := []
  paths := []
  gates := []
  loadSeq := 0
  keys := []
  failTimes := []
  ports := []
  inbox := []
  posted := 0
  slices := []
  calPasses := []
  moved := []
  linkRuns := []
  power := ⟨0, 0, 0, [], none, false, false, false, false⟩
  request := []
  response := []
  serving := []
  answered := []
  firmware := ⟨⟨none, 600, 0, 0⟩, none, none, none, none, [], []⟩
  secure := ⟨0, 0, [], [], false, none, [], ⟨0, []⟩⟩
  tap := ⟨.idcode, []⟩
  slots := []
  boot := ⟨false, false, false, false, false, 0, 1, 4, 0, false, false, false, false, []⟩
  flash := []

end Sys2Proof.Machine
end

