-- ==== Sys2Proof/Machine/Ops.lean ====
section
/-! DEFINITION. The shared operations: registers and their fields, the byte memories and the address map, events and
their rings, blocked accesses, messages, queues and the end of a command, grants of contexts, and the end of a launch. -/

namespace Sys2Proof.Machine

/-- What a meaning answers when the command has its effect. -/
abbrev Answer := Host.Outcome State Fault Refusal

-- # Plain helpers on states

/-- Apply a change only where a condition holds. -/
def State.when (s : State) (c : Bool) (f : State → State) : State := if c then f s else s

/-- Apply a change for every element of a list, in order. -/
def State.each {α : Type} (s : State) (l : List α) (f : α → State → State) : State :=
  l.foldl (fun t x => f x t) s

/-- Draw a value the spec leaves undefined, below `n` (log 3). -/
def State.draw (s : State) (n : Nat) : Nat × State :=
  (Config.freeNat s.draws % n, { s with draws := s.draws + 1 })

-- # Registers (R24 to R28)

/-- The key of one copy of a register. -/
def RegName.key (r : RegName) (i : Nat) : Nat := 1048576 * r.ctorIdx + i

/-- The reset value of one field, where the copy matters (log 2). -/
def resetField (r : RegName) (i : Nat) (row : FieldRow) : Nat :=
  match r with
  | .HIF_ID => if row.lo = 0 then i else row.reset
  | .PWR_DIE_THERM => if row.lo = 16 ∧ i = 4 then 0 else row.reset
  | _ => row.reset

/-- The value of a register after cold reset (R28). -/
def RegName.resetValue (r : RegName) (i : Nat) : Word :=
  BitVec.ofNat 64 (r.rows.foldl (fun n row => n + 2 ^ row.lo * resetField r i row) 0)

/-- The register as it stands. -/
def State.reg (s : State) (r : RegName) (i : Nat) : Word := NMap.getD s.regs (r.key i) (r.resetValue i)

/-- Store a whole register. -/
def State.setReg (s : State) (r : RegName) (i : Nat) (v : Word) : State :=
  { s with regs := NMap.set s.regs (r.key i) v }

/-- Replace the bits of a field in a register's value. -/
def Field.put (f : Field) (w : Word) (v : Nat) : Word :=
  let m := w.toNat
  BitVec.ofNat 64 (m - 2 ^ f.lo * bitsOf m f.lo f.width + 2 ^ f.lo * (v % 2 ^ f.width))

/-- A field of a register's value. -/
def Field.of (f : Field) (w : Word) : Nat := bitsOf w.toNat f.lo f.width

/-- A field of a register. -/
def State.fld (s : State) (f : Field) (i : Nat) : Nat := f.of (s.reg f.reg i)

/-- Set a field of a register; the value is cut to the field's width. -/
def State.setFld (s : State) (f : Field) (i : Nat) (v : Nat) : State :=
  s.setReg f.reg i (f.put (s.reg f.reg i) v)

/-- Raise a counting field, stopping at its largest value. -/
def State.bumpFld (s : State) (f : Field) (i : Nat) (v : Nat) : State :=
  s.setFld f i (satAdd (2 ^ f.width - 1) (s.fld f i) v)

/-- A one-bit field is set. -/
def State.flag (s : State) (f : Field) (i : Nat) : Bool := s.fld f i != 0

/-- Return every listed copy of a register below an index to its reset value. -/
def State.clearReg (s : State) (r : RegName) (i : Nat) : State :=
  { s with regs := NMap.erase s.regs (r.key i) }

-- # Byte memories

/-- One byte of a memory; a byte that nothing has written reads as zero (log 4). -/
def memGet (m : NMap Byte) (a : Nat) : Byte := NMap.getD m a 0

/-- Store one byte, keeping the canonical form: a zero byte is not listed. -/
def memSet (m : NMap Byte) (a : Nat) (b : Byte) : NMap Byte := if b = 0 then NMap.erase m a else NMap.set m a b

/-- The canonical form of a memory: keys strictly rising, no listed zero. -/
def Memory.wf (m : NMap Byte) : Bool := NMap.wf m && m.all fun p => p.2 != 0

/-- Consecutive bytes. -/
def memRead (m : NMap Byte) (a n : Nat) : List Byte := (List.range n).map fun i => memGet m (a + i)

/-- Store consecutive bytes. -/
def memWrite (m : NMap Byte) : Nat → List Byte → NMap Byte
  | _, [] => m
  | a, b :: rest => memWrite (memSet m a b) (a + 1) rest

-- # The address map (R48 to R50, R320 to R324)

/-- The end of program-visible memory (R320). -/
def State.visibleEnd (s : State) : Nat := 0xC0000000 * s.fld F.MEM_MAP_V_3G 0

/-- The size of a die-local region (R322). -/
def State.localSize (s : State) : Nat := 0x30000000 * s.fld F.MEM_REGION_CFG_LOCAL_768M 0

/-- The size of the update-affine region (R322). -/
def State.affineSize (s : State) : Nat := 0xC0000000 * s.fld F.MEM_REGION_CFG_AFF_3G 0

/-- The nominal channel and slot of an address (R323, before the sparing remap). -/
def State.locate (s : State) (a : Nat) : Nat × Nat :=
  let l := s.localSize
  let u := s.affineSize
  let o := s.visibleEnd - 4 * l - u
  let (base, n, cb, sb) :=
    if a < o then (0, 384, 0, 0)
    else if a < o + 4 * l then
      let d := (a - o) / l
      (o + d * l, 96, 96 * d, o / 98304)
    else
      let w := u / 12
      let st := (a - o - 4 * l) / w
      (o + 4 * l + st * w, 32, 32 * st, o / 98304 + l / 24576)
  let g := (a - base) / 256
  let q := g / n
  let r := g % n
  let x := 0x9E3779B9 * q % 2 ^ 32
  let f := x / 256 % n
  (cb + (r + f) % n, sb + q)

/-- Slots of one channel: the key space of device memory (Table 9-1, the larger part). -/
def slotsPerChannel : Nat := 6291456

/-- The key of a device address's byte in `State.mem`: its nominal channel, slot and byte. -/
def State.memKey (s : State) (a : Nat) : Nat :=
  let (c, t) := s.locate a
  (slotsPerChannel * c + t) * 256 + a % 256

/-- The sparing remap of R341: where a channel's slot lies now. -/
def State.spare (s : State) (c t : Nat) : Nat × Nat :=
  let st := c / 32
  let kf := s.fld F.MEM_SPARE_CHANNEL st
  let q := s.visibleEnd / 98304
  if (s.fld F.MEM_SPARE_STATE st = 1 ∨ s.fld F.MEM_SPARE_STATE st = 2) ∧ c % 32 = kf ∧
      t < s.fld F.MEM_SPARE_WATERMARK st then
    let j := t % 31
    (32 * st + (if j < kf then j else j + 1), q + t / 31)
  else (c, t)

/-- The channel, pseudo-channel and byte offset of an address (R323). -/
def State.place (s : State) (a : Nat) : Nat × Nat × Nat :=
  let (c, t) := s.locate a
  let (c', t') := s.spare c t
  (c', t' % 2, t' / 2 * 256 + a % 256)

/-- The kinds of device physical address (Table 1-7, R49, R50). -/
inductive AddrKind where
  | memory | store | control | unbacked
deriving DecidableEq, Repr

/-- The base of the tile-store window. -/
def storeBase : Nat := 0xE00000000000

/-- The backed bytes of a tile store (R49). -/
def storeSize : Nat := 0x280000

/-- The place of an address of the window from the window's start, which is a multiple of 2^44. -/
def storeOff (a : Nat) : Nat := a % 0x100000000000

/-- The kind of a device physical address. -/
def State.addrKind (s : State) (a : Nat) : AddrKind :=
  if a < s.visibleEnd then .memory
  else if storeBase ≤ a ∧ a < storeBase + 512 * 0x400000 then
    if storeOff a % 0x400000 < storeSize then .store else .unbacked
  else if 0xF00000000000 ≤ a ∧ a < 0x1000000000000 then .control
  else .unbacked

/-- Read one byte at a device physical address; an unbacked address reads as zero (R50). -/
def State.devByte (s : State) (a : Nat) : Byte :=
  match s.addrKind a with
  | .memory => memGet s.mem (s.memKey a)
  | .store => memGet s.store (storeOff a)
  | _ => 0

/-- Store one byte at a device physical address; a write to an unbacked address is discarded (R50). -/
def State.setDevByte (s : State) (a : Nat) (b : Byte) : State :=
  { s with
    mem := if s.addrKind a = .memory then memSet s.mem (s.memKey a) b else s.mem
    store := if s.addrKind a = .store then memSet s.store (storeOff a) b else s.store }

/-- Consecutive bytes of device memory. -/
def State.devRead (s : State) (a n : Nat) : List Byte := (List.range n).map fun i => s.devByte (a + i)

/-- Store consecutive bytes of device memory, one by one. -/
def State.devBytes (s : State) : Nat → List Byte → State
  | _, [] => s
  | a, b :: rest => (s.setDevByte a b).devBytes (a + 1) rest

/-- The codewords (32 data bytes each) that a range touches, by address. -/
def codewords (a n : Nat) : List Nat :=
  if n = 0 then [] else (List.range ((a + n - 1) / 32 - a / 32 + 1)).map fun i => (a / 32 + i) * 32

/-- The codewords whose 32 bytes a range covers. -/
def coveredCodewords (a n : Nat) : List Nat := (codewords a n).filter fun x => decide (a ≤ x) && decide (x + 32 ≤ a + n)

/-- The key of a codeword in `State.poison`. -/
def State.codeKey (s : State) (a : Nat) : Nat := s.memKey a / 32

-- # Configuration epochs (R86 to R89)

/-- The number of a unit class (Table 2-8). -/
def classNum : EpochClass → Nat
  | .host => 0
  | .sori => 1
  | .num => 2
  | .base => 3
  | .fabric => 4
  | .exchange => 5
  | .far => 6
  | .power => 7

/-- How many instances a class has (Table 2-8). -/
def classCount : EpochClass → Nat
  | .host => 1
  | .sori => 32
  | .num => 32
  | .base => 12
  | .fabric => 4
  | .exchange => 1
  | .far => 2
  | .power => 1

/-- The epoch a unit instance has adopted. -/
def State.adoptedBy (s : State) (c : EpochClass) (i : Nat) : Nat := NMap.getD s.adopted (32 * classNum c + i) 0

/-- The lowest epoch of a class. -/
def State.classEpoch (s : State) (c : EpochClass) : Nat :=
  ((List.range (classCount c)).map (s.adoptedBy c)).foldl min (s.adoptedBy c 0)

/-- The value of a staged register that one instance uses: the changes of every epoch it has adopted (R86, R88). `frozen` lists the newest epoch first. -/
def State.staged (s : State) (r : RegName) (i : Nat) (c : EpochClass) (inst : Nat) : Word :=
  let e := s.adoptedBy c inst
  match s.frozen.findSome? fun p => if p.1 ≤ e then NMap.get? p.2 (r.key i) else none with
  | some v => v
  | none => s.reg r i

-- # The stack caches (R329 to R331)

/-- The sets and the ways of one stack's cache (R329). -/
def cacheSets : Nat := 24576
def cacheWays : Nat := 16

/-- The stack of a slot's number. -/
def lineStack (k : Nat) : Nat := k / slotsPerChannel / 32

/-- The key in `State.cache` of the set where a slot is placed. -/
def cacheKey (k : Nat) : Nat := cacheSets * lineStack k + Config.cacheSet k % cacheSets

/-- The slots of device memory that a range touches. -/
def State.linesOf (s : State) (a n : Nat) : List Nat :=
  if n = 0 then []
  else (((List.range ((a + n - 1) / 256 - a / 256 + 1)).map fun i => (a / 256 + i) * 256).filter fun x => s.addrKind x == .memory).map
    fun x => s.memKey x / 256

/-- Displace the least recent line of a set that has a property. -/
def displace (p : CacheLine → Bool) (l : List CacheLine) : List CacheLine := (l.reverse.eraseP p).reverse

/-- A line is about to be marked keep: once KEEP_WAYS ways of its set hold keep lines, it displaces one of them (Table 9-3). -/
def keepRoom (ways : Nat) (l : List CacheLine) : List CacheLine :=
  if ways ≤ l.countP (·.keep) then displace (·.keep) l else l

/-- Allocate a line in its set as the most recent; a full set loses the least recent line that is not a keep line. -/
def allocate (ways : Nat) (x : CacheLine) (l : List CacheLine) : List CacheLine :=
  let l := if x.keep then keepRoom ways l else l
  x :: (if l.length < cacheWays then l else displace (fun y => !y.keep) l)

/-- What an access with a hint does to its set (Table 9-3): 0 normal, 1 stream, 2 keep, 3 last-use. With KEEP_WAYS 0, keep is treated as
normal (R330). A write that misses while a slice runs on its pseudo-channel is taken as a dirty line whatever its hint (R338). -/
def touchSet (ways : Nat) (write slice : Bool) (hint k : Nat) (l : List CacheLine) : List CacheLine :=
  let keep := hint == 2 && ways != 0
  match l.find? fun y => y.line == k with
  | some x =>
    let l := if keep && !x.keep then keepRoom ways l else l
    let rest := l.filter fun y => y.line != k
    let x := { x with dirty := x.dirty || write, keep := x.keep || keep }
    if hint = 1 ∨ (keep = true ∧ write = false) then l.map fun y => if y.line = k then x else y
    else if hint = 3 ∧ write = false then rest ++ [{ x with keep := false }]
    else x :: rest
  | none => if (hint = 1 ∧ ¬ (write = true ∧ slice = true)) ∨ (hint = 3 ∧ write = false) then l else allocate ways ⟨k, write, keep⟩ l

/-- KEEP_WAYS as a stack's base die has it in force (R330). -/
def State.keepWays (s : State) (st : Nat) : Nat := F.MEM_CACHE_CFG_KEEP_WAYS.of (s.staged .MEM_CACHE_CFG 0 .base st)

/-- A calibration slice runs on the pseudo-channel where a slot lies (R336, R338). -/
def State.inSlice (s : State) (k : Nat) : Bool :=
  let (c, t) := s.spare (k / slotsPerChannel) (k % slotsPerChannel)
  s.fld F.MEM_CH_STATE_STATE c == 1 && (NMap.get? s.slices c).any fun x => x.1 == t % 2

/-- The caches' sets after an access to so many lines. -/
def State.setsAfter (s : State) (write : Bool) (hint : Nat) (l : List Nat) : NMap (List CacheLine) :=
  l.foldl (fun m k =>
    NMap.set m (cacheKey k) (touchSet (s.keepWays (lineStack k)) write (s.inSlice k) hint k (NMap.getD m (cacheKey k) []))) s.cache

/-- A line of a set is cached. -/
def holdsLine (m : NMap (List CacheLine)) (k : Nat) : Bool := (NMap.getD m (cacheKey k) []).any fun y => y.line == k

/-- A line that was dirty has been displaced: it has been written back whole. -/
def writtenBack (before after : NMap (List CacheLine)) (k : Nat) : Bool :=
  ((NMap.getD before (cacheKey k) []).any fun y => y.line == k && y.dirty) && !holdsLine after k

/-- An access to a range of device memory passes through the caches of its stacks (R329). It counts there once for each line that it touches, as
a hit or as a miss (DESIGN CHOICE, log 38); a displaced dirty line leaves no wrong symbol in memory. -/
def State.cacheAccess (s : State) (write : Bool) (hint a n : Nat) : State :=
  let l := s.linesOf a n
  let sets := s.setsAfter write hint l
  let count (m : NMap Nat) (p : Nat → Bool) : NMap Nat := (l.filter p).foldl (fun m k => NMap.update m (lineStack k) 0 (· + 1)) m
  { s with
    cache := sets
    cacheHits := count s.cacheHits (holdsLine s.cache)
    cacheMisses := count s.cacheMisses fun k => !holdsLine s.cache k
    wrong := s.wrong.filter fun p => !writtenBack s.cache sets (p.1 / 8) }

/-- An agent that has no hint reads a range of device memory. -/
def State.touch (s : State) (a n : Nat) : State := s.cacheAccess false 0 a n

/-- The line that the caches hold for a byte of device memory. -/
def State.cached? (s : State) (a : Nat) : Option CacheLine :=
  let k := s.memKey a / 256
  (NMap.getD s.cache (cacheKey k) []).find? fun y => y.line == k

/-- Store consecutive bytes of device memory under a hint; a codeword stored whole takes fresh check bytes and loses its poison (R334). -/
def State.devStore (s : State) (hint a : Nat) (bs : List Byte) : State :=
  let s := s.devBytes a bs
  let keys := if s.poison.isEmpty && s.wrong.isEmpty then [] else ((coveredCodewords a bs.length).filter fun x => s.addrKind x == .memory).map s.codeKey
  { s with
    poison := s.poison.filter fun k => !keys.contains k
    wrong := s.wrong.filter fun p => !keys.contains p.1 }.cacheAccess true hint a bs.length

/-- Store consecutive bytes of device memory. -/
def State.devWrite (s : State) (a : Nat) (bs : List Byte) : State := s.devStore 0 a bs

/-- Read from the host's memory (`space` 0) or the device's (`space` 1): the address space bit of Table 2-3. -/
def State.spaceRead (s : State) (space a n : Nat) : List Byte :=
  if space = 0 then memRead s.host a n else s.devRead a n

/-- Write to the host's memory or the device's. -/
def State.spaceWrite (s : State) (space a : Nat) (bs : List Byte) : State :=
  if space = 0 then { s with host := memWrite s.host a bs } else s.devWrite a bs

/-- A range of the host's memory or the device's is read through the stack caches, where it is the device's. -/
def State.spaceTouch (s : State) (space a n : Nat) : State := if space = 0 then s else s.touch a n

/-- A little-endian number in device memory. -/
def State.devNat (s : State) (a n : Nat) : Nat := leNat (s.devRead a n)

/-- Read tile-store bytes of a tile. -/
def State.storeRead (s : State) (tile off n : Nat) : List Byte := memRead s.store (0x400000 * tile + off) n

/-- Write tile-store bytes of a tile. -/
def State.storeWrite (s : State) (tile off : Nat) (bs : List Byte) : State :=
  { s with store := memWrite s.store (0x400000 * tile + off) bs }

-- # Messages to the host (R80)

/-- Send something out of the device. -/
def State.emit (s : State) (o : Out) : State := { s with sent := o :: s.sent }

/-- Send an MSI-X message of a function's vector, unless the host holds the vector masked. -/
def State.msix (s : State) (fn vector : Nat) : State :=
  if s.unmasked.contains (2048 * fn + vector) then s.emit (.msix fn vector) else s

-- # Contexts and grants (R58 to R61, R613)

/-- The context is enabled. -/
def State.ctxOn (s : State) (n : Nat) : Bool := s.flag F.QUE_CTX_CFG_EN n

/-- The function that owns a context. -/
def State.ctxFn (s : State) (n : Nat) : Nat := s.fld F.QUE_CTX_CFG_FUNCTION n

/-- A reset of the context runs (R585). -/
def State.ctxResetting (s : State) (n : Nat) : Bool := (NMap.get? s.resetting n).isSome

/-- The queue lies in a context's range. -/
def State.queueIn (s : State) (n q : Nat) : Bool :=
  decide (s.fld F.QUE_CTX_CFG_Q_FIRST n ≤ q) &&
    decide (q < s.fld F.QUE_CTX_CFG_Q_FIRST n + s.fld F.QUE_CTX_CFG_Q_COUNT n)

/-- The context a queue belongs to (R613). -/
def State.ctxOf (s : State) (q : Nat) : Option Nat :=
  (List.range 256).find? fun n => (s.ctxOn n || s.ctxResetting n) && s.queueIn n q

/-- The base of a context's memory region. -/
def State.regionBase (s : State) (n : Nat) : Nat := 0x10000000 * s.fld F.QUE_CTX_MEM_BASE n

/-- The size of a context's memory region. -/
def State.regionSize (s : State) (n : Nat) : Nat := 0x10000000 * s.fld F.QUE_CTX_MEM_SIZE n

/-- A context is granted a sorus. -/
def State.hasSorus (s : State) (n sorus : Nat) : Bool := (s.fld F.QUE_CTX_SORI_MASK n).testBit sorus

/-- A context's grants cover one backed device byte (R61): its memory region, or the tile stores of its sori. -/
def State.granted (s : State) (n a : Nat) : Bool :=
  match s.addrKind a with
  | .memory => decide (s.regionBase n ≤ a) && decide (a < s.regionBase n + s.regionSize n)
  | .store => s.hasSorus n (storeOff a / 0x400000 / 16)
  | _ => true

/-- What a range of bytes of a context's command runs into (R61): nothing, a byte outside its grants (first, wherever
it lies), or an unbacked byte with its address. Only the ends of regions and slots matter, so the check walks the range
in steps of 64 bytes and its last byte. -/
inductive RangeCheck where
  | fine
  | noPermission
  | unbacked (a : Nat)
deriving DecidableEq, Repr

/-- The bytes of a range at which a grant or the map can change: every multiple of 64 in it, its first and its last. -/
def probes (a n : Nat) : List Nat :=
  if n = 0 then [] else a :: (a + n - 1) :: (List.range (n / 64)).map fun i => (a / 64 + i + 1) * 64

/-- Check a range of device bytes against the grants of a context. -/
def State.checkRange (s : State) (n a len : Nat) : RangeCheck :=
  let ps := (probes a len).filter fun x => x < a + len
  if ps.any fun x => !s.granted n x then .noPermission
  else match ps.filter fun x => s.addrKind x == .control || s.addrKind x == .unbacked with
    | [] => .fine
    | x :: rest => .unbacked (rest.foldl min x)

-- # Events (R92 to R95, R582, R611)

/-- A limit of one event an interval (R611): whether a new one may be raised now. -/
def State.limitOpen (s : State) (key interval : Nat) : Bool :=
  match NMap.get? s.limits key with
  | none => true
  | some t => decide (t + interval ≤ s.now)

/-- Note that a limited event is raised now. -/
def State.noteLimit (s : State) (key : Nat) : State := { s with limits := NMap.set s.limits key s.now }

/-- The ring's hidden part of a function. -/
def State.ring (s : State) (fn : Nat) : Ring := NMap.getD s.rings fn ⟨0, 1, false, []⟩

def State.setRing (s : State) (fn : Nat) (r : Ring) : State := { s with rings := NMap.set s.rings fn r }

/-- The four words of an event record (Table 2-9). -/
def Event.words (e : Event) (phase seq : Nat) : List Nat :=
  [ e.time,
    2 ^ 48 * e.code + 2 ^ 44 * e.sev + (match e.ctx with | none => 0 | some c => 2 ^ 43 + 2 ^ 32 * c) + e.source % 2 ^ 32,
    e.detail % 2 ^ 64,
    2 ^ 63 * phase + seq % 2 ^ 63 ]

/-- Words as bytes, least significant first (R23). -/
def wordsBytes (ws : List Nat) : List Byte := ws.flatMap (leBytes 8)

/-- The slots of an event ring. -/
def State.ringSize (s : State) (fn : Nat) : Nat := 2 ^ s.fld F.EXC_EVQ_CFG_LOG2 fn

/-- Write an event record into a free slot of a ring, then raise its message (R93). -/
def State.ringWrite (s : State) (fn : Nat) (e : Event) : State :=
  let r := s.ring fn
  let tail := s.fld F.EXC_EVQ_STATE_TAIL fn
  let phase := s.fld F.EXC_EVQ_STATE_PHASE fn
  let base := 4096 * s.fld F.EXC_EVQ_BASE_ADDR fn
  let s := s.spaceWrite 0 (base + 32 * tail) (wordsBytes (e.words phase r.seq))
  let wrap := tail + 1 = s.ringSize fn
  let s := s.setFld F.EXC_EVQ_STATE_TAIL fn (if wrap then 0 else tail + 1)
  let s := s.setFld F.EXC_EVQ_STATE_PHASE fn (if wrap then 1 - phase else phase)
  let s := s.setRing fn { r with used := r.used + 1, seq := r.seq + 1 }
  s.when (s.flag F.EXC_EVQ_CFG_IRQ_EN fn) fun s => s.msix fn (s.fld F.EXC_EVQ_CFG_VECTOR fn)

/-- A ring has a free slot. -/
def State.ringRoom (s : State) (fn : Nat) : Bool := decide ((s.ring fn).used < s.ringSize fn)

/-- Write the EVENTS_LOST record of a ring whose LOST is non-zero, and clear LOST (R95). -/
def State.ringLost (s : State) (fn : Nat) : State :=
  let n := s.fld F.EXC_EVQ_STATE_LOST fn
  if n ≠ 0 ∧ s.ringRoom fn then
    (s.ringWrite fn ⟨s.now, 0x0001, 1, none, 0, n⟩).setFld F.EXC_EVQ_STATE_LOST fn 0
  else s

/-- Deliver an event to a function's ring: written, held before the physical function's first enable (at most 64), or
dropped and counted (R95, R582). -/
def State.deliver (s : State) (fn : Nat) (e : Event) : State :=
  if s.flag F.EXC_EVQ_CFG_EN fn then
    if s.ringRoom fn ∧ s.fld F.EXC_EVQ_STATE_LOST fn = 0 then s.ringWrite fn e
    else s.bumpFld F.EXC_EVQ_STATE_LOST fn 1
  else if fn = 0 ∧ ¬ (s.ring 0).everEnabled ∧ (s.ring 0).held.length < 64 then
    s.setRing 0 { s.ring 0 with held := (s.ring 0).held ++ [e] }
  else s.bumpFld F.EXC_EVQ_STATE_LOST fn 1

/-- Raise an event now, to the rings its scope names (R92). -/
def State.raise (s : State) (sc : Scope) (code sev source detail : Nat) : State :=
  match sc with
  | .device => s.deliver 0 ⟨s.now, code, sev, none, source, detail⟩
  | .context n =>
    let e : Event := ⟨s.now, code, sev, some n, source, detail⟩
    let fn := s.ctxFn n
    (s.deliver fn e).when (decide (2 ≤ sev) && fn != 0) fun s => s.deliver 0 e
  | .function fn copy =>
    let e : Event := ⟨s.now, code, sev, none, source, detail⟩
    (s.deliver fn e).when (copy && fn != 0) fun s => s.deliver 0 e

/-- Raise an event at most once an interval for its key (R611). -/
def State.raiseLimited (s : State) (key interval : Nat) (sc : Scope) (code sev source detail : Nat) : State :=
  let k := 2 ^ 32 * code + key
  if s.limitOpen k interval then (s.noteLimit k).raise sc code sev source detail else s

/-- Note when an activity began: its kind and its place. -/
def State.beginAt (s : State) (kind i : Nat) : State := { s with began := NMap.set s.began (2 ^ 32 * kind + i) s.now }

/-- When an activity began. -/
def State.beganAt (s : State) (kind i : Nat) : Option Nat := NMap.get? s.began (2 ^ 32 * kind + i)

/-- An activity has ended. -/
def State.endOf (s : State) (kind i : Nat) : State := { s with began := NMap.erase s.began (2 ^ 32 * kind + i) }

/-- One millisecond and one second of device time. -/
def ms : Nat := 1000000
def sec : Nat := 1000000000

/-- Count a blocked access of a function (R27, R51, R61) and report it, at most once per ms per function (R95). -/
def State.blocked (s : State) (fn bar offset : Nat) : State :=
  let s := s.bumpFld F.HIF_BLOCKED_COUNT fn 1
  let s := s.setFld F.HIF_BLOCKED_BAR fn bar
  let s := s.setFld F.HIF_BLOCKED_OFFSET fn offset
  s.raiseLimited fn ms (.function fn true) 0x0003 1 fn (s.reg .HIF_BLOCKED fn).toNat

/-- Record an access outside the memory map (R50, R328): the first in MEM_OUTSIDE, each in the count, and event 0x0101
at most once per ms for each agent class. -/
def State.outside (s : State) (agent : Nat) (ctx : Option Nat) (a : Nat) : State :=
  let s := s.when (!s.flag F.MEM_OUTSIDE_VALID 0) fun s =>
    let s := s.setFld F.MEM_OUTSIDE_VALID 0 1
    let s := s.setFld F.MEM_OUTSIDE_AGENT 0 agent
    let s := s.setFld F.MEM_OUTSIDE_CTX 0 (ctx.getD 0)
    s.setFld F.MEM_OUTSIDE_ADDR 0 a
  let s := s.bumpFld F.MEM_OUTSIDE_CNT_COUNT 0 1
  s.raiseLimited agent ms (match ctx with | none => .device | some n => .context n) 0x0101 2 agent (a % 2 ^ 48)

/-- An agent reaches a range for which only memory is backed (R50, R328): the first address beyond it is reported. -/
def State.reachMemory (s : State) (agent : Nat) (ctx : Option Nat) (a n : Nat) : State :=
  s.when (decide (0 < n) && decide (s.visibleEnd < a + n)) fun s => s.outside agent ctx (max a s.visibleEnd)

/-- The failures of a kind and place in the last second, this one among them. -/
def State.failure (s : State) (kind i : Nat) : Nat × State :=
  let k := 2 ^ 32 * kind + i
  let l := s.now :: (NMap.getD s.failTimes k []).filter fun t => decide (s.now < t + sec)
  (l.length, { s with failTimes := NMap.set s.failTimes k l })

/-- The device is in reset (R570). -/
def State.inReset (s : State) : Bool := s.boot.kind != 0

/-- The bring-up stage. -/
def State.stage (s : State) : Nat := s.fld F.BOOT_STAGE_STAGE 0

-- # Status codes (Table 2-5)

namespace St
def ok : Nat := 0
def notReady : Nat := 1
def aborted : Nat := 2
def abortLate : Nat := 3
def timeout : Nat := 4
def epochWait : Nat := 5
def refusedFit : Nat := 0x10
def refusedFormat : Nat := 0x11
def refusedService : Nat := 0x12
def numExc : Nat := 0x20
def stashFault : Nat := 0x21
def updateSkipped : Nat := 0x22
def addrFault : Nat := 0x30
def memUncorrectable : Nat := 0x31
def integrity : Nat := 0x32
def protocol : Nat := 0x40
def badCommand : Nat := 0x41
def noPermission : Nat := 0x42
def ctxReset : Nat := 0x50
end St

-- # Queues and the end of a command (R71 to R85)

/-- The hidden part of a queue pair. -/
def State.queue (s : State) (q : Nat) : Queue := NMap.getD s.queues q ⟨0, 0, 0, 1, 0, [], [], [], []⟩

def State.setQueue (s : State) (q : Nat) (v : Queue) : State := { s with queues := NMap.set s.queues q v }

def State.modQueue (s : State) (q : Nat) (f : Queue → Queue) : State := s.setQueue q (f (s.queue q))

/-- The host's number of a command. -/
def Sqe.cmdId (e : Sqe) : Nat := bitsOf e.w0 32 32
def Sqe.flags (e : Sqe) : Nat := bitsOf e.w0 24 8
def Sqe.fence (e : Sqe) : Bool := e.w0.testBit 24
def Sqe.quiet (e : Sqe) : Bool := e.w0.testBit 25
def Sqe.opcode (e : Sqe) : Nat := bitsOf e.w0 0 16

/-- The entry that 64 bytes spell (Table 2-2). -/
def Sqe.ofBytes (bs : List Byte) : Sqe :=
  let w (i : Nat) := leNat ((bs.drop (8 * i)).take 8)
  ⟨w 0, w 1, w 2, w 3, w 4, w 5, w 6, w 7⟩

/-- A fetched command of a queue that has not ended. -/
def State.cmd? (s : State) (q c : Nat) : Option Cmd := (s.queue q).cmds.find? fun x => x.num == c

/-- Change a fetched command. -/
def State.modCmd (s : State) (q c : Nat) (f : Cmd → Cmd) : State :=
  s.modQueue q fun u => { u with cmds := u.cmds.map fun x => if x.num = c then f x else x }

/-- Put the completion of a command in line for its record (R74 to R77): no record where QUIET is set, the status is OK
and no flag is set (Table 2-2), nor where a queue protocol error has ended the command (R78). -/
def State.pushRec (s : State) (q : Nat) (x : Cmd) (status detail result : Nat) : State :=
  s.modQueue q fun u =>
    { u with
      cmds := u.cmds.filter fun y => y.num != x.num
      doneIds := x.entry.cmdId :: u.doneIds
      waiting :=
        if x.silent || (x.entry.quiet && status == St.ok && !x.nx) then u.waiting
        else u.waiting ++ [⟨result % 2 ^ 64, detail % 2 ^ 32, x.entry.cmdId, x.sqHead, x.nx, status⟩] }

/-- End a command with one status (R81), then the ABORTs of its queue that waited for its record (R83). -/
def State.finish (s : State) (q c status detail result : Nat) : State :=
  match s.cmd? q c with
  | none => s
  | some x =>
    let s := s.pushRec q x status detail result
    s.each ((s.queue q).cmds.filter fun y => y.waitsFor == some (q, c) && y.stop.isNone) fun y s =>
      s.pushRec q y St.ok 0 0

/-- End a command with a status for which the spec gives no RESULT: a free value (log 3). -/
def State.finishFree (s : State) (q c status detail : Nat) : State :=
  let (v, s) := s.draw (2 ^ 64)
  s.finish q c status detail v

/-- A command of a queue waits to be performed: it runs, it has not begun, its opcode is the one named, and the device issues work (R47). -/
def State.toBegin (s : State) (q c opcode : Nat) : Option (Cmd × Nat) :=
  match s.cmd? q c, s.ctxOf q with
  | some x, some n =>
    if x.phase = .running ∧ x.begun = false ∧ x.entry.opcode = opcode ∧ x.stop = none ∧ s.flag F.HIF_STATUS_FATAL 0 = false
    then some (x, n) else none
  | _, _ => none

/-- A running command that has begun and that nothing has asked to end: one that is to end does so at its abort point (R82, R85). -/
def Cmd.goesOn (x : Cmd) : Bool := x.begun && x.stop.isNone

/-- Mark a command as begun. -/
def State.begin (s : State) (q c : Nat) : State := s.modCmd q c fun x => { x with begun := true }

-- # Launches and tiles (R132 to R134)

/-- The registers of a tile at the start of a launch (R100). -/
def TileCore.fresh (seed : Nat) : TileCore := ⟨seed, [], [], [], []⟩

/-- A tile that runs nothing. -/
def Tile.idle : Tile :=
  ⟨none, TileCore.fresh 0, none, none, none, [], [], [], 0, none, none, false, false, none, [], [], none, false, 9, 0, [], 0, 0, 0,
    0, none, none, 9, false⟩

def State.tile (s : State) (t : Nat) : Tile := NMap.getD s.tiles t Tile.idle
def State.setTile (s : State) (t : Nat) (x : Tile) : State := { s with tiles := NMap.set s.tiles t x }
def State.modTile (s : State) (t : Nat) (f : Tile → Tile) : State := s.setTile t (f (s.tile t))

/-- The launch that a command runs. -/
def State.launch? (s : State) (q c : Nat) : Option Launch :=
  s.launches.find? fun l => l.queue == q && l.cmd == c

def State.modLaunch (s : State) (q c : Nat) (f : Launch → Launch) : State :=
  { s with launches := s.launches.map fun l => if l.queue = q ∧ l.cmd = c then f l else l }

/-- The launch a tile runs. -/
def State.tileLaunch (s : State) (t : Nat) : Option Launch :=
  match (s.tile t).launch with
  | none => none
  | some (q, c) => s.launch? q c

/-- Mark the running command of a launch with NX (R201, R238). -/
def State.markNx (s : State) (q c : Nat) : State :=
  (s.modCmd q c fun x => { x with nx := true }).modLaunch q c fun l => { l with nx := true }

/-- A shard of a launch loses deferred work: it is not finalised (R251). -/
def State.loseShard (s : State) (q c shard : Nat) : State := s.modLaunch q c fun l => { l with lost := shard :: l.lost }

/-- A tile's queued descriptors are discarded; their shards are lost, and so is that of its body, which runs to its end (R251). -/
def State.discardQueue (s : State) (q c t : Nat) : State :=
  let x := s.tile t
  let shards := x.deferred.map (·.shard) ++ (x.body.map (·.desc.shard)).toList
  (shards.foldl (fun s k => s.loseShard q c k) s).modTile t fun x => { x with deferred := [] }

/-- A launch takes its first fault, and discards its queued descriptors; later faults change nothing (R134, R251). -/
def State.launchFault (s : State) (q c status detail tile bundle : Nat) : State :=
  match s.launch? q c with
  | none => s
  | some l =>
    if l.fault.isSome then s
    else (s.modLaunch q c fun l => { l with fault := some ⟨status, detail, tile, bundle⟩ }).each l.tiles fun t s => s.discardQueue q c t

/-- A running command is to end early, at its next abort point (R82, R84, R85): the first to ask decides its status. The queued descriptors of a
launch are discarded (R251). -/
def State.stopCmd (s : State) (q : Nat) (x : Cmd) (status : Nat) : State :=
  if x.stop.isSome then s
  else
    let s := s.modCmd q x.num fun y => { y with stop := some status }
    match s.launch? q x.num with
    | none => s
    | some l => s.each l.tiles fun t s => s.discardQueue q x.num t

/-- An end has been asked of a running command (R82, R85). -/
def State.stopAsked (s : State) (q c : Nat) : Bool := (s.cmd? q c).any fun x => x.stop.isSome

/-- The launch of a tile ends early: it has faulted, or its command is to end (R251). -/
def State.launchEnds (s : State) (t : Nat) : Bool :=
  match s.tileLaunch t with
  | some l => l.fault.isSome || (s.cmd? l.queue l.cmd).any fun x => x.stop.isSome
  | none => false

-- # Register names for the write check (R104)

def keyS (i : Nat) : Nat := i
def keyV (i : Nat) : Nat := 100 + i
def keyP (i : Nat) : Nat := 200 + i
def keyA (set : Bool) : Nat := 300 + b2n set

-- # Phases of a tile (R266)

/-- Change the phase of a tile, adding the time it spent in the phase it leaves (R266). -/
def State.setPhase (s : State) (t k : Nat) : State :=
  s.modTile t fun x =>
    { x with phase := k, since := s.now, phaseNs := NMap.update x.phaseNs x.phase 0 (· + (s.now - x.since)) }

/-- A bundle does not issue: the tile goes back to the registers that the bundle found, and nothing of its slots' operations stays, but that
its wait is over (R103, R130). The bundle is presented anew from its first operation, or from the one after its wait. -/
def Tile.rollback (x : Tile) : Tile :=
  { x with
    core := x.snap.getD x.core, run := if x.snap.isSome then x.snapRun else x.run, snap := none, snapRun := none
    used := if x.met.isSome then [.c] else [], wrote := match x.met with | some (some p) => [keyP p.1] | _ => []
    effects := [], target := none }

/-- A tile stops at its bundle, and its deferred body with it: it goes back to the registers that the bundle found, and does nothing of it
(R134). -/
def Tile.halt (x : Tile) : Tile :=
  { ({ x with met := none } : Tile).rollback with hold := none, body := none, ending := false, stopped := true }

/-- An instruction of a tile faults: the tile stops, and its launch takes the fault; the shard of a deferred body that faults is lost (R134,
R251, Table 3-17). -/
def State.tileFault (s : State) (t status detail : Nat) : State :=
  let x := s.tile t
  let s := (s.setTile t x.halt).setPhase t 9
  match x.launch with
  | none => s
  | some (q, c) =>
    let s := s.launchFault q c status detail t x.bundle
    match x.body with
    | some b => s.loseShard q c b.desc.shard
    | none => s

-- # Steps

/-- Change the open step of a context. -/
def State.modStep (s : State) (ctx : Nat) (f : Step → Step) : State :=
  match NMap.get? s.steps ctx with
  | none => s
  | some p => { s with steps := NMap.set s.steps ctx (f p) }

/-- The result of a replay, with the first mismatch and its shard (EXC_REPLAY_STATUS). -/
def State.showReplay (s : State) (ctx result point shard : Nat) : State :=
  ((s.setFld F.EXC_REPLAY_STATUS_RESULT ctx result).setFld F.EXC_REPLAY_STATUS_POINT ctx point).setFld F.EXC_REPLAY_STATUS_SHARD ctx shard

/-- A device activity of a phase begins, or ends (R266). -/
def State.activityIn (s : State) (ctx k : Nat) : State :=
  s.modStep ctx fun p =>
    { p with activity := NMap.update p.activity k ⟨0, 0, 0⟩ fun a =>
        { a with count := a.count + 1, since := if a.count = 0 then s.now else a.since } }

def State.activityOut (s : State) (ctx k : Nat) : State :=
  s.modStep ctx fun p =>
    { p with activity := NMap.update p.activity k ⟨0, 0, 0⟩ fun a =>
        { a with count := a.count - 1, total := if a.count = 1 then a.total + (s.now - a.since) else a.total } }

-- # Pairs

/-- A launch runs an open step from which this device's replica is dropped (R510). -/
def State.dropped (s : State) (l : Launch) : Bool := l.isStep && s.flag F.PAIR_CTX_STATE_DROPPED l.ctx

/-- The comparison of a shard that has not ended, its pass on this device being over. -/
def State.cmp? (s : State) (ctx shard : Nat) : Option PairCmp := s.cmps.find? fun c => c.ctx == ctx && c.shard == shard && c.own.isSome

/-- An owned shard's comparison, or a repair of it, has not ended: its working copy does not leave, and its next pass does not start
(R501, R504). -/
def State.comparing (s : State) (ctx shard : Nat) : Bool := (s.cmp? ctx shard).isSome

end Sys2Proof.Machine
end

