-- ==== Sys2Proof/Machine/Image.lean ====
section
/-! DEFINITION. The image container (R136, R137) its tie groups (R252) and the microprograms of its UPDATE section (R294, R296). -/

namespace Sys2Proof.Machine

/-- Bytes of an image as a number. -/
def imageNat (img : List Byte) (off n : Nat) : Nat := leNat ((img.drop off).take n)

/-- The section-table entries of an image: type, flags, offset and length (R137). -/
def imageSections (img : List Byte) : List (Nat × Nat × Nat × Nat) :=
  (List.range (imageNat img 16 2)).map fun i =>
    let a := 64 + 16 * i
    (imageNat img a 2, imageNat img (a + 2) 2, imageNat img (a + 4) 4, imageNat img (a + 8) 4)

/-- The first section of a type: its offset and length. -/
def imageSection (img : List Byte) (ty : Nat) : Option (Nat × Nat) :=
  ((imageSections img).find? fun x => x.1 == ty).map fun x => (x.2.2.1, x.2.2.2)

/-- The tie-use records by offset: group, use, reserved byte (R252). -/
def imageTies (img : List Byte) : List (Nat × Nat × Nat × Nat) :=
  match imageSection img 4 with
  | none => []
  | some (s, n) =>
    (List.range (min (imageNat img (s + 4) 4) (n / 8))).map fun i =>
      let o := s + 8 + 64 * imageNat img s 4 + 8 * i
      (o, imageNat img o 2, imageNat img (o + 2) 1, imageNat img (o + 3) 1)

/-- The tie groups of an image, each with the tensors of its uses' gradient buffers in the order of the uses. -/
def tieGroups (img : List Byte) : List (Nat × List Nat) :=
  let l := imageTies img
  (l.filter fun x => x.2.2.1 == 0).map fun x =>
    (x.2.1, (List.range 16).filterMap fun u => (l.find? fun y => y.2.1 == x.2.1 && y.2.2.1 == u).map fun y => imageNat img (y.1 + 4) 4)

/-- An update microprogram (Table 8-4). -/
structure Micro where
  planes : Nat
  skBeta : Nat
  consts : List Nat
  words  : List Nat
deriving DecidableEq, Repr

/-- The microprogram record at an offset, and the offset after it. -/
def microAt (img : List Byte) (a : Nat) : Micro × Nat :=
  let n := imageNat img a 2
  (⟨imageNat img (a + 2) 2, imageNat img (a + 4) 1, (List.range 8).map (fun i => imageNat img (a + 8 + 4 * i) 4),
    (List.range n).map fun i => imageNat img (a + 64 + 4 * i) 4⟩, a + 64 + 4 * n)

/-- The microprograms of an image in index order (R294). -/
def microsFrom (img : List Byte) : Nat → Nat → List Micro
  | 0, _ => []
  | n + 1, a => let r := microAt img a; r.1 :: microsFrom img n r.2

/-- The microprograms of an image. -/
def imageMicros (img : List Byte) : List Micro :=
  match imageSection img 5 with
  | none => []
  | some (a, _) => microsFrom img (min 64 (imageNat img a 4)) (a + 4)

/-- The bound program of a context's handle; a load that found no free handle stands beyond them until it ends (R65, R66). -/
def State.program? (s : State) (ctx handle : Nat) : Option Program :=
  if handle = 0 ∨ 1023 < handle then none else NMap.get? s.programs (2 ^ 32 * ctx + handle)

end Sys2Proof.Machine
end

