-- ==== Sys2Proof/Machine/Numeric.lean ====
section
/-! DEFINITION. Numbers: the element formats (R216 to R218), exact values, and rounding done once at the end (R116,
R187, R222). A value is a sign, a whole significand and a power of two; every sum and product is exact until one
function rounds it to a format. -/

namespace Sys2Proof.Machine

/-- What an encoding stands for: a NaN (signalling or not), an infinity, or `(-1)^s * m * 2^e` exactly. -/
inductive Num where
  | nan (signalling : Bool)
  | inf (s : Bool)
  | fin (s : Bool) (m : Nat) (e : Int)
deriving DecidableEq, Repr

/-- A floating-point element format (Table 6-1): fraction bits, exponent bits, bias, the encoding of its largest finite
magnitude, of +∞ and of its canonical quiet NaN where it has them (R217). -/
structure FFmt where
  eb     : Nat
  fb     : Nat
  bias   : Nat
  maxFin : Nat
  inf    : Option Nat
  nan    : Option Nat
deriving DecidableEq, Repr

def fp32 : FFmt := ⟨8, 23, 127, 0x7F7FFFFF, some 0x7F800000, some 0x7FC00000⟩
def bf16 : FFmt := ⟨8, 7, 127, 0x7F7F, some 0x7F80, some 0x7FC0⟩
def fp16 : FFmt := ⟨5, 10, 15, 0x7BFF, some 0x7C00, some 0x7E00⟩
def e4m3 : FFmt := ⟨4, 3, 7, 0x7E, none, some 0x7F⟩
def e5m2 : FFmt := ⟨5, 2, 15, 0x7B, some 0x7C, some 0x7E⟩
def e3m2 : FFmt := ⟨3, 2, 3, 0x1F, none, none⟩
def e2m3 : FFmt := ⟨2, 3, 1, 0x1F, none, none⟩
def e2m1 : FFmt := ⟨2, 1, 1, 0x7, none, none⟩

/-- The bits of one element. -/
def FFmt.width (f : FFmt) : Nat := 1 + f.eb + f.fb

/-- The exponent of the smallest subnormal: the finest grid step of the format. -/
def FFmt.qmin (f : FFmt) : Int := 1 - (f.bias : Int) - f.fb

/-- The sign bit of an encoding. -/
def FFmt.sign (f : FFmt) (bits : Nat) : Bool := bits.testBit (f.eb + f.fb)

/-- The encoding without its sign. -/
def FFmt.mag (f : FFmt) (bits : Nat) : Nat := bits % 2 ^ (f.eb + f.fb)

/-- Put a sign on a magnitude encoding. -/
def FFmt.withSign (f : FFmt) (s : Bool) (mag : Nat) : Nat := mag + if s then 2 ^ (f.eb + f.fb) else 0

/-- The value of an encoding (R216, R217). -/
def FFmt.decode (f : FFmt) (bits : Nat) : Num :=
  let s := f.sign bits
  let g := f.mag bits
  if f.nan.isSome && decide (f.inf.getD f.maxFin < g) then .nan (f.inf.isSome && !g.testBit (f.fb - 1))
  else if f.inf = some g then .inf s
  else
    let e := g / 2 ^ f.fb
    let m := g % 2 ^ f.fb
    if e = 0 then .fin s m f.qmin else .fin s (m + 2 ^ f.fb) (f.qmin + e - 1)

/-- The encoding is a subnormal of its format (the flushing of R241). -/
def FFmt.subnormal (f : FFmt) (bits : Nat) : Bool :=
  decide (f.mag bits ≠ 0) && decide (f.mag bits < 2 ^ f.fb)

/-- Rounding modes (R222): nearest even, toward zero, stochastic with a threshold of so many bits. -/
inductive RMode where
  | nearest
  | zero
  | stoch (u bits : Nat)
deriving DecidableEq, Repr

/-- `2 ^ max 0 z`. -/
def pow2 (z : Int) : Nat := 2 ^ z.toNat

/-- Round the quotient `n / d` to a whole number (R222). -/
def roundQuot (rm : RMode) (n d : Nat) : Nat :=
  let k := n / d
  let r := n % d
  if r = 0 then k
  else match rm with
    | .nearest => if 2 * r < d then k else if d < 2 * r then k + 1 else k + k % 2
    | .zero => k
    | .stoch u bits => if u < r * 2 ^ bits / d then k + 1 else k

/-- The exponent of the leading bit of `n / d` (both positive). -/
def ilog2Quot (n d : Nat) : Int :=
  let l : Int := (Nat.log2 n : Int) - Nat.log2 d
  if d * pow2 l ≤ n * pow2 (-l) then l else l - 1

/-- Round `n / d * 2^e` to the grid of a format that goes on past its largest finite magnitude, as the encoding that
the grid's next step would have: consecutive encodings are consecutive magnitudes (R216, R222). -/
def FFmt.roundMag (f : FFmt) (rm : RMode) (n d : Nat) (e : Int) : Nat :=
  if n = 0 then 0
  else
    let l := ilog2Quot n d + e
    let q := max (l - f.fb) f.qmin
    let k := roundQuot rm (n * pow2 (e - q)) (d * pow2 (q - e))
    (q - f.qmin).toNat * 2 ^ f.fb + k

/-- Encode a value with one rounding, overflowing to infinity as IEEE 754-2019 does (R116, R187). -/
def FFmt.encode (f : FFmt) (rm : RMode) : Num → Nat
  | .nan _ => f.nan.getD 0
  | .inf s => f.withSign s (f.inf.getD f.maxFin)
  | .fin s m e =>
    let g := f.roundMag rm m 1 e
    f.withSign s (if f.maxFin < g then f.inf.getD f.maxFin else g)

/-- Encode a quotient of a sign and two whole numbers, with one rounding. -/
def FFmt.encodeQuot (f : FFmt) (s : Bool) (n d : Nat) (e : Int) : Nat :=
  let g := f.roundMag .nearest n d e
  f.withSign s (if f.maxFin < g then f.inf.getD f.maxFin else g)

-- # Exact arithmetic on values

/-- The signed significand. -/
def sgn (s : Bool) (m : Nat) : Int := if s then -(m : Int) else m

/-- A value as a signed whole number at an exponent at or below its own. -/
def Num.at (q : Int) : Num → Int
  | .fin s m e => sgn s m * pow2 (e - q)
  | _ => 0

/-- The exponent of a value. -/
def Num.exp : Num → Int
  | .fin _ _ e => e
  | _ => 0

def Num.isNan : Num → Bool | .nan _ => true | _ => false
def Num.isSnan : Num → Bool | .nan s => s | _ => false
def Num.isInf : Num → Bool | .inf _ => true | _ => false
def Num.isZero : Num → Bool | .fin _ m _ => m == 0 | _ => false
def Num.sgnBit : Num → Bool | .nan _ => false | .inf s => s | .fin s _ _ => s
def Num.finite : Num → Bool | .fin _ _ _ => true | _ => false

/-- Change the sign. -/
def Num.negate : Num → Num
  | .nan q => .nan q
  | .inf s => .inf (!s)
  | .fin s m e => .fin (!s) m e

/-- A signed whole number at an exponent as a value; zero takes the sign given. -/
def Num.ofInt (z : Int) (e : Int) (zeroSign : Bool) : Num :=
  if z = 0 then .fin zeroSign 0 e else .fin (decide (z < 0)) z.natAbs e

/-- The exact sum, and whether it raises invalid (R187, R231): a signalling operand, or opposite infinities. -/
def Num.add (a b : Num) : Num × Bool :=
  let snan := a.isSnan || b.isSnan
  match a, b with
  | .nan _, _ => (.nan false, snan)
  | _, .nan _ => (.nan false, snan)
  | .inf s, .inf t => if s = t then (.inf s, false) else (.nan false, true)
  | .inf s, _ => (.inf s, false)
  | _, .inf s => (.inf s, false)
  | .fin s m e, .fin t n f =>
    let q := min e f
    let z := sgn s m * pow2 (e - q) + sgn t n * pow2 (f - q)
    (Num.ofInt z q (s && t && m == 0 && n == 0), false)

/-- The exact product, and whether it raises invalid (R186, R231): a signalling operand, or zero times infinity. -/
def Num.mul (a b : Num) : Num × Bool :=
  let snan := a.isSnan || b.isSnan
  match a, b with
  | .nan _, _ => (.nan false, snan)
  | _, .nan _ => (.nan false, snan)
  | .inf s, .inf t => (.inf (s != t), false)
  | .inf s, .fin t n _ => if n = 0 then (.nan false, true) else (.inf (s != t), false)
  | .fin t n _, .inf s => if n = 0 then (.nan false, true) else (.inf (s != t), false)
  | .fin s m e, .fin t n f => (.fin (s != t) (m * n) (e + f), false)

/-- `a < b` for values that are no NaN; zeros compare equal. -/
def Num.lt (a b : Num) : Bool :=
  match a, b with
  | .nan _, _ => false
  | _, .nan _ => false
  | .inf s, .inf t => s && !t
  | .inf s, _ => s
  | _, .inf t => !t
  | .fin s m e, .fin t n f =>
    let q := min e f
    decide (sgn s m * pow2 (e - q) < sgn t n * pow2 (f - q))

/-- Equal values; zeros are equal whatever their signs, a NaN equals nothing. -/
def Num.eq (a b : Num) : Bool := !a.isNan && !b.isNan && !a.lt b && !b.lt a

/-- `a` is greater than `b` in the order of maximum and minimum: +0 is greater than −0 (R205, R231). -/
def Num.above (a b : Num) : Bool := b.lt a || (a.isZero && b.isZero && !a.sgnBit && b.sgnBit)

-- # Functions of one operand, correctly rounded (R116)

/-- The whole square root, by Newton's steps from above. -/
def isqrtAux : Nat → Nat → Nat → Nat
  | 0, _, x => x
  | k + 1, n, x =>
    let y := (x + n / x) / 2
    if y < x then isqrtAux k n y else x

/-- floor(√n). -/
def isqrt (n : Nat) : Nat := if n = 0 then 0 else isqrtAux (Nat.log2 n + 2) n (2 ^ (Nat.log2 n / 2 + 1))

/-- A correctly rounded result from its floor `k` at a grid finer than the format's, with a sticky bit: the value lies
strictly between two grid points unless `exact`. -/
def FFmt.encodeSticky (f : FFmt) (s : Bool) (k : Nat) (exact : Bool) (q : Int) : Nat :=
  f.encode .nearest (.fin s (2 * k + b2n (!exact)) (q - 1))

/-- √a, correctly rounded, of a positive finite value. -/
def FFmt.sqrtPos (f : FFmt) (m : Nat) (e : Int) : Nat :=
  let odd := e % 2 ≠ 0
  let m1 := if odd then 2 * m else m
  let e1 := if odd then e - 1 else e
  let w := 2 ^ 80 * m1
  let k := isqrt w
  f.encodeSticky false k (k * k == w) (e1 / 2 - 40)

/-- 1/√a, correctly rounded, of a positive finite value. -/
def FFmt.rsqrtPos (f : FFmt) (m : Nat) (e : Int) : Nat :=
  let odd := e % 2 ≠ 0
  let m1 := if odd then 2 * m else m
  let e1 := if odd then e - 1 else e
  -- 1 / sqrt(m1 * 2^e1) = sqrt(2^160 / m1) * 2^(-80 - e1/2)
  let w := 2 ^ 160 / m1
  let k := isqrt w
  f.encodeSticky false k (k * k * m1 == 2 ^ 160) (-80 - e1 / 2)

/-- The fraction bits that the power and logarithm below work with. -/
def fracBits : Nat := 160

/-- `2^(r / 2^n) * 2^fracBits`, rounded down, for the low `n` bits of `r`: the product of the repeated square roots of
two that the bits name. -/
def exp2Frac : Nat → Nat → Nat → Nat → Nat
  | 0, _, _, acc => acc
  | n + 1, r, root, acc =>
    let acc' := if r.testBit n then acc * root / 2 ^ fracBits else acc
    exp2Frac n r (isqrt (root * 2 ^ fracBits)) acc'

/-- 2^a, rounded, of a finite value that is no whole number: the exponent's whole part moves the point, the fraction
goes through `exp2Frac`. -/
def FFmt.exp2Fin (f : FFmt) (s : Bool) (m : Nat) (e : Int) : Nat :=
  if decide (Nat.log2 m + e > 12) then f.withSign false (if s then 0 else f.inf.getD f.maxFin)
  else if e ≥ 0 then f.encode .nearest (.fin false 1 (sgn s m * pow2 e))
  else
    let n := (-e).toNat
    let z := sgn s m
    let whole := z / (2 ^ n : Int)
    let frac := (z % (2 ^ n : Int)).toNat
    if frac = 0 then f.encode .nearest (.fin false 1 whole)
    else
      let root := isqrt (2 * 2 ^ (2 * fracBits))
      let k := exp2Frac n frac root (2 ^ fracBits)
      f.encodeSticky false k false (whole - fracBits)

/-- The next fraction bits of log2 y for `2^w ≤ y < 2^(w+1)`, by squaring; `acc` holds the bits found so far. -/
def log2Frac : Nat → Nat → Nat → Nat → Nat
  | 0, _, _, acc => acc
  | n + 1, w, y, acc =>
    let y2 := y * y / 2 ^ w
    if 2 ^ (w + 1) ≤ y2 then log2Frac n w (y2 / 2) (2 * acc + 1) else log2Frac n w y2 (2 * acc)

/-- log2 a, rounded, of a positive finite value. -/
def FFmt.log2Pos (f : FFmt) (m : Nat) (e : Int) : Nat :=
  let l := Nat.log2 m
  let n : Int := l + e
  if m = 2 ^ l then f.encode .nearest (Num.ofInt n 0 false)
  else
    let y := 2 ^ (256 - l) * m
    let frac := log2Frac 110 256 y 0
    let z : Int := 2 * (2 ^ 110 * n + frac) + 1
    f.encode .nearest (Num.ofInt z (-111) false)

/-- floor(log2 v) of a positive value. -/
def Num.ilog2 : Num → Int
  | .fin _ m e => Nat.log2 m + e
  | _ => 0

end Sys2Proof.Machine
end

