-- ==== Sys2Proof/Machine/Flags.lean ====
section
/-! DEFINITION. What an operation leaves beside its result: the sticky INV flags (R181), the exception record with its
policies (R201, R238 to R240), and comparisons as they set predicates (Tables 3-11 and 3-15). -/

namespace Sys2Proof.Machine

-- # The sticky invalid flags (R181, EXC_NUM_INV)

/-- The bit of EXC_NUM_INV that is INV of a set of a tile, with its word. -/
def invPlace (ctx tile : Nat) (set : Bool) : Nat × Nat := (ctx * 16 + tile / 32, 2 * (tile % 32) + b2n set)

/-- INV of a set of a tile. -/
def State.inv (s : State) (ctx tile : Nat) (set : Bool) : Bool :=
  let (i, b) := invPlace ctx tile set
  (s.reg .EXC_NUM_INV i).toNat.testBit b

/-- Set or clear INV of a set of a tile. -/
def State.setInv (s : State) (ctx tile : Nat) (set v : Bool) : State :=
  let (i, b) := invPlace ctx tile set
  s.setFld ⟨.EXC_NUM_INV, b, 1⟩ i (b2n v)

-- # The exception record (R238 to R240)

/-- The index of an entry's registers. -/
def numIdx (ctx i : Nat) : Nat := ctx * 64 + i

/-- Write an entry: into the next place where there is one, otherwise dropped and counted.
The answer is the entry's index, or 0xFFFF_FFFF when the record was full (R239, R240). -/
def State.recordNum (s : State) (ctx : Nat) (e : NumEntry) : Nat × State :=
  let n := s.fld F.EXC_NUM_STATE_COUNT ctx
  if n < 64 then
    let i := numIdx ctx n
    let s := s.setReg .EXC_NUM_E0 i (BitVec.ofNat 64 s.now)
    let s := s.setReg .EXC_NUM_E1 i (BitVec.ofNat 64
      (2 ^ 60 * e.cls + 2 ^ 58 * e.slot + 2 ^ 57 * b2n e.her + 2 ^ 56 * e.set + 2 ^ 50 * e.opcode + 2 ^ 41 * e.tile + e.bundle))
    let s := s.setReg .EXC_NUM_E2 i (BitVec.ofNat 64 (2 ^ 56 * e.row + 2 ^ 48 * e.col + e.index % 2 ^ 48))
    let s := s.setReg .EXC_NUM_E3 i (BitVec.ofNat 64 (2 ^ 63 + e.tensor))
    (n, s.setFld F.EXC_NUM_STATE_COUNT ctx (n + 1))
  else (0xFFFFFFFF, s.bumpFld F.EXC_NUM_STATE_LOST ctx 1)

/-- Whether the policy traps on a class (R239): 1 INVALID, 2 OVERFLOW. -/
def traps (policy cls : Nat) : Bool := (policy == 1 && cls == 1) || policy == 2

/-- Record an exception of a tile's launch, mark its command with NX, and end the launch with NUM_EXC where the policy the
launch took at its start traps (R201, R202, R239); a dropped replica records none (R510). -/
def State.numException (s : State) (l : Launch) (e : NumEntry) : State :=
  if s.dropped l then s else
  let (i, s) := s.recordNum l.ctx e
  let s := s.markNx l.queue l.cmd
  let s := s.when (i == 0xFFFFFFFF) fun s => s.modLaunch l.queue l.cmd fun l => { l with numLost := l.numLost + 1 }
  if traps l.trap e.cls then
    let body := (s.tile e.tile).body
    let s := (s.modTile e.tile fun x => { x with stopped := true, body := none, ending := false }).launchFault l.queue l.cmd St.numExc i
      e.tile e.bundle
    match body with
    | some b => s.loseShard l.queue l.cmd b.desc.shard
    | none => s
  else s

-- # Comparisons

/-- A comparison of two values by a VCMP condition, and whether it raises invalid (Table 3-11, R231). -/
def numCompare (cnd : Nat) (a b : Num) : Bool × Bool :=
  let un := a.isNan || b.isNan
  let snan := a.isSnan || b.isSnan
  let inv := snan || (un && decide (2 ≤ cnd) && decide (cnd ≤ 5))
  let r :=
    match cnd with
    | 0 => a.eq b
    | 1 => !a.eq b
    | 2 => a.lt b
    | 3 => !un && !b.lt a
    | 4 => b.lt a
    | 5 => !un && !a.lt b
    | 6 => un
    | _ => !un
  (r, inv)

/-- A comparison of two signed integers by a VCMP condition 0 to 5. -/
def intCompare (cnd : Nat) (a b : Int) : Bool :=
  match cnd with
  | 0 => a == b
  | 1 => a != b
  | 2 => decide (a < b)
  | 3 => decide (a ≤ b)
  | 4 => decide (b < a)
  | _ => decide (b ≤ a)

/-- A comparison of two scalars by an SCMP condition (Table 3-15). -/
def scalarCompare (cnd : Nat) (a b : Word) : Bool :=
  match cnd with
  | 0 => a == b
  | 1 => a != b
  | 2 => a.slt b
  | 3 => a.sle b
  | 4 => b.slt a
  | 5 => b.sle a
  | 6 => a.ult b
  | _ => b.ule a

end Sys2Proof.Machine
end

