-- ==== Sys2Proof/Machine/Crc.lean ====
section
/-! DEFINITION. The check codes: CRC-32C (R368 and every rule that names it), CRC-64 (R499), and the mixing function of the
stochastic-rounding generator (R228). -/

namespace Sys2Proof.Machine

/-- One bit of CRC-32C, least significant bit first. -/
def crc32cBit (c : Nat) : Nat := if c % 2 = 1 then (c / 2) ^^^ 0x82F63B78 else c / 2

/-- Apply a step eight times. -/
def eight (f : Nat → Nat) (c : Nat) : Nat := f (f (f (f (f (f (f (f c)))))))

/-- CRC-32C (Castagnoli) of bytes. The spec names the code and gives no polynomial; log 17. -/
def crc32c (bs : List Byte) : Nat :=
  (bs.foldl (fun c b => eight crc32cBit (c ^^^ b.toNat)) 0xFFFFFFFF) ^^^ 0xFFFFFFFF

/-- One bit of CRC-64 (R499), most significant bit first. -/
def crc64Bit (c : Nat) : Nat :=
  if 2 ^ 63 ≤ c then (c * 2 % 2 ^ 64) ^^^ 0x42F0E1EBA9EA3693 else c * 2 % 2 ^ 64

/-- CRC-64 of bytes, going on from a value (R499). -/
def crc64From (c : Nat) (bs : List Byte) : Nat := bs.foldl (fun c b => eight crc64Bit (c ^^^ (2 ^ 56 * b.toNat))) c

/-- CRC-64 of bytes (R499). -/
def crc64 (bs : List Byte) : Nat := crc64From 0 bs

/-- The mixing function of R228, modulo 2^64. -/
def mix (z : Nat) : Nat :=
  let z := z ^^^ (z / 2 ^ 31)
  let z := 0xD6E8FEB86659FD93 * z % 2 ^ 64
  let z := z ^^^ (z / 2 ^ 29)
  let z := 0xA5CB92431A6DB3C5 * z % 2 ^ 64
  z ^^^ (z / 2 ^ 32)

/-- The random word of a key (R228). -/
def stochWord (j s t x : Nat) : Nat :=
  mix (mix (mix (mix (j ^^^ 0x6A3D2F59C1B87E05) ^^^ s) ^^^ t) ^^^ x)

/-- The 24-bit random value `u` (R228). -/
def stochU (j s t x : Nat) : Nat := stochWord j s t x / 2 ^ 40

end Sys2Proof.Machine
end

