-- ==== Sys2Proof/Machine/Route.lean ====
section
/-! DEFINITION. Routing over the links of the site (R387, R388), and the links that traffic waits for (R56). -/

namespace Sys2Proof.Machine

/-- This device's fabric id (R374). -/
def State.deviceId (s : State) : Nat := s.fld F.FAB_ID_ID 0

/-- The state of a port's link: 0 DOWN, 1 TRAIN, 2 DISCOVER, 3 UP, 4 HELD, 5 DISABLED. -/
def State.portState (s : State) (p : Nat) : Nat := s.fld F.FAB_PORT_STATE_STATE p

/-- The coordinate of a device id along a dimension. -/
def siteCoord (v d : Nat) : Nat := if d = 0 then v % 32 else if d = 1 then v / 32 % 32 else v / 1024

/-- The fabric id of torus coordinates (R374). -/
def fabricId (x y z : Nat) : Nat := x + 32 * y + 1024 * z

/-- The extents of the torus. -/
def State.torus (s : State) : Nat × Nat × Nat :=
  (s.fld F.FAB_DIMS_DX_M1 0 + 1, s.fld F.FAB_DIMS_DY_M1 0 + 1, s.fld F.FAB_DIMS_DZ_M1 0 + 1)

/-- The extent of the torus along a dimension. -/
def State.siteSize (s : State) (d : Nat) : Nat := let t := s.torus; if d = 0 then t.1 else if d = 1 then t.2.1 else t.2.2

/-- The other devices of the site. -/
def State.siteOthers (s : State) : List Nat :=
  let (dx, dy, dz) := s.torus
  ((List.range (dx * dy * dz)).map fun i => fabricId (i % dx) (i / dx % dy) (i / (dx * dy))).filter (· != s.deviceId)

/-- The link of a port trains, or meets its peer: it is on its way to UP. -/
def State.linkComing (s : State) (p : Nat) : Bool := s.portState p == 1 || s.portState p == 2

/-- Where a flit for a device goes from here. -/
inductive RouteTo where
  /-- the device is this one -/
  | here
  /-- over a port whose link is UP -/
  | out (p : Nat)
  /-- to a port whose link is on its way to UP: it waits there (R56) -/
  | wait (p : Nat)
  /-- nowhere, from the port that it would take: the destination is bypassed, or neither direction reaches it (R388) -/
  | nowhere (p : Nat)
deriving DecidableEq, Repr

/-- How far a ring of so many positions goes from one coordinate to another in the plus direction. -/
def ringGap (n x y : Nat) : Nat := (y + n - x) % n

/-- How far a port leads around its ring to a coordinate. -/
def State.gapVia (s : State) (p x y : Nat) : Nat :=
  let n := s.siteSize (p / 2)
  if p % 2 = 0 then ringGap n x y else ringGap n y x

/-- The coordinate that a port's link leads to: the peer's that has been discovered, where the link is UP or HELD for what it crosses, and the
next one otherwise (R382, R387). -/
def State.leadsTo (s : State) (p : Nat) : Nat :=
  let d := p / 2
  let n := s.siteSize d
  let a := siteCoord s.deviceId d
  if s.portState p = 3 ∨ (s.portState p = 4 ∧ s.fld F.FAB_PORT_STATE_HELD_WHY p = 4) then siteCoord (s.fld F.FAB_PORT_STATE_PEER p) d
  else if p % 2 = 0 then (a + 1) % n else (a + n - 1) % n

/-- A port's link passes over a coordinate: what stands there is bypassed. A peer that is this device itself has passed over all others. -/
def State.passesOver (s : State) (p b : Nat) : Bool :=
  let a := siteCoord s.deviceId (p / 2)
  let c := s.leadsTo p
  decide (s.gapVia p a b < if c = a then s.siteSize (p / 2) else s.gapVia p a c)

/-- The links to a coordinate through a port: its own, and one for each position beyond the peer that it leads to. -/
def State.linksTo (s : State) (p b : Nat) : Nat := s.gapVia p (s.leadsTo p) b + 1

/-- The other port of a dimension. -/
def otherWay (p : Nat) : Nat := if p % 2 = 0 then p + 1 else p - 1

/-- What a port's link offers: it is UP, or on its way. -/
def State.offers (s : State) (p : Nat) : Option RouteTo :=
  if s.portState p = 3 then some (.out p) else if s.linkComing p then some (.wait p) else none

/-- The route to a device of a flit that has come in through a port, or is this device's own, along the first dimension in which they differ:
the direction with fewer links, counted from the discovered peer ids, plus on a tie; a flit that travels the dimension already goes on as it does;
where that link is neither UP nor on its way (R56), the other way, unless the flit has turned in this dimension before (R387, R388; log 91). -/
def State.routeVia (s : State) (inp : Option Nat) (src dst : Nat) : RouteTo :=
  match (List.range 3).find? fun d => siteCoord s.deviceId d != siteCoord dst d with
  | none => .here
  | some d =>
    let b := siteCoord dst d % s.siteSize d
    let plus := 2 * d
    let short := if s.linksTo plus b ≤ s.linksTo (plus + 1) b then plus else plus + 1
    let travels := inp.elim false fun i => i / 2 == d
    let p := match inp with
      | some i => if travels then otherWay i else short
      | none => short
    let a := siteCoord src d % s.siteSize d
    let first := if s.gapVia plus a b ≤ s.gapVia (plus + 1) a b then plus else plus + 1
    if s.passesOver plus b || s.passesOver (plus + 1) b then .nowhere p
    else match s.offers p with
      | some r => r
      | none => if travels && p != first then .nowhere p else (s.offers (otherWay p)).getD (.nowhere p)

/-- The route of this device's own traffic to a device. -/
def State.routeTo (s : State) (dst : Nat) : RouteTo := s.routeVia none s.deviceId dst

/-- The port of an UP link that leads toward a device. -/
def State.route (s : State) (dst : Nat) : Option Nat := match s.routeTo dst with | .out p => some p | _ => none

end Sys2Proof.Machine
end

