-- ==== Sys2Proof/Machine/Link.lean ====
section
/-! DEFINITION. The link layer of the fabric (R377 to R380): flits and their bytes, the ports with their credits and replay buffers, and how
this device's own messages leave as flits. -/

namespace Sys2Proof.Machine

-- # Ports (R375, R378)

/-- A port that has sent and received nothing. -/
def Port.fresh : Port := ⟨0, [], 0, 0, [], [], 0, 0, none, none, none, 0, false, 0, 0⟩

/-- A port. -/
def State.port (s : State) (p : Nat) : Port := NMap.getD s.ports p Port.fresh

def State.modPort (s : State) (p : Nat) (f : Port → Port) : State := { s with ports := NMap.set s.ports p (f (s.port p)) }

/-- The last LSEQ accepted in order. -/
def Port.lack (x : Port) : Nat := (x.expect + 4095) % 4096

-- # Flits (R377)

/-- The contents of a TIME, a DISCOVER and a LINK flit, each with its size in bytes; no rule lays them out (log 113). -/
def FlitBody.fields : FlitBody → List (Nat × Nat)
  | .time t1 t3 t4 => [(t1, 8), (t3, 8), (t4, 8)]
  | .discover id port dx dy dz => [(id, 2), (port, 1), (dx, 1), (dy, 1), (dz, 1)]
  | .credits vc n => [(vc, 1), (n, 2)]
  | _ => []

/-- How many bytes contents take. -/
def fieldBytes (l : List (Nat × Nat)) : Nat := l.foldl (fun n f => n + f.2) 0

/-- Contents as bytes, in a layout that no rule gives: each byte is a free function of the kind and the contents (log 113). -/
def freeBytes (kind : Nat) (l : List (Nat × Nat)) : List Byte :=
  (List.range (fieldBytes l)).map fun i => Config.messageByte kind (l.map (·.1)) i

/-- The payload bytes in use. -/
def FlitBody.payload (b : FlitBody) (typ : Nat) : List Byte := match b with | .bytes l => l | b => freeBytes typ b.fields

/-- A flit of the link itself: of no stream, with its contents. -/
def Flit.bare (typ src : Nat) (body : FlitBody) : Flit := ⟨typ, 0, src, 0, false, 0, fieldBytes body.fields, 0, 0, body⟩

/-- The 252 bytes of a flit before its CRC (Table 11-2); the bytes of PAYLOAD past LEN are free (log 113). -/
def Flit.body252 (f : Flit) (lseq lack : Nat) (nak : Bool) : List Byte :=
  let used := f.body.payload f.typ
  leBytes 2 f.dst ++ leBytes 2 f.src ++ leBytes 1 f.typ ++ leBytes 1 (64 * f.vc + 32 * b2n f.last + f.attempt % 16) ++ leBytes 2 f.len
    ++ leBytes 4 f.stream ++ leBytes 4 f.index
    ++ (List.range 232).map (fun i => used.getD i (Config.flitPad i))
    ++ leBytes 2 lseq ++ leBytes 2 (32768 * b2n nak + lack)

/-- The 256 bytes of a flit: its CRC is the CRC-32C of the others. -/
def Flit.wire (f : Flit) (lseq lack : Nat) (nak : Bool) : List Byte :=
  let b := f.body252 lseq lack nak
  b ++ leBytes 4 (crc32c b)

/-- A flit leaves a port, with its LSEQ and the port's LACK. -/
def State.putFlit (s : State) (p : Nat) (f : Flit) (lseq : Nat) (nak : Bool) : State :=
  let lack := (s.port p).lack
  s.emit (.flit p f lseq lack nak (f.wire lseq lack nak))

/-- Send an IDLE flit that carries only the acknowledgement. -/
def State.sendIdle (s : State) (p : Nat) (nak : Bool) : State := s.putFlit p (Flit.bare 0 s.deviceId .none) 0 nak

/-- Send a sequenced flit: it takes the next LSEQ and a place in the replay buffer. -/
def State.sendFlit (s : State) (p : Nat) (f : Flit) : State :=
  let x := s.port p
  (s.modPort p fun x => { x with next := (x.next + 1) % 4096, buffer := x.buffer ++ [(x.next, f)] }).putFlit p f x.next false

/-- The place that a flit took in this device's buffer is given back to the peer that it came from, in a LINK flit (R380). -/
def State.giveBack (s : State) (came : Option (Nat × Nat)) : State :=
  match came with
  | some (p, vc) => s.putFlit p (Flit.bare 5 s.deviceId (.credits vc 1)) 0 false
  | none => s

/-- A collective has been posted: the flits of its TAG that were held take no more of this device's buffers (R397). -/
def State.takeHeld (s : State) (tag : Nat) : State :=
  let mine (q : Flit × Option (Nat × Nat)) : Bool := q.1.stream == tag
  let owed := (s.inbox.filter mine).map (·.2)
  ({ s with inbox := s.inbox.map fun q => if mine q then (q.1, none) else q } : State).each owed fun came s => s.giveBack came

-- # What waits to be sent (R380)

/-- How many flits a replay buffer holds for all but a DISCOVER, which finds the last place (R378; log 113). -/
def replayRoom : Nat := 1023

/-- The first waiting flit that has a credit: CTRL channels before BULK channels. -/
def Port.ready (x : Port) : Option (Flit × Option (Nat × Nat)) :=
  let ok (f : Flit) : Bool := decide (0 < x.credits.getD f.vc 0)
  (x.queue.find? fun f => decide (2 ≤ f.1.vc) && ok f.1).orElse fun _ => x.queue.find? fun f => decide (f.1.vc < 2) && ok f.1

/-- Send what waits at an UP port, as far as credits and the replay buffer reach; a port of lane 0 alone carries none of it (R383). -/
def State.drain : Nat → State → Nat → State
  | 0, s, _ => s
  | n + 1, s, p =>
    let x := s.port p
    if s.portState p ≠ 3 ∨ s.stage < 5 ∨ replayRoom ≤ x.buffer.length then s
    else match x.ready with
      | none => s
      | some f =>
        let s := s.modPort p fun x => { x with
          queue := x.queue.erase f
          credits := x.credits.zipIdx.map fun c => if c.2 = f.1.vc then c.1 - 1 else c.1 }
        State.drain n ((s.sendFlit p f.1).giveBack f.2) p

def State.drainPort (s : State) (p : Nat) : State := State.drain (s.port p).queue.length s p

/-- The channel a forwarded flit takes: LO in a new dimension, HI from the wrap link on (R380). -/
def State.outVc (s : State) (inp out vc : Nat) : Nat :=
  let cls := vc / 2 * 2
  let a := siteCoord s.deviceId (inp / 2)
  let b := siteCoord (s.fld F.FAB_PORT_STATE_PEER inp) (inp / 2)
  let wrapped := if inp % 2 = 0 then decide (b < a) else decide (a < b)
  if inp / 2 ≠ out / 2 then cls else if vc % 2 = 1 ∨ wrapped then cls + 1 else cls

/-- A flit that cannot be delivered is discarded and counted (R388). -/
def State.unreachable (s : State) (p dst : Nat) : State :=
  let s := (s.bumpFld F.FAB_UNREACH_COUNT 0 1).setFld F.FAB_UNREACH_LAST_DST 0 dst
  s.raiseLimited 0 ms .device 0x020A 1 p (2 ^ 48 * dst + s.fld F.FAB_UNREACH_COUNT 0)

/-- The port at which earlier flits of the same stream wait: a later one does not pass them (R56). -/
def State.queuedAt (s : State) (f : Flit) : Option Nat :=
  (List.range 6).find? fun p => (s.offers p).isSome && (s.port p).queue.any fun q =>
    q.1.src == f.src && q.1.dst == f.dst && q.1.stream == f.stream

/-- A flit waits at a port, with the port and the channel that it came in by. -/
def State.enqueue (s : State) (p : Nat) (f : Flit) (came : Option (Nat × Nat)) : State :=
  s.modPort p fun x => { x with queue := x.queue ++ [(f, came)] }

/-- Send a flit on its way over the torus: this device's own, or one that has come in by a port and a channel. -/
def State.sendOn (s : State) (f : Flit) (came : Option (Nat × Nat)) : State :=
  let inp := came.map (·.1)
  let on (p : Nat) : State :=
    (s.enqueue p { f with vc := match inp with | some i => s.outVc i p f.vc | none => f.vc / 2 * 2 } came).drainPort p
  match s.queuedAt f with
  | some p => on p
  | none =>
    match s.routeVia inp f.src f.dst with
    | .out p => on p
    | .wait p => on p
    | .nowhere p => (s.unreachable (inp.getD p) f.dst).giveBack came
    | .here => s

/-- What waits at a port that is out of service goes another way, or nowhere (R387, R388); what came in by that port is owed to nobody. -/
def State.rehome (s : State) (p : Nat) : State :=
  if 6 ≤ p then s
  else
    let l := (s.port p).queue
    (s.modPort p fun x => { x with queue := [] }).each l fun q s =>
      s.sendOn { q.1 with vc := q.2.elim q.1.vc (·.2) } q.2

/-- A link has gone down: the places that its flits took are no longer owed. -/
def State.forgetCame (s : State) (p : Nat) : State :=
  let forget (c : Flit × Option (Nat × Nat)) : Flit × Option (Nat × Nat) := (c.1, c.2.filter fun x => x.1 != p)
  { s with
    ports := s.ports.map fun x => (x.1, { x.2 with queue := x.2.queue.map forget })
    inbox := s.inbox.map forget }

-- # This device's own messages

/-- How a message travels: its type, its channel, its attempt and its bytes. -/
structure Parcel where
  typ     : Nat
  vc      : Nat
  attempt : Nat
  bytes   : List Byte

/-- A CTRL message of some contents. -/
def ctrlParcel (kind : Nat) (l : List (Nat × Nat)) : Parcel := ⟨2, 2, 0, freeBytes kind l⟩

/-- Bytes as contents. -/
def byteFields (l : List Byte) : List (Nat × Nat) := l.map fun b => (b.toNat, 1)

/-- How a decision record reads. -/
def Decision.fields (d : Decision) : List (Nat × Nat) := [(d.sum, 4), (d.norm, 4), (d.kappa, 4), (d.reason, 1)] ++ d.k.map (·, 4)

/-- How each message travels (R380, Tables 13-8 and 14-1): the data of a collective as it is; every other with its contents in a layout that no rule
gives (log 113). What does not leave over the fabric has no parcel. -/
def Out.parcel : Out → Option Parcel
  | .part _ _ attempt _ bs => some ⟨1, 0, attempt, bs⟩
  | .gradient c x g e => some ⟨1, 0, 0, freeBytes 1 ([(c, 2), (x, 3)] ++ byteFields (g ++ e))⟩
  | .decision c n d => some (ctrlParcel 2 ([(c, 2), (n, 8)] ++ d.fields))
  | .record c n d => some (ctrlParcel 3 ([(c, 2), (n, 8)] ++ d.fields))
  | .tied c n g u bs => some ⟨1, 0, 0, freeBytes 4 ([(c, 2), (n, 8), (g, 4), (u, 4)] ++ byteFields bs)⟩
  | .partialSum c n v => some (ctrlParcel 5 [(c, 2), (n, 8), (v, 4)])
  | .digest c x _ n b l m => some (ctrlParcel 6 ([(c, 2), (x, 3), (n, 8), (b, 4)] ++ l.map (·, 8) ++ m.map (·, 4)))
  | .repair c x b bs => some ⟨1, 1, 0, freeBytes 7 ([(c, 2), (x, 3), (b, 4)] ++ byteFields bs)⟩
  | .copy c x b bs => some ⟨1, 0, 0, freeBytes 8 ([(c, 2), (x, 3), (b, 4)] ++ byteFields bs)⟩
  | .delta c x r l => some ⟨1, 0, 0, freeBytes 9 ([(c, 2), (x, 3), (r, 4)] ++ l.map (·, 4))⟩
  | .item c _ k _ (.sored a r q bs) => some ⟨1, 0, 0, freeBytes 10 ([(c, 2), (k, 1), (a, 2), (r, 4), (q, 4)] ++ byteFields bs)⟩
  | .item c _ k _ (.msg m a d bs) => some (carrier m (freeBytes 11 ([(c, 2), (k, 1), (m, 1), (a, 2), (d, 2)] ++ byteFields bs)))
  | .report c l k r => some (ctrlParcel 12 [(c, 2), (l, 2), (k, 1), (r, 4)])
  | .entry c bs => some (ctrlParcel 13 ([(c, 2)] ++ byteFields bs))
  | .provisional c r => some (ctrlParcel 14 [(c, 2), (r, 4)])
  | .announce c k u => some (ctrlParcel 15 [(c, 2), (k, 1), (b2n u, 1)])
  | .credit c d n => some (ctrlParcel 16 [(c, 2), (d, 2), (n, 4)])
  | .soredium c d bs => some ⟨1, 0, 0, freeBytes 17 ([(c, 2), (d, 2)] ++ byteFields bs)⟩
  | .message c d k a m bs => some (carrier m (freeBytes 18 ([(c, 2), (d, 2), (k, 1), (a, 2), (m, 1)] ++ byteFields bs)))
  | .counts c d r f a => some (ctrlParcel 19 [(c, 2), (d, 2), (r, 4), (f, 8), (a, 8)])
  | .hello o t n d p st => some { ctrlParcel 20 [(o, 1), (t, 1), (n, 5), (d, 2), (p, 1), (st, 1)] with vc := 3 }
  | .heartbeat n t st f => some { ctrlParcel 21 [(n, 8), (t, 8), (st, 1), (b2n f, 1)] with vc := 3 }
  | .adoption c f a r o d b => some (ctrlParcel 22 [(c, 2), (f, 2), (a, 2), (r, 2), (o, 2), (b2n d, 1), (b2n b, 1)])
  | .rewrite c g r d => some (ctrlParcel 23 [(c, 2), (g, 2), (r, 2), (d, 2)])
  | _ => none
where
  /-- A snapshot's chunks travel on a BULK channel, every other far message on a CTRL one (Table 13-8). -/
  carrier (kind : Nat) (bs : List Byte) : Parcel := if kind = 8 then ⟨1, 0, 0, bs⟩ else ⟨2, 2, 0, bs⟩

/-- A message cut into flits of at most 232 payload bytes. -/
def Parcel.flits (x : Parcel) (src dst stream : Nat) : List Flit :=
  let n := max 1 (ceilDiv x.bytes.length 232)
  (List.range n).map fun i =>
    let part := (x.bytes.drop (232 * i)).take 232
    ⟨x.typ, dst, src, x.vc, i + 1 == n, x.attempt % 16, part.length, stream, i, .bytes part⟩

/-- The STREAM of a message: a collective's TAG, and a number of its own for other traffic (log 113). -/
def Out.stream (o : Out) (own : Nat) : Nat := match o with | .part _ tag _ _ _ => tag | _ => own % 2 ^ 32

/-- The device issues nothing more: a device-fatal fault has ended all work (R47, R506). -/
def State.mute (s : State) : Bool := s.flag F.HIF_STATUS_FATAL 0

/-- Put the flits of a message into this device's fabric queues: toward each device that it is for. -/
def State.carry (s : State) (dsts : List Nat) (o : Out) : State :=
  match o.parcel with
  | none => s
  | some x =>
    ({ s with posted := s.posted + 1 } : State).each (dsts.filter (· != s.deviceId)) fun d t =>
      t.each (x.flits s.deviceId d (o.stream s.posted)) fun f t => t.sendOn f none

/-- Send a message to devices of the site: its flits go their way (R378, R380, R387, R388), and it is sent. -/
def State.post (s : State) (dsts : List Nat) (o : Out) : State := if s.mute then s else (s.carry dsts o).emit o

/-- Put the flits of a message into the queue of MIR, each on the channel of its message (Table 14-1). -/
def State.carryMir (s : State) (o : Out) : State :=
  match o.parcel with
  | none => s
  | some x =>
    (({ s with posted := s.posted + 1 } : State).each (x.flits s.deviceId (s.fld F.PAIR_STATE_TWIN_ID 0) (o.stream s.posted)) fun f t =>
      t.enqueue 6 f none).drainPort 6

/-- Send a message to the twin. -/
def State.postMir (s : State) (o : Out) : State := if s.mute then s else (s.carryMir o).emit o

end Sys2Proof.Machine
end

