-- ==== Sys2Proof/Machine/Track.lean ====
section
/-! DEFINITION. Tracked tensors (R232 to R237): descriptors and scale entries in device memory, what a converted lane leaves in
them, cold blocks, and the roll with its underflow watch. -/

namespace Sys2Proof.Machine

/-- The bytes of a format's elements, in bits (Table 3-5). -/
def fmtBits (code : Nat) : Nat :=
  match code with
  | 0 => 32
  | 1 => 16
  | 2 => 16
  | 7 => 6
  | 8 => 6
  | 9 => 4
  | 0xC => 32
  | 0xD => 32
  | 0xE => 32
  | _ => 8

/-- T_F: the exponent of the largest finite value of a destination format (Table 6-4). -/
def fmtTop (code : Nat) : Int :=
  match code with
  | 0 => 127
  | 1 => 127
  | 2 => 15
  | 4 => 15
  | 6 => 15
  | 3 => 8
  | 5 => 8
  | 7 => 4
  | 8 => 2
  | 9 => 2
  | 0xB => 6
  | 0xC => 30
  | _ => 0

/-- E(v) of R232 from the FP32 bits of a positive magnitude: floor(log2 v), clamped. -/
def expOfBits (b : Nat) : Int :=
  match fp32.decode b with
  | .fin s m e => max (-127) (min 127 (Num.ilog2 (.fin s m e)))
  | _ => 127

-- # Descriptors and entries (Tables 6-3 and 6-4)

/-- The address of a tensor's descriptor (R232). -/
def State.descAddr (s : State) (ctx t : Nat) : Nat := s.fld F.NUM_TENSOR_BASE_ADDR ctx * 64 + 192 * t

/-- A field of a descriptor: its byte offset and length. -/
def State.desc (s : State) (ctx t off n : Nat) : Nat := s.devNat (s.descAddr ctx t + off) n

/-- A tensor is tracked (R232). -/
def State.tracked (s : State) (ctx t : Nat) : Bool :=
  decide (t < s.fld F.NUM_TENSOR_COUNT_COUNT ctx) && (s.desc ctx t 0 1).testBit 7

/-- Write a field of a descriptor and bring its CRC up to date. -/
def State.setDesc (s : State) (ctx t off n v : Nat) : State :=
  let a := s.descAddr ctx t
  let s := s.devWrite (a + off) (leBytes n v)
  s.devWrite (a + 60) (leBytes 4 (crc32c (s.devRead a 60)))

/-- The address of a block's scale entry. -/
def State.entryAddr (s : State) (ctx t b : Nat) : Nat := s.desc ctx t 16 8 + 32 * b

/-- A field of a scale entry. -/
def State.scale (s : State) (ctx t b off n : Nat) : Nat := s.devNat (s.entryAddr ctx t b + off) n

/-- Write a field of a scale entry and bring its CRC up to date. -/
def State.setScale (s : State) (ctx t b off n v : Nat) : State :=
  let a := s.entryAddr ctx t b
  let s := s.devWrite (a + off) (leBytes n v)
  s.devWrite (a + 28) (leBytes 4 (crc32c (s.devRead a 28)))

/-- The number of blocks of a tensor. -/
def State.blocks (s : State) (ctx t : Nat) : Nat := s.desc ctx t 12 4

/-- The block of an element (R232). -/
def State.blockOf (s : State) (ctx t x : Nat) : Nat :=
  match bitsOf (s.desc ctx t 0 1) 2 2 with
  | 1 => x / max 1 (s.desc ctx t 8 4)
  | 2 => x / 2 ^ s.desc ctx t 2 1
  | _ => 0

/-- Mark one block cold: COLD set, no history, exponent 0 (R236). -/
def State.chill (s : State) (ctx t b : Nat) : State :=
  let s := s.setScale ctx t b 0 16 (leNat (List.replicate 16 0x80))
  let s := s.setScale ctx t b 16 1 0
  s.setScale ctx t b 17 1 (s.scale ctx t b 17 1 ||| 1)

/-- Mark every block of a tensor cold, and report it once (R236). -/
def State.chillAll (s : State) (ctx t : Nat) : State :=
  let n := s.blocks ctx t
  let s := s.each (List.range n) fun b s => s.chill ctx t b
  s.raise (.context ctx) 0x0505 0 t n

/-- The descriptor's CRC holds. -/
def State.descGood (s : State) (ctx t : Nat) : Bool :=
  s.desc ctx t 60 4 == crc32c (s.devRead (s.descAddr ctx t) 60)

/-- A failed descriptor: event 0x0509, STREAK, ALARMS and WINDOW cleared, every block cold, the CRC rewritten (R233). -/
def State.healDesc (s : State) (ctx t : Nat) : State :=
  let s := s.raise (.context ctx) 0x0509 1 t (s.desc ctx t 60 4)
  let s := s.devWrite (s.descAddr ctx t + 64) (List.replicate 128 0)
  let s := s.setDesc ctx t 40 4 0
  let s := s.setDesc ctx t 6 2 0
  s.chillAll ctx t

-- # A launch's conversions (R233)

/-- What a launch has converted of a tensor. -/
def Launch.conv (l : Launch) (t : Nat) : Option Conv := l.convs.find? fun c => c.tensor == t

/-- Change what a launch has converted of a tensor. -/
def Launch.modConv (l : Launch) (t : Nat) (f : Conv → Conv) : Launch :=
  { l with convs := l.convs.map fun c => if c.tensor = t then f c else c }

/-- The first conversion of a tensor in a launch checks the descriptor's CRC (R233). -/
def State.openConv (s : State) (q c t : Nat) : State :=
  match s.launch? q c with
  | none => s
  | some l =>
    if (l.conv t).isSome then s
    else
      let s := s.modLaunch q c fun l => { l with convs := l.convs ++ [⟨t, 0, 0, false, []⟩] }
      if s.descGood l.ctx t then s else s.healDesc l.ctx t

/-- A block's entry fails its CRC. -/
def State.entryBad (s : State) (ctx t b : Nat) : Bool :=
  let a := s.entryAddr ctx t b
  s.devNat (a + 28) 4 != crc32c (s.devRead a 28)

/-- A block's first use in a launch: its entry's CRC is checked, and a block that fails it is cold (R236). -/
def State.useBlock (q c t b : Nat) (s : State) : State :=
  match s.launch? q c with
  | none => s
  | some l =>
    if (l.conv t).any (fun v => !v.checked.contains b) && decide (b < s.blocks l.ctx t) then
      let s := s.modLaunch q c fun l => l.modConv t fun v => { v with checked := b :: v.checked }
      s.when (s.entryBad l.ctx t b) fun s => (s.chill l.ctx t b).raise (.context l.ctx) 0x0505 0 t 1
    else s

/-- One lane's part in the tracking of its tensor (R232, R233). -/
def State.trackLane (q c t : Nat) (k : LaneTrack) (s : State) : State :=
  match s.launch? q c with
  | none => s
  | some l =>
    let ctx := l.ctx
    let b := s.blockOf ctx t k.x
    if s.blocks ctx t ≤ b then
      match l.conv t with
      | some v =>
        if v.ranged then s
        else (s.modLaunch q c fun l => l.modConv t fun v => { v with ranged := true }).raise (.context ctx) 0x0507 1 t k.x
      | none => s
    else
      let s := s.useBlock q c t b
      let s := s.modLaunch q c fun l => l.modConv t fun v => { v with n := v.n + 1, uf := v.uf + b2n k.lost }
      let s := s.when (!k.zero) fun s => s.modLaunch q c fun l =>
        if l.nonzero.contains t then l else { l with nonzero := t :: l.nonzero }
      let s := s.when (decide (s.scale ctx t b 20 4 < k.mag)) fun s => s.setScale ctx t b 20 4 k.mag
      s.when k.ovf fun s => s.setScale ctx t b 17 1 (s.scale ctx t b 17 1 ||| 2)

/-- A conversion is about to use these elements of a tracked tensor: the descriptor is checked at the tensor's first use in the launch (R233), and
each block at its own (R236). -/
def State.useElems (s : State) (q c t : Nat) (xs : List Nat) : State :=
  if (s.launch? q c).any s.dropped then s
  else
    let s := s.openConv q c t
    match s.launch? q c with
    | none => s
    | some l => s.each ((xs.map (s.blockOf l.ctx t)).eraseDups) fun b s => s.useBlock q c t b

/-- The lanes of one VCVT of a tracked tensor; a dropped replica tracks nothing (R510). -/
def State.trackLanes (s : State) (q c t : Nat) (ks : List LaneTrack) : State :=
  if (s.launch? q c).any s.dropped then s else
  (s.openConv q c t).each ks (State.trackLane q c t)

-- # The roll (R235) and the underflow watch (R237)

/-- A history byte as a signed number; 0x80 is no data. -/
def histVal (b : Nat) : Int := signedOf 8 b

/-- A signed number as a byte. -/
def byteOfInt (z : Int) : Nat := unsignedOf 8 z

/-- Whether the slot of a step index lies in a run of step indices `lo` to `hi`, both included. -/
def slotIn (lo hi i : Nat) : Bool := (List.range 16).any fun k => decide (lo + k ≤ hi) && (lo + k) % 16 == i

/-- The new exponent of a block (R235), and whether it was clamped from above. -/
def newExp (hist : List Nat) (exp : Int) (top : Int) (margin : Nat) (ovf : Bool) : Int × Bool :=
  let vals := (hist.filter (· != 0x80)).map histVal
  let e := match vals with
    | [] => exp
    | v :: rest => rest.foldl max v - top + margin
  let e := if ovf then max e (exp + 1) else e
  if 127 < e then (127, true) else if e < -127 then (-127, false) else (e, false)

/-- Roll one block for step `st`, with `clear` naming the slots that lost their data (R235, steps 1 to 4). -/
def State.rollBlock (ctx t st last : Nat) (clear : Nat → Bool) (b : Nat) (s : State) : State :=
  let hist := (List.range 16).map fun i => if clear i then 0x80 else s.scale ctx t b i 1
  let run := s.scale ctx t b 20 4
  let e := if run = 0 then 0x80 else byteOfInt (expOfBits run)
  let old := hist.getD (st % 16) 0x80
  let slot := if st = last then (if histVal old < histVal e then e else old) else e
  let hist := hist.set (st % 16) slot
  let s := s.devWrite (s.entryAddr ctx t b) (hist.map (BitVec.ofNat 8))
  let flags := s.scale ctx t b 17 1
  let ovf := flags.testBit 1
  let ctrl := s.desc ctx t 0 1
  let exp := histVal (s.scale ctx t b 16 1)
  let (e2, clamp) :=
    if ctrl.testBit 4 then newExp hist exp (fmtTop (s.desc ctx t 1 1)) (bitsOf ctrl 0 2) ovf else (0, false)
  let s := s.setScale ctx t b 16 1 (byteOfInt e2)
  let s := s.when clamp fun s => s.raise (.context ctx) 0x0506 1 t b
  let s := s.when ovf fun s => s.setScale ctx t b 24 4 (satAdd 0xFFFFFFFF (s.scale ctx t b 24 4) 1)
  let s := s.setScale ctx t b 17 1 ((if ovf then 4 else 0) + (if clamp || flags.testBit 3 then 8 else 0))
  s.setScale ctx t b 20 4 0

/-- The two alarms of a roll (R237). `fresh` is S > L; `zero` says that no converted result of the launch was non-zero. -/
def State.underflowWatch (s : State) (ctx t st : Nat) (fresh zero : Bool) (n : Nat) : State :=
  let streak := s.desc ctx t 6 2
  let alarms := s.desc ctx t 40 4
  let lim := if s.desc ctx t 4 2 = 0 then 64 else s.desc ctx t 4 2
  let streak' := if !zero then 0 else if fresh ∧ 0 < n then satAdd 0xFFFF streak 1 else streak
  let s := s.setDesc ctx t 6 2 streak'
  let s := s.when (decide (streak < streak') && streak' % lim == 0 && !alarms.testBit 9) fun s =>
    s.raise (.context ctx) 0x0503 1 t (2 ^ 48 * streak' + st % 2 ^ 32)
  let frac := if s.desc ctx t 3 1 = 0 then 64 else s.desc ctx t 3 1
  let slots := (List.range 16).map fun i => s.desc ctx t (64 + 8 * i) 8
  let u := (slots.map fun w => w / 2 ^ 32).foldl (· + ·) 0
  let m := (slots.map fun w => w % 2 ^ 32).foldl (· + ·) 0
  if 0 < m ∧ frac * m < 256 * u then
    if alarms.testBit 0 || alarms.testBit 8 then s
    else
      (s.setDesc ctx t 40 4 (alarms ||| 1)).raise (.context ctx) 0x0504 1 t (2 ^ 32 * min u 0xFFFFFFFF + min m 0xFFFFFFFF)
  else s.when (alarms.testBit 0) fun s => s.setDesc ctx t 40 4 (alarms - 1)

/-- The roll is the first use of a block that the launch converted nothing of: an entry that fails its CRC is cold before its history is read,
and the tensor's marking is reported once (R236). -/
def State.coldUnused (s : State) (ctx : Nat) (v : Conv) : State :=
  let bad := (List.range (s.blocks ctx v.tensor)).filter fun b => !v.checked.contains b && s.entryBad ctx v.tensor b
  (s.each bad fun b s => s.chill ctx v.tensor b).when (!bad.isEmpty) fun s => s.raise (.context ctx) 0x0505 0 v.tensor bad.length

/-- The roll of a tracked tensor for step `st`, as part of a launch's completion (R235). -/
def State.roll (s : State) (ctx st : Nat) (nonzero : List Nat) (v : Conv) : State :=
  let t := v.tensor
  let last := s.desc ctx t 24 8
  let never := last = 2 ^ 64 - 1
  if ¬ never ∧ st < last then s.raise (.context ctx) 0x0508 1 t st
  else
    let all := never ∨ last + 16 ≤ st
    let clear (i : Nat) : Bool := if all then true else if last < st then slotIn (last + 1) (st - 1) i else false
    let merge := ¬ never ∧ st = last
    let nb := s.blocks ctx t
    let s := s.coldUnused ctx v
    let ovfs := ((List.range nb).filter fun b => (s.scale ctx t b 17 1).testBit 1).length
    let s := s.each (List.range 16) fun i s => s.when (clear i) fun s => s.devWrite (s.descAddr ctx t + 64 + 8 * i) (leBytes 8 0)
    let a := s.descAddr ctx t + 64 + 8 * (st % 16)
    let old := if merge then s.devNat a 8 else 0
    let s := s.devWrite a (leBytes 8 (2 ^ 32 * min 0xFFFFFFFF (old / 2 ^ 32 + v.uf) + min 0xFFFFFFFF (old % 2 ^ 32 + v.n)))
    let s := s.each (List.range nb) (State.rollBlock ctx t st (if never then 2 ^ 64 else last) clear)
    let s := s.setDesc ctx t 24 8 st
    let s := s.when (decide (0 < ovfs)) fun s => s.raise (.context ctx) 0x0502 1 t (2 ^ 32 * (st % 2 ^ 32) + ovfs)
    let grad := (s.desc ctx t 0 1).testBit 6 && !(s.desc ctx t 0 1).testBit 5
    let s := s.when (grad && decide (0 < ovfs)) fun s => s.setDesc ctx t 32 8 (s.desc ctx t 32 8 + ovfs)
    s.underflowWatch ctx t st (decide (never ∨ last < st)) (!nonzero.contains t) v.n

end Sys2Proof.Machine
end

