-- ==== Sys2Proof/Machine/Shard.lean ====
section
/-! DEFINITION. Shards (R272 to R285): the table and its entries, the planes of the arena, the master value with its extension,
the working copy, and the guard over it. -/

namespace Sys2Proof.Machine

-- # The shard table (R272)

/-- The value of a staged register in the lowest epoch that every instance of its class has adopted (R86, R317). R317 says so of the UPD registers;
what belongs to the device as a whole takes it likewise: the PAIR registers of a context and its groups (DESIGN CHOICE, log 111). -/
def State.stagedAll (s : State) (r : RegName) (i : Nat) (c : EpochClass) : Word :=
  let e := s.classEpoch c
  match s.frozen.findSome? fun p => if p.1 ≤ e then NMap.get? p.2 (r.key i) else none with
  | some v => v
  | none => s.reg r i

/-- A field of a staged register so. -/
def State.stagedFld (s : State) (f : Field) (i : Nat) (c : EpochClass) : Nat := f.of (s.stagedAll f.reg i c)

/-- A shard table entry (Table 8-1). `at` is its address. -/
structure Shard where
  addr       : Nat
  num        : Nat
  tensor     : Nat
  elemFirst  : Nat
  elems      : Nat
  owner      : Nat
  twin       : Nat
  prog       : Nat
  wfmt       : Nat
  planes     : Nat
  flags      : Nat
  rowLen     : Nat
  gradTensor : Nat
  arena      : Nat
  work       : Nat
deriving DecidableEq, Repr

/-- Read the entry at an address. -/
def State.shardAt (s : State) (a : Nat) : Shard :=
  let f (o n : Nat) := s.devNat (a + o) n
  ⟨a, f 0 4, f 4 4, f 8 8, f 16 4, f 20 2, f 22 2, f 24 1, f 25 1, f 26 2, f 28 1, f 32 4, f 36 4, f 40 8, f 48 8⟩

/-- The base and the count of a context's shard table: those its open step took, or those in force (R317). -/
def State.shardTable (s : State) (ctx : Nat) : Nat × Nat :=
  match NMap.get? s.steps ctx with
  | some p => (p.shardBase, p.shardCount)
  | none => (s.stagedFld F.UPD_SHARD_BASE_ADDR ctx .base * 64, s.stagedFld F.UPD_SHARD_COUNT_COUNT ctx .base)

/-- The entries of a context's table. -/
def State.shards (s : State) (ctx : Nat) : List Shard :=
  let t := s.shardTable ctx
  (List.range t.2).map fun i => s.shardAt (t.1 + 64 * i)

/-- The entry of a shard number. -/
def State.shard? (s : State) (ctx num : Nat) : Option Shard := (s.shards ctx).find? fun x => x.num == num

/-- The device owns a shard, or holds its mirror (R273). -/
def State.owns (s : State) (x : Shard) : Bool := x.owner == s.deviceId
def State.mirrors (s : State) (x : Shard) : Bool := x.twin == s.deviceId && x.owner != s.deviceId

/-- The flags of an entry. -/
def Shard.bf16Moments (x : Shard) : Bool := x.flags.testBit 0
def Shard.sketch (x : Shard) : Bool := x.flags.testBit 1
def Shard.stale (x : Shard) : Bool := x.flags.testBit 2

/-- Set the flags byte of an entry and bring its CRC up to date. -/
def State.setShardFlags (s : State) (x : Shard) (flags : Nat) : State :=
  let s := s.devWrite (x.addr + 28) (leBytes 1 flags)
  s.devWrite (x.addr + 60) (leBytes 4 (crc32c (s.devRead x.addr 60)))

/-- Rewrite the owner and the twin of an entry with its CRC (R274). -/
def State.setShardOwner (s : State) (x : Shard) (owner twin flags : Nat) : State :=
  let s := s.devWrite (x.addr + 20) (leBytes 2 owner ++ leBytes 2 twin)
  s.setShardFlags x flags

-- # Planes (Table 8-2, R276)

/-- The update blocks of a shard. -/
def Shard.blocks (x : Shard) : Nat := ceilDiv x.elems 1024

/-- The bytes per element of an element plane. -/
def Shard.width (x : Shard) (q : Nat) : Nat :=
  match q with
  | 1 => 1
  | 2 => 2
  | 4 => if x.bf16Moments then 2 else 4
  | 5 => if x.bf16Moments then 2 else 4
  | _ => 4

/-- A plane is present. -/
def Shard.has (x : Shard) (q : Nat) : Bool := x.planes.testBit q

/-- The rows of a sketched shard. -/
def Shard.rows (x : Shard) : Nat := x.elems / max 1 x.rowLen

/-- The bytes a plane takes in the arena. -/
def Shard.planeSize (x : Shard) (q : Nat) : Nat :=
  match q with
  | 3 => 4 * x.blocks
  | 6 => ceilDiv (4 * x.rows) 64 * 64
  | 7 => ceilDiv (4 * x.rowLen) 64 * 64
  | _ => 1024 * x.blocks * x.width q

/-- The planes in the order of the arena. -/
def planeOrder : List Nat := [0, 1, 2, 3, 4, 5, 8, 9, 10, 11, 12, 6, 7]

/-- Where a plane begins. -/
def Shard.planeAddr (x : Shard) (q : Nat) : Nat :=
  x.arena + (((planeOrder.takeWhile fun p => p != q).filter x.has).map x.planeSize).foldl (· + ·) 0

/-- The bytes of an arena. -/
def Shard.arenaSize (x : Shard) : Nat := ((planeOrder.filter x.has).map x.planeSize).foldl (· + ·) 0

/-- The address of an element in a plane. -/
def Shard.elemAddr (x : Shard) (q i : Nat) : Nat :=
  match q with
  | 3 => x.planeAddr 3 + i / 256
  | 6 => x.planeAddr 6 + 4 * (i / max 1 x.rowLen)
  | 7 => x.planeAddr 7 + 4 * (i % max 1 x.rowLen)
  | _ => x.planeAddr q + i * x.width q

/-- The stack whose engines update a block: where the block's first plane lies (R277). -/
def State.blockStack (s : State) (x : Shard) (b : Nat) : Nat := (s.locate (x.arena + 4096 * b)).1 / 32

-- # The master value (R279 to R281)

/-- The master grid as a format of 31 fraction bits; an FP32 word is its encoding without the low 8 bits. -/
def masterFmt : FFmt := ⟨8, 31, 127, 0x7F7FFFFFFF, some 0x7F80000000, some 0x7FC0000000⟩

/-- A master encoding from the FP32 word and the extension byte. -/
def masterOf (m x : Nat) : Nat := m * 256 + x

/-- The encoding of a master element: for a value that is not finite the byte counts as zero (R279). -/
def State.master (s : State) (x : Shard) (i : Nat) : Nat :=
  let m := s.devNat (x.elemAddr 0 i) 4
  let e := if x.has 1 then s.devNat (x.elemAddr 1 i) 1 else 0
  masterOf m (if (fp32.decode m).finite then e else 0)

/-- round_m (R280): the encoding of the nearest grid value, or none where there is no result. -/
def roundMaster (v : Num) : Option Nat :=
  match v with
  | .fin g m e =>
    if (Num.fin false (2 ^ 32 - 1) (127 - 31)).lt (.fin false m e) then none
    else some (masterFmt.withSign g (masterFmt.roundMag .nearest m 1 e))
  | _ => none

/-- Store a master encoding: MASTER and EXT (R281). -/
def State.storeMaster (s : State) (x : Shard) (i enc : Nat) : State :=
  let s := s.devWrite (x.elemAddr 0 i) (leBytes 4 (enc / 256))
  s.when (x.has 1) fun s => s.devWrite (x.elemAddr 1 i) (leBytes 1 (enc % 256))

-- # The working copy (R282 to R285)

/-- The bytes of a working-copy element. -/
def Shard.workWidth (x : Shard) : Nat := if x.wfmt = 0 then 4 else 2

/-- A master value rounded once to the working-copy format; FP16 saturates (R282). -/
def workBits (wfmt : Nat) (v : Num) : Nat :=
  match wfmt with
  | 0 => fp32.encode .nearest v
  | 1 => bf16.encode .nearest v
  | _ =>
    let b := fp16.encode .nearest v
    if v.finite ∧ fp16.mag b = 0x7C00 then fp16.withSign (fp16.sign b) 0x7BFF else b

/-- Write the working copy of one element from its master (R283). -/
def State.deriveElem (s : State) (x : Shard) (i : Nat) : State :=
  s.devWrite (x.work + i * x.workWidth) (leBytes x.workWidth (workBits x.wfmt (masterFmt.decode (s.master x i))))

/-- Derive the whole working copy of a shard (R285). -/
def State.derive (s : State) (x : Shard) : State := s.each (List.range x.elems) fun i s => s.deriveElem x i

/-- Whether a write touches a shard's guarded range. -/
def Shard.guards (x : Shard) (a n : Nat) : Bool :=
  decide (0 < n) && decide (a < x.work + x.elems * x.workWidth) && decide (x.work < a + n)

/-- A write by a tile, a transfer, a host access or a core to a guarded range makes the shard stale (R284). -/
def State.guardWork (s : State) (a n : Nat) : State :=
  s.each (List.range 256) fun ctx s =>
    s.when (s.ctxOn ctx) fun s =>
      s.each (s.shards ctx) fun x s =>
        s.when (x.guards a n && !x.stale) fun s => s.setShardFlags x (x.flags ||| 4)

-- # Mirrors (R497, R514)

/-- The device is paired, or is being reintegrated (PAIR_STATE.STATE). -/
def State.pairState (s : State) : Nat := s.fld F.PAIR_STATE_STATE 0

/-- An owned shard has a mirror that runs its passes. After a device-fatal fault nothing more is sent to it (R506). -/
def State.compared (s : State) (ctx : Nat) (x : Shard) : Bool :=
  s.owns x && x.twin != 0xFFFF && !s.flag F.HIF_STATUS_FATAL 0 &&
    (s.pairState == 2 || (s.pairState == 4 && (s.copying.contains (ctx, x.num) || s.copied.contains (ctx, x.num))))

end Sys2Proof.Machine
end

