-- ==== Sys2Proof/Machine/Native.lean ====
section
/-! DEFINITION. The words of a Tarca-N bundle (R96 to R98, Tables 3-1 to 3-15): which operation each slot of 256 bits spells, with the
reserved bits that make it a decode fault (R133). -/

namespace Sys2Proof.Machine

-- # The layout of a bundle (Tables 3-1 to 3-3)

/-- The lowest bit of a slot. -/
def slotLow : SlotName → Nat
  | .m => 16
  | .v0 => 64
  | .v1 => 112
  | .l => 160
  | .c => 208

/-- The SLOT_EN bit of a slot in the header. -/
def slotBit : SlotName → Nat
  | .m => 15
  | .v0 => 14
  | .v1 => 13
  | .l => 12
  | .c => 11

/-- The 48 bits of a slot. -/
def slotWord (b : Nat) (n : SlotName) : Nat := bitsOf b (slotLow n) 48

/-- The slot holds an operation. -/
def slotOn (b : Nat) (n : SlotName) : Bool := b.testBit (slotBit n)

/-- The slots of a bundle in the order in which its operations are taken: the control slot first, since a wait stands first (log 12). -/
def slotOrder : List SlotName := [.c, .m, .v0, .v1, .l]

/-- The bits of a slot's operands outside the fields of its operation are zero: each field is its lowest bit and its width. -/
def restZero (w : Nat) (fields : List (Nat × Nat)) : Bool :=
  w % 2 ^ 38 == (fields.map fun f => 2 ^ f.1 * bitsOf w f.1 f.2).sum

-- # Operand fields

/-- The scalar register of a field. -/
def regAtBit (w lo : Nat) : Fin 32 := Fin.ofNat 32 (bitsOf w lo 5)

/-- A vector register, or another field of 6 bits. -/
def vecAtBit (w lo : Nat) : Fin 64 := Fin.ofNat 64 (bitsOf w lo 6)

/-- A predicate register, or another field of 3 bits. -/
def predAtBit (w lo : Nat) : Fin 8 := Fin.ofNat 8 (bitsOf w lo 3)

/-- The operands of MMA, MMAX and MMIN (Table 3-7). -/
def mmaOf (w : Nat) : MmaOps :=
  ⟨w.testBit 37, w.testBit 36, Fin.ofNat 16 (bitsOf w 32 4), Fin.ofNat 16 (bitsOf w 28 4), w.testBit 27, w.testBit 26, regAtBit w 21,
    regAtBit w 16, regAtBit w 11, Fin.ofNat 4 (bitsOf w 9 2), Fin.ofNat 4 (bitsOf w 7 2)⟩

/-- The operands of ACST and ACLD (Table 3-9). -/
def accOf (w : Nat) : AccOps := ⟨w.testBit 37, w.testBit 36, regAtBit w 21, Fin.ofNat 4 (bitsOf w 9 2), Fin.ofNat 4 (bitsOf w 7 2)⟩

/-- The operands of a vector operation (Table 3-10). -/
def vecOf (w : Nat) : VOps :=
  ⟨Fin.ofNat 4 (bitsOf w 36 2), vecAtBit w 30, vecAtBit w 24, vecAtBit w 18, vecAtBit w 12, Fin.ofNat 4096 (bitsOf w 0 12)⟩

/-- The operands of VCVT (Table 3-12). -/
def cvtOf (w : Nat) : CvtOps :=
  ⟨Fin.ofNat 4 (bitsOf w 36 2), vecAtBit w 30, vecAtBit w 24, Fin.ofNat 16 (bitsOf w 20 4), Fin.ofNat 16 (bitsOf w 16 4), regAtBit w 11,
    regAtBit w 6, regAtBit w 1, w.testBit 0⟩

/-- The operands of DMA and DMA2 (Table 3-14). -/
def dmaOf (w : Nat) : DmaOps :=
  ⟨w.testBit 37, w.testBit 36, Fin.ofNat 4 (bitsOf w 34 2), w.testBit 33, regAtBit w 28, regAtBit w 23, regAtBit w 18, regAtBit w 13⟩

-- # The slots

/-- The fields of Table 3-7, of ACST and ACLD, of ACRV and of VRAC (Table 3-9). -/
def mmaFieldBits : List (Nat × Nat) := [(7, 31)]
def accFieldBits : List (Nat × Nat) := [(36, 2), (21, 5), (7, 4)]
def acrvFieldBits : List (Nat × Nat) := [(37, 1), (30, 6), (0, 6)]
def vracFieldBits : List (Nat × Nat) := [(37, 1), (24, 6), (0, 6)]

/-- An operation with the bits that its fields take. -/
abbrev Spelled := (SlotHdr → Instr) × List (Nat × Nat)

/-- The matrix slot (Table 3-6). -/
def matrixSlot (w : Nat) : Option Spelled :=
  let acc := w.testBit 37
  match w / 2 ^ 42 with
  | 0x00 => some (.slotNop, [])
  | 0x01 => some (fun h => .mma h (mmaOf w), mmaFieldBits)
  | 0x02 => some (fun h => .mmax h (mmaOf w), mmaFieldBits)
  | 0x03 => some (fun h => .mmin h (mmaOf w), mmaFieldBits)
  | 0x08 => some (fun h => .aclr h acc, [(37, 1)])
  | 0x09 => some (fun h => .acst h (accOf w), accFieldBits)
  | 0x0A => some (fun h => .acld h (accOf w), accFieldBits)
  | 0x0B => some (fun h => .acrv h acc (vecAtBit w 30) (vecAtBit w 0), acrvFieldBits)
  | 0x0C => some (fun h => .vrac h acc (vecAtBit w 24) (vecAtBit w 0), vracFieldBits)
  | _ => none

/-- A vector slot (Table 3-11). -/
def vectorSlot (w : Nat) : Option Spelled :=
  let v (f : SlotHdr → VOps → Instr) : Option Spelled := some (fun h => f h (vecOf w), [(0, 38)])
  match w / 2 ^ 42 with
  | 0x00 => some (.slotNop, [])
  | 0x01 => v .vadd
  | 0x02 => v .vsub
  | 0x03 => v .vmul
  | 0x04 => v .vfma
  | 0x05 => v .vfms
  | 0x06 => v .vmax
  | 0x07 => v .vmin
  | 0x08 => v .vabs
  | 0x09 => v .vneg
  | 0x0A => v .vrcp
  | 0x0B => v .vrsq
  | 0x0C => v .vexp2
  | 0x0D => v .vlog2
  | 0x0E => v .vsqrt
  | 0x0F => v .vscal
  | 0x10 => v .vand
  | 0x11 => v .vor
  | 0x12 => v .vxor
  | 0x13 => v .vshl
  | 0x14 => v .vshr
  | 0x15 => v .vsra
  | 0x16 => v .viadd
  | 0x17 => v .visub
  | 0x18 => v .vcmp
  | 0x19 => v .vsel
  | 0x1A => v .vred
  | 0x1B => v .vbc
  | 0x1C => v .vext
  | 0x1D => v .vperm
  | 0x20 => some (fun h => .vcvt h (cvtOf w), [(0, 38)])
  | _ => none

/-- The collective that a COLL posts, by the OP of its descriptor (Table 11-5); one that has no meaning faults as any of them. -/
def collOf (op : Nat) (h : SlotHdr) (sd sv : Fin 32) : Instr :=
  match op with
  | 2 => .allGather h sd sv
  | 3 => .allReduce h sd sv
  | 4 => .norm h sd sv
  | 5 => .broadcast h sd sv
  | 6 => .shift h sd sv
  | _ => .reduceScatter h sd sv

/-- The load and store slot (Tables 3-13 and 3-14); `coll` is the OP that a collective descriptor holds. -/
def loadSlot (w : Nat) (coll : Fin 32 → Nat) : Option Spelled :=
  let off : BitVec 22 := BitVec.ofNat 22 w
  match w / 2 ^ 42 with
  | 0x00 => some (.slotNop, [])
  | 0x01 => some (fun h => .vld h (vecAtBit w 30) (regAtBit w 25) off, [(30, 6), (25, 5), (0, 22)])
  | 0x02 => some (fun h => .vst h (vecAtBit w 30) (regAtBit w 25) off, [(30, 6), (25, 5), (0, 22)])
  | 0x03 => some (fun h => .sld h (regAtBit w 31) (regAtBit w 26) off, [(31, 5), (26, 5), (0, 22)])
  | 0x04 => some (fun h => .sst h (regAtBit w 31) (regAtBit w 26) off, [(31, 5), (26, 5), (0, 22)])
  | 0x08 => some (fun h => .dma h (dmaOf w), [(13, 25)])
  | 0x09 => some (fun h => .dma2 h (dmaOf w), [(13, 25)])
  | 0x0A => some (fun h => collOf (coll (regAtBit w 28)) h (regAtBit w 28) (regAtBit w 13), [(28, 5), (13, 5)])
  | _ => none

/-- The control slot (Table 3-15). -/
def controlSlot (w : Nat) : Option Spelled :=
  let d := regAtBit w 33
  let a := regAtBit w 28
  let b := regAtBit w 23
  let off : BitVec 24 := BitVec.ofNat 24 w
  let three (f : SlotHdr → Fin 32 → Fin 32 → Fin 32 → Instr) : Option Spelled := some (fun h => f h d a b, [(33, 5), (28, 5), (23, 5)])
  match w / 2 ^ 42 with
  | 0x00 => some (.slotNop, [])
  | 0x01 => three .sadd
  | 0x02 => three .ssub
  | 0x03 => three .smul
  | 0x04 => three .sand
  | 0x05 => three .sor
  | 0x06 => three .sxor
  | 0x07 => three .sshl
  | 0x08 => three .sshr
  | 0x09 => three .ssra
  | 0x0A => three .slt
  | 0x0B => three .sltu
  | 0x0C => three .smin
  | 0x0D => three .smax
  | 0x10 => some (fun h => .saddi h d a (BitVec.ofNat 28 w), [(33, 5), (28, 5), (0, 28)])
  | 0x11 => some (fun h => .sins h d (Fin.ofNat 4 (bitsOf w 31 2)) (BitVec.ofNat 16 w), [(33, 5), (31, 2), (0, 16)])
  | 0x18 => some (fun h => .scmp h (predAtBit w 35) (predAtBit w 32) (regAtBit w 27) (regAtBit w 22), [(35, 3), (32, 3), (27, 5), (22, 5)])
  | 0x19 =>
    some (fun h => .plog h (predAtBit w 35) (predAtBit w 32) (predAtBit w 29) (Fin.ofNat 4 (bitsOf w 27 2)), [(35, 3), (32, 3), (29, 3), (27, 2)])
  | 0x1A => some (fun h => .srd h d (BitVec.ofNat 8 w), [(33, 5), (0, 8)])
  | 0x20 => some (fun h => .br h off, [(0, 24)])
  | 0x21 => some (fun h => .loop h d off, [(33, 5), (0, 24)])
  | 0x22 => some (fun h => .call h off, [(0, 24)])
  | 0x23 => some (fun h => .jr h a, [(28, 5)])
  | 0x24 => some (.endTile, [])
  | 0x30 => some (fun h => .sig h a b, [(28, 5), (23, 5)])
  | 0x31 => some (fun h => .wait h a b, [(28, 5), (23, 5)])
  | 0x32 => some (fun h => .waitt h (predAtBit w 35) a b (regAtBit w 18), [(35, 3), (28, 5), (23, 5), (18, 5)])
  | 0x33 => some (fun h => .bar h a b, [(28, 5), (23, 5)])
  | 0x34 => some (fun h => .defq h a b, [(28, 5), (23, 5)])
  | _ => none

/-- The operation that a slot's 48 bits spell; none for an undefined opcode (R133). -/
def spelled (n : SlotName) (w : Nat) (coll : Fin 32 → Nat) : Option Spelled :=
  match n with
  | .m => matrixSlot w
  | .v0 => vectorSlot w
  | .v1 => vectorSlot w
  | .l => loadSlot w coll
  | .c => controlSlot w

-- # Whole bundles

/-- A slot without an operation holds zero bits (R98). -/
def emptyOk (b : Nat) : Bool := slotOrder.all fun n => slotOn b n || slotWord b n == 0

/-- The operations of the slots that a bundle enables, in order; `first` is the first of the bundle's, and `last` marks the last. None where
an opcode is undefined. -/
def slotsOf (t : Fin 512) (b : Nat) (coll : Fin 32 → Nat) (first : Option SlotName) : List SlotName → Option (List Instr)
  | [] => some []
  | n :: rest =>
    let w := slotWord b n
    match spelled n w coll, slotsOf t b coll first rest with
    | some (f, fields), some l =>
      some (f ⟨t, n, w.testBit 41, predAtBit w 38, first == some n, rest.isEmpty, b.testBit 10, b.testBit 9, !restZero w fields || b % 2 ^ 9 != 0⟩ :: l)
    | _, _ => none

/-- The commands that a bundle of 256 bits is to its tile: one for each slot that holds an operation and that the tile has not used, and for a
bundle that holds no operation, one that performs nothing. None is a decode fault: an undefined opcode, or bits in a slot whose SLOT_EN is 0
(R97, R98, R133). -/
def bundleCommands (t : Fin 512) (b : Nat) (coll : Fin 32 → Nat) (used : List SlotName) : Option (List Instr) :=
  let on := slotOrder.filter (slotOn b)
  if !emptyOk b || (slotsOf t b coll on.head? on).isNone then none
  else if on.isEmpty then some [.slotNop ⟨t, .c, false, 0, true, true, b.testBit 10, b.testBit 9, b % 2 ^ 9 != 0⟩]
  else slotsOf t b coll on.head? (on.filter fun n => !used.contains n)

/-- The bundle that 32 bytes hold, least significant first (R96). -/
def bundleOf (bs : List Byte) : Nat := leNat bs

end Sys2Proof.Machine
end

