-- ==== Sys2Proof/Machine/Emit.lean ====
section
/-! DEFINITION. The code that the binder emits for portable records (R139 to R141): the native fields that operands supply, the bundle of each
native operation, the loop of matrix operations that realises a TMMA in the order of R193 to R195, and the additions of the tree of R196. -/

namespace Sys2Proof.Machine

-- # The records (R139)

/-- The records of the CODE section by their offsets, at most so many; a record that runs past the section ends the list with a fault: its
offset, or that of NOPS. -/
def codeRecords (img : List Byte) (stop : Nat) : Nat → Nat → List Nat × Option Nat
  | 0, _ => ([], none)
  | n + 1, a =>
    if stop ≤ a then ([], none)
    else if stop < a + 4 then ([], some a)
    else
      let k := bitsOf (imageNat img a 4) 16 4
      if stop < a + 4 + 4 * k then ([], some (a + 2))
      else let r := codeRecords img stop n (a + 4 + 4 * k); (a :: r.1, r.2)

/-- The offsets of an image's records. The spec does not say whether a CODE section may be absent: an image without one has no records
(DESIGN CHOICE, log 118). -/
def imageRecords (img : List Byte) : List Nat × Option Nat :=
  match imageSection img 1 with
  | none => ([], none)
  | some (a, n) => codeRecords img (a + n) (n / 4 + 1) a

-- # Native fields (R140)

/-- A native field that an operand word supplies: a scalar, vector or predicate register, or so many bits, read as a signed number or not. -/
inductive NatField where
  | sreg
  | vreg
  | preg
  | bits (n : Nat) (signed : Bool)
deriving DecidableEq, Repr

/-- How many bits a field takes. -/
def NatField.width : NatField → Nat
  | .sreg => 5
  | .vreg => 6
  | .preg => 3
  | .bits n _ => n

/-- A field of bits without a sign, at its lowest bit. -/
def ubits (lo n : Nat) : Nat × NatField := (lo, .bits n false)

/-- A scalar register, a vector register and a predicate register at their lowest bits. -/
def sAt (lo : Nat) : Nat × NatField := (lo, .sreg)
def vAt (lo : Nat) : Nat × NatField := (lo, .vreg)
def pAt (lo : Nat) : Nat × NatField := (lo, .preg)

/-- The fields of a native operation with their lowest bits, in the order of its table (Tables 3-7, 3-9, 3-10, 3-12 to 3-15), by its portable
opcode. -/
def nativeFields (pop : Nat) : List (Nat × NatField) :=
  let op := pop % 256
  match pop / 256 with
  | 0 =>
    if op = 0 then []
    else if op ≤ 3 then
      [ubits 37 1, ubits 36 1, ubits 32 4, ubits 28 4, ubits 27 1, ubits 26 1, sAt 21, sAt 16, sAt 11, ubits 9 2, ubits 7 2]
    else if op = 8 then [ubits 37 1]
    else if op ≤ 0xA then [ubits 37 1, ubits 36 1, sAt 21, ubits 9 2, ubits 7 2]
    else if op = 0xB then [ubits 37 1, vAt 30, ubits 0 6]
    else [ubits 37 1, vAt 24, ubits 0 6]
  | 1 =>
    if op = 0 then []
    else if op = 0x20 then [ubits 36 2, vAt 30, vAt 24, ubits 20 4, ubits 16 4, sAt 11, sAt 6, sAt 1, ubits 0 1]
    else [ubits 36 2, vAt 30, vAt 24, vAt 18, vAt 12, ubits 0 12]
  | 2 =>
    if op = 0 then []
    else if op ≤ 2 then [vAt 30, sAt 25, ubits 0 22]
    else if op ≤ 4 then [sAt 31, sAt 26, ubits 0 22]
    else if op ≤ 9 then [ubits 37 1, ubits 36 1, ubits 34 2, ubits 33 1, sAt 28, sAt 23, sAt 18, sAt 13]
    else [sAt 28, sAt 13]
  | 3 =>
    if op = 0 then []
    else if op ≤ 0xD then [sAt 33, sAt 28, sAt 23]
    else match op with
      | 0x10 => [sAt 33, sAt 28, (0, .bits 28 true)]
      | 0x11 => [sAt 33, ubits 31 2, ubits 0 16]
      | 0x18 => [pAt 35, ubits 32 3, sAt 27, sAt 22]
      | 0x19 => [pAt 35, pAt 32, pAt 29, ubits 27 2]
      | 0x1A => [sAt 33, ubits 0 8]
      | 0x20 => [(0, .bits 24 true)]
      | 0x21 => [sAt 33, (0, .bits 24 true)]
      | 0x22 => [(0, .bits 24 true)]
      | 0x23 => [sAt 28]
      | 0x24 => []
      | 0x32 => [pAt 35, sAt 28, sAt 23, sAt 18]
      | _ => [sAt 28, sAt 23]
  | _ => []

-- # Bundles

/-- A guard as native operations have it: the predicate register, and whether it is inverted (R102). -/
abbrev Guard := Nat × Bool

/-- The guard of an operation without one: p0, not inverted. -/
def noGuard : Guard := (0, false)

/-- The bundle that holds one operation: its slot, its opcode, its guard and its 38 bits of fields (R96 to R99). -/
def oneSlot (her : Bool) (n : SlotName) (op : Nat) (g : Guard) (fields : Nat) : Nat :=
  2 ^ slotBit n + 2 ^ 9 * b2n her + 2 ^ slotLow n * (2 ^ 42 * op + 2 ^ 41 * b2n g.2 + 2 ^ 38 * (g.1 % 8) + fields % 2 ^ 38)

/-- A bundle of the binder's own choosing, with the HER bit of its program (R99). -/
def ownBundle (her : Bool) (b : Nat) : Nat := 2 ^ 9 * b2n her + 2 ^ 10 * (b % 2 ^ 246)

/-- Fields placed at their lowest bits, each as wide as it is. -/
def placeFields (l : List (Nat × Nat × Nat)) : Nat := (l.map fun x => 2 ^ x.1 * (x.2.2 % 2 ^ x.2.1)).sum

/-- Put a constant into a scalar register: four SINS. -/
def loadConst (her : Bool) (r v : Nat) : List Nat :=
  (List.range 4).map fun q => oneSlot her .c 0x11 noGuard (placeFields [(33, 5, r), (31, 2, q), (0, 16, bitsOf v (16 * q) 16)])

/-- What a record is bound with: the inputs of the binding, its offset, HER of the program and its guard. -/
structure Emit where
  key : List Byte
  off : Nat
  her : Bool
  g   : Guard
deriving DecidableEq, Repr

/-- The binder's own bundles at a point of a record: they move virtual registers that the file does not hold, and the parts of tensors that an
operation needs, and no rule gives them (log 18). -/
def Emit.moves (e : Emit) (i : Nat) : List Nat := (Config.moves e.key e.off i).map (ownBundle e.her)

/-- A scalar and a vector register that the binder uses itself. -/
def Emit.sTemp (e : Emit) (i : Nat) : Nat := Config.scratch e.key e.off i % 32
def Emit.vTemp (e : Emit) (i : Nat) : Nat := Config.scratch e.key e.off i % 64

/-- Run some code so many times: the count in a scalar register, and LOOP back to the code's first bundle. -/
def Emit.repeat (e : Emit) (i n : Nat) (code : List Nat) : List Nat :=
  loadConst e.her (e.sTemp i) n ++ code ++ [oneSlot e.her .c 0x21 noGuard (placeFields [(33, 5, e.sTemp i), (0, 24, 2 ^ 24 - code.length)])]

-- # A native operation (R140)

/-- The image that the inputs of a binding begin with. -/
def imageOf (key : List Byte) : List Byte := key.take (imageNat key 12 4)

/-- The physical register that holds a virtual one: its kind is 0 scalar, 1 vector, 2 predicate. -/
def Emit.phys (e : Emit) (kind v : Nat) : Nat := Config.physReg e.key e.off kind v

/-- The number that an operand word stands for where it names no register: an immediate, the first bundle of a label's record, the id of a
synchronisation object, or what the constant pool holds. -/
def operandValue (key : List Byte) (firstOf : Nat → Nat) (w : Nat) : Nat :=
  let v := w % 2 ^ 28
  match w / 2 ^ 28 with
  | 4 => (signedOf 28 w % 2 ^ 64).toNat
  | 6 => firstOf v
  | 7 => v
  | k => Config.constValue (imageOf key) k v

/-- MOD of a vector operation with the virtual register that it names, where it names one, replaced by the physical one (Table 3-11). -/
def Emit.mod (e : Emit) (pop v : Nat) : Nat :=
  match pop with
  | 0x118 => v % 2 ^ 9 + 2 ^ 9 * (e.phys 2 (bitsOf v 9 3) % 8)
  | 0x119 => v % 2 ^ 9 + 2 ^ 9 * (e.phys 2 (bitsOf v 9 3) % 8)
  | 0x11B => v / 2 ^ 5 * 2 ^ 5 + e.phys 0 (v % 32) % 32
  | 0x11C => v % 2 ^ 7 + 2 ^ 7 * (e.phys 0 (bitsOf v 7 5) % 32)
  | _ => v

/-- What an operand word supplies to its field: the bundles that it takes, and the field's value. A register goes to its physical one. A
number for a register field is put into a register of the binder's first. The spec does not say what becomes of an operand whose KIND does not suit
its field: a field of bits gets the register's number, and a register of another file names the one of its number (DESIGN CHOICE, log 118). -/
def Emit.supply (e : Emit) (firstOf : Nat → Nat) (pop i : Nat) (f : NatField) (w : Nat) : List Nat × Nat :=
  if w / 2 ^ 28 ≤ 2 then ([], e.phys (w / 2 ^ 28) (w % 2 ^ 28))
  else
    let v := operandValue e.key firstOf w
    match f with
    | .bits n _ => ([], if n = 12 then e.mod pop v else v)
    | _ => (loadConst e.her (e.sTemp i) v, e.sTemp i)

/-- The slot of a class of portable opcodes. -/
def slotOfClass (k : Nat) : SlotName :=
  match k with
  | 0 => .m
  | 1 => .v0
  | 2 => .l
  | _ => .c

/-- The code of a record with a native operation: what its operands take, then the operation with its fields in the order of its table. An
offset that a label gives counts from the operation's own bundle (Table 3-15); `first` is the record's first bundle. -/
def Emit.native (e : Emit) (firstOf : Nat → Nat) (first pop : Nat) : List Nat :=
  let word (i : Nat) := imageNat e.key (e.off + 4 + 4 * i) 4
  let l := (nativeFields pop).zipIdx.map fun x => (x.1, word x.2, e.supply firstOf pop x.2 x.1.2 (word x.2))
  let before := e.moves 0 ++ l.flatMap fun x => x.2.2.1
  let here := first + before.length
  let value (x : (Nat × NatField) × Nat × List Nat × Nat) : Nat :=
    if x.1.2 = .bits 24 true ∧ x.2.1 / 2 ^ 28 = 6 then x.2.2.2 % 2 ^ 24 + 2 ^ 24 - here % 2 ^ 24 else x.2.2.2
  before ++ [oneSlot e.her (slotOfClass (pop / 256)) (pop % 256) e.g (placeFields (l.map fun x => (x.1.1, x.1.2.width, value x)))]

-- # The cut of a TMMA (R193, R194)

/-- Rows, or columns, cut into blocks of 64 from 0: the first of each block, and how many it holds. -/
def cut64 (n : Nat) : List (Nat × Nat) := (List.range (ceilDiv n 64)).map fun b => (64 * b, min 64 (n - 64 * b))

/-- The code of the smallest of 16, 32 and 64 that is at least a count. -/
def canonCode (n : Nat) : Nat := if n ≤ 16 then 0 else if n ≤ 32 then 1 else 2

/-- The blocks of a product in the canonical order, each with its canonical shape. -/
def canonBlocks (m n : Nat) : List TmmaBlock :=
  (cut64 m).flatMap fun r => (cut64 n).map fun c => ⟨r.1, r.2, c.1, c.2, canonCode r.2, canonCode c.2⟩

/-- K cut into chunks of so many from 0: the first k of each, and how many it holds. -/
def cutBy (len k : Nat) : List (Nat × Nat) := (List.range (ceilDiv k len)).map fun q => (len * q, min len (k - len * q))

/-- The chunks of 65,536 along K. -/
def cutK (k : Nat) : List (Nat × Nat) := cutBy 65536 k

/-- The guard of a record: its predicate virtual register and whether it is inverted (R139). -/
def recordGuard (img : List Byte) (a : Nat) : Option (Nat × Bool) :=
  let w := imageNat img a 4
  if w.testBit 2 then some (imageNat img (a + 4 * bitsOf w 16 4) 4 % 2 ^ 28, w.testBit 3) else none

/-- The image carries the HERITAGE flag. -/
def imageHeritage (img : List Byte) : Bool := (imageNat img 18 2).testBit 0

/-- What the binder makes of the TMMA record at an offset. ORDER EXACT takes the canonical blocks and chunks; under NATIVE, and in a program
with the HERITAGE flag, which the canonical order does not bind, the binder chooses (R141, R195, R215). -/
def planOf (key : List Byte) (a : Nat) : TmmaPlan :=
  let img := imageOf key
  let w := imageNat img a 4
  let f (i : Nat) := Config.tmmaShape img a i
  let free := w.testBit 0 || imageHeritage img
  { off := a, m := f 0, n := f 1, k := f 2, adds := f 3 % 2 == 1, fmta := f 4 % 16, fmtb := f 5 % 16, native := w.testBit 0
    defer := w.testBit 1, guard := recordGuard img a, chain := free && Config.nativeChain key a
    blocks := if free then (Config.nativeBlocks key a).map fun b => ⟨b.1, b.2.1, b.2.2.1, b.2.2.2.1, b.2.2.2.2.1 % 3, b.2.2.2.2.2 % 3⟩ else canonBlocks (f 0) (f 1)
    chunks := if free then Config.nativeChunks key a else cutK (f 2) }

/-- The plans of the TMMA records among an image's records. -/
def plansOf (key : List Byte) (records : List Nat) : List TmmaPlan :=
  (records.filter fun a => imageNat key a 4 / 2 ^ 20 == 0x400).map (planOf key)

-- # The tree of a split (R196)

/-- A VLD or VST of a vector at the offset that a scalar register holds. -/
def Emit.vmem (e : Emit) (op v r : Nat) : Nat := oneSlot e.her .l op e.g (placeFields [(30, 6, v), (25, 5, r)])

/-- A vector operation on two vectors, with its width code. -/
def Emit.vop (e : Emit) (op w d a b : Nat) : Nat := oneSlot e.her .v0 op e.g (placeFields [(36, 2, w), (30, 6, d), (24, 6, a), (18, 6, b)])

/-- SADDI of a register by 512, the bytes of a vector. -/
def Emit.nextVector (e : Emit) (r : Nat) : Nat := oneSlot e.her .c 0x10 noGuard (placeFields [(33, 5, r), (28, 5, r), (0, 28, 512)])

/-- One addition of the tree: the partial at an offset takes its sum with another, or with +0, vector by vector. INT32 partials take VIADD in
the place of VADD. -/
def Emit.addPartial (e : Emit) (int : Bool) (vectors a : Nat) (b : Option Nat) : List Nat :=
  let (ra, rb, va, vb) := (e.sTemp 64, e.sTemp 65, e.vTemp 66, e.vTemp 67)
  let other := match b with
    | some _ => [e.vmem 0x01 vb rb, e.nextVector rb]
    | none => [e.vop 0x12 3 vb vb vb]
  loadConst e.her ra a ++ (b.elim [] (loadConst e.her rb)) ++
    e.repeat 68 vectors ([e.vmem 0x01 va ra] ++ other ++
      [if int then e.vop 0x16 3 va va vb else e.vop 0x01 0 va va vb, e.vmem 0x02 va ra, e.nextVector ra])

/-- The additions of the tree over `2 ^ k` places for `count` partials of so many vectors, the first at an offset and each after the other: in
each level the first half takes the second, and a place beyond the partials is +0. -/
def Emit.tree (e : Emit) (int : Bool) (vectors base count : Nat) : Nat → List Nat
  | 0 => []
  | k + 1 =>
    ((List.range (2 ^ k)).flatMap fun q =>
      e.addPartial int vectors (base + 512 * vectors * q) (if q + 2 ^ k < count then some (base + 512 * vectors * (q + 2 ^ k)) else none)) ++
    e.tree int vectors base count k

/-- The levels of the tree over a number of partials: the smallest power of two that holds them. -/
def treeLevels (n : Nat) : Nat := if n ≤ 1 then 0 else Nat.log2 (n - 1) + 1

-- # TMMA and TRED (R141, R193 to R198)

/-- An ACST (0x09) or ACLD (0x0A) of a block of a shape at an offset of the store, or an MMA (0x01) whose operands are in place. -/
def Emit.acc (e : Emit) (op msh nsh off : Nat) : List Nat :=
  loadConst e.her (e.sTemp 69) off ++
    [oneSlot e.her .m op e.g (placeFields [(37, 1, Config.scratch e.key e.off 70), (21, 5, e.sTemp 69), (9, 2, msh), (7, 2, nsh)])]

/-- A matrix operation on K = `len` of a block: its operands lie where the binder has moved them, and Z starts the block from zero. -/
def Emit.mma (e : Emit) (x : TmmaPlan) (msh nsh len : Nat) (z : Bool) : List Nat :=
  let (ra, rb, rk) := (e.sTemp 71, e.sTemp 72, e.sTemp 73)
  loadConst e.her ra (Config.tmmaPlace e.key e.off 0) ++ loadConst e.her rb (Config.tmmaPlace e.key e.off 1) ++ loadConst e.her rk len ++
    [oneSlot e.her .m 0x01 e.g (placeFields [(37, 1, Config.scratch e.key e.off 70), (36, 1, b2n z), (32, 4, x.fmta), (28, 4, x.fmtb),
      (27, 1, Config.scratch e.key e.off 74), (26, 1, Config.scratch e.key e.off 75), (21, 5, ra), (16, 5, rb), (11, 5, rk), (9, 2, msh), (7, 2, nsh)])]

/-- The pieces in which a chunk is run: where the shape has one replica, each group joins one partial in turn, and a chain of operations with Z
= 0 whose lengths are multiples of 64 gives the same bits; another shape runs its chunk whole (R191, R192, R195). -/
def pieces (key : List Byte) (x : TmmaPlan) (msh nsh len : Nat) : List (Nat × Nat) :=
  if msh = 2 ∧ nsh = 2 then cutBy (64 * (1 + Config.tmmaPiece key x.off)) len else [(0, len)]

/-- The code of a block of a shape: each chunk's partial, the first from what the TMMA accumulates into and each other from zero, into its
place, and the tree over them; under a chain the chunks go on from each other and leave one. -/
def Emit.block (e : Emit) (x : TmmaPlan) (msh nsh : Nat) : List Nat :=
  let size := 4 * (16 * 2 ^ msh) * (16 * 2 ^ nsh)
  let base := 64 * Config.tmmaPlace e.key e.off 2
  let count := if x.chain then 1 else x.chunks.length
  ((x.chunks.zipIdx).flatMap fun c =>
    let goesOn := (c.2 == 0 && x.adds) || (c.2 != 0 && x.chain)
    e.moves (1 + 2 * c.2) ++ (if c.2 = 0 ∧ x.adds then e.acc 0x0A msh nsh base else []) ++
    ((pieces e.key x msh nsh c.1.2).zipIdx.flatMap fun p =>
      e.moves (2 + 2 * (c.2 + 2 ^ 20 * p.2)) ++ e.mma x msh nsh p.1.2 (p.2 == 0 && !goesOn)) ++
    (if x.chain then [] else e.acc 0x09 msh nsh (base + size * c.2))) ++
  (if x.chain then e.acc 0x09 msh nsh base else []) ++
  e.tree (x.fmta == 0xB) (size / 512) base count (treeLevels count)

/-- The shapes of a plan's blocks, each once. -/
def TmmaPlan.shapes (x : TmmaPlan) : List (Nat × Nat) := (x.blocks.map fun b => (b.msh, b.nsh)).eraseDups

/-- The code of a TMMA: for each shape one loop over the blocks of that shape; the binder's moves bring each block's operands and take its
result away. A TMMA with DEFER runs in its place: DEFER makes it eligible for the deferred queue and the binder need not use that (R139; DESIGN
CHOICE, log 18). -/
def Emit.tmma (e : Emit) (x : TmmaPlan) : List Nat :=
  e.moves 0 ++ x.shapes.flatMap fun h =>
    e.repeat 76 (x.blocks.countP fun b => (b.msh, b.nsh) == h) (e.block x h.1 h.2 ++ e.moves (2 ^ 60 + 3 * h.1 + h.2))

/-- The code of a TRED: the tree over the partials of its split within this device (R196, R198); under ORDER = NATIVE the binder's own. What
its tensor references say, how many partials there are and of how many vectors, whether they are INT32, and where they lie, no rule gives. -/
def Emit.tred (e : Emit) : List Nat :=
  let img := imageOf e.key
  let f (i : Nat) := Config.tmmaShape img e.off i
  let base := 64 * Config.tmmaPlace e.key e.off 2
  e.moves 0 ++ (if (imageNat img e.off 4).testBit 0 then [] else e.tree (f 1 % 2 == 1) (f 2) base (f 0) (treeLevels (f 0))) ++ e.moves 1

-- # The bound code

/-- The code of a record, by its offset and its first bundle. A STAGE record opens a stage's code with a bundle that performs nothing, which a
label can name (R140; DESIGN CHOICE, log 18). -/
def emitRecord (key : List Byte) (firstOf : Nat → Nat) (first a : Nat) : List Nat :=
  let img := imageOf key
  let pop := imageNat img a 4 / 2 ^ 20
  let her := imageHeritage img
  let g := (recordGuard img a).elim noGuard fun x => (Config.physReg key a 2 x.1, x.2)
  let e : Emit := ⟨key, a, her, g⟩
  match pop with
  | 0x400 => e.tmma (planOf key a)
  | 0x401 => e.tred
  | 0x480 => [ownBundle her 0]
  | _ => e.native firstOf first pop

/-- How many bundles a record takes: its labels' values do not change it. -/
def recordLen (key : List Byte) (a : Nat) : Nat := (emitRecord key (fun _ => 0) 0 a).length

/-- The first native bundle that the binder emits for a record, by the record's index: where a label goes (R139). -/
def boundIndex (key : List Byte) (n : Nat) : Nat := (((imageRecords (imageOf key)).1.take n).map (recordLen key)).sum

/-- The bundles of a bound image, record after record (R62, R64, R140, R141, R143). -/
def boundBundles (key : List Byte) : List Nat :=
  ((imageRecords (imageOf key)).1.zipIdx).flatMap fun x => emitRecord key (boundIndex key) (boundIndex key x.2) x.1

/-- The bound code, 32 bytes a bundle (R96). -/
def boundCode (key : List Byte) : List Byte := (boundBundles key).flatMap (leBytes 32)

end Sys2Proof.Machine
end

