-- ==== Sys2Proof/Machine/Bodies.lean ====
section
/-! DEFINITION. A tile as others find it: its registers and lanes (R100, R101), its products in flight (R202), how a bundle that was held
issues (R130, R161), and its deferred bodies (R245 to R251), and the gather of tie groups that follows them (R253). -/

namespace Sys2Proof.Machine

-- # Registers of a tile (R100, R101)

/-- A scalar register; s0 reads as zero. -/
def TileCore.sreg (c : TileCore) (i : Nat) : BitVec 64 :=
  if i = 0 then 0#64 else NMap.getD c.s i (Config.freeScalar c.seed i)

/-- A vector register. -/
def TileCore.vreg (c : TileCore) (i : Nat) : BitVec 4096 := NMap.getD c.v i (Config.freeVector c.seed i)

/-- A predicate register; p0 reads as all ones. -/
def TileCore.preg (c : TileCore) (i : Nat) : BitVec 256 :=
  if i = 0 then BitVec.allOnes 256 else NMap.getD c.p i (Config.freePred c.seed i)

/-- Write a scalar register; a write to s0 is discarded. -/
def TileCore.setS (c : TileCore) (i : Nat) (v : BitVec 64) : TileCore :=
  if i = 0 then c else { c with s := NMap.set c.s i v }

/-- Write a vector register. -/
def TileCore.setV (c : TileCore) (i : Nat) (v : BitVec 4096) : TileCore := { c with v := NMap.set c.v i v }

/-- Write a predicate register; a write to p0 is discarded. -/
def TileCore.setP (c : TileCore) (i : Nat) (v : BitVec 256) : TileCore :=
  if i = 0 then c else { c with p := NMap.set c.p i v }

/-- The predicate file with all bits of one register set or cleared. -/
def TileCore.setPredAll (c : TileCore) (pd : Nat) (b : Bool) : TileCore := c.setP pd (if b then BitVec.allOnes 256 else 0#256)

/-- The key of an accumulator cell. -/
def cellKey (set : Bool) (row col : Nat) : Nat := 4096 * b2n set + 64 * row + col

/-- An accumulator cell. -/
def TileCore.cell (c : TileCore) (set : Bool) (row col : Nat) : Nat := (NMap.getD c.cells (cellKey set row col) 0#32).toNat

/-- Write an accumulator cell. -/
def TileCore.setCell (c : TileCore) (set : Bool) (row col v : Nat) : TileCore :=
  { c with cells := NMap.set c.cells (cellKey set row col) (BitVec.ofNat 32 v) }

/-- Write the cells of the top-left block of a set, row by row (R111, R210). -/
def TileCore.setBlock (c : TileCore) (set : Bool) (m n : Nat) (f : Nat → Nat → Nat) : TileCore :=
  foldRange m (fun i c => foldRange n (fun j c => c.setCell set i j (f i j)) c) c

-- # Products in flight (R105, R202)

/-- A product completes: an invalid that it raised sets INV of its destination set, writes its entry and marks the command, or traps
(R201, R239). -/
def State.flightDone (s : State) (t : Nat) (f : MFlight) : State :=
  match f.entry, f.sets.head?, s.tileLaunch t with
  | some e, some acc, some l => (s.setInv l.ctx t acc true).numException l e
  | _, _, _ => s

/-- Every product of a tile completes. -/
def State.drainFlights (s : State) (t : Nat) : State :=
  let l := (s.tile t).flights
  (s.modTile t fun x => { x with flights := [] }).each l fun f s => s.flightDone t f

-- # A held bundle issues (R103, R130, R161)

/-- The registers that a bundle leaves as it passes: those that its operations have written, and a WAITT's predicate (R103, R130). -/
def Tile.settled (x : Tile) : TileCore := match x.met with | some (some p) => x.core.setPredAll p.1 p.2 | _ => x.core

/-- A tile after its bundle has passed: its registers are settled, and it goes to the branch target, or to the next bundle. -/
def Tile.advance (x : Tile) : Tile :=
  { x with
    bundle := x.target.getD (x.bundle + 1), core := x.settled, target := none, snap := none, snapRun := none, met := none, used := []
    wrote := [], effects := [], parity := none }

/-- What a WAITT writes to PD: whether its release reached the tile at or before its timeout expires (R161). -/
def Hold.decides (h : Hold) (reached : Bool) (now : Nat) : Bool := reached && (h.kind != .waitt || decide (now ≤ h.deadline))

/-- What a wait that is over leaves for its bundle: a WAITT its predicate with its value. -/
def metBy (kind : HoldKind) (pd : Nat) (reached : Bool) : Option (Nat × Bool) := if kind = .waitt then some (pd, reached) else none

/-- The WAIT, WAITT or BAR that has held a bundle is over: a bundle whose only operation this was has passed; other slots of it come next, and
read the registers as they were (R103). -/
def Tile.issue (x : Tile) (h : Hold) (reached : Bool) : Tile :=
  let x := ({ x with hold := none, met := some (metBy h.kind h.pd reached) } : Tile).rollback
  if h.last then x.advance else x

-- # The bound code of a tile (R96, R135)

/-- Where a bound image's code starts in each tile's store: on a page of 4 KiB (R96, R135). -/
def codeBase (key : List Byte) : Nat := 4096 * (Config.codePage key % (storeSize / 4096))

/-- The bound code as far as it lies in the store. -/
def codeBytes (key : List Byte) : List Byte := (boundCode key).take (storeSize - codeBase key)

/-- The bound code is put into a tile's store (log 89). -/
def State.loadCode (s : State) (t : Nat) (key : List Byte) : State := s.storeWrite t (codeBase key) (codeBytes key)

/-- The page of 4 KiB that holds a bundle is read again from the bound image in the context's memory (R135). -/
def State.refetchPage (s : State) (t : Nat) (key : List Byte) (bundle : Nat) : State :=
  let page := 32 * bundle / 4096 * 4096
  s.storeWrite t (codeBase key + page) (((codeBytes key).drop page).take 4096)

-- # The accumulator save area (R247)

/-- The tile-store offset of the accumulator save area: 17 KiB at the top of the backed store. -/
def saveArea : Nat := storeSize - 17 * 1024

/-- The 4,096 cells of a set as bytes, row by row. -/
def TileCore.setBytes (c : TileCore) (set : Bool) : List Byte :=
  (List.range 4096).flatMap fun k => leBytes 4 (c.cell set (k / 64) (k % 64))

/-- A set from the save area's bytes. -/
def TileCore.setFromBytes (c : TileCore) (set : Bool) (bs : List Byte) : TileCore :=
  c.setBlock set 64 64 fun i j => leNat ((bs.drop (4 * (64 * i + j))).take 4)

/-- The 64 bytes that hold INV of the set and the run state of the pair. The rule names what they hold and not where: a word of flags (bit
0 INV, bit 1 run open, bit 2 MMIN, bit 3 ACC, bits 5:4 MSH, bits 7:6 NSH), then the sum of the K operands. DESIGN CHOICE, log 80. -/
def runBytes (inv : Bool) (run : Option MaxRun) : List Byte :=
  let (flags, sum) := match run with
    | none => (b2n inv, 0)
    | some u => (b2n inv + 2 + 4 * b2n (!u.isMax) + 8 * b2n u.acc + 16 * (u.msh % 4) + 64 * (u.nsh % 4), u.ksum)
  leBytes 8 flags ++ leBytes 8 sum ++ List.replicate 48 0

/-- INV and the run state from the save area's 64 bytes. -/
def runOf (bs : List Byte) : Bool × Option MaxRun :=
  let f := leNat (bs.take 8)
  (f.testBit 0,
    if f.testBit 1 then some ⟨!f.testBit 2, f.testBit 3, bitsOf f 4 2, bitsOf f 6 2, leNat ((bs.drop 8).take 8)⟩ else none)

-- # Deferred bodies (R247 to R251)

/-- A tile's launch has faulted. -/
def State.launchFailed (s : State) (t : Nat) : Bool := match s.tileLaunch t with | some l => l.fault.isSome | none => false

/-- Start a deferred body on a tile: its products complete, its set, INV and run state are saved, s24 and s25 take the argument and the
shard, and control goes to ENTRY. The main stream's bundle has not issued: nothing of it stays but that its wait is over, and it is presented
anew when the body has ended (R103, R247, R248). A trap that a completing product springs leaves nothing to start (R251). -/
def State.startBody (s : State) (t : Nat) (d : Deferred) (forced : Bool) : State :=
  let s := s.drainFlights t
  if s.launchEnds t then s
  else
    let x := (s.tile t).rollback
    let inv := match s.tileLaunch t with | some l => s.inv l.ctx t d.acc | none => false
    let s := s.storeWrite t saveArea (x.core.setBytes d.acc ++ runBytes inv x.run)
    let s := s.setTile t { x with
      deferred := x.deferred.erase d
      body := some ⟨d, forced, s.now, x.bundle, x.hold, none, x.met⟩
      bundle := d.entry, hold := none, met := none, used := [], wrote := [], stall := none
      core := (x.core.setS 24 (BitVec.ofNat 64 d.arg)).setS 25 (BitVec.ofNat 64 d.shard) }
    s.setPhase t 2

/-- The oldest descriptor of a tile that a run point permits (R249). -/
def Tile.oldest (x : Tile) (shard : Option Nat) : Option Deferred :=
  x.deferred.find? fun d => match shard with | none => true | some n => d.shard == n

/-- Deferred work of a shard is queued or runs on a tile of a launch, or a fault has discarded some (R248, R251). -/
def State.shardBusy (s : State) (l : Launch) (shard : Nat) : Bool :=
  l.lost.contains shard || l.tiles.any fun t =>
    (s.tile t).deferred.any (fun d => d.shard == shard) || (s.tile t).body.any fun b => b.desc.shard == shard

/-- The collective finalises a shard whose deferred work a fault of its launch has discarded (R251). -/
def Coll.lostBy (x : Coll) (l : Launch) : Bool := x.desc.flags.testBit 1 && l.lost.contains x.desc.shard

-- # Tie groups (R252, R253)

/-- The tie groups of a launch's program. -/
def State.launchTies (s : State) (l : Launch) : List (Nat × List Nat) :=
  match s.program? l.ctx l.handle with
  | some p => tieGroups p.image
  | none => []

/-- The uses whose gradients a collective's shard takes together: those of the group whose use 0 accumulates into the buffer that the
collective finalises (DESIGN CHOICE, log 37). -/
def State.tieOf (s : State) (l : Launch) (x : Coll) : Option (Nat × List Nat) :=
  if x.desc.flags.testBit 1 then
    (s.launchTies l).find? fun g => (g.2.head?.bind (Config.tieBuffer l.key)) == some x.desc.src
  else none

/-- Gather passes begin: of each tie group whose shard is to be finalised and has no deferred work left (R253, phase 4). -/
def State.beginGathers (s : State) (l : Launch) : State :=
  let starts (x : Coll) : Bool :=
    x.queue == l.queue && x.cmd == l.cmd && !x.gather && (s.tieOf l x).isSome && !s.shardBusy l x.desc.shard
  let n := (s.colls.filter starts).length
  ({ s with colls := s.colls.map fun (x : Coll) => if starts x then { x with gather := true } else x }).each (List.range n)
    fun _ s => s.activityIn l.ctx 4

/-- Every use on this device has run its deferred work, and none can follow: no tile has any left, and the tiles have ended or the norm is
asked for (log 37). -/
def State.usesDone (s : State) (l : Launch) : Bool :=
  l.tiles.all (fun t => (s.tile t).deferred.isEmpty && (s.tile t).body.isNone) && l.lost.isEmpty &&
    (l.tiles.all (fun t => (s.tile t).ended) || s.colls.any fun x => x.queue == l.queue && x.cmd == l.cmd && x.desc.op == 4)

/-- The buffers of uses travel once to the device that holds use 0, at full width (R197, R253). -/
def State.sendUses (s : State) (l : Launch) : State :=
  match NMap.get? s.steps l.ctx with
  | none => s
  | some p =>
    let away := (s.launchTies l).filter fun g => (g.2.head?.bind (Config.tieBuffer l.key)).isNone && !p.tied.contains g.1
    if away.isEmpty || !s.usesDone l then s
    else
      let s := s.each away fun g s => s.each g.2.zipIdx fun u s =>
        match Config.tieBuffer l.key u.1 with
        | some a =>
          let n := 4 * Config.tensorElems l.key u.1
          (s.touch a n).post [Config.tieHome l.key g.1] (.tied l.ctx p.index g.1 u.2 (s.devRead a n))
        | none => s
      s.modStep l.ctx fun p => { p with tied := p.tied ++ away.map (·.1) }

/-- What a launch's tie groups come to where its deferred work may have run out. -/
def State.tiePoint (s : State) (t : Nat) : State :=
  match s.tileLaunch t with
  | some l => s.when (l.isStep && l.opened) fun s => (s.beginGathers l).sendUses l
  | none => s

/-- A tile that executes END runs every descriptor still queued, then is done: rank 0's s1 is the launch's RESULT, as the bundle and the
bodies have left it (DEDUCED, log 81; R132, R248). -/
def State.tryEnd (s : State) (t : Nat) : State :=
  let x := s.tile t
  match s.tileLaunch t with
  | none => s
  | some l =>
    match x.oldest none with
    | some d => if l.fault.isSome then s.setTile t { x with stopped := true } else s.startBody t d true
    | none =>
      let s := (s.setTile t { x with ending := false, ended := true }).setPhase t 9
      (s.when (l.tiles.head? == some t) fun s => s.modLaunch l.queue l.cmd fun l => { l with result := (x.core.sreg 1).toNat }).tiePoint t

/-- The shards that collectives of a launch finalise and that still have descriptors queued or running (R248, R402). -/
def State.heldShards (s : State) (l : Launch) : List Nat :=
  (s.colls.filter fun y => y.queue == l.queue && y.cmd == l.cmd && y.desc.flags.testBit 1).map fun y => y.desc.shard

/-- A tile that holds descriptors of a shard whose finalising collective is held runs the oldest of them (R248, R249). -/
def State.forceShard (s : State) (t : Nat) : State :=
  let x := s.tile t
  match s.tileLaunch t with
  | none => s
  | some l =>
    if x.body.isSome || x.stopped || l.fault.isSome then s
    else match (s.heldShards l).findSome? fun n => x.oldest (some n) with
      | some d => s.startBody t d true
      | none => s

/-- A body has reached LIMIT: its products complete; its set, INV and run state come back from the save area, the main stream's bundle too,
which issues where its hold has been decided; after a fault of the launch the tile stops (R247, R248, R251). -/
def State.endBody (s : State) (t : Nat) : State :=
  let s := s.drainFlights t
  let x := s.tile t
  match x.body with
  | none => s
  | some b =>
    let dt := s.now - b.started
    let bs := s.storeRead t saveArea (16384 + 64)
    let (inv, run) := runOf (bs.drop 16384)
    let s := match s.tileLaunch t with | some l => s.setInv l.ctx t b.desc.acc inv | none => s
    let y : Tile := { x with
      body := none, bundle := b.mainNext, hold := b.mainHold, met := b.mainMet, run := run
      core := x.core.setFromBytes b.desc.acc (bs.take 16384)
      yieldRuns := x.yieldRuns + b2n (!b.forced), forcedRuns := x.forcedRuns + b2n b.forced
      yieldNs := x.yieldNs + (if b.forced then 0 else dt), forcedNs := x.forcedNs + (if b.forced then dt else 0) }
    let y := match b.mainHold, b.mainRel with | some h, some r => y.issue h r | _, _ => y.rollback
    let s := (s.setTile t y).setPhase t 9
    if s.launchFailed t then s.modTile t fun x => { x with stopped := true }
    else if x.ending then s.tryEnd t
    else (s.forceShard t).tiePoint t

/-- Release a tile's held WAIT, WAITT or BAR of its main stream (R130). While a deferred body runs, only how the hold ends is noted: the
main stream resumes when the body has ended (R248). -/
def State.releaseTile (s : State) (t : Nat) (reached : Bool) : State :=
  s.modTile t fun x =>
    match x.body with
    | some b =>
      match b.mainHold, b.mainRel with
      | some h, none => { x with body := some { b with mainRel := some (h.decides reached s.now) } }
      | _, _ => x
    | none =>
      match x.hold with
      | none => x
      | some h => x.issue h (h.decides reached s.now)

/-- Release a held WAIT or WAITT of a tile's deferred body; the body may end with that bundle. -/
def State.releaseBody (s : State) (t : Nat) (reached : Bool) : State :=
  let x := s.tile t
  match x.body, x.hold with
  | some b, some h =>
    let y := x.issue h (h.decides reached s.now)
    let s := s.setTile t y
    if h.last && y.bundle == b.desc.limit then s.endBody t else s
  | _, _ => s

/-- The hold of a tile's main stream that nothing has decided yet. -/
def Tile.mainHeld (x : Tile) : Option Hold :=
  match x.body with
  | some b => if b.mainRel.isSome then none else b.mainHold
  | none => x.hold

/-- The hold of a tile's running deferred body. -/
def Tile.bodyHeld (x : Tile) : Option Hold := if x.body.isSome then x.hold else none

/-- A wait or barrier of a tile's main stream fails: the tile stops at its bundle. A deferred body that runs there completes first (R134,
R251). -/
def State.failTile (s : State) (t status detail : Nat) : State :=
  let x := s.tile t
  match x.body, x.launch with
  | some b, some (q, c) => s.launchFault q c status detail t b.mainNext
  | _, _ => s.tileFault t status detail

end Sys2Proof.Machine
end

