-- ==== Sys2Proof/Machine/Codec.lean ====
section
/-! DEFINITION. The lossless block codec (R352 to R368): blocks and streams, the choice among the candidates of a block, and
the checks of the decoder. -/

namespace Sys2Proof.Machine

/-- Plain bytes of a full block. -/
def blockSize : Nat := 4096

/-- B(L): no stream of a plain length exceeds it (R353). -/
def streamBound (l : Nat) : Nat := 4160 * ceilDiv l blockSize

/-- The stored length of a block with a payload of so many bytes (R353). -/
def storedLen (len : Nat) : Nat := 64 * ceilDiv (8 + len) 64

/-- The plain length of block `b` of a plain length `l`. -/
def plainLen (l b : Nat) : Nat := min blockSize (l - blockSize * b)

/-- A list cut into elements of `w` bytes; the first number bounds how many. -/
def elements (w : Nat) : Nat → List Byte → List (List Byte)
  | 0, _ => []
  | n + 1, bs => if bs.isEmpty then [] else bs.take w :: elements w n (bs.drop w)

/-- Bits as bytes: bit i in byte i / 8 at place i mod 8 (R356). -/
def bitmapBytes (bits : List Bool) : List Byte :=
  leBytes (bits.length / 8) (bits.foldr (fun b acc => 2 * acc + b2n b) 0)

/-- The bits of so many bytes. -/
def bitmapBits (bs : List Byte) : List Bool := bs.flatMap fun b => (List.range 8).map fun i => b.getLsbD i

/-- An element is zero when all its bytes are (R356). -/
def zeroElem (e : List Byte) : Bool := e.all fun b => b == 0

/-- The byte that occurs most often, the lowest on a tie (R358). -/
def dominant (p : List Byte) : Byte :=
  let count (v : Nat) := p.countP fun b => b.toNat == v
  BitVec.ofNat 8 ((List.range 256).foldl (fun best v => if count best < count v then v else best) 0)

/-- A plane is coded by its dominant byte when that is shorter (R358). -/
def planeCoded (n diff : Nat) : Bool := decide (1 + n / 8 + diff < n)

/-- The payload of one plane, and whether it is coded by its dominant byte. -/
def planePayload (p : List Byte) : List Byte × Bool :=
  let d := dominant p
  let diff := p.filter fun b => b != d
  if planeCoded p.length diff.length then (d :: (bitmapBytes (p.map fun b => b != d) ++ diff), true) else (p, false)

/-- A candidate for a block: its mode, WLOG, PMASK and payload. -/
structure Candidate where
  mode : Nat
  wlog : Nat
  pmask : Nat
  payload : List Byte

/-- The SPARSE candidate (R357). -/
def sparseCand (plain : List Byte) (wlog : Nat) : Candidate :=
  let es := elements (2 ^ wlog) plain.length plain
  ⟨2, wlog, 0, bitmapBytes (es.map fun e => !zeroElem e) ++ (es.filter fun e => !zeroElem e).flatten⟩

/-- The PLANE candidate (R357, R358). -/
def planeCand (plain : List Byte) (wlog : Nat) : Candidate :=
  let w := 2 ^ wlog
  let es := elements w plain.length plain
  let ps := (List.range w).map fun p => planePayload (es.map fun e => e.getD p 0)
  ⟨3, wlog, ((List.range w).map fun p => b2n (ps.getD p ([], false)).2 * 2 ^ p).foldl (· + ·) 0, (ps.map (·.1)).flatten⟩

/-- The candidates that apply, in the order of preference on a tie (R359). -/
def candidates (plain : List Byte) : List Candidate :=
  ⟨0, 0, 0, plain⟩ :: (if zeroElem plain then [⟨1, 0, 0, []⟩] else [])
    ++ (List.range 3).map (sparseCand plain) ++ (List.range 3).map (planeCand plain)

/-- The candidate of smallest LEN, the first on a tie (R359). -/
def bestCand (l : List Candidate) (d : Candidate) : Candidate :=
  l.foldl (fun b c => if c.payload.length < b.payload.length then c else b) d

/-- Header bytes 0 to 3 of a block (Table 10-1). -/
def blockHead (len pmask wlog mode nb : Nat) : List Byte :=
  leBytes 2 len ++ [BitVec.ofNat 8 (pmask * 16 + wlog * 4 + mode), BitVec.ofNat 8 (nb / 64 - 1)]

/-- Code one block of plain bytes: header, payload, zero padding (R353 to R359). -/
def encodeBlock (plain : List Byte) : List Byte :=
  let c := bestCand (candidates plain) ⟨0, 0, 0, plain⟩
  let n := c.payload.length
  let head := blockHead n c.pmask c.wlog c.mode plain.length
  head ++ leBytes 4 (crc32c (head ++ plain)) ++ c.payload ++ List.replicate (storedLen n - 8 - n) 0

/-- Code a plain buffer into a stream of so many blocks. -/
def encodeStream : Nat → List Byte → List Byte
  | 0, _ => []
  | n + 1, bs => if bs.isEmpty then [] else encodeBlock (bs.take blockSize) ++ encodeStream n (bs.drop blockSize)

/-- What decoding a block comes to: its plain bytes with its stored length, or damage of KIND 1 (rejected, R367) or 2 (CRC,
R368). -/
inductive Decoded where
  | plain (bytes : List Byte) (stored : Nat)
  | damaged (kind : Nat)
deriving DecidableEq, Repr

/-- Put the marked elements back between zeros. -/
def fillMarked {α : Type} (zero : α) : List Bool → List α → List α
  | [], _ => []
  | true :: bits, x :: xs => x :: fillMarked zero bits xs
  | _ :: bits, xs => zero :: fillMarked zero bits xs

/-- Decode a SPARSE payload. -/
def decodeSparse (pay : List Byte) (w nb : Nat) : Option (List Byte) :=
  let n := nb / w
  if pay.length < n / 8 then none
  else
    let bits := bitmapBits (pay.take (n / 8))
    let k := bits.countP id
    if pay.length ≠ n / 8 + w * k then none
    else
      let es := elements w k (pay.drop (n / 8))
      if es.any zeroElem then none else some (fillMarked (List.replicate w 0) bits es).flatten

/-- Decode the planes of a PLANE payload from plane `p` on: the planes and what is left of the payload. -/
def decodePlanes (n pmask : Nat) : Nat → Nat → List Byte → Option (List (List Byte) × List Byte)
  | 0, _, pay => some ([], pay)
  | k + 1, p, pay =>
    if pmask.testBit p then
      if pay.length < 1 + n / 8 then none
      else
        let d := pay.headD 0
        let bits := bitmapBits ((pay.drop 1).take (n / 8))
        let c := bits.countP id
        let rest := pay.drop (1 + n / 8)
        if rest.length < c ∨ (rest.take c).contains d then none
        else
          let plane := fillMarked d bits (rest.take c)
          if dominant plane ≠ d ∨ !planeCoded n c then none
          else (decodePlanes n pmask k (p + 1) (rest.drop c)).map fun q => (plane :: q.1, q.2)
    else if pay.length < n then none
    else (decodePlanes n pmask k (p + 1) (pay.drop n)).map fun q => (pay.take n :: q.1, q.2)

/-- Decode a PLANE payload. -/
def decodePlane (pay : List Byte) (w pmask nb : Nat) : Option (List Byte) :=
  match decodePlanes (nb / w) pmask w 0 pay with
  | some (ps, []) => some ((List.range (nb / w)).flatMap fun i => ps.map fun p => p.getD i 0)
  | _ => none

/-- Decode a block from the bytes that the transfer may still read, where its plain length is known (R366 to R368). What is accepted is the one
block that R359 produces from its plain bytes (R367; log 32). -/
def decodeBlock (bs : List Byte) (nb : Nat) : Decoded :=
  if bs.length < 8 then .damaged 1
  else
    let h := leNat (bs.take 2)
    let b2 := (bs.getD 2 0).toNat
    let b3 := (bs.getD 3 0).toNat
    let len := h % 8192
    let pmask := b2 / 16
    let wlog := b2 / 4 % 4
    let mode := b2 % 4
    if 8192 ≤ h ∨ 64 ≤ b3 ∨ wlog = 3 ∨ (mode < 2 ∧ wlog ≠ 0) ∨ (pmask ≠ 0 ∧ (mode ≠ 3 ∨ 2 ^ 2 ^ wlog ≤ pmask))
        ∨ blockSize < len ∨ b3 ≠ nb / 64 - 1 ∨ bs.length < 8 + len then .damaged 1
    else
      let pay := (bs.drop 8).take len
      let plain : Option (List Byte) :=
        match mode with
        | 0 => if len = nb then some pay else none
        | 1 => if len = 0 then some (List.replicate nb 0) else none
        | 2 => decodeSparse pay (2 ^ wlog) nb
        | _ => decodePlane pay (2 ^ wlog) pmask nb
      match plain with
      | none => .damaged 1
      | some p =>
        if crc32c (bs.take 4 ++ p) ≠ leNat ((bs.drop 4).take 4) then .damaged 2
        else if (encodeBlock p).take (8 + len) ≠ bs.take (8 + len) then .damaged 1
        else .plain p (storedLen len)

/-- The bytes that a block at the start of a buffer takes by its header; its header alone where LEN is not one that a block has. -/
def blockExtent (bs : List Byte) : Nat :=
  let len := leNat (bs.take 2) % 8192
  if len ≤ blockSize then storedLen len else 8

-- # Coding with its self-check (R360)

/-- What coding a buffer comes to: the blocks that have left the codec, their plain bytes in number, and the block that failed its self-check
with its KIND. -/
structure Coded where
  bytes : List Byte
  plain : Nat
  fail  : Option (Nat × Nat)
deriving DecidableEq, Repr

/-- A block with a bit of it wrong. -/
def flipBit (bs : List Byte) (bit : Nat) : List Byte := bs.modify (bit / 8) fun b => b ^^^ BitVec.ofNat 8 (2 ^ (bit % 8))

/-- Code a plain buffer block by block from a block on; each is decoded and checked before it leaves, and the first that fails ends the coding
with no byte of it written. `faults` are the bits of blocks that the codec gets wrong. -/
def codeStream (faults : List (Nat × Nat)) : Nat → Nat → List Byte → List Byte → Coded
  | 0, b, _, acc => ⟨acc, blockSize * b, none⟩
  | n + 1, b, bs, acc =>
    if bs.isEmpty then ⟨acc, blockSize * b, none⟩
    else
      let plain := bs.take blockSize
      let out := ((faults.filter fun f => f.1 == b).map (·.2)).foldl flipBit (encodeBlock plain)
      match decodeBlock out plain.length with
      | .plain _ _ =>
        if plain.length < blockSize then ⟨acc ++ out, blockSize * b + plain.length, none⟩
        else codeStream faults n (b + 1) (bs.drop blockSize) (acc ++ out)
      | .damaged k => ⟨acc, blockSize * b, some (b, k)⟩

end Sys2Proof.Machine
end

