-- ==== Sys2Proof/Machine/Stash.lean ====
section
/-! DEFINITION. The activation stash (R255 to R259, R362): what a stash write comes to, and what it leaves. -/

namespace Sys2Proof.Machine

/-- The tile-store bytes of a transfer. -/
def Transfer.bytes (x : Transfer) : Nat := x.rowLen * x.rows

/-- The memory ranges of a transfer: its rows at the stride; one row for a DMA; the bound of the stream with the codec
(R361). -/
def Transfer.ranges (x : Transfer) : List (Nat × Nat) :=
  if x.comp then [(x.maddr, streamBound x.bytes)]
  else (List.range x.rows).map fun r => (x.maddr + r * x.stride, x.rowLen)

/-- The bytes a transfer counts for in the segment arena: a compressed one counts its bound (R362). -/
def Transfer.counted (x : Transfer) : Nat := if x.comp then streamBound x.bytes else x.bytes

/-- A range lies in an arena part. -/
def inside (a n base size : Nat) : Bool := decide (base ≤ a) && decide (a + n ≤ base + size)

/-- The size of a stage's boundary arena (R256). -/
def Arena.bndSize (x : Arena) : Nat := x.slots * x.nbnd * x.bslot

/-- The bytes that the segments of a boundary slot hold. -/
def Arena.slotBytes (x : Arena) (slot : Nat) : Nat :=
  ((x.segs.filter fun g => g.slot == slot && !g.dropped).map (·.bytes)).foldl (· + ·) 0

/-- The segment that is open. -/
def Arena.current (x : Arena) : Option Segment :=
  match x.opened with
  | none => none
  | some (b, k) => x.segs.find? fun g => g.slot == b && g.bnd == k

/-- What a stash write of a context comes to: a boundary write, a segment write that is kept or dropped, an overrun under
FAULT, or a range in neither arena (R257, R259). -/
inductive StashRes where
  | go (acts : List StashAct)
  | drop (acts : List StashAct)
  | fault (stage : Nat)
  | outside

/-- Decide a stash write of `n` bytes whose memory ranges are given (R257 to R259). -/
def State.stashWrite (s : State) (ctx n : Nat) (ranges : List (Nat × Nat)) : StashRes :=
  let all (base size : Nat) : Bool := ranges.all fun r => inside r.1 r.2 base size
  match s.arenas.find? fun x => x.ctx == ctx && (all x.bndBase x.bndSize || all x.segBase x.quota) with
  | none => .outside
  | some x =>
    if all x.bndBase x.bndSize then
      let i := ((ranges.headD (x.bndBase, 0)).1 - x.bndBase) / max 1 x.bslot
      .go [.opens ctx x.place (i / max 1 x.nbnd) (i % max 1 x.nbnd)]
    else
      match x.current with
      | some g =>
        if g.dropped then .drop []
        else if x.quota < x.used + n ∨ (!x.dyn ∧ x.segStatic < x.slotBytes g.slot + n) then
          if x.faults then .fault x.stage else .drop [.drops ctx x.place n]
        else .go [.adds ctx x.place n]
      | none =>
        if x.quota < x.used + n then
          if x.faults then .fault x.stage else .drop []
        else .go [.adds ctx x.place n]

/-- The registers of an arena, as far as the counts go. -/
def State.showArena (s : State) (x : Arena) : State :=
  s.setFld F.EXC_STASH_USE_CUR_KIB (x.ctx * 8 + x.place) (min (ceilDiv x.used 1024) 0xFFFFFFFF)

/-- Change the arena of a local stage. -/
def State.modArena (s : State) (ctx place : Nat) (f : Arena → Arena) : State :=
  match s.arenas.find? fun x => x.ctx == ctx && x.place == place with
  | none => s
  | some x =>
    let y := f x
    let l := s.arenas.map fun (z : Arena) => if z.ctx = ctx ∧ z.place = place then y else z
    ({ s with arenas := l }).showArena y

/-- Take a stash action (R257 to R259): opening a segment of a slot starts it and drops the record of that slot's later
segments; a dropped segment gives its bytes back and its mark byte becomes 1. -/
def State.stashDo (s : State) (a : StashAct) : State :=
  match a with
  | .opens ctx place b k =>
    s.modArena ctx place fun x =>
      { x with opened := some (b, k)
               segs := (x.segs.filter fun g => !(g.slot == b && decide (k ≤ g.bnd))) ++ [⟨b, k, 0, false⟩] }
  | .adds ctx place n =>
    s.modArena ctx place fun x =>
      { x with used := x.used + n, peak := max x.peak (x.used + n)
               segs := x.segs.map fun g => if x.opened == some (g.slot, g.bnd) then { g with bytes := g.bytes + n } else g }
  | .drops ctx place _ =>
    match s.arenas.find? fun x => x.ctx == ctx && x.place == place with
    | none => s
    | some x =>
      match x.current with
      | none => s
      | some g =>
        let s := s.devWrite (x.markBase + g.slot * x.nbnd + g.bnd) [1]
        let s := s.bumpFld F.EXC_STASH_MARKS_TOTAL (ctx * 8 + place) 1
        s.modArena ctx place fun x =>
          { x with used := x.used - g.bytes, marks := x.marks + 1
                   segs := x.segs.map fun y => if y = g then { y with bytes := 0, dropped := true } else y }

/-- What a stash transfer comes to (R257 to R259). -/
def State.stashJudge (s : State) (x : Transfer) : StashRes := s.stashWrite x.ctx x.counted x.ranges

/-- A last-use read whose memory range lies in the segment arena gives its bytes back when it completes (R258). -/
def State.stashRead (s : State) (x : Transfer) : State :=
  if x.toMem ∨ x.hint ≠ 3 then s
  else
    match s.arenas.find? fun y => y.ctx == x.ctx && x.ranges.all fun r => inside r.1 r.2 y.segBase y.quota with
    | none => s
    | some y => s.modArena x.ctx y.place fun y => { y with used := y.used - x.counted }

/-- A transfer out of a table of mark bytes shows its tile the marks: whether one that it has read is 1 (R260). -/
def State.seeMarks (s : State) (x : Transfer) : State :=
  match s.arenas.find? fun y => y.ctx == x.ctx && !x.toMem && x.ranges.any fun r => inside r.1 r.2 y.markBase (y.slots * y.nbnd) with
  | none => s
  | some _ => s.modTile x.tile fun t => { t with marked := x.ranges.any fun r => (s.devRead r.1 r.2).any fun b => b == 1 }

end Sys2Proof.Machine
end

