-- ==== Sys2Proof/Machine/SyncOps.lean ====
section
/-! DEFINITION. What every agent does to synchronisation objects: translation of a virtual id (R150, R151), increments
with their watches and chains (R158 to R171), waits and releases (R161), barrier arrivals (R165), notification records
(R172 to R175), errors (R164, R174), and the making and unmaking of objects (R149, R154, R156). -/

namespace Sys2Proof.Machine

-- The codes of Table 4-8.
namespace Proto
def unmapped : Nat := 0x01
def kind : Nat := 0x02
def overflow : Nat := 0x03
def bound : Nat := 0x04
def order : Nat := 0x05
def epoch : Nat := 0x06
def participants : Nat := 0x07
def destroyed : Nat := 0x08
def mapped : Nat := 0x09
def chain : Nat := 0x0A
def abandoned : Nat := 0x0B
end Proto

/-- The DETAIL of a protocol error (R174). -/
def protoDetail (code vid : Nat) : Nat := 2 ^ 24 * code + vid % 2 ^ 16

/-- What a virtual id of a context names (R151): nothing the context may name, nothing at all, or an object (by its key)
and the side of it. -/
inductive Named where
  | outside
  | unmapped
  | object (key : Nat) (side : Bool) (o : SyncObj)
deriving DecidableEq, Repr

/-- Translate a virtual id (R150, Table 4-1): a BOUNDED object has two ids. -/
def State.named (s : State) (ctx vid : Nat) : Named :=
  if s.fld F.QUE_CTX_SYN_IDS ctx ≤ vid then .outside
  else
    let k := 65536 * ctx + vid
    match NMap.get? s.objs k with
    | some o => .object k false o
    | none =>
      if vid % 2 = 1 then
        match NMap.get? s.objs (k - 1) with
        | some o => if o.kind = .bounded then .object (k - 1) true o else .unmapped
        | none => .unmapped
      else .unmapped

def State.setObj (s : State) (k : Nat) (o : SyncObj) : State := { s with objs := NMap.set s.objs k o }

/-- Change an object that exists. -/
def State.modObj (s : State) (k : Nat) (f : SyncObj → SyncObj) : State :=
  match NMap.get? s.objs k with
  | none => s
  | some o => s.setObj k (f o)

/-- The value of a side (Table 4-1). -/
def SyncObj.value (o : SyncObj) (side : Bool) : Nat := if side then o.c else o.p

/-- Set the value of a side. -/
def SyncObj.setValue (o : SyncObj) (side : Bool) (v : Nat) : SyncObj := if side then { o with c := v } else { o with p := v }

-- # Notification records (R172, R173)

def State.nring (s : State) (ctx : Nat) : NRing := NMap.getD s.nrings ctx ⟨0, 1, []⟩
def State.setNring (s : State) (ctx : Nat) (r : NRing) : State := { s with nrings := NMap.set s.nrings ctx r }

/-- The four words of a notification record (Table 4-7). -/
def NRec.words (r : NRec) (phase seq : Nat) : List Nat :=
  [ r.time, 2 ^ 56 * r.kind + 2 ^ 48 * (r.count % 256) + 2 ^ 32 * (r.vid % 65536) + r.tag % 2 ^ 32, r.value % 2 ^ 64,
    2 ^ 63 * phase + seq % 2 ^ 63 ]

def State.nringSize (s : State) (ctx : Nat) : Nat := 2 ^ s.fld F.SYN_NQ_CFG_LOG2 ctx
def State.nringRoom (s : State) (ctx : Nat) : Bool := decide ((s.nring ctx).used < s.nringSize ctx)

/-- Write a record into a free slot of a context's notification ring, then raise its message (R172). -/
def State.nringWrite (s : State) (ctx : Nat) (e : NRec) : State :=
  let r := s.nring ctx
  let tail := s.fld F.SYN_NQ_STATE_TAIL ctx
  let phase := s.fld F.SYN_NQ_STATE_PHASE ctx
  let base := 4096 * s.fld F.SYN_NQ_BASE_ADDR ctx
  let s := s.spaceWrite (s.fld F.SYN_NQ_BASE_SPACE ctx) (base + 32 * tail) (wordsBytes (e.words phase r.seq))
  let wrap := tail + 1 = s.nringSize ctx
  let s := s.setFld F.SYN_NQ_STATE_TAIL ctx (if wrap then 0 else tail + 1)
  let s := s.setFld F.SYN_NQ_STATE_PHASE ctx (if wrap then 1 - phase else phase)
  let s := s.setNring ctx { r with used := r.used + 1, seq := r.seq + 1 }
  s.when (s.flag F.SYN_NQ_CFG_IRQ_EN ctx) fun s => s.msix (s.ctxFn ctx) (s.fld F.SYN_NQ_CFG_VECTOR ctx)

/-- The object a record's virtual id belongs to: both ids of a BOUNDED are one object. -/
def State.objKeyOf (s : State) (ctx vid : Nat) : Nat :=
  match s.named ctx vid with
  | .object k _ _ => k
  | _ => 65536 * ctx + vid

/-- Two held records stand for one undelivered record (R173): a watch's THRESHOLD, an object's PROTOCOL. -/
def State.sameHeld (s : State) (ctx : Nat) (a b : NRec) : Bool :=
  a.kind == b.kind &&
    ((a.kind == 1 && a.vid == b.vid && a.tag == b.tag) ||
      (a.kind == 3 && s.objKeyOf ctx a.vid == s.objKeyOf ctx b.vid))

/-- Deliver a record: dropped and counted while the ring is not enabled; written where there is room; otherwise merged or
held if it is a THRESHOLD, held once an object if it is a PROTOCOL, dropped and counted if it is another (R172, R173). -/
def State.notify (s : State) (ctx : Nat) (e : NRec) : State :=
  if !s.flag F.SYN_NQ_CFG_EN ctx then s.bumpFld F.SYN_NQ_STATE_LOST ctx 1
  else if s.nringRoom ctx ∧ (s.nring ctx).held = [] then s.nringWrite ctx e
  else
    let r := s.nring ctx
    let there := r.held.any (s.sameHeld ctx e)
    if e.kind = 1 then
      if there then
        let merge (h : NRec) : NRec :=
          if s.sameHeld ctx e h then { h with count := satAdd 255 h.count e.count, value := e.value, time := e.time } else h
        s.setNring ctx { r with held := r.held.map merge }
      else s.setNring ctx { r with held := r.held ++ [e] }
    else if e.kind = 3 ∧ !there then s.setNring ctx { r with held := r.held ++ [e] }
    else s.bumpFld F.SYN_NQ_STATE_LOST ctx 1

/-- Write what a ring owes, as far as there is room: the held records, then one LOST record (R173). -/
def State.nringFlush : Nat → State → Nat → State
  | 0, s, _ => s
  | n + 1, s, ctx =>
    if s.nringRoom ctx = false then s
    else match (s.nring ctx).held with
      | e :: rest => State.nringFlush n ((s.setNring ctx { s.nring ctx with held := rest }).nringWrite ctx e) ctx
      | [] =>
        let lost := s.fld F.SYN_NQ_STATE_LOST ctx
        if lost = 0 then s
        else (s.nringWrite ctx ⟨s.now, 6, 0, 0, lost, 0⟩).setFld F.SYN_NQ_STATE_LOST ctx 0

/-- A TRACE record of a traced object in a context in observe mode (R175). -/
def State.traceRec (s : State) (ctx vid : Nat) (o : SyncObj) (event : Nat) (src : Origin) (value : Nat) : State :=
  s.when (o.trace && s.flag F.SYN_DBG_CTL_OBSERVE ctx) fun s =>
    s.notify ctx ⟨s.now, 4, event * 16 + src.kind, vid, src.source, value⟩

-- # Errors (R164, R174)

/-- Record a protocol error in SYN_ERR and by a PROTOCOL record (R174). -/
def State.protoError (s : State) (ctx vid code : Nat) (src : Origin) (value : Nat) : State :=
  let s := s.when (!s.flag F.SYN_ERR_VALID ctx) fun s =>
    let s := s.setFld F.SYN_ERR_VALID ctx 1
    let s := s.setFld F.SYN_ERR_CODE ctx code
    let s := s.setFld F.SYN_ERR_VID ctx vid
    let s := s.setFld F.SYN_ERR_KIND ctx src.kind
    s.setFld F.SYN_ERR_SOURCE ctx src.source
  if s.flag F.SYN_NQ_CFG_EN ctx then s.notify ctx ⟨s.now, 3, code, vid, 0, value⟩
  else s.bumpFld F.SYN_NQ_STATE_LOST ctx 1

-- # Releases (R161)

/-- Release one waiter as satisfied: a tile issues, a SYNC_WAIT completes with the value seen (R161). -/
def State.releaseWaiter (s : State) (who : WaiterRef) (value : Nat) : State :=
  match who with
  | .tile t => s.releaseTile t true
  | .body t => s.releaseBody t true
  | .cmd q c => if (s.cmd? q c).any fun x => x.stop.isSome then s else s.finish q c St.ok 0 value

/-- Release one waiter with an error status: a tile's launch ends with it, a command completes with it. -/
def State.failWaiter (s : State) (who : WaiterRef) (status detail : Nat) : State :=
  match who with
  | .tile t => s.failTile t status detail
  | .body t => s.tileFault t status detail
  | .cmd q c => s.finishFree q c status detail

/-- The trace source of a released waiter (R175). -/
def WaiterRef.origin : WaiterRef → Origin
  | .tile t => ⟨0, t⟩
  | .body t => ⟨0, t⟩
  | .cmd q _ => ⟨1, q⟩

/-- Everyone an object holds: its waiters, and a barrier's arrivals, each with the side it waits at. -/
def SyncObj.everyone (o : SyncObj) : List (WaiterRef × Bool) :=
  o.waiters.map (fun w => (w.who, w.side)) ++ (o.arrived ++ o.parked).map fun t => (WaiterRef.tile t, false)

/-- The TRACE record of a released waiter of an object. -/
def State.traceRelease (s : State) (k : Nat) (o : SyncObj) (w : WaiterRef × Bool) : State :=
  s.traceRec (k / 65536) (k % 65536 + b2n w.2) o 3 w.1.origin (o.value w.2)

/-- Release every waiter and arrival of an object with a status (R156, R157, R164). A barrier's counts A and Q are empty after it: no rule
says what they are once ERROR has released their arrivals, nor after DBG_CLEAR (DESIGN CHOICE, log 82). -/
def State.failAll (s : State) (k : Nat) (o : SyncObj) (status detail : Nat) : State :=
  let s := s.modObj k fun o => { o with waiters := [], arrived := [], parked := [] }
  s.each o.everyone fun w s => (s.traceRelease k o w).failWaiter w.1 status detail

/-- Put an object into ERROR and release everyone it holds, each with the id of the side that failed (R164; DESIGN CHOICE, log 119). -/
def State.enterError (s : State) (k vid code : Nat) : State :=
  match NMap.get? s.objs k with
  | none => s
  | some o => (s.setObj k { o with err := some code }).failAll k o St.protocol (protoDetail code vid)

/-- Satisfy the waits of one side whose target the value has reached (R161). -/
def State.wake (s : State) (ctx k : Nat) (side : Bool) : State :=
  match NMap.get? s.objs k with
  | none => s
  | some o =>
    let v := o.value side
    let due := o.waiters.filter fun w => w.side == side && decide (w.target ≤ v)
    let s := s.setObj k { o with waiters := o.waiters.filter fun w => !(w.side == side && decide (w.target ≤ v)) }
    s.each due fun w s => (s.traceRec ctx w.vid o 3 w.who.origin v).releaseWaiter w.who v

-- # Watches (R168 to R171)

/-- Take one watch from an object and from the counts. -/
def State.dropWatch (s : State) (ctx k : Nat) (w : Watch) : State :=
  let s := s.modObj k fun o => { o with watches := o.watches.filter fun x => !(x.vid == w.vid && x.tag == w.tag) }
  let s := s.setFld F.SYN_CTX_USE_WATCHES ctx (s.fld F.SYN_CTX_USE_WATCHES ctx - 1)
  s.setFld F.SYN_WATCH_FREE_FREE 0 (s.fld F.SYN_WATCH_FREE_FREE 0 + 1)

/-- How many thresholds a value has passed, counting the current one, at most 255 (R170). -/
def Watch.firings (w : Watch) (v : Nat) : Nat :=
  if w.repeats then min 255 ((v - w.thresh) / w.period + 1) else 1

/-- The smallest later threshold above the value (R170). -/
def Watch.nextThresh (w : Watch) (v : Nat) : Nat := w.thresh + w.period * ((v - w.thresh) / w.period + 1)

/-- What applies a watch's addition: to a state, a target, an amount and a TAG. -/
abbrev Act := State → Nat → Nat → Nat → State

/-- The watches that an earlier firing still has to act, by object, id and TAG: a chain does not fire them (R170). -/
abbrev Later := List (Nat × Nat × Nat)

/-- The name of a watch on an object. -/
def Watch.name (w : Watch) (k : Nat) : Nat × Nat × Nat := (k, w.vid, w.tag)

/-- Fire one watch whose threshold the value has reached: it advances or goes, writes its THRESHOLD record, and adds to its
target through `act`; with no `act` the chain is at its end and the addition is withheld with code CHAIN (R170, R171). -/
def State.fire (act : Option Act) (ctx k v : Nat) (w : Watch) (s : State) : State :=
  let n := w.firings v
  let s :=
    if w.repeats then
      s.modObj k fun o => { o with watches := o.watches.map fun x =>
        if x.vid == w.vid && x.tag == w.tag then { x with thresh := w.nextThresh v } else x }
    else s.dropWatch ctx k w
  let s := s.when w.notify fun s => s.notify ctx ⟨s.now, 1, n, w.vid, w.tag, v⟩
  if w.signal then
    match act with
    | some f => f s w.target (w.inc * n) w.tag
    | none => s.protoError ctx w.vid Proto.chain ⟨2, w.tag % 2 ^ 28⟩ v
  else s

/-- Put a watch into a list in ascending TAG. -/
def insertTag (w : Watch) : List Watch → List Watch
  | [] => [w]
  | x :: rest => if w.tag < x.tag then w :: x :: rest else x :: insertTag w rest

/-- The watches of one side that the value fires, in ascending TAG (R170). -/
def SyncObj.due (o : SyncObj) (side : Bool) : List Watch :=
  (o.watches.filter fun w => w.side == side && decide (w.thresh ≤ o.value side)).foldl (fun l w => insertTag w l) []

/-- Fire watches one after another, each at the value it finds, its chain complete before the next acts (R170). One that a chain has
cancelled is passed over. -/
def State.fireList (act : List Watch → Option Act) (ctx k : Nat) (side : Bool) : List Watch → State → State
  | [], s => s
  | w :: rest, s =>
    let s := match NMap.get? s.objs k with
      | none => s
      | some o => if o.watches.contains w then s.fire (act rest) ctx k (o.value side) w else s
    State.fireList act ctx k side rest s

/-- Fire the watches of a side after its value has risen, but for those that an earlier firing still has to act. -/
def State.fireAll (act : Later → Option Act) (later : Later) (ctx k : Nat) (side : Bool) (s : State) : State :=
  match NMap.get? s.objs k with
  | none => s
  | some o =>
    s.fireList (fun rest => act (later ++ rest.map fun w => w.name k)) ctx k side
      ((o.due side).filter fun w => !later.contains (w.name k))

-- # Increments (R158 to R164, R166)

/-- What an increment meets: applied with the value after it, kept by DBG_HOLD, stalled by a full store of kept increments,
or an error with its status and detail. -/
inductive IncAns where
  | applied (value : Nat)
  | kept
  | stalled
  | failed (status detail : Nat)
deriving DecidableEq, Repr

/-- The protocol error an increment would be (R159, R163, R166). An increment of a BOUNDED that both passes 2^64 and breaks BOUND or ORDER
is reported as OVERFLOW: no rule says which comes first (DESIGN CHOICE, log 83). -/
def SyncObj.incError (o : SyncObj) (side : Bool) (inc : Nat) : Option Nat :=
  if o.kind = .barrier then some Proto.kind
  else if 2 ^ 64 ≤ o.value side + inc then some Proto.overflow
  else if o.kind = .bounded ∧ side = false ∧ o.n < o.p + inc - o.c then some Proto.bound
  else if o.kind = .bounded ∧ side = true ∧ o.p < o.c + inc then some Proto.order
  else none

/-- Apply an increment once, checked, with the waits it satisfies and the watches it fires; `fuel` is how many watch
actions a chain may still apply in sequence (R171), `later` the watches that an earlier firing of the chain still has to act. `park` says
that the source does not present a stalled increment again: it waits at the object (R177). DBG_HOLD comes first, also where the increment
will fail (DESIGN CHOICE, log 119). -/
def State.applyInc : Nat → Bool → Later → State → Nat → Nat → Nat → Origin → IncReply → State × IncAns
  | fuel, park, later, s, ctx, vid, inc, src, reply =>
    match s.named ctx vid with
    | .outside => (s, .failed St.noPermission 3)
    | .unmapped => (s.protoError ctx vid Proto.unmapped src 0, .failed St.protocol (protoDetail Proto.unmapped vid))
    | .object k side o =>
      let h : HeldInc := ⟨vid, inc, src, reply, fuel⟩
      if o.hold then
        if o.heldIncs.length < 4096 then (s.setObj k { o with heldIncs := o.heldIncs ++ [h] }, .kept)
        else if park then (s.setObj k { o with stalled := o.stalled ++ [h] }, .kept)
        else (s, .stalled)
      else if o.kind = .barrier then
        (s.protoError ctx vid Proto.kind src (o.value side), .failed St.protocol (protoDetail Proto.kind vid))
      else
        match o.err with
        | some code => (s, .failed St.protocol (protoDetail code vid))
        | none =>
          match o.incError side inc with
          | some code =>
            let s := s.protoError ctx vid code src (o.value side)
            let s := if code = Proto.bound ∨ code = Proto.order then s.enterError k vid code else s
            (s, .failed St.protocol (protoDetail code vid))
          | none =>
            let v := o.value side + inc
            let o' := o.setValue side v
            let s := (s.setObj k o').traceRec ctx vid o' 1 src v
            let s := s.wake ctx k side
            let act (l : Later) : Option Act :=
              match fuel with
              | 0 => none
              | n + 1 => some fun s t i tag => (State.applyInc n true l s ctx t i ⟨2, tag % 2 ^ 28⟩ .none).1
            (s.fireAll act later ctx k side, .applied v)

/-- The watch actions of one chain (R171). -/
def chainLimit : Nat := 8

/-- How the watches of a chain act that begins with them (R171). -/
def firstAct (ctx : Nat) (later : Later) : Option Act :=
  some fun s t i tag => (State.applyInc (chainLimit - 1) true later s ctx t i ⟨2, tag % 2 ^ 28⟩ .none).1

/-- An increment by one of the sources of Table 4-4 that presents a stalled one again. -/
def State.increment (s : State) (ctx vid inc : Nat) (src : Origin) (reply : IncReply) : State × IncAns :=
  State.applyInc chainLimit false [] s ctx vid inc src reply

/-- An increment by a source that does not. -/
def State.incrementOnce (s : State) (ctx vid inc : Nat) (src : Origin) (reply : IncReply) : State × IncAns :=
  State.applyInc chainLimit true [] s ctx vid inc src reply

/-- Report what an increment has come to (Table 4-4): to its SYNC_SIGNAL, to the launch of the tile and bundle that issued it, or to its
core. -/
def State.replyInc (s : State) (r : IncReply) (a : IncAns) : State :=
  match r, a with
  | .cmd q c, .applied v => if (s.cmd? q c).any fun x => x.stop.isSome then s else s.finish q c St.ok 0 v
  | .cmd q c, .failed st d => s.finishFree q c st d
  | .launch q c t b, .failed st d => s.launchFault q c st d t b
  | .core n, .applied v => s.emit (.coreReply n St.ok 0 (some v))
  | .core n, .failed st d => s.emit (.coreReply n st d none)
  | _, _ => s

/-- Apply increments that were kept or stalled in their order of arrival, each under its normal checks and in its chain, and count those
that were applied (R171, R177). -/
def State.applyHeld (s : State) (ctx : Nat) : List HeldInc → State × Nat
  | [] => (s, 0)
  | h :: rest =>
    let (s, a) := State.applyInc h.chain true [] s ctx h.vid h.inc h.origin h.reply
    let (s, n) := (s.replyInc h.reply a).applyHeld ctx rest
    (s, match a with | .applied _ => n + 1 | _ => n)

-- # Waits (R161)

/-- What a wait meets: satisfied at once with the value, held, or an error. -/
inductive WaitAns where
  | satisfied (value : Nat)
  | held
  | failed (status detail : Nat)
deriving DecidableEq, Repr

/-- Begin a wait at the home die. -/
def State.waitOn (s : State) (ctx vid target : Nat) (src : Origin) (who : WaiterRef) : State × WaitAns :=
  match s.named ctx vid with
  | .outside => (s, .failed St.noPermission 3)
  | .unmapped => (s.protoError ctx vid Proto.unmapped src 0, .failed St.protocol (protoDetail Proto.unmapped vid))
  | .object k side o =>
    match o.err with
    | some code => (s, .failed St.protocol (protoDetail code vid))
    | none =>
      if target ≤ o.value side then (s, .satisfied (o.value side))
      else (s.setObj k { o with waiters := o.waiters ++ [⟨who, vid, side, target⟩] }, .held)

/-- Take a waiter off every object of a context: its wait is over (a timeout, an abort). -/
def State.cancelWaits (s : State) (who : WaiterRef) : State :=
  { s with objs := s.objs.map fun p => (p.1, { p.2 with waiters := p.2.waiters.filter fun w => w.who != who }) }

-- # Barriers (R165 to R167)

/-- An epoch completes: the value rises, every held arrival is released, and the barrier is RELEASING with all of its
participants still to leave. -/
def State.completeEpoch (s : State) (ctx k vid : Nat) (o : SyncObj) : State :=
  let v := o.p + 1
  let s := s.setObj k { o with p := v, releasing := true, leaving := o.arrived, arrived := [] }
  let s := s.each o.arrived fun t s => (s.traceRec ctx vid o 3 ⟨0, t⟩ v).releaseTile t true
  let s := s.wake ctx k false
  s.fireAll (firstAct ctx) [] ctx k false

/-- The protocol error an arrival would be (R165, R166). -/
def SyncObj.arriveError (o : SyncObj) (se : Nat) : Option Nat :=
  if o.kind ≠ .barrier then some Proto.kind
  else if o.releasing then
    if se ≠ o.p then some Proto.epoch
    else if o.n - o.leaving.length < o.parked.length + 1 then some Proto.participants
    else none
  else if se ≠ o.p ∧ se ≠ o.p + 1 then some Proto.epoch
  else if o.n < o.arrived.length + o.parked.length + 1 then some Proto.participants
  else none

/-- A tile arrives at a barrier for an epoch: it is held until that epoch completes, or fails. The answer `none` means the
arrival was taken; the tile is held before this runs, so that a completing arrival releases it too. -/
def State.arrive (s : State) (ctx vid se t : Nat) : State × Option (Nat × Nat) :=
  match s.named ctx vid with
  | .outside => (s, some (St.noPermission, 3))
  | .unmapped => (s.protoError ctx vid Proto.unmapped ⟨0, t⟩ 0, some (St.protocol, protoDetail Proto.unmapped vid))
  | .object k side o =>
    match o.err with
    | some code => (s, some (St.protocol, protoDetail code vid))
    | none =>
      match o.arriveError se with
      | some code =>
        let s := s.protoError ctx vid code ⟨0, t⟩ (o.value side)
        let s := if code = Proto.kind then s else s.enterError k vid code
        (s, some (St.protocol, protoDetail code vid))
      | none =>
        let completes := !o.releasing && se == o.p && o.arrived.length + 1 == o.n
        let s := s.traceRec ctx vid o 2 ⟨0, t⟩ (o.p + b2n completes)
        if !o.releasing && se == o.p then
          let o' := { o with arrived := o.arrived ++ [t] }
          if o'.arrived.length = o.n then (s.completeEpoch ctx k vid o', none) else (s.setObj k o', none)
        else (s.setObj k { o with parked := o.parked ++ [t] }, none)

/-- A released participant leaves, also where the barrier is in ERROR, which keeps its state; when the last has left, the barrier opens
the next epoch with the parked arrivals, and completes at once where all have arrived (R165). -/
def State.leave (s : State) (ctx vid t : Nat) : State :=
  match s.named ctx vid with
  | .object k _ o =>
    if o.kind = .barrier ∧ o.releasing ∧ o.leaving.contains t then
      let o' := { o with leaving := o.leaving.erase t }
      if o'.leaving = [] then
        let o2 := { o' with releasing := false, arrived := o.parked, parked := [] }
        if o2.arrived.length = o2.n then s.completeEpoch ctx k vid o2 else s.setObj k o2
      else s.setObj k o'
    else s
  | _ => s

/-- A launch ends with another status than OK while its tile holds an arrival: the barrier is in ERROR, ABANDONED (R167). -/
def State.abandon (s : State) (ctx : Nat) (tiles : List Nat) : State :=
  s.each s.objs fun p s =>
    let hit := (p.2.arrived ++ p.2.parked).filter fun t => tiles.contains t
    if p.1 / 65536 = ctx ∧ p.2.kind = .barrier ∧ p.2.err = none ∧ hit ≠ [] then
      let vid := p.1 % 65536
      (s.protoError ctx vid Proto.abandoned ⟨0, hit.headD 0⟩ p.2.p).enterError p.1 vid Proto.abandoned
    else s

-- # Making and unmaking objects (R149, R154, R156)

/-- The free counters of a die (SYN_FREE). -/
def State.freeCounters (s : State) (d : Nat) : Nat := s.fld F.SYN_FREE_FREE d

/-- The die with the most free counters, the lowest-numbered on a tie (R149). -/
def State.bestDie (s : State) : Nat :=
  [1, 2, 3].foldl (fun b d => if s.freeCounters b < s.freeCounters d then d else b) 0

/-- The lowest index of a die, from a start, that no object holds. Which indices are taken is no part of the contract
(R154, log 9). -/
def freeIndex (used : List Nat) : Nat → Nat → Nat
  | 0, i => i
  | n + 1, i => if used.contains i then freeIndex used n (i + 1) else i

/-- Physical counters that an object may take: as many of the lowest free ids of the die. -/
def State.takeIds (s : State) (d n : Nat) : List Nat :=
  let used := s.objs.flatMap fun p => p.2.phys
  let a := freeIndex used used.length (262144 * d)
  let b := freeIndex (a :: used) (used.length + 1) (262144 * d)
  if n = 1 then [a] else [a, b]

/-- How many counters, and how many virtual ids, a kind needs (Table 4-1). -/
def ObjKind.counters : ObjKind → Nat
  | .counter => 1
  | _ => 2

def ObjKind.ids : ObjKind → Nat
  | .bounded => 2
  | _ => 1

/-- Put a new object at a virtual id: a COUNTER at its initial value, a BOUNDED at 0 and 0, a BARRIER open at epoch 0. -/
def State.makeObj (s : State) (ctx vid : Nat) (kind : ObjKind) (die arg : Nat) (binder : Bool) : State :=
  let ids := s.takeIds die kind.counters
  let s := s.setObj (65536 * ctx + vid)
    ⟨kind, die, ids, if kind = .counter then arg else 0, 0, arg, none, binder, false, [], [],
      false, [], [], [], [], [], false⟩
  let s := s.setFld F.SYN_FREE_FREE die (s.freeCounters die - kind.counters)
  s.setFld F.SYN_CTX_USE_MAPPED ctx (s.fld F.SYN_CTX_USE_MAPPED ctx + kind.ids)

/-- The value of the object a virtual id names, if it names one. -/
def State.valueOf (s : State) (ctx vid : Nat) : Nat :=
  match s.named ctx vid with
  | .object _ side o => o.value side
  | _ => 0

/-- Cancel a watch: its CANCELLED record holds the value of the object it watches (R156). -/
def State.cancelWatch (s : State) (ctx k : Nat) (w : Watch) (report : Bool) : State :=
  let v := s.valueOf ctx w.vid
  let s := s.dropWatch ctx k w
  s.when (report && w.notify) fun s => s.notify ctx ⟨s.now, 2, 0, w.vid, w.tag, v⟩

/-- Unmake an object: every watch on it, and every watch of the context that targets it, is cancelled; every waiter is
released with the status; its counters return to the pool (R156, R157). An increment that DBG_HOLD keeps or stalls then finds the id
unmapped, but for a reset of the context. DETAIL of the waiters names the object's first id (DESIGN CHOICE, log 119). -/
def State.unmakeObj (s : State) (k : Nat) (status : Nat) (report : Bool) : State :=
  match NMap.get? s.objs k with
  | none => s
  | some o =>
    let ctx := k / 65536
    let vid := k % 65536
    let mine (t : Nat) : Bool := t == vid || (o.kind == .bounded && t == vid + 1)
    let s := s.each (o.watches.foldl (fun l w => insertTag w l) []) fun w s => s.cancelWatch ctx k w report
    let s := s.each s.objs fun p s =>
      if p.1 / 65536 = ctx ∧ p.1 ≠ k then
        s.each ((p.2.watches.filter fun w => w.signal && mine w.target).foldl (fun l w => insertTag w l) []) fun w s =>
          s.cancelWatch ctx p.1 w report
      else s
    let s := s.failAll k o status (if status = St.protocol then protoDetail Proto.destroyed vid else 0)
    let s := { s with objs := NMap.erase s.objs k }
    let s := s.setFld F.SYN_FREE_FREE o.die (s.freeCounters o.die + o.kind.counters)
    let s := s.setFld F.SYN_CTX_USE_MAPPED ctx (s.fld F.SYN_CTX_USE_MAPPED ctx - o.kind.ids)
    s.when report fun s => (s.applyHeld ctx (o.heldIncs ++ o.stalled)).1

end Sys2Proof.Machine
end

