-- ==== Sys2Proof/Machine/Operands.lean ====
section
/-! DEFINITION. How a slot's operation runs on a tile: its registers and lanes (R100, R101), its guard (R102), the checks
before it issues (R103 to R107, R109, R133), what it writes, and the passing of its bundle. -/

namespace Sys2Proof.Machine

-- # Lanes (R101)

/-- The bits of lane `i` of a vector at lanes of `w` bits (R101). -/
def lane (v : BitVec 4096) (w i : Nat) : Nat := bitsOf v.toNat (w * i) w

/-- A vector from its lanes. -/
def ofLanes (w : Nat) (l : List Nat) : BitVec 4096 :=
  BitVec.ofNat 4096 (l.foldr (fun x acc => acc * 2 ^ w + x % 2 ^ w) 0)

/-- A predicate from its bits, bit 0 first. -/
def ofBits (l : List Bool) : BitVec 256 := BitVec.ofNat 256 (l.foldr (fun b acc => 2 * acc + b2n b) 0)

/-- Replace the active lanes of a vector (R102). -/
def mergeLanes (old : BitVec 4096) (guard : BitVec 256) (w n : Nat) (f : Nat → Nat) : BitVec 4096 :=
  let kept := 2 ^ (w * n) * (old.toNat / 2 ^ (w * n))
  BitVec.ofNat 4096 (kept + (ofLanes w ((List.range n).map fun i => if guard.toNat.testBit i then f i else lane old w i)).toNat)

/-- The bytes of a vector, least significant first. -/
def vbytes (v : BitVec 4096) : List Byte := leBytes 512 v.toNat

/-- A vector from 512 bytes. -/
def ofVbytes (bs : List Byte) : BitVec 4096 := BitVec.ofNat 4096 (leNat bs)

-- # The guard (R102)

/-- The guard of an operation after PNEG. -/
def guardOf (c : TileCore) (h : SlotHdr) : BitVec 256 :=
  let p := c.preg h.pred
  if h.pneg then ~~~p else p

/-- What an operation's own definition sees: its tile, the launch, the registers the bundle found, the guard. -/
structure SlotCtx where
  t     : Nat
  x     : Tile
  src   : TileCore
  l     : Launch
  guard : BitVec 256
  on    : Bool
  her   : Bool

/-- What an operation's own definition answers: a fault with its status and detail, an
access to an unbacked address, a stall by a lock (the bundle does not issue yet), a wait for a product in flight (R105),
nothing to do, or the tile it leaves with the registers it wrote and what it does outside the tile. -/
inductive SlotRes where
  | fault (status detail : Nat)
  | unbacked (addr : Nat)
  | stall
  | busy
  | skip
  | write (x : Tile) (keys : List Nat) (effects : List SlotEffect)

/-- A decode fault (R133, Table 3-17). -/
def SlotRes.decode : SlotRes := .fault St.badCommand 3

/-- A guard that is off: the operation writes nothing, and still names its destination registers for the check of R104. -/
def SlotCtx.off (c : SlotCtx) (keys : List Nat) : SlotRes := .write c.x keys []

/-- The device physical address of an offset in a tile's store (R49). -/
def storeAddr (t off : Nat) : Nat := storeBase + 0x400000 * t + off

/-- The first byte of a tile-store range that is not backed, if there is one (R123). -/
def storeHole (t off n : Nat) : Option Nat := if storeSize < off + n then some (storeAddr t (max off storeSize)) else none

-- # Locks and interlocks (R105, R107, R246)

/-- Two ranges of bytes overlap. -/
def overlap (a n b m : Nat) : Bool := decide (0 < n) && decide (0 < m) && decide (a < b + m) && decide (b < a + n)

/-- The transfers of a tile in flight. -/
def State.tileTransfers (s : State) (t : Nat) : List Transfer := s.transfers.filter fun x => x.tile == t

/-- The ranges of its own tile's store that a transfer touches: its tile-store range, and its memory range where that lies in the tile's own
window (R107, R124). -/
def Transfer.inStore (x : Transfer) : List (Nat × Nat) :=
  (x.toff, x.bytes) ::
    ((x.ranges.filter fun r => decide (storeAddr x.tile 0 ≤ r.1) && decide (r.1 < storeAddr x.tile storeSize)).map fun r =>
      (r.1 - storeAddr x.tile 0, r.2))

/-- A tile-store range is locked by a transfer or collective of the tile in flight (R107). -/
def State.rangeLocked (s : State) (t off n : Nat) : Bool :=
  (s.tileTransfers t).any (fun x => x.inStore.any fun r => overlap off n r.1 r.2) ||
    s.colls.any fun x => x.tile == t && overlap off n x.off 64

/-- A tile-store range is locked against the main stream's writes by a deferred descriptor (R246). -/
def Tile.readLocked (x : Tile) (off n : Nat) : Bool :=
  x.body.isNone && x.deferred.any fun d => overlap off n d.rdOff d.rdLen

/-- A product in flight writes the set (R105). -/
def Tile.setBusy (x : Tile) (set : Bool) : Bool := x.flights.any fun f => f.sets.contains set

-- # Running one operation

/-- Whether a launch's bundle may issue an operation of its slot now. -/
inductive Admission where
  | again
  | wait
  | drain
  | stop
  | fault
  | go (c : SlotCtx)

/-- The tile as an operation of a slot begins: the registers and the open run that the bundle has found are kept (R103). -/
def Tile.takes (x : Tile) (slot : SlotName) : Tile :=
  { x with
    snap := some (x.snap.getD x.core), snapRun := if x.snap.isSome then x.snapRun else x.run, used := x.used ++ [slot], stall := none }

/-- The checks every operation passes before its own definition runs: the tile runs a launch and is not held, stopped or ended, and no fault
of the device has ended all work (R47); a launch that has faulted stops its tiles at a bundle's boundary (R134); a bundle begins with its
first operation, the slot is not yet used in it, and the header's HER is the HERITAGE flag of the program (R99), else the operation is not
taken (log 11); DRAIN waits for every
earlier operation (Table 3-2); the bundle lies in the bound code (R109); no reserved bit is set (R133). -/
def State.openSlot (s : State) (h : SlotHdr) : Admission :=
  let x := s.tile h.tile
  match s.tileLaunch h.tile with
  | none => .wait
  | some l =>
    if x.ended || x.stopped || x.hold.isSome || x.ending || !l.opened || s.flag F.HIF_STATUS_FATAL 0 then .wait
    else if l.fault.isSome && x.snap.isNone && x.body.isNone then .stop
    else if x.used.contains h.slot || h.first != x.used.isEmpty || h.her != l.heritage then .again
    else if h.drain && x.snap.isNone &&
        (x.flights != [] || s.tileTransfers h.tile != [] || s.colls.any fun y => y.tile == h.tile) then .drain
    else if l.bundles ≤ x.bundle || h.rsv then .fault
    else
      let src := x.snap.getD x.core
      let g := guardOf src h
      .go ⟨h.tile, x.takes h.slot, src, l, g, g.toNat.testBit 0, l.heritage⟩

/-- The device side of what a bundle did, once it has passed: stores, signals, transfers, deferred work and exceptions. -/
structure Pass where
  s : State
  fault : Option (Nat × Nat)
  stall : Bool

/-- A signal of a tile (R158, R174). -/
def Pass.signal (t : Nat) (l : Launch) (bundle : Nat) (p : Pass) (vid inc : Nat) : Pass :=
  match p.s.increment l.ctx vid inc ⟨0, t⟩ (.launch l.queue l.cmd t bundle) with
  | (s, .failed st d) => { p with s := s, fault := some (st, d) }
  | (s, .stalled) => { p with s := s, stall := true }
  | (s, _) => { p with s := s }

/-- A transfer starts. -/
def State.addTransfer (s : State) (x : Transfer) : State :=
  { s with transfers := s.transfers ++ [{ x with id := s.nextId }], nextId := s.nextId + 1 }

/-- A stash transfer of a bundle that passes (R126, R257 to R259): it is counted in the order in which it reaches the hub, and starts; or it is
dropped, and its increment follows as if it had completed. -/
def State.stashStart (s : State) (l : Launch) (x : Transfer) : State :=
  match s.stashJudge x with
  | .go acts => (s.each acts fun a s => s.stashDo a).addTransfer x
  | .drop acts =>
    let r := (s.each acts fun a s => s.stashDo a).incrementOnce x.ctx x.sv 1 ⟨5, x.tile⟩ (.launch l.queue l.cmd x.tile x.bundle)
    r.1.replyInc (.launch l.queue l.cmd x.tile x.bundle) r.2
  | _ => s

/-- Deferred work is posted; where the launch ends early it is discarded (R245, R251). -/
def State.postDeferred (s : State) (t : Nat) (l : Launch) (d : Deferred) : State :=
  if s.launchEnds t then s.loseShard l.queue l.cmd d.shard else s.modTile t fun x => { x with deferred := x.deferred ++ [d] }

/-- One effect of a bundle. Signals come before the bundle's other effects. -/
def Pass.apply (t : Nat) (l : Launch) (s : State) (e : SlotEffect) : State :=
  match e with
  | .store off bs => s.storeWrite t off bs
  | .signal .. => s
  | .dma x => s.addTransfer x
  | .coll x =>
    let s := { s with colls := s.colls ++ [{ x with id := s.nextId, since := s.now }], nextId := s.nextId + 1 }
    let s := s.takeHeld x.desc.tag
    let s := s.when (x.desc.flags.testBit 1) fun s => s.activityIn x.ctx 5
    let s := s.when (x.desc.op == 4) fun s => s.activityIn x.ctx 6
    s.when (x.desc.flags.testBit 2) fun s => s.activityIn x.ctx 8
  | .reads a n => s.touch a n
  | .stash x => s.stashStart l x
  | .defq d => s.postDeferred t l d
  | .endTile => s.modTile t fun x => { x with ending := true }
  | .num e =>
    match s.tileLaunch t with
    | some l => s.numException l e
    | none => s
  | .clearInv set => s.setInv l.ctx t set false
  | .mflight m => s.modTile t fun x => { x with flights := x.flights ++ [m] }
  | .track tensor lanes => s.trackLanes l.queue l.cmd tensor lanes

/-- The fault that a bundle's stash transfer comes to: an overrun under FAULT, or a range in neither arena (R257, R259). -/
def State.stashFault (s : State) (effs : List SlotEffect) : Option (Nat × Nat) :=
  effs.findSome? fun e =>
    match e with
    | .stash x =>
      match s.stashJudge x with
      | .fault stage => some (St.stashFault, stage)
      | .outside => some (St.noPermission, 3)
      | _ => none
    | _ => none

/-- The main stream of a tile is held (R266). -/
def State.noteHeld (s : State) (t : Nat) : State :=
  s.when ((s.tile t).launch.isSome && (s.tile t).body.isNone && (s.tile t).phase != 9) fun s => s.setPhase t 9

/-- Note since when DRAIN or a lock has held a tile's bundle (R248). -/
def State.noteStall (s : State) (t : Nat) : State :=
  (s.when (s.tile t).stall.isNone fun s => s.modTile t fun x => { x with stall := some s.now }).noteHeld t

/-- A tile's bundle is held before it issues: nothing of it stays, and it is presented anew (R103). -/
def State.held (s : State) (t : Nat) : State := (s.modTile t Tile.rollback).noteHeld t

/-- A tile's bundle is held by a lock, or by a full set of transfers (R107): since when is noted for R248. -/
def State.stalled (s : State) (t : Nat) : State := (s.modTile t Tile.rollback).noteStall t

/-- A bundle has passed: its effects take place, its tile goes to the next bundle. Where a stash transfer or a signal of it fails, the tile
stops before the bundle writes anything (R134); where a signal stalls, the bundle is held. -/
def State.passBundle (s : State) (t : Nat) : State :=
  let x := s.tile t
  match s.tileLaunch t with
  | none => s
  | some l =>
    match s.stashFault x.effects with
    | some (st, d) => s.tileFault t st d
    | none =>
      let sig := x.effects.filterMap fun e => match e with | .signal v n => some (v, n) | _ => none
      let p : Pass := sig.foldl (fun (p : Pass) (v : Nat × Nat) => Pass.signal t l x.bundle p v.1 v.2) ⟨s, none, false⟩
      if p.stall then s.held t
      else match p.fault with
        | some (st, d) => p.s.tileFault t st d
        | none =>
          let s := x.effects.foldl (fun s e => Pass.apply t l s e) p.s
          let s := s.modTile t Tile.advance
          let forces := x.effects.any fun e => match e with | .coll _ => true | .defq _ => true | _ => false
          let s := if forces then (s.each l.tiles fun t s => s.forceShard t).tiePoint t else s
          let y := s.tile t
          match y.body with
          | some b => if y.bundle = b.desc.limit && x.body.isSome then s.endBody t else s
          | none => if y.ending then s.tryEnd t else s

/-- The code that a bundle belongs to: FWD (0) or BWD (1) code from where a stage's label goes up to the next label of a stage, or code before
them all (DEDUCED, log 10). -/
def Launch.codeOf (l : Launch) (bundle : Nat) : Option Nat :=
  (l.entries.foldl (fun (best : Option (Nat × Nat)) e =>
    if e.1 ≤ bundle ∧ best.all (fun b => decide (b.1 ≤ e.1)) then some e else best) none).map (·.2)

/-- The phase of a bundle of a step program, after code of a phase (R254, R260, R266): FWD code counts as FORWARD, but as RECOMPUTE where BWD
code goes into it after the tile has read a mark byte of 1, and until it leaves it (DEDUCED, log 10); BWD code as BACKWARD; code outside both as 9. -/
def Launch.phaseOf (l : Launch) (code : Nat) (marked : Bool) (bundle : Nat) : Nat :=
  match l.codeOf bundle with
  | some 0 => if code = 3 ∨ (code = 1 ∧ marked) then 3 else 0
  | some _ => 1
  | none => 9

/-- An operation of an open step issues: its tile is in the phase of its code (R266). -/
def State.enterPhase (s : State) (c : SlotCtx) : State :=
  let k := c.l.phaseOf c.x.code c.x.marked c.x.bundle
  s.when (c.l.isStep && c.x.body.isNone) fun s =>
    (s.when ((s.tile c.t).phase != k) fun s => s.setPhase c.t k).modTile c.t fun x =>
      { x with code := k, marked := x.marked && (k == 3 || x.code != 3) }

/-- The operation of a slot has issued: the tile holds what its bundle has gathered so far, and the bundle passes where the operation is its
last. -/
def State.issued (s : State) (h : SlotHdr) (c : SlotCtx) (x : Tile) : State :=
  let s' := (s.setTile c.t x).enterPhase c
  if h.last then s'.passBundle c.t else s'

/-- The tile once an operation has written a result: what it computed, the registers it wrote, and the effects that wait for the bundle. -/
def Tile.gathers (x : Tile) (keys : List Nat) (effs : List SlotEffect) : Tile :=
  { x with wrote := x.wrote ++ keys, effects := x.effects ++ effs }

/-- Run one operation of a slot. Where the tile is not ready for it, the whole bundle does not issue: what its other slots have done is undone,
and the bundle is presented again from its first operation (R103, R105, R107, log 11). -/
def State.runSlot (s : State) (h : SlotHdr) (need : Bool) (f : SlotCtx → SlotRes) : Answer :=
  if !need then .refused .illFormed
  else match s.openSlot h with
    | .again => .next s
    | .wait => .next s
    | .drain => .next (s.noteStall h.tile)
    | .stop => .next (s.modTile h.tile fun x => { x with stopped := true })
    | .fault => .next (s.tileFault h.tile St.badCommand 3)
    | .go c =>
      match f c with
      | .fault st d => .next (s.tileFault c.t st d)
      | .unbacked a => .next ((s.outside 0 (some c.l.ctx) (a % 2 ^ 48)).tileFault c.t St.addrFault (a % 2 ^ 48 / 65536))
      | .stall => .next (s.stalled c.t)
      | .busy => .next (s.held c.t)
      | .skip => .next (s.issued h c c.x)
      | .write x keys effs =>
        if keys.any fun k => c.x.wrote.contains k then .next (s.tileFault c.t St.badCommand 3)
        else .next (s.issued h c (x.gathers keys effs))

/-- Write one scalar register. -/
def SlotCtx.putS (c : SlotCtx) (sd : Nat) (v : BitVec 64) : SlotRes :=
  .write { c.x with core := c.x.core.setS sd v } [keyS sd] []

/-- Write one predicate register. -/
def SlotCtx.putP (c : SlotCtx) (pd : Nat) (v : BitVec 256) (effs : List SlotEffect) : SlotRes :=
  .write { c.x with core := c.x.core.setP pd v } [keyP pd] effs

/-- Write one vector register. -/
def SlotCtx.putV (c : SlotCtx) (vd : Nat) (v : BitVec 4096) (effs : List SlotEffect) : SlotRes :=
  .write { c.x with core := c.x.core.setV vd v } [keyV vd] effs

/-- The operation stands in a vector slot. -/
def vecSlot (h : SlotHdr) : Bool := h.slot == .v0 || h.slot == .v1

end Sys2Proof.Machine
end

