-- ==== Sys2Proof/Machine/Vector.lean ====
section
/-! DEFINITION. The vector slots (Tables 3-10 to 3-12): lane-wise arithmetic, comparison, selection, reduction and movement
(R116 to R118, R230, R231), conversion (R119 to R122, R221 to R227), and heritage arithmetic (R241). -/

namespace Sys2Proof.Machine

/-- The float format of a width field; INT32 has none (Table 3-10). -/
def widthFmt (w : Fin 4) : Option FFmt :=
  match w.val with
  | 0 => some fp32
  | 1 => some bf16
  | 2 => some fp16
  | _ => none

/-- The bits of a lane at a width field. -/
def laneBits (w : Fin 4) : Nat := if w.val = 1 ∨ w.val = 2 then 16 else 32

/-- The lanes of a vector at a width field. -/
def laneCount (w : Fin 4) : Nat := 4096 / laneBits w

/-- An operand or a result under heritage flushing: a subnormal becomes zero of its sign (R241). -/
def flushed (her : Bool) (f : FFmt) (b : Nat) : Nat := if her && f.subnormal b then f.withSign (f.sign b) 0 else b

/-- The number of a vector slot in the exception record. -/
def slotNum (h : SlotHdr) : Nat := match h.slot with | .v1 => 2 | .v0 => 1 | _ => 0

/-- The entry of a vector operation that raised a class in some lanes: its lowest lane (R238). -/
def vecEntry (h : SlotHdr) (c : SlotCtx) (opcode cls : Nat) (lanes : List Nat) (index : Nat → Nat) (tensor : Nat) :
    List SlotEffect :=
  match lanes with
  | [] => []
  | i :: rest =>
    let low := rest.foldl min i
    [.num ⟨cls, slotNum h, c.her, 0, opcode, c.t, c.x.bundle, low, 0, index low, tensor⟩]

/-- The active lanes of a guard. -/
def activeLanes (g : BitVec 256) (n : Nat) : List Nat := (List.range n).filter fun i => g.toNat.testBit i

/-- Run a lane-wise operation: each active lane takes a result with its invalid flag, the others keep their bits. -/
def SlotCtx.lanewise (c : SlotCtx) (h : SlotHdr) (o : VOps) (opcode : Nat) (f : Nat → Nat × Bool) : SlotRes :=
  let w := laneBits o.w
  let n := laneCount o.w
  let bad := (activeLanes c.guard n).filter fun i => (f i).2
  c.putV o.vd (mergeLanes (c.x.core.vreg o.vd) c.guard w n fun i => (f i).1) (vecEntry h c opcode 1 bad (fun _ => 0) 0)

/-- A float operation of two sources. -/
def floatOp (opcode : Nat) (f : FFmt → Bool → Nat → Nat → Nat × Bool) (h : SlotHdr) (o : VOps) (s : State) : Answer :=
  s.runSlot h (vecSlot h) fun c =>
    match widthFmt o.w with
    | none => .decode
    | some ft =>
      if o.mod.val ≠ 0 then .decode
      else
        let w := laneBits o.w
        c.lanewise h o opcode fun i =>
          f ft c.her (flushed c.her ft (lane (c.src.vreg o.va) w i)) (flushed c.her ft (lane (c.src.vreg o.vb) w i))

/-- Round an exact result and flush it. -/
def settle (f : FFmt) (her : Bool) (r : Num × Bool) : Nat × Bool := (flushed her f (f.encode .nearest r.1), r.2)

/-- a + b (R116). -/
def fAdd (f : FFmt) (her : Bool) (a b : Nat) : Nat × Bool := settle f her ((f.decode a).add (f.decode b))
/-- a − b. -/
def fSub (f : FFmt) (her : Bool) (a b : Nat) : Nat × Bool := settle f her ((f.decode a).add (f.decode b).negate)
/-- a × b. -/
def fMul (f : FFmt) (her : Bool) (a b : Nat) : Nat × Bool := settle f her ((f.decode a).mul (f.decode b))

/-- a × b + c with one rounding, or with the product rounded first in heritage mode (R116, R241). -/
def fFma (f : FFmt) (her neg : Bool) (a b c : Nat) : Nat × Bool :=
  let z := if neg then (f.decode c).negate else f.decode c
  let p := (f.decode a).mul (f.decode b)
  let p' := if her then f.decode (settle f true p).1 else p.1
  let r := p'.add z
  settle f her (r.1, p.2 || r.2)

/-- IEEE 754-2019 maximum or minimum (R231). -/
def fExt (max : Bool) (f : FFmt) (_her : Bool) (a b : Nat) : Nat × Bool :=
  let x := f.decode a
  let y := f.decode b
  if x.isNan || y.isNan then (f.nan.getD 0, x.isSnan || y.isSnan)
  else (if (if max then x.above y || !y.above x else !x.above y) then a else b, false)

/-- VADD (R116). -/
def execVadd (h : SlotHdr) (o : VOps) (s : State) : Answer := floatOp 0x01 fAdd h o s
/-- VSUB (R116). -/
def execVsub (h : SlotHdr) (o : VOps) (s : State) : Answer := floatOp 0x02 fSub h o s
/-- VMUL (R116). -/
def execVmul (h : SlotHdr) (o : VOps) (s : State) : Answer := floatOp 0x03 fMul h o s
/-- VMAX (R231). -/
def execVmax (h : SlotHdr) (o : VOps) (s : State) : Answer := floatOp 0x06 (fExt true) h o s
/-- VMIN (R231). -/
def execVmin (h : SlotHdr) (o : VOps) (s : State) : Answer := floatOp 0x07 (fExt false) h o s

/-- A float operation of three sources: the fused products (R116, R241). -/
def fmaOp (opcode : Nat) (neg : Bool) (h : SlotHdr) (o : VOps) (s : State) : Answer :=
  s.runSlot h (vecSlot h) fun c =>
    match widthFmt o.w with
    | none => .decode
    | some ft =>
      if o.mod.val ≠ 0 then .decode
      else
        let w := laneBits o.w
        let get (v : Fin 64) (i : Nat) := flushed c.her ft (lane (c.src.vreg v) w i)
        c.lanewise h o opcode fun i => fFma ft c.her neg (get o.va i) (get o.vb i) (get o.vc i)

/-- VFMA (R116). -/
def execVfma (h : SlotHdr) (o : VOps) (s : State) : Answer := fmaOp 0x04 false h o s
/-- VFMS (R116). -/
def execVfms (h : SlotHdr) (o : VOps) (s : State) : Answer := fmaOp 0x05 true h o s

/-- A float operation of one source on its bits. -/
def floatOp1 (opcode : Nat) (f : FFmt → Nat → Nat × Bool) (h : SlotHdr) (o : VOps) (s : State) : Answer :=
  floatOp opcode (fun ft her a _ => let r := f ft a; (flushed her ft r.1, r.2)) h o s

/-- |a| and −a: the sign bit alone, any NaN with its payload, nothing raised (R230). -/
def fAbs (f : FFmt) (a : Nat) : Nat × Bool := (f.mag a, false)
def fNeg (f : FFmt) (a : Nat) : Nat × Bool := (f.withSign (!f.sign a) (f.mag a), false)

/-- 1 / a, correctly rounded; of ±0 it is ±∞ (R116, R231). -/
def fRcp (f : FFmt) (a : Nat) : Nat × Bool :=
  match f.decode a with
  | .nan q => (f.nan.getD 0, q)
  | .inf s => (f.withSign s 0, false)
  | .fin s m e => if m = 0 then (f.withSign s (f.inf.getD 0), false) else (f.encodeQuot s 1 m (-e), false)

/-- √a, correctly rounded; below zero it is NaN and invalid (R231). -/
def fSqrt (f : FFmt) (a : Nat) : Nat × Bool :=
  match f.decode a with
  | .nan q => (f.nan.getD 0, q)
  | .inf s => if s then (f.nan.getD 0, true) else (f.inf.getD 0, false)
  | .fin s m e =>
    if m = 0 then (f.withSign s 0, false) else if s then (f.nan.getD 0, true) else (f.sqrtPos m e, false)

/-- 1/√a, correctly rounded; of ±0 it is ±∞ (R231). -/
def fRsq (f : FFmt) (a : Nat) : Nat × Bool :=
  match f.decode a with
  | .nan q => (f.nan.getD 0, q)
  | .inf s => if s then (f.nan.getD 0, true) else (0, false)
  | .fin s m e =>
    if m = 0 then (f.withSign s (f.inf.getD 0), false)
    else if s then (f.nan.getD 0, true) else (f.rsqrtPos m e, false)

/-- 2^a, correctly rounded. -/
def fExp2 (f : FFmt) (a : Nat) : Nat × Bool :=
  match f.decode a with
  | .nan q => (f.nan.getD 0, q)
  | .inf s => (if s then 0 else f.inf.getD 0, false)
  | .fin s m e => if m = 0 then (f.encode .nearest (.fin false 1 0), false) else (f.exp2Fin s m e, false)

/-- log2 a, correctly rounded; of ±0 it is −∞, below zero NaN and invalid (R231). -/
def fLog2 (f : FFmt) (a : Nat) : Nat × Bool :=
  match f.decode a with
  | .nan q => (f.nan.getD 0, q)
  | .inf s => if s then (f.nan.getD 0, true) else (f.inf.getD 0, false)
  | .fin s m e =>
    if m = 0 then (f.withSign true (f.inf.getD 0), false)
    else if s then (f.nan.getD 0, true) else (f.log2Pos m e, false)

/-- VABS (R230). -/
def execVabs (h : SlotHdr) (o : VOps) (s : State) : Answer := floatOp1 0x08 fAbs h o s
/-- VNEG (R230). -/
def execVneg (h : SlotHdr) (o : VOps) (s : State) : Answer := floatOp1 0x09 fNeg h o s
/-- VRCP (R116). -/
def execVrcp (h : SlotHdr) (o : VOps) (s : State) : Answer := floatOp1 0x0A fRcp h o s
/-- VRSQ (R116). -/
def execVrsq (h : SlotHdr) (o : VOps) (s : State) : Answer := floatOp1 0x0B fRsq h o s
/-- VEXP2 (R116). -/
def execVexp2 (h : SlotHdr) (o : VOps) (s : State) : Answer := floatOp1 0x0C fExp2 h o s
/-- VLOG2 (R116). -/
def execVlog2 (h : SlotHdr) (o : VOps) (s : State) : Answer := floatOp1 0x0D fLog2 h o s
/-- VSQRT (R116). -/
def execVsqrt (h : SlotHdr) (o : VOps) (s : State) : Answer := floatOp1 0x0E fSqrt h o s

/-- VSCAL: a × 2^n at FP32, n the signed lane of b; any other width is a decode fault (Table 3-11). -/
def execVscal (h : SlotHdr) (o : VOps) (s : State) : Answer :=
  s.runSlot h (vecSlot h) fun c =>
    if o.w.val ≠ 0 ∨ o.mod.val ≠ 0 then .decode
    else c.lanewise h o 0x0F fun i =>
      let n := signedOf 32 (lane (c.src.vreg o.vb) 32 i)
      match fp32.decode (flushed c.her fp32 (lane (c.src.vreg o.va) 32 i)) with
      | .nan q => (0x7FC00000, q)
      | .inf g => (fp32.withSign g 0x7F800000, false)
      | .fin g m e => (flushed c.her fp32 (fp32.encode .nearest (.fin g m (max (-4096) (min 4096 (e + n))))), false)

-- # Integer lanes

/-- An INT32 operation; any other width is a decode fault (R116). -/
def intOp (opcode : Nat) (f : BitVec 32 → BitVec 32 → BitVec 32) (h : SlotHdr) (o : VOps) (s : State) : Answer :=
  s.runSlot h (vecSlot h) fun c =>
    if o.w.val ≠ 3 ∨ o.mod.val ≠ 0 then .decode
    else c.lanewise h o opcode fun i =>
      ((f (BitVec.ofNat 32 (lane (c.src.vreg o.va) 32 i)) (BitVec.ofNat 32 (lane (c.src.vreg o.vb) 32 i))).toNat, false)

/-- VAND. -/
def execVand (h : SlotHdr) (o : VOps) (s : State) : Answer := intOp 0x10 (· &&& ·) h o s
/-- VOR. -/
def execVor (h : SlotHdr) (o : VOps) (s : State) : Answer := intOp 0x11 (· ||| ·) h o s
/-- VXOR. -/
def execVxor (h : SlotHdr) (o : VOps) (s : State) : Answer := intOp 0x12 (· ^^^ ·) h o s
/-- VSHL by b[4:0]. -/
def execVshl (h : SlotHdr) (o : VOps) (s : State) : Answer := intOp 0x13 (fun a b => a <<< (b.toNat % 32)) h o s
/-- VSHR by b[4:0]. -/
def execVshr (h : SlotHdr) (o : VOps) (s : State) : Answer := intOp 0x14 (fun a b => a >>> (b.toNat % 32)) h o s
/-- VSRA by b[4:0]. -/
def execVsra (h : SlotHdr) (o : VOps) (s : State) : Answer :=
  intOp 0x15 (fun a b => a.sshiftRight (b.toNat % 32)) h o s
/-- VIADD modulo 2^32. -/
def execViadd (h : SlotHdr) (o : VOps) (s : State) : Answer := intOp 0x16 (· + ·) h o s
/-- VISUB modulo 2^32. -/
def execVisub (h : SlotHdr) (o : VOps) (s : State) : Answer := intOp 0x17 (· - ·) h o s

-- # Comparison, selection, movement

/-- VCMP writes the predicate bits of active lanes (R117); an integer comparison is signed, and UNORD and ORD are decode
faults for it (Table 3-11). -/
def execVcmp (h : SlotHdr) (o : VOps) (s : State) : Answer :=
  s.runSlot h (vecSlot h) fun c =>
    let m := o.mod.val
    let cnd := bitsOf m 6 3
    let pd := bitsOf m 9 3
    let w := laneBits o.w
    let n := laneCount o.w
    let a (i : Nat) := lane (c.src.vreg o.va) w i
    let b (i : Nat) := lane (c.src.vreg o.vb) w i
    if m % 64 ≠ 0 ∨ (o.w.val = 3 ∧ 6 ≤ cnd) then .decode
    else
      let r (i : Nat) : Bool × Bool :=
        match widthFmt o.w with
        | none => (intCompare cnd (signedOf 32 (a i)) (signedOf 32 (b i)), false)
        | some f => numCompare cnd (f.decode (flushed c.her f (a i))) (f.decode (flushed c.her f (b i)))
      let old := c.x.core.preg pd
      let bits := (List.range 256).map fun i =>
        if i < n && c.guard.toNat.testBit i then (r i).1 else old.toNat.testBit i
      let bad := (activeLanes c.guard n).filter fun i => (r i).2
      c.putP pd (ofBits bits) (vecEntry h c 0x18 1 bad (fun _ => 0) 0)

/-- VSEL: each active lane takes a or b by a bit of PS (Table 3-11). -/
def execVsel (h : SlotHdr) (o : VOps) (s : State) : Answer :=
  s.runSlot h (vecSlot h) fun c =>
    let m := o.mod.val
    let ps := c.src.preg (bitsOf m 9 3)
    let w := laneBits o.w
    if m % 512 ≠ 0 then .decode
    else c.lanewise h o 0x19 fun i =>
      (lane (c.src.vreg (if ps.toNat.testBit i then o.va else o.vb)) w i, false)

/-- One combination of a reduction (Table 3-12a). -/
def redCombine (kind : Nat) (f : FFmt) (her : Bool) (a b : Nat) : Nat × Bool :=
  match kind with
  | 1 => fExt true f her a b
  | 2 => fExt false f her a b
  | _ => fAdd f her (flushed her f a) (flushed her f b)

/-- One round of the tree of R118: lanes below the stride combine with their partners; a lane's second component says that
invalid belongs to it. -/
def redRound (kind : Nat) (f : FFmt) (her : Bool) (stride : Nat) (l : List (Nat × Bool)) : List (Nat × Bool) :=
  let xs := l.take stride
  let ys := (l.drop stride).take stride
  (xs.zip ys).map fun p => let r := redCombine kind f her p.1.1 p.2.1; (r.1, p.1.2 || r.2)

/-- The tree of R118 from a stride down to 1, with the lanes that raised invalid gathered on the way. -/
def redTree (kind : Nat) (f : FFmt) (her : Bool) : Nat → Nat → List (Nat × Bool) → List Nat → Nat × List Nat
  | 0, _, l, bad => ((l.headD (0, false)).1, bad)
  | k + 1, stride, l, bad =>
    let r := redRound kind f her stride (l.map fun p => (p.1, false))
    let bad := bad ++ ((List.range r.length).filter fun i => (r.getD i (0, false)).2)
    redTree kind f her k (stride / 2) r bad

/-- Heritage reduction: lanes combine in ascending order from lane 0 (R241). -/
def redChain (kind : Nat) (f : FFmt) : List Nat → Nat → Bool → Nat × Bool
  | [], acc, bad => (acc, bad)
  | b :: rest, acc, bad => let r := redCombine kind f true acc b; redChain kind f rest r.1 (bad || r.2)

/-- VRED reduces the active lanes; lane 0 takes the result, the other active lanes zero. A signalling NaN raises invalid in its own lane and
enters the tree quiet (R118). -/
def execVred (h : SlotHdr) (o : VOps) (s : State) : Answer :=
  s.runSlot h (vecSlot h) fun c =>
    match widthFmt o.w with
    | none => .decode
    | some f =>
      let kind := o.mod.val % 4
      if 4 ≤ o.mod.val then .decode
      else
        let w := laneBits o.w
        let n := laneCount o.w
        let v := c.src.vreg o.va
        let ident := match kind with | 1 => f.withSign true (f.inf.getD 0) | 2 => f.inf.getD 0 | _ => 0
        let enter (i : Nat) : Nat × Bool :=
          if c.guard.toNat.testBit i then
            let a := flushed c.her f (lane v w i)
            let snan := (f.decode a).isSnan
            if kind = 3 then ((fMul f c.her a a).1, snan) else (if snan then f.encode .nearest (.nan false) else a, snan)
          else (ident, false)
        let l := (List.range n).map enter
        let bad0 := (List.range n).filter fun i => (enter i).2
        let (r, bad) :=
          if c.her then
            let q := redChain kind f ((l.map (·.1)).drop 1) (l.headD (0, false)).1 false
            (q.1, if q.2 then bad0 ++ [0] else bad0)
          else redTree kind f false (Nat.log2 n) (n / 2) l bad0
        c.putV o.vd (mergeLanes (c.x.core.vreg o.vd) c.guard w n fun i => if i = 0 then r else 0)
          (vecEntry h c 0x1A 1 bad (fun _ => 0) 0)

/-- VBC: every active lane takes the low lane bits of a scalar register (Table 3-11). -/
def execVbc (h : SlotHdr) (o : VOps) (s : State) : Answer :=
  s.runSlot h (vecSlot h) fun c =>
    if 32 ≤ o.mod.val then .decode
    else c.lanewise h o 0x1B fun _ => ((c.src.sreg o.mod.val).toNat % 2 ^ laneBits o.w, false)

/-- VEXT writes a zero-extended 32-bit slice of VA to a scalar register, where bit 0 of its guard is 1 (R117). -/
def execVext (h : SlotHdr) (o : VOps) (s : State) : Answer :=
  s.runSlot h (vecSlot h) fun c =>
    if c.on then c.putS (bitsOf o.mod.val 7 5) (BitVec.ofNat 64 (lane (c.src.vreg o.va) 32 (o.mod.val % 128))) else c.off [keyS (bitsOf o.mod.val 7 5)]

/-- VPERM: lane i takes lane b[i] mod lanes of a (Table 3-11). -/
def execVperm (h : SlotHdr) (o : VOps) (s : State) : Answer :=
  s.runSlot h (vecSlot h) fun c =>
    let w := laneBits o.w
    if o.mod.val ≠ 0 then .decode
    else c.lanewise h o 0x1D fun i => (lane (c.src.vreg o.va) w (lane (c.src.vreg o.vb) w i % laneCount o.w), false)

/-- Opcode 0x00 performs nothing (R98). -/
def execSlotNop (h : SlotHdr) (s : State) : Answer := s.runSlot h true fun _ => .skip

-- # Conversion (R119 to R122, R221 to R227)

/-- The element format of a float code (Table 6-1). -/
def codeFmt (code : Nat) : Option FFmt :=
  match code with
  | 0 => some fp32
  | 1 => some bf16
  | 2 => some fp16
  | 3 => some e4m3
  | 4 => some e5m2
  | 5 => some e4m3
  | 6 => some e5m2
  | 7 => some e3m2
  | 8 => some e2m3
  | 9 => some e2m1
  | _ => none

/-- The code names an MX format. -/
def isMx (code : Nat) : Bool := decide (5 ≤ code) && decide (code ≤ 0xA)

/-- The exact value of an element, its own value only (R216, R218). -/
def elemValue (code b : Nat) : Num :=
  match codeFmt code with
  | some f => f.decode b
  | none =>
    if code = 0xA then Num.ofInt (signedOf 8 b) (-6) false
    else if code = 0xB then Num.ofInt (signedOf 8 b) 0 false
    else Num.ofInt (signedOf 32 b) 0 false

/-- Multiply a value by a power of two, exactly. -/
def Num.scale2 (x : Num) (e : Int) : Num :=
  match x with
  | .fin s m k => .fin s m (k + e)
  | y => y

/-- The value of an MX element with its E8M0 scale (R218). -/
def mxValue (code b sc : Nat) : Num := if sc = 255 then .nan false else (elemValue code b).scale2 ((sc : Int) - 127)

/-- Round a magnitude to a whole number (R225). -/
def roundInt (rm : RMode) (m : Nat) (e : Int) : Nat := roundQuot rm (m * pow2 e) (pow2 (-e))

/-- One lane's result: its element bits, and whether it raised invalid or overflowed without being reported by a block. -/
structure CvtLane where
  bits : Nat
  inv  : Bool
  ovf  : Bool

/-- Convert one scaled value to a float destination without MX scales (R222 to R224). -/
def cvtFloat (code : Nat) (f : FFmt) (rm : RMode) (x : Num) : CvtLane :=
  match x with
  | .nan q => ⟨f.nan.getD 0, q, false⟩
  | .inf s =>
    match f.inf with
    | some i => ⟨f.withSign s i, false, false⟩
    | none => ⟨f.withSign s (f.nan.getD 0), code == 3, false⟩
  | .fin s m e =>
    let g := f.roundMag rm m 1 e
    if f.maxFin < g then ⟨f.withSign s f.maxFin, false, true⟩ else ⟨f.withSign s g, false, false⟩

/-- Convert one scaled value to an integer destination of so many bits (R224, R225). -/
def cvtInt (n : Nat) (sat : Bool) (rm : RMode) (x : Num) : CvtLane :=
  let top : Int := 2 ^ (n - 1) - 1
  let low : Int := -2 ^ (n - 1)
  match x with
  | .nan _ => ⟨0, true, false⟩
  | .inf s => ⟨if sat then unsignedOf n (if s then low else top) else 0, true, false⟩
  | .fin s m e =>
    let z := sgn s (roundInt rm m e)
    if sat then
      if top < z then ⟨unsignedOf n top, false, true⟩
      else if z < low then ⟨unsignedOf n low, false, true⟩ else ⟨unsignedOf n z, false, false⟩
    else ⟨unsignedOf n z, false, false⟩

/-- Convert one value to an element of an MX group of scale exponent `x`, saturating in silence (R223, R225, R226). -/
def cvtMx (code : Nat) (rm : RMode) (v : Num) (x : Int) : Nat :=
  match v.scale2 (-x) with
  | .fin s m e =>
    match codeFmt code with
    | some f => let g := f.roundMag rm m 1 e; f.withSign s (min g f.maxFin)
    | none => let n := min 127 (roundInt rm m (e + 6)); unsignedOf 8 (sgn s n)
  | _ => 0

/-- The exponent T of R226. -/
def mxTop (code : Nat) : Int := match code with | 5 => 8 | 6 => 15 | 7 => 4 | 8 => 2 | 9 => 2 | _ => 0

/-- The larger of two magnitudes. -/
def Num.maxMag (a b : Num) : Num :=
  let abs : Num → Num := fun x => match x with | .fin _ m e => .fin false m e | y => y
  if (abs a).lt (abs b) then abs b else abs a

/-- The scale byte of a group from its active values (R226). -/
def mxScale (code : Nat) (vals : List Num) : Nat :=
  if vals.any fun v => !v.finite then 255
  else
    let amax := vals.foldl Num.maxMag (.fin false 0 0)
    if amax.isZero then 0
    else (max (-127) (min 127 (amax.ilog2 - mxTop code)) + 127).toNat

/-- How many elements a VCVT converts (R119). -/
def cvtCount (sfmt dfmt : Nat) : Nat :=
  let n := if fmtBits sfmt = 32 then 128 else 256
  min n (4096 / fmtBits dfmt)

/-- The source value of a lane, its MX scale included, and whether it is a signalling NaN. MX scales of a packed source follow
its elements (R120). -/
def cvtSource (v : BitVec 4096) (sfmt n i : Nat) : Num :=
  let w := fmtBits sfmt
  let b := lane v w i
  if isMx sfmt then
    let total := if w = 32 then 128 else 256
    mxValue sfmt b (bitsOf v.toNat (w * max n total + 8 * (i / 32)) 8)
  else elemValue sfmt b

/-- The rounding mode of a lane (R121, R222, R241). -/
def cvtMode (rm : Nat) (her : Bool) (l : Launch) (tensor x : Nat) : RMode :=
  match rm with
  | 0 => .nearest
  | 1 =>
    let r := stochWord l.jobSeed l.step tensor x
    if her then .stoch (r / 2 ^ 48) 16 else .stoch (r / 2 ^ 40) 24
  | _ => .zero

/-- The fields of a VCVT are well formed: its formats, its rounding, and what goes with an MX or an integer destination (Table 3-12). -/
def cvtFields (her : Bool) (o : CvtOps) : Bool :=
  let sf := o.sfmt.val
  let df := o.dfmt.val
  decide (sf ≤ 0xC) && decide (df ≤ 0xC) && o.rm.val != 3 && !(o.rm.val == 1 && decide (fmtBits sf < fmtBits df)) &&
    (!o.sat || df == 0xB || df == 0xC) && !(isMx df && (o.ss.val != 0 || her))

/-- VCVT converts the active lanes (R119 to R122, R221 to R227), records invalid or an untracked overflow (R238), a lane outside a
tracked tensor's blocks being converted without tracking (R232), and updates a tracked tensor's state (R233). -/
def execVcvt (h : SlotHdr) (o : CvtOps) (s : State) : Answer :=
  s.runSlot h (vecSlot h) fun c =>
    let sf := o.sfmt.val
    let df := o.dfmt.val
    let mx := isMx df
    if !cvtFields c.her o then .decode
    else
      let w := fmtBits df
      let n := cvtCount sf df
      let v := c.src.vreg o.va
      let tensor := (c.src.sreg o.st).toNat % 2 ^ 32
      let first := (c.src.sreg o.se).toNat % 2 ^ 48
      let e := signedOf 8 (c.src.sreg o.ss).toNat
      let on (i : Nat) : Bool := c.guard.toNat.testBit i
      let flushIn (i : Nat) : Num :=
        let b := lane v (fmtBits sf) i
        match codeFmt sf with
        | some f => if c.her && decide (sf ≤ 2) then f.decode (flushed true f b) else cvtSource v sf n i
        | none => cvtSource v sf n i
      let src (i : Nat) : Num := flushIn i
      let mode (i : Nat) := cvtMode o.rm c.her c.l tensor (first + i)
      let act := activeLanes c.guard n
      let groups := (n + 31) / 32
      let gvals (g : Nat) : List Num := (act.filter fun i => i / 32 == g).map src
      let gscale (g : Nat) : Nat := mxScale df (gvals g)
      let conv (i : Nat) : CvtLane :=
        if mx then
          let sc := gscale (i / 32)
          if sc = 255 then ⟨0, (src i).isSnan || (src i).isInf, false⟩ else ⟨cvtMx df (mode i) (src i) ((sc : Int) - 127), false, false⟩
        else
          let x := (src i).scale2 (-e)
          match codeFmt df with
          | some f => let r := cvtFloat df f (mode i) x
                      { r with bits := if decide (df ≤ 2) then flushed c.her f r.bits else r.bits }
          | none => cvtInt (fmtBits df) o.sat (mode i) x
      let old := (c.x.core.vreg o.vd).toNat
      let elems := (ofLanes w ((List.range n).map fun i => if on i then (conv i).bits else bitsOf old (w * i) w)).toNat
      let scales := if mx then
          ((List.range groups).map fun g =>
            2 ^ (w * n + 8 * g) * (if (gvals g).isEmpty then bitsOf old (w * n + 8 * g) 8 else gscale g)).foldl (· + ·) 0
        else 0
      let vd := BitVec.ofNat 4096 (elems % 2 ^ (w * n) + scales)
      let inv := act.filter fun i => (conv i).inv
      let ovf := act.filter fun i => (conv i).ovf
      let tracked := s.tracked c.l.ctx tensor
      let outside (i : Nat) : Bool := decide (s.blocks c.l.ctx tensor ≤ s.blockOf c.l.ctx tensor (first + i))
      let entry :=
        if inv ≠ [] then vecEntry h c 0x20 1 inv (fun i => first + i) tensor
        else if tracked then vecEntry h c 0x20 2 (ovf.filter outside) (fun i => first + i) tensor else vecEntry h c 0x20 2 ovf (fun i => first + i) tensor
      let zero (i : Nat) : Bool :=
        match codeFmt df with
        | some f => f.mag (conv i).bits == 0
        | none => (conv i).bits == 0
      let track := if tracked then
          [SlotEffect.track tensor (act.map fun i =>
            let x := src i
            let mag := match x with | .fin _ m k => if m = 0 then 0 else fp32.encode .nearest (.fin false m k) | _ => 0
            ⟨first + i, min mag 0x7F7FFFFF, (conv i).ovf, x.finite && !x.isZero && zero i, zero i⟩)]
        else []
      c.putV o.vd vd (entry ++ track)

end Sys2Proof.Machine
end

