-- ==== Sys2Proof/Machine/Decision.lean ====
section
/-! DEFINITION. The global norm (R286, R287), the crozier (R302 to R308), and the adoption of a decision (R287 to R291). -/

namespace Sys2Proof.Machine

-- # FP32 operations on encodings, rounded once

def f32 (z : Int) : Nat := fp32.encode .nearest (Num.ofInt z 0 false)
def f32Add (a b : Nat) : Nat := (fAdd fp32 false a b).1
def f32Sub (a b : Nat) : Nat := (fSub fp32 false a b).1
def f32Mul (a b : Nat) : Nat := (fMul fp32 false a b).1
def f32Fma (a b c : Nat) : Nat := (fFma fp32 false false a b c).1
def f32Neg (a : Nat) : Nat := (fNeg fp32 a).1
def f32One : Nat := 0x3F800000

/-- a / b, correctly rounded (Table 8-6). -/
def f32Div (a b : Nat) : Nat :=
  match fp32.decode a, fp32.decode b with
  | .nan _, _ => 0x7FC00000
  | _, .nan _ => 0x7FC00000
  | .inf _, .inf _ => 0x7FC00000
  | .inf s, .fin t _ _ => fp32.withSign (s != t) 0x7F800000
  | .fin s _ _, .inf t => fp32.withSign (s != t) 0
  | .fin s m e, .fin t n f =>
    if n = 0 then (if m = 0 then 0x7FC00000 else fp32.withSign (s != t) 0x7F800000)
    else fp32.encodeQuot (s != t) m n (e - f)

/-- The smallest power of two at least a number. -/
def padTwo (n : Nat) : Nat := if n ≤ 1 then 1 else 2 ^ (Nat.log2 (n - 1) + 1)

/-- The tree of R196 over a list whose length is the given power of two. -/
def treeSum (add : Nat → Nat → Nat) : Nat → List Nat → Nat
  | 0, l => l.headD 0
  | k + 1, l =>
    let h := l.length / 2
    treeSum add k (List.zipWith add (l.take h) (l.drop h))

/-- Combine partials by the tree of R196, padded with +0. -/
def combineTree (l : List Nat) : Nat :=
  let n := padTwo l.length
  treeSum f32Add (Nat.log2 n) (l ++ List.replicate (n - l.length) 0)

/-- A list cut into runs of 1,024 (the update blocks of a shard). -/
def cutBlocks {α : Type} : Nat → List α → List (List α)
  | 0, _ => []
  | n + 1, l => l.take 1024 :: cutBlocks n (l.drop 1024)

-- # The gradient (R278, R286)

/-- The gradient of a shard is FP16 with exponents (R278, R402). -/
def State.gradFp16 (s : State) (ctx : Nat) (x : Shard) : Bool :=
  x.gradTensor != 0xFFFFFFFF && s.tracked ctx x.gradTensor && s.desc ctx x.gradTensor 1 1 == 2

/-- The value of a gradient element (R278). -/
def State.gradValue (s : State) (ctx : Nat) (x : Shard) (i : Nat) : Num :=
  let b := s.devNat (x.elemAddr 2 i) 2
  if s.gradFp16 ctx x then (fp16.decode b).scale2 (signedOf 8 (s.devNat (x.elemAddr 3 i) 1)) else bf16.decode b

/-- g_i and q_i of R286. -/
def State.gradF32 (s : State) (ctx : Nat) (x : Shard) (i : Nat) : Nat := fp32.encode .nearest (s.gradValue ctx x i)
def State.gradSquare (s : State) (ctx : Nat) (x : Shard) (i : Nat) : Nat :=
  let g := s.gradF32 ctx x i
  f32Mul g g

/-- The sum of squares of a shard (R286). -/
def State.shardSum (s : State) (ctx : Nat) (x : Shard) : Nat :=
  combineTree ((cutBlocks x.blocks ((List.range x.elems).map (s.gradSquare ctx x))).map combineTree)

/-- Put a pair into a list in ascending order of its first part. -/
def insertNum {α : Type} (p : Nat × α) : List (Nat × α) → List (Nat × α)
  | [] => [p]
  | x :: rest => if p.1 < x.1 then p :: x :: rest else x :: insertNum p rest

/-- The device partial: the sums of the owned shards in ascending shard number (R286). -/
def State.devicePartial (s : State) (ctx : Nat) (p : Step) : Nat :=
  let own := (s.shards ctx).filter s.owns
  combineTree ((own.foldl (fun l x => insertNum (x.num, NMap.getD p.intakes x.num 0) l) []).map (·.2))

/-- Every owned shard's intake pass is complete. -/
def State.intakesDone (s : State) (ctx : Nat) (p : Step) : Bool :=
  ((s.shards ctx).filter s.owns).all fun x => (NMap.get? p.intakes x.num).isSome

/-- The root's decision over the site sum (R287). -/
def normDecision (sum limit clip : Nat) : Decision :=
  let v := fp32.decode sum
  let norm := (fSqrt fp32 sum).1
  let bigger (a b : Nat) : Bool := (fp32.decode b).lt (fp32.decode a)
  if !v.finite then ⟨sum, norm, 0, 1, []⟩
  else if bigger norm limit then ⟨sum, norm, 0, 2, []⟩
  else ⟨sum, norm, if bigger clip 0 && bigger norm clip then f32Div clip norm else f32One, 0, []⟩

-- # The crozier (R302 to R308)

/-- A schedule segment (Table 8-7). -/
structure Segm where
  start : Nat
  shape : Nat
  len   : Nat
  v0    : Nat
  v1    : Nat
  aux   : Nat
deriving DecidableEq, Repr

/-- A number of a schedule table. -/
def tabNat (tb : List Byte) (o n : Nat) : Nat := leNat ((tb.drop o).take n)

/-- A segment record of a table. -/
def tabSegment (tb : List Byte) (i : Nat) : Segm :=
  let f (o n : Nat) := tabNat tb (32 + 32 * i + o) n
  ⟨f 0 8, f 8 1, f 12 4, f 16 4, f 20 4, f 24 4⟩

/-- A channel's record: how many segments, its clock, its first segment. -/
def tabChannel (tb : List Byte) (c : Nat) : Nat × Nat × Nat := (tabNat tb (8 * c) 1, tabNat tb (8 * c + 1) 1, tabNat tb (8 * c + 2) 2)

/-- The segments of a channel. -/
def tabSegments (tb : List Byte) (c : Nat) : List Segm :=
  let (n, _, first) := tabChannel tb c
  (List.range n).map fun i => tabSegment tb (first + i)

/-- A float is a positive finite value. -/
def posFinite (b : Nat) : Bool := match fp32.decode b with | .fin false m _ => m != 0 | _ => false

/-- A field value of a segment that Table 8-7 allows. -/
def Segm.ok (g : Segm) : Bool :=
  decide (g.shape ≤ 5) && decide (1 ≤ g.len) &&
    (!(g.shape == 3 || g.shape == 4) || posFinite g.aux) &&
    (g.shape != 5 || (List.range 8).any fun (i : Nat) => g.aux == f32 (i + 1))

/-- Ascending starts, the first zero. -/
def ascending : List Segm → Nat → Bool → Bool
  | [], _, _ => true
  | g :: rest, prev, first => (if first then g.start == 0 else decide (prev < g.start)) && ascending rest g.start false

/-- What is wrong with a table (UPD_CROZ_STATUS): the error and its channel; error 0 is none (R303). -/
def crozCheck (tb : List Byte) : Nat × Nat :=
  if tabNat tb 1056 4 ≠ crc32c (tb.take 1056) then (1, 0)
  else
    let bad (f : Nat → Bool) : Option Nat := (List.range 4).find? fun c => !f c
    let inTable (c : Nat) : Bool := let (n, _, first) := tabChannel tb c; decide (n = 0 ∨ (n ≤ 8 ∧ first + n ≤ 32))
    let order (c : Nat) : Bool := ascending (tabSegments tb c) 0 true
    let reservedOk (c : Nat) : Bool :=
      let (n, clock, first) := tabChannel tb c
      decide (n ≤ 8) && decide (clock ≤ 1) && tabNat tb (8 * c + 4) 4 == 0 &&
        (List.range n).all fun i => tabNat tb (32 + 32 * (first + i) + 9) 3 == 0 && tabNat tb (32 + 32 * (first + i) + 28) 4 == 0
    let fields (c : Nat) : Bool := reservedOk c && (tabSegments tb c).all Segm.ok
    match bad inTable, bad order, bad fields with
    | some c, _, _ => (2, c)
    | none, some c, _ => (3, c)
    | none, none, some c => (4, c)
    | none, none, none => (0, 0)

/-- Validate the table at a base for a context: a valid one may come into force, with the bytes that were validated (DESIGN CHOICE, log 94); an
invalid one may not, and leaves UPD_CROZ_STATUS and event 0x060A, while the previous table, the one validated at base `prev`, stays in force and
stands for the refused one (R303). -/
def State.crozValidate (s : State) (ctx base prev : Nat) : State :=
  let s := s.touch base 1088
  let tb := s.devRead base 1088
  let (e, c) := crozCheck tb
  let s := s.setFld F.UPD_CROZ_STATUS_ERR ctx e
  let s := s.setFld F.UPD_CROZ_STATUS_CHANNEL ctx c
  if e = 0 then { s with crozValid := NMap.update s.crozValid ctx [] fun l => NMap.set l base tb }
  else
    let keep (l : NMap (List Byte)) : NMap (List Byte) := match NMap.get? l prev with
      | some old => NMap.set l base old
      | none => NMap.erase l base
    ({ s with crozValid := NMap.update s.crozValid ctx [] keep } : State).raise (.context ctx) 0x060A 2 0 e

/-- 1.0 − y, multiplied by itself so often (the POLY shape). -/
def polyPow (y : Nat) : Nat → Nat → Nat
  | 0, z => z
  | n + 1, z => polyPow y n (f32Mul z y)

/-- The value of a segment at a clock value (R304). -/
def Segm.value (g : Segm) (n : Nat) : Nat :=
  let d := f32 ((n : Int) - g.start)
  let q := f32Div d (f32 g.len)
  let x := if (fp32.decode f32One).lt (fp32.decode q) then f32One else q
  match g.shape with
  | 0 => g.v0
  | 1 => f32Fma (f32Sub g.v1 g.v0) x g.v0
  | 2 =>
    let t := f32Sub x 0x3F000000
    let w := f32Mul t t
    let a := f32Fma 0xBBF183A8 w 0x3DA83C1A
    let a := f32Fma a w 0xBF196966
    let a := f32Fma a w 0x402335E3
    let a := f32Fma a w 0xC0A55DE7
    let a := f32Fma a w 0x40490FDB
    let c := f32Fma 0xBF000000 (f32Mul a t) 0x3F000000
    f32Fma (f32Sub g.v0 g.v1) c g.v1
  | 3 => f32Mul g.v0 (fRsq fp32 (f32Add f32One (f32Div d g.aux))).1
  | 4 => f32Mul g.v0 (fExp2 fp32 (f32Neg (f32Div d g.aux))).1
  | _ =>
    let y := f32Sub f32One x
    let k := ((List.range 8).find? fun (i : Nat) => g.aux == f32 (i + 1)).getD 0
    f32Fma (f32Sub g.v0 g.v1) (polyPow y k y) g.v1

/-- The value of a channel of a table: +0 where it is off (R302, R304, R306). -/
def channelValue (tb : List Byte) (c step t : Nat) : Nat :=
  let (_, clock, _) := tabChannel tb c
  let n := if clock = 1 then t else step
  match (tabSegments tb c).reverse.find? fun g => decide (g.start ≤ n) with
  | none => 0
  | some g => g.value n

/-- The crozier takes an applied step: T and the powers move on, and k0 to k7 are its values (R305 to R308). -/
def State.crozier (s : State) (ctx : Nat) (p : Step) (kappa : Nat) : List Nat × State :=
  let t := (s.fld F.UPD_CROZ_T_T ctx + 1) % 2 ^ 64
  let p1 := f32Mul (s.fld F.UPD_CROZ_P_P1 ctx) p.beta1
  let p2 := f32Mul (s.fld F.UPD_CROZ_P_P2 ctx) p.beta2
  let s := s.setFld F.UPD_CROZ_T_T ctx t
  let s := s.setFld F.UPD_CROZ_P_P1 ctx p1
  let s := s.setFld F.UPD_CROZ_P_P2 ctx p2
  let ch (c : Nat) : Nat := match p.croz with | none => 0 | some tb => channelValue tb c p.index t
  let k := [ch 0, ch 1, ch 2, ch 3, kappa, f32Sub f32One p1, f32Sub f32One p2, f32 t]
  (k, (k.zipIdx).foldl (fun s v => s.setFld F.UPD_CROZ_K_VALUE (ctx * 8 + v.2) v.1) s)

-- # Decisions

/-- A device adopts the decision of its open step (R287 to R291, R305 to R308), where no collective of it has ended with INTEGRITY (R371). -/
def State.adopt (s : State) (ctx : Nat) (d : Decision) : State :=
  match NMap.get? s.steps ctx with
  | none => s
  | some p =>
    if p.decision.isSome || p.broken then s
    else
      let s := s.setFld F.UPD_DECISION_VALID ctx 1
      let s := s.setFld F.UPD_DECISION_SKIP ctx (b2n (d.reason != 0))
      let s := s.setFld F.UPD_DECISION_REASON ctx d.reason
      let s := s.setFld F.UPD_DECISION_KAPPA ctx d.kappa
      let s := s.setFld F.UPD_NORM_LAST_SUMSQ ctx d.sum
      let s := s.setFld F.UPD_NORM_LAST_NORM ctx d.norm
      let (k, s) := if d.reason = 0 then s.crozier ctx p d.kappa else ([], s)
      let d := { d with k := k }
      let s := s.modStep ctx fun p => { p with decision := some d }
      let s := s.when ((NMap.get? p.activity 6).any fun a => a.count != 0) fun s => s.activityOut ctx 6
      let s :=
        if d.reason = 0 then (s.setFld F.UPD_STATE_SKIP_STREAK ctx 0).setFld F.UPD_NONFINITE_STEP ctx 0
        else
          let s := (s.bumpFld F.UPD_STATE_SKIPS ctx 1).bumpFld F.UPD_STATE_SKIP_STREAK ctx 1
          let n := s.fld F.UPD_STATE_SKIP_STREAK ctx
          let s := s.raise (.context ctx) 0x0601 1 0 (2 ^ 32 * (p.index % 2 ^ 32) + 2 ^ 30 * d.reason)
          s.when (p.skipLimit != 0 && n % p.skipLimit == 0) fun s => s.raise (.context ctx) 0x0602 2 0 n
      s.when ((s.shards ctx).any (s.compared ctx)) fun s => s.postMir (.decision ctx p.index d)

/-- DECISION_RECORD: a device receives the root's record for its open step and adopts it (R287). -/
def execDecisionRecord (ctx : Fin 256) (step : BitVec 64) (sum norm kappa : BitVec 32) (reason : Fin 4) (s : State) : Answer :=
  match NMap.get? s.steps ctx with
  | none => .next s
  | some p => if p.index = step.toNat then .next (s.adopt ctx ⟨sum.toNat, norm.toNat, kappa.toNat, reason, []⟩) else .next s

end Sys2Proof.Machine
end

