-- ==== Sys2Proof/Machine/Kept.lean ====
section
/-! DEFINITION. What each kind of reset keeps (R28, R42, Table 17-8), how the device enters a reset (R384, R494, R570), and a device-fatal
fault, after which its twin may hold it in one (R47, R506). -/

namespace Sys2Proof.Machine

/-- The kind of a stack's migration among the activities. -/
def migration : Nat := 1

/-- The kind among the activities of a context's first step since cold reset, which validated its schedule table (R303). -/
def crozFirst : Nat := 52

-- # What a reset keeps (R28, Table 17-8)

/-- A field that a reset keeps. Every reset, a cold one (3) too, keeps the part's identity: its ordering code, stepping and serial (R1, R4). A
warm (1) or a pair-forced (2) one keeps the RWS fields, the straps, the repair state of memory, after a warm reset
PAIR_RST_N (R507), and the failed field accesses, which count since cold reset (R567). -/
def keptField (kind : Nat) (r : RegName) (row : FieldRow) : Bool :=
  r == .HIF_ID || r == .HIF_SERIAL || (kind != 3 && keptWarm kind r row)
where
  /-- What the resets but the cold one keep. -/
  keptWarm (kind : Nat) (r : RegName) (row : FieldRow) : Bool :=
    row.acc == .rws || r == .BOOT_STRAPS || r == .MEM_MAP || r == .MEM_SPARE || (r == .MEM_CH_STATE && decide (40 ≤ row.lo))
      || (r == .PAIR_CFG && decide (62 ≤ row.lo)) || (kind == 1 && r == .PAIR_STATE && row.lo == 60)
      || (r == .SEC_FA_STATE && (row.lo == 62 || row.lo == 24))

/-- A register's value after such a reset. -/
def State.keptValue (s : State) (kind : Nat) (r : RegName) (i : Nat) : Word :=
  r.rows.foldl (fun w row => if keptField kind r row then (⟨r, row.lo, row.width⟩ : Field).put w (bitsOf (s.reg r i).toNat row.lo row.width) else w)
    (r.resetValue i)

/-- The register file after such a reset. -/
def State.keptRegs (s : State) (kind : Nat) : NMap Word :=
  s.regs.foldl (fun m p =>
    match RegName.all[p.1 / 1048576]? with
    | none => m
    | some r => if r.rows.any (keptField kind r) then NMap.set m p.1 (s.keptValue kind r (p.1 % 1048576)) else m) []

/-- The fuses show in SEC_STATE after every reset (R548, R551). -/
def State.keepFuses (s old : State) : State :=
  let s := s.setFld F.SEC_STATE_FLOOR 0 (old.fld F.SEC_STATE_FLOOR 0)
  (s.setFld F.SEC_STATE_REVOKED 0 (old.fld F.SEC_STATE_REVOKED 0)).setFld F.SEC_STATE_FA_REVOKED 0 (old.fld F.SEC_STATE_FA_REVOKED 0)

/-- The state that a reset of a kind leaves. Device time stands at 0 after a cold reset and runs through the others; memory is lost or
kept; the flash, the host's memory and what the device has sent are outside its reach. LOAD_SEQ is kept with the counter of key loads that it
shows, which only a cold reset returns (DESIGN CHOICE, log 90). A migration that was under way keeps when it began and what it has moved (R343, R579). -/
def State.afterReset (s : State) (kind : Nat) : State :=
  let z : State := { State.reset with
    pending := s.pending, draws := s.draws, host := s.host, sent := s.sent, flash := s.flash, slots := s.slots
    tap := s.tap, regs := s.keptRegs kind
    boot := { s.boot with recovered := false, late := [] }
    power := { State.reset.power with brake := s.power.brake, vrHot := s.power.vrHot, trip := s.power.trip && kind != 3 } }
  if kind = 3 then { z with boot := { z.boot with t0 := 0, served := false, repaired := false } }.keepFuses s
  else
    let z := { z with
      now := s.now, mem := s.mem, poison := s.poison, wrong := s.wrong, cache := s.cache, moved := s.moved
      began := s.began.filter fun p => p.1 / 2 ^ 32 == migration || p.1 / 2 ^ 32 == crozFirst
      loadSeq := s.loadSeq
      secure := { z.secure with opened := s.secure.opened, scanned := s.secure.scanned } }
    (z.setFld F.SEC_KEY_STATUS_LOAD_SEQ 0 (s.loadSeq % 2 ^ 32)).keepFuses s

-- # Entering a reset (R494, R570)

/-- PAIR_HOLD_N is asserted and ignored: position 0 does so while it drives its own PAIR_RST_N (R494). -/
def State.ignoresHold (s : State) : Bool := s.pair.holdN && s.fld F.PAIR_CFG_POS 0 == 0 && s.flag F.PAIR_STATE_DRIVING 0

/-- The kind that the asserted inputs call for. -/
def State.resetWanted (s : State) : Nat :=
  let b := s.boot
  if b.pwrLow || b.coldN then 3
  else if s.pair.holdN && !s.ignoresHold then 2
  else if b.warmN || b.perstN || b.linkOff then 1
  else 0

/-- The bypasses that were open close (R384). -/
def State.bypassesShut (s : State) (was : Nat) : State :=
  s.each ((List.range 3).filter fun d => was.testBit d) fun d s => s.raise .device 0x0204 1 d 1

/-- Enter a reset of a kind, or let the running one become as strong; what was open closes (R384, R568). -/
def State.enterReset (s : State) (kind cause : Nat) : State :=
  let k := max kind s.boot.kind
  let was := s.fld F.FAB_BYP_STATE_OPEN 0
  let held := s.pair.holdN
  let t := s.afterReset k
  let t := { t with pair := { t.pair with holdN := held }, boot := { t.boot with kind := k, cause := cause } }
  let t := t.setFld F.FAB_BYP_STATE_VSB 0 (b2n t.boot.vsb)
  let t := t.setFld F.PAIR_STATE_HOLD 0 (b2n t.ignoresHold)
  let open' := s.fld F.SEC_FA_STATE_OPEN 0
  (t.bypassesShut was).when (open' != 0) fun t => t.raise .device 0x0907 0 0 (2 ^ 48 * open' + 3)

-- # The device-fatal fault (R47, R494, R506)

/-- Declare a device-fatal fault (R47, R506): HIF_STATUS.FATAL is set, and the device issues no further work; its last HEARTBEAT says so,
and it releases PAIR_RST_N, so that a hold which it ignored while it drove that line holds it now (R494). -/
def State.fatal (s : State) : State :=
  if s.flag F.HIF_STATUS_FATAL 0 then s
  else
    let s := s.when (s.flag F.PAIR_CFG_EN 0) fun s =>
      { s.postMir (.heartbeat s.pair.beats s.now (s.fld F.PAIR_STATE_STATE 0) true) with pair := { s.pair with beats := s.pair.beats + 1 } }
    let s := (s.setFld F.HIF_STATUS_FATAL 0 1).setFld F.PAIR_STATE_DRIVING 0 0
    s.when (s.pair.holdN && decide (s.boot.kind < s.resetWanted)) fun s => s.enterReset s.resetWanted 7

end Sys2Proof.Machine
end

