-- ==== Sys2Proof/Machine/Flash.lean ====
section
/-! DEFINITION. The records of the boot flash (R572, R573): two copies of each, the reader's choice, the writer's turn; the directory
(R576), the boot configuration (R575), the boot count (R574) and the repair record (R345). -/

namespace Sys2Proof.Machine

-- # Records (R573)

/-- The four records of Table 17-4. -/
inductive FlashRec where
  | directory | config | repair | count
deriving DecidableEq, Repr

/-- Where a record's copy A lies (Table 17-3); copy B lies 4 KiB on. -/
def FlashRec.base : FlashRec → Nat
  | .directory => 0x0000
  | .config => 0x2000
  | .repair => 0x4000
  | .count => 0x6000

/-- A record's MAGIC: "CX4" and its letter. -/
def FlashRec.magic : FlashRec → List Byte
  | .directory => [0x43, 0x58, 0x34, 0x44]
  | .config => [0x43, 0x58, 0x34, 0x43]
  | .repair => [0x43, 0x58, 0x34, 0x52]
  | .count => [0x43, 0x58, 0x34, 0x4E]

/-- A copy as it stands in flash: its SEQ and its body, if it is valid. -/
def flashCopy (m : NMap Byte) (r : FlashRec) (b : Nat) : Option (Nat × List Byte) :=
  let a := r.base + 4096 * b
  let len := leNat (memRead m (a + 12) 4)
  if memRead m a 4 ≠ r.magic ∨ leNat (memRead m (a + 4) 2) ≠ 1 ∨ 4096 < 20 + len then none
  else if crc32c (memRead m a (16 + len)) ≠ leNat (memRead m (a + 16 + len) 4) then none
  else some (leNat (memRead m (a + 8) 4), memRead m (a + 16) len)

/-- The copy in use: the valid one, or of two the one with the higher SEQ; the answer names it. -/
def flashUse (m : NMap Byte) (r : FlashRec) : Option (Nat × Nat × List Byte) :=
  match flashCopy m r 0, flashCopy m r 1 with
  | some (a, x), some (b, y) => if a < b then some (1, b, y) else some (0, a, x)
  | some (a, x), none => some (0, a, x)
  | none, some (b, y) => some (1, b, y)
  | none, none => none

/-- A record's body, if a copy is valid. -/
def State.record (s : State) (r : FlashRec) : Option (List Byte) := (flashUse s.flash r).map fun x => x.2.2

/-- A copy's bytes. -/
def flashBytes (r : FlashRec) (seq : Nat) (body : List Byte) : List Byte :=
  let h := r.magic ++ leBytes 2 1 ++ leBytes 2 0 ++ leBytes 4 seq ++ leBytes 4 body.length ++ body
  h ++ leBytes 4 (crc32c h)

/-- Write a record: over the copy that is not in use, with SEQ one above. -/
def State.writeRecord (s : State) (r : FlashRec) (body : List Byte) : State :=
  let (b, seq) := match flashUse s.flash r with
    | some (b, n, _) => (1 - b, n + 1)
    | none => (0, 0)
  { s with flash := memWrite s.flash (r.base + 4096 * b) (flashBytes r seq body) }

-- # The directory (Table 17-4, R526)

/-- The states of a slot: EMPTY, INVALID, STAGED, ACTIVE, PREVIOUS. -/
structure Directory where
  active : Nat
  state0 : Nat
  state1 : Nat
deriving DecidableEq, Repr

/-- The directory, if one is valid. -/
def State.directory? (s : State) : Option Directory :=
  (s.record .directory).map fun b => ⟨leNat (b.take 1), leNat ((b.drop 1).take 1), leNat ((b.drop 2).take 1)⟩

/-- The directory; with no valid record no slot is active and both are empty. -/
def State.directory (s : State) : Directory := s.directory?.getD ⟨0xFF, 0, 0⟩

/-- The state of a slot. -/
def Directory.state (d : Directory) (slot : Nat) : Nat := if slot = 0 then d.state0 else d.state1

/-- The directory with another state of a slot. -/
def Directory.withState (d : Directory) (slot v : Nat) : Directory := if slot = 0 then { d with state0 := v } else { d with state1 := v }

/-- Write the directory. -/
def State.writeDirectory (s : State) (d : Directory) : State :=
  s.writeRecord .directory (leBytes 1 d.active ++ leBytes 1 d.state0 ++ leBytes 1 d.state1 ++ leBytes 5 0)

-- # The repair record (Table 17-4, R345)

/-- An entry: KIND 1 retired channel, 2 spare lane, 3 erasure. -/
structure Repair where
  kind    : Nat
  trigger : Nat
  channel : Nat
  pseudo  : Nat
  pin     : Nat
  lane    : Nat
deriving DecidableEq, Repr

/-- The entry that eight bytes spell, and the reverse. -/
def Repair.ofBytes (b : List Byte) : Repair :=
  let f (o n : Nat) := leNat ((b.drop o).take n)
  ⟨f 0 1, f 1 1, f 2 2, f 4 1, f 5 1, f 6 1⟩
def Repair.bytes (e : Repair) : List Byte :=
  leBytes 1 e.kind ++ leBytes 1 e.trigger ++ leBytes 2 e.channel ++ leBytes 1 e.pseudo ++ leBytes 1 e.pin ++ leBytes 1 e.lane ++ leBytes 1 0

/-- The entries of a repair record's body. -/
def repairEntries (b : List Byte) : List Repair :=
  (List.range (leNat (b.take 2))).map fun i => Repair.ofBytes ((b.drop (4 + 8 * i)).take 8)

/-- The entries of the repair record; none where no copy is valid. -/
def State.repairs (s : State) : List Repair := ((s.record .repair).map repairEntries).getD []

/-- Write the repair record, and show its count. -/
def State.writeRepairs (s : State) (l : List Repair) : State :=
  (s.writeRecord .repair (leBytes 2 l.length ++ leBytes 2 0 ++ l.flatMap Repair.bytes)).setFld F.BOOT_FLASH_REPAIR_ENTRIES 0 l.length

/-- Add an entry, while the record has room for it. -/
def State.addRepair (s : State) (e : Repair) : State :=
  let l := s.repairs
  if l.length < 480 then s.writeRepairs (l ++ [e]) else s

/-- A channel is retired or lost: its entry names the trigger, a loss trigger 5. A channel that the record lists already keeps one entry. -/
def State.noteRetired (s : State) (ch trigger : Nat) : State :=
  let l := s.repairs
  if l.any fun e => e.kind == 1 && e.channel == ch then
    s.writeRepairs (l.map fun e => if e.kind == 1 && e.channel == ch then { e with trigger := trigger } else e)
  else s.addRepair ⟨1, trigger, ch, 0, 0, 0⟩

/-- A pin of a pseudo-channel that the record lists as replaced or as an erasure. -/
def State.pinListed (s : State) (ch pc pin : Nat) : Bool :=
  s.repairs.any fun e => e.kind != 1 && e.channel == ch && e.pseudo == pc && e.pin == pin

-- # The boot count and the configuration (R574, R575)

/-- The boot count, if a copy is valid. -/
def State.bootCount? (s : State) : Option Nat := (s.record .count).map fun b => leNat (b.take 2)

/-- Write the boot count. -/
def State.writeBootCount (s : State) (n : Nat) : State := s.writeRecord .count (leBytes 2 n ++ leBytes 6 0)

end Sys2Proof.Machine
end

