-- ==== Sys2Proof/Machine/Symbol.lean ====
section
/-! DEFINITION. The symbol code of memory (R332, R333): the codeword of 32 data and 4 check bytes, its symbols that are wrong, and what the
decoder makes of them. -/

namespace Sys2Proof.Machine

-- # GF(2^8) (R332)

/-- A byte times α = 0x02, modulo x^8 + x^4 + x^3 + x^2 + 1. -/
def gfTwice (a : Nat) : Nat := if a < 128 then 2 * a else (2 * a - 256) ^^^ 0x1D

/-- The product of two bytes, bit by bit of the second from the top. -/
def gfMul (a b : Nat) : Nat := (List.range 8).foldl (fun r i => gfTwice r ^^^ (if b.testBit (7 - i) then a else 0)) 0

/-- A polynomial, its highest coefficient first, times x + c. -/
def gfTimes (p : List Nat) (c : Nat) : List Nat := ((p ++ [0]).zip (0 :: p)).map fun (x : Nat × Nat) => x.1 ^^^ gfMul c x.2

/-- g(x) = (x + 1)(x + α)(x + α²)(x + α³), its highest coefficient first. -/
def generator : List Nat := ([1, 2, 4, 8]).foldl gfTimes [1]

/-- One step of the division by g: the remainder so far takes the next data byte. -/
def gfStep (r : List Nat) (d : Nat) : List Nat :=
  let f := r.headD 0 ^^^ d
  ((r.drop 1 ++ [0]).zip (generator.drop 1)).map fun (x : Nat × Nat) => x.1 ^^^ gfMul f x.2

/-- The check bytes of data bytes, check byte 0 first: the remainder of the data polynomial times x^4 divided by g. -/
def remainder (data : List Nat) : List Nat := data.foldl gfStep [0, 0, 0, 0]

/-- Check bytes 0 to 3 of a codeword's data: check byte j is the coefficient of x^(3 - j). -/
def checkBytes (data : List Byte) : List Byte := (remainder (data.map BitVec.toNat)).map (BitVec.ofNat 8)

/-- The symbols of a codeword, by their pins: 32 data bytes, then 4 check bytes. -/
def codeSymbols (data : List Byte) : List Byte := data ++ checkBytes data

-- # Codewords as they lie in memory

/-- The data bytes of a codeword. -/
def State.wordData (s : State) (key : Nat) : List Byte := memRead s.mem (32 * key) 32

/-- The 36 symbols of a codeword as they are stored: those of its data, with the bits that are wrong. -/
def State.stored36 (s : State) (key : Nat) : List Byte :=
  let e := NMap.getD s.wrong key []
  (codeSymbols (s.wordData key)).zipIdx.map fun x => x.1 ^^^ BitVec.ofNat 8 (NMap.getD e x.2 0)

/-- Symbols of a codeword have gone wrong. -/
def State.spoil (s : State) (key : Nat) (e : SymErrs) : State :=
  if e.isEmpty then s
  else
    let m := e.foldl (fun (m : NMap Nat) x => NMap.update m x.1 0 (· ^^^ x.2.toNat)) (NMap.getD s.wrong key [])
    { s with wrong := NMap.set s.wrong key m }

/-- No symbol of a codeword is wrong any more. -/
def State.mend (s : State) (key : Nat) : State := { s with wrong := NMap.erase s.wrong key }

/-- The data bytes of a codeword are left as they are stored (R334). -/
def State.leaveStored (s : State) (key : Nat) : State :=
  ({ s with mem := memWrite s.mem (32 * key) ((s.stored36 key).take 32) } : State).mend key

-- # The decoder (R333)

/-- The erasures of a pseudo-channel. -/
def State.erasures (s : State) (ch pc : Nat) : Nat :=
  s.fld (if pc = 0 then F.MEM_CH_STATE_ERAS_PC0 else F.MEM_CH_STATE_ERAS_PC1) ch

/-- The pins that calibration has marked as erasures. -/
def State.erasedPins (s : State) (ch pc : Nat) : List Nat :=
  (s.repairs.filter fun e => e.kind == 3 && e.channel == ch && e.pseudo == pc).map (·.pin)

/-- What the decoder makes of a codeword (Table 9-4): clean, corrected, found uncorrectable, or beyond what it always detects. -/
inductive CodeFate where
  | clean | corrected | bad | beyond
deriving DecidableEq, Repr

/-- The outcome by the erasures of the pseudo-channel and the further symbol errors. -/
def decodeLimit (eras errs : Nat) : CodeFate :=
  if errs = 0 then .clean
  else if errs ≤ (if eras ≤ 1 then 1 else 0) then .corrected
  else if errs ≤ (if eras = 0 then 3 else 2) then .bad
  else .beyond

/-- The channel and the slot of it where a codeword lies now. -/
def State.codePlace (s : State) (key : Nat) : Nat × Nat := s.spare (key / 8 / slotsPerChannel) (key / 8 % slotsPerChannel)

/-- What the decoder makes of a codeword as it lies in memory: symbols on erased pins are no further errors. -/
def State.fate (s : State) (key : Nat) : CodeFate :=
  let (ch, t) := s.codePlace key
  let e := (NMap.getD s.wrong key []).filter fun p => p.2 % 256 != 0
  if e.isEmpty then .clean
  else
    let pins := s.erasedPins ch (t % 2)
    decodeLimit (s.erasures ch (t % 2)) (e.countP fun p => !pins.contains p.1)

/-- The bytes of a codeword become undefined: a decoder that went wrong has returned them. -/
def State.garble (s : State) (key : Nat) : State :=
  foldRange 32 (fun i (s : State) => let (v, s) := s.draw 256; { s with mem := memSet s.mem (32 * key + i) (BitVec.ofNat 8 v) }) (s.mend key)

end Sys2Proof.Machine
end

