-- ==== Sys2Proof/Machine/MemFault.lean ====
section
/-! DEFINITION. What uncorrectable and corrected codewords leave behind (R334, R342 to R344): the counts of their channel, the
events, and a channel's retirement or loss. -/

namespace Sys2Proof.Machine

/-- A channel takes a retirement trigger (R342): its stack spares it, or cannot. -/
def State.retire (s : State) (ch trigger : Nat) : State :=
  let st := ch / 32
  match s.fld F.MEM_SPARE_STATE st with
  | 0 =>
    let s := s.setFld F.MEM_SPARE_STATE st 1
    let s := s.setFld F.MEM_SPARE_CHANNEL st (ch % 32)
    let s := s.setFld F.MEM_SPARE_TRIGGER st trigger
    let s := s.setFld F.MEM_SPARE_WATERMARK st 0
    let s := s.setFld F.MEM_CH_STATE_STATE ch 2
    ((s.noteRetired ch trigger).beginAt migration st).raise .device 0x0106 1 ch trigger
  | 3 => s.raise .device 0x0109 2 ch 1
  | _ => s.raise .device 0x0109 2 ch 2

/-- A lost channel is not retired before the next bring-up (R344, R345); a trigger of it that finds its stack's reserve zero or in use raises event
0x0109 as any other does (R342). -/
def State.retireIn (s : State) (ch trigger : Nat) : State :=
  if s.fld F.MEM_CH_STATE_STATE ch = 4 ∧ s.fld F.MEM_SPARE_STATE (ch / 32) = 0 then s else s.retire ch trigger

/-- A trigger 1 to 3 retires its channel where AUTO is 1, and reports it otherwise (Table 9-6). -/
def State.retireAuto (s : State) (ch trigger : Nat) : State :=
  if s.flag F.MEM_SPARE_CFG_AUTO 0 then s.retireIn ch trigger else s.raise .device 0x0105 1 ch trigger

/-- A channel is lost (R344): event 0x0108 and a device-fatal fault. -/
def State.loseChannel (s : State) (ch why : Nat) : State :=
  (((s.setFld F.MEM_CH_STATE_STATE ch 4).noteRetired ch 5).raise .device 0x0108 3 ch why).fatal

/-- An hour and a day of device time. -/
def hour : Nat := 3600 * sec
def day : Nat := 24 * hour

/-- The times of a window that have not left it. -/
def State.within (s : State) (l : List Nat) (span : Nat) : List Nat := l.filter fun t => decide (s.now < t + span)

/-- A codeword of a channel was found uncorrectable: counted, in the last 24 hours too, and trigger 3 (R334, R342). -/
def State.countUe (s : State) (ch : Nat) : State :=
  let s := s.bumpFld F.MEM_CH_ECC_UNCORRECTABLE ch 1
  let l := s.now :: s.within (NMap.getD s.ueTimes ch []) day
  let s := { s with ueTimes := NMap.set s.ueTimes ch l }
  let s := s.setFld F.MEM_CH_WINDOW_UE_DAY ch (min l.length 0xFFFFFFFF)
  if s.fld F.MEM_SPARE_CFG_UE_LIMIT 0 ≤ l.length then s.retireAuto ch 3 else s

/-- A codeword of a channel was corrected: counted, in the last hour too, event 0x0102 at most once a minute a channel with the codewords since
the last one (R611), and trigger 2 (Table 9-6). -/
def State.countCe (s : State) (ch : Nat) : State :=
  let s := s.bumpFld F.MEM_CH_ECC_CORRECTED ch 1
  let l := s.now :: s.within (NMap.getD s.ceTimes ch []) hour
  let s := { s with ceTimes := NMap.set s.ceTimes ch l }
  let s := s.setFld F.MEM_CH_WINDOW_CE_HOUR ch (min l.length 0xFFFFFFFF)
  let k := 0x0102 * 2 ^ 32 + ch
  let n := NMap.getD s.ceOwed ch 0 + 1
  let s := if s.limitOpen k (60 * sec) then
      ({ s with ceOwed := NMap.erase s.ceOwed ch }.noteLimit k).raise .device 0x0102 0 ch n
    else { s with ceOwed := NMap.set s.ceOwed ch n }
  if s.fld F.MEM_SPARE_CFG_CE_LIMIT 0 ≤ l.length then s.retireAuto ch 2 else s

/-- Mark a codeword poisoned. -/
def State.poisonKey (s : State) (k : Nat) : State := if s.poison.contains k then s else { s with poison := k :: s.poison }

/-- Mark the codeword at an address poisoned. -/
def State.poisonWord (s : State) (a : Nat) : State := s.poisonKey (s.codeKey a)

/-- A codeword is read through the symbol code (R333): it is right, or corrected and counted, or its bytes are left as stored and it is poisoned
(R334). Beyond what the decoder always detects, it may find the codeword uncorrectable, or take it for another one. -/
def State.decodeWord (s : State) (k : Nat) : State :=
  match s.fate k with
  | .clean => s
  | .corrected => s.countCe (s.codePlace k).1
  | .bad => (s.leaveStored k).poisonKey k
  | .beyond =>
    let (b, s) := s.draw 2
    if b = 0 then (s.leaveStored k).poisonKey k else (s.garble k).countCe (s.codePlace k).1

/-- The codewords of a range that are read from memory with wrong symbols, by key; a line that is cached is not read there. -/
def State.wrongWords (s : State) (a n : Nat) : List Nat :=
  if s.wrong.isEmpty then []
  else
    ((codewords a n).filter fun x => s.addrKind x == .memory && (s.cached? x).isNone && (NMap.get? s.wrong (s.codeKey x)).isSome).map s.codeKey

/-- A range is read through the symbol code. -/
def State.decodeRange (s : State) (a n : Nat) : State := s.each (s.wrongWords a n) fun k s => s.decodeWord k

/-- Report an uncorrectable codeword to its agent: counted, poisoned, marked, event 0x0103 (R334, R502). -/
def State.uncorrectable (s : State) (agent : Nat) (ctx : Option Nat) (a : Nat) : State :=
  let (ch, _, _) := s.place a
  let s := (s.poisonWord a).countUe ch
  let s := if s.memErrs.contains (s.codeKey a) then s else { s with memErrs := s.codeKey a :: s.memErrs }
  s.raise (match ctx with | some n => .context n | none => .device) 0x0103 2 ch (2 ^ 56 * agent + a % 2 ^ 48)

/-- The poisoned codewords of a range of memory, by address. -/
def State.poisonedWords (s : State) (a n : Nat) : List Nat :=
  if s.poison.isEmpty then []
  else (codewords a n).filter fun x => s.addrKind x == .memory && s.poison.contains (s.codeKey x)

/-- Read a range for an agent under a hint: it goes through the symbol code, and each poisoned codeword in it is reported; the answer is the
channel of the first, if there is one (R333, R334, Table 9-5). -/
def State.readHinted (s : State) (hint agent : Nat) (ctx : Option Nat) (a n : Nat) : State × Option Nat :=
  let s := s.decodeRange a n
  let l := s.poisonedWords a n
  ((s.each l fun x s => s.uncorrectable agent ctx x).cacheAccess false hint a n, l.head?.map fun x => (s.place x).1)

/-- Read a range for an agent that has no hint. -/
def State.readReport (s : State) (agent : Nat) (ctx : Option Nat) (a n : Nat) : State × Option Nat := s.readHinted 0 agent ctx a n

-- # Errors of the stack caches (R331)

/-- An access has met errors in cached codewords. One that the code corrects, and each in a clean line, which is dropped and refetched,
counts as corrected; a dirty line is written back with its failing codewords poisoned, and event 0x010E gives how many a stack lost. -/
def State.cacheErrors (s : State) (errs : List CacheErr) : State :=
  let met := errs.filterMap fun e =>
    let a := e.addr.toNat / 32 * 32
    if s.addrKind a = .memory then (s.cached? a).map fun x => (a, x, e.hard) else none
  let gone := (met.filter fun p => p.2.2).map fun p => p.2.1.line
  let lost := met.filter fun p => p.2.2 && p.2.1.dirty
  let stackOf (p : Nat × CacheLine × Bool) : Nat := lineStack p.2.1.line
  let s := { s with cache := s.cache.map fun (q : Nat × List CacheLine) => (q.1, q.2.filter fun y => !gone.contains y.line) }
  let s := s.each met fun p s =>
    if p.2.2 && p.2.1.dirty then
      ((s.poisonWord p.1).mend (s.codeKey p.1)).bumpFld F.MEM_CACHE_ERR_DIRTY_LOST (stackOf p) 1
    else s.bumpFld F.MEM_CACHE_ERR_CORRECTED (stackOf p) 1
  s.each (List.range 12) fun st s =>
    let n := lost.countP fun p => stackOf p == st
    s.when (n != 0) fun s => s.raise .device 0x010E 2 st n

-- # What an access meets

/-- What goes wrong on the way of an access to memory: errors of cached codewords, and symbols that are wrong in memory. -/
def State.meets (s : State) (errs : List Mishap) : State :=
  let s := s.cacheErrors (errs.filterMap fun m => match m with | .cache e => some e | _ => none)
  s.each errs fun m s =>
    match m with
    | .symbols a e => s.when (s.addrKind a.toNat == .memory) fun s => s.spoil (s.codeKey a.toNat) e
    | _ => s

/-- The address of memory at which something goes wrong. -/
def mishapAt : Mishap → Option Nat
  | .cache e => some e.addr.toNat
  | .symbols a _ => some a.toNat
  | .codec _ _ => none

/-- A block that the codec gets wrong, with the bit. -/
def mishapBlock : Mishap → Option (Nat × Nat)
  | .codec b i => some (b, i)
  | _ => none

end Sys2Proof.Machine
end

