-- ==== Sys2Proof/WellFormed.lean ====
section
/-! DEFINITION. Which commands a sender can issue at all. What a command meets in the state of the block (a fault, a refusal of
the block, a command with no effect) is its meaning's part, not decided here. -/

namespace Sys2Proof

/-- The code of an element register (Table 8-5). -/
def isElem (c : Fin 64) : Bool := decide (c.val < 32)

/-- The code of a wide register. -/
def isWide (c : Fin 64) : Bool := decide (48 ≤ c.val) && decide (c.val < 52)

/-- The code of a mask register. -/
def isMask (c : Fin 64) : Bool := decide (52 ≤ c.val) && decide (c.val < 56)

/-- The code of an FP32 source: an element or parameter register, or a constant. -/
def isSource (c : Fin 64) : Bool := decide (c.val < 48) || c.val == 56 || c.val == 57

/-- A plane of Table 8-2. -/
def readPlane (c : Fin 64) : Bool := decide (c.val < 13)

/-- A plane that the engine instruction ST may name (R297). -/
def storePlane (c : Fin 64) : Bool := c.val == 4 || c.val == 5 || (decide (8 ≤ c.val) && decide (c.val < 13))

/-- A command whose operands a sender can issue: the operation stands in the slot that holds it, and an engine instruction names
the kinds of register that its operation allows. -/
def Instr.wellFormed (i : Instr) : Bool :=
  match i with
  | .registerWrite _ _ _ _ => true
  | .hifBlockedClear _ => true
  | .hostBar4Access _ _ _ _ => true
  | .sqTailWrite _ _ _ => true
  | .cqHeadWrite _ _ _ => true
  | .submissionFetch => true
  | .commandStart _ => true
  | .completionRecordWrite _ => true
  | .msixUnmask _ _ => true
  | .deadlineExpiry _ _ => true
  | .abortPoint _ _ _ => true
  | .nop _ _ => true
  | .loadProgram _ _ => true
  | .loadProgramComplete _ _ => true
  | .unloadProgram _ _ => true
  | .launch _ _ => true
  | .launchComplete _ _ => true
  | .dmaCopy _ _ => true
  | .dmaFill _ _ => true
  | .hostDmaComplete _ _ => true
  | .syncSignal _ _ => true
  | .syncWait _ _ => true
  | .abort _ _ => true
  | .contextEnable _ _ value => value.msb
  | .contextReset _ _ => true
  | .functionLevelReset _ => true
  | .contextResetDone _ => true
  | .queueEnable _ _ value => value.msb
  | .queueDisable _ _ value => !value.msb
  | .queueDrainDone _ => true
  | .epochCommit _ => true
  | .epochAdopt _ _ => true
  | .driverHeartbeat _ => true
  | .eventRingEnable _ value => value.msb
  | .eventRingHeadWrite _ _ => true
  | .slotNop _ => true
  | .mma h _ => h.slot == .m
  | .mmax h _ => h.slot == .m
  | .mmin h _ => h.slot == .m
  | .matrixOpComplete _ _ => true
  | .aclr h _ => h.slot == .m
  | .acst h _ => h.slot == .m
  | .acld h _ => h.slot == .m
  | .acrv h _ _ _ => h.slot == .m
  | .vrac h _ _ _ => h.slot == .m
  | .vadd h _ => h.slot == .v0 || h.slot == .v1
  | .vsub h _ => h.slot == .v0 || h.slot == .v1
  | .vmul h _ => h.slot == .v0 || h.slot == .v1
  | .vfma h _ => h.slot == .v0 || h.slot == .v1
  | .vfms h _ => h.slot == .v0 || h.slot == .v1
  | .vmax h _ => h.slot == .v0 || h.slot == .v1
  | .vmin h _ => h.slot == .v0 || h.slot == .v1
  | .vabs h _ => h.slot == .v0 || h.slot == .v1
  | .vneg h _ => h.slot == .v0 || h.slot == .v1
  | .vrcp h _ => h.slot == .v0 || h.slot == .v1
  | .vrsq h _ => h.slot == .v0 || h.slot == .v1
  | .vexp2 h _ => h.slot == .v0 || h.slot == .v1
  | .vlog2 h _ => h.slot == .v0 || h.slot == .v1
  | .vsqrt h _ => h.slot == .v0 || h.slot == .v1
  | .vscal h _ => h.slot == .v0 || h.slot == .v1
  | .vand h _ => h.slot == .v0 || h.slot == .v1
  | .vor h _ => h.slot == .v0 || h.slot == .v1
  | .vxor h _ => h.slot == .v0 || h.slot == .v1
  | .vshl h _ => h.slot == .v0 || h.slot == .v1
  | .vshr h _ => h.slot == .v0 || h.slot == .v1
  | .vsra h _ => h.slot == .v0 || h.slot == .v1
  | .viadd h _ => h.slot == .v0 || h.slot == .v1
  | .visub h _ => h.slot == .v0 || h.slot == .v1
  | .vcmp h _ => h.slot == .v0 || h.slot == .v1
  | .vsel h _ => h.slot == .v0 || h.slot == .v1
  | .vred h _ => h.slot == .v0 || h.slot == .v1
  | .vbc h _ => h.slot == .v0 || h.slot == .v1
  | .vext h _ => h.slot == .v0 || h.slot == .v1
  | .vperm h _ => h.slot == .v0 || h.slot == .v1
  | .vcvt h _ => h.slot == .v0 || h.slot == .v1
  | .vld h _ _ _ => h.slot == .l
  | .vst h _ _ _ => h.slot == .l
  | .sld h _ _ _ => h.slot == .l
  | .sst h _ _ _ => h.slot == .l
  | .dma h _ => h.slot == .l
  | .dma2 h _ => h.slot == .l
  | .dmaComplete _ _ => true
  | .blockReread _ _ => true
  | .reduceScatter h _ _ => h.slot == .l
  | .allGather h _ _ => h.slot == .l
  | .allReduce h _ _ => h.slot == .l
  | .norm h _ _ => h.slot == .l
  | .broadcast h _ _ => h.slot == .l
  | .shift h _ _ => h.slot == .l
  | .collComplete _ _ => true
  | .sadd h _ _ _ => h.slot == .c
  | .ssub h _ _ _ => h.slot == .c
  | .smul h _ _ _ => h.slot == .c
  | .sand h _ _ _ => h.slot == .c
  | .sor h _ _ _ => h.slot == .c
  | .sxor h _ _ _ => h.slot == .c
  | .sshl h _ _ _ => h.slot == .c
  | .sshr h _ _ _ => h.slot == .c
  | .ssra h _ _ _ => h.slot == .c
  | .slt h _ _ _ => h.slot == .c
  | .sltu h _ _ _ => h.slot == .c
  | .smin h _ _ _ => h.slot == .c
  | .smax h _ _ _ => h.slot == .c
  | .saddi h _ _ _ => h.slot == .c
  | .sins h _ _ _ => h.slot == .c
  | .scmp h _ _ _ _ => h.slot == .c
  | .plog h _ _ _ _ => h.slot == .c
  | .srd h _ _ => h.slot == .c
  | .br h _ => h.slot == .c
  | .loop h _ _ => h.slot == .c
  | .call h _ => h.slot == .c
  | .jr h _ => h.slot == .c
  | .endTile h => h.slot == .c
  | .sig h _ _ => h.slot == .c
  | .wait h _ _ => h.slot == .c
  | .waitt h _ _ _ _ => h.slot == .c
  | .waittTimeout _ => true
  | .bar h _ _ => h.slot == .c
  | .barrierLeave _ _ _ => true
  | .defq h _ _ => h.slot == .c
  | .deferredYield _ => true
  | .codePageRefetch _ => true
  | .ld o => isElem o.d && readPlane o.a
  | .st o => storePlane o.a && isSource o.b
  | .ldm o => isWide o.d
  | .stm o => isWide o.a
  | .ldv o => isElem o.d
  | .wadd o => isWide o.d && isWide o.a && (isSource o.b || isWide o.b)
  | .wmul o => isWide o.d && isWide o.a && (isSource o.b || isWide o.b)
  | .wtof o => isElem o.d && isWide o.a
  | .add o => isElem o.d && isSource o.a && isSource o.b
  | .sub o => isElem o.d && isSource o.a && isSource o.b
  | .mul o => isElem o.d && isSource o.a && isSource o.b
  | .fma o => isElem o.d && isSource o.a && isSource o.b && isSource o.c
  | .fms o => isElem o.d && isSource o.a && isSource o.b && isSource o.c
  | .div o => isElem o.d && isSource o.a && isSource o.b
  | .max o => isElem o.d && isSource o.a && isSource o.b
  | .min o => isElem o.d && isSource o.a && isSource o.b
  | .abs o => isElem o.d && isSource o.a
  | .neg o => isElem o.d && isSource o.a
  | .sqrt o => isElem o.d && isSource o.a
  | .rsq o => isElem o.d && isSource o.a
  | .rcp o => isElem o.d && isSource o.a
  | .exp2 o => isElem o.d && isSource o.a
  | .log2 o => isElem o.d && isSource o.a
  | .csgn o => isElem o.d && isSource o.a && isSource o.b
  | .cmp o => isMask o.d && isSource o.a && isSource o.b
  | .sel o => isElem o.d && isSource o.a && isSource o.b && isMask o.c
  | .engineNop _ => true
  | .create _ _ _ _ => true
  | .destroy _ _ _ _ => true
  | .read _ _ _ _ => true
  | .watch _ _ _ _ => true
  | .unwatch _ _ _ _ => true
  | .trace _ _ _ _ => true
  | .dbgSet _ _ _ _ => true
  | .dbgRelease _ _ _ _ => true
  | .dbgEpoch _ _ _ _ => true
  | .dbgClear _ _ _ _ => true
  | .dbgHold _ _ _ _ => true
  | .synOpComplete _ => true
  | .coreIncrement _ _ _ _ => true
  | .synDbgCtlWrite _ _ _ => true
  | .notifyRingEnable _ _ value => value.msb
  | .notifyRingHeadWrite _ _ _ => true
  | .numRecordClear _ _ => true
  | .tensorRegister _ _ _ => true
  | .tensorRegisterDone _ => true
  | .stepOpen _ _ _ => true
  | .replayArm _ _ => true
  | .decisionRecord _ _ _ _ _ _ => true
  | .updateStart _ _ _ => true
  | .enginePassComplete _ => true
  | .formPass _ _ _ => true
  | .checkpointGo _ _ => true
  | .checkpointWrite _ => true
  | .checkpointDone _ => true
  | .restore _ _ => true
  | .restoreDone _ => true
  | .regionConfig _ _ => true
  | .calSlice _ _ => true
  | .calSliceDone _ _ _ _ => true
  | .channelRetire _ _ => true
  | .clearCounts _ _ => true
  | .migrationSlotMove _ _ => true
  | .scrubRead _ _ _ _ => true
  | .channelNoResponse _ => true
  | .dieLinkRetry _ _ => true
  | .memThrottleTick _ _ _ => true
  | .dieThrottleUpdate _ _ => true
  | .supplyDroop _ => true
  | .railUndervolt _ => true
  | .flitData _ _ _ _ => true
  | .flitCtrl _ _ _ _ => true
  | .flitTime _ _ _ _ _ _ => true
  | .flitDiscover _ _ _ _ _ _ _ => true
  | .flitLink _ _ _ _ => true
  | .flitIdle _ _ => true
  | .linkSilenceTimeout _ => true
  | .linkTrainDone _ _ _ => true
  | .linkTrainRetry _ => true
  | .timeFlitSend _ => true
  | .timeMasterTimeout => true
  | .ppsEdge => true
  | .ppsTimeout => true
  | .vsbBypLoss => true
  | .vsbBypPresent => true
  | .bypassRelease _ _ => true
  | .bypassClose _ _ => true
  | .retrain _ _ => true
  | .portDisable _ _ _ => true
  | .collStallTimeout _ _ => true
  | .memberRewrite _ _ _ _ => true
  | .xchEnable _ _ value => value.msb
  | .roundCode _ _ => true
  | .sealSend _ _ _ => true
  | .gatewayItemReceive _ _ _ _ _ _ _ => true
  | .gatewayCredit _ _ => true
  | .pathAnnounce _ _ _ _ => true
  | .sorediumReceive _ _ => true
  | .sealReceive _ _ => true
  | .refetchTimeout _ _ _ _ => true
  | .refetch _ _ _ _ => true
  | .gone _ _ => true
  | .contributionReport _ _ _ _ => true
  | .siteReport _ _ => true
  | .ledgerDeadline _ => true
  | .ledgerEntry _ _ => true
  | .provisionalTimeout _ _ => true
  | .roundApply _ => true
  | .applyStallTimer _ => true
  | .efficiencyReport _ _ _ _ _ => true
  | .snapReq _ _ _ _ => true
  | .snapManifest _ _ _ _ => true
  | .snapChunk _ _ _ => true
  | .snapshotHoldTimeout _ => true
  | .handover _ _ _ => true
  | .claim _ _ => true
  | .join _ _ => true
  | .resume _ _ => true
  | .farPortEnable _ _ _ => true
  | .farPortUp _ => true
  | .farPortDown _ _ => true
  | .dataSegment _ _ => true
  | .ackSegment _ _ => true
  | .msgSegment _ _ => true
  | .probeSegment _ _ => true
  | .segmentSend _ _ => true
  | .ackDelayTimeout _ _ => true
  | .rtoTimeout _ _ => true
  | .probeTimer _ _ => true
  | .pathDeadTimeout _ _ => true
  | .paceInterval _ _ => true
  | .bufferFullTimer _ => true
  | .segmentDrop _ _ => true
  | .msgTtlExpiry _ _ _ _ => true
  | .keyPhaseSwitch _ _ _ => true
  | .hello _ _ _ _ _ _ => true
  | .helloSend => true
  | .pairTimeout => true
  | .heartbeatSend => true
  | .heartbeat _ _ _ _ => true
  | .twinSilenceTimeout => true
  | .adoption => true
  | .adoptionAnnounce _ _ _ _ _ _ _ => true
  | .gradient _ _ _ _ => true
  | .decision _ _ _ _ _ _ _ => true
  | .delta _ _ _ _ => true
  | .digest _ _ _ _ _ _ => true
  | .repair _ _ _ _ => true
  | .copy _ _ _ _ => true
  | .pairHold => true
  | .pairHoldRelease => true
  | .release _ => true
  | .reintegrate _ => true
  | .handback _ => true
  | .continueStep _ _ => true
  | .getVersion _ => true
  | .telemetry _ => true
  | .driverAttach _ => true
  | .driverDetach _ => true
  | .setOrphan _ => true
  | .fwStage _ => true
  | .fwStageDone _ => true
  | .fwActivate _ => true
  | .activationClearWait => true
  | .activationQuiesced => true
  | .activationQuiesceTimeout => true
  | .activationDeferTimeout => true
  | .activationHealth => true
  | .coreHealthTimeout _ => true
  | .fwQuery _ => true
  | .diagRun _ => true
  | .diagDone _ => true
  | .driverWatchdogExpiry => true
  | .orphanTimeout => true
  | .pldmRequest _ => true
  | .pldmFirmwareUpdate _ => true
  | .powerControlPeriod _ _ => true
  | .pmbAlertSample _ _ => true
  | .pwrBrakeAssert => true
  | .pwrBrakeRelease => true
  | .vrHotAssert => true
  | .vrHotRelease => true
  | .thermalTrip _ _ => true
  | .spdmGetVersion => true
  | .spdmGetCapabilities => true
  | .spdmNegotiateAlgorithms _ => true
  | .spdmGetDigests => true
  | .spdmGetCertificate _ _ _ => true
  | .spdmChallenge _ _ => true
  | .spdmGetMeasurements _ _ _ => true
  | .spdmKeyExchange _ _ => true
  | .spdmFinish _ _ => true
  | .spdmKeyUpdate _ => true
  | .spdmHeartbeat _ => true
  | .spdmEndSession _ => true
  | .ideKm _ _ _ _ _ _ => true
  | .ideTlpReceive _ _ _ _ _ _ => true
  | .keyLoad _ => true
  | .keyErase _ _ => true
  | .keySlotUpdate => true
  | .securityAlarm _ _ _ => true
  | .challenge _ => true
  | .submit _ => true
  | .close _ => true
  | .nonceExpiry => true
  | .scopeExpiry _ => true
  | .idcode => true
  | .bypass => true
  | .samplePreload _ => true
  | .extest => true
  | .extestPulse => true
  | .extestTrain => true
  | .secFa _ _ => true
  | .pwrGoodRise _ => true
  | .pwrGoodFall => true
  | .coldResetAssert => true
  | .warmResetAssert => true
  | .perstAssert => true
  | .pcieHotReset => true
  | .warm _ => true
  | .resetRelease => true
  | .stageReached _ => true
  | .stageBoundTimeout => true
  | .recover _ => true
  | .recoveryFetchDone _ => true
  | .refclkLoss _ => true
  | .flitBadCrc _ => true
  | .frameDiscard _ _ => true
  | .hubJunctionTemperature _ => true

end Sys2Proof
end

