-- ==== Sys2Proof/Machine/Engine.lean ====
section
/-! DEFINITION. The rhizoid engines (R292 to R301): the instructions of a microprogram, the sketch, and the passes over a shard. -/

namespace Sys2Proof.Machine

-- # Registers of an engine (Table 8-5)

/-- A wide register's encoding that holds no result (R280). -/
def noResult : Nat := 2 ^ 47

/-- What a wide register holds: a master value, or no result. -/
def Engine.wide (x : Engine) (c : Nat) : Option Num :=
  let b := (NMap.getD x.w (c - 48) 0#48).toNat
  if noResult ≤ b then none else some (masterFmt.decode b)

/-- Set a wide register. -/
def Engine.setWide (x : Engine) (c : Nat) (v : Nat) : Engine := { x with w := NMap.set x.w (c - 48) (BitVec.ofNat 48 v) }

/-- Set an element register. -/
def Engine.setElem (x : Engine) (c : Nat) (v : Nat) : Engine := { x with e := NMap.set x.e c (BitVec.ofNat 32 v) }

/-- The microprogram of an engine's shard: of the program that runs the open step (R272). -/
def State.micro (s : State) (ctx : Nat) (x : Shard) : Micro :=
  match NMap.get? s.steps ctx with
  | none => ⟨0, 255, [], []⟩
  | some p =>
    match s.program? ctx p.handle with
    | none => ⟨0, 255, [], []⟩
    | some g => (imageMicros g.image).getD x.prog ⟨0, 255, [], []⟩

/-- The twin has been declared failed: the device stands alone. -/
def State.twinFailed (s : State) : Bool := s.pairState == 3 || s.pairState == 1

/-- k0 to k7 as a device uses them: its own crozier's values, or on a mirror the owner's while the twin lives (R288, R307, R308, R498). -/
def State.param (s : State) (ctx : Nat) (x : Shard) (i : Nat) : Nat :=
  let own := s.fld F.UPD_CROZ_K_VALUE (ctx * 8 + i)
  if s.mirrors x && !s.twinFailed then
    match (NMap.get? s.steps ctx).bind (·.mirror) with
    | some d => d.k.getD i own
    | none => own
  else own

/-- The FP32 value of a source code (R296, R301). -/
def State.source (s : State) (en : Engine) (x : Shard) (c : Nat) : Nat :=
  if c < 32 then (NMap.getD en.e c 0#32).toNat
  else if c < 40 then s.param en.ctx x (c - 32)
  else if c < 48 then (s.micro en.ctx x).consts.getD (c - 40) 0
  else if c = 57 then f32One
  else 0

/-- The exact value of a source, a wide register included; none where it holds no result. -/
def State.wideSource (s : State) (en : Engine) (x : Shard) (c : Nat) : Option Num :=
  if 48 ≤ c ∧ c < 52 then en.wide c else some (fp32.decode (s.source en x c))

/-- A NaN result is the canonical one (Table 8-6). -/
def canon (b : Nat) : Nat := if (fp32.decode b).isNan then 0x7FC00000 else b

/-- An element that an engine keeps for a non-finite value is counted once (R300). -/
def Engine.keep (en : Engine) (i : Nat) : Engine :=
  if en.lastKept = some i then en
  else { en with kept := en.kept + 1, first := if en.kept = 0 then i else en.first, lastKept := some i }

/-- An operation of an engine: what it leaves of the device and of itself. -/
abbrev EngFn := State → Engine → Shard → EngOps → State × Engine

/-- An operation whose result goes to an element register. -/
def toElem (f : State → Engine → Shard → EngOps → Nat) : EngFn := fun s en x o => (s, en.setElem o.d (f s en x o))

/-- An FP32 operation of two sources. -/
def fp2 (f : Nat → Nat → Nat) : EngFn := toElem fun s en x o => canon (f (s.source en x o.a) (s.source en x o.b))

/-- An FP32 operation of one source. -/
def fp1 (f : Nat → Nat) : EngFn := toElem fun s en x o => canon (f (s.source en x o.a))

-- # The operations (Table 8-6)

/-- The FP32 value of a plane's element (R278, R297). -/
def State.planeF32 (s : State) (ctx : Nat) (x : Shard) (q i : Nat) : Nat :=
  let raw (n : Nat) := s.devNat (x.elemAddr q i) n
  match q with
  | 1 => f32 (raw 1)
  | 2 => s.gradF32 ctx x i
  | 3 => f32 (signedOf 8 (raw 1))
  | 4 => if x.bf16Moments then 65536 * raw 2 else raw 4
  | 5 => if x.bf16Moments then 65536 * raw 2 else raw 4
  | _ => raw 4

/-- LD: a plane's value decoded to FP32 (R278, R297). -/
def engLd : EngFn := toElem fun s en x o => s.planeF32 en.ctx x o.a en.elem

/-- ST: a finite value goes to a plane, to BF16 with one rounding; any other keeps the plane (R297, R300). -/
def engSt : EngFn := fun s en x o =>
  let i := en.elem
  let q := o.a.val
  let b := s.source en x o.b
  let v := fp32.decode b
  if !v.finite then (s, en.keep i)
  else if x.width q = 2 then
    let u := stochU ((NMap.get? s.steps en.ctx).elim 0 (·.jobSeed)) ((NMap.get? s.steps en.ctx).elim 0 (·.index))
      (0xC0000000 + x.num * 16 + q) i
    let r := cvtFloat 1 bf16 (if o.mod.val % 2 = 1 then .stoch u 24 else .nearest) v
    (s.devWrite (x.elemAddr q i) (leBytes 2 r.bits), en)
  else (s.devWrite (x.elemAddr q i) (leBytes 4 b), en)

/-- LDM: the master value (R279). -/
def engLdm : EngFn := fun s en x o => (s, en.setWide o.d (s.master x en.elem))

/-- STM: the master is stored and the working copy derived; a value that is not finite or has no result keeps both (R283,
R300). -/
def engStm : EngFn := fun s en x o =>
  match en.wide o.a with
  | some v =>
    if v.finite then
      match roundMaster v with
      | some b => ((s.storeMaster x en.elem b).deriveElem x en.elem, en)
      | none => (s, en.keep en.elem)
    else (s, en.keep en.elem)
  | none => (s, en.keep en.elem)

/-- LDV: the sketch estimate (R293). -/
def engLdv : EngFn := toElem fun s en x _ =>
  let r := s.devNat (x.elemAddr 6 en.elem) 4
  let c := s.devNat (x.elemAddr 7 en.elem) 4
  canon (f32Mul (f32Mul r c) en.rinv.toNat)

/-- A wide operation, rounded to the master grid (R280, R296). -/
def wideOp (f : Num → Num → Num × Bool) : EngFn := fun s en x o =>
  let r :=
    match en.wide o.a, s.wideSource en x o.b with
    | some a, some b =>
      let v := (f a b).1
      if v.finite then (roundMaster v).getD noResult else masterFmt.encode .nearest v
    | _, _ => noResult
  (s, en.setWide o.d r)

def engWadd : EngFn := wideOp Num.add
def engWmul : EngFn := wideOp Num.mul

/-- WTOF: a wide value rounded to FP32. The spec gives no value where the register holds no result: a free value (log 3). -/
def engWtof : EngFn := fun s en _ o =>
  match en.wide o.a with
  | some v => (s, en.setElem o.d (canon (fp32.encode .nearest v)))
  | none => let (v, s) := s.draw (2 ^ 32); (s, en.setElem o.d v)

def engAdd : EngFn := fp2 f32Add
def engSub : EngFn := fp2 f32Sub
def engMul : EngFn := fp2 f32Mul
def engFma : EngFn := toElem fun s en x o => canon (fFma fp32 false false (s.source en x o.a) (s.source en x o.b) (s.source en x o.c)).1
def engFms : EngFn := toElem fun s en x o => canon (fFma fp32 false true (s.source en x o.a) (s.source en x o.b) (s.source en x o.c)).1
def engDiv : EngFn := fp2 f32Div
def engMax : EngFn := fp2 fun a b => (fExt true fp32 false a b).1
def engMin : EngFn := fp2 fun a b => (fExt false fp32 false a b).1
def engAbs : EngFn := fp1 fun a => (fAbs fp32 a).1
def engNeg : EngFn := fp1 fun a => (fNeg fp32 a).1
def engSqrt : EngFn := fp1 fun a => (fSqrt fp32 a).1
def engRsq : EngFn := fp1 fun a => (fRsq fp32 a).1
def engRcp : EngFn := fp1 fun a => (fRcp fp32 a).1
def engExp2 : EngFn := fp1 fun a => (fExp2 fp32 a).1
def engLog2 : EngFn := fp1 fun a => (fLog2 fp32 a).1
/-- CSGN: the magnitude of A with the sign of B. -/
def engCsgn : EngFn := fp2 fun a b => fp32.withSign (fp32.sign b) (fp32.mag a)

/-- CMP: a mask register takes A cond B. -/
def engCmp : EngFn := fun s en x o =>
  let r := (numCompare (o.c.val % 8) (fp32.decode (s.source en x o.a)) (fp32.decode (s.source en x o.b))).1
  (s, { en with q := NMap.set en.q (o.d - 52) r })

/-- SEL: C ? A : B. -/
def engSel : EngFn := toElem fun s en x o =>
  if NMap.getD en.q (o.c - 52) false then s.source en x o.a else s.source en x o.b

/-- Engine instruction 0x00. -/
def engNop : EngFn := fun s en _ _ => (s, en)

/-- The operation of an opcode (Table 8-6). -/
def engByOp (op : Nat) : EngFn :=
  match op with
  | 0x01 => engLd
  | 0x02 => engSt
  | 0x03 => engLdm
  | 0x04 => engStm
  | 0x05 => engLdv
  | 0x06 => engWadd
  | 0x07 => engWmul
  | 0x08 => engWtof
  | 0x10 => engAdd
  | 0x11 => engSub
  | 0x12 => engMul
  | 0x13 => engFma
  | 0x14 => engFms
  | 0x15 => engDiv
  | 0x16 => engMax
  | 0x17 => engMin
  | 0x18 => engAbs
  | 0x19 => engNeg
  | 0x1A => engSqrt
  | 0x1B => engRsq
  | 0x1C => engRcp
  | 0x1D => engExp2
  | 0x1E => engLog2
  | 0x1F => engCsgn
  | 0x20 => engCmp
  | 0x21 => engSel
  | _ => engNop

/-- The operands of an instruction word (R296). -/
def wordOps (eng : Fin 48) (w : Nat) : EngOps :=
  let f (lo : Nat) : Fin 64 := Fin.ofNat 64 (bitsOf w lo 6)
  ⟨eng, f 20, f 14, f 8, f 2, Fin.ofNat 4 w⟩

-- # Running instructions

/-- The engine as it starts an element (R298). -/
def Engine.atElem (en : Engine) (i : Nat) : Engine := { en with elem := i, ip := 0, e := [], w := [], q := [] }

/-- The next element, from one on, that the engines of a stack update; past the last, the shard's count (R277, R325). -/
def State.nextElem (s : State) (x : Shard) (st i : Nat) : Nat :=
  match (List.range x.blocks).find? fun b => decide (i / 1024 ≤ b) && s.blockStack x b == st with
  | some b => if b = i / 1024 then i else 1024 * b
  | none => x.elems

/-- An instruction has run: the next one, or the next element, `next`. -/
def Engine.advance (en : Engine) (ninst next : Nat) : Engine :=
  if en.ip + 1 < ninst then { en with ip := en.ip + 1 } else en.atElem next

def State.setEngine (s : State) (k : Nat) (en : Engine) : State := { s with engines := NMap.set s.engines k en }

/-- One instruction of the microprogram that an engine runs. An engine that runs no microprogram, or has finished its elements,
takes none. -/
def engineOp (f : EngFn) (o : EngOps) (fields : Bool) (s : State) : Answer :=
  if !fields then .refused .illFormed
  else match NMap.get? s.engines o.eng with
    | none => .next s
    | some en =>
      match s.shard? en.ctx en.shard with
      | none => .next s
      | some x =>
        if en.kind ≠ .program ∨ x.elems ≤ en.elem then .next s
        else
          let r := f s en x o
          .next (r.1.setEngine o.eng (r.2.advance (s.micro en.ctx x).words.length (s.nextElem x (o.eng / 4) (en.elem + 1))))

/-- LD (R297). -/
def execLd (o : EngOps) (s : State) : Answer := engineOp engLd o (Instr.ld o).wellFormed s
/-- ST (R297, R300). -/
def execSt (o : EngOps) (s : State) : Answer := engineOp engSt o (Instr.st o).wellFormed s
/-- LDM (R279). -/
def execLdm (o : EngOps) (s : State) : Answer := engineOp engLdm o (Instr.ldm o).wellFormed s
/-- STM (R283). -/
def execStm (o : EngOps) (s : State) : Answer := engineOp engStm o (Instr.stm o).wellFormed s
/-- LDV (R293). -/
def execLdv (o : EngOps) (s : State) : Answer := engineOp engLdv o (Instr.ldv o).wellFormed s
/-- WADD (R296). -/
def execWadd (o : EngOps) (s : State) : Answer := engineOp engWadd o (Instr.wadd o).wellFormed s
/-- WMUL (R296). -/
def execWmul (o : EngOps) (s : State) : Answer := engineOp engWmul o (Instr.wmul o).wellFormed s
/-- WTOF (R296). -/
def execWtof (o : EngOps) (s : State) : Answer := engineOp engWtof o (Instr.wtof o).wellFormed s
/-- ADD (R296). -/
def execAdd (o : EngOps) (s : State) : Answer := engineOp engAdd o (Instr.add o).wellFormed s
/-- SUB (R296). -/
def execSub (o : EngOps) (s : State) : Answer := engineOp engSub o (Instr.sub o).wellFormed s
/-- MUL (R296). -/
def execMul (o : EngOps) (s : State) : Answer := engineOp engMul o (Instr.mul o).wellFormed s
/-- FMA (R296). -/
def execFma (o : EngOps) (s : State) : Answer := engineOp engFma o (Instr.fma o).wellFormed s
/-- FMS (R296). -/
def execFms (o : EngOps) (s : State) : Answer := engineOp engFms o (Instr.fms o).wellFormed s
/-- DIV (R296). -/
def execDiv (o : EngOps) (s : State) : Answer := engineOp engDiv o (Instr.div o).wellFormed s
/-- MAX (R231, R296). -/
def execMax (o : EngOps) (s : State) : Answer := engineOp engMax o (Instr.max o).wellFormed s
/-- MIN (R231, R296). -/
def execMin (o : EngOps) (s : State) : Answer := engineOp engMin o (Instr.min o).wellFormed s
/-- ABS (R296). -/
def execAbs (o : EngOps) (s : State) : Answer := engineOp engAbs o (Instr.abs o).wellFormed s
/-- NEG (R296). -/
def execNeg (o : EngOps) (s : State) : Answer := engineOp engNeg o (Instr.neg o).wellFormed s
/-- SQRT (R296). -/
def execSqrt (o : EngOps) (s : State) : Answer := engineOp engSqrt o (Instr.sqrt o).wellFormed s
/-- RSQ (R296). -/
def execRsq (o : EngOps) (s : State) : Answer := engineOp engRsq o (Instr.rsq o).wellFormed s
/-- RCP (R296). -/
def execRcp (o : EngOps) (s : State) : Answer := engineOp engRcp o (Instr.rcp o).wellFormed s
/-- EXP2 (R296). -/
def execExp2 (o : EngOps) (s : State) : Answer := engineOp engExp2 o (Instr.exp2 o).wellFormed s
/-- LOG2 (R296). -/
def execLog2 (o : EngOps) (s : State) : Answer := engineOp engLog2 o (Instr.log2 o).wellFormed s
/-- CSGN (R296). -/
def execCsgn (o : EngOps) (s : State) : Answer := engineOp engCsgn o (Instr.csgn o).wellFormed s
/-- CMP (R296). -/
def execCmp (o : EngOps) (s : State) : Answer := engineOp engCmp o (Instr.cmp o).wellFormed s
/-- SEL (R296). -/
def execSel (o : EngOps) (s : State) : Answer := engineOp engSel o (Instr.sel o).wellFormed s
/-- Engine instruction 0x00 (R296). -/
def execEngineNop (o : EngOps) (s : State) : Answer := engineOp engNop o (Instr.engineNop o).wellFormed s

/-- Run the words of a microprogram from an instruction on, for one element. -/
def runWords (k : Fin 48) (x : Shard) : List Nat → State × Engine → State × Engine
  | [], a => a
  | w :: rest, a => runWords k x rest (engByOp (w / 2 ^ 26) a.1 a.2 x (wordOps k w))

/-- Run a microprogram over the engine's elements, so many at most, from where it stands. -/
def runElems (k : Fin 48) (x : Shard) (words : List Nat) : Nat → State × Engine → State × Engine
  | 0, a => a
  | n + 1, a =>
    if x.elems ≤ a.2.elem then a
    else
      let r := runWords k x (words.drop a.2.ip) a
      runElems k x words n (r.1, r.2.atElem (a.1.nextElem x (k / 4) (a.2.elem + 1)))

-- # The sketch (R292)

/-- Store a list of FP32 values. -/
def State.storeF32s (s : State) (a : Nat) (l : List Nat) : State := s.devWrite a (l.flatMap (leBytes 4))

/-- The sketch pass: the row and column accumulators take the squares of the step; the answer is rinv. An accumulator whose new value is not
finite keeps the old one, which then enters rinv (R300; DESIGN CHOICE, log 95). -/
def State.sketchPass (s : State) (ctx : Nat) (x : Shard) (en : Engine) : State × Nat :=
  let beta := s.source en x (32 + (s.micro ctx x).skBeta)
  let q (i j : Nat) : Nat := s.gradSquare ctx x (i * x.rowLen + j)
  let rs (i : Nat) : Nat := combineTree ((List.range x.rowLen).map (q i))
  let cs (j : Nat) : Nat := combineTree ((List.range x.rows).map fun i => q i j)
  let nb := f32Sub f32One beta
  let step (sum n old : Nat) : Nat :=
    let v := canon (f32Fma nb (f32Div sum (f32 n)) (f32Mul beta old))
    if (fp32.decode v).finite then v else old
  let skr := (List.range x.rows).map fun i => step (rs i) x.rowLen (s.devNat (x.planeAddr 6 + 4 * i) 4)
  let skc := (List.range x.rowLen).map fun j => step (cs j) x.rows (s.devNat (x.planeAddr 7 + 4 * j) 4)
  let rbar := f32Div (combineTree skr) (f32 x.rows)
  let rinv := if (fp32.decode 0).lt (fp32.decode rbar) then f32Div f32One rbar else 0
  ((s.storeF32s (x.planeAddr 6) skr).storeF32s (x.planeAddr 7) skc, rinv)

-- # Passes (R286, R289, R298 to R300)

/-- The code of a pass in UPD_BASE_STATUS (R317); form and apply passes run microprograms of the exchange. Code 4 never shows: the
derivation at an open takes no time here (log 36). -/
def passCode : PassKind → Nat
  | .intake => 1
  | .sketch => 2
  | .program => 3
  | .form => 3
  | .apply => 3
  | .copy => 5
  | .restore => 6

/-- Bring a base die's status up to date: its busy engines, and the pass of the lowest. -/
def State.showBase (s : State) (st : Nat) : State :=
  let busy := (List.range 4).filter fun i => (NMap.get? s.engines (4 * st + i)).isSome
  let s := s.setFld F.UPD_BASE_STATUS_BUSY st ((busy.map (2 ^ ·)).foldl (· + ·) 0)
  match busy.head?.bind fun i => NMap.get? s.engines (4 * st + i) with
  | none => (s.setFld F.UPD_BASE_STATUS_CTX st 0).setFld F.UPD_BASE_STATUS_PASS st 0
  | some en => (s.setFld F.UPD_BASE_STATUS_CTX st en.ctx).setFld F.UPD_BASE_STATUS_PASS st (passCode en.kind)

/-- The update blocks of a pass count for the dies that the map assigns them to (R277). -/
def State.countBlocks (s : State) (x : Shard) : State :=
  s.each (List.range x.blocks) fun b s =>
    let st := s.blockStack x b
    s.setFld F.UPD_BASE_STATUS_BLOCKS st (s.fld F.UPD_BASE_STATUS_BLOCKS st + 1)

/-- The engine may take a pass: it runs nothing, and no fault of the device stops it from taking on work (R47). -/
def State.engineIdle (s : State) (k : Nat) : Bool := (NMap.get? s.engines k).isNone && !s.flag F.HIF_STATUS_FATAL 0

/-- The stacks whose engines update a shard: those that hold a block of it (R277, R325). -/
def State.stacksOf (s : State) (x : Shard) : List Nat :=
  (List.range 12).filter fun st => (List.range x.blocks).any fun b => s.blockStack x b == st

/-- The lowest engine of a stack that may take a pass. -/
def State.freeEngine (s : State) (st : Nat) : Option Nat := ((List.range 4).map (4 * st + ·)).find? s.engineIdle

/-- The engines that take a shard's pass, one of each stack that holds blocks of it: the one that is named on its own stack, the lowest idle one
of any other (log 36). None, where the named one is not on such a stack or a stack has none idle. -/
def State.passEngines (s : State) (x : Shard) (named : Option Nat) : Option (List Nat) :=
  let own (st : Nat) : Option Nat := named.filter fun k => k / 4 == st
  let pick (st : Nat) : Option Nat := match own st with | some k => if s.engineIdle k then some k else none | none => s.freeEngine st
  let sts := s.stacksOf x
  if (named.all fun k => sts.contains (k / 4)) && sts.all fun st => (pick st).isSome then some (sts.filterMap pick) else none

/-- Put a pass over a shard on an engine. -/
def State.startPass (s : State) (k ctx : Nat) (x : Shard) (kind : PassKind) : State :=
  (s.setEngine k ⟨ctx, x.num, kind, s.nextElem x (k / 4) 0, 0, [], [], [], 0#32, 0, 0, none, [], false⟩).showBase (k / 4)

/-- The planes that a pass reads. -/
def passPlanes : PassKind → List Nat
  | .intake => [2, 3]
  | .sketch => [2, 3, 6, 7]
  | .program => planeOrder
  | .form => [0, 1, 8, 9]
  | .apply => [0, 1, 8, 10, 12]
  | .copy => [0, 1, 4, 5, 6, 7, 8, 9, 10, 11, 12]
  | .restore => []

/-- Engines read planes of a shard: what lies outside memory is reported (R328); an uncorrectable codeword is reported, and marks its digest
block (Table 9-5, R502). -/
def State.checkPlanes (s : State) (ctx : Nat) (x : Shard) (l : List Nat) : State :=
  s.each (l.filter x.has) fun q s =>
    ((s.reachMemory 4 (some ctx) (x.planeAddr q) (x.planeSize q)).readReport 4 (some ctx) (x.planeAddr q) (x.planeSize q)).1

/-- Put a pass over a shard on each of its engines, which read its planes. -/
def State.startPasses (s : State) (ks : List Nat) (ctx : Nat) (x : Shard) (kind : PassKind) : State :=
  (s.checkPlanes ctx x (passPlanes kind)).each ks fun k s => s.startPass k ctx x kind

/-- The engines of a shard's pass; a copy is none. -/
def State.passOf (s : State) (ctx shard : Nat) : List (Nat × Engine) :=
  s.engines.filter fun e => e.2.ctx == ctx && e.2.shard == shard && e.2.kind != .copy && e.2.kind != .restore

/-- The intake pass of a finalised shard starts where engines for it are idle (R286). -/
def State.tryIntake (s : State) (ctx shard : Nat) : State :=
  match s.shard? ctx shard with
  | none => s
  | some x =>
    match s.passEngines x none with
    | some ks => (s.modStep ctx fun p => { p with waiting := p.waiting.erase shard }).startPasses ks ctx x .intake
    | none => s

/-- The shards that wait for their intake take the engines that are idle, in their order. -/
def State.startIntakes (s : State) : State := s.each s.steps fun p s => s.each p.2.waiting fun n s => s.tryIntake p.1 n

/-- The intake pass of a finalised shard starts, or waits for engines (R286). -/
def State.startIntake (s : State) (ctx shard : Nat) : State :=
  (s.modStep ctx fun p => { p with waiting := p.waiting ++ [shard] }).startIntakes

/-- Take the pass off an engine. -/
def State.endPass (s : State) (k : Nat) : State := ({ s with engines := NMap.erase s.engines k }).showBase (k / 4)

/-- Take a shard's pass off its engines, which are free for others. -/
def State.endPasses (s : State) (ctx shard : Nat) : State := (s.each (s.passOf ctx shard) fun e s => s.endPass e.1).startIntakes

/-- The gradient of a shard may be used: handed to MIR by its owner, received by its mirror, which may have adopted the shard since
(R53, R498, R509). -/
def Step.gradReady (p : Step) (own : Bool) (shard : Nat) : Bool :=
  (own && p.handed.contains shard) || p.received.contains shard

/-- The decision under which a device updates a shard: its own, or on a mirror the one that came over MIR, or the root's
broadcast once the twin has failed (R288, R498). -/
def Step.decisionFor (p : Step) (mirror twinFailed : Bool) : Option Decision :=
  if mirror && !twinFailed then (if p.decision.isSome then p.mirror else none) else p.decision

/-- UPDATE_START: an idle engine of a stack that holds blocks of a shard begins the shard's update, with one of each other such stack (R277,
R325), on a device that owns or mirrors it, once the step's decision applies and its gradient is ready (R53, R288, R289, R299, R498); a
checkpoint still to write the shard's planes holds it (R310), and so do an activation (R530) and a fault of the device (R47). -/
def execUpdateStart (eng : Fin 48) (ctx : Fin 256) (shard : BitVec 24) (s : State) : Answer :=
  match NMap.get? s.steps ctx, s.shard? ctx shard.toNat with
  | some p, some x =>
    let own := s.owns x
    match p.decisionFor (s.mirrors x) s.twinFailed with
    | some d =>
      if (own || s.mirrors x) && d.reason == 0 && p.gradReady own x.num && !p.started.contains x.num
          && !(own && s.comparing ctx x.num) && !s.ckptDue.contains ctx.val && !s.quiesce then
        match s.passEngines x (some eng) with
        | some ks =>
          let s := s.startPasses ks ctx x (if x.sketch then .sketch else .program)
          let s := s.modStep ctx fun p => { p with started := x.num :: p.started }
          .next (s.activityIn ctx 7)
        | none => .next s
      else .next s
    | none => .next s
  | _, _ => .next s

end Sys2Proof.Machine
end

