-- ==== Sys2Proof/Machine/Digest.lean ====
section
/-! DEFINITION. The digests by which the two devices of a pair compare a shard, and how a block that differs is mended (R500 to R505). -/

namespace Sys2Proof.Machine

-- # The digest stream (R500)

/-- The parts of a shard's digest stream in order: address and length. -/
def Shard.streamParts (x : Shard) : List (Nat × Nat) :=
  ([0, 1, 4, 5, 6, 7, 8, 9, 10, 11, 12].filter x.has).map fun q =>
    (x.planeAddr q, match q with
      | 6 => 4 * x.rows
      | 7 => 4 * x.rowLen
      | _ => x.elems * x.width q)

/-- The bytes of a digest block. -/
def digestSize : Nat := 2 ^ 20

/-- The digest blocks of a shard. -/
def Shard.digestBlocks (x : Shard) : Nat := ceilDiv ((x.streamParts.map (·.2)).foldl (· + ·) 0) digestSize

/-- The parts of a stream that lie in a range of its bytes. -/
def cutParts : List (Nat × Nat) → Nat → Nat → List (Nat × Nat)
  | [], _, _ => []
  | (a, n) :: rest, lo, hi =>
    let m := min hi n - lo
    (if m = 0 then [] else [(a + lo, m)]) ++ cutParts rest (lo - n) (hi - n)

/-- Where a digest block lies in memory. -/
def Shard.blockParts (x : Shard) (b : Nat) : List (Nat × Nat) := cutParts x.streamParts (b * digestSize) ((b + 1) * digestSize)

/-- The bytes of a digest block. -/
def State.blockBytes (s : State) (x : Shard) (b : Nat) : List Byte := (x.blockParts b).flatMap fun p => s.devRead p.1 p.2

/-- The digest of a block. -/
def State.blockDigest (s : State) (x : Shard) (b : Nat) : Nat := crc64 (s.blockBytes x b)

/-- The digests of every block. -/
def State.shardDigestList (s : State) (x : Shard) : List Nat := (List.range x.digestBlocks).map (s.blockDigest x)

/-- The keys of the codewords of a block. -/
def State.blockKeys (s : State) (x : Shard) (b : Nat) : List Nat :=
  (x.blockParts b).flatMap fun p => (codewords p.1 p.2).map s.codeKey

/-- The memory-error mark of a block (R502). -/
def State.marked (s : State) (x : Shard) (b : Nat) : Bool :=
  !s.memErrs.isEmpty && (s.blockKeys x b).any fun k => s.memErrs.contains k

/-- Clear the mark of a block. -/
def State.unmark (s : State) (x : Shard) (b : Nat) : State :=
  if s.memErrs.isEmpty then s
  else
    let ks := s.blockKeys x b
    { s with memErrs := s.memErrs.filter fun k => !ks.contains k }

/-- The marks of a shard's blocks. -/
def State.marksIn (s : State) (x : Shard) : List Nat := (List.range x.digestBlocks).filter (s.marked x)

/-- Store the bytes of a block. -/
def State.writeParts (s : State) : List (Nat × Nat) → List Byte → State
  | [], _ => s
  | p :: rest, bs => (s.devWrite p.1 (bs.take p.2)).writeParts rest (bs.drop p.2)

/-- The plane that a digest block begins in. -/
def Shard.planeOf (x : Shard) (b : Nat) : Nat :=
  match x.blockParts b with
  | [] => 0
  | p :: _ => (([0, 1, 4, 5, 6, 7, 8, 9, 10, 11, 12].filter x.has).reverse.find? fun q => decide (x.planeAddr q ≤ p.1)).getD 0

/-- A digest block covers some byte of an element's master. -/
def Shard.coversMaster (x : Shard) (b i : Nat) : Bool :=
  let lo := b * digestSize
  let hi := lo + digestSize
  (decide (4 * i < hi) && decide (lo < 4 * i + 4)) || (x.has 1 && decide (lo ≤ 4 * x.elems + i) && decide (4 * x.elems + i < hi))

/-- Derive again the working copy of the elements that a block covers (R504). -/
def State.deriveBlock (s : State) (x : Shard) (b : Nat) : State :=
  s.each ((List.range x.elems).filter (x.coversMaster b)) fun i s => s.deriveElem x i

-- # Pairs

/-- A mirrored shard's digests go to its owner. -/
def State.mirroring (s : State) (x : Shard) : Bool := s.mirrors x && (s.pairState == 2 || s.pairState == 4) && !s.flag F.HIF_STATUS_FATAL 0

def State.dropCmp (s : State) (ctx shard : Nat) : State := { s with cmps := s.cmps.filter fun c => !(c.ctx == ctx && c.shard == shard) }

/-- Two comparisons are of the same pass. -/
def PairCmp.same (c d : PairCmp) : Bool := c.ctx == d.ctx && c.shard == d.shard && c.pass == d.pass && c.step == d.step

def State.endCmp (s : State) (c : PairCmp) : State := { s with cmps := s.cmps.filter fun d => !c.same d }

def State.setCmp (s : State) (c : PairCmp) : State :=
  let s := s.endCmp c
  { s with cmps := s.cmps ++ [c] }

/-- The comparison of a pass, with what the twin has sent of it already. -/
def State.cmpOf (s : State) (ctx shard : Nat) (pass : DigestPass) (step : Nat) : PairCmp :=
  let c : PairCmp := ⟨ctx, shard, pass, step, none, [], [], [], []⟩
  (s.cmps.find? c.same).getD c

/-- The owner has gone on to the next input of a mirrored shard: the comparison of the pass before has matched or been mended, and the marks
that this device told it of are cleared (R502, R504). -/
def State.settleMirror (s : State) (ctx : Nat) (x : Shard) : State :=
  match s.cmp? ctx x.num with
  | none => s
  | some c => (s.each c.marks fun b s => s.unmark x b).dropCmp ctx x.num

-- # Divergence (R503, R505, Table 14-2)

/-- Who wins a differing block and what kind of divergence it is: the mirror wins, and KIND. -/
def divergence (own mirror : Bool) : Bool × Nat :=
  match own, mirror with
  | false, false => (false, 1)
  | false, true => (false, 2)
  | true, false => (true, 2)
  | true, true => (false, 3)

/-- Count a divergence. -/
def State.countDiv (s : State) (kind : Nat) : State :=
  match kind with
  | 1 => s.bumpFld F.PAIR_DIV_STAT_SILENT 0 1
  | 2 => s.bumpFld F.PAIR_DIV_STAT_EXPLAINED 0 1
  | _ => s.bumpFld F.PAIR_DIV_STAT_UNRESOLVED 0 1

/-- Record a divergence: the counts, the last one, its event, and the hold of the next step. -/
def State.diverge (s : State) (c : PairCmp) (x : Shard) (b kind : Nat) (mirror : Bool) : State :=
  let s := s.countDiv kind
  let s := (s.setFld F.PAIR_DIV_LAST_KIND 0 kind).setFld F.PAIR_DIV_LAST_WINNER 0 (b2n mirror)
  let s := (s.setFld F.PAIR_DIV_LAST_CTX 0 c.ctx).setFld F.PAIR_DIV_LAST_SHARD 0 c.shard
  let s := (s.setFld F.PAIR_DIV_LAST_BLOCK 0 b).setFld F.PAIR_DIV_STEP_STEP 0 c.step
  let s :=
    if kind = 3 then s.raise (.context c.ctx) 0x0406 2 c.shard (2 ^ 62 + b)
    else s.raise (.context c.ctx) 0x0405 1 c.shard (2 ^ 62 * kind + 2 ^ 61 * b2n mirror + 2 ^ 32 * x.planeOf b + b)
  s.when (s.fld F.PAIR_CFG_DIV_ACTION 0 == 1 && kind != 2) fun s => s.setFld F.PAIR_CTX_STATE_HELD c.ctx 1

/-- A repair has failed twice: the mirror side's copy stays as it stands. -/
def State.unmended (s : State) (ctx shard b : Nat) : State := s.raise (.context ctx) 0x0406 2 shard (2 * 2 ^ 62 + b)

/-- Ask the twin for a block that its copy wins: this device's digest, with its mark. -/
def State.askBlock (s : State) (c : PairCmp) (x : Shard) (b : Nat) : State :=
  s.postMir (.digest c.ctx c.shard c.pass c.step b [s.blockDigest x b] [b])

/-- Read a digest block for the twin: the read is one of the cache, and poison that it meets marks the block (R329, R502). -/
def State.readBlock (s : State) (ctx : Nat) (x : Shard) (b : Nat) : State :=
  s.each (x.blockParts b) fun p s => ((s.touch p.1 p.2).readReport 4 (some ctx) p.1 p.2).1

/-- Send a block of the winning copy. -/
def State.sendRepair (s : State) (ctx : Nat) (x : Shard) (b : Nat) : State :=
  (s.readBlock ctx x b).postMir (.repair ctx x.num b (s.blockBytes x b))

/-- Compare one block of an owned shard with the digest that has come for it. -/
def State.compareBlock (x : Shard) (a : State × PairCmp) (b : Nat) : State × PairCmp :=
  let (s, c) := a
  match c.own.bind fun l => l[b]?, NMap.get? c.twin b with
  | some mine, some theirs =>
    if c.settled.contains b then a
    else if mine = theirs then
      (s.unmark x b, { c with settled := b :: c.settled, repairs := c.repairs.filter fun r => r.1 != b })
    else match c.repairs.find? fun r => r.1 == b with
      | some (_, _, true) => a
      | some (_, t, false) =>
        if t < 2 then (s.sendRepair c.ctx x b, { c with repairs := c.repairs.filter (fun r => r.1 != b) ++ [(b, t + 1, false)] })
        else (s.unmended c.ctx c.shard b,
          { c with settled := b :: c.settled, repairs := c.repairs.filter fun r => r.1 != b })
      | none =>
        let (mirror, kind) := divergence (s.marked x b) (c.marks.contains b)
        let s := s.diverge c x b kind mirror
        let c := { c with repairs := c.repairs ++ [(b, 1, mirror)] }
        if mirror then (s.askBlock c x b, c) else (s.sendRepair c.ctx x b, c)
  | _, _ => a

/-- The first comparison of a copied shard has ended: the copy is confirmed (R514). -/
def State.confirmCopy (s : State) (ctx shard : Nat) : State :=
  if s.copying.contains (ctx, shard) then
    let s := { s with copying := s.copying.filter (· != (ctx, shard)), copied := (ctx, shard) :: s.copied }
    s.setFld F.PAIR_REINT_DONE 0 s.copied.length
  else s

/-- Compare what can be compared; a comparison whose blocks have all been settled has ended. -/
def State.compare (s : State) (c : PairCmp) (x : Shard) (blocks : List Nat) : State :=
  let (s, c) := blocks.foldl (State.compareBlock x) (s, c)
  if c.own.isSome ∧ (List.range x.digestBlocks).all c.settled.contains then (s.endCmp c).confirmCopy c.ctx c.shard
  else s.setCmp c

/-- A digested pass over a shard has ended: an owner compares, a mirror sends its digests (R501). -/
def State.digested (s : State) (ctx : Nat) (x : Shard) (pass : DigestPass) (step : Nat) : State :=
  let l := s.shardDigestList x
  let s := s.when (s.mirroring x || s.compared ctx x) fun s => s.each x.streamParts fun p s => s.touch p.1 p.2
  let c := s.cmpOf ctx x.num pass step
  if s.mirroring x then
    let marks := s.marksIn x
    (s.setCmp { c with own := some l, marks := marks }).postMir (.digest ctx x.num pass step 0 l marks)
  else if s.compared ctx x then s.compare { c with own := some l } x (c.twin.map (·.1))
  else s

/-- The block that the next digests after a repair answer for: the repairs are answered in the order in which they were sent. -/
def PairCmp.answered (c : PairCmp) : Option Nat := (c.repairs.find? fun r => !r.2.2).map (·.1)

/-- Digests come from the twin: an owner compares them with those of the same pass, and after a repair those of the mended block and of the blocks
that are under no repair; a mirror answers with the blocks that its copy wins. -/
def State.takeDigests (s : State) (ctx : Nat) (x : Shard) (pass : DigestPass) (step first : Nat) (digests marks : List Nat) : State :=
  let blocks := (List.range digests.length).map (first + ·)
  if s.mirroring x then
    s.each (blocks.filter fun b => marks.contains b && !s.marked x b && digests.getD (b - first) 0 != s.blockDigest x b) fun b s =>
      s.sendRepair ctx x b
  else if s.compared ctx x then
    match if pass = .repair then s.cmp? ctx x.num else some (s.cmpOf ctx x.num pass step) with
    | none => s
    | some c =>
      let heard (b : Nat) : Bool := pass != .repair || c.answered == some b || !c.repairs.any fun r => r.1 == b
      let told := (blocks.zip digests).filter fun p => heard p.1
      let c := { c with
        twin := told.foldl (fun m p => NMap.set m p.1 p.2) c.twin
        marks := marks ++ c.marks.filter fun b => !blocks.contains b }
      s.compare c x (told.map (·.1))
  else s

/-- A block of the winning copy is written whole, and the digest of every block is taken again: a mirror sends them to the owner, an owner compares
the block's here (R501, R503). -/
def State.takeRepair (s : State) (ctx : Nat) (x : Shard) (b : Nat) (bytes : List Byte) : State :=
  let s := (s.writeParts (x.blockParts b) bytes).unmark x b
  let l := s.shardDigestList x
  if s.mirroring x then
    s.postMir (.digest ctx x.num .repair ((s.cmp? ctx x.num).elim 0 (·.step)) 0 l (s.marksIn x))
  else
    match s.cmp? ctx x.num with
    | none => s
    | some c =>
      match c.repairs.find? fun r => r.1 == b && r.2.2 with
      | none => s
      | some (_, t, _) =>
        let s := if (x.planeOf b) ≤ 1 then s.deriveBlock x b else s
        let c := { c with own := some l }
        if NMap.get? c.twin b = l[b]? then s.compare c x [b]
        else if t < 2 then
          let c := { c with repairs := c.repairs.map fun r => if r.1 = b then (b, t + 1, true) else r }
          (s.askBlock c x b).setCmp c
        else
          let c := { c with settled := b :: c.settled, repairs := c.repairs.filter fun r => r.1 != b }
          (s.unmended ctx x.num b).compare c x []

end Sys2Proof.Machine
end

