-- ==== Sys2Proof/Machine/Outer.lean ====
section
/-! DEFINITION. The arithmetic of outer rounds: when a round is formed and applied (R408 to R412), the form pass (R413 to R417), the
apply pass (R433, R434), and what a device keeps of its rounds. -/

namespace Sys2Proof.Machine

-- # The round clock (R408, R409)

/-- The outer rounds of a context with nothing formed or received. -/
def Xch.none : Xch where
  rounds := []
  inbound := []
  fails := []
  seals := []
  done := []
  gone := []
  entries := []
  outQueue := []
  credits := []
  noPath := []
  applying := Option.none
  applied := []
  passQueue := []
  deltas := []
  waitSince := Option.none
  stalled := false
  owners := []
  sites := []
  closed := Option.none
  handTo := Option.none
  provSites := []
  provRecs := []
  samples := []
  snaps := []
  serves := []
  snapFor := Option.none
  fresh := Option.none
  healNext := false
  firstRound := Option.none
  staleTo := Option.none
  healed := []

def State.xchOf (s : State) (ctx : Nat) : Xch := NMap.getD s.xch ctx Xch.none
def State.setXch (s : State) (ctx : Nat) (x : Xch) : State := { s with xch := NMap.set s.xch ctx x }
def State.modXch (s : State) (ctx : Nat) (f : Xch → Xch) : State := s.setXch ctx (f (s.xchOf ctx))

-- # Gateways and adopters

def Gate.none : Gate := ⟨[], 0, [], [], [], [], [], [], []⟩

def State.gate (s : State) (ctx : Nat) : Gate := NMap.getD s.gates ctx Gate.none
def State.modGate (s : State) (ctx : Nat) (f : Gate → Gate) : State := { s with gates := NMap.set s.gates ctx (f (s.gate ctx)) }

/-- The device that takes what is addressed to another: its adopter where it has failed. -/
def State.standIn (s : State) (ctx dev : Nat) : Nat := NMap.getD (s.gate ctx).adopters dev dev

/-- The records of a seal. -/
def sealRecs (body : List Byte) : List SealRec :=
  (List.range (min (beAt body 4 4) ((body.length - 32) / 24))).map fun i =>
    let o := 32 + 24 * i
    ⟨beAt body o 4, beAt body (o + 4) 4, beAt body (o + 8) 4, beAt body (o + 16) 8, 0⟩

-- # The clock's parameters

/-- A field of a staged register of the exchange, as class EXCHANGE has adopted it. -/
def State.xcfg (s : State) (f : Field) (ctx : Nat) : Nat := f.of (s.staged f.reg ctx .exchange 0)

/-- The site's ledger device: its twin serves in its place once it has been adopted (R438). -/
def State.ledgerId (s : State) (ctx : Nat) : Nat := s.standIn ctx (s.xcfg F.XCH_LEDGER_LEDGER_ID ctx)

/-- H and LAG of a context. -/
def State.roundH (s : State) (ctx : Nat) : Nat := s.xcfg F.XCH_CFG_H ctx
def State.roundLag (s : State) (ctx : Nat) : Nat := s.xcfg F.XCH_CFG_LAG ctx

/-- The mode of a context's rounds (XCH_STATE.MODE). -/
def State.xmode (s : State) (ctx : Nat) : Nat := s.fld F.XCH_STATE_MODE ctx

/-- A context takes part in outer rounds. -/
def State.xOn (s : State) (ctx : Nat) : Bool := s.flag F.XCH_CFG_EN ctx && s.xmode ctx != 0

/-- A shard takes part in outer rounds (R408): BASE, RESID, OMOM and U1 are present. -/
def Shard.exchanged (x : Shard) : Bool := x.has 8 && x.has 9 && x.has 10 && x.has 12

/-- A shard is marked as adopted (R508). -/
def Shard.adopted (x : Shard) : Bool := x.flags.testBit 3

/-- The exchanged shards that the device owns. -/
def State.ownExchanged (s : State) (ctx : Nat) : List Shard := (s.shards ctx).filter fun x => x.exchanged && s.owns x

/-- The exchanged shards that the device owns or mirrors. -/
def State.myExchanged (s : State) (ctx : Nat) : List Shard := (s.shards ctx).filter fun x => x.exchanged && (s.owns x || s.mirrors x)

/-- The round whose last step a step is. -/
def State.lastOf (s : State) (ctx step : Nat) : Option Nat :=
  let h := s.roundH ctx
  if s.xOn ctx && h != 0 && step % h == h - 1 then some (step / h) else Option.none

/-- The step at whose open a round is applied. -/
def Round.applyStep (q : Round) : Nat := q.round * q.h + q.h + q.lag

/-- The round that is to be applied at the open of a step: one that this device has formed, or at a joiner the one that the
configuration gives. -/
def State.appliedAt (s : State) (ctx step : Nat) : Option Nat :=
  let h := s.roundH ctx
  let n := h + s.roundLag ctx
  if !s.xOn ctx then Option.none
  else match (s.xchOf ctx).rounds.find? fun q => q.src == s.deviceId && q.applyStep == step with
    | some q => some q.round
    | Option.none =>
      if (s.xmode ctx == 3 || s.xmode ctx == 4) && h != 0 && decide (n ≤ step) && (step - n) % h == 0 then some ((step - n) / h) else Option.none

/-- A round number of a 32-bit register; all ones is none. -/
def roundField (n : Nat) : Option Nat := if n = 0xFFFFFFFF then Option.none else some n

-- # What a device keeps of a round

/-- The record of a round, formed for an owner of record. -/
def Xch.round? (x : Xch) (r src : Nat) : Option Round := x.rounds.find? fun q => q.round == r && q.src == src

/-- A field of XCH_STALE or XCH_TIMING as a round uses it: as it stood at the round's form, or as it is in force where this device has not
formed the round (R409). -/
def State.roundCfg (s : State) (f : Field) (ctx r : Nat) : Nat :=
  match (s.xchOf ctx).round? r s.deviceId with
  | some q => if f.reg = .XCH_TIMING then f.of (BitVec.ofNat 64 q.timing) else f.of (BitVec.ofNat 64 q.stale)
  | Option.none => s.xcfg f ctx

/-- Change the record of a round. -/
def Xch.modRound (x : Xch) (r src : Nat) (f : Round → Round) : Xch :=
  { x with rounds := x.rounds.map fun q => if q.round = r ∧ q.src = src then f q else q }

/-- The record of a round, opened where it is not there. -/
def State.openRound (s : State) (ctx r : Nat) : State :=
  let x := s.xchOf ctx
  if (x.round? r s.deviceId).isSome then s
  else
    s.setXch ctx { x with
      rounds := x.rounds ++ [⟨r, s.deviceId, s.xcfg F.XCH_CFG_WIDTH ctx, s.roundH ctx, s.roundLag ctx,
        (s.staged .XCH_OUTER ctx .exchange 0).toNat, (s.staged .XCH_STALE ctx .exchange 0).toNat,
        (s.staged .XCH_TIMING ctx .exchange 0).toNat, x.healNext, x.fresh == some r, [], [], false, [], [], 0, s.now, false, true, [], [], [],
        false, []⟩]
      healNext := false }

-- # The form pass (R413 to R417)

/-- lmax of a width. -/
def lmaxOf (w : Nat) : Nat := 2 ^ (w - 1) - 1

/-- The value of an FP32 plane's element. -/
def State.planeBits (s : State) (x : Shard) (q i : Nat) : Nat := s.devNat (x.elemAddr q i) 4

/-- Store an FP32 plane's element. -/
def State.setPlane (s : State) (x : Shard) (q i b : Nat) : State := s.devWrite (x.elemAddr q i) (leBytes 4 b)

/-- The master value of an element (R279). -/
def State.masterNum (s : State) (x : Shard) (i : Nat) : Num := masterFmt.decode (s.master x i)

/-- round_fp32 of an exact value (R187). -/
def roundF32 (v : Num) : Nat := canon (fp32.encode .nearest v)

/-- d of R413: the exact difference of the master and the base, rounded once. -/
def State.diffBits (s : State) (x : Shard) (i : Nat) : Nat :=
  roundF32 ((s.masterNum x i).add (fp32.decode (s.planeBits x 8 i)).negate).1

/-- a of R413. -/
def State.errBits (s : State) (x : Shard) (i : Nat) : Nat := canon (f32Add (s.planeBits x 9 i) (s.diffBits x i))

/-- The elements of a quantisation block (R415). -/
def Shard.quantBlock (x : Shard) (j : Nat) : List Nat := (List.range (min 256 (x.elems - 256 * j))).map fun k => 256 * j + k

/-- The quantisation blocks of a shard. -/
def Shard.quantBlocks (x : Shard) : Nat := ceilDiv x.elems 256

/-- A magnitude lies at or below lmax × 2^x. -/
def belowScale (lmax : Nat) (a : Nat) (x : Int) : Bool :=
  match fp32.decode (fp32.mag a) with
  | .fin _ m e => !(Num.fin false lmax x).lt (.fin false m e)
  | _ => false

/-- The scale byte of a block from its values (R415): 0 where every one is zero. -/
def scaleByte (lmax : Nat) (l : List Nat) : Nat :=
  let amax := (l.map fp32.mag).foldl max 0
  if amax = 0 then 0
  else ((List.range 255).find? fun (k : Nat) => belowScale lmax amax ((k : Int) - 127)).getD 254

/-- n of R416: a × 2^(−x) rounded stochastically to an integer, saturated at lmax. -/
def quantise (lmax a : Nat) (x : Int) (u : Nat) : Int :=
  match fp32.decode a with
  | .fin g m e =>
    let k := e - x
    let n :=
      if 0 ≤ k then m * pow2 k
      else
        let d := pow2 (-k)
        m / d + b2n (decide (u < 2 ^ 24 * (m % d) / d))
    sgn g (min n lmax)
  | _ => 0

/-- The random value of an element of a round (R416), with the job seed that the step's launch has taken (R229). -/
def State.roundU (s : State) (ctx r shard i : Nat) : Nat :=
  stochU ((NMap.get? s.steps ctx).elim (s.fld F.NUM_JOB_SEED_SEED ctx) (·.jobSeed)) (0xE000000000000000 + r) (0xD0000000 + shard) i

/-- Form one block: its planes, its scale byte and its symbols; a block with a value that is not finite counts as zeros and keeps RESID
(R417). -/
def State.formBlock (ctx r w : Nat) (x : Shard) (a : State × SymShard × Nat) (j : Nat) : State × SymShard × Nat :=
  let (s, y, bad) := a
  let lmax := lmaxOf w
  let els := x.quantBlock j
  let vals := els.map fun i => (i, s.diffBits x i, s.errBits x i)
  if vals.all fun v => (fp32.decode v.2.2).finite then
    let sc := scaleByte lmax (vals.map (·.2.2))
    let e : Int := (sc : Int) - 127
    let step (acc : State × List Nat) (v : Nat × Nat × Nat) : State × List Nat :=
      let n := quantise lmax v.2.2 e (acc.1.roundU ctx r x.num v.1)
      let q : Num := Num.ofInt n e (fp32.sign v.2.2)
      let t := acc.1.setPlane x 12 v.1 v.2.1
      (t.setPlane x 9 v.1 (roundF32 ((fp32.decode v.2.2).add q.negate).1), (n + lmax).toNat :: acc.2)
    let (s, l) := vals.foldl step (s, [])
    (s, { y with scales := y.scales ++ [sc], syms := y.syms ++ l.reverse }, bad)
  else
    let s := s.each vals fun v s => s.setPlane x 12 v.1 v.2.1
    (s, { y with scales := y.scales ++ [0], syms := y.syms ++ List.replicate els.length lmax }, bad + 1)

/-- The form pass over a shard, and its digests (R413, R417, R501). -/
def State.formPass (s : State) (ctx r step : Nat) (x : Shard) : State :=
  let w := ((s.xchOf ctx).round? r s.deviceId).elim 4 (·.width)
  let (s, y, bad) := (List.range x.quantBlocks).foldl (State.formBlock ctx r w x) (s, ⟨x.num, [], []⟩, 0)
  let s := s.when (bad != 0) fun s => s.raise (.context ctx) 0x070C 2 x.num (2 ^ 32 * r + bad)
  let s := s.modXch ctx fun q => q.modRound r s.deviceId fun p => { p with formed := x.num :: p.formed, syms := p.syms ++ [y] }
  s.digested ctx x .form step

/-- Every form pass of a round is complete. -/
def State.formsDone (s : State) (ctx r : Nat) : Bool :=
  let x := s.xchOf ctx
  if x.fresh = some r ∨ s.xmode ctx = 3 then true
  else match x.round? r s.deviceId with
    | some q => (s.myExchanged ctx).all fun h => q.formed.contains h.num
    | Option.none => (s.myExchanged ctx).isEmpty

/-- Note that a round is formed, once its passes are complete. -/
def State.noteFormed (s : State) (ctx r : Nat) : State :=
  if s.formsDone ctx r then
    (s.setFld F.XCH_ROUND_LAST_FORMED ctx r).modXch ctx fun x => x.modRound r s.deviceId fun q => { q with time := s.now }
  else s

-- # The apply pass (R433 to R435)

/-- The apply pass on one element: what it keeps where a value is not finite or has no result (R433, R434). -/
def State.applyElem (mu eta : Nat) (x : Shard) (a : State × Nat) (p : Nat × Nat) : State × Nat :=
  let (s, bad) := a
  let (i, dlt) := p
  let om := canon (f32Fma mu (s.planeBits x 10 i) dlt)
  let stp := canon (f32Fma mu om dlt)
  let base := s.planeBits x 8 i
  let bnew := canon (f32Fma eta stp base)
  let u1 := s.planeBits x 12 i
  let fin (b : Nat) : Bool := (fp32.decode b).finite
  let v := ((((s.masterNum x i).add (fp32.decode bnew)).1.add (fp32.decode base).negate).1.add (fp32.decode u1).negate).1
  match fin om && fin stp && fin bnew, roundMaster v with
  | true, some enc =>
    let s := (s.storeMaster x i enc).deriveElem x i
    let s := (s.setPlane x 8 i bnew).setPlane x 10 i om
    (s.setPlane x 12 i 0, bad)
  | _, _ => (s, bad + 1)

/-- The apply pass over a shard with its digests. -/
def State.applyPass (s : State) (ctx r step : Nat) (x : Shard) (dlt : List Nat) : State :=
  let outer := ((s.xchOf ctx).round? r s.deviceId).elim (s.staged .XCH_OUTER ctx .exchange 0) fun q => BitVec.ofNat 64 q.outer
  let mu := F.XCH_OUTER_MU.of outer
  let eta := F.XCH_OUTER_ETA.of outer
  let (s, bad) := (((List.range x.elems).zip dlt)).foldl (State.applyElem mu eta x) (s, 0)
  let s := s.when (bad != 0) fun s => s.raise (.context ctx) 0x070C 2 x.num (2 ^ 32 * r + bad)
  s.digested ctx x .apply step

-- # The planes of a snapshot (R444, R446, R448)

/-- Elements of a snapshot chunk: 1 MiB of BASE and OMOM values. -/
def chunkElems : Nat := 131072

/-- The chunks of a shard. -/
def Shard.chunks (x : Shard) : Nat := ceilDiv x.elems chunkElems

/-- The bytes of a chunk: the BASE values of its elements, then their OMOM values. -/
def State.chunkBytes (s : State) (x : Shard) (k : Nat) : List Byte :=
  let n := min chunkElems (x.elems - k * chunkElems)
  s.devRead (x.elemAddr 8 (k * chunkElems)) (4 * n) ++ s.devRead (x.elemAddr 10 (k * chunkElems)) (4 * n)

/-- The exchange engine reads a chunk: through the caches and the symbol code, and what lies outside memory is reported (R328, R329, R334). -/
def State.touchChunk (s : State) (ctx : Nat) (x : Shard) (k : Nat) : State :=
  let n := min chunkElems (x.elems - k * chunkElems)
  s.each [8, 10] fun q s =>
    ((s.reachMemory 5 (some ctx) (x.elemAddr q (k * chunkElems)) (4 * n)).readReport 5 (some ctx) (x.elemAddr q (k * chunkElems)) (4 * n)).1

/-- Take BASE and OMOM of a chunk. -/
def State.putChunk (s : State) (x : Shard) (k : Nat) (bs : List Byte) : State :=
  let n := min chunkElems (x.elems - k * chunkElems)
  (s.devWrite (x.elemAddr 8 (k * chunkElems)) (bs.take (4 * n))).devWrite (x.elemAddr 10 (k * chunkElems)) ((bs.drop (4 * n)).take (4 * n))

/-- Take a whole snapshot of a shard: a healing device keeps its master and RESID; a joiner takes the base as its master. -/
def State.takeSnapshot (s : State) (x : Shard) (y : Snap) (join : Bool) : State :=
  let s := s.each y.got fun p s => s.putChunk x p.1 p.2
  s.each (List.range x.elems) fun i s =>
    let s := s.setPlane x 12 i 0
    s.when join fun s =>
      let s := s.setPlane x 9 i 0
      (s.storeMaster x i (s.planeBits x 8 i * 256)).deriveElem x i

end Sys2Proof.Machine
end

