-- ==== Sys2Proof/Machine/Cipher.lean ====
section
/-! DEFINITION. The key store as the cipher engine and the far ports use it (R424, R463, R555, R556, R561 to R563). -/

namespace Sys2Proof.Machine

/-- Bytes combined with the key stream. -/
def gcmMask (key iv bytes : List Byte) : List Byte := let ks := aesKeys key; bytes.zipIdx.map fun x => x.1 ^^^ gcmStream ks iv x.2

/-- The tag of a ciphertext. -/
def gcmTagOf (key iv aad ct : List Byte) : List Byte := beBytes 16 (gcmTag key iv aad ct)

/-- Seal a plaintext: the ciphertext, then the 16-byte tag. -/
def gcmSeal (key iv aad plain : List Byte) : List Byte :=
  let ct := gcmMask key iv plain
  ct ++ gcmTagOf key iv aad ct

/-- Open a ciphertext that ends in its tag: nothing where the tag fails (R562). -/
def gcmOpen (key iv aad sealed : List Byte) : Option (List Byte) :=
  let n := sealed.length - 16
  let ct := sealed.take n
  if 16 ≤ sealed.length ∧ sealed.drop n = gcmTagOf key iv aad ct then some (gcmMask key iv ct) else none

/-- What a unit that starts now finds in a key slot: the new contents, or none, where a load or an ERASE of the slot waits for the units that took
the old key (R559); else what the slot holds. -/
def State.slotKey (s : State) (slot : Nat) : Option KeySlot :=
  match s.secure.keyDue with
  | some (d, k) => if d = slot then k.map fun k => { k with seq := s.loadSeq + 1 } else NMap.get? s.keys slot
  | none => NMap.get? s.keys slot

/-- A key of a class in a slot; an EXCHANGE key only for its own context (R556). -/
def State.keyIn (s : State) (slot cls ctx : Nat) : Option KeySlot :=
  match s.slotKey slot with
  | some k => if k.cls = cls ∧ (cls ≠ 2 ∨ k.ctx = ctx) then some k else none
  | none => none

/-- The slot that a page names for a round (R561). -/
def State.pageSlot (s : State) (ctx r : Nat) : Nat :=
  if s.xcfg F.CIP_PAGE_CFG_B_EN ctx = 1 ∧ s.xcfg F.CIP_PAGE_CFG_SWITCH_ROUND ctx ≤ r then s.xcfg F.CIP_PAGE_CFG_SLOT_B ctx
  else s.xcfg F.CIP_PAGE_CFG_SLOT_A ctx

/-- The exchange key of a context for a round: none where its page is off or its slot holds no such key. -/
def State.pageKey (s : State) (ctx r : Nat) : Option KeySlot :=
  if s.xcfg F.CIP_PAGE_CFG_EN ctx = 1 then s.keyIn (s.pageSlot ctx r) 2 ctx else none

/-- The key with which a page may seal: one loaded after the last restore (R563). -/
def State.sealKey (s : State) (ctx r : Nat) : Option KeySlot :=
  match s.pageKey ctx r with
  | some k => if s.flag F.CIP_PAGE_GUARD_ACTIVE ctx && decide (k.seq ≤ s.fld F.CIP_PAGE_GUARD_SEQ ctx) then none else some k
  | none => none

/-- The IV of a soredium (R424). -/
def soredIv (site src round seq : Nat) : List Byte :=
  beBytes 1 site ++ beBytes 2 src ++ beBytes 4 round ++ beBytes 4 seq ++ beBytes 1 1

end Sys2Proof.Machine
end

