-- ==== Sys2Proof/Machine/Rans.lean ====
section
/-! DEFINITION. The soredia (R418 to R426): histograms and frequency tables, the rANS coder, the bit streams, the cut, and the reading of a
soredium with its checks. -/

namespace Sys2Proof.Machine

-- # Tables (R418)

/-- Symbols of a full group at a width (Table 0-2). -/
def symGroup (w : Nat) : Nat :=
  match w with
  | 2 => 262144
  | 3 => 174762
  | 4 => 131072
  | 6 => 87381
  | _ => 65536

/-- The histogram of a list of symbols. -/
def histogram (w : Nat) (l : List Nat) : List Nat := (List.range (2 ^ w)).map fun v => l.countP (· == v)

/-- The place of the greatest value, the lowest on a tie. -/
def argMax (l : List Nat) : Nat := (List.range l.length).foldl (fun b i => if l.getD b 0 < l.getD i 0 then i else b) 0

/-- The sum of a list. -/
def total (l : List Nat) : Nat := l.foldl (· + ·) 0

/-- Take 1 from the greatest frequency, so often. -/
def trimFreqs : Nat → List Nat → List Nat
  | 0, l => l
  | n + 1, l => let i := argMax l; trimFreqs n (l.set i (l.getD i 0 - 1))

/-- The frequencies of a histogram, of total 2^15. -/
def freqsOf (c : List Nat) : List Nat :=
  let n := total c
  let f := c.map fun v => if v = 0 then 0 else max 1 (32768 * v / n)
  let t := total f
  if t < 32768 then
    let i := argMax c
    f.set i (f.getD i 0 + (32768 - t))
  else trimFreqs (t - 32768) f

/-- cum_s. -/
def cumOf (f : List Nat) (v : Nat) : Nat := total (f.take v)

-- # The coder (R419)

/-- Emit words while a state is too large for the next symbol. The words stand newest first. -/
def ransDrop (lim : Nat) : Nat → Nat × List Nat → Nat × List Nat
  | 0, a => a
  | n + 1, (x, ws) => if lim ≤ x then ransDrop lim n (x / 65536, (x % 65536) :: ws) else (x, ws)

/-- Code one symbol into its state. -/
def ransPut (f : List Nat) (a : List Nat × List Nat) (p : Nat × Nat) : List Nat × List Nat :=
  let (st, ws) := a
  let k := p.2 % 4
  let fs := f.getD p.1 1
  let (x, ws) := ransDrop (131072 * fs) 3 (st.getD k 65536, ws)
  (st.set k (32768 * (x / fs) + x % fs + cumOf f p.1), ws)

/-- The stream of a slice. -/
def ransEncode (f : List Nat) (syms : List Nat) : List Byte :=
  let (st, ws) := syms.zipIdx.reverse.foldl (ransPut f) ([65536, 65536, 65536, 65536], [])
  st.flatMap (leBytes 4) ++ ws.flatMap (leBytes 2)

/-- The symbol whose range holds a slot value. -/
def symbolAt (f : List Nat) (slot : Nat) : Nat :=
  ((List.range f.length).find? fun v => decide (cumOf f v ≤ slot) && decide (slot < cumOf f v + f.getD v 0)).getD 0

/-- Take words while a state is too small. -/
def ransFill (x : Nat) : List Nat → Option (Nat × List Nat)
  | [] => if x < 65536 then none else some (x, [])
  | w :: rest => if x < 65536 then ransFill (x * 65536 + w) rest else some (x, w :: rest)

/-- Decode so many symbols; every state ends at 65,536 and every word is consumed. -/
def ransGet (f : List Nat) : Nat → Nat → List Nat × List Nat → Option (List Nat)
  | 0, _, (st, ws) => if st.all (· == 65536) && ws.isEmpty then some [] else none
  | n + 1, i, (st, ws) =>
    let k := i % 4
    let x := st.getD k 0
    let slot := x % 32768
    let v := symbolAt f slot
    match ransFill (f.getD v 0 * (x / 32768) + slot - cumOf f v) ws with
    | none => none
    | some (y, ws) => (ransGet f n (i + 1) (st.set k y, ws)).map (v :: ·)

/-- Bytes as 16-bit words. -/
def words16 : List Byte → List Nat
  | a :: b :: rest => (a.toNat + 256 * b.toNat) :: words16 rest
  | _ => []

/-- Decode a stream of so many symbols. -/
def ransDecode (f : List Nat) (n : Nat) (bs : List Byte) : Option (List Nat) :=
  let st := (List.range 4).map fun k => leNat ((bs.drop (4 * k)).take 4)
  ransGet f n 0 (st, words16 (bs.drop 16))

-- # Bit streams (R423)

/-- The bits of a number, most significant first. -/
def bitsMsb (n v : Nat) : List Bool := ((List.range n).map fun i => v.testBit i).reverse

/-- The order-0 Exp-Golomb code of a number. -/
def expGolomb (k : Nat) : List Bool :=
  let n := Nat.log2 (k + 1)
  List.replicate n false ++ bitsMsb (n + 1) (k + 1)

/-- Eight bits as a byte, most significant first, padded with zeros. -/
def byteMsb (l : List Bool) : Byte := BitVec.ofNat 8 ((List.range 8).foldl (fun a i => 2 * a + b2n (l.getD i false)) 0)

/-- Bits as bytes. -/
def packMsb : Nat → List Bool → List Byte
  | 0, _ => []
  | n + 1, l => if l.isEmpty then [] else byteMsb l :: packMsb n (l.drop 8)

def packBits (l : List Bool) : List Byte := packMsb (l.length / 8 + 1) l

/-- Bytes as bits. -/
def unpackBits (bs : List Byte) : List Bool := bs.flatMap fun b => bitsMsb 8 b.toNat

/-- The leading zeros of a code, so many at most, and the rest. -/
def leadZeros : Nat → List Bool → Nat × List Bool
  | n + 1, false :: rest => let r := leadZeros n rest; (r.1 + 1, r.2)
  | _, l => (0, l)

/-- Read one Exp-Golomb code. -/
def readGolomb (l : List Bool) : Option (Nat × List Bool) :=
  let (n, rest) := leadZeros l.length l
  if rest.length < n + 1 then none
  else some ((rest.take (n + 1)).foldl (fun a b => 2 * a + b2n b) 0 - 1, rest.drop (n + 1))

/-- Read so many codes. -/
def readGolombs : Nat → List Bool → Option (List Nat × List Bool)
  | 0, l => some ([], l)
  | n + 1, l =>
    match readGolomb l with
    | none => none
    | some (v, rest) => (readGolombs n rest).map fun r => (v :: r.1, r.2)

/-- The padding of a section: fewer than eight bits, all zero. -/
def padOk (l : List Bool) : Bool := decide (l.length < 8) && l.all (!·)

/-- The table section of frequencies. -/
def tableSection (f : List Nat) : List Byte :=
  let present := f.map (· != 0)
  let vals := f.filter (· != 0)
  packBits (present ++ (vals.take (vals.length - 1)).flatMap fun v => expGolomb (v - 1))

/-- Read a table section: the last frequency is at least 1 (R425). -/
def readTable (w : Nat) (bs : List Byte) : Option (List Nat) :=
  let bits := unpackBits bs
  let present := bits.take (2 ^ w)
  let n := present.countP (·)
  if present.length < 2 ^ w ∨ n = 0 then none
  else
    match readGolombs (n - 1) (bits.drop (2 ^ w)) with
    | none => none
    | some (vs, rest) =>
      let fs := vs.map (· + 1)
      if 32768 ≤ total fs ∨ padOk rest = false then none
      else
        let all := fs ++ [32768 - total fs]
        some ((present.foldl (fun (a : List Nat × List Nat) b => if b then (a.1 ++ [a.2.headD 0], a.2.drop 1) else (a.1 ++ [0], a.2))
          ([], all)).1)

/-- A signed difference as an unsigned number. -/
def zigzag (d : Int) : Nat := if 0 ≤ d then (2 * d).toNat else (-2 * d - 1).toNat

/-- The signed difference that a number stands for. -/
def unzigzag (z : Nat) : Int := if z % 2 = 0 then (z / 2 : Nat) else -(((z + 1) / 2 : Nat) : Int)

/-- The codes of a list of scale bytes after a previous one. -/
def scaleCodes : Nat → List Nat → List Bool
  | _, [] => []
  | prev, b :: rest => expGolomb (zigzag ((b : Int) - prev)) ++ scaleCodes b rest

/-- The scale bytes that codes stand for. -/
def unscale : Int → List Nat → List Int
  | _, [] => []
  | prev, z :: rest => let b := prev + unzigzag z; b :: unscale b rest

/-- Read a scale section of so many blocks. -/
def readScales (n : Nat) (bs : List Byte) : Option (List Nat) :=
  match readGolombs n (unpackBits bs) with
  | none => none
  | some (zs, rest) =>
    let l := unscale 0x7F zs
    if padOk rest && l.all fun b => decide (0 ≤ b) && decide (b ≤ 254) then some (l.map Int.toNat) else none

-- # Soredia (R421, R422)

/-- What a soredium carries, and of which group. -/
structure SoredHead where
  width : Nat
  flags : Nat
  site  : Nat
  src   : Nat
  round : Nat
  shard : Nat
  seq   : Nat
  group : Nat
  first : Nat
  count : Nat
deriving DecidableEq, Repr

/-- The scale bytes of the blocks that a run of symbols touches. -/
def scalesFor (scales : List Nat) (first count : Nat) : List Nat :=
  (scales.drop (first / 256)).take ((first + count - 1) / 256 - first / 256 + 1)

/-- The bytes of a soredium. -/
def soredBytes (h : SoredHead) (f : List Nat) (scales syms : List Nat) : List Byte :=
  let tab := tableSection f
  let scl := packBits (scaleCodes 0x7F (scalesFor scales h.first h.count))
  let body := ransEncode f syms
  let bs := [0x11] ++ beBytes 1 h.width ++ beBytes 1 h.flags ++ beBytes 1 h.site ++ beBytes 2 h.src ++ beBytes 2 tab.length ++
    beBytes 8 h.round ++ beBytes 4 h.shard ++ beBytes 4 h.seq ++ beBytes 4 h.group ++ beBytes 4 h.first ++ beBytes 4 h.count ++
    beBytes 2 scl.length ++ beBytes 2 body.length ++ tab ++ scl ++ body
  bs ++ leBytes 4 (crc32c bs)

/-- The length of the soredium that would carry so many of a group's remaining symbols. -/
def soredLen (h : SoredHead) (f scales syms : List Nat) (n : Nat) : Nat := (soredBytes { h with count := n } f scales (syms.take n)).length

/-- The largest number of symbols whose soredium fits in 8,192 bytes. -/
def cutAt (h : SoredHead) (f scales syms : List Nat) : Nat :=
  (((List.range (syms.length + 1)).reverse).find? fun n => decide (soredLen h f scales syms n ≤ 8192)).getD 0

/-- Cut one group: `last` says that it is the shard's last. -/
def cutGroup (h : SoredHead) (f scales : List Nat) (last : Bool) : Nat → Nat → Nat → List Nat → List Sored
  | 0, _, _, _ => []
  | fuel + 1, seq, first, syms =>
    if syms.isEmpty then []
    else
      let h := { h with seq := seq, first := first }
      let n := max 1 (cutAt h f scales syms)
      let isLast := last && decide (syms.length ≤ n)
      let h := { h with count := n, flags := h.flags + b2n isLast }
      ⟨h.shard, seq, soredBytes h f scales (syms.take n)⟩ ::
        cutGroup { h with flags := h.flags - b2n isLast } f scales last fuel (seq + 1) (first + n) (syms.drop n)

/-- The groups of a shard's symbols. -/
def groupsOf (w : Nat) : Nat → List Nat → List (List Nat)
  | 0, _ => []
  | n + 1, l => if l.isEmpty then [] else l.take (symGroup w) :: groupsOf w n (l.drop (symGroup w))

/-- The soredia and the group histograms of a shard, from a SEQ on. -/
def codeShard (w flags site src round seq : Nat) (y : SymShard) : List Sored × List (List Nat) :=
  let gs := groupsOf w (y.syms.length / symGroup w + 1) y.syms
  gs.zipIdx.foldl (fun (a : List Sored × List (List Nat)) g =>
    let c := histogram w g.1
    let h : SoredHead := ⟨w, flags, site, src, round, y.shard, 0, g.2, 0, 0⟩
    let l := cutGroup h (freqsOf c) y.scales (decide (g.2 + 1 = gs.length)) g.1.length (seq + a.1.length) (g.2 * symGroup w) g.1
    (a.1 ++ l, a.2 ++ [c])) ([], [])

/-- Code the shards of a round in ascending number (R421). -/
def codeRound (w flags site src round : Nat) (l : List SymShard) : List Sored × List (List Nat) :=
  ((l.foldl (fun acc y => insertNum (y.shard, y) acc) []).map (·.2)).foldl (fun (a : List Sored × List (List Nat)) y =>
    let r := codeShard w flags site src round a.1.length y
    (a.1 ++ r.1, a.2 ++ r.2)) ([], [])

-- # Reading a soredium (R425)

/-- The header of a soredium. -/
def soredHead (bs : List Byte) : SoredHead :=
  ⟨beAt bs 1 1, beAt bs 2 1, beAt bs 3 1, beAt bs 4 2, beAt bs 8 8, beAt bs 16 4, beAt bs 20 4, beAt bs 24 4, beAt bs 28 4, beAt bs 32 4⟩

/-- The header's fields are those of Table 12-1, and name a part of a shard of so many elements. -/
def headOk (bs : List Byte) (elems : Nat) : Bool :=
  let h := soredHead bs
  let g := symGroup h.width
  beAt bs 0 1 == 0x11 && [2, 3, 4, 6, 8].contains h.width && decide (h.flags < 4) && decide (h.site < 64) && decide (1 ≤ h.count) &&
    decide (h.group * g ≤ h.first) && decide (h.first + h.count ≤ min elems ((h.group + 1) * g)) &&
    decide (16 ≤ beAt bs 38 2) && beAt bs 38 2 % 2 == 0 && bs.length == 44 + beAt bs 6 2 + beAt bs 36 2 + beAt bs 38 2

/-- Read the contents of a soredium in the clear: steps 2 to 5 of R425. -/
def readSored (bs : List Byte) (elems : Nat) : Option InSored :=
  let n := bs.length - 4
  if bs.length < 44 ∨ leNat (bs.drop n) ≠ crc32c (bs.take n) ∨ headOk bs elems = false then none
  else
    let h := soredHead bs
    let tab := beAt bs 6 2
    let scl := beAt bs 36 2
    match readTable h.width ((bs.drop 40).take tab), readScales ((h.first + h.count - 1) / 256 - h.first / 256 + 1) ((bs.drop (40 + tab)).take scl) with
    | some f, some scales =>
      (ransDecode f h.count ((bs.drop (40 + tab + scl)).take (beAt bs 38 2))).map fun syms =>
        ⟨h.site, h.src, h.round, h.seq, h.shard, h.width, h.first, h.flags.testBit 1, scales, syms, bs⟩
    | _, _ => none

end Sys2Proof.Machine
end

