-- ==== Sys2Proof/Machine/Account.lean ====
section
/-! DEFINITION. The efficiency accounting of a round (R8 to R14, R428 to R430), exact over whole numbers, and what the end of a round's
apply leaves (R411, R437, R447). -/

namespace Sys2Proof.Machine

-- # h_round and eta, exactly (R11, R429, R430)

/-- h_round is the logarithm to base 2 of a quotient of whole numbers: the product over the groups of n^n over the products of c^c. -/
def entropyNum (hists : List (List Nat)) : Nat := hists.foldl (fun a l => let n := l.foldl (· + ·) 0; a * n ^ n) 1
def entropyDen (hists : List (List Nat)) : Nat := hists.foldl (fun a l => l.foldl (fun b c => b * c ^ c) a) 1

/-- h_round is zero. -/
def entropyZero (hists : List (List Nat)) : Bool := entropyNum hists == entropyDen hists

/-- floor(h_round × 2^16). -/
def entropyFixed (hists : List (List Nat)) : Nat := Nat.log2 (entropyNum hists ^ 65536 / entropyDen hists ^ 65536)

/-- The smallest number of so many bits that a test accepts, for a test that stays true above its first. -/
def leastBits (p : Nat → Bool) : Nat → Nat → Nat
  | 0, a => a
  | k + 1, a => if p (a + 2 ^ k - 1) then leastBits p k a else leastBits p k (a + 2 ^ k)

/-- e × h_round is at least b × 2^16. -/
def etaReached (hists : List (List Nat)) (b e : Nat) : Bool :=
  decide (2 ^ (65536 * b) * entropyDen hists ^ e ≤ entropyNum hists ^ e)

/-- ceil(b_wire × 2^16 / h_round), or its reading where h_round is zero or the quotient is too large (R14, R429). -/
def etaOf (hists : List (List Nat)) (b : Nat) : Nat :=
  if entropyZero hists then 0xFFFFFFFF
  else if etaReached hists b 0xFFFFFFFE then leastBits (etaReached hists b) 32 0
  else 0xFFFFFFFE

/-- 10 × b_wire exceeds 11 × h_round (R430). -/
def etaBreaks (hists : List (List Nat)) (b : Nat) : Bool :=
  decide (entropyNum hists ^ 11 < 2 ^ (10 * b) * entropyDen hists ^ 11)

/-- The accounting of a round becomes final: its values, then ROUND; event 0x0703 on a breach inside the guarantee. -/
def State.account (s : State) (ctx : Nat) (q : Round) : State :=
  let b := (q.counts.map (·.2.1)).foldl (· + ·) 0
  let all := (q.counts.map (·.2.2)).foldl (· + ·) 0
  let zero := entropyZero q.hists
  let small := decide (q.elems < 4194304)
  let inside := !small && decide (2 ≤ q.width) && !zero
  let eta := etaOf q.hists b
  let breach := inside && etaBreaks q.hists b
  let s := (s.setFld F.XCH_EFF_BWIRE_BITS ctx b).setFld F.XCH_EFF_ALL_BITS ctx all
  let s := s.setFld F.XCH_EFF_HROUND_H ctx (if zero then 0 else entropyFixed q.hists)
  let s := (s.setFld F.XCH_EFF_ETA_ETA ctx eta).setFld F.XCH_EFF_ELEMS_ELEMS ctx q.elems
  let s := (s.setFld F.XCH_EFF_STATE_VALID ctx 1).setFld F.XCH_EFF_STATE_INSIDE ctx (b2n inside)
  let s := (s.setFld F.XCH_EFF_STATE_UNMEASURABLE ctx (b2n zero)).setFld F.XCH_EFF_STATE_BREACH ctx (b2n breach)
  let s := (s.setFld F.XCH_EFF_STATE_WHY_SMALL ctx (b2n small)).setFld F.XCH_EFF_STATE_WHY_ZERO ctx (b2n zero)
  let s := (s.setFld F.XCH_EFF_STATE_WHY_WIDTH ctx (b2n (decide (q.width < 2)))).setFld F.XCH_EFF_STATE_ROUND ctx q.round
  s.when breach fun s => s.raise (.context ctx) 0x0703 2 0 (2 ^ 32 * q.round + eta)

-- # The end of an apply (R411, R437, R447)

/-- A gateway's counters of a round become final at its apply, and the seals of the round leave it (R484, R491). -/
def State.finalRnd (s : State) (ctx r : Nat) : State :=
  match NMap.get? s.gates ctx with
  | none => s
  | some g =>
    let x := (g.rnd.find? fun x => x.1 == r).getD (r, 0, 0, 0)
    let s := (s.setFld F.FAR_RND_RETX_BITS ctx x.2.1).setFld F.FAR_RND_ACK_BITS ctx x.2.2.1
    let s := (s.setFld F.FAR_RND_FWD_BITS ctx x.2.2.2).setFld F.FAR_RND_STATE_VALID ctx 1
    let s := s.setFld F.FAR_RND_STATE_ROUND ctx r
    { s with gates := NMap.set s.gates ctx { g with
        rnd := g.rnd.filter fun x => decide (r < x.1)
        counts := g.counts.filter fun c => decide (r < c.round)
        seals := g.seals.filter fun b => decide (r < leNat (((b.drop 8).take 8).reverse)) } }

/-- The sites of a context's job but this one. -/
def State.otherSites (s : State) (ctx : Nat) : List Nat :=
  (List.range (s.xcfg F.XCH_CFG_SITES_M1 ctx + 1)).filter fun k => k != s.xcfg F.XCH_CFG_SITE ctx

/-- A contribution is known as a site's HEAL (R444). -/
def State.knownHeal (s : State) (ctx site r : Nat) : Bool :=
  let x := s.xchOf ctx
  (x.inbound.any fun y => y.site == site && y.round == r && y.heal) ||
    (site == s.xcfg F.XCH_CFG_SITE ctx && x.rounds.any fun q => q.round == r && q.heal)

/-- S_MAX has overtaken an origin round: its contributions are discarded, but for a HEAL, which is included whatever its round (R437, R444). -/
def Xch.overtaken (x : Xch) (r : Nat) : Bool := x.staleTo.any fun n => decide (r ≤ n)

/-- Discard the contributions that no ledger entry can still include once a round is applied, this site's own among them (R437). -/
def State.discardStale (s : State) (ctx r m : Nat) : State :=
  let x := s.xchOf ctx
  if r < m + 1 ∨ (x.firstRound.elim true fun f => decide (r - m - 1 < f)) then s
  else
    let o := r - m - 1
    let lost := (List.range (s.xcfg F.XCH_CFG_SITES_M1 ctx + 1)).filter fun k => !x.gone.contains (k, o) && !s.knownHeal ctx k o
    let s := s.each lost fun k s =>
      (s.bumpFld F.XCH_STATS_DISCARDED ctx 1).raise (.context ctx) 0x0705 1 k o
    s.modXch ctx fun x => { x with
      staleTo := some o
      rounds := x.rounds.filter fun (q : Round) => decide (o < q.round) || q.heal
      inbound := x.inbound.filter fun (y : InSored) => decide (o < y.round) || y.heal
      seals := x.seals.filter fun (y : Seal) => decide (o < y.round) || s.knownHeal ctx y.site y.round }

/-- The fetches that are in progress restart under the newer round (R447). -/
def Serve.restart (r : Nat) (v : Serve) : Serve := if v.sent then v else { v with round := r, restarts := v.restarts + 1 }

/-- What the sites have healed or joined with in an entry, and that they are provisional no more (R443, R444). -/
def Xch.noteHeals (x : Xch) (e : Entry) : Xch :=
  let l := e.recs.filter fun c => c.kind == 2 || c.kind == 3
  { x with
    healed := l.foldl (fun m c => NMap.set m c.site c.origin) x.healed
    provSites := x.provSites.filter fun k => !l.any fun c => c.site == k }

/-- A round has been applied (R411, R428, R429, R431, R442). Its record goes once the site's own contribution of it has been applied, which a
later entry may bring (R433, R437). -/
def State.roundApplied (s : State) (ctx r : Nat) : State :=
  let x := s.xchOf ctx
  let entry := x.entries.find? fun e => e.round == r
  let s := s.setFld F.XCH_ROUND_LAST_APPLIED ctx r
  let s := match x.round? r s.deviceId with
    | some q => s.account ctx q
    | none => s
  let s := match entry with
    | some e =>
      let s := s.when e.prov fun s => s.bumpFld F.XCH_STATE_PROV_ROUNDS ctx 1
      s.each (e.recs.filter fun (c : LedRec) => c.kind == 1) fun c s =>
        (s.bumpFld F.XCH_STATS_LATE ctx 1).raise (.context ctx) 0x0704 0 c.site (2 ^ 32 * c.origin + c.stale % 256)
    | none => s
  let used : List (Nat × Nat) := entry.elim [] fun e => e.recs.map fun c => (c.site, c.origin)
  let me := s.xcfg F.XCH_CFG_SITE ctx
  let m := s.roundCfg F.XCH_STALE_S_MAX ctx r
  let s := s.modXch ctx fun x => { x with
    rounds := (x.rounds.filter fun (q : Round) => !used.contains (me, q.round)).map fun q => if q.round = r then { q with done := true } else q
    entries := x.entries.filter fun (e : Entry) => decide (r < e.round)
    inbound := x.inbound.filter fun (y : InSored) => !used.contains (y.site, y.round)
    seals := x.seals.filter fun (y : Seal) => !used.contains (y.site, y.round)
    gone := used ++ x.gone
    applying := none
    applied := []
    passQueue := []
    deltas := x.deltas.filter fun (d : Nat × Nat × List Nat) => d.2.1 != r
    serves := x.serves.map (Serve.restart r)
    firstRound := some (x.firstRound.getD r) }
  (s.finalRnd ctx r).discardStale ctx r m

end Sys2Proof.Machine
end

