-- ==== Sys2Proof/Machine/Ckpt.lean ====
section
/-! DEFINITION. The checkpoint image and its logical point (R309, R310, Table 8-8). -/

namespace Sys2Proof.Machine

-- # The checkpoint image (Table 8-8, R310)

/-- The planes of a record: the present ones but GRAD and GEXP, in ascending number. -/
def Shard.savedPlanes (x : Shard) : List Nat := ([0, 1, 4, 5, 6, 7, 8, 9, 10, 11, 12]).filter x.has

/-- Bytes padded with zeros to a multiple of 4 KiB. -/
def pad4k (bs : List Byte) : List Byte := bs ++ List.replicate (4096 * ceilDiv bs.length 4096 - bs.length) 0

/-- One shard record. -/
def State.shardRecord (s : State) (x : Shard) : List Byte :=
  let entries := (List.range 16).flatMap fun q =>
    leBytes 1 q ++ List.replicate 7 0 ++ leBytes 8 (if x.savedPlanes.contains q then crc64 (s.devRead (x.planeAddr q) (x.planeSize q)) else 0)
  s.devRead x.addr 64 ++ entries ++ x.savedPlanes.flatMap fun q => pad4k (s.devRead (x.planeAddr q) (x.planeSize q))

/-- The owned shards in ascending number. -/
def State.ownedShards (s : State) (ctx : Nat) : List Shard :=
  ((((s.shards ctx).filter s.owns).foldl (fun l x => insertNum (x.num, x) l) []).map (·.2))

/-- A section with its CRC-64. -/
def withCrc64 (bs : List Byte) : List Byte := bs ++ leBytes 8 (crc64 bs)

/-- The base of a context's schedule table. -/
def State.crozBase (s : State) (ctx : Nat) : Nat := s.stagedFld F.UPD_CROZ_BASE_ADDR ctx .base * 64

/-- The tracked tensors of a context. -/
def State.trackedAll (s : State) (ctx : Nat) : List Nat :=
  (List.range (s.fld F.NUM_TENSOR_COUNT_COUNT ctx)).filter (s.tracked ctx)

/-- The SCALE section: the descriptors, then the scale entries of the tracked tensors. -/
def State.scaleSection (s : State) (ctx : Nat) : List Byte :=
  withCrc64 (s.devRead (s.descAddr ctx 0) (192 * s.fld F.NUM_TENSOR_COUNT_COUNT ctx) ++
    (s.trackedAll ctx).flatMap fun t => s.devRead (s.desc ctx t 16 8) (32 * s.blocks ctx t))

/-- The value of XCH_CFG: what class EXCHANGE has adopted, with EN and ERR as they stand (R451). -/
def State.xchCfgWord (s : State) (ctx : Nat) : Word :=
  F.XCH_CFG_EN.put (F.XCH_CFG_ERR.put (s.staged .XCH_CFG ctx .exchange 0) (s.fld F.XCH_CFG_ERR ctx)) (s.fld F.XCH_CFG_EN ctx)

/-- The OUTER section (Table 12-4). -/
def State.outerSection (s : State) (ctx : Nat) : List Byte :=
  withCrc64 (leBytes 4 (s.fld F.XCH_ROUND_LAST_FORMED ctx) ++ leBytes 4 (s.fld F.XCH_ROUND_LAST_APPLIED ctx) ++
    leBytes 4 (s.fld F.XCH_STATE_EPOCH ctx) ++ leBytes 1 (s.fld F.XCH_STATE_TOKEN_SITE ctx) ++ leBytes 1 (s.xmode ctx) ++ leBytes 2 0 ++
    leBytes 4 (s.fld F.XCH_STATE_PROV_ROUNDS ctx) ++ leBytes 8 (s.xchCfgWord ctx).toNat ++
    leBytes 8 (s.staged .XCH_STALE ctx .exchange 0).toNat ++ leBytes 8 (s.staged .XCH_OUTER ctx .exchange 0).toNat ++ List.replicate 12 0)

/-- The sections of a context's image, by type. -/
def State.imageParts (s : State) (ctx : Nat) : List (Nat × List Byte) :=
  [(1, (s.ownedShards ctx).flatMap s.shardRecord), (2, withCrc64 (s.devRead (s.crozBase ctx) 1088))] ++
    (if s.fld F.NUM_TENSOR_COUNT_COUNT ctx = 0 then [] else [(3, s.scaleSection ctx)]) ++
    (if s.flag F.XCH_CFG_EN ctx then [(4, s.outerSection ctx)] else [])

/-- The SECTIONS table; sections stand one after another. -/
def partTable : Nat → Nat → List (Nat × List Byte) → List Byte
  | 0, _, _ => []
  | n + 1, _, [] => List.replicate 16 0 ++ partTable n 0 []
  | n + 1, off, x :: rest => leBytes 8 off ++ leBytes 6 x.2.length ++ leBytes 2 x.1 ++ partTable n (off + x.2.length) rest

/-- The image of a context (R310). -/
def State.checkpointImage (s : State) (ctx : Nat) : List Byte :=
  let parts := s.imageParts ctx
  let has (t : Nat) : Bool := parts.any fun p => p.1 == t
  let total := 128 + (parts.map fun p => p.2.length).foldl (· + ·) 0
  let head := leBytes 4 0x4B345843 ++ leBytes 2 1 ++ leBytes 2 (b2n (has 3) + 2 * b2n (has 4)) ++ leBytes 8 (s.fld F.EXC_STEP_INDEX_STEP ctx) ++
    leBytes 8 (s.fld F.NUM_JOB_SEED_SEED ctx) ++ leBytes 8 (s.fld F.UPD_CROZ_T_T ctx) ++ leBytes 4 (s.fld F.UPD_CROZ_P_P1 ctx) ++
    leBytes 4 (s.fld F.UPD_CROZ_P_P2 ctx) ++ leBytes 2 s.deviceId ++ leBytes 1 ctx ++ leBytes 1 0 ++
    leBytes 4 (s.ownedShards ctx).length ++ leBytes 8 total ++ partTable 4 128 parts
  withCrc64 head ++ parts.flatMap (·.2)

-- # Checkpoints (R309, R310)

/-- A checkpoint or a restore is in progress. -/
def State.ckptBusy (s : State) (ctx : Nat) : Bool :=
  let st := s.fld F.UPD_CKPT_STATUS_STATE ctx
  st == 1 || st == 2 || st == 5

/-- The image's bytes round up to so many MiB. -/
def mibOf (n : Nat) : Nat := ceilDiv n 1048576

/-- The engines that are idle take a checkpoint's copy, or a restore, of shards: one of each stack that holds blocks of them (log 36). -/
def State.startCopies (s : State) (ctx : Nat) (kind : PassKind) (l : List Shard) : State :=
  s.each (List.range 12) fun st s =>
    match l.find? fun x => (s.stacksOf x).contains st, s.freeEngine st with
    | some x, some k => s.startPass k ctx x kind
    | _, _ => s

/-- The engines of a checkpoint's copy, or of a restore, are free for others. -/
def State.endCopies (s : State) (ctx : Nat) (kind : PassKind) : State :=
  (s.each (s.engines.filter fun e => e.2.ctx == ctx && e.2.kind == kind) fun e s => s.endPass e.1).startIntakes

/-- What a checkpoint's image is made of is read: the planes, the schedule table, the descriptors and the scale entries. -/
def State.readForImage (s : State) (ctx : Nat) : State :=
  let s := s.each (s.ownedShards ctx) fun x s => (s.checkPlanes ctx x (passPlanes .copy)).touch x.addr 64
  let s := (s.touch (s.crozBase ctx) 1088).touch (s.descAddr ctx 0) (192 * s.fld F.NUM_TENSOR_COUNT_COUNT ctx)
  s.each (s.trackedAll ctx) fun t s => s.touch (s.desc ctx t 16 8) (32 * s.blocks ctx t)

/-- A checkpoint's logical point: the image of the state as it stands is to be written (R309, R310). -/
def State.ckptPoint (s : State) (ctx : Nat) : State :=
  let s := s.readForImage ctx
  { (s.setFld F.UPD_CKPT_STATUS_STATE ctx 2).setFld F.UPD_CKPT_STATUS_REASON ctx 0 with
    ckptDue := ctx :: s.ckptDue
    ckptImages := NMap.set s.ckptImages ctx (s.checkpointImage ctx) }.startCopies ctx .copy (s.ownedShards ctx)

/-- A checkpoint or a restore in progress fails with a reason. -/
def State.failCkpt (s : State) (ctx why : Nat) : State :=
  if s.ckptBusy ctx then
    let restores := s.fld F.UPD_CKPT_STATUS_STATE ctx == 5
    let s := (s.endCopies ctx .copy).endCopies ctx .restore
    let s := { s with ckptDue := s.ckptDue.filter (· != ctx), ckptImages := NMap.erase s.ckptImages ctx }
    let s := (s.setFld F.UPD_CKPT_STATUS_STATE ctx (if restores then 7 else 4)).setFld F.UPD_CKPT_STATUS_REASON ctx why
    let s := (s.setFld F.UPD_CKPT_CTL_GO ctx 0).setFld F.UPD_CKPT_CTL_RESTORE ctx 0
    s.raise (.context ctx) (if restores then 0x0608 else 0x0606) 2 0 why
  else s

end Sys2Proof.Machine
end

