-- ==== Sys2Proof/Machine/Matrix.lean ====
section
/-! DEFINITION. The matrix slot (Tables 3-6 to 3-9): products in groups and replicas (R111 to R115, R184 to R192), invalid
operations (R199 to R202), runs of maximum and minimum (R203 to R206), split operands (R207 to R209), accumulators as tiles
(R210 to R213), and heritage arithmetic (R241). -/

namespace Sys2Proof.Machine

-- # Operands in the tile store (R111, R219, R220)

/-- An operand of the array as it lies in the tile store: its byte offset, format, stored rows, row length, pitch in elements,
and whether K runs along the stored rows. -/
structure Matrix where
  off   : Nat
  fmt   : Nat
  rows  : Nat
  len   : Nat
  pitch : Nat
  alongK : Bool

/-- A pitch field: zero is dense. -/
def pitchOf (stride len : Nat) : Nat := if stride = 0 then len else stride

/-- Operand A: M rows of K elements, or K rows of M (R111). -/
def matrixA (o : MmaOps) (off m k stride : Nat) : Matrix :=
  if o.ta then ⟨off, o.fmta, k, m, pitchOf stride m, false⟩ else ⟨off, o.fmta, m, k, pitchOf stride k, true⟩

/-- Operand B: K rows of N elements, or N rows of K (R111). -/
def matrixB (o : MmaOps) (off n k stride : Nat) : Matrix :=
  if o.tb then ⟨off, o.fmtb, n, k, pitchOf stride k, true⟩ else ⟨off, o.fmtb, k, n, pitchOf stride n, false⟩

/-- The bytes up to the last one that holds element bits. A stride is the stored row length (R111), so the stream of an MX operand holds
all of its last row too (R220). -/
def Matrix.elemBytes (x : Matrix) : Nat :=
  ceilDiv ((if isMx x.fmt then x.rows * x.pitch else (x.rows - 1) * x.pitch + x.len) * fmtBits x.fmt) 8

/-- How many scale bytes follow (R220). -/
def Matrix.scaleBytes (x : Matrix) : Nat :=
  if isMx x.fmt then (if x.alongK then x.rows * ceilDiv x.pitch 32 else ceilDiv x.rows 32 * x.pitch) else 0

/-- All the bytes of an operand. -/
def Matrix.bytes (x : Matrix) : Nat := x.elemBytes + x.scaleBytes

/-- The first byte of an operand outside the backed store (R123): in the first row that ends outside, or among the scales. -/
def Matrix.hole (x : Matrix) (t : Nat) : Option Nat :=
  let w := fmtBits x.fmt
  let row (r : Nat) : Option Nat :=
    let a := r * x.pitch * w / 8
    storeHole t (x.off + a) (ceilDiv ((r * x.pitch + x.len) * w) 8 - a)
  match (List.range x.rows).findSome? row with
  | some a => some a
  | none => storeHole t (x.off + x.elemBytes) x.scaleBytes

/-- So many bits of a tile's store from a bit place. -/
def State.storeBits (s : State) (t off bit w : Nat) : Nat :=
  leNat (s.storeRead t (off + bit / 8) 5) / 2 ^ (bit % 8) % 2 ^ w

/-- The value of an element of an operand, its scale included. -/
def State.element (s : State) (t : Nat) (x : Matrix) (r c : Nat) : Num :=
  let w := fmtBits x.fmt
  let b := s.storeBits t x.off ((r * x.pitch + c) * w) w
  if isMx x.fmt then
    let i := if x.alongK then r * ceilDiv x.pitch 32 + c / 32 else r / 32 * x.pitch + c
    mxValue x.fmt b (s.storeBits t (x.off + x.elemBytes + i) 0 8)
  else if x.fmt = 0xD ∨ x.fmt = 0xE then fp32.decode b
  else elemValue x.fmt b

/-- The element at a place along the output (row of A, column of B) and k. -/
def State.operand (s : State) (t : Nat) (x : Matrix) (i k : Nat) : Num :=
  if x.alongK then s.element t x i k else s.element t x k i

-- # Products (R184, R207 to R209)

/-- The piece products of two significands of 24 bits (R208): three pieces, or the upper two. -/
def splitProduct (three : Bool) (m n : Nat) : Nat :=
  let m1 := 65536 * (m / 65536)
  let m2 := m / 256 % 256 * 256
  let m3 := m % 256
  let n1 := 65536 * (n / 65536)
  let n2 := n / 256 % 256 * 256
  let n3 := n % 256
  if three then m1 * n1 + m1 * n2 + m2 * n1 + m1 * n3 + m2 * n2 + m3 * n1
  else m1 * n1 + m1 * n2 + m2 * n1 + m2 * n2

/-- A product, and whether it raises invalid by itself: a signalling operand, or zero times infinity (R199). -/
def product (fmt : Nat) (a b : Num) : Num × Bool :=
  match a, b with
  | .fin s m e, .fin t n f =>
    if fmt = 0xD then (.fin (s != t) (splitProduct true m n) (e + f), false)
    else if fmt = 0xE then (.fin (s != t) (splitProduct false m n) (e + f), false)
    else a.mul b
  | _, _ => a.mul b

/-- The products of a group so far: their exact finite sum, the sign of the first infinity, whether both signs or a NaN came,
and the first k that raised invalid. -/
structure GroupSum where
  sum : Option Num
  inf : Option Bool
  nan : Bool
  bad : Option Nat

/-- Take one product into a group (R185, R186, R200). -/
def GroupSum.take (g : GroupSum) (k : Nat) (p : Num × Bool) : GroupSum :=
  let bad := if p.2 then g.bad.orElse fun _ => some k else g.bad
  match p.1 with
  | .nan _ => { g with nan := true, bad := bad }
  | .inf s =>
    match g.inf with
    | none => { g with inf := some s, bad := bad }
    | some t => if s = t then { g with bad := bad } else { g with nan := true, bad := bad.orElse fun _ => some k }
  | x => { g with sum := some (match g.sum with | none => x | some y => (y.add x).1), bad := bad }

/-- The sum of a group (R186). -/
def GroupSum.value (g : GroupSum) : Num :=
  if g.nan then .nan false
  else match g.inf with
    | some s => .inf s
    | none => g.sum.getD (.fin false 0 0)

/-- The sum of the products of k from `lo`, `n` of them. -/
def groupSum (p : Nat → Num × Bool) (lo n : Nat) : GroupSum :=
  (List.range n).foldl (fun g i => g.take (lo + i) (p (lo + i))) ⟨none, none, false, none⟩

/-- round_fp32(p + s), and whether opposite infinities met (R187). -/
def combine (p : Nat) (x : Num) : Nat × Bool :=
  let y := fp32.decode p
  let r := (y.add x).1
  (fp32.encode .nearest r, r.isNan && y.isInf && x.isInf)

/-- The smaller of two k indices that raised invalid. -/
def firstBad : Option Nat → Option Nat → Option Nat
  | none, b => b
  | a, none => a
  | some a, some b => some (min a b)

/-- Group size of a format (Table 5-2). -/
def groupSize (fmt : Nat) : Nat :=
  match fmt with
  | 1 => 16
  | 2 => 16
  | 0xD => 8
  | 0xE => 8
  | _ => 32

/-- One replica: its groups in ascending order over its starting value (R191). -/
def replica (p : Nat → Num × Bool) (k size count start r : Nat) : Nat × Option Nat :=
  (List.range (ceilDiv k size)).foldl (fun acc g =>
    if g % count = r then
      let lo := g * size
      let gs := groupSum p lo (min size (k - lo))
      let q := combine acc.1 gs.value
      (q.1, firstBad acc.2 (firstBad gs.bad (if q.2 then some lo else none)))
    else acc) (start, none)

/-- The tree over the replicas (R191): `stride` halves until it is zero. -/
def replicaTree (size : Nat) : Nat → Nat → List (Nat × Option Nat) → Nat × Option Nat
  | 0, _, l => l.headD (0, none)
  | n + 1, stride, l =>
    let next := (List.range stride).map fun r =>
      let a := l.getD r (0, none)
      let b := l.getD (r + stride) (0, none)
      let q := combine a.1 (fp32.decode b.1)
      (q.1, firstBad (firstBad a.2 b.2) (if q.2 then some ((r + stride) * size) else none))
    replicaTree size n (stride / 2) next

/-- The new value of a cell (R191), and the least k that raised invalid in it. -/
def mmaCell (p : Nat → Num × Bool) (k size count cin : Nat) : Nat × Option Nat :=
  replicaTree size (Nat.log2 count) (count / 2)
    ((List.range count).map fun r => replica p k size count (if r = 0 then cin else 0) r)

/-- The whole part of a value at exponent 0 (an INT8 product). -/
def Num.toInt (x : Num) : Int := x.at 0

/-- The new value of an INT8 product's cell (R189, R191). -/
def mmaCellInt (p : Nat → Num × Bool) (k cin : Nat) : Nat :=
  unsignedOf 32 ((cin : Int) + (List.range k).foldl (fun z i => z + (p i).1.toInt) 0)

/-- A value rounded to FP32, flushed in heritage mode. -/
def toFp32 (her : Bool) (x : Num) : Nat := flushed her fp32 (fp32.encode .nearest x)

/-- The new value of a cell in heritage mode: each product rounded, then added with one rounding, in ascending k (R241). -/
def mmaCellHer (p : Nat → Num × Bool) (k cin : Nat) : Nat × Option Nat :=
  (List.range k).foldl (fun acc i =>
    let q := combine (flushed true fp32 acc.1) (fp32.decode (toFp32 true (p i).1))
    (flushed true fp32 q.1, firstBad acc.2 (if (p i).2 || q.2 then some i else none))) (cin, none)

-- # The checks of an instruction

/-- Rows or columns of a shape field (Table 3-7); the code 3 is reserved. -/
def shapeOf (c : Fin 4) : Nat := 16 * 2 ^ c.val

/-- The format pair is one of Table 3-8. -/
def pairOk (a b : Nat) : Bool :=
  ((a == 3 || a == 4) && (b == 3 || b == 4)) ||
    (decide (5 ≤ a) && decide (a ≤ 8) && decide (5 ≤ b) && decide (b ≤ 8)) ||
    (a == b && (a == 0xA || a == 0xB || a == 1 || a == 2 || a == 9 || a == 0xD || a == 0xE))

/-- The format pair is one of heritage mode (R241). -/
def herPair (a b : Nat) : Bool :=
  ((a == 3 || a == 4) && (b == 3 || b == 4)) || (a == b && (a == 0xB || a == 1 || a == 2))

/-- The static fields of MMA, MMAX and MMIN are well formed (R112, R113, R133, R241). -/
def mmaFields (her : Bool) (o : MmaOps) : Bool :=
  o.msh.val != 3 && o.nsh.val != 3 && pairOk o.fmta o.fmtb && (!her || herPair o.fmta o.fmtb)
    && !((o.fmta.val == 9 || o.fmtb.val == 9) && (o.ta || o.tb))

/-- A tile-store range that an operation reads: where it is not backed, or locked by a transfer in flight (R107, R123). -/
def State.readCheck (s : State) (c : SlotCtx) (hole : Option Nat) (off n : Nat) (ok : SlotRes) : SlotRes :=
  match hole with
  | some a => .unbacked a
  | none => if s.rangeLocked c.t off n then .stall else ok

/-- A tile-store range that an operation writes (R107, R123, R246). -/
def State.writeCheck (s : State) (c : SlotCtx) (off n : Nat) (ok : SlotRes) : SlotRes :=
  match storeHole c.t off n with
  | some a => .unbacked a
  | none => if s.rangeLocked c.t off n || c.x.readLocked off n then .stall else ok

/-- The operands of a matrix instruction that has passed its static checks. -/
structure MmaRun where
  m : Nat
  n : Nat
  k : Nat
  a : Matrix
  b : Matrix

/-- Take the operands from the scalar registers. -/
def SlotCtx.mmaRun (c : SlotCtx) (o : MmaOps) : MmaRun :=
  let sk := (c.src.sreg o.sk).toNat
  let m := shapeOf o.msh
  let n := shapeOf o.nsh
  let k := sk % 2 ^ 32
  ⟨m, n, k, matrixA o (c.src.sreg o.sa).toNat m k (sk / 2 ^ 32), matrixB o (c.src.sreg o.sb).toNat n k (sk / 2 ^ 32)⟩

/-- The product at (i, j, k): exact, or of operands flushed in heritage mode. -/
def State.productAt (s : State) (c : SlotCtx) (r : MmaRun) (i j k : Nat) : Num × Bool :=
  let get (x : Matrix) (p : Nat) : Num :=
    let v := s.operand c.t x p k
    if c.her && decide (x.fmt = 1 ∨ x.fmt = 2) then
      let f := if x.fmt = 1 then bf16 else fp16
      match v with
      | .fin g m e => if m < 2 ^ f.fb then .fin g 0 e else v
      | y => y
    else v
  product r.a.fmt (get r.a i) (get r.b j)

/-- The least of the offending triples in the order (k, row, column) (R201). -/
def leastTriple (l : List (Nat × Nat × Nat)) : Option (Nat × Nat × Nat) :=
  l.foldl (fun acc x =>
    match acc with
    | none => some x
    | some y => if x.1 < y.1 ∨ (x.1 = y.1 ∧ (x.2.1 < y.2.1 ∨ (x.2.1 = y.2.1 ∧ x.2.2 < y.2.2))) then some x else acc) none

/-- The exception entry of a matrix instruction. -/
def SlotCtx.matrixEntry (c : SlotCtx) (acc : Bool) (opcode : Nat) (bad : List (Nat × Nat × Nat)) : Option NumEntry :=
  (leastTriple bad).map fun p => ⟨1, 0, c.her, b2n acc, opcode, c.t, c.x.bundle, p.2.1, p.2.2, p.1, 0⟩

/-- Run a matrix instruction whose checks have passed, over every cell of its block. -/
def State.mmaBody (s : State) (c : SlotCtx) (o : MmaOps) (ok : MmaRun → SlotRes) (wide : Bool) : SlotRes :=
  let r := c.mmaRun o
  if r.k = 0 ∨ 65536 < r.k then .decode
  else
    match r.a.hole c.t with
    | some x => .unbacked x
    | none => s.readCheck c (r.b.hole c.t) r.b.off r.b.bytes
        (if s.rangeLocked c.t r.a.off r.a.bytes then .stall
         else if c.x.setBusy o.acc || (wide && c.x.setBusy (!o.acc)) then .busy else ok r)

/-- All the places of a block with what a cell came to. -/
def blockBad (m n : Nat) (f : Nat → Nat → Option Nat) : List (Nat × Nat × Nat) :=
  (List.range m).flatMap fun i => (List.range n).filterMap fun j => (f i j).map fun k => (k, i, j)

/-- The cells of an MMA's block and the k that raised invalid in each. -/
def State.mmaCells (s : State) (c : SlotCtx) (o : MmaOps) (r : MmaRun) (i j : Nat) : Nat × Option Nat :=
  let p (k : Nat) := s.productAt c r i j k
  let cin := if o.z then 0 else c.src.cell o.acc i j
  if o.fmta.val = 0xB then (mmaCellInt p r.k cin, none)
  else if c.her then mmaCellHer p r.k cin
  else mmaCell p r.k (groupSize o.fmta) (4096 / (r.m * r.n)) cin

/-- MMA (R111, R191, R199 to R202, R241). -/
def execMma (h : SlotHdr) (o : MmaOps) (s : State) : Answer :=
  s.runSlot h (h.slot == .m) fun c =>
    if !mmaFields c.her o then .decode
    else if !c.on then c.off [keyA o.acc]
    else s.mmaBody c o (fun r =>
      let cells := (List.range r.m).map fun i => (List.range r.n).map fun j => s.mmaCells c o r i j
      let at' (i j : Nat) : Nat × Option Nat := (cells.getD i []).getD j (0, none)
      let core := c.x.core.setBlock o.acc r.m r.n fun i j => (at' i j).1
      let entry := c.matrixEntry o.acc 0x01 (blockBad r.m r.n fun i j => (at' i j).2)
      .write { c.x with core := core, run := none } [keyA o.acc] [.mflight ⟨[o.acc], entry⟩]) false

-- # Maximum and minimum (R203 to R206)

/-- A winner: its cell bits, its index, and whether there is one yet. -/
structure Winner where
  bits  : Nat
  index : Nat
  set   : Bool
deriving DecidableEq, Repr

/-- A candidate takes the place of the winner so far (R205). -/
def beats (isMax int : Bool) (cand cur : Nat) : Bool :=
  if int then
    let a := signedOf 32 cand
    let b := signedOf 32 cur
    if isMax then decide (b < a) else decide (a < b)
  else
    let a := fp32.decode cand
    let b := fp32.decode cur
    if cur == 0x7FC00000 || b.isNan then false
    else if a.isNan then true
    else if isMax then a.above b else b.above a

/-- The winner over the products of a cell, in ascending k, over the run so far. -/
def winnerOf (isMax int her : Bool) (p : Nat → Num × Bool) (k before : Nat) (w : Winner) : Winner × Option Nat :=
  (List.range k).foldl (fun acc i =>
    let x := p i
    let bits := if int then unsignedOf 32 x.1.toInt else toFp32 her x.1
    let w := acc.1
    let w' : Winner := if !w.set || beats isMax int bits w.bits then ⟨bits, min 0x7FFFFFFF (before + i), true⟩ else w
    (w', firstBad acc.2 (if x.2 && !int then some (before + i) else none))) (w, none)

/-- MMAX and MMIN: the winning value in set ACC, its index in the other set (R115, R203 to R206). -/
def maxOp (isMax : Bool) (opcode : Nat) (h : SlotHdr) (o : MmaOps) (s : State) : Answer :=
  s.runSlot h (h.slot == .m) fun c =>
    if !mmaFields c.her o || o.z || c.x.body.isSome then .decode
    else if !c.on then c.off [keyA o.acc, keyA (!o.acc)]
    else s.mmaBody c o (fun r =>
      let int := o.fmta.val == 0xB
      let going : Option MaxRun := c.x.run.filter fun u => u.isMax == isMax && u.acc == o.acc && u.msh == o.msh.val && u.nsh == o.nsh.val
      let before := match going with | some u => u.ksum | none => 0
      let cells := (List.range r.m).map fun i => (List.range r.n).map fun j =>
        winnerOf isMax int c.her (s.productAt c r i j) r.k before
          ⟨c.src.cell o.acc i j, c.src.cell (!o.acc) i j, going.isSome⟩
      let at' (i j : Nat) : Winner × Option Nat := (cells.getD i []).getD j (⟨0, 0, false⟩, none)
      let core := c.x.core.setBlock o.acc r.m r.n fun i j => (at' i j).1.bits
      let core := core.setBlock (!o.acc) r.m r.n fun i j => (at' i j).1.index
      let entry := c.matrixEntry o.acc opcode (blockBad r.m r.n fun i j => (at' i j).2)
      .write { c.x with core := core, run := some ⟨isMax, o.acc, o.msh, o.nsh, before + r.k⟩ } [keyA o.acc, keyA (!o.acc)]
        [.mflight ⟨[o.acc, !o.acc], entry⟩]) true

/-- MMAX (R205). -/
def execMmax (h : SlotHdr) (o : MmaOps) (s : State) : Answer := maxOp true 0x02 h o s
/-- MMIN (R205). -/
def execMmin (h : SlotHdr) (o : MmaOps) (s : State) : Answer := maxOp false 0x03 h o s

/-- A product of the tile completes: the flight on the named set ends (R202). -/
def execMatrixOpComplete (tile : Fin 512) (acc : Bool) (s : State) : Answer :=
  let x := s.tile tile
  match x.flights.find? fun f => f.sets.head? == some acc with
  | none => .next s
  | some f => .next ((s.setTile tile { x with flights := x.flights.erase f }).flightDone tile f)

-- # Accumulators as tiles (R210 to R213)

/-- ACLR (R212). -/
def execAclr (h : SlotHdr) (acc : Bool) (s : State) : Answer :=
  s.runSlot h (h.slot == .m) fun c =>
    if !c.on then c.off [keyA acc]
    else if c.x.setBusy acc then .busy
    else
      let core := { c.x.core with cells := c.x.core.cells.filter fun p => p.1 / 4096 != b2n acc }
      .write { c.x with core := core, run := none } [keyA acc] [.clearInv acc]

/-- The bytes of a block of a set, row by row (R210). -/
def TileCore.blockBytes (c : TileCore) (set : Bool) (m n : Nat) : List Byte :=
  (List.range (m * n)).flatMap fun k => leBytes 4 (c.cell set (k / n) (k % n))

/-- ACST stores a block unchanged (R210). -/
def execAcst (h : SlotHdr) (o : AccOps) (s : State) : Answer :=
  s.runSlot h (h.slot == .m) fun c =>
    if o.msh.val = 3 ∨ o.nsh.val = 3 then .decode
    else if !c.on then .skip
    else
      let off := (c.src.sreg o.sa).toNat
      let m := shapeOf o.msh
      let n := shapeOf o.nsh
      if off % 4 ≠ 0 then .decode
      else s.writeCheck c off (4 * m * n)
        (if c.x.setBusy o.acc then .busy
         else .write { c.x with run := none } [] [.store off (c.src.blockBytes o.acc m n)])

/-- ACLD loads a block unchanged (R210). -/
def execAcld (h : SlotHdr) (o : AccOps) (s : State) : Answer :=
  s.runSlot h (h.slot == .m) fun c =>
    if o.msh.val = 3 ∨ o.nsh.val = 3 then .decode
    else if !c.on then c.off [keyA o.acc]
    else
      let off := (c.src.sreg o.sa).toNat
      let m := shapeOf o.msh
      let n := shapeOf o.nsh
      if off % 4 ≠ 0 then .decode
      else s.readCheck c (storeHole c.t off (4 * m * n)) off (4 * m * n)
        (if c.x.setBusy o.acc then .busy
         else
          let bs := s.storeRead c.t off (4 * m * n)
          let core := c.x.core.setBlock o.acc m n fun i j => leNat ((bs.drop (4 * (i * n + j))).take 4)
          .write { c.x with core := core, run := none } [keyA o.acc] [])

/-- ACRV copies two rows to a vector register (R211). -/
def execAcrv (h : SlotHdr) (acc : Bool) (vd row : Fin 64) (s : State) : Answer :=
  s.runSlot h (h.slot == .m) fun c =>
    if row.val % 2 = 1 then .decode
    else if !c.on then c.off [keyV vd]
    else if c.x.setBusy acc then .busy
    else
      let v := ofLanes 32 ((List.range 128).map fun i => c.src.cell acc (row + i / 64) (i % 64))
      .write { c.x with core := c.x.core.setV vd v, run := none } [keyV vd] []

/-- VRAC copies a vector register to two rows (R211). -/
def execVrac (h : SlotHdr) (acc : Bool) (va row : Fin 64) (s : State) : Answer :=
  s.runSlot h (h.slot == .m) fun c =>
    if row.val % 2 = 1 then .decode
    else if !c.on then c.off [keyA acc]
    else if c.x.setBusy acc then .busy
    else
      let v := c.src.vreg va
      let core := foldRange 128 (fun i core => core.setCell acc (row + i / 64) (i % 64) (lane v 32 i)) c.x.core
      .write { c.x with core := core, run := none } [keyA acc] []

end Sys2Proof.Machine
end

