-- ==== Sys2Proof/Machine/LoadStore.lean ====
section
/-! DEFINITION. The load and store slot (Tables 3-13 and 3-14): loads and stores of the tile store (R123), transfers to and from
memory with the codec and the stash (R124 to R126, R255 to R259, R361, R362), and their completion (R125, R366 to R371). -/

namespace Sys2Proof.Machine

-- # Loads and stores (R123)

/-- SB + OFF, modulo 2^64: whether the sum wraps or lies outside the store no rule says (DESIGN CHOICE, log 84). -/
def SlotCtx.offset (c : SlotCtx) (sb : Fin 32) (off : BitVec 22) : Nat :=
  (c.src.sreg sb + off.setWidth 64).toNat

/-- VLD loads 512 bytes (R123). -/
def execVld (h : SlotHdr) (vd : Fin 64) (sb : Fin 32) (off : BitVec 22) (s : State) : Answer :=
  s.runSlot h (h.slot == .l) fun c =>
    if !c.on then c.off [keyV vd]
    else
      let a := c.offset sb off
      if a % 64 ≠ 0 then .decode
      else s.readCheck c (storeHole c.t a 512) a 512 (c.putV vd (ofVbytes (s.storeRead c.t a 512)) [])

/-- VST stores 512 bytes (R123). -/
def execVst (h : SlotHdr) (vs : Fin 64) (sb : Fin 32) (off : BitVec 22) (s : State) : Answer :=
  s.runSlot h (h.slot == .l) fun c =>
    if !c.on then .skip
    else
      let a := c.offset sb off
      if a % 64 ≠ 0 then .decode
      else s.writeCheck c a 512 (.write c.x [] [.store a (vbytes (c.src.vreg vs))])

/-- SLD loads 8 bytes (R123). -/
def execSld (h : SlotHdr) (sd sb : Fin 32) (off : BitVec 22) (s : State) : Answer :=
  s.runSlot h (h.slot == .l) fun c =>
    if !c.on then c.off [keyS sd]
    else
      let a := c.offset sb off
      if a % 8 ≠ 0 then .decode
      else s.readCheck c (storeHole c.t a 8) a 8 (c.putS sd (BitVec.ofNat 64 (leNat (s.storeRead c.t a 8))))

/-- SST stores 8 bytes (R123). -/
def execSst (h : SlotHdr) (ss sb : Fin 32) (off : BitVec 22) (s : State) : Answer :=
  s.runSlot h (h.slot == .l) fun c =>
    if !c.on then .skip
    else
      let a := c.offset sb off
      if a % 8 ≠ 0 then .decode
      else s.writeCheck c a 8 (.write c.x [] [.store a (leBytes 8 (c.src.sreg ss).toNat)])

-- # Transfers (R124, R125)

/-- The first problem of a transfer's ranges: outside the grants first, wherever it lies, then unbacked (R61). -/
def State.rangesCheck (s : State) (ctx : Nat) (l : List (Nat × Nat)) : RangeCheck :=
  let cs := l.map fun r => s.checkRange ctx r.1 r.2
  if cs.contains .noPermission then .noPermission
  else (cs.find? fun c => match c with | .unbacked _ => true | _ => false).getD .fine

/-- The transfers and collectives a tile has in flight (R107). -/
def State.inFlight (s : State) (t : Nat) : Nat :=
  (s.tileTransfers t).length + s.colls.countP fun x => x.tile == t

/-- A transfer writes the tile's own store inside a range that a descriptor locks against the main stream (R246): its tile-store range where
it reads memory, its memory range in the tile's own window where it writes. -/
def SlotCtx.writesLocked (c : SlotCtx) (x : Transfer) : Bool :=
  if x.toMem then x.ranges.any fun r => decide (storeAddr c.t 0 ≤ r.1) && c.x.readLocked (r.1 - storeAddr c.t 0) r.2
  else c.x.readLocked x.toff x.bytes

/-- Start a transfer whose fields are decoded (R107, R123 to R126, R257, R361). What a stash transfer comes to is judged when its bundle
passes, in the order in which it is counted (R126, R258). -/
def State.startTransfer (s : State) (c : SlotCtx) (x : Transfer) : SlotRes :=
  if x.comp && (s.addrKind x.maddr == .store || decide (storeBase ≤ x.maddr ∧ x.maddr < storeBase + 512 * 0x400000)) then .decode
  else
    match s.rangesCheck x.ctx x.ranges with
    | .noPermission => .fault St.noPermission 3
    | .unbacked a => .unbacked a
    | .fine =>
      match storeHole c.t x.toff x.bytes with
      | some a => .unbacked a
      | none =>
        if 32 ≤ s.inFlight c.t || c.writesLocked x then .stall
        else .write c.x [] [if x.stash then .stash x else .dma x]

/-- The fields of a transfer that DMA and DMA2 share. -/
def SlotCtx.transfer (c : SlotCtx) (o : DmaOps) (rowLen rows stride : Nat) : Transfer :=
  ⟨0, c.t, c.l.ctx, c.l.queue, c.l.cmd, o.dir, o.cmp, o.hint, o.stash, (c.src.sreg o.st).toNat, (c.src.sreg o.sm).toNat,
    rowLen, rows, stride, (c.src.sreg o.sv).toNat % 65536, c.x.bundle⟩

/-- DMA: one dimension (Table 3-14). -/
def execDma (h : SlotHdr) (o : DmaOps) (s : State) : Answer :=
  s.runSlot h (h.slot == .l) fun c =>
    if o.stash && !o.dir then .decode
    else if !c.on then .skip
    else
      let n := (c.src.sreg o.sl).toNat
      let x := c.transfer o n 1 0
      if n = 0 ∨ n % 64 ≠ 0 ∨ 0x280000 < n ∨ x.toff % 64 ≠ 0 ∨ x.maddr % 64 ≠ 0 then .decode
      else s.startTransfer c x

/-- DMA2: rows at a stride on the memory side, dense in the tile store (R124); with CMP it is a decode fault (R361). -/
def execDma2 (h : SlotHdr) (o : DmaOps) (s : State) : Answer :=
  s.runSlot h (h.slot == .l) fun c =>
    if (o.stash && !o.dir) || o.cmp || o.sl.val % 2 == 1 then .decode
    else if !c.on then .skip
    else
      let v := (c.src.sreg o.sl).toNat
      let x := c.transfer o (v % 2 ^ 32) (v / 2 ^ 32 % 2 ^ 20) (c.src.sreg (o.sl + 1)).toNat
      if x.rowLen = 0 ∨ x.rows = 0 ∨ x.toff % 64 ≠ 0 ∨ x.maddr % 64 ≠ 0 then .decode
      else s.startTransfer c x

-- # Completion

/-- A launch takes a fault from one of its transfers (R134). -/
def State.transferFault (s : State) (x : Transfer) (status detail : Nat) : State :=
  s.launchFault x.queue x.cmd status detail x.tile x.bundle

/-- The sum of two counts in MiB, for EXC_CMP_STAT (R373). -/
def State.countCmp (s : State) (ctx plain stored : Nat) : State :=
  let p := NMap.getD s.plain ctx 0 + plain
  let t := NMap.getD s.stored ctx 0 + stored
  let s := { s with plain := NMap.set s.plain ctx p, stored := NMap.set s.stored ctx t }
  let s := s.setFld F.EXC_CMP_STAT_PLAIN_MIB ctx (p / 2 ^ 20)
  s.setFld F.EXC_CMP_STAT_STREAM_MIB ctx (t / 2 ^ 20)

/-- Count an INTEGRITY failure of a context, and record the first (R371, R373). -/
def State.integrity (s : State) (ctx path kind source block addr : Nat) : State :=
  let s := s.bumpFld F.EXC_INT_CNT_DAMAGED ctx 1
  s.when (!s.flag F.EXC_INT_REC_VALID ctx) fun s =>
    let s := s.setFld F.EXC_INT_REC_VALID ctx 1
    let s := s.setFld F.EXC_INT_REC_PATH ctx path
    let s := s.setFld F.EXC_INT_REC_KIND ctx kind
    let s := s.setFld F.EXC_INT_REC_SOURCE ctx source
    let s := s.setFld F.EXC_INT_REC_BLOCK ctx block
    s.setFld F.EXC_INT_ADDR_ADDR ctx addr

/-- How a decoding transfer ends: all its bytes, or at the block where it failed with the status, detail, kind and address. -/
structure StreamEnd where
  plain  : List Byte
  stored : Nat
  fail   : Option (Nat × Nat × Nat × Nat)
deriving DecidableEq, Repr

/-- Decode the stream of a transfer from memory, block by block; a block that fails has been read a second time (R366 to
R370). -/
def State.decodeStream (s : State) (x : Transfer) : Nat → Nat → Nat → List Byte → StreamEnd
  | 0, _, a, acc => ⟨acc, a - x.maddr, none⟩
  | n + 1, b, a, acc =>
    let room := x.maddr + streamBound x.bytes - a
    let nb := plainLen x.bytes b
    match decodeBlock (s.devRead a (min room 4160)) nb with
    | .plain p stored =>
      match s.poisonedWords a stored with
      | w :: _ => ⟨acc, a - x.maddr, some (St.memUncorrectable, (s.place w).1, 0, a)⟩
      | [] => s.decodeStream x n (b + 1) (a + stored) (acc ++ p)
    | .damaged k =>
      match s.poisonedWords a (min room (blockExtent (s.devRead a (min room 4160)))) with
      | w :: _ => ⟨acc, a - x.maddr, some (St.memUncorrectable, (s.place w).1, 0, a)⟩
      | [] => ⟨acc, a - x.maddr, some (St.integrity, b, k, a)⟩

/-- The stream of a transfer is read through the symbol code, as far as it goes or as a block of it fails (R333, R361). -/
def State.readStream (s : State) (x : Transfer) : State :=
  let r := s.decodeStream x (ceilDiv x.bytes blockSize) 0 x.maddr []
  s.decodeRange x.maddr (if r.fail.isSome then min (streamBound x.bytes) (r.stored + 4160) else r.stored)

/-- Move the bytes of a transfer that reads memory; the answer says whether it completed. A block that fails after an abort has been asked of the
launch is not reported (R370). -/
def State.moveIn (s : State) (x : Transfer) : State × Bool :=
  if x.comp then
    let s := s.readStream x
    let r := s.decodeStream x (ceilDiv x.bytes blockSize) 0 x.maddr []
    let s := ((s.storeWrite x.tile x.toff r.plain).countCmp x.ctx r.plain.length r.stored).cacheAccess false x.hint x.maddr r.stored
    match r.fail with
    | none => (s, true)
    | some (st, d, k, a) =>
      if s.stopAsked x.queue x.cmd then (s, false)
      else
        let s := if st = St.integrity then s.integrity x.ctx 0 k x.tile d a
                 else (s.readHinted x.hint 0 (some x.ctx) a (blockExtent (s.devRead a 4160))).1
        (s.transferFault x st d, false)
  else
    let (s', bad) := x.ranges.foldl (fun acc r =>
      let (t, ch) := acc.1.readHinted x.hint 0 (some x.ctx) r.1 r.2
      (t, acc.2.orElse fun _ => ch)) (s, none)
    let s' := s'.storeWrite x.tile x.toff (x.ranges.flatMap fun r => s'.devRead r.1 r.2)
    match bad with
    | some ch => (s'.transferFault x St.memUncorrectable ch, false)
    | none => (s', true)

/-- Move the bytes of a transfer that writes memory (R361); a write to a guarded working copy makes its shard stale (R284). The answer says
whether it completed: a block that fails its self-check ends it there (R360, R370); `faults` are the bits that the codec gets wrong. -/
def State.moveOut (s : State) (x : Transfer) (faults : List (Nat × Nat)) : State × Bool :=
  if x.comp then
    let r := codeStream faults (ceilDiv x.bytes blockSize) 0 (s.storeRead x.tile x.toff x.bytes) []
    let s := ((s.devStore x.hint x.maddr r.bytes).guardWork x.maddr r.bytes.length).countCmp x.ctx r.plain r.bytes.length
    match r.fail with
    | none => (s, true)
    | some (b, k) =>
      if s.stopAsked x.queue x.cmd then (s, false) else ((s.integrity x.ctx 1 k x.tile b 0).transferFault x St.integrity b, false)
  else
    ((x.ranges.zipIdx).foldl (fun s p =>
      (s.devStore x.hint p.1.1 (s.storeRead x.tile (x.toff + p.2 * x.rowLen) x.rowLen)).guardWork p.1.1 p.1.2) s, true)

/-- A transfer may not complete while an earlier transfer of its tile, or the descriptor of an earlier collective, overlaps it: it has not
started (R107, R127). -/
def State.transferReady (s : State) (x : Transfer) : Bool :=
  !((s.transfers.takeWhile fun y => y.id != x.id).any fun y =>
      y.tile == x.tile && x.inStore.any fun a => y.inStore.any fun b => overlap a.1 a.2 b.1 b.2) &&
    !(s.colls.any fun y => y.tile == x.tile && decide (y.id < x.id) && x.inStore.any fun a => overlap a.1 a.2 y.off 64)

/-- What goes wrong in the codewords of a transfer's ranges of memory. -/
def Transfer.met (x : Transfer) (errs : List Mishap) : List Mishap :=
  let span := if x.comp then [(x.maddr, streamBound x.bytes)] else x.ranges
  errs.filter fun e => (mishapAt e).any fun a => span.any fun r => decide (r.1 < a / 32 * 32 + 32) && decide (a / 32 * 32 < r.1 + r.2)

/-- DMA_COMPLETE: the transfer has moved its last byte, and adds 1 to its counter; a failed increment or block ends the launch
(R125, R134, R360, R366 to R371). `errs` is what went wrong on its way (R331, R332, R360). -/
def execDmaComplete (id : Nat) (errs : List Mishap) (s : State) : Answer :=
  match s.transfers.find? fun x => x.id == id with
  | none => .next s
  | some x =>
    if !s.transferReady x then .next s
    else
      let s0 := s.meets (x.met errs)
      let (s', ok) := if x.toMem then s0.moveOut x (errs.filterMap mishapBlock) else s0.moveIn x
      let gone (s : State) : State := { s with transfers := s.transfers.filter fun y => y.id != id }
      if !ok then .next (gone s')
      else
        let s' := (s'.stashRead x).seeMarks x
        match s'.increment x.ctx x.sv 1 ⟨5, x.tile⟩ (.launch x.queue x.cmd x.tile x.bundle) with
        | (_, .stalled) => .next s
        | (t, .failed st d) => .next ((gone t).transferFault x st d)
        | (t, _) => .next (gone t)

/-- BLOCK_REREAD: a block of a decoding transfer has failed on its way from memory; its bytes are read and decoded once more. A
block that passes is counted and used; one that fails again ends the transfer, the blocks before it written (R366, R369,
R370). -/
def execBlockReread (id block : Nat) (s : State) : Answer :=
  match s.transfers.find? fun x => x.id == id with
  | none => .next s
  | some x =>
    if x.toMem || !x.comp || decide (ceilDiv x.bytes blockSize ≤ block) || !s.transferReady x then .next s
    else
      let s := s.readStream x
      let r := s.decodeStream x (block + 1) 0 x.maddr []
      match r.fail with
      | none => .next ((s.cacheAccess false x.hint x.maddr r.stored).bumpFld F.EXC_INT_CNT_REREAD_OK x.ctx 1)
      | some _ =>
        let s' := (s.moveIn x).1
        .next { s' with transfers := s'.transfers.filter fun y => y.id != id }

end Sys2Proof.Machine
end

