-- ==== Sys2Proof/Machine/Collective.lean ====
section
/-! DEFINITION. Collectives (R127, R394 to R405): groups and ranks, descriptors, the fixed order of reduction, and what a
collective leaves on this device. -/

namespace Sys2Proof.Machine

-- # Groups (R394 to R396)

/-- A group record. -/
structure Group where
  addr    : Nat
  flags   : Nat
  px      : Nat
  py      : Nat
  pz      : Nat
  members : List Nat
deriving DecidableEq, Repr

/-- How many members a record has. -/
def Group.size (g : Group) : Nat := g.px * g.py * g.pz

/-- The extents above 1. -/
def Group.wide (g : Group) : List Nat := [g.px, g.py, g.pz].filter fun n => decide (1 < n)

/-- A RING record is a straight line, or folded with one extent of 2 (R396). -/
def Group.ringOk (g : Group) : Bool := g.wide.length == 1 || (g.wide.length == 2 && g.wide.contains 2)

/-- The record of a group of a context by the base and the count in force; none where GROUP is not below COUNT, or the record is wrong (R394). -/
def State.groupBy (s : State) (base count g : Nat) : Option Group :=
  if count ≤ g then none
  else
    let a := s.devNat (base * 8 + 8 * g) 8
    let f (o n : Nat) := s.devNat (a + o) n
    let n := f 12 4
    let r : Group := ⟨a, f 2 1, f 8 1, f 9 1, f 10 1, []⟩
    if n ≠ r.size ∨ 65536 < n then none
    else
      let bytes := s.devRead (a + 32) (2 * n)
      let r := { r with members := (List.range n).map fun i => leNat ((bytes.drop (2 * i)).take 2) }
      let table := s.devRead (a + 32) (ceilDiv (2 * n) 32 * 32)
      let ok := f 0 2 == g && decide (r.flags < 4) && f 3 1 == 0 && f 7 1 == 0 && f 11 1 == 0 && f 16 8 == 0 && f 24 4 == 0
        && decide (1 ≤ r.px) && decide (r.px ≤ 32) && decide (1 ≤ r.py) && decide (r.py ≤ 32) && decide (1 ≤ r.pz) && decide (r.pz ≤ 64)
        && (!r.flags.testBit 0 || r.ringOk)
        && f 28 4 == crc32c (s.devRead a 28 ++ table)
      if ok then some r else none

/-- Where a context's groups lie by the FABRIC instance of a tile's die: the base and the count (R86). -/
def State.groupTable (s : State) (tile ctx : Nat) : Nat × Nat :=
  (F.FAB_GRP_BASE_ADDR.of (s.staged .FAB_GRP_BASE ctx .fabric (tile / 128)), F.FAB_GRP_COUNT_COUNT.of (s.staged .FAB_GRP_COUNT ctx .fabric (tile / 128)))

/-- What a COLL reads to find a group: its index entry, its header and its member table (R394). -/
def State.groupReads (s : State) (tile ctx g : Nat) : List (Nat × Nat) :=
  let (base, count) := s.groupTable tile ctx
  if count ≤ g then []
  else
    let a := s.devNat (base * 8 + 8 * g) 8
    let n := s.devNat (a + 8) 1 * s.devNat (a + 9) 1 * s.devNat (a + 10) 1
    [(base * 8 + 8 * g, 8), (a, 32)] ++ if s.devNat (a + 12) 4 = n ∧ n ≤ 65536 then [(a + 32, ceilDiv (2 * n) 32 * 32)] else []

/-- The first address of some ranges that no memory backs (R50, R328). -/
def State.firstBeyond (s : State) (l : List (Nat × Nat)) : Option Nat :=
  (l.find? fun x => decide (s.visibleEnd < x.1 + x.2)).map fun x => max x.1 s.visibleEnd

/-- The record of a group for the device as a whole: by the values that every instance of FABRIC has adopted. -/
def State.group? (s : State) (ctx g : Nat) : Option Group :=
  s.groupBy (s.stagedFld F.FAB_GRP_BASE_ADDR ctx .fabric) (s.stagedFld F.FAB_GRP_COUNT_COUNT ctx .fabric) g

/-- The record of a group for a collective of a tile: by the values that the FABRIC instance of the tile's die has adopted (R86). -/
def State.groupAt (s : State) (tile ctx g : Nat) : Option Group :=
  s.groupBy (s.groupTable tile ctx).1 (s.groupTable tile ctx).2 g

/-- The coordinate of a rank along a dimension (R395). -/
def Group.coord (g : Group) (r d : Nat) : Nat :=
  match d with
  | 0 => r % max 1 g.px
  | 1 => r / max 1 g.px % max 1 g.py
  | _ => r / (max 1 g.px * max 1 g.py)

/-- The extent along a dimension. -/
def Group.extent (g : Group) (d : Nat) : Nat := match d with | 0 => g.px | 1 => g.py | _ => g.pz

/-- The rank that differs from another along one dimension only (R395). -/
def Group.along (g : Group) (r d c : Nat) : Nat :=
  let stride := match d with | 0 => 1 | 1 => max 1 g.px | _ => max 1 g.px * max 1 g.py
  r - g.coord r d * stride + c * stride

/-- The lowest rank that a device serves. -/
def Group.rankOf (g : Group) (id : Nat) : Nat := g.members.idxOf id

/-- The ring rank of a rank (R396). -/
def Group.ringRank (g : Group) (r : Nat) : Nat :=
  let ds := [0, 1, 2].filter fun d => decide (1 < g.extent d)
  match ds with
  | [a] => g.coord r a
  | [a, b] =>
    let (l, f) := if g.extent b = 2 then (a, b) else (b, a)
    if g.coord r f = 0 then g.coord r l else 2 * g.extent l - 1 - g.coord r l
  | _ => 0

/-- The phases of a collective: the dimensions of DIMS whose extent is above 1 (R398). -/
def Group.phases (g : Group) (dims : Nat) : List Nat := [0, 1, 2].filter fun d => dims.testBit d && decide (1 < g.extent d)

/-- The ranks that take part with one: they share its coordinates outside the phases. -/
def Group.peers (g : Group) (dims r : Nat) : List Nat :=
  (List.range g.size).filter fun q => [0, 1, 2].all fun d => (g.phases dims).contains d || g.coord q d == g.coord r d

/-- A segment of a range (R400): its first element and its length. -/
def segmentOf (lo n p i : Nat) : Nat × Nat := (lo + i * n / p, (i + 1) * n / p - i * n / p)

/-- The slice that the phases leave to a rank (R400). -/
def Group.slice (g : Group) (dims count r : Nat) : Nat × Nat :=
  (g.phases dims).foldl (fun x d => segmentOf x.1 x.2 (g.extent d) (g.coord r d)) (0, count)

/-- The range that the phases up to a dimension leave to a rank. -/
def Group.sliceTo (g : Group) (dims count r last : Nat) : Nat × Nat :=
  ((g.phases dims).filter (· ≤ last)).foldl (fun x d => segmentOf x.1 x.2 (g.extent d) (g.coord r d)) (0, count)

-- # Descriptors (Table 11-5)

/-- The input bytes of so many elements of a format. -/
def elemsBytes (fmt n : Nat) : Nat := ceilDiv (n * fmtBits fmt) 8

/-- Read elements as their bits. -/
def unpackElems (bs : List Byte) (fmt n : Nat) : List Nat :=
  let v := leNat bs
  let w := fmtBits fmt
  (List.range n).map fun i => bitsOf v (w * i) w

/-- Elements as bytes. -/
def packElems (fmt : Nat) (l : List Nat) : List Byte :=
  let w := fmtBits fmt
  leBytes (elemsBytes fmt l.length) (l.foldr (fun x acc => acc * 2 ^ w + x % 2 ^ w) 0)

/-- The descriptor that 64 bytes spell; none where a reserved bit is set or a field has no meaning (R133, R397). -/
def CollDesc.ofBytes (bs : List Byte) : Option CollDesc :=
  let f (o n : Nat) := leNat ((bs.drop o).take n)
  let d : CollDesc := ⟨f 0 1, f 1 1, f 2 1, f 3 1, f 4 2, f 8 8, f 16 8, f 24 8, f 32 4, f 36 4, f 40 4, f 44 4⟩
  let reduces := d.op == 1 || d.op == 3
  let fin := d.flags.testBit 1
  let ok := decide (1 ≤ d.op) && decide (d.op ≤ 6) && decide (d.flags < 8) && decide (d.dims < 8) && f 6 2 == 0
    && f 48 8 == 0 && f 56 8 == 0
    && (!reduces || [0, 1, 2, 0xC].contains d.ifmt) && decide (d.ifmt < 15)
    && (!fin || (d.op == 1 && d.dst == 0)) && (!d.flags.testBit 2 || d.op == 2)
    && ((reduces && d.ifmt == 2) || d.itensor == 0xFFFFFFFF) && (d.op == 5 || d.root == 0)
  if ok then some d else none

/-- How many elements this device puts in and takes out. -/
def CollDesc.inCount (d : CollDesc) (g : Group) (r : Nat) : Nat :=
  match d.op with
  | 2 => (g.slice d.dims d.count r).2
  | 4 => 0
  | 5 => if r = d.root then d.count else 0
  | _ => d.count

def CollDesc.outCount (d : CollDesc) (g : Group) (r : Nat) : Nat :=
  match d.op with
  | 1 => if d.flags.testBit 1 then 0 else (g.slice d.dims d.count r).2
  | 4 => 0
  | _ => d.count

/-- The format of the output: FP32 (or INT32) of a reduction, otherwise the input's (R399). -/
def CollDesc.outFmt (d : CollDesc) : Nat := if d.op = 1 ∨ d.op = 3 then (if d.ifmt = 0xC then 0xC else 0) else d.ifmt

/-- The group of a descriptor: a NORM uses group 0 (R398). -/
def CollDesc.groupNum (d : CollDesc) : Nat := if d.op = 4 then 0 else d.group

/-- The memory ranges of a descriptor. -/
def CollDesc.ranges (d : CollDesc) (g : Group) (r : Nat) : List (Nat × Nat) :=
  [(d.src, elemsBytes d.ifmt (d.inCount g r)), (d.dst, elemsBytes d.outFmt (d.outCount g r))].filter fun x => x.2 != 0

/-- This device enters +0 for its replica: it has been dropped from the open step, or the step replays one from which it was dropped (R510). -/
def State.entersZero (s : State) (ctx : Nat) : Bool :=
  s.flag F.PAIR_CTX_STATE_DROPPED ctx || ((NMap.get? s.steps ctx).bind (·.replay)).any (·.zero)

/-- The input of a reduction as 32-bit values (R399): FP16 with the block exponents of ITENSOR. -/
def State.collInput (s : State) (ctx : Nat) (d : CollDesc) : List Nat :=
  let l := unpackElems (s.devRead d.src (elemsBytes d.ifmt d.count)) d.ifmt d.count
  match d.ifmt with
  | 1 => l.map (65536 * ·)
  | 2 => (l.zipIdx).map fun x =>
      let e := if d.itensor = 0xFFFFFFFF then 0 else signedOf 8 (s.scale ctx d.itensor (s.blockOf ctx d.itensor x.2) 16 1)
      fp32.encode .nearest ((fp16.decode x.1).scale2 e)
  | _ => l

-- # Posting

/-- The other ranks that this device serves, after an adoption (R395). -/
def Group.alsoServed (g : Group) (id : Nat) : List Nat :=
  (List.range g.size).filter fun k => k != g.rankOf id && g.members.getD k 0xFFFF == id

/-- The owned shard that a rank's slice of a shard's tensor is (R402, R509). -/
def State.sliceShard (s : State) (ctx : Nat) (d : CollDesc) (g : Group) (k : Nat) : Option Shard :=
  match s.shard? ctx d.shard with
  | none => none
  | some h => (s.shards ctx).find? fun y => s.owns y && y.tensor == h.tensor && (y.elemFirst, y.elems) == g.slice d.dims d.count k

/-- The working copy of a shard may be read in an all-gather: its update has completed and been compared, or the step is not applied; this
device does not own it at all (R53, R404). -/
def State.workReady (s : State) (ctx : Nat) (p : Step) (h : Shard) : Bool :=
  !s.owns h || (p.updated.contains h.num && !s.comparing ctx h.num) || (match p.decision with | some d => d.reason != 0 | none => false)

/-- The collective may start: its shard's deferred work is done, its device partial is known, the updates of the shards that it reads, at every
rank that this device serves, are complete (R53, R248, R286, R402 to R404); no comparison of the shard that it finalises is left, so that a
repair ends before the next gradient goes to the mirror (R504, DEDUCED, log 116); no collective of the step has ended with INTEGRITY before its
norm (R371); and no fault of the device has ended all work (R47). -/
def State.collReady (s : State) (x : Coll) : Bool :=
  let shardBusy := s.launches.any fun l => l.queue == x.queue && l.cmd == x.cmd && s.shardBusy l x.desc.shard
  let step := NMap.get? s.steps x.ctx
  if s.mute then false
  else if x.desc.flags.testBit 1 then !shardBusy && !(s.shard? x.ctx x.desc.shard).any fun h => s.owns h && s.comparing x.ctx h.num
  else if x.desc.op = 4 then (match step with | some p => s.intakesDone x.ctx p && !p.broken | none => true)
  else if x.desc.flags.testBit 2 then
    match step, s.shard? x.ctx x.desc.shard with
    | some p, some h =>
      s.workReady x.ctx p h && match s.groupAt x.tile x.ctx x.desc.groupNum with
        | some g => (g.alsoServed s.deviceId).all fun k => (s.sliceShard x.ctx x.desc g k).all (s.workReady x.ctx p)
        | none => true
    | _, _ => true
  else true

/-- The device partial of a step, +0 of a dropped replica (R510). -/
def State.normInput (s : State) (ctx : Nat) (p : Step) : Nat := if s.entersZero ctx then 0 else s.devicePartial ctx p

/-- The final slice of a FINAL reduce-scatter is exactly its shard's range (R402). -/
def State.finalFits (s : State) (ctx : Nat) (d : CollDesc) (g : Group) (r : Nat) : Bool :=
  match s.shard? ctx d.shard with
  | none => false
  | some x => g.slice d.dims d.count r == (x.elemFirst, x.elems)

/-- Post a COLL of one operation (R127, R397, R398); what it reads of the group goes through the stack caches (R329). The row names the operation of the descriptor; a descriptor whose OP has
no meaning is a decode fault. -/
def collSlot (op : Nat) (h : SlotHdr) (sd sv : Fin 32) (s : State) : Answer :=
  let src := (s.tile h.tile).snap.getD (s.tile h.tile).core
  let there := leNat (s.storeRead h.tile (src.sreg sd).toNat 1)
  let other := (guardOf src h).toNat.testBit 0 && there != op && decide (1 ≤ there) && decide (there ≤ 6)
  s.runSlot h (h.slot == .l && !other) fun c =>
    if !c.on then .skip
    else
      let off := (c.src.sreg sd).toNat
      s.readCheck c (storeHole c.t off 64) off 64 <|
        match CollDesc.ofBytes (s.storeRead c.t off 64) with
        | none => .decode
        | some d =>
          let reads := s.groupReads c.t c.l.ctx d.groupNum
          match s.firstBeyond reads, s.groupAt c.t c.l.ctx d.groupNum with
          | some a, _ => .unbacked a
          | none, none => .decode
          | none, some g =>
            let r := g.rankOf s.deviceId
            let rs := d.ranges g r
            let overlapping := match rs with | [a, b] => overlap a.1 a.2 b.1 b.2 | _ => false
            let wrong := decide (g.size ≤ r) || overlapping || (d.flags.testBit 1 && !s.finalFits c.l.ctx d g r)
              || (d.op == 6 && !g.flags.testBit 0) || (d.op == 5 && decide (g.size ≤ d.root))
            if wrong then .decode
            else match s.rangesCheck c.l.ctx rs with
              | .noPermission => .fault St.noPermission 3
              | .unbacked a => .unbacked a
              | .fine =>
                if rs.any fun x => s.addrKind x.1 != .memory then .fault St.noPermission 3
                else if 32 ≤ s.inFlight c.t then .stall
                else .write c.x [] (reads.map (fun x => .reads x.1 x.2) ++ [.coll ⟨0, c.t, c.l.ctx, c.l.queue, c.l.cmd, c.x.bundle, off,
                  (c.src.sreg sv).toNat % 65536, d, 0, s.now, false, 0, false, false, false, false⟩])

/-- REDUCE_SCATTER (R399, R400, R402). -/
def execReduceScatter (h : SlotHdr) (sd sv : Fin 32) (s : State) : Answer := collSlot 1 h sd sv s
/-- ALL_GATHER (R399, R404). -/
def execAllGather (h : SlotHdr) (sd sv : Fin 32) (s : State) : Answer := collSlot 2 h sd sv s
/-- ALL_REDUCE (R399). -/
def execAllReduce (h : SlotHdr) (sd sv : Fin 32) (s : State) : Answer := collSlot 3 h sd sv s
/-- NORM (R403). -/
def execNorm (h : SlotHdr) (sd sv : Fin 32) (s : State) : Answer := collSlot 4 h sd sv s
/-- BROADCAST (R399). -/
def execBroadcast (h : SlotHdr) (sd sv : Fin 32) (s : State) : Answer := collSlot 5 h sd sv s
/-- SHIFT (R396, R399). -/
def execShift (h : SlotHdr) (sd sv : Fin 32) (s : State) : Answer := collSlot 6 h sd sv s

-- # The streams of a collective (R365, R399 to R401)

/-- What a received stream comes to: its values with the plain and the stored bytes of its blocks; damage of a block with its KIND, its index
and the plain bytes before it; or bytes that are no such stream. -/
inductive Received where
  | values (l : List Nat) (plain stored : Nat)
  | damaged (kind block : Nat) (before : List Byte)
  | short

/-- Decode a received stream of a plain length. -/
def receiveStream (l : Nat) : Nat → Nat → List Byte → List Byte → Received
  | 0, _, _, acc => .values (acc.map (·.toNat)) 0 0
  | n + 1, b, bs, acc =>
    match decodeBlock bs (plainLen l b) with
    | .plain p stored => receiveStream l n (b + 1) (bs.drop stored) (acc ++ p)
    | .damaged k => .damaged k b acc

/-- A stream of so many bytes travels as codec blocks: the descriptor asks for it and the length allows it (R353, R365, R398). -/
def codedStream (cmp : Bool) (l : Nat) : Bool := cmp && decide (0 < l) && l % 64 == 0

/-- Take a stream of another member: decoded where it is coded, otherwise plain. -/
def receivePart (cmp : Bool) (fmt n : Nat) (bs : List Byte) : Received :=
  let l := elemsBytes fmt n
  if codedStream cmp l then
    match receiveStream l (ceilDiv l blockSize) 0 bs [] with
    | .values v _ _ => .values (unpackElems (v.map (BitVec.ofNat 8)) fmt n) l bs.length
    | r => r
  else if bs.length = l then .values (unpackElems bs fmt n) 0 0
  else .short

/-- A block of a received stream that failed: its KIND, its index, the rank that sent it, the first element of the stream and its values before
the block. -/
structure Harm where
  kind   : Nat
  block  : Nat
  rank   : Nat
  first  : Nat
  before : List Nat
deriving DecidableEq, Repr

/-- A collective as it runs on this device: the received streams still to take, the streams it sends so far (rank, format and values), what it
has taken for its output, the bytes decoded, whether a stream is missing, and the first block that failed. -/
structure Flow where
  parts  : List (List Byte)
  sends  : List (Nat × Nat × List Nat)
  placed : List (Nat × List Nat)
  plain  : Nat
  stored : Nat
  wait   : Bool
  harm   : Option Harm
deriving DecidableEq, Repr

/-- What each rank that this device serves holds: the first element and the values. -/
abbrev Held := List (Nat × Nat × List Nat)

/-- A collective that has these streams to take. -/
def Flow.start (parts : List (List Byte)) : Flow := ⟨parts, [], [], 0, 0, false, none⟩

/-- The collective goes no further: a stream is missing or damaged. -/
def Flow.stuck (x : Flow) : Bool := x.wait || x.harm.isSome

/-- Send a stream to a rank; an empty one is none. -/
def Flow.give (x : Flow) (rank fmt : Nat) (l : List Nat) : Flow :=
  if x.stuck || l.isEmpty then x else { x with sends := x.sends ++ [(rank, fmt, l)] }

/-- Take the stream of a rank, of so many elements from a first one on. -/
def Flow.take (x : Flow) (cmp : Bool) (rank fmt n first : Nat) : Flow × List Nat :=
  if x.stuck || n == 0 then (x, [])
  else match x.parts with
    | [] => ({ x with wait := true }, [])
    | b :: rest =>
      match receivePart cmp fmt n b with
      | .values l p t => ({ x with parts := rest, plain := x.plain + p, stored := x.stored + t }, l)
      | .damaged k blk acc =>
        ({ x with harm := some ⟨k, blk, rank, first, unpackElems acc fmt (8 * acc.length / fmtBits fmt)⟩ }, [])
      | .short => ({ x with wait := true }, [])

/-- A rank is served by this device, and what it holds. -/
def Held.has (h : Held) (k : Nat) : Bool := h.any fun y => y.1 == k
def Held.vals (h : Held) (k : Nat) : List Nat := (h.find? fun y => y.1 == k).elim [] fun y => y.2.2

-- # Reduction (R400, R401)

/-- A half of a segment of a range: its first floor(len/2) elements go around the ring in the plus direction, the others in the minus
direction. -/
def halfOf (vals : List Nat) (p seg : Nat) (plus : Bool) : List Nat :=
  let (a, n) := segmentOf 0 vals.length p seg
  if plus then (vals.drop a).take (n / 2) else (vals.drop (a + n / 2)).take (n - n / 2)

/-- The segment whose half a line rank sends in a hop, from 1 on: that of the rank before it starts with it, and each later hop sends on what
has come. -/
def hopSegment (p c hop : Nat) (plus : Bool) : Nat := if plus then (c + p - hop % p) % p else (c + hop) % p

/-- The line rank after one in a direction. -/
def lineNext (p c : Nat) (plus : Bool) : Nat := if plus then (c + 1) % p else (c + p - 1) % p

/-- The running sums that the ranks have received in a hop: by rank and direction. -/
abbrev Sums := List (Nat × Bool × List Nat)

def Sums.get (l : Sums) (k : Nat) (plus : Bool) : List Nat := (l.find? fun y => y.1 == k && y.2.1 == plus).elim [] fun y => y.2.2

/-- What a rank sends in a hop: its own values at first, then the running sum that has come with its own added (R400). -/
def hopSum (add : Nat → Nat → Nat) (g : Group) (d : Nat) (h : Held) (run : Sums) (hop k : Nat) (plus : Bool) : List Nat :=
  let p := g.extent d
  let own := halfOf (h.vals k) p (hopSegment p (g.coord k d) hop plus) plus
  if hop = 1 then own else List.zipWith add (run.get k plus) own

/-- One hop of a phase, on every rank that this device serves: each sends to the next rank in both directions, then takes what the rank before
it sends; between two ranks of this device nothing travels. -/
def ringHop (add : Nat → Nat → Nat) (cmp : Bool) (g : Group) (d : Nat) (h : Held) (a : Flow × Sums) (hop : Nat) : Flow × Sums :=
  let p := g.extent d
  let keys := h.flatMap fun y => [(y.1, true), (y.1, false)]
  let next (k : Nat) (plus : Bool) : Nat := g.along k d (lineNext p (g.coord k d) plus)
  let x := keys.foldl (fun x q =>
    if h.has (next q.1 q.2) then x else x.give (next q.1 q.2) 0 (hopSum add g d h a.2 hop q.1 q.2)) a.1
  keys.foldl (fun b q =>
    let from' := next q.1 !q.2
    if h.has from' then (b.1, b.2 ++ [(q.1, q.2, hopSum add g d h a.2 hop from' q.2)])
    else
      let n := (halfOf (h.vals q.1) p (hopSegment p (g.coord from' d) hop q.2) q.2).length
      let (x, l) := b.1.take cmp from' 0 n 0
      (x, b.2 ++ [(q.1, q.2, l)])) (x, [])

/-- A phase: p − 1 hops, after which each rank adds its own values to the sums of its segment and keeps that (R400). -/
def ringPhase (add : Nat → Nat → Nat) (cmp : Bool) (g : Group) (a : Flow × Held) (d : Nat) : Flow × Held :=
  let p := g.extent d
  let (x, run) := (List.range (p - 1)).foldl (fun b j => ringHop add cmp g d a.2 b (j + 1)) (a.1, [])
  (x, a.2.map fun y =>
    let c := g.coord y.1 d
    let half (plus : Bool) : List Nat := List.zipWith add (run.get y.1 plus) (halfOf y.2.2 p c plus)
    (y.1, y.2.1 + (segmentOf 0 y.2.2.length p c).1, half true ++ half false))

/-- A reduce-scatter: its phases in the order X, Y, Z, each over what the one before has left. -/
def reduceFlow (add : Nat → Nat → Nat) (cmp : Bool) (g : Group) (dims : Nat) (x : Flow) (h : Held) : Flow × Held :=
  (g.phases dims).foldl (ringPhase add cmp g) (x, h)

/-- 32-bit addition modulo 2^32 (VIADD). -/
def addInt32 (a b : Nat) : Nat := (a + b) % 2 ^ 32

-- # Gathering (R399)

/-- A gather phase: each rank sends what it holds to the others of its line, and takes what they hold, in ascending line rank (log 115). `r` is
the rank whose output this device writes. -/
def gatherPhase (cmp : Bool) (fmt : Nat) (g : Group) (dims count r : Nat) (a : Flow × Held) (d : Nat) : Flow × Held :=
  let line (k : Nat) : List Nat := (List.range (g.extent d)).map (g.along k d)
  let x := a.2.foldl (fun x y => (line y.1).foldl (fun x t => if a.2.has t then x else x.give t fmt y.2.2) x) a.1
  a.2.foldl (fun b y =>
    let (x, vals) := (line y.1).foldl (fun (c : Flow × List Nat) t =>
      if a.2.has t then (c.1, c.2 ++ a.2.vals t)
      else
        let (first, n) := g.sliceTo dims count t d
        let (x, l) := c.1.take cmp t fmt n first
        ({ x with placed := if y.1 = r ∧ l ≠ [] then x.placed ++ [(first, l)] else x.placed }, c.2 ++ l)) (b.1, [])
    (x, b.2 ++ [(y.1, ((line y.1).head?.elim y.2.1 fun t => (g.sliceTo dims count t d).1), vals)])) (x, [])

/-- An all-gather: its phases in the order Z, Y, X. -/
def gatherFlow (cmp : Bool) (fmt : Nat) (g : Group) (dims count r : Nat) (x : Flow) (h : Held) : Flow × Held :=
  ((g.phases dims).reverse).foldl (gatherPhase cmp fmt g dims count r) (x, h)

-- # Finalising a gradient (R402)

/-- The exponent with which the block of an element converts: its EXP, or for a cold block the one that the largest magnitude of
the slice's elements in it gives (R235, R236, R402). -/
def State.gradExp (s : State) (ctx : Nat) (x : Shard) (vals : List Nat) (i : Nat) : Int :=
  let t := x.gradTensor
  let b := s.blockOf ctx t (x.elemFirst + i)
  if (s.scale ctx t b 17 1).testBit 0 then
    let amax := (vals.zipIdx).foldl (fun m v =>
      if s.blockOf ctx t (x.elemFirst + v.2) = b ∧ (fp32.decode v.1).finite then max m (fp32.mag v.1) else m) 0
    if amax = 0 then 0 else max (-127) (min 127 (expOfBits amax - fmtTop 2 + bitsOf (s.desc ctx t 0 1) 0 2))
  else signedOf 8 (s.scale ctx t b 16 1)

/-- Convert the slice into the GRAD plane, with GEXP, tracking and the zeroes of DISCARD (R233, R234, R278, R402). -/
def State.finaliseGrad (s : State) (x : Coll) (h : Shard) (l : Launch) (vals : List Nat) : State :=
  let fp16' := s.gradFp16 x.ctx h
  let s := s.when fp16' fun s => s.useElems l.queue l.cmd h.gradTensor ((List.range vals.length).map (h.elemFirst + ·))
  let key := if fp16' then h.gradTensor else h.tensor
  let conv (i : Nat) (v : Nat) : Int × CvtLane :=
    let e := if fp16' then s.gradExp x.ctx h vals i else 0
    let u := stochU l.jobSeed l.step key (h.elemFirst + i)
    (e, cvtFloat (if fp16' then 2 else 1) (if fp16' then fp16 else bf16) (.stoch u 24) ((fp32.decode v).scale2 (-e)))
  let rs := (vals.zipIdx).map fun v => (v.2, v.1, conv v.2 v.1)
  let s := s.devWrite (h.planeAddr 2) (rs.flatMap fun r => leBytes 2 r.2.2.2.bits)
  if !fp16' then s
  else
    let s := s.each (List.range (ceilDiv h.elems 256)) fun j s =>
      s.devWrite (h.planeAddr 3 + j) (leBytes 1 (byteOfInt ((rs.getD (256 * j) (0, 0, 0, ⟨0, false, false⟩)).2.2.1)))
    let s := s.trackLanes l.queue l.cmd h.gradTensor (rs.map fun r =>
      let v := fp32.decode r.2.1
      let mag := if v.finite then fp32.mag r.2.1 else 0
      let z := fp16.mag r.2.2.2.bits == 0
      ⟨h.elemFirst + r.1, mag, r.2.2.2.ovf, v.finite && !v.isZero && z, z⟩)
    let ctrl := s.desc x.ctx h.gradTensor 0 1
    if ctrl.testBit 6 && !ctrl.testBit 5 then
      s.each rs fun r s =>
        s.when ((s.scale x.ctx h.gradTensor (s.blockOf x.ctx h.gradTensor (h.elemFirst + r.1)) 17 1).testBit 1) fun s =>
          s.devWrite (h.elemAddr 2 r.1) [0, 0]
    else s

/-- The bytes of the finalised gradient of a shard: GRAD, then GEXP where it has one. -/
def State.gradBytes (s : State) (ctx : Nat) (h : Shard) : List Byte × List Byte :=
  (s.devRead (h.planeAddr 2) (2 * h.elems),
   if s.gradFp16 ctx h then s.devRead (h.planeAddr 3) (ceilDiv h.elems 256) else [])

/-- The digests of a shard of the step so far: shard, REDUCED, UPDATED. -/
def Step.setDigest (p : Step) (shard : Nat) (f : Nat × Nat → Nat × Nat) : Step :=
  let old := (p.digests.find? fun d => d.1 == shard).elim (0, 0) fun d => d.2
  let rest := p.digests.filter fun d => d.1 != shard
  { p with digests := insertNum (shard, f old) rest }

/-- Keep the FP32 local gradients that a FINAL reduce-scatter took, for LOCAL_DIGEST (Table 7-5). -/
def State.noteLocal (s : State) (x : Coll) (h : Shard) (vals : List Nat) : State :=
  s.modStep x.ctx fun p => { p with locals := p.locals ++ [(h.tensor, h.elemFirst, vals.flatMap (leBytes 4))] }

/-- A gradient shard is finalised: its digest is taken, it goes to the twin, and its intake pass starts (R271, R286, R402). -/
def State.finalised (s : State) (x : Coll) (h : Shard) : State :=
  let (grad, gexp) := s.gradBytes x.ctx h
  let dg := crc64 (grad ++ gexp)
  let s := s.modStep x.ctx fun p =>
    { p.setDigest h.num (fun d => (dg, d.2)) with finalised := h.num :: p.finalised, handed := h.num :: p.handed }
  let s := s.when (s.compared x.ctx h) fun s => s.postMir (.gradient x.ctx h.num grad gexp)
  s.startIntake x.ctx h.num

-- # Completion

/-- A launch takes a fault from one of its collectives. -/
def State.collFault (s : State) (x : Coll) (status detail : Nat) : State :=
  ({ s with colls := s.colls.filter fun y => y.id != x.id }).launchFault x.queue x.cmd status detail x.tile x.bundle

/-- Write the output of a collective; a working copy's delivery does not make it stale (R284, R404). -/
def State.collWrite (s : State) (x : Coll) (bs : List Byte) : State :=
  let s := s.devWrite x.desc.dst bs
  s.when (!x.desc.flags.testBit 2) fun s => s.guardWork x.desc.dst bs.length

/-- A rank of a dropped replica's collective was served by the failed device: no data moves to or from it (R510). -/
def State.rankLost (s : State) (x : Coll) (k : Nat) : Bool :=
  s.flag F.PAIR_CTX_STATE_DROPPED x.ctx && (((NMap.get? s.steps x.ctx).map (·.lost)).getD []).contains (x.desc.groupNum, k)

/-- A collective of a dropped replica with a lost rank completes without moving data (R510); a FINAL one, a NORM and an all-gather of working
copies go on, and BROADCAST and SHIFT leave out the transfers of the lost ranks. -/
def State.skipsColl (s : State) (x : Coll) (g : Group) : Bool :=
  let d := x.desc
  let some' : Bool := (g.peers d.dims (g.rankOf s.deviceId)).any (s.rankLost x)
  match d.op with
  | 1 => !d.flags.testBit 1 && some'
  | 2 => !d.flags.testBit 2 && some'
  | 3 => some'
  | _ => false

-- # The gather of a tie group (R253)

/-- The buffers of a group's uses by use, of so many FP32 elements each: this device's own, and for the others the parts that have come, in the
order of the uses; with the parts left. -/
def State.usesOf (s : State) (key : List Byte) (n : Nat) : List Nat → List (List Byte) → Option (List (List Nat) × List (List Byte))
  | [], parts => some ([], parts)
  | t :: rest, parts =>
    match Config.tieBuffer key t, parts with
    | some a, _ => (s.usesOf key n rest parts).map fun r => (unpackElems (s.devRead a (4 * n)) 0 n :: r.1, r.2)
    | none, b :: ps => if b.length = 4 * n then (s.usesOf key n rest ps).map fun r => (unpackElems b 0 n :: r.1, r.2) else none
    | none, [] => none

/-- What this device enters in a reduction, with the parts left: +0 of a dropped replica (R510); for a tie group what its gather pass gives,
partial q being use q and the tree of R196 combining them, whatever the order of arrival (R253); otherwise SRC. -/
def State.reduceInput (s : State) (l : Launch) (x : Coll) (parts : List (List Byte)) : Option (List Nat × List (List Byte)) :=
  if x.desc.flags.testBit 1 && s.entersZero x.ctx then some (List.replicate x.desc.count 0, parts)
  else match s.tieOf l x with
    | none => some (s.collInput x.ctx x.desc, parts)
    | some g => (s.usesOf l.key x.desc.count g.2 parts).map fun r =>
        ((List.range x.desc.count).map fun i => combineTree (r.1.map fun u => u.getD i 0), r.2)

-- # What a collective reads (R329, R334)

/-- The ranges of memory that a collective reads on this device: SRC, or the use buffers of its tie group that lie here, and the working copies of
the other ranks that it serves. -/
def State.collRanges (s : State) (x : Coll) (l : Launch) (g : Group) : List (Nat × Nat) :=
  let d := x.desc
  let r := g.rankOf s.deviceId
  let src := (d.src, elemsBytes d.ifmt (d.inCount g r))
  let all := match d.op with
    | 1 =>
      if d.flags.testBit 1 && s.entersZero x.ctx then []
      else match s.tieOf l x with
        | none => [src]
        | some t => (t.2.filterMap (Config.tieBuffer l.key)).map fun a => (a, 4 * d.count)
    | 2 =>
      src :: if d.flags.testBit 2 then
        (g.alsoServed s.deviceId).filterMap fun k => (s.sliceShard x.ctx d g k).map fun (y : Shard) => (y.work, elemsBytes d.ifmt y.elems)
      else []
    | 4 => []
    | 5 => if g.members.getD d.root 0xFFFF = s.deviceId then [(d.src, elemsBytes d.ifmt d.count)] else []
    | _ => [src]
  if s.skipsColl x g then [] else all.filter fun a => a.2 != 0

/-- A collective reads its input, once an attempt; the answer is the channel of the first uncorrectable codeword. -/
def State.collReads (s : State) (x : Coll) (l : Launch) (g : Group) : State × Option Nat :=
  if x.began then (s, none)
  else
    let (s, bad) := (s.collRanges x l g).foldl (fun (a : State × Option Nat) r =>
      let (t, ch) := a.1.readReport 0 (some x.ctx) r.1 r.2
      (t, a.2.orElse fun _ => ch)) (s, none)
    ({ s with colls := s.colls.map fun (y : Coll) => if y.id = x.id then { y with began := true } else y }, bad)

-- # Running a collective

/-- The other devices of a group, each at the lowest rank that it serves. -/
def Group.others (g : Group) (id : Nat) : List Nat :=
  (List.range g.size).filter fun k => g.members.getD k 0 != id && g.rankOf (g.members.getD k 0) == k

/-- The input of a slice that this device holds at a rank it serves, for an all-gather: its own at its lowest rank; at another the working copy of
the slice's shard (R509), and what no rule gives otherwise (log 115). -/
def State.gatherInput (s : State) (x : Coll) (g : Group) (k : Nat) : List Nat :=
  let d := x.desc
  let n := (g.slice d.dims d.count k).2
  if k = g.rankOf s.deviceId then unpackElems (s.devRead d.src (elemsBytes d.ifmt n)) d.ifmt n
  else match if d.flags.testBit 2 then s.sliceShard x.ctx d g k else none with
    | some y => unpackElems (s.devRead y.work (elemsBytes d.ifmt y.elems)) d.ifmt y.elems
    | none => (List.range n).map fun i => Config.adoptedInput d.tag k i % 2 ^ fmtBits d.ifmt

/-- Take the one stream that a BROADCAST or a SHIFT receives from a rank, and write it. -/
def Coll.takeOne (x : Coll) (rank : Nat) (f : Flow) : Flow × (State → State) :=
  let (f, l) := f.take (x.desc.flags.testBit 0) rank x.desc.ifmt x.desc.count 0
  ({ f with placed := [(0, l)] }, fun s => s.collWrite x (packElems x.desc.ifmt l))

/-- Run a collective with the streams that have come, as far as they reach (R399 to R404): what it sends and takes, and what it leaves on this
device when it is done. A NORM's streams are the partials of the other devices at rank 0's device, which combines them and decides. -/
def State.runColl (s : State) (x : Coll) (l : Launch) (g : Group) (parts : List (List Byte)) : Flow × (State → State) :=
  let d := x.desc
  let me := s.deviceId
  let r := g.rankOf me
  let cmp := d.flags.testBit 0
  let also := g.alsoServed me
  let add := if d.ifmt = 0xC then addInt32 else f32Add
  let waits : Flow × (State → State) := ({ Flow.start parts with wait := true }, id)
  let write (vals : List Nat) (fmt : Nat) : State → State := fun s => s.collWrite x (packElems fmt vals)
  if s.skipsColl x g then (Flow.start parts, id)
  else match d.op with
  | 1 =>
    match s.reduceInput l x parts with
    | none => waits
    | some (vals, rest) =>
      let (f, h) := reduceFlow add cmp g d.dims (Flow.start rest) ((r, 0, vals) :: also.map fun k => (k, 0, List.replicate d.count 0))
      if d.flags.testBit 1 then
        (f, fun s =>
          match s.shard? x.ctx d.shard with
          | none => s
          | some y =>
            let s := ((s.noteLocal x y vals).finaliseGrad x y l (h.vals r)).finalised x y
            s.each also fun k s =>
              match s.sliceShard x.ctx d g k with
              | some y => (s.finaliseGrad x y l (h.vals k)).finalised x y
              | none => s)
      else (f, write (h.vals r) d.outFmt)
  | 2 =>
    let (f, h) := gatherFlow cmp d.ifmt g d.dims d.count r (Flow.start parts)
      ((r :: also).map fun k => (k, (g.slice d.dims d.count k).1, s.gatherInput x g k))
    (f, write (h.vals r) d.ifmt)
  | 3 =>
    match s.reduceInput l x parts with
    | none => waits
    | some (vals, rest) =>
      let (f, h) := reduceFlow add cmp g d.dims (Flow.start rest) ((r, 0, vals) :: also.map fun k => (k, 0, List.replicate d.count 0))
      let (f, h) := gatherFlow cmp 0 g d.dims d.count r f h
      (f, write (h.vals r) d.outFmt)
  | 4 =>
    match NMap.get? s.steps x.ctx with
    | none => (Flow.start parts, id)
    | some p =>
      let own := s.normInput x.ctx p
      if g.members.getD 0 0 = me then
        let (f, got) := (g.others me).foldl (fun (a : Flow × List (Nat × Nat)) k =>
          let (f, l) := a.1.take false k 0 1 0
          (f, a.2 ++ [(k, l.headD 0)])) (Flow.start parts, [])
        let vals := (List.range g.size).map fun q => if q = r then own else (got.find? fun y => y.1 == q).elim 0 (·.2)
        let dec := normDecision (combineTree vals) p.limit p.clip
        (f, fun s => (s.post g.members (.record x.ctx p.index dec)).adopt x.ctx dec)
      else ({ (Flow.start parts).give 0 0 [own] with wait := p.decision.isNone }, id)
  | 5 =>
    if s.rankLost x d.root then (Flow.start parts, id)
    else if g.members.getD d.root 0xFFFF = me then
      let vals := unpackElems (s.devRead d.src (elemsBytes d.ifmt d.count)) d.ifmt d.count
      (((g.others me).filter fun k => !s.rankLost x k).foldl (fun f k => f.give k d.ifmt vals) (Flow.start parts), write vals d.ifmt)
    else x.takeOne d.root (Flow.start parts)
  | _ =>
    let vals := unpackElems (s.devRead d.src (elemsBytes d.ifmt d.count)) d.ifmt d.count
    let n := max 1 g.size
    let at' (i : Nat) : Nat := ((List.range g.size).find? fun k => g.ringRank k == i % n).getD 0
    let served (k : Nat) : Bool := g.members.getD k 0xFFFF == me
    let f := (r :: also).foldl (fun f k =>
      let after := at' (g.ringRank k + 1)
      if served after || s.rankLost x after || s.rankLost x k then f else f.give after d.ifmt vals) (Flow.start parts)
    let prev (k : Nat) : Nat := at' (g.ringRank k + n - 1)
    let rest (f : Flow) : Flow := (also.filter fun k => !served (prev k) && !s.rankLost x (prev k)).foldl
      (fun f k => (f.take cmp (prev k) d.ifmt d.count 0).1) f
    if s.rankLost x (prev r) then (rest f, id)
    else if served (prev r) then (rest f, write vals d.ifmt)
    else
      let (f, w) := x.takeOne (prev r) f
      (rest f, w)
-- # Sending

/-- Send the streams that a collective has not sent yet, each to the device that serves its rank, coded where the descriptor asks for it; the
answer names the block of one that fails the self-check with its KIND (R360, R365). A NORM's one value goes as the device partial (R403). -/
def State.sendStreams (s : State) (x : Coll) (g : Group) (sends : List (Nat × Nat × List Nat)) (faults : List (Nat × Nat × Nat)) :
    State × Option (Nat × Nat) :=
  let step' (a : State × Option (Nat × Nat)) (y : (Nat × Nat × List Nat) × Nat) : State × Option (Nat × Nat) :=
    if a.2.isSome then a
    else
      let ((rank, fmt, vals), i) := y
      let dsts := [g.members.getD rank 0]
      let bytes := packElems fmt vals
      let put (s : State) (bs : List Byte) : State := s.post dsts (.part x.ctx x.desc.tag x.attempt rank bs)
      if x.desc.op = 4 then
        (a.1.post dsts (.partialSum x.ctx ((NMap.get? s.steps x.ctx).elim 0 (·.index)) (vals.headD 0)), none)
      else if codedStream (x.desc.flags.testBit 0) bytes.length then
        let r := codeStream ((faults.filter fun q => q.1 == i).map (·.2)) (ceilDiv bytes.length blockSize) 0 bytes []
        let t := a.1.countCmp x.ctx r.plain r.bytes.length
        match r.fail with
        | none => (put t r.bytes, none)
        | some e => (t, some e)
      else (put a.1 bytes, none)
  let (t, e) := ((sends.zipIdx).drop x.sent).foldl step' (s, none)
  ({ t with colls := t.colls.map fun (y : Coll) => if y.id = x.id then { y with sent := max y.sent sends.length } else y }, e)

-- # Damage (R366, R370, R371)

/-- Write elements into the output of a collective from one on, whatever their width. -/
def State.putElems (s : State) (x : Coll) (fmt first : Nat) (vals : List Nat) : State :=
  let w := fmtBits fmt
  if vals.isEmpty then s
  else
    let a := first * w / 8
    let n := ceilDiv ((first + vals.length) * w) 8 - a
    let old := leNat (s.devRead (x.desc.dst + a) n)
    let lo := first * w - 8 * a
    let new := vals.foldr (fun v acc => acc * 2 ^ w + v % 2 ^ w) 0
    let bits := w * vals.length
    s.collWrite { x with desc := { x.desc with dst := x.desc.dst + a } }
      (leBytes n (old % 2 ^ lo + 2 ^ lo * new + old / 2 ^ (lo + bits) * 2 ^ (lo + bits)))

/-- A collective has met a damaged block: what it has taken whole stands in its output, with the blocks before the damaged one; it is reported and
ends the launch, and no norm decision of the step is reached (R366, R370, R371). Where an abort has been asked before, nothing is written and
nothing reported. -/
def State.collHarmed (s : State) (x : Coll) (g : Group) (f : Flow) (h : Harm) : State :=
  if s.stopAsked x.queue x.cmd then s
  else
    let copies := x.desc.op != 1 && x.desc.op != 4
    let s := s.when copies fun s =>
      (s.each f.placed fun p s => s.putElems x x.desc.outFmt p.1 p.2).putElems x x.desc.outFmt h.first h.before
    let s := s.modStep x.ctx fun p => { p with broken := true }
    (s.integrity x.ctx 3 h.kind (g.members.getD h.rank 0) h.block 0).collFault x St.integrity h.block

-- # Completion, continued

/-- The first member whose posting differs from this device's (R397). -/
def CollDesc.odd (d : CollDesc) (posts : List CollPost) : Option Nat :=
  (posts.find? fun p => (p.op.toNat, p.ifmt.toNat, p.dims.toNat, p.group.toNat, p.count.toNat, p.root.toNat)
    != (d.op, d.ifmt, d.dims, d.group, d.count, d.root)).map fun p => p.dev.toNat

/-- A mismatch with another member's posting: event 0x020E, and the collective never completes on this device (R397). -/
def State.mismatched (s : State) (x : Coll) (dev : Nat) : State :=
  ({ s with colls := s.colls.map fun (y : Coll) => if y.id = x.id then { y with odd := true } else y }).raise (.context x.ctx) 0x020E 2
    x.desc.groupNum (2 ^ 32 * x.desc.tag + dev)

/-- What a completed collective leaves of itself: the spans of its activities end, a FINAL one or a NORM is noted, and no flit of it is held. -/
def State.collDone (s : State) (x : Coll) : State :=
  let t := s.when x.gather fun t => t.activityOut x.ctx 4
  let t := t.when (x.desc.flags.testBit 1) fun t => t.activityOut x.ctx 5
  let t := t.when (x.desc.flags.testBit 2) fun t => t.activityOut x.ctx 8
  let t := t.when (x.desc.flags.testBit 1 || x.desc.op == 4) fun t => t.modStep x.ctx fun p => { p with finals := p.finals ++ [x] }
  { t with inbox := t.inbox.filter fun f => f.1.stream != x.desc.tag }

/-- COLL_COMPLETE: the collective takes the streams that have come, sends what it has to send by then, and completes on this device where they
are all that it waits for: it adds 1 to its counter, and a FINAL one starts the intake pass (R125, R286, R399 to R404). Where another member has
posted it otherwise, it never completes (R397). The streams are, after the use buffers that other devices hold of a tie group that the collective
finalises (R253), those of each phase: hop by hop, for each rank that this device serves, what comes in the plus and then in the minus direction;
and for a gather what the line's other ranks hold. A list that does not fit is no completion (log 115). -/
def execCollComplete (id : Nat) (e : CollParts) (s : State) : Answer :=
  match s.colls.find? fun x => x.id == id with
  | none => .next s
  | some x =>
    match s.launch? x.queue x.cmd, s.groupAt x.tile x.ctx x.desc.groupNum with
    | some l, some g =>
      if x.odd then .next s
      else match x.desc.odd e.posts with
      | some dev => .next (s.mismatched x dev)
      | none =>
      if !s.collReady x then .next s
      else
        let (s0, bad) := s.collReads x l g
        match bad with
        | some ch => .next (if s.stopAsked x.queue x.cmd then s else s0.collFault x St.memUncorrectable ch)
        | none =>
          let (f, leaves) := s0.runColl x l g e.parts
          let (s1, broke) := s0.sendStreams x g f.sends e.faults
          match broke, f.harm with
          | some (b, k), _ => .next (s1.collHarmed x g f ⟨k, b, g.rankOf s.deviceId, 0, []⟩)
          | none, some h => .next (s1.collHarmed x g f h)
          | none, none =>
            if f.wait || !f.parts.isEmpty then .next s1
            else
              let t := ((leaves s1).countCmp x.ctx f.plain f.stored).collDone x
              if x.again then .next { t with colls := t.colls.filter fun y => y.id != id }
              else match t.increment x.ctx x.sv 1 ⟨5, x.tile⟩ (.launch x.queue x.cmd x.tile x.bundle) with
              | (_, .stalled) => .next s
              | (u, .failed st d) => .next (u.collFault x st d)
              | (u, _) => .next { u with colls := u.colls.filter fun y => y.id != id }
    | _, _ => .next s

end Sys2Proof.Machine
end

