-- ==== Sys2Proof/Machine/RegAccess.lean ====
section
/-! DEFINITION. How a host access reaches a register: its offset (R24), which function reaches it at which stage (R27, R61, R580,
R613), what a write of a whole register or a half stores under the access types of its fields (R24, R26), and staging (R86). -/

namespace Sys2Proof

-- # Written halves (R24)

/-- The bits that an access of a part of a register covers. -/
def Half.mask : Half → Word
  | .low => 0x00000000FFFFFFFF#64
  | .high => 0xFFFFFFFF00000000#64
  | .whole => BitVec.allOnes 64

/-- The register's value with the written part replaced; the written bits stand at their places in the register. -/
def Half.merge (h : Half) (old v : Word) : Word := (old &&& ~~~h.mask) ||| (v &&& h.mask)

/-- What a read of a part of a register returns: the bits of the part, from bit 0 on. -/
def Half.read (h : Half) (v : Word) : Word := match h with | .high => v >>> 32 | _ => v &&& h.mask

/-- The written bits alone. -/
def Half.part (h : Half) (v : Word) : Word := v &&& h.mask

end Sys2Proof

namespace Sys2Proof.Machine

-- # Offsets

/-- The offset of a copy of a register in BAR0. A register with a copy for each function lies at one offset. -/
def RegName.offset (r : RegName) (i : Nat) : Nat :=
  let p := r.place
  if p.perFn then p.base else p.base + p.stride1 * (i / p.count2) + p.stride2 * (i % p.count2)

/-- How many copies of a register BAR0 holds. -/
def RegName.copies (r : RegName) : Nat := r.place.count1 * r.place.count2

/-- The copy of a register at an offset, as a function sees it. -/
def RegName.copyAt (r : RegName) (fn off : Nat) : Option Nat :=
  let p := r.place
  if off < p.base then none
  else
    let d := off - p.base
    if p.perFn then (if d = 0 then some fn else none)
    else
      let a := if p.stride1 = 0 then 0 else d / p.stride1
      let d := d - a * p.stride1
      let b := if p.stride2 = 0 then 0 else d / p.stride2
      if a < p.count1 ∧ b < p.count2 ∧ d = b * p.stride2 then some (a * p.count2 + b) else none

/-- The register at an offset of BAR0, as a function sees it. -/
def regAt (fn off : Nat) : Option (RegName × Nat) := RegName.all.findSome? fun r => (r.copyAt fn off).map fun i => (r, i)

-- # Reach (R27, R61, R580, R613)

/-- What comes of a host access: it acts, it is ignored, or it is a blocked access. -/
inductive Reach where
  | go | ignore | blocked
deriving DecidableEq, Repr

/-- The register lies in HIF or BOOT. -/
def RegName.early (r : RegName) : Bool := decide (r.place.base < 0x10000) || decide (0x3800000 ≤ r.place.base)

/-- The register is read-only at S3: MEM, NUM, checkpoint and restore (Table 17-7). -/
def RegName.lateWrite (r : RegName) : Bool :=
  (decide (0x1000000 ≤ r.place.base) && decide (r.place.base < 0x1400000)) ||
    (decide (0x2000000 ≤ r.place.base) && decide (r.place.base < 0x2400000)) || r == .UPD_CKPT_ADDR || r == .UPD_CKPT_CTL

/-- The register is one of a queue pair's. -/
def RegName.ofQueue (r : RegName) : Bool := decide (0x200000 ≤ r.place.base) && decide (r.place.base < 0x400000)

/-- The register is one of a context's in QUE. -/
def RegName.ofCtxCfg (r : RegName) : Bool := decide (0x101000 ≤ r.place.base) && decide (r.place.base < 0x200000)

/-- The register is one of a context's in SYN or EXC. -/
def RegName.ofCtx (r : RegName) : Bool :=
  decide (0x400000 ≤ r.place.base) && decide (r.place.base < 0x1000000) && !r.place.perFn && r.place.count1 == 256

/-- The device answers accesses of a function: it is past S0, SCAN has not been opened (Table 16-8), and the
function exists (R59, R580). -/
def State.fnThere (s : State) (fn : Nat) : Bool := decide (0 < s.stage) && !s.secure.scanned && (fn == 0 || decide (fn ≤ s.vfs))

/-- What comes of a read or write of a function to a copy of a register. -/
def State.access (s : State) (write : Bool) (fn : Nat) (r : RegName) (i : Nat) : Reach :=
  if !s.fnThere fn then .ignore
  else if s.stage < 3 && !r.early then .ignore
  else if fn ≠ 0 ∧ 0x1000000 ≤ r.place.base then .blocked
  else if write && s.stage = 3 && r.lateWrite then .ignore
  else if r.ofCtx then (if s.ctxFn (i / r.place.count2) = fn then .go else .blocked)
  else if fn = 0 then .go
  else if r.ofCtxCfg then (if !write && s.ctxFn i == fn then .go else .blocked)
  else if r.ofQueue then
    match s.ctxOf i with
    | some n => if s.ctxOn n && s.ctxFn n == fn then .go else .blocked
    | none => .blocked
  else .go

/-- What comes of a write of a function to a copy of a register. -/
def State.reach (s : State) (fn : Nat) (r : RegName) (i : Nat) : Reach := s.access true fn r i

/-- A blocked access of a function to a register (R27). -/
def State.blockedReg (s : State) (fn : Nat) (r : RegName) (i : Nat) : State := s.blocked fn 0 (r.offset i)

/-- Let a write act where it reaches its register. -/
def State.reaching (s : State) (fn : Nat) (r : RegName) (i : Nat) (f : State → State) : State :=
  match s.reach fn r i with
  | .go => f s
  | .ignore => s
  | .blocked => s.blockedReg fn r i

-- # Stores (Table 0-4)

/-- A field of a register by its row. -/
def FieldRow.field (row : FieldRow) (r : RegName) : Field := ⟨r, row.lo, row.width⟩

/-- What a write leaves in one field's bits. -/
def FieldRow.write (row : FieldRow) (r : RegName) (h : Half) (old v : Word) : Nat :=
  let f := row.field r
  let now := f.of old
  match row.acc with
  | .rw => f.of (h.merge old v)
  | .rws => f.of (h.merge old v)
  | .w1c => now - Nat.land now (f.of (h.part v))
  | .w1s => Nat.lor now (f.of (h.part v))
  | .ro => now
  | .wo => now

/-- The value of a register after a write: each field under its access type. -/
def RegName.written (r : RegName) (h : Half) (old v : Word) : Word :=
  r.rows.foldl (fun w row => (row.field r).put w (row.write r h old v)) old

/-- Store a write into a register. -/
def State.writeReg (s : State) (r : RegName) (i : Nat) (h : Half) (v : Word) : State :=
  s.setReg r i (r.written h (s.reg r i) v)

/-- A one-bit field is set among the written bits. -/
def Field.hit (f : Field) (h : Half) (v : Word) : Bool := f.of (h.part v) != 0

-- # Staging (R86)

/-- The unit class of a staged register. EXC_STEP_CFG is staged in its YIELD_NS alone. -/
def RegName.stagedIn : RegName → Option EpochClass
  | .EXC_STEP_CFG => some .sori
  | .UPD_SHARD_BASE => some .base
  | .UPD_SHARD_COUNT => some .base
  | .UPD_NORM_CFG => some .base
  | .UPD_SKIP_CFG => some .base
  | .UPD_CROZ_BASE => some .base
  | .UPD_CROZ_BETA => some .base
  | .MEM_CACHE_CFG => some .base
  | .MEM_CAL_CFG => some .base
  | .PAIR_CTX => some .base
  | .PAIR_SAMP_BASE => some .base
  | .PAIR_SAMP_COUNT => some .base
  | .FAB_GRP_BASE => some .fabric
  | .FAB_GRP_COUNT => some .fabric
  | .XCH_CFG => some .exchange
  | .XCH_TIMING => some .exchange
  | .XCH_STALE => some .exchange
  | .XCH_OUTER => some .exchange
  | .XCH_LEDGER => some .exchange
  | .CIP_PAGE_CFG => some .exchange
  | .FAR_JOB => some .far
  | .FAR_PATH_BASE => some .far
  | .FAR_PATH_COUNT => some .far
  | .FAR_RTAB_BASE => some .far
  | .FAR_FWD_BASE => some .far
  | .FAR_FWD_COUNT => some .far
  | .PWR_CAP => some .power
  | _ => none

/-- The newest value written to a staged register: its staging copy, or the one that the newest epoch froze. -/
def State.stagingValue (s : State) (r : RegName) (i : Nat) : Word :=
  match NMap.get? s.staging (r.key i) with
  | some v => v
  | none =>
    match s.frozen.findSome? fun p => NMap.get? p.2 (r.key i) with
    | some v => v
    | none => s.reg r i

/-- A write to a staged register goes to its staging copy (R86). -/
def State.stageReg (s : State) (r : RegName) (i : Nat) (h : Half) (v : Word) : State :=
  { s with staging := NMap.set s.staging (r.key i) (r.written h (s.stagingValue r i) v) }

end Sys2Proof.Machine
end

