-- ==== Sys2Proof/Machine/Update.lean ====
section
/-! DEFINITION. The ends of the engines' passes (R286, R292, R298 to R300, R410, R411) and checkpoints with their restore (R309 to R313). -/

namespace Sys2Proof.Machine

-- # The ends of passes

/-- The elements that a shard's engines have kept for a value that is not finite, and the first of them (R300). -/
def State.keptOf (s : State) (ctx shard : Nat) : Nat × Nat :=
  let l := ((s.passOf ctx shard).map (·.2)).filter fun en => en.kept != 0
  ((l.map (·.kept)).foldl (· + ·) 0, ((l.map (·.first)).foldl (fun (a : Option Nat) i => some (a.elim i (min i))) none).getD 0)

/-- They are counted, and event 0x0604 names the first (R300). -/
def State.noteKept (s : State) (ctx shard : Nat) : State :=
  let (n, first) := s.keptOf ctx shard
  if n = 0 then s
  else
    let s := (s.bumpFld F.UPD_NONFINITE_TOTAL ctx n).bumpFld F.UPD_NONFINITE_STEP ctx n
    s.raise (.context ctx) 0x0604 2 shard (2 ^ 32 * n + first % 2 ^ 32)

/-- The digest of an updated shard (Table 7-5): MASTER, then EXT. -/
def State.updatedDigest (s : State) (x : Shard) : Nat :=
  crc64 (s.devRead (x.planeAddr 0) (4 * x.elems) ++ (if x.has 1 then s.devRead (x.planeAddr 1) x.elems else []))

/-- The intake pass ends: the shard's sum of squares is known (R286). -/
def State.endIntake (s : State) (ctx : Nat) (x : Shard) : State :=
  let sum := s.shardSum ctx x
  let s := s.modStep ctx fun p => { p with intakes := NMap.set p.intakes x.num sum }
  (s.countBlocks x).endPasses ctx x.num

/-- The sketch pass ends: the engines go on with the microprogram (R292, R299). -/
def State.endSketch (s : State) (en : Engine) (x : Shard) : State :=
  let (s, rinv) := s.sketchPass en.ctx x en
  ((s.countBlocks x).checkPlanes en.ctx x (passPlanes .program)).each (s.passOf en.ctx x.num) fun e s =>
    (s.setEngine e.1 { e.2 with kind := .program, rinv := BitVec.ofNat 32 rinv, done := false }).showBase (e.1 / 4)

/-- The elements of an engine's stack that are left of its microprogram run (R298). -/
def State.runRest (s : State) (k : Fin 48) (en : Engine) (x : Shard) : State × Engine :=
  if en.kind = .program then runElems k x (s.micro en.ctx x).words x.elems (s, en) else (s, en)

/-- The microprogram ends: the shard is updated, and its digests are taken (R298, R300, R501). -/
def State.endProgram (s : State) (ctx : Nat) (x : Shard) : State :=
  let s := s.noteKept ctx x.num
  let d := s.updatedDigest x
  let s := s.modStep ctx fun p => { p.setDigest x.num (fun o => (o.1, d)) with updated := x.num :: p.updated }
  let s := s.activityOut ctx 7
  let s := s.digested ctx x .update ((NMap.get? s.steps ctx).elim 0 (·.index))
  (s.countBlocks x).endPasses ctx x.num

/-- The form pass ends (R410, R413). -/
def State.endForm (s : State) (ctx : Nat) (x : Shard) : State :=
  match NMap.get? s.steps ctx with
  | none => s.endPasses ctx x.num
  | some p =>
    match s.lastOf ctx p.index with
    | none => s.endPasses ctx x.num
    | some r =>
      let s := (s.formPass ctx r p.index x).noteFormed ctx r
      ((s.activityOut ctx 7).countBlocks x).endPasses ctx x.num

-- # The values of a contribution (R432, R433)

/-- The values that a contribution gives an element: n × 2^x of its symbol (R432). -/
def symValue (lmax sym scale : Nat) : Num := Num.ofInt ((sym : Int) - lmax) ((scale : Int) - 127) false

/-- The soredia of a contribution for a shard. -/
def Xch.soredia (x : Xch) (site r shard : Nat) : List InSored :=
  x.inbound.filter fun y => y.site == site && y.round == r && y.shard == shard

/-- The value of an element in another site's contribution; an element that no soredium carries has none and counts as zero. -/
def contribValue (l : List InSored) (i : Nat) : Num :=
  match l.find? fun y => decide (y.first ≤ i) && decide (i < y.first + y.syms.length) with
  | some y => symValue (lmaxOf y.width) (y.syms.getD (i - y.first) (lmaxOf y.width)) (y.scales.getD (i / 256 - y.first / 256) 0)
  | Option.none => .fin false 0 0

/-- The soredia that a round's outgoing store has kept for a shard, decoded (R431). -/
def Round.decoded (q : Round) (x : Shard) : List InSored :=
  (q.out.filter fun y => y.shard == x.num).filterMap fun y => readSored y.bytes x.elems

/-- The values of one entry of the ledger for a shard, by element; a soredium says its own width (Table 12-1). The site's own contribution is
decoded from the outgoing soredia (R431). -/
def State.entryValue (s : State) (ctx : Nat) (x : Shard) (c : LedRec) : Nat → Num :=
  let q := s.xchOf ctx
  if c.site = s.xcfg F.XCH_CFG_SITE ctx then contribValue ((q.rounds.filter fun p => p.round == c.origin).flatMap fun p => p.decoded x)
  else contribValue (q.soredia c.site c.origin x.num)

/-- dlt of every element (R433): the tree over the entries. -/
def State.dlts (s : State) (ctx : Nat) (x : Shard) (e : Entry) : List Nat :=
  let fs := e.recs.map fun c => (c.omega, s.entryValue ctx x c)
  (List.range x.elems).map fun i => combineTree (fs.map fun f => roundF32 ((fp32.decode f.1).mul (f.2 i)).1)

/-- The dlt values that a device applies to a shard: an owner's own, a mirror's from the twin (R435, R498). -/
def State.dltFor (s : State) (ctx r : Nat) (x : Shard) : Option (List Nat) :=
  let q := s.xchOf ctx
  if s.owns x then (q.entries.find? fun e => e.round == r).map fun e => s.dlts ctx x e
  else (q.deltas.find? fun d => d.1 == x.num && d.2.1 == r).map (·.2.2)

/-- A fetch of a shard that has restarted three times and is in progress holds its apply pass, for at most 2 s (R447). -/
def Xch.holding (x : Xch) (shard now : Nat) : Bool :=
  x.serves.any fun v => v.shard == shard && decide (3 ≤ v.restarts) && !v.sent && v.held.any fun t => decide (now < t + 2 * sec)

/-- A shard of a round's apply pass takes its engines, once its dlt is here, no comparison of it runs, no checkpoint still has its planes to
write (R310), no fetch holds it (R447), and engines are idle. An owner sends its dlt to its twin first (R435). -/
def State.startApply (s : State) (ctx r : Nat) (x : Shard) : State :=
  if (s.dltFor ctx r x).isNone || (s.owns x && s.comparing ctx x.num) || s.ckptDue.contains ctx || (s.xchOf ctx).holding x.num s.now then s
  else match s.passEngines x none with
    | none => s
    | some ks =>
      let s := s.modXch ctx fun q => { q with passQueue := q.passQueue.filter (· != x.num) }
      let s := s.when (s.compared ctx x) fun s => s.postMir (.delta ctx x.num r ((s.dltFor ctx r x).getD []))
      s.startPasses ks ctx x .apply

/-- The shards that wait for their apply pass take the engines that are idle. -/
def State.startApplies (s : State) (ctx r : Nat) : State :=
  s.each (s.xchOf ctx).passQueue fun n s => match s.shard? ctx n with | some x => s.startApply ctx r x | none => s

/-- Apply passes of a round that waited begin, where one is being applied. -/
def State.goOnApplying (s : State) (ctx : Nat) : State :=
  match (s.xchOf ctx).applying with
  | some r => s.startApplies ctx r
  | none => s

/-- The apply passes of a round are complete. -/
def State.appliedAll (s : State) (ctx : Nat) : Bool :=
  let q := s.xchOf ctx
  (s.myExchanged ctx).all fun x => q.applied.contains x.num

/-- The apply pass ends; the last one of a round ends the round (R411, R433). -/
def State.endApply (s : State) (ctx : Nat) (x : Shard) : State :=
  match (s.xchOf ctx).applying with
  | none => s.endPasses ctx x.num
  | some r =>
    let step := ((s.launches.find? fun l => l.ctx == ctx && l.isStep && !l.opened).map (·.step)).getD (s.fld F.EXC_STEP_INDEX_STEP ctx)
    let s := s.applyPass ctx r step x ((s.dltFor ctx r x).getD [])
    let s := s.modXch ctx fun q => { q with applied := x.num :: q.applied }
    let s := ((s.countBlocks x).endPasses ctx x.num).startApplies ctx r
    if s.appliedAll ctx then s.roundApplied ctx r else s

/-- The pass of a shard is over on every engine that it has. -/
def State.endShard (s : State) (en : Engine) (x : Shard) : State :=
  match en.kind with
  | .intake => s.endIntake en.ctx x
  | .sketch => s.endSketch en x
  | .program => s.endProgram en.ctx x
  | .form => s.endForm en.ctx x
  | .apply => s.endApply en.ctx x
  | .copy => s
  | .restore => s

/-- An engine has gone over the blocks of its stack. -/
def State.partDone (s : State) (k : Fin 48) (en : Engine) (x : Shard) : State :=
  let r := s.runRest k en x
  r.1.setEngine k { r.2 with done := true }

/-- ENGINE_PASS_COMPLETE: an engine's pass has gone over the blocks of a shard that lie in its stack; the last of the shard's engines ends the
pass (R277, R299, R325). -/
def execEnginePassComplete (eng : Fin 48) (s : State) : Answer :=
  match NMap.get? s.engines eng with
  | none => .next s
  | some en =>
    match s.shard? en.ctx en.shard with
    | none => .next (s.endPass eng)
    | some x =>
      if en.done then .next s
      else if en.kind = .copy ∨ en.kind = .restore then .next ((s.endPass eng).startIntakes)
      else
        let s := s.partDone eng en x
        if (s.passOf en.ctx x.num).all fun e => e.2.done then .next (s.endShard en x) else .next s

/-- A step's update of a shard is over: it has run, or the step is skipped (R410). -/
def Step.updateOver (p : Step) (n : Nat) : Bool := p.updated.contains n || p.decision.any fun d => d.reason != 0

/-- FORM_PASS: an idle engine of a stack that holds blocks of a shard, with one of each other such stack, begins the form pass of an
exchanged shard after its update in a round's last step (R410); an activation holds it (R530), and an orphan hold where its round has not
begun to form (Table 15-6a). -/
def execFormPass (eng : Fin 48) (ctx : Fin 256) (shard : BitVec 24) (s : State) : Answer :=
  match NMap.get? s.steps ctx, s.shard? ctx shard.toNat with
  | some p, some x =>
    match s.lastOf ctx p.index with
    | some r =>
      let q := s.xchOf ctx
      let formed := (q.round? r s.deviceId).any fun v => v.formed.contains x.num
      let runs := s.engines.any fun e => e.2.ctx == ctx.val && e.2.shard == x.num
      if x.exchanged && (s.owns x || s.mirrors x) && p.updateOver x.num && !formed && !runs && q.fresh != some r && s.xmode ctx != 3
          && !(s.owns x && s.comparing ctx x.num) && !s.ckptDue.contains ctx.val && !s.quiesce
          && (s.fld F.HIF_STATUS_DRIVER 0 != 2 || (q.round? r s.deviceId).isSome) then
        match s.passEngines x (some eng) with
        | some ks =>
          let s := s.when (s.mirrors x) fun s => s.settleMirror ctx x
          .next (((s.openRound ctx r).startPasses ks ctx x .form).activityIn ctx 7)
        | none => .next s
      else .next s
    | none => .next s
  | _, _ => .next s

-- # Checkpoints (R309, R310)

/-- A write that sets UPD_CKPT_CTL.GO (R309). -/
def State.ckptGo (s : State) (ctx : Nat) : State :=
  if s.ckptBusy ctx then s.setFld F.UPD_CKPT_STATUS_OVERRUN ctx 1
  else
    let s := s.setFld F.UPD_CKPT_CTL_GO ctx 1
    if (NMap.get? s.steps ctx).isSome then (s.setFld F.UPD_CKPT_STATUS_STATE ctx 1).setFld F.UPD_CKPT_STATUS_REASON ctx 0
    else s.ckptPoint ctx

/-- CHECKPOINT_WRITE: the image of the logical point is written, or is found too long; apply passes that waited for it start (R310). -/
def execCheckpointWrite (ctx : Fin 256) (s : State) : Answer :=
  if s.fld F.UPD_CKPT_STATUS_STATE ctx = 2 ∧ s.ckptDue.contains ctx.val then
    let img := NMap.getD s.ckptImages ctx []
    let s := { s with ckptDue := s.ckptDue.filter (· != ctx.val), ckptImages := NMap.erase s.ckptImages ctx }
    let s := (s.setFld F.UPD_CKPT_STATUS_MIB ctx (mibOf img.length)).endCopies ctx .copy
    let s := if 1048576 * s.fld F.UPD_CKPT_CTL_LEN_MIB ctx < img.length then s.setFld F.UPD_CKPT_STATUS_REASON ctx 5
      else s.spaceWrite (s.fld F.UPD_CKPT_ADDR_SPACE ctx) (4096 * s.fld F.UPD_CKPT_ADDR_ADDR ctx) img
    .next (s.goOnApplying ctx)
  else .next s

/-- CHECKPOINT_DONE: event 0x0605, or 0x0606 with the reason (R310). -/
def execCheckpointDone (ctx : Fin 256) (s : State) : Answer :=
  if s.fld F.UPD_CKPT_STATUS_STATE ctx = 2 ∧ ¬ s.ckptDue.contains ctx.val then
    let s := s.setFld F.UPD_CKPT_CTL_GO ctx 0
    let why := s.fld F.UPD_CKPT_STATUS_REASON ctx
    if why = 0 then .next ((s.setFld F.UPD_CKPT_STATUS_STATE ctx 3).raise (.context ctx) 0x0605 0 0 (s.fld F.UPD_CKPT_STATUS_MIB ctx))
    else .next ((s.setFld F.UPD_CKPT_STATUS_STATE ctx 4).raise (.context ctx) 0x0606 2 0 why)
  else .next s

-- # Restore (R311 to R313, R449, R563)

/-- The image at UPD_CKPT_ADDR, as far as its TOTAL. -/
def State.storedImage (s : State) (ctx : Nat) : List Byte :=
  let sp := s.fld F.UPD_CKPT_ADDR_SPACE ctx
  let a := 4096 * s.fld F.UPD_CKPT_ADDR_ADDR ctx
  s.spaceRead sp a (leNat (s.spaceRead sp (a + 48) 8))

/-- A section of an image by its type. -/
def imagePart (img : List Byte) (ty : Nat) : Option (List Byte) :=
  let row (i : Nat) := (img.drop (56 + 16 * i)).take 16
  ((List.range 4).find? fun i => leNat ((row i).drop 14) == ty).map fun i =>
    (img.drop (leNat ((row i).take 8))).take (leNat (((row i).drop 8).take 6))

/-- A section ends in the CRC-64 of what precedes it. -/
def crcGood (bs : List Byte) : Bool := decide (8 ≤ bs.length) && leNat (bs.drop (bs.length - 8)) == crc64 (bs.take (bs.length - 8))

/-- A shard record: its entry, and its planes with the CRCs that the record states for them. -/
structure ShardRec where
  entry  : List Byte
  num    : Nat
  elems  : Nat
  planes : Nat
  flags  : Nat
  data   : List (Nat × List Byte × Nat)
deriving DecidableEq, Repr

/-- The entry of a record as a shard. -/
def recShard (e : List Byte) : Shard :=
  let f (o n : Nat) := leNat ((e.drop o).take n)
  ⟨0, f 0 4, f 4 4, f 8 8, f 16 4, f 20 2, f 22 2, f 24 1, f 25 1, f 26 2, f 28 1, f 32 4, f 36 4, f 40 8, f 48 8⟩

/-- The planes of a record, one after another. -/
def recPlanes (x : Shard) (crc : Nat → Nat) : List Nat → List Byte → List (Nat × List Byte × Nat)
  | [], _ => []
  | q :: rest, bs => (q, bs.take (x.planeSize q), crc q) :: recPlanes x crc rest (bs.drop (4096 * ceilDiv (x.planeSize q) 4096))

/-- The records of a SHARDS section. -/
def recsFrom : Nat → List Byte → List ShardRec
  | 0, _ => []
  | n + 1, bs =>
    let x := recShard (bs.take 64)
    let crc (q : Nat) := leNat ((bs.drop (64 + 16 * q + 8)).take 8)
    let len := 320 + (x.savedPlanes.map fun q => 4096 * ceilDiv (x.planeSize q) 4096).foldl (· + ·) 0
    ⟨bs.take 64, x.num, x.elems, x.planes, x.flags, recPlanes x crc x.savedPlanes (bs.drop 320)⟩ :: recsFrom n (bs.drop len)

/-- The shard records of an image. -/
def imageRecs (img : List Byte) : List ShardRec :=
  recsFrom (leNat ((img.drop 44).take 4)) ((imagePart img 1).getD [])

/-- A record's CRCs hold. -/
def ShardRec.good (r : ShardRec) : Bool :=
  leNat (r.entry.drop 60) == crc32c (r.entry.take 60) && r.data.all fun d => crc64 d.2.1 == d.2.2

/-- The records that a device restores: those its table lists with it as owner or twin. -/
def State.recsHere (s : State) (ctx : Nat) (img : List Byte) : List (ShardRec × Shard) :=
  (imageRecs img).filterMap fun r =>
    match s.shard? ctx r.num with
    | some x => if x.owner == s.deviceId || x.twin == s.deviceId then some (r, x) else none
    | none => none

/-- Why an image is refused; 0 is no reason (R311). -/
def State.restoreError (s : State) (ctx : Nat) (img : List Byte) : Nat :=
  let outer := match imagePart img 4 with | some b => crcGood b | none => true
  let croz := match imagePart img 2 with | some b => crcGood b | none => false
  if leNat ((img.drop 4).take 2) ≠ 1 then 7
  else if !crcGood (img.take 128) || !croz || !outer || !((imageRecs img).all ShardRec.good) then 1
  else if leNat ((img.drop 16).take 8) ≠ s.fld F.NUM_JOB_SEED_SEED ctx then 2
  else if (s.recsHere ctx img).any fun p => p.1.elems != p.2.elems || p.1.planes != p.2.planes || p.1.flags % 4 != p.2.flags % 4 then 3
  else 0

/-- A restore is refused. -/
def State.restoreRefused (s : State) (ctx why : Nat) : State :=
  let s := (s.setFld F.UPD_CKPT_STATUS_STATE ctx 7).setFld F.UPD_CKPT_STATUS_REASON ctx why
  s.raise (.context ctx) 0x0608 2 0 why

/-- A write that sets UPD_CKPT_CTL.RESTORE: refused, or the image is verified and will be restored (R311). While another is in progress
the write is a refusal with reason 6 that leaves what is in progress. -/
def State.ckptRestore (s : State) (ctx : Nat) : State :=
  if s.ckptBusy ctx then (s.setFld F.UPD_CKPT_STATUS_OVERRUN ctx 1).raise (.context ctx) 0x0608 2 0 6
  else if (NMap.get? s.steps ctx).isSome then s.restoreRefused ctx 4
  else
    let s := s.spaceTouch (s.fld F.UPD_CKPT_ADDR_SPACE ctx) (4096 * s.fld F.UPD_CKPT_ADDR_ADDR ctx) (s.storedImage ctx).length
    let e := s.restoreError ctx (s.storedImage ctx)
    if e ≠ 0 then s.restoreRefused ctx e
    else
      let l := (s.recsHere ctx (s.storedImage ctx)).map (·.2)
      let s := (s.setFld F.UPD_CKPT_CTL_RESTORE ctx 1).setFld F.UPD_CKPT_STATUS_REASON ctx 0
      (s.setFld F.UPD_CKPT_STATUS_STATE ctx 5).startCopies ctx .restore l

/-- A write to UPD_CKPT_CTL: LEN_MIB is stored, then GO or RESTORE acts. -/
def State.writeCkptCtl (s : State) (fn ctx : Nat) (h : Half) (v : Word) : State :=
  s.reaching fn .UPD_CKPT_CTL ctx fun s =>
    let len := F.UPD_CKPT_CTL_LEN_MIB.of (RegName.UPD_CKPT_CTL.written h (s.reg .UPD_CKPT_CTL ctx) v)
    let s := s.setFld F.UPD_CKPT_CTL_LEN_MIB ctx len
    let s := s.when (F.UPD_CKPT_CTL_GO.hit h v && s.fld F.HIF_STATUS_DRIVER 0 != 2) fun s => s.ckptGo ctx
    s.when (F.UPD_CKPT_CTL_RESTORE.hit h v) fun s => s.ckptRestore ctx

/-- CHECKPOINT_GO. -/
def execCheckpointGo (fn : Fin 64) (ctx : Fin 256) (s : State) : Answer :=
  .next (s.writeCkptCtl fn ctx .high (F.UPD_CKPT_CTL_GO.put 0#64 1))

/-- RESTORE. -/
def execRestore (fn : Fin 64) (ctx : Fin 256) (s : State) : Answer :=
  .next (s.writeCkptCtl fn ctx .high (F.UPD_CKPT_CTL_RESTORE.put 0#64 1))

/-- The descriptors and scale entries of an image are written as saved, or every tracked tensor is cold (R313). -/
def State.restoreScale (s : State) (ctx : Nat) (img : List Byte) : State :=
  let n := 192 * s.fld F.NUM_TENSOR_COUNT_COUNT ctx
  match imagePart img 3 with
  | some b =>
    if crcGood b then
      let s := s.devWrite (s.descAddr ctx 0) (b.take (min n (b.length - 8)))
      ((s.trackedAll ctx).foldl (fun (a : State × List Byte) t =>
        let m := 32 * a.1.blocks ctx t
        (a.1.devWrite (a.1.desc ctx t 16 8) (a.2.take m), a.2.drop m)) (s, (b.take (b.length - 8)).drop n)).1
    else s.each (s.trackedAll ctx) fun t s => s.chillAll ctx t
  | none => s.each (s.trackedAll ctx) fun t s => s.chillAll ctx t

/-- The outer state of an image: the rounds and the state as saved, with MODE OFF (R449). -/
def State.restoreOuter (s : State) (ctx : Nat) (img : List Byte) : State :=
  match imagePart img 4 with
  | none => s
  | some b =>
    let f (o n : Nat) := leNat ((b.drop o).take n)
    let s := (s.setFld F.XCH_ROUND_LAST_FORMED ctx (f 0 4)).setFld F.XCH_ROUND_LAST_APPLIED ctx (f 4 4)
    let s := (s.setFld F.XCH_STATE_EPOCH ctx (f 8 4)).setFld F.XCH_STATE_TOKEN_SITE ctx (f 12 1)
    let s := (s.setFld F.XCH_STATE_HOLDER ctx (b2n (f 12 1 == s.xcfg F.XCH_CFG_SITE ctx))).setFld F.XCH_STATE_MODE ctx 0
    (s.setFld F.XCH_STATE_PROV_ROUNDS ctx (f 16 4)).setXch ctx Xch.none

/-- One shard record is restored, with its working copy and its digests. -/
def State.restoreShard (s : State) (ctx step : Nat) (r : ShardRec) (x : Shard) : State :=
  let s := s.each r.data fun d s => s.devWrite (x.planeAddr d.1) d.2.1
  (s.derive x).digested ctx x .restore step

/-- RESTORE_DONE: the verified image is written (R312, R313). -/
def execRestoreDone (ctx : Fin 256) (s : State) : Answer :=
  if s.fld F.UPD_CKPT_STATUS_STATE ctx ≠ 5 then .next s
  else
    let s := s.spaceTouch (s.fld F.UPD_CKPT_ADDR_SPACE ctx) (4096 * s.fld F.UPD_CKPT_ADDR_ADDR ctx) (s.storedImage ctx).length
    let img := s.storedImage ctx
    let f (o n : Nat) := leNat ((img.drop o).take n)
    let recs := s.recsHere ctx img
    let s := s.each recs fun r s => s.restoreShard ctx (f 8 8) r.1 r.2
    let s := s.each (s.shards ctx) fun x s =>
      s.when (!(s.owns x || s.mirrors x)) fun s => s.setShardFlags x (x.flags ||| 4)
    let s := (s.setFld F.UPD_CROZ_T_T ctx (f 24 8)).setFld F.UPD_CROZ_P_P1 ctx (f 32 4)
    let s := s.setFld F.UPD_CROZ_P_P2 ctx (f 36 4)
    let base := s.crozBase ctx
    let s := (s.devWrite base (((imagePart img 2).getD []).take 1088)).crozValidate ctx base base
    let s := (s.restoreScale ctx img).restoreOuter ctx img
    let s := (s.setFld F.CIP_PAGE_GUARD_SEQ ctx s.loadSeq).setFld F.CIP_PAGE_GUARD_ACTIVE ctx 1
    let s := ((s.setFld F.UPD_CKPT_STATUS_STATE ctx 6).setFld F.UPD_CKPT_CTL_RESTORE ctx 0).endCopies ctx .restore
    .next (s.raise (.context ctx) 0x0607 0 0 recs.length)

/-- A write to EXC_REPLAY_CTL (R270). -/
def State.writeReplayCtl (s : State) (fn ctx : Nat) (h : Half) (v : Word) : State :=
  s.reaching fn .EXC_REPLAY_CTL ctx fun s => s.writeReg .EXC_REPLAY_CTL ctx h v

/-- REPLAY_ARM: the next launch of a step program is a replay (R270). -/
def execReplayArm (fn : Fin 64) (ctx : Fin 256) (s : State) : Answer :=
  .next (s.writeReplayCtl fn ctx .whole (F.EXC_REPLAY_CTL_ARM.put (s.reg .EXC_REPLAY_CTL ctx) 1))

end Sys2Proof.Machine
end

