-- ==== Sys2Proof/Machine/Exchange.lean ====
section
/-! DEFINITION. The exchange of a context's outer rounds: coding and sending (R418 to R426, R459, R462, R483, R484, R489), receiving and
refetching (R425, R431, R432, R485 to R488), the ledger and the token (R436 to R443), heals and joins (R444 to R449), and the apply of a
round (R411). -/

namespace Sys2Proof.Machine

-- # Routes and the outgoing queue (R459, R462)

/-- Where the route table has the gateways to a site (R459). -/
def State.routeEntry (s : State) (ctx site : Nat) : Nat := s.stagedFld F.FAR_RTAB_BASE_ADDR ctx .far * 64 + 8 * site

/-- The exchange engine reads the route of a site: an access of the stack caches, and one outside the memory map where nothing backs the table
(R328, R329). -/
def State.readRoute (s : State) (ctx site : Nat) : State :=
  (s.reachMemory 5 (some ctx) (s.routeEntry ctx site) 8).touch (s.routeEntry ctx site) 8

/-- The gateway toward a site: GW0, or GW1 while GW0 has no path; none while neither has one. -/
def State.gatewayTo (s : State) (ctx site : Nat) : Option Nat :=
  let a := s.routeEntry ctx site
  let open_ (g : Nat) : Bool := g != 0xFFFF && !(s.xchOf ctx).noPath.contains (g, site)
  ([s.devNat a 2, s.devNat (a + 2) 2]).find? open_

/-- The gateway that a waiting item goes through: the one that it is bound to, or the one toward its site. -/
def State.gatewayOf (s : State) (ctx : Nat) (x : OutItem) : Option Nat := x.via.orElse fun _ => s.gatewayTo ctx x.site

/-- A waiting item goes through a gateway. -/
def State.goesBy (s : State) (ctx gw : Nat) (x : OutItem) : Bool := s.gatewayOf ctx x == some gw

/-- The segments that an item takes, and so the credits (R457, R462, R482). -/
def Item.segments (x : Item) : Nat :=
  match x with
  | .sored .. => 1
  | .msg _ _ _ body => max 1 (ceilDiv body.length 8944)

/-- A gateway has taken an item: the round of a soredium keeps which it was, for the seal that follows (R484). -/
def Xch.noteVia (q : Xch) (gw : Nat) (x : OutItem) : Xch :=
  match x.item with
  | .sored src r _ _ => if x.rep then q else q.modRound r src fun p => { p with via := NMap.set p.via x.site gw }
  | .msg _ _ _ _ => q

/-- The first item that waits for a gateway. -/
def State.firstFor (s : State) (ctx gw : Nat) : Option (Nat × OutItem) :=
  let l := (s.xchOf ctx).outQueue
  (l.findIdx? (s.goesBy ctx gw)).bind fun i => (l[i]?).map fun x => (i, x)

/-- What a gateway has given credits for goes, in order; after a device-fatal fault nothing goes (R47, R462). The fuel is the number of items
that wait. -/
def State.sendCredited (s : State) (ctx gw : Nat) : Nat → State
  | 0 => s
  | n + 1 =>
    match s.firstFor ctx gw with
    | none => s
    | some (i, x) =>
      let q := s.xchOf ctx
      let c := NMap.getD q.credits gw 0
      if s.flag F.HIF_STATUS_FATAL 0 || decide (c < x.item.segments) then s
      else
        let q := { q with outQueue := q.outQueue.eraseIdx i, credits := NMap.set q.credits gw (c - x.item.segments) }
        State.sendCredited ((s.setXch ctx (q.noteVia gw x)).post [gw] (.item ctx gw x.site x.rep x.item)) ctx gw n

/-- Send what the credits of a gateway allow. -/
def State.flushTo (s : State) (ctx gw : Nat) : State := s.sendCredited ctx gw (s.xchOf ctx).outQueue.length

/-- Put an item in the outgoing queue of a context; it goes at once where its gateway has given the credits (R462). -/
def State.queueItem (s : State) (ctx : Nat) (x : OutItem) : State :=
  let s := s.readRoute ctx x.site
  let s := s.modXch ctx fun q => { q with outQueue := q.outQueue ++ [x] }
  match s.gatewayOf ctx x with
  | some gw => s.flushTo ctx gw
  | none => s

/-- Put a message for a device of a site in the outgoing queue. -/
def State.queueMsg (s : State) (ctx site kind dst : Nat) (body : List Byte) : State :=
  s.queueItem ctx ⟨site, false, .msg kind s.deviceId dst body, none⟩

/-- GATEWAY_CREDIT: a credit of one segment lets the first item that waits for the gateway go once its segments all have one. -/
def execGatewayCredit (ctx : Fin 256) (gw : BitVec 16) (s : State) : Answer :=
  let s := s.modXch ctx fun q => { q with credits := NMap.update q.credits gw.toNat 0 (· + 1) }
  .next (s.flushTo ctx gw.toNat)

/-- PATH_ANNOUNCE: a gateway tells its site whether it has an UP path to a remote site; what waits may have another gateway now. -/
def execPathAnnounce (ctx : Fin 256) (gw : BitVec 16) (site : Fin 64) (up : Bool) (s : State) : Answer :=
  let s := s.modXch ctx fun q =>
    let l := q.noPath.filter (· != (gw.toNat, site.val))
    { q with noPath := if up then l else (gw.toNat, site.val) :: l }
  .next (s.each ((s.xchOf ctx).credits.map (·.1)) fun k s => s.flushTo ctx k)

/-- A list without its repeats, the first of each kept. -/
def distinct : List Nat → List Nat
  | [] => []
  | a :: l => a :: (distinct l).filter (· != a)

-- # The ledger device's books (R436 to R438)

/-- This device is its site's ledger device. -/
def State.isLedger (s : State) (ctx : Nat) : Bool := s.ledgerId ctx == s.deviceId

/-- This device's site. -/
def State.ownSite (s : State) (ctx : Nat) : Nat := s.xcfg F.XCH_CFG_SITE ctx

/-- The owners of the site's exchanged shards. -/
def State.siteOwners (s : State) (ctx : Nat) : List Nat := distinct (((s.shards ctx).filter Shard.exchanged).map fun x => s.standIn ctx x.owner)

/-- The kind of a contribution as this device can tell it: 3 a joiner's, 2 a heal's, else 0. -/
def State.kindHere (s : State) (ctx site r : Nat) : Nat :=
  let x := s.xchOf ctx
  let own := x.rounds.find? fun q => q.round == r && site == s.ownSite ctx
  if (x.seals.any fun z => z.site == site && z.round == r && z.join) || own.any (·.join) then 3
  else if (x.inbound.any fun y => y.site == site && y.round == r && y.heal) || own.any (·.heal) then 2
  else 0

/-- Every owner of the site has reported a contribution; a joiner's needs its seal alone. -/
def State.siteHasIt (s : State) (ctx : Nat) (p : Nat × Nat) : Bool :=
  let x := s.xchOf ctx
  (x.seals.any fun z => z.site == p.1 && z.round == p.2 && z.join) || (s.siteOwners ctx).all fun d => x.owners.contains (d, p.1, p.2)

/-- The contributions that the site holds complete: site, kind, origin round. -/
def State.siteHolds (s : State) (ctx : Nat) : List (Nat × Nat × Nat) :=
  let x := s.xchOf ctx
  let ps := (x.owners.map (·.2) ++ (x.seals.filter (·.join)).map fun z => (z.site, z.round)).foldl
    (fun (l : List (Nat × Nat)) p => if l.contains p then l else l ++ [p]) []
  (ps.filter (s.siteHasIt ctx)).map fun p => (p.1, s.kindHere ctx p.1 p.2, p.2)

/-- The sample count of a round at this site (R436). -/
def State.samplesOf (s : State) (ctx r : Nat) : Nat := NMap.getD (s.xchOf ctx).samples r 0

/-- The report of the site: its sample count of the round last formed, and what it holds. -/
def State.siteReport (s : State) (ctx : Nat) : SiteReport :=
  let r := s.fld F.XCH_ROUND_LAST_FORMED ctx
  ⟨s.ownSite ctx, r, s.samplesOf ctx r, s.siteHolds ctx⟩

/-- The body of a SITE_REPORT (Table 13-8). -/
def SiteReport.body (p : SiteReport) : List Byte :=
  beBytes 1 p.site ++ beBytes 1 0 ++ beBytes 2 p.holds.length ++ beBytes 4 p.round ++ beBytes 8 p.samples ++
    p.holds.flatMap fun h => beBytes 1 h.1 ++ beBytes 1 h.2.1 ++ beBytes 2 0 ++ beBytes 4 h.2.2

/-- Read such a body. -/
def readReport (b : List Byte) : SiteReport :=
  ⟨beAt b 0 1, beAt b 4 4, beAt b 8 8,
    (List.range (beAt b 2 2)).map fun i => (beAt b (16 + 8 * i) 1, beAt b (17 + 8 * i) 1, beAt b (20 + 8 * i) 4)⟩

/-- Keep a report in front, in place of one of the same site and round. -/
def Xch.takeReport (x : Xch) (p : SiteReport) : Xch :=
  { x with sites := p :: x.sites.filter fun q => !(q.site == p.site && q.round == p.round) }

/-- The site whose ledger device closes this site's rounds (R438, R442). -/
def State.closer (s : State) (ctx : Nat) : Nat :=
  if s.xmode ctx = 2 then
    let own := s.ownSite ctx
    ((s.xchOf ctx).provSites.filter fun k => k == own || (s.gatewayTo ctx k).isSome).foldl min own
  else s.fld F.XCH_STATE_TOKEN_SITE ctx

-- # Weights and entries (R437, R439, Table 12-2)

/-- n × gamma^s. -/
def weightOf (gamma : Num) (n : Nat) : Nat → Num
  | 0 => Num.ofInt n 0 false
  | k + 1 => ((weightOf gamma n k).mul gamma).1

/-- The weights of a list of values: each over their sum, rounded once. -/
def omegas (ws : List Num) : List Nat :=
  let q := (ws.map Num.exp).foldl min 0
  let is := ws.map fun w => (w.at q).toNat
  let d := total is
  is.map fun n => if d = 0 then 0 else canon (fp32.encodeQuot false n d 0)

/-- The CRC that PARAMS holds for a round: over XCH_OUTER as this device has formed the round with it, or has it in force (R409, R439). -/
def State.ownParams (s : State) (ctx r : Nat) : Nat :=
  crc32c (leBytes 8 (((s.xchOf ctx).round? r s.deviceId).elim (s.staged .XCH_OUTER ctx .exchange 0).toNat (·.outer)))

/-- The bytes of an entry. -/
def Entry.bytes (e : Entry) : List Byte :=
  let head := leBytes 4 0x4C345843 ++ leBytes 2 1 ++ leBytes 2 e.recs.length ++ leBytes 4 e.round ++ leBytes 4 e.epoch ++ leBytes 1 e.holder ++
    leBytes 1 e.next ++ leBytes 1 (b2n e.prov) ++ leBytes 1 0 ++ leBytes 8 e.absent ++ leBytes 4 e.params ++ leBytes 4 0
  let recs := e.recs.flatMap fun c =>
    leBytes 1 c.site ++ leBytes 1 c.kind ++ leBytes 2 c.stale ++ leBytes 4 c.origin ++ leBytes 4 c.samples ++ leBytes 4 c.omega
  head ++ leBytes 4 (crc32c (head ++ recs)) ++ recs

/-- Read an entry; none where its magic, version, length or CRC is wrong. -/
def readEntry (b : List Byte) : Option Entry :=
  let f (o n : Nat) := leNat ((b.drop o).take n)
  let n := f 6 2
  if f 0 4 ≠ 0x4C345843 ∨ f 4 2 ≠ 1 ∨ b.length ≠ 40 + 16 * n ∨ f 36 4 ≠ crc32c (b.take 36 ++ b.drop 40) then none
  else some ⟨f 8 4, f 12 4, f 16 1, f 17 1, (f 18 1).testBit 0, f 20 8, f 28 4,
    (List.range n).map fun i => let o := 40 + 16 * i; ⟨f o 1, f (o + 1) 1, f (o + 2) 2, f (o + 4) 4, f (o + 8) 4, f (o + 12) 4⟩⟩

/-- The sites whose report of a round has come; one that has formed none yet reports no round (R439). -/
def Xch.present (x : Xch) (r : Nat) : List Nat := distinct ((x.sites.filter fun p => (roundField p.round).any fun n => decide (r ≤ n)).map (·.site))

/-- The newest report of a site. -/
def Xch.newest (x : Xch) (site : Nat) : List (Nat × Nat × Nat) := ((x.sites.find? fun p => p.site == site).map (·.holds)).getD []

/-- Every present site holds a contribution, under whatever kind. -/
def Xch.allHold (x : Xch) (present : List Nat) (p : Nat × Nat) : Bool :=
  present.all fun k => (x.newest k).any fun h => h.1 == p.1 && h.2.2 == p.2

/-- The kind that the reports give a contribution. -/
def Xch.kindOf (x : Xch) (p : Nat × Nat) : Nat :=
  (x.sites.flatMap (·.holds)).foldl (fun k h => if h.1 = p.1 ∧ h.2.2 = p.2 then max k h.2.1 else k) 0

/-- The sites that are not absent from an entry of a round: the holder takes a provisional site as absent (R439, R443). -/
def State.presentSites (s : State) (ctx r : Nat) (prov : Bool) : List Nat :=
  let x := s.xchOf ctx
  (x.present r).filter fun k => prov || k == s.ownSite ctx || !x.provSites.contains k

/-- A contribution of a provisional site is provisional: what a provisional entry has listed, what comes from a site that stands so, and what
precedes a site's heal (R443). -/
def Xch.provisional (x : Xch) (p : Nat × Nat) : Bool :=
  x.provRecs.contains p || x.provSites.contains p.1 || (NMap.get? x.healed p.1).any fun o => decide (p.2 < o)

/-- The contributions that an entry of a round includes, in ascending site and origin: site, kind, staleness, origin, samples. -/
def State.included (s : State) (ctx r : Nat) (prov : Bool) : List (Nat × Nat × Nat × Nat × Nat) :=
  let x := s.xchOf ctx
  let m := s.roundCfg F.XCH_STALE_S_MAX ctx r
  let present := s.presentSites ctx r prov
  let used := x.entries.flatMap fun e => e.recs.map fun c => (c.site, c.origin)
  let cands := ((present.flatMap fun k => (x.newest k).map fun h => (h.1, h.2.2)).foldl (fun (l : List (Nat × Nat)) p =>
    if l.contains p then l else l ++ [p]) []).filter fun p =>
      let kind := x.kindOf p
      decide (p.2 ≤ r) && (decide (r ≤ p.2 + m) || kind == 2) && !x.gone.contains p && !used.contains p && x.allHold present p
        && (prov || kind == 2 || kind == 3 || p.1 == s.ownSite ctx || !x.provisional p)
  (cands.foldl (fun l p => insertNum (2 ^ 32 * p.1 + p.2, p) l) []).map fun e =>
    let p := e.2
    let kind := x.kindOf p
    let n := if kind = 3 then 0 else ((x.sites.find? fun q => q.site == p.1 && q.round == p.2).map (·.samples)).getD 0
    let k := if kind = 2 ∨ kind = 3 then kind else if p.2 = r then 0 else 1
    (p.1, k, (if kind = 2 then m else if kind = 3 then 0 else r - p.2), p.2, n)

/-- The entry of a round as this ledger device closes it. -/
def State.closeEntry (s : State) (ctx r : Nat) : Entry :=
  let x := s.xchOf ctx
  let prov := s.xmode ctx == 2
  let l := s.included ctx r prov
  let gamma := fp32.decode (s.roundCfg F.XCH_STALE_GAMMA ctx r)
  let ws := omegas (l.map fun c => weightOf gamma c.2.2.2.2 c.2.2.1)
  let absent := ((List.range (s.xcfg F.XCH_CFG_SITES_M1 ctx + 1)).filter fun k => !(s.presentSites ctx r prov).contains k).foldl (fun a k => a + 2 ^ k) 0
  ⟨r, s.fld F.XCH_STATE_EPOCH ctx, s.ownSite ctx, (if prov then 0xFF else x.handTo.getD 0xFF), prov, absent, s.ownParams ctx r,
    (l.zip ws).map fun p => ⟨p.1.1, p.1.2.1, p.1.2.2.1, p.1.2.2.2.1, min p.1.2.2.2.2 0xFFFFFFFF, p.2⟩⟩

-- # Heals and joins begin (R444 to R446, R448)

/-- Ask the holder's site for the manifests of every exchanged shard that the device owns or mirrors. -/
def State.fetchAll (s : State) (ctx mode : Nat) : State :=
  let l := s.myExchanged ctx
  let s := s.modXch ctx fun x => { x with
    snapFor := some mode
    snaps := l.map fun h => ⟨h.num, none, none, none, [], []⟩ }
  s.each l fun h s =>
    s.queueMsg ctx (s.fld F.XCH_STATE_TOKEN_SITE ctx) 6 0xFFFF (beBytes 4 h.num ++ beBytes 4 0xFFFFFFFF ++ beBytes 4 0 ++ beBytes 4 0)

/-- A provisional side has met the canonical one: it heals, or joins late (R444, R445). A provisional entry whose passes run is applied to its
end; the snapshots take the place of those after it. -/
def State.heal (s : State) (ctx holder : Nat) : State :=
  let n := s.fld F.XCH_STATE_PROV_ROUNDS ctx
  let s := s.modXch ctx fun x => { x with
    entries := x.entries.filter fun e => !e.prov || x.applying == some e.round, provSites := [] }
  if n ≤ 16 then
    ((s.setFld F.XCH_STATE_MODE ctx 4).modXch ctx fun x => { x with healNext := true }).fetchAll ctx 4
  else ((s.raise (.context ctx) 0x0708 2 holder n).setFld F.XCH_STATE_MODE ctx 3).fetchAll ctx 3

/-- The token stands at a site. -/
def State.setToken (s : State) (ctx site : Nat) : State :=
  (s.setFld F.XCH_STATE_TOKEN_SITE ctx site).setFld F.XCH_STATE_HOLDER ctx (b2n (site == s.ownSite ctx))

-- # Entries (R439 to R443)

/-- Keep an adopted entry (R439). -/
def State.keepEntry (s : State) (ctx : Nat) (e : Entry) : State :=
  let s := s.modXch ctx fun x => ({ x with entries := x.entries ++ [e] } : Xch).noteHeals e
  let s := (s.setFld F.XCH_LEDGER_LAST_ROUND ctx e.round).setFld F.XCH_LEDGER_LAST_PROVISIONAL ctx (b2n e.prov)
  (s.setFld F.XCH_LEDGER_LAST_RECORDS ctx e.recs.length).raise (.context ctx) 0x0702 0 e.holder (2 ^ 32 * e.round + e.recs.length)

/-- Follow the token: an entry of a higher epoch names the holder. What was canonical under the lower epoch, on a site that does not hold the
token now, stands as a provisional side; the site's devices follow with their ledger device (R441). -/
def State.followToken (s : State) (ctx : Nat) (e : Entry) : State :=
  if s.fld F.XCH_STATE_EPOCH ctx < e.epoch then
    let was := s.xmode ctx == 1 && e.holder != s.ownSite ctx
    let s := ((s.setFld F.XCH_STATE_EPOCH ctx e.epoch).setToken ctx e.holder).raise (.context ctx) 0x070E 1 e.holder (2 ^ 32 * e.epoch + 3)
    s.when was fun s => s.setFld F.XCH_STATE_MODE ctx 2
  else s

/-- A handover that an entry carries takes place after its round. -/
def State.takeNext (s : State) (ctx : Nat) (e : Entry) : State :=
  if e.next = 0xFF then s
  else (s.setToken ctx e.next).raise (.context ctx) 0x070E 1 e.next (2 ^ 32 * e.epoch + 1)

/-- The holder has included this site's heal: the site is canonical again (R444). -/
def State.healedBy (s : State) (ctx : Nat) (e : Entry) : State :=
  if s.xmode ctx = 4 ∧ (e.recs.any fun c => c.site == s.ownSite ctx && c.kind == 2) then
    let n := s.fld F.XCH_STATE_PROV_ROUNDS ctx
    ((s.setFld F.XCH_STATE_MODE ctx 1).setFld F.XCH_STATE_PROV_ROUNDS ctx 0).raise (.context ctx) 0x0707 1 e.holder n
  else s

/-- Adopt a canonical entry. -/
def State.adoptCanonical (s : State) (ctx : Nat) (e : Entry) : State :=
  if e.epoch < s.fld F.XCH_STATE_EPOCH ctx then s
  else
    let s := s.followToken ctx e
    let s := if s.xmode ctx = 2 then
        (if e.holder = s.ownSite ctx then s.setFld F.XCH_STATE_MODE ctx 1 else s.heal ctx e.holder) else s
    if (s.xchOf ctx).entries.any (fun d => d.round == e.round) ∨ (roundField (s.fld F.XCH_ROUND_LAST_APPLIED ctx)).any (fun a => decide (e.round ≤ a))
    then s
    else if e.params ≠ s.ownParams ctx e.round then
      (s.setFld F.XCH_STATE_MODE ctx 0).raise (.context ctx) 0x0710 2 e.holder e.params
    else ((s.keepEntry ctx e).takeNext ctx e).healedBy ctx e

/-- The sites that an entry shows as provisional: its holder, and those that have reported to it. -/
def Entry.side (e : Entry) : List Nat := e.holder :: (List.range 64).filter fun k => !e.absent.testBit k

/-- Take a provisional entry: a device of a provisional site adopts it; a ledger device notes what it lists and which sites stand so (R442,
R443). -/
def State.adoptProvisional (s : State) (ctx : Nat) (e : Entry) : State :=
  let s := s.when (s.isLedger ctx) fun s => s.modXch ctx fun x => { x with
    provSites := distinct ((e.side.filter fun k => k ≤ s.xcfg F.XCH_CFG_SITES_M1 ctx && (s.xmode ctx == 2 || k != s.ownSite ctx)) ++ x.provSites)
    provRecs := (e.recs.map fun c => (c.site, c.origin)) ++ x.provRecs }
  if s.xmode ctx = 2 ∧ ¬ (s.xchOf ctx).entries.any (fun d => d.round == e.round) then
    if e.params ≠ s.ownParams ctx e.round then (s.setFld F.XCH_STATE_MODE ctx 0).raise (.context ctx) 0x0710 2 e.holder e.params
    else s.keepEntry ctx e
  else s

/-- Take an entry; a ledger device forwards it to the site's devices. -/
def State.takeEntry (s : State) (ctx : Nat) (e : Entry) (bytes : List Byte) : State :=
  if !s.xOn ctx then s
  else
    let s := s.when (s.isLedger ctx) fun s => s.post s.siteOthers (.entry ctx bytes)
    if e.prov then s.adoptProvisional ctx e else s.adoptCanonical ctx e

/-- LEDGER_ENTRY. -/
def execLedgerEntry (ctx : Fin 256) (body : List Byte) (s : State) : Answer :=
  match readEntry body with
  | none => .next s
  | some e => .next (s.takeEntry ctx e body)

-- # Closing a round (R438, R439, R442)

/-- This device closes rounds: the holder's ledger device, or the lowest provisional one that it can reach. -/
def State.closes (s : State) (ctx : Nat) : Bool :=
  s.xOn ctx && s.isLedger ctx && (s.xmode ctx == 1 || s.xmode ctx == 2) && s.closer ctx == s.ownSite ctx

/-- The round that is next to be closed: the earliest one formed and without an entry. -/
def State.nextClose (s : State) (ctx : Nat) : Option Round :=
  let x := s.xchOf ctx
  let open_ (q : Round) : Bool := q.src == s.deviceId && !q.done && !(x.entries.any fun e => e.round == q.round)
    && (roundField (s.fld F.XCH_ROUND_LAST_FORMED ctx)).any fun f => decide (q.round ≤ f)
  (x.rounds.filter open_).foldl (fun b q => match b with
    | some c => if q.round < c.round then some q else b
    | none => some q) none

/-- Close a round: the entry goes to every site and to this site's devices, and is adopted. -/
def State.closeNow (s : State) (ctx r : Nat) : State :=
  let e := s.closeEntry ctx r
  let s := s.each (s.otherSites ctx) fun k s => s.queueMsg ctx k 5 0xFFFF e.bytes
  let s := s.modXch ctx fun x => { x with closed := some r, handTo := if e.prov then x.handTo else none }
  s.takeEntry ctx e e.bytes

/-- Every site's report holds the current contribution of every site. -/
def State.allReported (s : State) (ctx r : Nat) : Bool :=
  let x := s.xchOf ctx
  let sites := List.range (s.xcfg F.XCH_CFG_SITES_M1 ctx + 1)
  sites.all fun k => (s.presentSites ctx r (s.xmode ctx == 2)).contains k && sites.all fun j => (x.newest k).any fun h => h.1 == j && h.2.2 == r

/-- Close the next round once every report is complete. -/
def State.tryClose (s : State) (ctx : Nat) : State :=
  match s.nextClose ctx with
  | some q => if s.closes ctx && s.allReported ctx q.round then s.closeNow ctx q.round else s
  | none => s

/-- Send the site's report to the ledger device that closes its rounds, or take it here. -/
def State.sendReport (s : State) (ctx : Nat) : State :=
  let p := s.siteReport ctx
  let k := s.closer ctx
  if k = s.ownSite ctx then (s.modXch ctx fun x => x.takeReport p).tryClose ctx
  else s.queueMsg ctx k 4 0xFFFF p.body

/-- The site's report goes out where a contribution is complete at the site. -/
def State.reportIf (s : State) (ctx site r : Nat) : State := s.when (s.siteHasIt ctx (site, r)) fun s => s.sendReport ctx

/-- The ledger device notes an owner's report of a contribution (R438). -/
def State.noteOwner (s : State) (ctx dev site r : Nat) : State :=
  let t := (dev, site, r)
  (s.modXch ctx fun x => { x with owners := if x.owners.contains t then x.owners else t :: x.owners }).reportIf ctx site r

/-- CONTRIBUTION_REPORT: an owner's report reaches the site's ledger device (R438). -/
def execContributionReport (ctx : Fin 256) (dev : BitVec 16) (site : Fin 64) (round : BitVec 32) (s : State) : Answer :=
  if !s.xOn ctx || !s.isLedger ctx then .next s else .next (s.noteOwner ctx dev.toNat site round.toNat)

/-- SITE_REPORT: a site's report reaches the ledger device that closes its rounds. -/
def execSiteReport (ctx : Fin 256) (body : List Byte) (s : State) : Answer :=
  if !s.xOn ctx || !s.isLedger ctx then .next s
  else .next ((s.modXch ctx fun x => x.takeReport (readReport body)).tryClose ctx)

/-- LEDGER_DEADLINE: the deadline after the site's form closes the round with the sites that have reported (R439). -/
def execLedgerDeadline (ctx : Fin 256) (s : State) : Answer :=
  match s.nextClose ctx with
  | some q =>
    if s.closes ctx && decide (q.time + ms * s.roundCfg F.XCH_TIMING_DEADLINE_MS ctx q.round ≤ s.now) then .next (s.closeNow ctx q.round) else .next s
  | none => .next s

/-- Enter PROVISIONAL (R442). -/
def State.goProvisional (s : State) (ctx r : Nat) : State :=
  let site := s.ownSite ctx
  let s := s.setFld F.XCH_STATE_MODE ctx 2
  let s := s.modXch ctx fun x => { x with provSites := distinct (site :: x.provSites) }
  s.raise (.context ctx) 0x0706 2 site r

/-- PROVISIONAL_TIMEOUT: no canonical entry has come in time to a ledger device that does not hold the token; or, `told`, this site's
ledger device tells the site's devices so (R442). -/
def execProvisionalTimeout (ctx : Fin 256) (told : Bool) (s : State) : Answer :=
  if !s.xOn ctx || s.xmode ctx != 1 || s.flag F.XCH_STATE_HOLDER ctx then .next s
  else if s.isLedger ctx then
    match s.nextClose ctx with
    | some q =>
      if q.time + ms * (s.roundCfg F.XCH_TIMING_DEADLINE_MS ctx q.round + s.roundCfg F.XCH_TIMING_GRACE_MS ctx q.round) ≤ s.now then
        .next (((s.goProvisional ctx q.round).post s.siteOthers (.provisional ctx q.round)).sendReport ctx)
      else .next s
    | none => .next s
  else if told then .next (s.goProvisional ctx (((s.nextClose ctx).map (·.round)).getD (s.fld F.XCH_ROUND_LAST_FORMED ctx)))
  else .next s

-- # Sealing and coding (R418 to R427, R563)

/-- Seal a soredium; none where its page may not seal. -/
def State.sealSored (s : State) (ctx : Nat) (bs : List Byte) : Option (List Byte) :=
  let h := soredHead bs
  (s.sealKey ctx h.round).map fun k => bs.take 40 ++ gcmSeal k.key (soredIv h.site h.src h.round h.seq) (bs.take 40) (bs.drop 40)

/-- A refused seal (R563). -/
def State.sealRefused (s : State) (ctx r : Nat) : State :=
  (s.bumpFld F.CIP_PAGE_STAT_REFUSED ctx 1).raise (.context ctx) 0x090B 2 (s.pageSlot ctx r) (r % 2 ^ 32)

/-- Queue soredia for sites, each sealed. -/
def State.queueSoreds (s : State) (ctx src r : Nat) (rep : Bool) (sites : List Nat) (l : List Sored) : State :=
  s.each l fun y s =>
    match s.sealSored ctx y.bytes with
    | none => s.sealRefused ctx r
    | some z =>
      let s := s.setFld F.CIP_PAGE_STAT_SEALED ctx (s.fld F.CIP_PAGE_STAT_SEALED ctx + 1)
      s.each sites fun k s => s.queueItem ctx ⟨k, rep, .sored src r y.seq z, none⟩

/-- The bytes of the outgoing store that a context's rounds take. -/
def State.outBytes (s : State) (ctx : Nat) : Nat := total ((s.xchOf ctx).rounds.map fun q => total (q.out.map fun y => y.bytes.length))

/-- The leading soredia that fit in so many bytes. -/
def fitOut : Nat → List Sored → List Sored
  | _, [] => []
  | n, y :: rest => if y.bytes.length ≤ n then y :: fitOut (n - y.bytes.length) rest else []

/-- The records of a seal, shard by shard (Table 13-9). -/
def sealRecords (out : List Sored) : List Byte :=
  (distinct (out.map (·.shard))).flatMap fun n =>
    let l := out.filter fun y => y.shard == n
    beBytes 4 n ++ beBytes 4 ((l.head?.map (·.seq)).getD 0) ++ beBytes 4 l.length ++ beBytes 4 0 ++ beBytes 8 (crc64 (l.flatMap (·.bytes)))

/-- The seal of a round (Table 13-9). -/
def sealBody (site src round : Nat) (join : Bool) (out : List Sored) : List Byte :=
  beBytes 1 site ++ beBytes 1 (b2n join) ++ beBytes 2 src ++ beBytes 4 (distinct (out.map (·.shard))).length ++ beBytes 8 round ++
    beBytes 4 out.length ++ beBytes 4 0 ++ beBytes 8 (crc64 (out.flatMap (·.bytes))) ++ sealRecords out

/-- The symbols of a shard with the lost blocks coded as zeros (R427). -/
def SymShard.without (y : SymShard) (lmax : Nat) (lost : List Nat) : SymShard :=
  { y with
    scales := y.scales.zipIdx.map fun p => if lost.contains p.2 then 0 else p.1
    syms := y.syms.zipIdx.map fun p => if lost.contains (p.2 / 256) then lmax else p.1 }

/-- Code the shards of a round for an owner of record, and keep the soredia and the seal. -/
def State.codeFor (s : State) (ctx : Nat) (q : Round) (shards : List Nat) : State × Round :=
  let site := s.xcfg F.XCH_CFG_SITE ctx
  let (out, hists) := codeRound q.width (if q.heal then 2 else 0) site q.src q.round (q.syms.filter fun y => shards.contains y.shard)
  let kept := fitOut (1048576 * s.fld F.XCH_STORE_SIZE_OUT_MIB ctx - s.outBytes ctx) out
  let whole := kept.length == out.length
  let s := s.when (!whole) fun s => s.raise (.context ctx) 0x0711 2 0 2
  (s, { q with
    coded := true
    whole := whole
    out := kept
    hists := hists
    elems := total ((q.syms.filter fun y => shards.contains y.shard).map fun y => y.syms.length)
    body := sealBody site q.src q.round q.join out })

/-- Note a contribution as complete on this device, and report it to the site's ledger device, which may be this one (R438). -/
def State.contribDone (s : State) (ctx site r : Nat) : State :=
  if (s.xchOf ctx).done.contains (site, r) then s
  else
    let s := s.modXch ctx fun q => { q with done := (site, r) :: q.done }
    if s.isLedger ctx then s.noteOwner ctx s.deviceId site r else s.post [s.ledgerId ctx] (.report ctx (s.ledgerId ctx) site r)

/-- Count and note the blocks of a round whose symbols were lost, and the uncorrectable codewords of the symbol buffer that lost them (R334, R427; log 117): `lost` gives shard and block. -/
def State.loseBlocks (s : State) (ctx : Nat) (q : Round) (lost : List (Nat × Nat)) : State × Round :=
  let of (n : Nat) : List Nat := distinct ((lost.filter fun p => p.1 == n).map (·.2))
  let q := { q with syms := q.syms.map fun y => y.without (lmaxOf q.width) ((of y.shard).filter fun b => decide (b < y.scales.length)) }
  (s.each (q.syms.filter fun y => (of y.shard).any fun b => decide (b < y.scales.length)) fun y s =>
    let blocks := (of y.shard).filter fun b => decide (b < y.scales.length)
    let words := distinct (blocks.map fun b => Config.symbolPlace ctx y.shard b / 32 * 32)
    (s.each words fun a s => s.uncorrectable 5 (some ctx) a).raise (.context ctx) 0x070D 2 y.shard blocks.length, q)

/-- The shards that a round is coded for under this device's own name: those that it owns, but not those for which it stands in as origin of
record of a failed device (R489). -/
def State.codedHere (s : State) (ctx r : Nat) : List Nat :=
  let others := (s.xchOf ctx).rounds.filter fun p => p.round == r && p.src != s.deviceId
  ((s.ownExchanged ctx).filter fun h => !(h.adopted && !others.isEmpty)).map (·.num)

/-- ROUND_CODE: the exchange engine codes the owned shards of a formed round and hands the soredia to the outgoing queue. `lost` names
the blocks that its reads of the symbol buffer lost. After a device-fatal fault no work is issued (R47). -/
def execRoundCode (ctx : Fin 256) (lost : List (BitVec 24 × BitVec 24)) (s : State) : Answer :=
  let x := s.xchOf ctx
  match x.rounds.find? fun q => q.src == s.deviceId && !q.coded && s.xOn ctx && !s.flag F.HIF_STATUS_FATAL 0 &&
      (roundField (s.fld F.XCH_ROUND_LAST_FORMED ctx)).any fun f => decide (q.round ≤ f) with
  | none => .next s
  | some q =>
    let r := q.round
    let (s, q) := s.loseBlocks ctx q (lost.map fun p => (p.1.toNat, p.2.toNat))
    let (s, q) := s.codeFor ctx q (s.codedHere ctx r)
    let refused := !q.out.isEmpty && (s.sealKey ctx r).isNone
    let q := { q with refused := refused }
    let s := s.modXch ctx fun x => { x.modRound r s.deviceId fun _ => q with fresh := if x.fresh = some r then none else x.fresh }
    let s := if refused then s.sealRefused ctx r else s.queueSoreds ctx q.src r false (s.otherSites ctx) q.out
    let s := s.setFld F.XCH_STATS_SOREDIA ctx (if refused then 0 else q.out.length)
    let s := s.raise (.context ctx) 0x0701 0 0 (2 ^ 32 * r + q.out.length)
    .next (s.when q.whole fun s => s.contribDone ctx (s.xcfg F.XCH_CFG_SITE ctx) r)

/-- A soredium of an origin and round still waits for a site. -/
def Xch.waits (x : Xch) (site src r : Nat) : Bool :=
  x.outQueue.any fun y => y.site == site && !y.rep && match y.item with
    | .sored a b _ _ => a == src && b == r
    | .msg _ _ _ _ => false

/-- SEAL_SEND: the seal of a round follows its last soredium to a site, through the gateway that took that one (R484). -/
def execSealSend (ctx : Fin 256) (round : BitVec 32) (site : Fin 64) (s : State) : Answer :=
  let x := s.xchOf ctx
  match x.round? round.toNat s.deviceId with
  | none => .next s
  | some q =>
    if q.coded ∧ ¬ q.refused ∧ (s.otherSites ctx).contains site.val ∧ ¬ q.sealedTo.contains site.val ∧ ¬ x.waits site q.src q.round ∧
        ¬ s.flag F.HIF_STATUS_FATAL 0 then
      let s := s.modXch ctx fun x => x.modRound q.round q.src fun p => { p with sealedTo := site.val :: p.sealedTo }
      .next (s.queueItem ctx ⟨site, false, .msg 1 s.deviceId 0xFFFF q.body, NMap.get? q.via site⟩)
    else .next s

-- # Failures and refetches (R425, R487, R488)

/-- Runs of consecutive numbers: first and count. -/
def runsOf : List Nat → List (Nat × Nat)
  | [] => []
  | a :: l =>
    match runsOf l with
    | (b, n) :: rest => if b = a + 1 then (a, n + 1) :: rest else (a, 1) :: (b, n) :: rest
    | [] => [(a, 1)]

/-- The body of a REFETCH or a GONE (Table 13-8). -/
def refetchBody (site src r : Nat) (l : List (Nat × Nat × Nat)) : List Byte :=
  beBytes 1 site ++ beBytes 1 0 ++ beBytes 2 src ++ beBytes 4 0 ++ beBytes 8 r ++
    l.flatMap fun p => beBytes 4 p.1 ++ beBytes 4 p.2.1 ++ beBytes 4 p.2.2 ++ beBytes 4 0

/-- The records of such a body: shard, first SEQ, count. -/
def refetchRecs (body : List Byte) : List (Nat × Nat × Nat) :=
  (List.range ((body.length - 16) / 16)).map fun i => (beAt body (16 + 16 * i) 4, beAt body (20 + 16 * i) 4, beAt body (24 + 16 * i) 4)

/-- Ask an origin for soredia. -/
def State.askSoreds (s : State) (ctx site src r : Nat) (l : List (Nat × Nat × Nat)) : State :=
  s.queueMsg ctx site 2 src (refetchBody site src r l)

/-- How often a soredium has failed. -/
def Xch.tries (x : Xch) (site src r seq : Nat) : Nat :=
  ((x.fails.find? fun f => f.site == site && f.src == src && f.round == r && f.seq == seq).map (·.tries)).getD 0

/-- Note the failures of a soredium. -/
def Xch.setTries (x : Xch) (site src r seq n : Nat) : Xch :=
  { x with fails := ⟨site, src, r, seq, n⟩ :: x.fails.filter fun f => !(f.site == site && f.src == src && f.round == r && f.seq == seq) }

/-- A soredium has failed: refetched once, then given up. -/
def State.soredFailed (s : State) (ctx : Nat) (h : SoredHead) : State :=
  let n := (s.xchOf ctx).tries h.site h.src h.round h.seq
  let s := s.modXch ctx fun x => x.setTries h.site h.src h.round h.seq (n + 1)
  s.when (n == 0) fun s => s.askSoreds ctx h.site h.src h.round [(h.shard, h.seq, 1)]

-- # Completeness (R432, R485, R486)

/-- The SEQs of a record. -/
def SealRec.seqs (r : SealRec) : List Nat := (List.range r.count).map (r.first + ·)

/-- A soredium that has passed its checks. -/
def Xch.holds (x : Xch) (site src r seq shard : Nat) : Option InSored :=
  x.inbound.find? fun y => y.site == site && y.src == src && y.round == r && y.seq == seq && y.shard == shard

/-- The soredia of a record that have not come. -/
def Xch.missing (x : Xch) (z : Seal) (r : SealRec) : List Nat := r.seqs.filter fun n => (x.holds z.site z.src z.round n r.shard).isNone

/-- The digest of a record's soredia as they have come. -/
def Xch.recDigest (x : Xch) (z : Seal) (r : SealRec) : Nat :=
  crc64 (r.seqs.flatMap fun n => ((x.holds z.site z.src z.round n r.shard).map (·.bytes)).getD [])

/-- A record has passed its checks. -/
def Xch.recGood (x : Xch) (z : Seal) (r : SealRec) : Bool := (x.missing z r).isEmpty && x.recDigest z r == r.digest

/-- A record's soredia are all here but differ from its digest: refetched once, then given up (R486). -/
def State.checkRec (s : State) (ctx : Nat) (z : Seal) (r : SealRec) : State :=
  let x := s.xchOf ctx
  if !(x.missing z r).isEmpty || x.recDigest z r == r.digest || decide (2 ≤ r.fails) then s
  else
    let failed (y : Seal) : Seal := if y.site = z.site ∧ y.src = z.src ∧ y.round = z.round then
        { y with recs := y.recs.map fun q => if q.shard = r.shard then { q with fails := q.fails + 1 } else q } else y
    if r.fails = 0 then
      let s := s.setXch ctx { x with
        seals := x.seals.map failed
        inbound := x.inbound.filter fun y => !(y.site == z.site && y.src == z.src && y.round == z.round && y.shard == r.shard) }
      s.askSoreds ctx z.site z.src z.round [(r.shard, r.first, r.count)]
    else
      (s.setXch ctx { x with seals := x.seals.map failed }).raise (.context ctx) 0x030A 2 z.src (2 ^ 32 * (z.round % 2 ^ 32) + 2)

/-- Every exchanged shard that the device owns is covered by a record of a seal of the site and round, and every such record has passed its
checks (R485). -/
def State.contribComplete (s : State) (ctx site r : Nat) : Bool :=
  let x := s.xchOf ctx
  let l := x.seals.filter fun z => z.site == site && z.round == r
  !l.isEmpty && (s.ownExchanged ctx).all fun h =>
    (l.any fun z => z.recs.any fun q => q.shard == h.num) && l.all fun z => z.recs.all fun q => q.shard != h.num || x.recGood z q

/-- Something of a site's round has come: check its records and report it where it is complete. -/
def State.checkContrib (s : State) (ctx site r : Nat) : State :=
  let mine := (s.ownExchanged ctx).map (·.num)
  let s := s.each ((s.xchOf ctx).seals.filter fun z => z.site == site && z.round == r) fun z s =>
    s.each (z.recs.filter fun q => mine.contains q.shard) fun q s => s.checkRec ctx z q
  s.when (s.contribComplete ctx site r) fun s => s.contribDone ctx site r

/-- A contribution can no longer be included: it has been applied, or S_MAX has overtaken it and it is no HEAL (R437, R444). -/
def State.contribGone (s : State) (ctx site r : Nat) (heal : Bool) : Bool :=
  let x := s.xchOf ctx
  x.gone.contains (site, r) || (x.overtaken r && !heal && !s.knownHeal ctx site r)

/-- The bytes of the inbound store that are in use. -/
def Xch.inBytes (x : Xch) : Nat := total (x.inbound.map fun y => y.bytes.length)

/-- A soredium whose tag fails (R488, R562). -/
def State.tagFailed (s : State) (ctx : Nat) (h : SoredHead) : State :=
  let again := (s.xchOf ctx).tries h.site h.src h.round h.seq != 0
  let s := s.bumpFld F.CIP_PAGE_STAT_TAG_FAIL ctx 1
  let (n, s) := s.failure 1 ctx
  let s := s.raiseLimited ctx sec (.context ctx) 0x0909 1 h.src n
  (s.raise (.context ctx) 0x0306 (if again then 2 else 1) h.src (2 ^ 32 * h.shard + h.seq)).soredFailed ctx h

/-- SOREDIUM_RECEIVE: an owner checks a sealed soredium in the order of R425, and keeps it. -/
def execSorediumReceive (ctx : Fin 256) (bytes : List Byte) (s : State) : Answer :=
  let h := soredHead bytes
  let x := s.xchOf ctx
  if !s.xOn ctx || s.contribGone ctx h.site h.round (h.flags.testBit 1) || (x.holds h.site h.src h.round h.seq h.shard).isSome
      || decide (2 ≤ x.tries h.site h.src h.round h.seq) then .next s
  else
    match (s.pageKey ctx h.round).bind fun k => gcmOpen k.key (soredIv h.site h.src h.round h.seq) (bytes.take 40) (bytes.drop 40) with
    | none => .next (s.tagFailed ctx h)
    | some plain =>
      let clear := bytes.take 40 ++ plain
      match ((s.ownExchanged ctx).find? fun y => y.num == h.shard).bind fun y => readSored clear y.elems with
      | none =>
        let again := x.tries h.site h.src h.round h.seq != 0
        let s := s.when again fun s => s.raise (.context ctx) 0x070B 2 h.src (2 ^ 32 * h.shard + h.seq)
        .next (s.soredFailed ctx h)
      | some y =>
        if 1048576 * s.fld F.XCH_STORE_SIZE_IN_MIB ctx < x.inBytes + clear.length then .next (s.raise (.context ctx) 0x0711 2 0 1)
        else .next ((s.modXch ctx fun q => { q with inbound := q.inbound ++ [y] }).checkContrib ctx h.site h.round)

/-- SEAL_RECEIVE: an owner parks a seal, or the ledger device a joiner's, which completes that contribution there (R438, R484 to R486). A seal
does not say that it is a HEAL's, so one whose round S_MAX has overtaken is parked too, and its soredia are not asked for until one of them has
shown it (R444). -/
def execSealReceive (ctx : Fin 256) (body : List Byte) (s : State) : Answer :=
  let site := beAt body 0 1
  let src := beAt body 2 2
  let r := beAt body 8 8
  if !s.xOn ctx || (s.xchOf ctx).gone.contains (site, r) then .next s
  else
    match (s.xchOf ctx).seals.find? fun z => z.site == site && z.src == src && z.round == r with
    | some z => .next (if z.body = body then s else s.raise (.context ctx) 0x030A 2 src (2 ^ 32 * (r % 2 ^ 32) + 1))
    | none =>
      let z : Seal := ⟨site, src, r, (beAt body 1 1).testBit 0, body, sealRecs body, s.now, none⟩
      let s := (s.modXch ctx fun q => { q with seals := q.seals ++ [z] }).checkContrib ctx site r
      .next (s.when (z.join && s.isLedger ctx) fun s => s.reportIf ctx site r)

/-- REFETCH_TIMEOUT: the soredia of a parked seal are still missing; those given up are not asked for (R487). -/
def execRefetchTimeout (ctx : Fin 256) (site : Fin 64) (src : BitVec 16) (round : BitVec 64) (s : State) : Answer :=
  let x := s.xchOf ctx
  match x.seals.find? fun z => z.site == site.val && z.src == src.toNat && z.round == round.toNat with
  | none => .next s
  | some z =>
    let wait := ms * s.fld F.FAR_AXT_CFG_REFETCH_MS 0
    let due := match z.asked with
      | none => decide (z.came + wait ≤ s.now)
      | some t => decide (t + 4 * wait ≤ s.now)
    let mine := (s.ownExchanged ctx).map (·.num)
    let want := (z.recs.filter fun q => mine.contains q.shard).flatMap fun q =>
      (runsOf ((x.missing z q).filter fun n => decide (x.tries z.site z.src z.round n < 2))).map fun p => (q.shard, p.1, p.2)
    if due && !want.isEmpty && !s.contribGone ctx z.site z.round false then
      let s := s.setXch ctx { x with seals := x.seals.map fun y =>
        if y.site = z.site ∧ y.src = z.src ∧ y.round = z.round then { y with asked := some s.now } else y }
      .next (s.askSoreds ctx z.site z.src z.round want)
    else .next s

/-- REFETCH: an origin sends again what its outgoing store still holds, and answers GONE for the rest (R487). -/
def execRefetch (ctx : Fin 256) (frm : Fin 64) (dev : BitVec 16) (body : List Byte) (s : State) : Answer :=
  let src := beAt body 2 2
  let r := beAt body 8 8
  let out := (((s.xchOf ctx).round? r src).map (·.out)).getD []
  let named := (refetchRecs body).flatMap fun p => (List.range p.2.2).map fun i => (p.1, p.2.1 + i)
  let held := out.filter fun y => named.contains (y.shard, y.seq)
  let gone := named.filter fun p => !out.any fun y => y.shard == p.1 && y.seq == p.2
  let s := s.queueSoreds ctx src r true [frm.val] held
  .next (s.when (!gone.isEmpty) fun s =>
    s.queueMsg ctx frm 3 dev.toNat (refetchBody (beAt body 0 1) src r (gone.map fun p => (p.1, p.2, 1))))

/-- GONE: the soredia no longer exist, and the contribution stays incomplete (R487). -/
def execGone (ctx : Fin 256) (body : List Byte) (s : State) : Answer :=
  let site := beAt body 0 1
  let src := beAt body 2 2
  let r := beAt body 8 8
  let recs := refetchRecs body
  let s := s.modXch ctx fun x => recs.foldl (fun x p => (List.range p.2.2).foldl (fun x i => x.setTries site src r (p.2.1 + i) 2) x) x
  match recs with
  | [] => .next s
  | p :: _ => .next (s.raise (.context ctx) 0x030B 2 src (2 ^ 32 * p.1 + p.2.1))

/-- EFFICIENCY_REPORT: a gateway's totals for a round of this origin (R428, R490). -/
def execEfficiencyReport (ctx : Fin 256) (gw : BitVec 16) (round : BitVec 32) (first all : BitVec 64) (s : State) : Answer :=
  .next (s.modXch ctx fun x => x.modRound round.toNat s.deviceId fun q =>
    { q with counts := (gw.toNat, first.toNat, all.toNat) :: q.counts.filter fun c => c.1 != gw.toNat })

-- # Snapshots (R446, R447)

/-- SNAP_REQ: a source answers with a manifest or with chunks. With its last chunk a fetch is over as far as its source can tell, and its hold
ends; what is asked for after a newer round has been applied belongs to the same fetch, which starts over (R447, log 50). -/
def execSnapReq (ctx : Fin 256) (frm : Fin 64) (dev : BitVec 16) (body : List Byte) (s : State) : Answer :=
  let n := beAt body 0 4
  let k := beAt body 4 4
  let who := 65536 * frm.val + dev.toNat
  let r := s.fld F.XCH_ROUND_LAST_APPLIED ctx
  match (s.myExchanged ctx).find? fun h => h.num == n with
  | none => .next s
  | some h =>
    let x := s.xchOf ctx
    if k = 0xFFFFFFFF then
      let s := s.each (List.range h.chunks) fun i s => s.touchChunk ctx h i
      let crcs := (List.range h.chunks).flatMap fun i => beBytes 8 (crc64 (s.chunkBytes h i))
      let old := x.serves.find? fun v => v.dev == who && v.shard == n
      let again (v : Serve) : Nat := v.restarts + b2n (v.sent && v.round != r)
      let v : Serve := ⟨who, n, r, old.elim 0 again, old.bind (·.held), false⟩
      let s := s.setXch ctx { x with serves := v :: x.serves.filter fun v => !(v.dev == who && v.shard == n) }
      .next (s.queueMsg ctx frm 7 dev.toNat (beBytes 4 n ++ beBytes 4 r ++ beBytes 4 h.chunks ++ beBytes 4 0 ++ crcs))
    else
      let l := (List.range (beAt body 8 4)).map (k + ·) |>.filter fun i => decide (i < h.chunks)
      let s := s.each l fun i s =>
        let s := s.touchChunk ctx h i
        s.queueMsg ctx frm 8 dev.toNat (beBytes 4 n ++ beBytes 4 r ++ beBytes 4 i ++ beBytes 4 0 ++ s.chunkBytes h i)
      .next (s.when (l.contains (h.chunks - 1)) fun s =>
        (s.modXch ctx fun x => { x with serves := x.serves.map fun v => if v.dev = who ∧ v.shard = n then { v with sent := true } else v }).goOnApplying
          ctx)

/-- Change a fetch. -/
def Xch.modSnap (x : Xch) (n : Nat) (f : Snap → Snap) : Xch := { x with snaps := x.snaps.map fun y => if y.shard = n then f y else y }

/-- Start a fetch over: ask for the manifests. -/
def State.restartSnap (s : State) (ctx n : Nat) : State :=
  let s := s.modXch ctx fun x => x.modSnap n fun y => { y with round := none, source := none, twin := none, got := [], tries := [] }
  s.queueMsg ctx (s.fld F.XCH_STATE_TOKEN_SITE ctx) 6 0xFFFF (beBytes 4 n ++ beBytes 4 0xFFFFFFFF ++ beBytes 4 0 ++ beBytes 4 0)

/-- Ask a device for chunks. -/
def State.askChunks (s : State) (ctx dev n k count : Nat) : State :=
  s.queueMsg ctx (s.fld F.XCH_STATE_TOKEN_SITE ctx) 6 dev (beBytes 4 n ++ beBytes 4 k ++ beBytes 4 count ++ beBytes 4 0)

/-- A manifest is accepted where source and twin agree, or the source has no twin (R446). -/
def State.weighManifest (s : State) (ctx n : Nat) (alone : Bool) : State :=
  match (s.xchOf ctx).snaps.find? fun y => y.shard == n with
  | none => s
  | some y =>
    match y.source, y.twin with
    | some a, some b =>
      if a.2 = b.2 then (s.modXch ctx fun x => x.modSnap n fun y => { y with round := some a.2.1 }).askChunks ctx a.1 n 0 a.2.2.length
      else s.restartSnap ctx n
    | some a, none =>
      if alone then (s.modXch ctx fun x => x.modSnap n fun y => { y with round := some a.2.1 }).askChunks ctx a.1 n 0 a.2.2.length else s
    | none, _ => s

/-- SNAP_MANIFEST: `role` says who sends it: 0 a source that has a twin, 1 the source's twin, 2 a source that has none. -/
def execSnapManifest (ctx : Fin 256) (dev : BitVec 16) (role : Fin 3) (body : List Byte) (s : State) : Answer :=
  let n := beAt body 0 4
  let m := (dev.toNat, beAt body 4 4, (List.range (beAt body 8 4)).map fun i => beAt body (16 + 8 * i) 8)
  let x := s.xchOf ctx
  if x.snaps.any fun y => y.shard == n && y.round.isNone then
    let s := s.setXch ctx (x.modSnap n fun y => if role.val = 1 then { y with twin := some m } else { y with source := some m })
    .next (s.weighManifest ctx n (role.val == 2))
  else .next s

/-- SNAP_CHUNK: a chunk is kept where its CRC-64 is the manifest's; else it is fetched again, after four times from the twin. A chunk of
a newer round starts the fetch over (R446, R447). -/
def execSnapChunk (ctx : Fin 256) (dev : BitVec 16) (body : List Byte) (s : State) : Answer :=
  let n := beAt body 0 4
  let k := beAt body 8 4
  match (s.xchOf ctx).snaps.find? fun y => y.shard == n with
  | none => .next s
  | some y =>
    match y.round, y.source with
    | some r, some a =>
      if beAt body 4 4 ≠ r then .next (s.restartSnap ctx n)
      else if (NMap.get? y.got k).isSome ∨ a.2.2.length ≤ k then .next s
      else if crc64 (body.drop 16) = a.2.2.getD k 0 then
        .next (s.modXch ctx fun x => x.modSnap n fun y => { y with got := NMap.set y.got k (body.drop 16) })
      else
        let t := NMap.getD y.tries k 0
        let s := s.modXch ctx fun x => x.modSnap n fun y => { y with tries := NMap.set y.tries k (t + 1) }
        if t < 4 then .next (s.askChunks ctx a.1 n k 1)
        else
          let s := s.when (t == 4) fun s => s.raise (.context ctx) 0x070A 1 dev.toNat (2 ^ 32 * n + k)
          .next (s.askChunks ctx ((y.twin.map (·.1)).getD a.1) n k 1)
    | _, _ => .next s

/-- A fetch has every chunk. -/
def Snap.whole (y : Snap) : Bool :=
  match y.round, y.source with
  | some _, some a => (List.range a.2.2.length).all fun k => (NMap.get? y.got k).isSome
  | _, _ => false

/-- SNAPSHOT_HOLD_TIMEOUT: a hold of an apply pass has lasted 2 s, and the pass begins (R447). -/
def execSnapshotHoldTimeout (ctx : Fin 256) (s : State) : Answer := .next (s.goOnApplying ctx)

-- # The commands of XCH_CMD (R441, R448, R449)

/-- XCH_CMD_STATUS.ERR. -/
def State.xchErr (s : State) (ctx e : Nat) : State := s.setFld F.XCH_CMD_STATUS_ERR ctx e

/-- HANDOVER: the next entry carries the target. -/
def State.handover (s : State) (ctx target : Nat) : State :=
  if s.xmode ctx ≠ 1 then s.xchErr ctx 3
  else if ¬ (s.flag F.XCH_STATE_HOLDER ctx && s.isLedger ctx) then s.xchErr ctx 1
  else (s.xchErr ctx 0).modXch ctx fun x => { x with handTo := some target }

/-- CLAIM: the site takes the token under the next epoch. -/
def State.claim (s : State) (ctx : Nat) : State :=
  if ¬ s.isLedger ctx then s.xchErr ctx 1
  else if s.xmode ctx = 0 ∨ s.xmode ctx = 3 then s.xchErr ctx 3
  else
    let e := s.fld F.XCH_STATE_EPOCH ctx + 1
    let s := ((s.xchErr ctx 0).setFld F.XCH_STATE_EPOCH ctx e).setToken ctx (s.ownSite ctx)
    (s.setFld F.XCH_STATE_MODE ctx 1).raise (.context ctx) 0x070E 1 (s.ownSite ctx) (2 ^ 32 * s.fld F.XCH_STATE_EPOCH ctx + 2)

/-- JOIN: a late join starts with the fetch. -/
def State.joinLate (s : State) (ctx : Nat) : State :=
  if s.xmode ctx = 0 ∨ s.xmode ctx = 1 then ((s.xchErr ctx 0).setFld F.XCH_STATE_MODE ctx 3).fetchAll ctx 3 else s.xchErr ctx 3

/-- RESUME: a restored context goes on. -/
def State.resume (s : State) (ctx : Nat) : State :=
  if s.xmode ctx ≠ 0 then s.xchErr ctx 3
  else if s.fld F.XCH_ROUND_LAST_FORMED ctx ≠ s.fld F.XCH_ROUND_LAST_APPLIED ctx then s.xchErr ctx 2
  else ((s.xchErr ctx 0).setFld F.XCH_STATE_MODE ctx 1).setToken ctx (s.fld F.XCH_STATE_TOKEN_SITE ctx)

/-- A write to XCH_CMD: GO performs OP in a context whose outer rounds are enabled. -/
def State.writeXchCmd (s : State) (fn ctx : Nat) (h : Half) (v : Word) : State :=
  s.reaching fn .XCH_CMD ctx fun s =>
    if F.XCH_CMD_GO.hit h v then
      if ¬ s.flag F.XCH_CFG_EN ctx then s.xchErr ctx 3
      else match F.XCH_CMD_OP.of (h.part v) with
        | 1 => s.handover ctx (F.XCH_CMD_TARGET.of (h.part v))
        | 2 => s.claim ctx
        | 3 => s.joinLate ctx
        | 4 => s.resume ctx
        | _ => s
    else s

/-- A word that performs an operation of XCH_CMD. -/
def xchOp (op target : Nat) : Word := F.XCH_CMD_TARGET.put (F.XCH_CMD_OP.put (F.XCH_CMD_GO.put 0#64 1) op) target

/-- HANDOVER. -/
def execHandover (fn : Fin 64) (ctx : Fin 256) (target : Fin 64) (s : State) : Answer :=
  .next (s.writeXchCmd fn ctx .whole (xchOp 1 target))

/-- CLAIM. -/
def execClaim (fn : Fin 64) (ctx : Fin 256) (s : State) : Answer := .next (s.writeXchCmd fn ctx .whole (xchOp 2 0))

/-- JOIN. -/
def execJoin (fn : Fin 64) (ctx : Fin 256) (s : State) : Answer := .next (s.writeXchCmd fn ctx .whole (xchOp 3 0))

/-- RESUME. -/
def execResume (fn : Fin 64) (ctx : Fin 256) (s : State) : Answer := .next (s.writeXchCmd fn ctx .whole (xchOp 4 0))

-- # XCH_CFG (R451)

/-- Every field of an XCH_CFG value is in its range. -/
def xchCfgOk (v : Word) : Bool :=
  let w := F.XCH_CFG_WIDTH.of v
  let h := F.XCH_CFG_H.of v
  let l := F.XCH_CFG_LAG.of v
  (w == 2 || w == 3 || w == 4 || w == 6 || w == 8) && decide (1 ≤ h) && decide (1 ≤ l) && decide (l ≤ h)

/-- Outer rounds are enabled: a context that has formed nothing starts canonical under HOLDER0, as class EXCHANGE has adopted it: EN alone
acts at the write (R86, R451). -/
def State.startRounds (s : State) (ctx : Nat) : State :=
  let s := s.setFld F.XCH_CFG_EN ctx 1
  let s := (s.setFld F.XCH_STATS_LATE ctx 0).setFld F.XCH_STATS_DISCARDED ctx 0
  if s.fld F.XCH_ROUND_LAST_FORMED ctx = 0xFFFFFFFF ∧ s.xmode ctx = 0 then
    (s.setFld F.XCH_STATE_MODE ctx 1).setToken ctx (s.xcfg F.XCH_LEDGER_HOLDER0 ctx)
  else s

/-- A write to XCH_CFG: EN acts at once, the rest is staged; a value out of range is not taken, nor before S6 a write of 1 to EN, which is
counted as blocked (Table 17-7). -/
def State.writeXchCfg (s : State) (fn ctx : Nat) (h : Half) (v : Word) : State :=
  s.reaching fn .XCH_CFG ctx fun s =>
    let was := s.flag F.XCH_CFG_EN ctx
    let early := s.stage < 6 && F.XCH_CFG_EN.hit h v
    let s := s.when early fun s => s.blockedReg fn .XCH_CFG ctx
    let v := if early then F.XCH_CFG_EN.put v 0 else v
    let new := RegName.XCH_CFG.written h (F.XCH_CFG_EN.put (s.stagingValue .XCH_CFG ctx) (b2n was)) v
    let wants := F.XCH_CFG_EN.of new = 1
    if !xchCfgOk new then s.setFld F.XCH_CFG_ERR ctx 2
    else
      let s := (s.stageReg .XCH_CFG ctx h v).setFld F.XCH_CFG_ERR ctx 0
      if !wants then s.setFld F.XCH_CFG_EN ctx 0
      else if was then s
      else if 4 ≤ ((List.range 256).filter fun n => s.flag F.XCH_CFG_EN n).length then s.setFld F.XCH_CFG_ERR ctx 1
      else s.startRounds ctx

/-- XCH_ENABLE: a write that sets XCH_CFG.EN. -/
def execXchEnable (fn : Fin 64) (ctx : Fin 256) (value : BitVec 64) (s : State) : Answer := .next (s.writeXchCfg fn ctx .whole value)

-- # The apply of a round (R411, R444, R448)

/-- The launch of a context that waits to open its step. -/
def State.openingLaunch (s : State) (ctx : Nat) : Option Launch := s.launches.find? fun l => l.ctx == ctx && l.isStep && !l.opened

/-- A contribution of an entry is here for the device's owned shards; of its own site, in the outgoing store with no soredium refused
(R431). -/
def State.haveContrib (s : State) (ctx : Nat) (c : LedRec) : Bool :=
  if c.kind = 3 then true
  else if c.site = s.ownSite ctx then
    (s.ownExchanged ctx).all fun h => (s.xchOf ctx).rounds.any fun q =>
      q.round == c.origin && q.coded && q.whole && q.out.any fun y => y.shard == h.num
  else s.contribComplete ctx c.site c.origin || (s.ownExchanged ctx).isEmpty

/-- Snapshots take the place of a round's apply. -/
def State.applySnapshots (s : State) (ctx r step : Nat) (join : Bool) : State :=
  let x := s.xchOf ctx
  let from_ := ((x.snaps.findSome? fun y => y.round)).getD r
  let s := s.each (s.myExchanged ctx) fun h s =>
    match x.snaps.find? fun y => y.shard == h.num with
    | some y => (s.takeSnapshot h y join).digested ctx h .restore step
    | none => s
  let s := s.modXch ctx fun x => { x with
    snaps := []
    snapFor := none
    fresh := if join then some (step / max 1 (s.roundH ctx)) else x.fresh
    entries := x.entries.map fun e => if e.round = r then { e with prov := false, recs := e.recs.map fun c => { c with kind := 0 } } else e }
  let s := s.roundApplied ctx r
  s.when join fun s => (s.setFld F.XCH_STATE_MODE ctx 1).raise (.context ctx) 0x0709 1 (s.fld F.XCH_STATE_TOKEN_SITE ctx) from_

/-- A fetch that has restarted three times holds the next apply pass of its shard on the source, the owner: the hold begins with event 0x070F
(R447). -/
def State.beginHold (s : State) (ctx r : Nat) : State :=
  let x := s.xchOf ctx
  let new (v : Serve) : Bool := decide (3 ≤ v.restarts) && !v.sent && v.held.isNone && (s.ownExchanged ctx).any fun h => h.num == v.shard
  if x.serves.any new then
    let s := s.setXch ctx { x with serves := x.serves.map fun v => if new v then { v with held := some s.now } else v }
    s.raise (.context ctx) 0x070F 1 0 (2 ^ 32 * r + (s.now - x.waitSince.getD s.now) / 1000 % 2 ^ 32)
  else s

/-- ROUND_APPLY: at the open of the apply step, the device has the round's entry and its contributions: the passes begin, or the
snapshots take their place. A checkpoint still to write its planes holds them (R310), and a fetch that has restarted three times the pass of
its shard (R447). -/
def execRoundApply (ctx : Fin 256) (s : State) : Answer :=
  match s.openingLaunch ctx with
  | none => .next s
  | some l =>
    match s.appliedAt ctx l.step with
    | none => .next s
    | some r =>
      let x := s.xchOf ctx
      let done := (roundField (s.fld F.XCH_ROUND_LAST_APPLIED ctx)).any fun a => decide (r ≤ a)
      if x.waitSince.isNone || x.applying.isSome || done || s.quiesce || s.ckptDue.contains ctx.val then .next s
      else match x.snapFor with
        | some m => if x.snaps.all Snap.whole then .next (s.applySnapshots ctx r l.step (m == 3)) else .next s
        | none =>
          match x.entries.find? fun e => e.round == r with
          | none => .next s
          | some e =>
            if !e.recs.all (s.haveContrib ctx) then .next s
            else
              let s := s.setXch ctx { x with applying := some r, applied := [], passQueue := (s.myExchanged ctx).map (·.num) }
              if (s.myExchanged ctx).isEmpty then .next (s.roundApplied ctx r) else .next ((s.beginHold ctx r).startApplies ctx r)

/-- APPLY_STALL_TIMER: the wait of the open has lasted more than 1 ms (R411). -/
def execApplyStallTimer (ctx : Fin 256) (s : State) : Answer :=
  let x := s.xchOf ctx
  match x.waitSince, s.openingLaunch ctx with
  | some t, some l =>
    match s.appliedAt ctx l.step with
    | some r =>
      if !x.stalled && decide (t + ms < s.now) then
        .next ((s.setXch ctx { x with stalled := true }).raise (.context ctx) 0x070F 1 0 (2 ^ 32 * r + (s.now - t) / 1000 % 2 ^ 32))
      else .next s
    | none => .next s
  | _, _ => .next s

end Sys2Proof.Machine
end

