-- ==== Sys2Proof/Machine/FarWire.lean ====
section
/-! DEFINITION. The far wire (R452 to R458, R463, R464): path entries, the frames that leave a far port, and the checks and fields of a
frame that arrives. -/

namespace Sys2Proof.Machine

-- # Checks of the standards that R452 names (log 17)

/-- One bit of the CRC-32 of IEEE 802.3, least significant bit first. -/
def crc32Bit (c : Nat) : Nat := if c % 2 = 1 then (c / 2) ^^^ 0xEDB88320 else c / 2

/-- The FCS of a frame, as its four bytes stand on the wire. -/
def fcsOf (bs : List Byte) : List Byte :=
  leBytes 4 ((bs.foldl (fun c b => eight crc32Bit (c ^^^ b.toNat)) 0xFFFFFFFF) ^^^ 0xFFFFFFFF)

/-- The sum of 16-bit big-endian words, an odd last byte padded with zero. -/
def sum16 : List Byte → Nat
  | a :: b :: rest => a.toNat * 256 + b.toNat + sum16 rest
  | [a] => a.toNat * 256
  | [] => 0

/-- The Internet checksum of a sum. -/
def inetSum (n : Nat) : Nat :=
  let f (n : Nat) := n % 65536 + n / 65536
  0xFFFF - f (f (f n))

-- # Path entries (R458, Table 13-4)

/-- A path entry. -/
structure PathEntry where
  site : Nat
  flags : Nat
  rgw  : Nat
  pcp  : Nat
  dscp : Nat
  rmax : Nat
  hop  : List Byte
  addr : List Byte
  key0 : Nat
  key1 : Nat
  good : Bool
deriving DecidableEq, Repr

def PathEntry.ipv6 (e : PathEntry) : Bool := e.flags.testBit 1
def PathEntry.port (e : PathEntry) : Nat := b2n (e.flags.testBit 2)
def PathEntry.rport (e : PathEntry) : Nat := b2n (e.flags.testBit 3)

/-- The entry is enabled; one whose CRC fails is not. -/
def PathEntry.on (e : PathEntry) : Bool := e.flags.testBit 0 && e.good

/-- Read a path entry of a context from the table that a port has in force (R86). -/
def State.portEntry (s : State) (ctx port i : Nat) : PathEntry :=
  let a := F.FAR_PATH_BASE_ADDR.of (s.staged .FAR_PATH_BASE ctx .far port) * 64 + 64 * i
  let b := s.devRead a 64
  let f (o n : Nat) := leNat ((b.drop o).take n)
  ⟨f 0 1, f 1 1, f 2 2, f 4 1 % 8, f 5 1 % 64, f 6 2, (b.drop 8).take 6, (b.drop 16).take 16, f 32 2, f 34 2, crc32c (b.take 60) == f 60 4⟩

/-- The path entries of a context in the table that a port has in force. -/
def State.portPaths (s : State) (ctx port : Nat) : Nat := min 128 (F.FAR_PATH_COUNT_COUNT.of (s.staged .FAR_PATH_COUNT ctx .far port))

/-- A path entry of a context: that of port 1 where its table gives the path to it, else that of port 0 (R86, log 93). -/
def State.pathEntry (s : State) (ctx i : Nat) : PathEntry :=
  let e := s.portEntry ctx 1 i
  if i < s.portPaths ctx 1 ∧ e.port = 1 then e else s.portEntry ctx 0 i

/-- The path entries of a context. -/
def State.pathCount (s : State) (ctx : Nat) : Nat := max (s.portPaths ctx 0) (s.portPaths ctx 1)

/-- The enabled entry of a path. -/
def State.pathOn? (s : State) (ctx i : Nat) : Option PathEntry :=
  if i < s.pathCount ctx then
    let e := s.pathEntry ctx i
    if e.on && decide (i < s.portPaths ctx e.port) then some e else none
  else none

/-- The enabled paths of a context. -/
def State.pathsOn (s : State) (ctx : Nat) : List (Nat × PathEntry) :=
  (List.range (s.pathCount ctx)).filterMap fun i => (s.pathOn? ctx i).map fun e => (i, e)

/-- The contexts that have a path table. -/
def State.farCtxs (s : State) : List Nat := (List.range 256).filter fun c => decide (0 < s.pathCount c)

/-- The job tag of a context as a port has it in force. -/
def State.jobOf (s : State) (ctx port : Nat) : Nat := F.FAR_JOB_JOB.of (s.staged .FAR_JOB ctx .far port)

/-- The key-store slot of a key phase; none where the entry names none. -/
def PathEntry.slot (e : PathEntry) (phase : Bool) : Option Nat :=
  if phase then (if e.key1 = 0xFFFF then none else some e.key1) else some e.key0

/-- The key of a path's phase (R463, R556). -/
def State.pathKey (s : State) (e : PathEntry) (phase : Bool) : Option (List Byte) :=
  (e.slot phase).bind fun k => (s.keyIn k 1 0).map (·.key)

-- # Frames that leave (R455, R456, R463, R464)

/-- The IV of a segment. -/
def segIv (gw site port xseq : Nat) : List Byte := beBytes 2 gw ++ beBytes 1 site ++ beBytes 1 port ++ beBytes 8 xseq

/-- The 32-byte header of a segment (Table 13-3). -/
def segHeader (typ flags srcSite dstSite srcGw dstGw job len psn floor ts xseq : Nat) : List Byte :=
  beBytes 1 (16 + typ) ++ beBytes 1 flags ++ beBytes 1 srcSite ++ beBytes 1 dstSite ++ beBytes 2 srcGw ++ beBytes 2 dstGw ++ beBytes 2 job ++
    beBytes 2 len ++ beBytes 4 psn ++ beBytes 4 floor ++ beBytes 4 ts ++ beBytes 8 xseq

/-- A segment sealed: a DATA payload is authenticated in clear, every other one is encrypted. -/
def sealSegment (key iv head payload : List Byte) (typ : Nat) : List Byte :=
  if typ = 1 then head ++ payload ++ gcmSeal key iv (head ++ payload) [] else head ++ gcmSeal key iv head payload

/-- The address of a port in wire order. -/
def State.portAddr (s : State) (port : Nat) : List Byte :=
  beBytes 8 (s.fld F.FAR_PORT_ADDR_HI_ADDR port) ++ beBytes 8 (s.fld F.FAR_PORT_ADDR_LO_ADDR port)

/-- The pseudo-header sum of a UDP checksum. -/
def pseudoSum (src dst : List Byte) (len : Nat) : Nat := sum16 src + sum16 dst + len % 65536 + len / 65536 + 17

/-- A UDP datagram with its checksum. -/
def udpBytes (src dst : List Byte) (sport dport : Nat) (data : List Byte) : List Byte :=
  let n := 8 + data.length
  let body (c : Nat) := beBytes 2 sport ++ beBytes 2 dport ++ beBytes 2 n ++ beBytes 2 c ++ data
  let c := inetSum (pseudoSum src dst n + sum16 (body 0))
  body (if c = 0 then 0xFFFF else c)

/-- An IP packet around UDP data. -/
def ipBytes (v6 : Bool) (dscp hop : Nat) (src dst : List Byte) (sport dport : Nat) (data : List Byte) : List Byte :=
  let tc := 4 * dscp + 2
  if v6 then
    let u := udpBytes src dst sport dport data
    beBytes 4 (6 * 2 ^ 28 + 2 ^ 20 * tc) ++ beBytes 2 u.length ++ beBytes 1 17 ++ beBytes 1 hop ++ src ++ dst ++ u
  else
    let src := src.drop 12
    let dst := dst.drop 12
    let u := udpBytes src dst sport dport data
    let head (c : Nat) := beBytes 1 0x45 ++ beBytes 1 tc ++ beBytes 2 (20 + u.length) ++ beBytes 2 0 ++ beBytes 2 0x4000 ++ beBytes 1 hop ++
      beBytes 1 17 ++ beBytes 2 c ++ src ++ dst
    head (inetSum (sum16 (head 0))) ++ u

/-- The frame of a segment on a path. -/
def State.frameOf (s : State) (e : PathEntry) (segment : List Byte) : List Byte :=
  let p := e.port
  let tag := if s.flag F.FAR_PORT_CFG_VLAN p then beBytes 2 0x8100 ++ beBytes 2 (8192 * e.pcp + s.fld F.FAR_PORT_CFG_VID p) else []
  let sport := 0xC000 + crc32c ((segment.drop 2).take 8) % 0x4000
  let ip := ipBytes e.ipv6 e.dscp (s.fld F.FAR_NET_CFG_HOP 0) (s.portAddr p) e.addr sport (s.fld F.FAR_NET_CFG_UDP_PORT 0) segment
  let f := e.hop ++ beBytes 6 (s.fld F.FAR_PORT_MAC_MAC p) ++ tag ++ beBytes 2 (if e.ipv6 then 0x86DD else 0x0800) ++ ip
  f ++ fcsOf f

/-- The length of a frame whose payload has so many bytes (Table 13-2). -/
def State.frameLen (s : State) (e : PathEntry) (payload : Nat) : Nat :=
  (if s.flag F.FAR_PORT_CFG_VLAN e.port then 18 else 14) + (if e.ipv6 then 40 else 20) + 8 + 32 + payload + 16 + 4

-- # Frames that arrive (R454, R457)

/-- An accepted frame: its segment, whether it came marked CE, and the bytes that the frame carries beyond its IP packet. -/
structure Rx where
  seg  : List Byte
  ce   : Bool
  tail : Nat
deriving DecidableEq, Repr

/-- The UDP data of an IP packet that is for a port, with its ECN field; none where a check of R454 fails. -/
def State.ipData (s : State) (port : Nat) (b : List Byte) : Option (List Byte × Nat) :=
  let mine := s.portAddr port
  let dport := s.fld F.FAR_NET_CFG_UDP_PORT 0
  let udp (src dst u : List Byte) : Option (List Byte) :=
    let n := beAt u 4 2
    if 8 ≤ n ∧ n = u.length ∧ beAt u 2 2 = dport ∧ beAt u 6 2 ≠ 0 ∧ inetSum (pseudoSum src dst n + sum16 u) = 0 then some (u.drop 8) else none
  if s.flag F.FAR_PORT_CFG_IPV6 port then
    let src := (b.drop 8).take 16
    let dst := (b.drop 24).take 16
    if beAt b 0 1 / 16 = 6 ∧ 40 ≤ b.length ∧ beAt b 6 1 = 17 ∧ dst = mine ∧ beAt b 4 2 = b.length - 40 then
      (udp src dst (b.drop 40)).map fun d => (d, beAt b 1 1 / 16 % 4)
    else none
  else
    let n := beAt b 2 2
    let src := (b.drop 12).take 4
    let dst := (b.drop 16).take 4
    if beAt b 0 1 = 0x45 ∧ 20 ≤ n ∧ n ≤ b.length ∧ beAt b 9 1 = 17 ∧ dst = mine.drop 12 ∧ beAt b 6 2 % 0x4000 = 0 ∧
        inetSum (sum16 (b.take 20)) = 0 then
      (udp src dst ((b.take n).drop 20)).map fun d => (d, beAt b 1 1 % 4)
    else none

/-- A frame that a far port accepts (R454). -/
def State.rxFrame (s : State) (port : Nat) (f : List Byte) : Option Rx :=
  let n := f.length - 4
  let tagged := beAt f 12 2 == 0x8100
  let twice := tagged && beAt f 16 2 == 0x8100
  let vlan := s.flag F.FAR_PORT_CFG_VLAN port
  let o := if tagged then 16 else 12
  if f.length < 64 ∨ 9216 < f.length ∨ f.drop n ≠ fcsOf (f.take n) ∨ beAt f 0 6 ≠ s.fld F.FAR_PORT_MAC_MAC port ∨ tagged ≠ vlan ∨ twice ∨
      (vlan ∧ beAt f 14 2 % 4096 ≠ s.fld F.FAR_PORT_CFG_VID port) ∨
      beAt f o 2 ≠ (if s.flag F.FAR_PORT_CFG_IPV6 port then 0x86DD else 0x0800) then none
  else
    let b := (f.take n).drop (o + 2)
    (s.ipData port b).map fun d => ⟨d.1, d.2 == 3, if s.flag F.FAR_PORT_CFG_IPV6 port then 0 else b.length - beAt b 2 2⟩

/-- The fields of a segment header. -/
structure SegHead where
  typ   : Nat
  flags : Nat
  srcSite : Nat
  dstSite : Nat
  srcGw : Nat
  dstGw : Nat
  job   : Nat
  len   : Nat
  psn   : Nat
  floor : Nat
  ts    : Nat
  xseq  : Nat
  ver   : Nat
deriving DecidableEq, Repr

def segHead (b : List Byte) : SegHead :=
  ⟨beAt b 0 1 % 16, beAt b 1 1, beAt b 2 1, beAt b 3 1, beAt b 4 2, beAt b 6 2, beAt b 8 2, beAt b 10 2, beAt b 12 4, beAt b 16 4, beAt b 20 4,
    beAt b 24 8, beAt b 0 1 / 16⟩

def SegHead.retx (h : SegHead) : Bool := h.flags.testBit 0
def SegHead.repeat_ (h : SegHead) : Bool := h.flags.testBit 1
def SegHead.ackNow (h : SegHead) : Bool := h.flags.testBit 2
def SegHead.phase (h : SegHead) : Bool := h.flags.testBit 3
def SegHead.port (h : SegHead) : Nat := b2n (h.flags.testBit 4)

/-- The header of a segment is one that its gateway may act on (R457); `n` is the length that the frame gives the segment. -/
def State.segOk (s : State) (h : SegHead) (n : Nat) : Bool :=
  h.ver == 1 && decide (1 ≤ h.typ) && decide (h.typ ≤ 4) && decide (h.flags < 32) && h.dstGw == s.deviceId && n == 48 + h.len &&
    (h.typ != 4 || (h.len == 0 && h.ackNow))

/-- The enabled path that an arriving segment belongs to (R458). -/
def State.rxPath (s : State) (port : Nat) (h : SegHead) : Option (Nat × Nat × PathEntry) :=
  s.farCtxs.findSome? fun c =>
    if s.jobOf c port = h.job then
      ((s.pathsOn c).find? fun p => p.2.site == h.srcSite && p.2.rgw == h.srcGw && p.2.rport == h.port && p.2.port == port).map
        fun p => (c, p.1, p.2)
    else none

/-- The payload of a segment whose tag holds. -/
def openSegment (key : List Byte) (h : SegHead) (b : List Byte) : Option (List Byte) :=
  let iv := segIv h.srcGw h.srcSite h.port h.xseq
  if h.typ = 1 then
    let n := b.length - 16
    (gcmOpen key iv (b.take n) (b.drop n)).map fun _ => (b.take n).drop 32
  else gcmOpen key iv (b.take 32) (b.drop 32)

end Sys2Proof.Machine
end

