-- ==== Sys2Proof/Machine/Far.lean ====
section
/-! DEFINITION. The exchange transport (R453, R459 to R491): far ports, selective repeat, acknowledgements, round-trip times and loss,
pacing, messages and seals at a gateway, and the counts for exchange efficiency. -/

namespace Sys2Proof.Machine

-- # Paths and their registers

/-- A path of an entry that has just been enabled (R467, R479): DOWN, its first PSN 1. -/
def Path.fresh : Path where
  up := false
  phase := false
  nextPsn := 1
  segs := []
  srtt := 0
  rttvar := 0
  rto := 2000000
  sampled := false
  run := []
  runSent := 0
  lastTs := none
  newest := none
  rate := 0
  alpha := 0
  slow := false
  interval := 0
  ceBase := 0
  rcvdBase := 0
  ceSeen := 0
  rcvdSeen := 0
  loss := false
  paceAt := 0
  retx := 0
  rebase := 0
  drops := 0
  quiet := none
  idle := 0
  probed := 0
  downAt := 0
  cum := 1
  got := []
  rcvd := 0
  ce := 0
  echo := 0
  echoAt := 0
  pend := 0
  pendAt := none
  probing := false
  ends := (0, 0, 0, 0)

/-- The place of a path. -/
def pathKeyAt (ctx i : Nat) : Nat := 128 * ctx + i

def State.path (s : State) (ctx i : Nat) : Path := NMap.getD s.paths (pathKeyAt ctx i) Path.fresh

/-- Show the selected path in its registers. -/
def State.showPath (s : State) : State :=
  let ctx := s.fld F.FAR_PATH_SEL_CTX 0
  let i := s.fld F.FAR_PATH_SEL_PATH 0
  let p := s.path ctx i
  let on := decide (i < 128) && (s.pathOn? ctx i).isSome
  let s := (s.setFld F.FAR_PATH_RTT_SRTT 0 p.srtt).setFld F.FAR_PATH_RTT_RTTVAR 0 p.rttvar
  let s := (s.setFld F.FAR_PATH_RATE_STATE 0 (if on then (if p.up then 2 else 1) else 0)).setFld F.FAR_PATH_RATE_SLOW 0 (b2n p.slow)
  let s := (s.setFld F.FAR_PATH_RATE_RUN 0 (b2n (!p.run.isEmpty))).setFld F.FAR_PATH_RATE_PHASE 0 (b2n p.phase)
  let s := (s.setFld F.FAR_PATH_RATE_RATE 0 p.rate.floor.toNat).setFld F.FAR_PATH_RATE_INFLIGHT 0 p.segs.length
  let s := (s.setFld F.FAR_PATH_CNT_RETX 0 (min p.retx 0xFFFFFFFF)).setFld F.FAR_PATH_CNT_REBASE 0 (min p.rebase 0xFFFF)
  s.setFld F.FAR_PATH_CNT_DROPS 0 (min (p.drops / 1024) 0xFFFF)

/-- Keep a path. -/
def State.setPath (s : State) (ctx i : Nat) (p : Path) : State :=
  { s with paths := NMap.set s.paths (pathKeyAt ctx i) p }.showPath

def State.modPath (s : State) (ctx i : Nat) (f : Path → Path) : State := s.setPath ctx i (f (s.path ctx i))

/-- The ports that an entry joins. -/
def PathEntry.endsAt (e : PathEntry) : Nat × Nat × Nat × Nat := (e.site, e.rgw, e.port, e.rport)

-- # Gateways

/-- A port's speed in units of 100 MB/s. -/
def State.portRate (s : State) (port : Nat) : Nat := if s.flag F.FAR_PORT_CFG_MODE port then 500 else 1000

/-- The bytes that a segment takes in the retransmit buffer (R468). -/
def State.segSize (s : State) (e : PathEntry) (x : Seg) : Nat := ceilDiv (s.frameLen e x.payload.length) 64 * 64

/-- The bytes in use of a port's retransmit buffer. -/
def State.bufUsed (s : State) (port : Nat) : Nat :=
  total (s.farCtxs.map fun c => total (((s.pathsOn c).filter fun q => q.2.port == port).map fun q =>
    total ((s.path c q.1).segs.map (s.segSize q.2))))

/-- The size of a retransmit buffer. -/
def bufSize : Nat := 16 * 2 ^ 30

/-- A segment of so many payload bytes fits the buffer of a path's port. -/
def State.fits (s : State) (e : PathEntry) (n : Nat) : Bool := decide (s.bufUsed e.port + ceilDiv (s.frameLen e n) 64 * 64 ≤ bufSize)

/-- Show a port's use of its buffer. -/
def State.showBuf (s : State) (port : Nat) : State := s.setFld F.FAR_PORT_BUF_USED_MIB port (ceilDiv (s.bufUsed port) 1048576)

/-- A port is UP. -/
def State.portUp (s : State) (port : Nat) : Bool := s.flag F.FAR_PORT_STATE_UP port

/-- The path that carries an origin device's traffic to a site (R460): the port of the device's number modulo 2, or the other one while
that path is DOWN. -/
def State.pathFor (s : State) (ctx site dev : Nat) : Option (Nat × PathEntry) :=
  let l := (s.pathsOn ctx).filter fun p => p.2.site == site
  let up := l.filter fun p => (s.path ctx p.1).up
  match up.find? fun p => p.2.port == dev % 2 with
  | some p => some p
  | none =>
    match up.head? with
    | some p => some p
    | none => (l.find? fun p => p.2.port == dev % 2).or l.head?

/-- The site has an UP path. -/
def State.siteUp (s : State) (ctx site : Nat) : Bool := (s.pathsOn ctx).any fun p => p.2.site == site && (s.path ctx p.1).up

/-- The buffer of the path that carries a device's traffic to a site has room. -/
def State.pathRoom (s : State) (ctx site dev : Nat) : Bool := (s.pathFor ctx site dev).any fun p => s.fits p.2 8960

/-- The devices that the forwarding table names: what they send to other sites goes against a gateway's credits. -/
def State.fwdDevices (s : State) (ctx : Nat) : List Nat :=
  let base := s.stagedFld F.FAR_FWD_BASE_ADDR ctx .far * 64
  distinct (((List.range (s.stagedFld F.FAR_FWD_COUNT_COUNT ctx .far)).flatMap fun k =>
    [s.devNat (base + 8 * k + 4) 2, s.devNat (base + 8 * k + 6) 2]).filter (· != 0xFFFF))

/-- The credits, in segments, that a gateway gives a device for a site before anything has come from it: the longest message's (DESIGN CHOICE,
log 52). -/
def creditWindow : Nat := 65535

/-- The device and site pairs that get their first credits now: those of the forwarding table and of the paths whose buffers have room. -/
def State.firstCredits (s : State) (ctx : Nat) : List (Nat × Nat) :=
  let sites := distinct ((s.pathsOn ctx).map fun p => p.2.site)
  ((s.fwdDevices ctx).flatMap fun d => sites.map fun k => (d, k)).filter fun p => !(s.gate ctx).granted.contains p && s.pathRoom ctx p.2 p.1

/-- Announce a site whose UP paths have come or gone (R459). -/
def State.announceFrom (s : State) (ctx site : Nat) (was : Bool) : State :=
  let now := s.siteUp ctx site
  if now = was then s else s.post s.siteOthers (.announce ctx site now)

/-- A path follows its entry in the table, where the device looks at it: an entry that has been enabled, or that joins other ports now, starts anew
from PSN 1, DOWN from now on; a path whose entry is gone is no more, with what it held (R467, DEDUCED, log 106). -/
def State.watchPath (s : State) (ctx i : Nat) : State :=
  let kept := NMap.get? s.paths (pathKeyAt ctx i)
  match s.pathOn? ctx i, kept with
  | none, none => s
  | none, some p =>
    let t : State := { s with paths := NMap.erase s.paths (pathKeyAt ctx i) }
    t.showPath.announceFrom ctx p.ends.1 (s.siteUp ctx p.ends.1 || p.up)
  | some e, none => s.setPath ctx i { Path.fresh with downAt := s.now, ends := e.endsAt }
  | some e, some p =>
    if p.ends = e.endsAt then s
    else (s.setPath ctx i { Path.fresh with downAt := s.now, ends := e.endsAt }).announceFrom ctx p.ends.1 (s.siteUp ctx p.ends.1 || p.up)

/-- Grant the credits that are owed for the paths whose buffers have room: the first ones, and those of the segments that have come (R462). -/
def State.grantCredits (s : State) (ctx : Nat) : State :=
  let first := s.firstCredits ctx
  let now (o : Nat × Nat × Nat) : Bool := s.pathRoom ctx o.2.1 o.1
  let due := (s.gate ctx).owed.filter now
  let s := s.modGate ctx fun g => { g with owed := g.owed.filter fun o => !now o, granted := g.granted ++ first }
  (s.each first fun p s => s.post [p.1] (.credit ctx p.1 creditWindow)).each due fun o s => s.post [o.1] (.credit ctx o.1 o.2.2)

/-- A message in fragments (R482). -/
def fragments (kind src dst id : Nat) (body : List Byte) : List (List Byte) :=
  let n := max 1 (ceilDiv body.length 8944)
  (List.range n).map fun i =>
    beBytes 1 kind ++ beBytes 1 0 ++ beBytes 2 src ++ beBytes 2 dst ++ beBytes 2 i ++ beBytes 2 n ++ beBytes 2 0 ++ beBytes 4 id ++
      (body.drop (8944 * i)).take 8944

/-- GATEWAY_ITEM_RECEIVE: an origin device hands over a soredium (kind 0) or a message; it waits for its path, and the credits of its
segments are owed. -/
def execGatewayItemReceive (ctx : Fin 256) (dev : BitVec 16) (site : Fin 64) (rep : Bool) (kind : Fin 9) (dst : BitVec 16)
    (bytes : List Byte) (s : State) : Answer :=
  let g := s.gate ctx
  let items : List GateItem :=
    if kind.val = 0 then
      let h := soredHead bytes
      [⟨site, h.src, rep, 1, some h.round, bytes⟩]
    else
      (fragments kind dev.toNat dst.toNat g.msgId bytes).map fun f =>
        ⟨site, dev.toNat, rep, 3, if kind.val = 1 then some (beAt bytes 8 8) else none, f⟩
  let s := s.modGate ctx fun g => { g with
    queue := g.queue ++ items
    msgId := if kind.val = 0 then g.msgId else (g.msgId + 1) % 2 ^ 32
    owed := g.owed ++ [(dev.toNat, site.val, items.length)] }
  .next (s.grantCredits ctx)

-- # Counting (R490, R491)

/-- FIRST and ALL of an origin's round. -/
def FirstAll.totals (c : FirstAll) : Nat × Nat := ((c.bits.head?.map (·.2)).getD 0, total (c.bits.map (·.2)))

/-- Add to the counts of a round of a context at this gateway. -/
def Gate.addRnd (g : Gate) (r retx ack fwd : Nat) : Gate :=
  { g with rnd :=
      if g.rnd.any fun x => x.1 == r then
        g.rnd.map fun x => if x.1 = r then (r, x.2.1 + retx, x.2.2.1 + ack, x.2.2.2 + fwd) else x
      else g.rnd ++ [(r, retx, ack, fwd)] }

/-- The round that a frame is counted for. -/
def State.countRound (s : State) (ctx : Nat) (r : Option Nat) : Nat := r.getD (s.fld F.XCH_ROUND_LAST_FORMED ctx)

/-- Count a frame that leaves with a sequenced segment. Sent again, or REPEAT: a retransmission of its round; for another device: forwarded
(R491). Own, with a round: b_wire (R8). Own, without a round (a request for missing data, a site report, a ledger entry, snapshot traffic): with
the forwarded frames of the round last formed, as R9 keeps it out of b_wire and in a counter (DEDUCED, log 99). -/
def State.countSent (s : State) (ctx site : Nat) (x : Seg) (again : Bool) (bits : Nat) : State :=
  let r := s.countRound ctx x.round
  if again || x.rep then s.modGate ctx fun g => g.addRnd r bits 0 0
  else
    let s := s.when (x.dev != s.deviceId || x.round.isNone) fun s => s.modGate ctx fun g => g.addRnd r 0 0 bits
    match x.round with
    | none => s
    | some r =>
      let g := s.gate ctx
      let old := (g.counts.find? fun c => c.dev == x.dev && c.round == r).getD ⟨x.dev, r, []⟩
      let c : FirstAll := { old with bits := NMap.update old.bits site 0 fun n => n + bits }
      let s := s.modGate ctx fun g => { g with counts := c :: g.counts.filter fun c => !(c.dev == x.dev && c.round == r) }
      s.post [x.dev] (.counts ctx x.dev r c.totals.1 c.totals.2)

-- # Sending

/-- A segment leaves a path with the port's next XSEQ; none while the port is not UP, its XSEQ is used up, or its key slot is empty. -/
def State.transmit (s : State) (ctx i : Nat) (e : PathEntry) (typ flags psn : Nat) (payload : List Byte) : Option State :=
  let p := s.path ctx i
  let x := s.fld F.FAR_PORT_XSEQ_XSEQ e.port
  match s.pathKey e p.phase with
  | none => none
  | some key =>
    if !s.portUp e.port || x % 2 ^ 48 == 2 ^ 48 - 1 then none
    else
      let site := s.xcfg F.XCH_CFG_SITE ctx
      let floor := (p.segs.head?.map (·.psn)).getD p.nextPsn
      let head := segHeader typ (flags + 8 * b2n p.phase + 16 * e.port) site e.site s.deviceId e.rgw (s.jobOf ctx e.port) payload.length psn floor
        (s.now % 2 ^ 32) x
      let seg := sealSegment key (segIv s.deviceId site e.port x) head payload typ
      let s := s.setFld F.FAR_PORT_XSEQ_XSEQ e.port (x + 1)
      let s := s.when ((x + 1) % 2 ^ 48 == 2 ^ 47) fun s => s.raise .device 0x030D 2 e.port ((x + 1) % 2 ^ 48)
      some (s.emit (.frame e.port (s.frameOf e seg)))

/-- A path waits for an ACK from now on, where it did not before. -/
def Path.await (p : Path) (now : Nat) : Path := { p with quiet := some (p.quiet.getD now) }

/-- The rate at which a path may send, in bytes a second: its own, or its part of the port's (R480). -/
def State.sendRate (s : State) (ctx i port : Nat) : Rat :=
  let rates := s.farCtxs.flatMap fun c => ((s.pathsOn c).filter fun q => q.2.port == port && (s.path c q.1).up).map fun q => (s.path c q.1).rate
  let sum := rates.foldl (· + ·) 0
  let cap : Rat := s.portRate port
  let r := (s.path ctx i).rate
  100000000 * (if sum ≤ cap then r else r * cap / sum)

/-- A frame of so many bytes has left: when the path may send its next one. -/
def State.paced (s : State) (ctx i port len : Nat) : State :=
  let r := s.sendRate ctx i port
  s.modPath ctx i fun p => { p with
    paceAt := max s.now p.paceAt + (if r ≤ 0 then 0 else (1000000000 * (len : Rat) / r).ceil.toNat)
    idle := s.now }

/-- Send a declared loss again (R471). -/
def State.resend (s : State) (ctx i : Nat) (e : PathEntry) (x : Seg) : State :=
  match s.transmit ctx i e x.typ (1 + 2 * b2n x.rep) x.psn x.payload with
  | none => s
  | some s =>
    let len := s.frameLen e x.payload.length
    let s := s.modPath ctx i fun p => { p.await s.now with
      retx := p.retx + 1
      segs := p.segs.map fun y => if y.psn = x.psn then { y with lost := false, sentAt := s.now } else y }
    (s.countSent ctx e.site x true (8 * len)).paced ctx i e.port len

/-- Send a segment for the first time (R467, R469). -/
def State.sendNew (s : State) (ctx i : Nat) (e : PathEntry) (k : Nat) (it : GateItem) : State :=
  let p := s.path ctx i
  if !s.fits e it.payload.length then (if (s.beganAt 30 e.port).isSome then s else s.beginAt 30 e.port)
  else
    let x : Seg := ⟨p.nextPsn, it.typ, it.rep, it.dev, it.round, it.payload, s.now, s.now, false⟩
    let kept := s.setPath ctx i { p.await s.now with segs := p.segs ++ [x], nextPsn := (p.nextPsn + 1) % 2 ^ 32 }
    match kept.transmit ctx i e it.typ (2 * b2n it.rep) x.psn it.payload with
    | none => s
    | some s =>
      let len := s.frameLen e it.payload.length
      let s := (s.endOf 30 e.port).modGate ctx fun g => { g with queue := g.queue.eraseIdx k }
      ((s.countSent ctx e.site x false (8 * len)).paced ctx i e.port len).showBuf e.port

/-- The first waiting segment that a path carries. -/
def State.nextItem (s : State) (ctx i : Nat) : Option (Nat × GateItem) :=
  let g := s.gate ctx
  (g.queue.findIdx? fun it => (s.pathFor ctx it.site it.dev).any fun q => q.1 == i).bind fun k => (g.queue[k]?).map fun it => (k, it)

/-- SEGMENT_SEND: a path that is UP and whose pace allows it sends its first declared loss, or else its next new segment. -/
def execSegmentSend (ctx : Fin 256) (path : Fin 128) (s : State) : Answer :=
  let s := s.watchPath ctx path
  match s.pathOn? ctx path with
  | none => .next s
  | some e =>
    let p := s.path ctx path
    if !p.up || decide (s.now < p.paceAt) then .next s
    else match p.segs.find? (·.lost) with
      | some x => .next (s.resend ctx path e x)
      | none =>
        if 2097151 ≤ p.segs.length then .next s
        else match s.nextItem ctx path with
          | some (k, it) => .next (s.sendNew ctx path e k it)
          | none => .next s

/-- A path of a port has a new segment to send that the port's buffer holds no room for (R469). -/
def State.bufFull (s : State) (port : Nat) : Bool :=
  s.farCtxs.any fun c => (s.pathsOn c).any fun q => q.2.port == port && (s.nextItem c q.1).any fun k => !s.fits q.2 k.2.payload.length

/-- Room that has come ends the time that a buffer has been full for. -/
def State.roomAgain (s : State) (port : Nat) : State := if s.bufFull port then s else s.endOf 30 port

-- # Acknowledgements (R473, R474)

/-- The distance from one PSN up to another, modulo 2^32. -/
def psnGap (a b : Nat) : Nat := (b + 2 ^ 32 - a % 2 ^ 32) % 2 ^ 32

/-- Sorted runs of the PSNs above the cumulative point: start and end. -/
def Path.ranges (p : Path) : List (Nat × Nat) :=
  ((runsOf ((p.got.foldl (fun l n => insertNum (psnGap p.cum n, n) l) []).map (·.1)))).map fun r =>
    ((p.cum + r.1) % 2 ^ 32, (p.cum + r.1 + r.2) % 2 ^ 32)

/-- The payload of an ACK (Table 13-5). -/
def Path.ackPayload (p : Path) (now : Nat) : List Byte :=
  let l := p.ranges.take 64
  beBytes 4 p.cum ++ beBytes 4 (p.rcvd % 2 ^ 32) ++ beBytes 4 (p.ce % 2 ^ 32) ++ beBytes 4 p.echo ++ beBytes 4 ((now - p.echoAt) % 2 ^ 32) ++
    beBytes 2 l.length ++ beBytes 2 0 ++ l.flatMap fun r => beBytes 4 r.1 ++ beBytes 4 r.2

/-- Send an ACK at once. -/
def State.sendAck (s : State) (ctx i : Nat) (e : PathEntry) : State :=
  let body := (s.path ctx i).ackPayload s.now
  match s.transmit ctx i e 2 0 0 body with
  | none => s
  | some s =>
    let s := s.modPath ctx i fun p => { p with pend := 0, pendAt := none }
    s.modGate ctx fun g => g.addRnd (s.countRound ctx none) 0 (8 * s.frameLen e body.length) 0

/-- ACK_DELAY_TIMEOUT: an accepted segment has waited ACK_US for its ACK. -/
def execAckDelayTimeout (ctx : Fin 256) (path : Fin 128) (s : State) : Answer :=
  let s := s.watchPath ctx path
  match s.pathOn? ctx path, (s.path ctx path).pendAt with
  | some e, some t => if t + 1000 * s.fld F.FAR_AXT_CFG_ACK_US 0 ≤ s.now then .next (s.sendAck ctx path e) else .next s
  | _, _ => .next s

-- # Receiving (R465, R472)

/-- A frame or a segment is discarded and counted. -/
def State.rxDiscard (s : State) (port : Nat) : State := s.bumpFld F.FAR_PORT_CNT_RX_DISCARD port 1

/-- A segment whose tag fails (R465). -/
def State.segAuthFail (s : State) (port ctx i : Nat) : State :=
  let s := s.bumpFld F.FAR_PORT_CNT_AUTH_FAIL port 1
  let (n, s) := s.failure 2 (pathKeyAt ctx i)
  s.raiseLimited (pathKeyAt ctx i) sec (.context ctx) 0x0305 1 i n

/-- Advance the cumulative point over what has been received. -/
def advance : Nat → Nat → List Nat → Nat × List Nat
  | 0, c, l => (c, l)
  | n + 1, c, l => if l.contains c then advance n ((c + 1) % 2 ^ 32) (l.filter (· != c)) else (c, l)

/-- Every PSN below FLOOR is closed (R470). -/
def Path.close (p : Path) (floor : Nat) : Path :=
  let d := psnGap p.cum floor
  if 0 < d ∧ d < 2 ^ 31 then
    let l := p.got.filter fun n => decide (psnGap p.cum n ≥ d)
    let r := advance l.length floor l
    { p with cum := r.1, got := r.2 }
  else p

/-- Accept a sequenced segment (R472): its path after, and whether it is new. -/
def Path.accept (p : Path) (h : SegHead) (ce : Bool) (now : Nat) : Path × Bool :=
  let r := advance (p.got.length + 1) p.cum (h.psn :: p.got)
  ({ p with
      cum := r.1
      got := r.2
      rcvd := p.rcvd + 1
      ce := p.ce + b2n ce
      echo := h.ts
      echoAt := now
      pend := p.pend + 1
      pendAt := some (p.pendAt.getD now) }, decide (p.ranges.length ≠ ({ p with cum := r.1, got := r.2 } : Path).ranges.length))

/-- What becomes of a sequenced segment: accepted and handed on, a duplicate that is acknowledged at once, or discarded. -/
def State.sequenced (s : State) (port ctx i : Nat) (e : PathEntry) (h : SegHead) (ce closed : Bool) (deliver : State → State) : State :=
  let p := s.path ctx i
  let d := psnGap p.cum h.psn
  if 2 ^ 31 ≤ d ∨ p.got.contains h.psn then (s.rxDiscard port).sendAck ctx i e
  else if 2 ^ 21 ≤ d then (s.rxDiscard port).when (closed || h.ackNow) fun s => s.sendAck ctx i e
  else
    let (p, gap) := p.accept h ce s.now
    let s := deliver (s.setPath ctx i p)
    s.when (closed || gap || h.ackNow || decide (s.fld F.FAR_AXT_CFG_ACK_SEGS 0 ≤ p.pend)) fun s => s.sendAck ctx i e

/-- What FLOOR closes has closed a gap among what the path has received (R470, R474). -/
def Path.closesGap (p : Path) (floor : Nat) : Bool := decide (p.ranges.length ≠ (p.close floor).ranges.length)

/-- Let a segment of a frame act where it passes every check up to its tag and header; a frame that fails one is discarded (R454, R457, R458,
R465). `act` is told whether the segment's FLOOR has closed a gap. -/
def State.received (s : State) (port typ : Nat) (frame : List Byte)
    (act : State → Nat → Nat → PathEntry → SegHead → Bool → Bool → List Byte → State) : State :=
  if !s.portUp port then s
  else match s.rxFrame port frame with
    | none => s.rxDiscard port
    | some x =>
      let h := segHead x.seg
      if x.seg.length < 48 then s.rxDiscard port
      else if h.typ ≠ typ then s
      else match s.rxPath port h with
        | none => s.rxDiscard port
        | some (ctx, i, e) =>
          let s := s.watchPath ctx i
          match (s.pathKey e h.phase).bind fun k => openSegment k h x.seg with
          | none => s.segAuthFail port ctx i
          | some payload =>
            if !s.segOk h (x.seg.length + x.tail) then s.rxDiscard port
            else act (s.modPath ctx i fun p => p.close h.floor) ctx i e h x.ce ((s.path ctx i).closesGap h.floor) payload

/-- FRAME_DISCARD: a frame fails a check of R454, or its segment has no type or belongs to no enabled path (R457, R458). -/
def execFrameDiscard (port : Fin 2) (frame : List Byte) (s : State) : Answer :=
  if !s.portUp port then .next s
  else match s.rxFrame port frame with
    | none => .next (s.rxDiscard port)
    | some x =>
      let h := segHead x.seg
      if x.seg.length < 48 ∨ h.typ = 0 ∨ 4 < h.typ ∨ (s.rxPath port h).isNone then .next (s.rxDiscard port) else .next s

-- # Forwarding (R461, R472, R482, R484)

/-- The forwarding entry of a shard: owner and twin. -/
def State.forwardOf (s : State) (ctx shard : Nat) : Option (Nat × Nat) :=
  let base := s.stagedFld F.FAR_FWD_BASE_ADDR ctx .far * 64
  let n := s.stagedFld F.FAR_FWD_COUNT_COUNT ctx .far
  ((List.range n).find? fun k => s.devNat (base + 8 * k) 4 == shard).map fun k => (s.devNat (base + 8 * k + 4) 2, s.devNat (base + 8 * k + 6) 2)

/-- A frame that arrives for another device counts for its round: with the retransmitted and REPEAT frames where it is one, else with the forwarded
(R491; the former DEDUCED, log 98). -/
def State.countForwarded (s : State) (ctx : Nat) (r : Option Nat) (dst bits : Nat) (again : Bool) : State :=
  s.when (dst != s.deviceId) fun s =>
    s.modGate ctx fun g => if again then g.addRnd (s.countRound ctx r) bits 0 0 else g.addRnd (s.countRound ctx r) 0 0 bits

/-- Deliver a seal to the owner of each listed shard, or a joiner's to the ledger device (R484). -/
def State.deliverSeal (s : State) (ctx site src : Nat) (body : List Byte) : State :=
  let ledger := s.ledgerId ctx
  let dsts := if (beAt body 1 1).testBit 0 then [ledger]
    else distinct ((sealRecs body).filterMap fun q => (s.forwardOf ctx q.shard).map fun o => s.standIn ctx o.1)
  s.each dsts fun d s => s.post [d] (.message ctx d site src 1 body)

/-- Forward a whole message to its device; 0xFFFF stands for what Table 13-8 gives. -/
def State.forwardMsg (s : State) (ctx site kind src dst : Nat) (body : List Byte) : State :=
  let send (d : Nat) (s : State) : State := s.post [s.standIn ctx d] (.message ctx (s.standIn ctx d) site src kind body)
  if kind = 1 then
    let s := if (s.gate ctx).seals.contains body then s else s.modGate ctx fun g => { g with seals := g.seals ++ [body] }
    s.deliverSeal ctx site src body
  else if dst ≠ 0xFFFF then send dst s
  else if kind = 4 ∨ kind = 5 then send (s.ledgerId ctx) s
  else if kind = 6 then
    match s.forwardOf ctx (beAt body 0 4) with
    | some (o, t) => (send o s).when (t != 0xFFFF) (send t)
    | none => s
  else s

/-- DATA_SEGMENT: the soredium of an accepted DATA segment goes to the owner of its shard at once. -/
def execDataSegment (port : Fin 2) (frame : List Byte) (s : State) : Answer :=
  .next (s.received port 1 frame fun s ctx i e h ce closed payload =>
    s.sequenced port ctx i e h ce closed fun s =>
      let q := soredHead payload
      match s.forwardOf ctx q.shard with
      | none => s.raiseLimited ctx sec (.context ctx) 0x030C 1 q.src q.shard
      | some (o, _) =>
        let d := s.standIn ctx o
        (s.countForwarded ctx (some q.round) d (8 * frame.length) (h.retx || h.repeat_)).post [d] (.soredium ctx d payload))

/-- Keep a fragment of a message. -/
def Assembly.put (a : Assembly) (i : Nat) (b : List Byte) : Assembly := { a with parts := NMap.set a.parts i b }

/-- The round that a message's frames count for, once its first fragment has come: a seal's own; of other messages the round last formed. -/
def Assembly.round (a : Assembly) : Option (Option Nat) :=
  if a.kind = 1 then (NMap.get? a.parts 0).map fun b => some (beAt b 8 8) else some none

/-- Count a fragment's frame: at once, or with the others that wait for the first one, which says which round they belong to (R491). -/
def State.countFragment (s : State) (ctx : Nat) (a : Assembly) (bits : Nat) (again : Bool) : State × Assembly :=
  let held := if again then (a.early.1 + bits, a.early.2) else (a.early.1, a.early.2 + bits)
  match a.round with
  | none => (s, { a with early := held })
  | some r =>
    let d := s.standIn ctx a.dst
    ((s.countForwarded ctx r d held.1 true).countForwarded ctx r d held.2 false, { a with early := (0, 0) })

/-- Every fragment has come. -/
def Assembly.whole (a : Assembly) : Bool := (List.range a.count).all fun i => (NMap.get? a.parts i).isSome

/-- MSG_SEGMENT: an accepted fragment is reassembled with its message's others; a whole message is forwarded. -/
def execMsgSegment (port : Fin 2) (frame : List Byte) (s : State) : Answer :=
  .next (s.received port 3 frame fun s ctx i e h ce closed payload =>
    s.sequenced port ctx i e h ce closed fun s =>
      let id := beAt payload 12 4
      let same (a : Assembly) : Bool := a.site == h.srcSite && a.gw == h.srcGw && a.id == id
      let old := ((s.gate ctx).asm.find? same).getD
        ⟨h.srcSite, h.srcGw, id, i, beAt payload 0 1, beAt payload 2 2, beAt payload 4 2, beAt payload 8 2, s.now, [], (0, 0)⟩
      let (s, a) := s.countFragment ctx (old.put (beAt payload 6 2) (payload.drop 16)) (8 * frame.length) (h.retx || h.repeat_)
      let rest := (s.gate ctx).asm.filter fun a => !same a
      if a.whole then
        (s.modGate ctx fun g => { g with asm := rest }).forwardMsg ctx h.srcSite a.kind a.src a.dst (a.parts.flatMap (·.2))
      else s.modGate ctx fun g => { g with asm := rest ++ [a] })

/-- MSG_TTL_EXPIRY: a message is still incomplete MSG_TTL_S after its first fragment (R482). -/
def execMsgTtlExpiry (ctx : Fin 256) (site : Fin 64) (gw : BitVec 16) (id : BitVec 32) (s : State) : Answer :=
  let same (a : Assembly) : Bool := a.site == site.val && a.gw == gw.toNat && a.id == id.toNat
  match (s.gate ctx).asm.find? same with
  | none => .next s
  | some a =>
    if a.since + sec * s.fld F.FAR_AXT_CFG_MSG_TTL_S 0 ≤ s.now then
      .next ((s.modGate ctx fun g => { g with asm := g.asm.filter fun a => !same a }).raise (.context ctx) 0x030E 1 a.path id.toNat)
    else .next s

/-- PROBE_SEGMENT: a probe is answered by an ACK at once (R479). -/
def execProbeSegment (port : Fin 2) (frame : List Byte) (s : State) : Answer :=
  .next (s.received port 4 frame fun s ctx i e _ _ _ _ => s.sendAck ctx i e)

-- # Round-trip times (R475 to R477)

/-- The timeout of R476. -/
def rtoOf (srtt rttvar : Nat) : Nat := min 2000000000 (max 2000000 (srtt + max (max (4 * rttvar) (srtt / 4)) 1000000))

/-- The window w of R476. -/
def Path.window (p : Path) : Nat := max 1000000 (p.srtt / 8)

/-- Apply one sample. -/
def Path.applySample (p : Path) (v : Nat) : Path :=
  if p.sampled then
    let d : Int := (v : Int) - p.srtt
    let rv := ((p.rttvar : Int) + ((d.natAbs : Int) - p.rttvar).tdiv 4).toNat
    let sr := ((p.srtt : Int) + d.tdiv 8).toNat
    { p with srtt := sr, rttvar := rv, rto := rtoOf sr rv }
  else { p with sampled := true, srtt := v, rttvar := v / 2, rto := rtoOf v (v / 2) }

/-- The sample lies inside the band. -/
def Path.inside (p : Path) (v : Nat) : Bool := !p.sampled || decide (((v : Int) - p.srtt).natAbs ≤ 4 * p.rttvar)

/-- The mean and the mean deviation of held samples. -/
def spread (l : List Nat) : Nat × Nat :=
  let m := total l / l.length
  (m, total (l.map fun v => ((v : Int) - m).natAbs) / l.length)

/-- Take a sample whose segment was sent at a time: applied, held, or the eighth outside one, which re-baselines. -/
def State.takeSample (s : State) (ctx i sent v : Nat) : State :=
  let p := s.path ctx i
  if p.inside v then s.setPath ctx i { ((p.run ++ [v]).foldl Path.applySample p) with run := [] }
  else
    let run := p.run ++ [v]
    if run.length < 8 then s.setPath ctx i { p with run := run, runSent := if p.run.isEmpty then sent else p.runSent }
    else
      let (m, d) := spread run
      let rv := max d 100000
      let s := s.setPath ctx i { p with srtt := m, rttvar := rv, rto := rtoOf m rv, run := [], rebase := p.rebase + 1 }
      s.raise (.context ctx) 0x0307 0 i (2 ^ 32 * (p.srtt / 1000 % 2 ^ 32) + m / 1000 % 2 ^ 32)

-- # Loss (R478)

/-- Declare the reorder losses that the newest acknowledged segment shows. -/
def Path.declare (p : Path) (now : Nat) : Path :=
  match p.newest with
  | none => p
  | some (sent, sample) =>
    let w := p.window
    let bad (x : Seg) : Bool := !x.lost && decide (x.sentAt + w ≤ sent) && decide (x.sentAt + sample + w ≤ now) &&
      (p.run.isEmpty || decide (p.runSent ≤ x.sentAt))
    if p.segs.any bad then { p with segs := p.segs.map fun x => if bad x then { x with lost := true } else x, loss := true } else p

/-- The effective timeout. -/
def Path.timeout (p : Path) : Nat :=
  if p.run.isEmpty then p.rto else max p.rto (p.run.foldl max 0 + max (4 * p.rttvar) (p.srtt / 4))

/-- RTO_TIMEOUT: the oldest unacknowledged segment is declared lost, and rto doubles. -/
def execRtoTimeout (ctx : Fin 256) (path : Fin 128) (s : State) : Answer :=
  let s := s.watchPath ctx path
  match s.pathOn? ctx path with
  | none => .next s
  | some _ =>
    let p := s.path ctx path
    match p.segs with
    | [] => .next s
    | x :: rest =>
      if x.lost = false ∧ x.sentAt + p.timeout < s.now then
        .next (s.setPath ctx path { p with segs := { x with lost := true } :: rest, rto := min 2000000000 (2 * p.rto), loss := true })
      else .next s

-- # The state of a path (R479)

/-- A path goes DOWN. -/
def State.pathDown (s : State) (ctx i : Nat) (e : PathEntry) : State :=
  let p := s.path ctx i
  if !p.up then s
  else
    let was := s.siteUp ctx e.site
    let s := s.setPath ctx i { p with up := false, downAt := s.now, probed := s.now, quiet := none, probing := false }
    (s.raise (.context ctx) 0x0303 2 i (2 ^ 56 * e.site + p.segs.length)).announceFrom ctx e.site was

/-- The greatest rate of a path. -/
def State.rateMax (s : State) (e : PathEntry) : Rat := if e.rmax = 0 then s.portRate e.port else e.rmax

/-- A path comes UP: its estimator restarts, its rate is INIT, kept within RMIN and RMAX, in slow start. -/
def State.pathUp (s : State) (ctx i : Nat) (e : PathEntry) : State :=
  let p := s.path ctx i
  if p.up then s
  else
    let was := s.siteUp ctx e.site
    let s := s.setPath ctx i { p with
      up := true
      sampled := false
      run := []
      rate := max (s.fld F.FAR_PACE_CFG_RMIN 0 : Nat) (min (s.rateMax e) (s.fld F.FAR_PACE_CFG_INIT 0 : Nat))
      alpha := 0
      slow := true
      loss := false
      interval := s.now
      ceBase := p.ceSeen
      rcvdBase := p.rcvdSeen
      idle := s.now }
    (s.raise (.context ctx) 0x0304 0 i ((s.now - p.downAt) / ms)).announceFrom ctx e.site was

/-- The bytes of an ACK: cumulative point, counts, echo, delay and ranges. -/
structure AckBody where
  cum    : Nat
  rcvd   : Nat
  ce     : Nat
  echo   : Nat
  delay  : Nat
  ranges : List (Nat × Nat)
deriving DecidableEq, Repr

def readAck (b : List Byte) : AckBody :=
  ⟨beAt b 0 4, beAt b 4 4, beAt b 8 4, beAt b 12 4, beAt b 16 4,
    (List.range (min 64 (beAt b 20 2))).map fun i => (beAt b (24 + 8 * i) 4, beAt b (28 + 8 * i) 4)⟩

/-- An ACK covers a PSN. -/
def AckBody.covers (a : AckBody) (n : Nat) : Bool :=
  decide (psnGap n a.cum ≠ 0 ∧ psnGap n a.cum < 2 ^ 31) ||
    a.ranges.any fun r => decide (psnGap r.1 n < psnGap r.1 r.2)

/-- ACK_SEGMENT: acknowledged segments leave the buffer, an RTT sample is taken, and reorder losses are declared (R475, R478). -/
def State.takeAck (s : State) (ctx i : Nat) (e : PathEntry) (a : AckBody) : State :=
  let p := s.path ctx i
  let left := p.segs.filter fun x => !a.covers x.psn
  let back := psnGap a.echo s.now
  let fresh := match p.lastTs with
    | none => a.rcvd != 0
    | some t => decide (t % 2 ^ 32 ≠ a.echo) && decide (t < s.now - back)
  let sample := (s.now + 2 ^ 33 - a.echo - a.delay) % 2 ^ 32
  let s := s.setPath ctx i { p with
    segs := left
    ceSeen := a.ce
    rcvdSeen := a.rcvd
    quiet := if left.isEmpty then none else some s.now
    probing := false
    idle := if left.isEmpty && !p.segs.isEmpty then s.now else p.idle }
  let s := s.pathUp ctx i e
  let s := if fresh then
      if sample < 2000000000 then
        let s := s.modPath ctx i fun p => { p with lastTs := some (s.now - back) }
        let s := s.takeSample ctx i (s.now - back) sample
        s.modPath ctx i fun p => { p with newest := some (s.now - back, sample) }
      else s
    else s
  let s := s.modPath ctx i fun p => p.declare s.now
  ((s.showBuf e.port).roomAgain e.port).grantCredits ctx

/-- ACK_SEGMENT: it may close a gap by its FLOOR or have ACK_NOW set, which is acknowledged at once, and it acknowledges what this gateway has sent
(R474). -/
def execAckSegment (port : Fin 2) (frame : List Byte) (s : State) : Answer :=
  .next (s.received port 2 frame fun s ctx i e h _ closed payload =>
    (s.when (closed || h.ackNow) fun s => s.sendAck ctx i e).takeAck ctx i e (readAck payload))

/-- PROBE_TIMER: a path that has been idle for PROBE_MS, or a DOWN path every 100 ms, sends a probe. -/
def execProbeTimer (ctx : Fin 256) (path : Fin 128) (s : State) : Answer :=
  let s := s.watchPath ctx path
  match s.pathOn? ctx path with
  | none => .next s
  | some e =>
    let p := s.path ctx path
    let due :=
      if p.up then p.segs.isEmpty && (s.nextItem ctx path).isNone && decide (p.idle + ms * s.fld F.FAR_AXT_CFG_PROBE_MS 0 ≤ s.now)
      else decide (p.probed + 100 * ms ≤ s.now)
    if !due then .next s
    else match s.transmit ctx path e 4 4 0 [] with
      | none => .next s
      | some s => .next (s.modPath ctx path fun p => { (if p.up then p.await s.now else p) with idle := s.now, probed := s.now, probing := p.up })

/-- PATH_DEAD_TIMEOUT: no ACK for DEAD_MS while something is outstanding. -/
def execPathDeadTimeout (ctx : Fin 256) (path : Fin 128) (s : State) : Answer :=
  let s := s.watchPath ctx path
  match s.pathOn? ctx path, (s.path ctx path).quiet with
  | some e, some t => if t + ms * s.fld F.FAR_AXT_CFG_DEAD_MS 0 ≤ s.now then .next (s.pathDown ctx path e) else .next s
  | _, _ => .next s

/-- A path table has come into force (R86, R467). -/
def State.startPaths (before s : State) : State :=
  s.each (List.range 256) fun c s =>
    let s := s.each (List.range (max (before.pathCount c) (s.pathCount c))) fun i s => s.watchPath c i
    s.grantCredits c

-- # Pacing (R480)

/-- PACE_INTERVAL: once per control interval, alpha and then the rate. -/
def execPaceInterval (ctx : Fin 256) (path : Fin 128) (s : State) : Answer :=
  let s := s.watchPath ctx path
  match s.pathOn? ctx path with
  | none => .next s
  | some e =>
    let p := s.path ctx path
    if !p.up || decide (s.now < p.interval + max 1000000 p.srtt) then .next s
    else
      let n := psnGap p.rcvdBase p.rcvdSeen
      let f : Rat := if n = 0 then 0 else (psnGap p.ceBase p.ceSeen : Rat) / n
      let al := p.alpha + (f - p.alpha) / 16
      let lo : Rat := (s.fld F.FAR_PACE_CFG_RMIN 0 : Nat)
      let hi := s.rateMax e
      let (r, slow) :=
        if p.loss then (max lo (p.rate * 7 / 10), false)
        else if 0 < f then (max lo (p.rate * (1 - al / 2)), false)
        else if p.slow then (min hi (2 * p.rate), true)
        else (min hi (p.rate + (s.fld F.FAR_PACE_CFG_INC 0 : Nat)), false)
      .next (s.setPath ctx path { p with
        alpha := al, rate := r, slow := slow, loss := false, interval := s.now, ceBase := p.ceSeen, rcvdBase := p.rcvdSeen })

-- # Buffers (R469, R470)

/-- BUFFER_FULL_TIMER: a retransmit buffer has held no room for 10 ms. -/
def execBufferFullTimer (port : Fin 2) (s : State) : Answer :=
  let s := s.roomAgain port
  match s.beganAt 30 port with
  | none => .next s
  | some t =>
    if t + 10 * ms ≤ s.now then .next ((s.endOf 30 port).raise .device 0x0308 1 port (ceilDiv (s.bufUsed port) 1048576)) else .next s

/-- Segments leave the buffer of a path without an acknowledgement; where none is left and no probe is unanswered, nothing is outstanding from now
on. -/
def Path.dropping (p : Path) (out : Seg → Bool) (now : Nat) : Path :=
  let left := p.segs.filter fun x => !out x
  { p with
      segs := left
      drops := p.drops + p.segs.countP out
      quiet := if left.isEmpty && !p.probing then none else p.quiet
      idle := if left.isEmpty then now else p.idle }

/-- A held segment is dropped: DATA that no ledger can still include, or a message past its lifetime. -/
def State.dropsSeg (s : State) (ctx : Nat) (x : Seg) : Bool :=
  if x.typ = 1 then
    match roundField (s.fld F.XCH_ROUND_LAST_APPLIED ctx), x.round with
    | some a, some o => decide (o + s.xcfg F.XCH_STALE_S_MAX ctx < a)
    | _, _ => false
  else decide (x.firstAt + sec * s.fld F.FAR_AXT_CFG_MSG_TTL_S 0 < s.now)

/-- SEGMENT_DROP (R470). -/
def execSegmentDrop (ctx : Fin 256) (path : Fin 128) (s : State) : Answer :=
  let s := s.watchPath ctx path
  match s.pathOn? ctx path with
  | none => .next s
  | some e =>
    let p := s.path ctx path
    let out := p.segs.filter (s.dropsSeg ctx)
    if out.isEmpty then .next s
    else
      let s := s.setPath ctx path (p.dropping (s.dropsSeg ctx) s.now)
      let data := out.countP fun x => x.typ == 1
      let s := s.raise (.context ctx) 0x0309 1 path (2 ^ 32 * data + (out.length - data))
      .next (((s.showBuf e.port).roomAgain e.port).grantCredits ctx)

-- # Ports (R453, R468)

/-- The buffer of a port lies in program-visible memory, outside every enabled context's region. -/
def State.bufPlaced (s : State) (port : Nat) : Bool :=
  let a := 0x10000000 * s.fld F.FAR_PORT_BUF_BASE port
  decide (a + bufSize ≤ s.visibleEnd) &&
    (List.range 256).all fun n => !s.ctxOn n || decide (a + bufSize ≤ s.regionBase n) || decide (s.regionBase n + s.regionSize n ≤ a)

/-- A port goes DOWN, and every path on it. -/
def State.portDown (s : State) (port why : Nat) : State :=
  if !s.portUp port then s
  else
    let s := (s.setFld F.FAR_PORT_STATE_UP port 0).raise .device 0x0301 1 port why
    s.each s.farCtxs fun c s => s.each ((s.pathsOn c).filter fun q => q.2.port == port) fun q s => s.pathDown c q.1 q.2

/-- A write to FAR_PORT_CFG: MODE changes only while EN is 0; EN is held at 0 before S6 (a write of 1 is counted as blocked,
Table 17-7) and for good once the boot count stands at its end (R574); an enable checks the buffer's place. -/
def State.writeFarPort (s : State) (fn port : Nat) (h : Half) (v : Word) : State :=
  s.reaching fn .FAR_PORT_CFG port fun s =>
    let old := s.reg .FAR_PORT_CFG port
    let was := F.FAR_PORT_CFG_EN.of old = 1
    let new := RegName.FAR_PORT_CFG.written h old v
    let new := if was then F.FAR_PORT_CFG_MODE.put new (F.FAR_PORT_CFG_MODE.of old) else new
    let early := s.stage < 6 && F.FAR_PORT_CFG_EN.of new == 1
    let new := if early || s.fld F.SEC_STATE_BOOTS 0 == 0xFFFF then F.FAR_PORT_CFG_EN.put new 0 else new
    let on := F.FAR_PORT_CFG_EN.of new = 1
    let s := (s.when (early && F.FAR_PORT_CFG_EN.hit h v) fun s => s.blockedReg fn .FAR_PORT_CFG port).setReg .FAR_PORT_CFG port new
    if on ∧ ¬ was then s.setFld F.FAR_PORT_CFG_ERR port (b2n (!s.bufPlaced port))
    else if was ∧ ¬ on then s.portDown port 3
    else s

/-- A write to FAR_PORT_BUF: BASE changes only while EN is 0. -/
def State.writeFarBuf (s : State) (fn port : Nat) (h : Half) (v : Word) : State :=
  s.reaching fn .FAR_PORT_BUF port fun s => if s.flag F.FAR_PORT_CFG_EN port then s else s.writeReg .FAR_PORT_BUF port h v

/-- FAR_PORT_ENABLE: a write to FAR_PORT_CFG. -/
def execFarPortEnable (fn : Fin 64) (port : Fin 2) (value : BitVec 64) (s : State) : Answer := .next (s.writeFarPort fn port .whole value)

/-- FAR_PORT_UP: every lane is aligned and the PCS reports no fault; a port whose buffer breaks its rule does not come up (R453, R468). -/
def execFarPortUp (port : Fin 2) (s : State) : Answer :=
  if s.flag F.FAR_PORT_CFG_EN port && !s.portUp port && !s.bufPlaced port then .next (s.setFld F.FAR_PORT_CFG_ERR port 1)
  else if s.flag F.FAR_PORT_CFG_EN port && s.fld F.FAR_PORT_CFG_ERR port == 0 && decide (6 ≤ s.stage) && !s.portUp port then
    let s := ((s.setFld F.FAR_PORT_STATE_UP port 1).setFld F.FAR_PORT_STATE_LF port 0).setFld F.FAR_PORT_STATE_RF port 0
    .next ((s.bumpFld F.FAR_PORT_STATE_UPS port 1).raise .device 0x0302 0 port (s.fld F.FAR_PORT_CFG_MODE port))
  else .next s

/-- FAR_PORT_DOWN: the PCS reports a local or a remote fault. -/
def execFarPortDown (port : Fin 2) (remote : Bool) (s : State) : Answer :=
  let s := s.setFld (if remote then F.FAR_PORT_STATE_RF else F.FAR_PORT_STATE_LF) port 1
  .next (s.portDown port (if remote then 2 else 1))

-- # Key phases (R466)

/-- A write to FAR_PATH_SEL: it selects a path, and SWITCH inverts the phase in which that path sends. -/
def State.writePathSel (s : State) (fn : Nat) (h : Half) (v : Word) : State :=
  s.reaching fn .FAR_PATH_SEL 0 fun s =>
    let s := s.writeReg .FAR_PATH_SEL 0 h v
    let ctx := s.fld F.FAR_PATH_SEL_CTX 0
    let i := s.fld F.FAR_PATH_SEL_PATH 0
    let s := s.watchPath ctx i
    if F.FAR_PATH_SEL_OP.of (h.part v) = 1 ∧ (s.pathOn? ctx i).isSome then s.modPath ctx i fun p => { p with phase := !p.phase }
    else s.showPath

/-- KEY_PHASE_SWITCH. -/
def execKeyPhaseSwitch (fn : Fin 64) (ctx : Fin 256) (path : Fin 128) (s : State) : Answer :=
  .next (s.writePathSel fn .whole (F.FAR_PATH_SEL_OP.put (F.FAR_PATH_SEL_CTX.put (F.FAR_PATH_SEL_PATH.put 0#64 path) ctx) 1))

end Sys2Proof.Machine
end

