-- ==== Sys2Proof/Machine/Adoption.lean ====
section
/-! DEFINITION. What an adoption, or a handback, changes on every device of a site: member tables and the collectives that restart (R395,
R405), forwarding entries (R461), the ledger device (R438), a dropped replica (R510), the samples table (R513), and what waits for a step
boundary (R513 to R515). -/

namespace Sys2Proof.Machine

-- # Member tables (R374, R395)

/-- The device that a member table names at first for a rank. -/
def State.firstAt (s : State) (g : Group) (r : Nat) : Nat :=
  let f (o : Nat) := s.devNat (g.addr + o) 1
  let (dx, dy, dz) := s.torus
  fabricId ((f 4 + g.coord r 0) % dx) ((f 5 + g.coord r 1) % dy) ((f 6 + g.coord r 2) % dz)

/-- Name another device for a rank, and bring the record's CRC up to date. -/
def State.setMember (s : State) (g : Group) (r dev : Nat) : State :=
  let s := s.devWrite (g.addr + 32 + 2 * r) (leBytes 2 dev)
  s.devWrite (g.addr + 28) (leBytes 4 (crc32c (s.devRead g.addr 28 ++ s.devRead (g.addr + 32) (ceilDiv (2 * g.size) 32 * 32))))

/-- A collective begins again from its first phase with the next ATTEMPT (R405). -/
def Coll.restart (x : Coll) (now : Nat) : Coll := { x with attempt := x.attempt + 1, sent := 0, since := now, stalled := false, began := false }

/-- The flit carries an older ATTEMPT of a collective in flight here. -/
def State.stale (s : State) (f : Flit) : Bool :=
  s.colls.any fun x => x.desc.tag == f.stream &&
    (let d := (x.attempt % 16 + 16 - f.attempt) % 16; decide (0 < d) && decide (d < 8))

/-- Restart the collectives in flight that a rewrite concerns. -/
def State.restartColls (s : State) (ctx : Nat) (hit : Coll → Bool) : State :=
  let s := { s with colls := s.colls.map fun (x : Coll) => if x.ctx = ctx ∧ hit x then x.restart s.now else x }
  let gone := (s.inbox.filter fun f => s.stale f.1).map (·.2)
  ({ s with inbox := s.inbox.filter fun f => !s.stale f.1 } : State).each gone fun came s => s.giveBack came

/-- Rewrite the ranks of a group that `pick` names; the device that serves them from now on reports each and sends the rewrite to the
members. -/
def State.rewriteGroup (s : State) (ctx gn dev : Nat) (g : Group) (ranks : List Nat) : State :=
  s.each ranks fun r s =>
    let s := s.setMember g r dev
    s.when (dev == s.deviceId) fun s => (s.post g.members (.rewrite ctx gn r dev)).raise (.context ctx) 0x020C 1 gn (2 ^ 32 * r + dev)

/-- The groups of a context that have ranks to rewrite, with those ranks. -/
def State.ranksToRewrite (s : State) (ctx : Nat) (pick : Group → Nat → Bool) : List (Nat × Group × List Nat) :=
  (List.range (s.stagedFld F.FAB_GRP_COUNT_COUNT ctx .fabric)).filterMap fun gn =>
    match s.group? ctx gn with
    | none => none
    | some g =>
      let rs := (List.range g.size).filter (pick g)
      if rs.isEmpty then none else some (gn, g, rs)

-- # Gateways (R461, R484)

/-- Rewrite the forwarding entries of a failed device, or at a handback those that it had; the answer names their shards. -/
def State.rewriteForward (s : State) (ctx failed adopter : Nat) (back : Bool) : State × List Nat :=
  let base := s.stagedFld F.FAR_FWD_BASE_ADDR ctx .far * 64
  let n := s.stagedFld F.FAR_FWD_COUNT_COUNT ctx .far
  let owner (k : Nat) := s.devNat (base + 8 * k + 4) 2
  let twin (k : Nat) := s.devNat (base + 8 * k + 6) 2
  let hit := (List.range n).filter fun k => owner k == failed && (!back || twin k == 0xFFFF)
  let t := s.each hit fun k t =>
    t.devWrite (base + 8 * k + 4) (if back then leBytes 2 adopter ++ leBytes 2 failed else leBytes 2 (twin k) ++ leBytes 2 0xFFFF)
  (t, hit.map fun k => s.devNat (base + 8 * k) 4)

/-- Send the seals that a gateway keeps for rewritten shards to the adopter; with `ledger`, which says that the adopter takes the ledger device's
place, the joiners' seals too (R484). -/
def State.resendSeals (s : State) (ctx adopter : Nat) (shards : List Nat) (ledger : Bool) : State :=
  s.each ((s.gate ctx).seals.filter fun b =>
      (sealRecs b).any (fun q => shards.contains q.shard) || (ledger && (beAt b 1 1).testBit 0)) fun b s =>
    s.post [adopter] (.message ctx adopter (beAt b 0 1) (beAt b 2 2) 1 b)

-- # The dropped replica (R510)

/-- Bring the tracking of the step's gradient tensors back to where no FINAL collective had converted into them. -/
def State.untrackGrads (s : State) (ctx : Nat) : State :=
  let grads := (s.shards ctx).map (·.gradTensor)
  s.each (s.launches.filter fun l => l.ctx == ctx && l.isStep) fun l s =>
    let s := s.each (l.convs.filter fun v => grads.contains v.tensor) fun v s => s.each v.checked fun b s =>
      let s := s.setScale ctx v.tensor b 20 4 0
      let f := s.scale ctx v.tensor b 17 1
      s.setScale ctx v.tensor b 17 1 (if f.testBit 1 then f - 2 else f)
    s.modLaunch l.queue l.cmd fun l => { l with
      convs := l.convs.map fun v => if grads.contains v.tensor then { v with n := 0, uf := 0 } else v
      nonzero := l.nonzero.filter fun t => !grads.contains t }

/-- The FINAL collectives and the NORM of the open step that have completed are in flight again, and what they left is undone. -/
def State.reviveFinals (s : State) (ctx : Nat) : State :=
  match NMap.get? s.steps ctx with
  | none => s
  | some p =>
    let s := s.untrackGrads ctx
    let s := { s with colls := s.colls ++ p.finals.map fun (x : Coll) => { x with again := true } }
    let s := s.each (p.finals.filter fun x => x.desc.flags.testBit 1) fun _ s => s.activityIn ctx 5
    let s := s.when p.decision.isSome fun s => s.activityIn ctx 6
    let s := s.each (s.engines.filter fun (e : Nat × Engine) => e.2.ctx == ctx && e.2.kind == PassKind.intake) fun e s => s.endPass e.1
    s.modStep ctx fun p => { p with
      finals := [], locals := [], finalised := [], handed := [], received := [], intakes := [], waiting := [], decision := none, mirror := none }

/-- Every held wait, barrier and WAITT of the step's launch is released as satisfied. -/
def State.releaseHolds (s : State) (ctx : Nat) : State :=
  s.each (s.launches.filter fun l => l.ctx == ctx && l.isStep) fun l s => s.each l.tiles fun t s =>
    let s := s.when (s.tile t).mainHeld.isSome fun s =>
      let s := s.cancelWaits (.tile t)
      let s := { s with objs := s.objs.map fun (p : Nat × SyncObj) => (p.1, { p.2 with arrived := p.2.arrived.erase t, parked := p.2.parked.erase t }) }
      s.releaseTile t true
    s.when (s.tile t).bodyHeld.isSome fun s => (s.cancelWaits (.body t)).releaseBody t true

/-- A replica is dropped from the open step: its sample count is 0, and a device of it stops taking part. -/
def State.dropReplica (s : State) (ctx replica : Nat) : State :=
  match NMap.get? s.steps ctx with
  | none => s
  | some p =>
    let s := s.modStep ctx fun p => { p with samples := p.samples.set replica 0 }
    s.when (s.stagedFld F.PAIR_CTX_REPLICA ctx .base == replica) fun s =>
      ((s.setFld F.PAIR_CTX_STATE_DROPPED ctx 1).raise (.context ctx) 0x0407 1 replica (p.index % 2 ^ 32)).releaseHolds ctx

-- # The samples table (R513, R515)

/-- The base and the length of the samples table. -/
def State.sampleTable (s : State) (ctx : Nat) : Nat × Nat :=
  (s.stagedFld F.PAIR_SAMP_BASE_ADDR ctx .base * 8, s.stagedFld F.PAIR_SAMP_COUNT_COUNT ctx .base)

/-- CURRENT of every replica. -/
def State.currentSamples (s : State) (ctx : Nat) : List Nat :=
  let (a, n) := s.sampleTable ctx
  (List.range n).map fun i => s.devNat (a + 8 * i) 4

/-- Half of the affected replicas' samples go, granule by granule, to the others in ascending order; the answer gives the samples moved. -/
def rebalanced (granule a b : Nat) (cur : List Nat) : List Nat × Nat :=
  let affected (i : Nat) : Bool := i == a || i == b
  let keep (c : Nat) : Nat := c / 2 / granule * granule
  let others := (List.range cur.length).filter fun i => !affected i
  let freed := ((List.range cur.length).map fun i => if affected i then cur.getD i 0 - keep (cur.getD i 0) else 0).foldl (· + ·) 0
  let k := freed / granule
  let m := others.length
  let more (i : Nat) : Nat := if m = 0 then 0 else granule * (k / m + b2n (decide (others.idxOf i < k % m)))
  ((cur.zipIdx).map fun c => if affected c.2 then keep c.1 else c.1 + more c.2, if m = 0 then 0 else k * granule)

/-- Rewrite the samples table for an adoption. -/
def State.rebalance (s : State) (ctx a b : Nat) : State :=
  let (base, _) := s.sampleTable ctx
  let (l, moved) := rebalanced (max 1 (s.stagedFld F.PAIR_CTX_GRANULE ctx .base)) a b (s.currentSamples ctx)
  let s := s.each l.zipIdx fun c s => s.devWrite (base + 8 * c.2) (leBytes 4 c.1)
  s.raise (.context ctx) 0x0408 1 a moved

/-- Set CURRENT to BASELINE. -/
def State.restoreSamples (s : State) (ctx : Nat) : State :=
  let (base, n) := s.sampleTable ctx
  s.each (List.range n) fun i s => s.devWrite (base + 8 * i) (s.devRead (base + 8 * i + 4) 4)

/-- The rebalancing that waits for a step boundary of a context. -/
def State.rebalanceDue (s : State) (ctx : Nat) : State :=
  let l := NMap.getD s.rebalances ctx []
  let s := { s with rebalances := NMap.erase s.rebalances ctx }
  s.each l fun p s => s.rebalance ctx p.1 p.2

-- # The shard table (R508, R515)

/-- Show how many adopted shards a context has. -/
def State.showAdopted (s : State) (ctx : Nat) : State :=
  s.setFld F.PAIR_CTX_STATE_ADOPTED ctx ((s.shards ctx).countP fun x => s.owns x && x.adopted)

/-- The twin's id. -/
def State.twinId (s : State) : Nat := s.fld F.PAIR_STATE_TWIN_ID 0

/-- The pair is whole again once no adopted shard is left in any context (R515). -/
def State.handbackEnd (s : State) : State :=
  if (List.range 256).any fun n => (s.shards n).any Shard.adopted then s
  else
    let s := (s.setFld F.PAIR_STATE_STATE 0 2).raise .device 0x040A 0 s.twinId s.pair.back
    { s with pair := { s.pair with handback := false, receiver := false, copying := false, back := 0 }, copied := [], copying := [] }

/-- Give the adopted shards of a context back to the repaired twin: each names its owner again and its mirror. -/
def State.returnShards (s : State) (ctx owner twin : Nat) : State :=
  let l := (s.shards ctx).filter Shard.adopted
  let s := s.each l fun x s => s.setShardOwner x owner twin (x.flags - 8)
  let s := s.showAdopted ctx
  { s with pair := { s.pair with back := s.pair.back + l.length } }

-- # Announcements (R508, R515)

/-- The announcement of an adoption, or with `back` of a handback, takes effect on a device. -/
def State.takeAdoption (s : State) (ctx failed adopter replica other : Nat) (drop back : Bool) : State :=
  let s := s.when drop fun s => s.reviveFinals ctx
  let todo := s.ranksToRewrite ctx fun g r => g.members.getD r 0xFFFF == failed && (!back || s.firstAt g r == adopter)
  let s := s.each todo fun x s => s.rewriteGroup ctx x.1 adopter x.2.1 x.2.2
  let s := s.restartColls ctx fun x =>
    todo.any (fun y => y.1 == x.desc.groupNum) || (drop && (x.desc.flags.testBit 1 || x.desc.op == 4))
  let s := s.modStep ctx fun p => { p with
    adopted := true
    lost := if back then p.lost else p.lost ++ todo.flatMap fun y => y.2.2.map fun r => (y.1, r) }
  let (s, shards) := s.rewriteForward ctx failed adopter back
  let ledger := s.ledgerId ctx == failed
  let s := s.modGate ctx fun g => { g with adopters := if back then NMap.erase g.adopters adopter else NMap.set g.adopters failed adopter }
  let s := s.modXch ctx fun x => { x with
    noPath := if back then x.noPath else x.noPath ++ (List.range 64).map fun k => (failed, k)
    owners := x.owners.filter fun o => o.1 != failed && o.1 != adopter
    done := if adopter = s.deviceId then [] else x.done }
  let s := s.when (!back) fun s => s.resendSeals ctx adopter shards ledger
  let s := s.when drop fun s => s.dropReplica ctx replica
  if back then
    let s := s.restoreSamples ctx
    if adopter = s.twinId ∧ failed = s.deviceId ∧ s.fld F.PAIR_STATE_STATE 0 = 4 then (s.returnShards ctx adopter failed).handbackEnd else s
  else
    let s := { s with rebalances := NMap.update s.rebalances ctx [] (· ++ [(replica, other)]) }
    if (NMap.get? s.steps ctx).isNone then s.rebalanceDue ctx else s

-- # Step boundaries (R513 to R515)

/-- A repaired twin takes its shards of a context back. -/
def State.handbackAt (s : State) (ctx : Nat) : State :=
  if !(s.shards ctx).any Shard.adopted then s
  else
    let me := s.deviceId
    let b := s.twinId
    let s := s.returnShards ctx me b
    let s := s.each ((s.shards ctx).filter fun x => !s.owns x && !s.mirrors x) fun x s => s.setShardFlags x (x.flags ||| 4)
    ((s.post s.siteOthers (.adoption ctx b me 0 0 false true)).takeAdoption ctx b me 0 0 false true).handbackEnd

/-- Copy the owned shards of a context to a twin under reintegration. -/
def State.sendCopies (s : State) (ctx : Nat) : State :=
  let l := (s.shards ctx).filter fun x =>
    s.owns x && x.twin == s.twinId && !s.copying.contains (ctx, x.num) && !s.copied.contains (ctx, x.num)
  s.each l fun x s =>
    let s := s.each (List.range x.digestBlocks) fun b s => (s.readBlock ctx x b).postMir (.copy ctx x.num b (s.blockBytes x b))
    { s with copying := s.copying ++ [(ctx, x.num)] }

/-- What waits for a boundary between two steps of a context. -/
def State.stepBoundary (s : State) (ctx : Nat) : State :=
  let s := s.rebalanceDue ctx
  let s := s.when (s.pair.copying && s.fld F.PAIR_STATE_STATE 0 == 4) fun s => s.sendCopies ctx
  s.when (s.pair.handback && s.fld F.PAIR_STATE_STATE 0 == 4) fun s => s.handbackAt ctx

end Sys2Proof.Machine
end

