-- ==== Sys2Proof/Machine/Portable.lean ====
section
/-! DEFINITION. Portable records: which operands fit their native fields (R139, R140), and the value that the order of a TMMA fixes, with
the split-reduction tree (R191 to R196, R198). -/

namespace Sys2Proof.Machine

-- # Operand words (R139, R140)

/-- An immediate fits a field: as a signed number where the field is one, else as any number or negative number of so many bits (DEDUCED, log
86). -/
def NatField.takes (f : NatField) (v : Int) : Bool :=
  match f with
  | .bits n signed => decide (-(2 ^ (n - 1) : Int) ≤ v) && decide (v < (2 ^ (if signed then n - 1 else n) : Int))
  | _ => true

/-- A record supplies each field of its native operation, and its guard, once (DEDUCED, log 86). -/
def operandCount (pop k : Nat) (guarded : Bool) : Bool :=
  decide (0x400 ≤ pop) || k == (nativeFields pop).length + (if guarded then 1 else 0)

/-- The entries of an image's constant pool. -/
def poolSize (img : List Byte) : Nat :=
  match imageSection img 2 with
  | none => 0
  | some (a, n) => Config.constEntries ((img.drop a).take n)

/-- An operand word whose value does not fit the native field that it supplies: an immediate wider than the field, or a constant-pool index
beyond the pool (R140). An operand whose KIND does not suit the field is no such value (DESIGN CHOICE, log 118). -/
def operandMisfit (img : List Byte) (pop i word : Nat) : Bool :=
  match word / 2 ^ 28 with
  | 4 => !((nativeFields pop)[i]?.elim NatField.sreg (·.2)).takes (signedOf 28 word)
  | 5 => decide (poolSize img ≤ word % 2 ^ 28)
  | _ => false

-- # The value (R191, R194, R196)

/-- Combine INT32 partials by the tree of R196: VIADD takes the place of VADD. -/
def combineInts (l : List Nat) : Nat :=
  let n := padTwo l.length
  treeSum (fun a b => (a + b) % 2 ^ 32) (Nat.log2 n) (l ++ List.replicate (n - l.length) 0)

/-- Combine the partials of a split within one device, a TRED among them (R196, R198). -/
def combineSplit (int : Bool) (l : List Nat) : Nat := if int then combineInts l else combineTree l

/-- The block of a plan that holds an output element. -/
def TmmaPlan.blockAt (x : TmmaPlan) (i j : Nat) : Option TmmaBlock :=
  x.blocks.find? fun b => decide (b.row ≤ i) && decide (i < b.row + b.rows) && decide (b.col ≤ j) && decide (j < b.col + b.cols)

/-- The replication factor of a block's shape (R190). -/
def TmmaBlock.count (b : TmmaBlock) : Nat := 4096 / (16 * 2 ^ b.msh * (16 * 2 ^ b.nsh))

/-- The partial of a chunk: what an MMA of the block's shape leaves in the element's cell, started from a value (R191, R241). -/
def chunkPartial (her : Bool) (fmt count : Nat) (p : Nat → Num × Bool) (c : Nat × Nat) (start : Nat) : Nat :=
  let q (k : Nat) := p (c.1 + k)
  if fmt = 0xB then mmaCellInt q c.2 start
  else if her then (mmaCellHer q c.2 start).1
  else (mmaCell q c.2 (groupSize fmt) count start).1

/-- The value of an output element of a TMMA with the products `p` over k, which accumulates into `cin` where it accumulates at all: the chunks'
partials, the first started from `cin`, combined by the tree (R194); in a chain each chunk starts from what the one before it left. -/
def TmmaPlan.value (x : TmmaPlan) (her : Bool) (p : Nat → Num × Bool) (cin i j : Nat) : Nat :=
  let count := ((x.blockAt i j).map TmmaBlock.count).getD 1
  let start := if x.adds then cin else 0
  if x.chain then x.chunks.foldl (fun v c => chunkPartial her x.fmta count p c v) start
  else combineSplit (x.fmta == 0xB) ((x.chunks.zipIdx).map fun c => chunkPartial her x.fmta count p c.1 (if c.2 = 0 then start else 0))

end Sys2Proof.Machine
end

