-- ==== Sys2Proof/Machine/Binder.lean ====
section
/-! DEFINITION. The binder (R62 to R68, R136 to R140, R155, R252, R255, R256, R263, R294 to R296, R614): what is wrong with a Tarca-P
image, what of it does not fit, and what a load leaves in the context. -/

namespace Sys2Proof.Machine

-- # Places of faults

/-- The lower of two offsets of faults. -/
def firstFault : Option Nat → Option Nat → Option Nat
  | none, b => b
  | a, none => a
  | some a, some b => some (min a b)

/-- The lowest offset of a list of faults. -/
def lowest (l : List (Option Nat)) : Option Nat := l.foldl firstFault none

/-- A fault at an offset. -/
def faultIf (c : Bool) (off : Nat) : Option Nat := if c then some off else none

/-- The first non-zero byte of a reserved range. -/
def reservedFault (img : List Byte) (off n : Nat) : Option Nat :=
  (((img.drop off).take n).findIdx? fun b => b != 0).map fun i => off + i

-- # Header and section table (R136 to R138)

/-- The first faulty byte of a field at an offset: the one that holds the lowest of the given bits, if any is set. -/
def badBits (off bits : Nat) : Option Nat := ((List.range 64).find? bits.testBit).map fun i => off + i / 8

/-- The bytes that the image holds of a field differ from what the field must hold; a field that lies beyond the image differs in nothing. -/
def differs (img : List Byte) (off : Nat) (want : List Byte) : Bool :=
  let got := (img.drop off).take want.length
  got != want.take got.length

/-- The CRC of the whole image, its own bytes taken as zero. -/
def imageCrc (img : List Byte) : Nat := crc32c (img.take 60 ++ List.replicate 4 0 ++ img.drop 64)

/-- The faults of the header (Table 3-18); `len` is the length that LOAD_PROGRAM gives. A field that must hold one value, or a value of a
range, is reported at its offset, a reserved bit at its byte (R138; log 86). -/
def headerFault (img : List Byte) (len : Nat) : Option Nat :=
  lowest [
    faultIf (differs img 0 (leBytes 4 0x50435254)) 0,
    faultIf (differs img 4 (leBytes 2 1)) 4,
    faultIf (differs img 8 (leBytes 4 64)) 8,
    faultIf (imageNat img 12 4 != len || decide (len < 64) || decide (imageNat img 12 4 < 64)) 12,
    faultIf (imageNat img 16 2 == 0 || decide (64 < imageNat img 16 2) || decide (len < 64 + 16 * imageNat img 16 2)) 16,
    badBits 18 (imageNat img 18 2 / 2 * 2),
    badBits 20 (imageNat img 20 4 / 16 * 16),
    faultIf (imageNat img 24 2 == 0 || decide (256 < imageNat img 24 2)) 24,
    reservedFault img 26 34,
    faultIf (imageNat img 60 4 != imageCrc img) 60]

/-- The faults of the section table. SFLAGS bits [15:1] have no meaning and are not called reserved: any value is taken (DESIGN CHOICE, log
87). A section of length 0 overlaps nothing. -/
def sectionFault (img : List Byte) (len : Nat) : Option Nat :=
  let l := imageSections img
  let table := 64 + 16 * l.length
  lowest ((l.zipIdx).map fun x =>
    let (ty, fl, off, n) := x.1
    let a := 64 + 16 * x.2
    let before := l.take x.2
    lowest [
      faultIf ((decide (1 ≤ ty) && decide (ty ≤ 6) && before.any fun y => y.1 == ty) || (!(decide (1 ≤ ty) && decide (ty ≤ 6)) && fl.testBit 0)) a,
      faultIf (decide (len < off + n) || decide (off < table ∧ n ≠ 0) ||
        before.any fun y => decide (y.2.2.1 < off + n ∧ off < y.2.2.1 + y.2.2.2 ∧ n ≠ 0 ∧ y.2.2.2 ≠ 0)) (a + 4),
      reservedFault img (a + 12) 4])

-- # CODE records (R139, R140)

/-- A POP that Tarca-P defines. -/
def popDefined (p : Nat) : Bool :=
  let op := p % 256
  match p / 256 with
  | 0 => op == 0 || [1, 2, 3, 8, 9, 0xA, 0xB, 0xC].contains op
  | 1 => decide (op ≤ 0x1D) || op == 0x20
  | 2 => op == 0 || [1, 2, 3, 4, 8, 9, 0xA].contains op
  | 3 => decide (op ≤ 0xD) || [0x10, 0x11, 0x18, 0x19, 0x1A, 0x20, 0x21, 0x22, 0x23, 0x24, 0x30, 0x31, 0x32, 0x33, 0x34].contains op
  | 4 => op == 0 || op == 1 || op == 0x80
  | _ => false

/-- The faults of one record among so many: a reserved POP, a reserved flag, GNEG without GUARD, a guard whose last operand is of another
KIND than 2, which is reported at the record (DESIGN CHOICE, log 87), a number of operands that its operation does not have, and each
operand that is of no KIND, names no record, or does not fit its native field (R139, R140). -/
def recordFault (img : List Byte) (count a : Nat) : Option Nat :=
  let w := imageNat img a 4
  let k := bitsOf w 16 4
  let last := imageNat img (a + 4 * k) 4
  lowest (
    faultIf (!popDefined (w / 2 ^ 20)) (a + 2) :: badBits a (bitsOf w 4 12 * 16) ::
    faultIf ((w.testBit 3 && !w.testBit 2) || (w.testBit 2 && (k == 0 || last / 2 ^ 28 != 2))) a ::
    faultIf (!operandCount (w / 2 ^ 20) k (w.testBit 2)) (a + 2) ::
    (List.range k).map fun i =>
      let o := imageNat img (a + 4 + 4 * i) 4
      faultIf (decide (7 < o / 2 ^ 28) || (o / 2 ^ 28 == 6 && decide (count ≤ o % 2 ^ 28)) || operandMisfit img (w / 2 ^ 20) i o)
        (a + 4 + 4 * i))

/-- The faults of the CODE section. -/
def codeFault (img : List Byte) : Option Nat :=
  let (rs, bad) := imageRecords img
  lowest (bad :: rs.map (recordFault img rs.length))

/-- The image holds a COLL record. -/
def imageColl (img : List Byte) : Bool := (imageRecords img).1.any fun a => imageNat img a 4 / 2 ^ 20 == 0x20A

-- # RESOURCES (R614)

/-- A RESOURCES entry. -/
structure Need where
  off  : Nat
  ty   : Nat
  fl   : Nat
  a    : Nat
  b    : Nat
  c    : Nat
deriving DecidableEq, Repr

/-- The entries of the RESOURCES section. -/
def imageNeeds (img : List Byte) : List Need :=
  match imageSection img 3 with
  | none => []
  | some (s, n) =>
    (List.range (min (imageNat img s 4) (n / 24))).map fun i =>
      let o := s + 8 + 24 * i
      ⟨o, imageNat img o 2, imageNat img (o + 2) 2, imageNat img (o + 4) 4, imageNat img (o + 8) 8, imageNat img (o + 16) 8⟩

/-- An entry whose fields its type allows (Table 3-19), in an image of so many stages. -/
def Need.ok (stages : Nat) (x : Need) : Bool :=
  x.fl == 0 && x.c == 0 &&
    match x.ty with
    | 1 => decide (1 ≤ x.a) && decide (x.a ≤ 512) && x.b == 0
    | 2 => x.b == 0
    | 3 => x.a == 0
    | 4 => x.b == 0
    | 5 =>
      let k := bitsOf x.a 16 2
      decide (x.a < 2 ^ 18) && k != 3 && (k != 1 || (x.a % 2 == 0 && decide (1 ≤ x.b) && decide (x.b < 2 ^ 16)))
        && (k != 2 || (decide (1 ≤ x.b) && decide (x.b ≤ 512)))
    | 6 => decide (x.a < stages) && decide (x.b < 2 ^ 16)
    | _ => false

/-- Two entries of which the section may hold one alone. -/
def Need.clash (x y : Need) : Bool :=
  x.ty == y.ty && (decide (x.ty ≤ 4) || (x.ty == 5 && x.a % 2 ^ 16 == y.a % 2 ^ 16))

/-- The faults of the RESOURCES section. A section with no TILES entry has no entry to name: its own offset stands for it. Bytes after the
last entry are not looked at (DESIGN CHOICE, log 87), nor whether a stage with RING above 1 has one RING_GROUP entry (DESIGN CHOICE, log 118). -/
def needsFault (img : List Byte) : Option Nat :=
  match imageSection img 3 with
  | none => some 16
  | some (s, n) =>
    let l := imageNeeds img
    lowest ([faultIf (decide (n < 8) || decide (n < 8 + 24 * imageNat img s 4)) s, reservedFault img (s + 4) 4,
        faultIf (!l.any fun x => x.ty == 1) s] ++
      (l.zipIdx).map fun x => faultIf (!x.1.ok (imageNat img 24 2) || (l.take x.2).any x.1.clash) x.1.off)

/-- The A field of the entry of a type, or 0. -/
def needA (img : List Byte) (ty : Nat) : Nat := ((imageNeeds img).find? fun x => x.ty == ty).elim 0 fun x => x.a

/-- The B field of the entry of a type, or 0. -/
def needB (img : List Byte) (ty : Nat) : Nat := ((imageNeeds img).find? fun x => x.ty == ty).elim 0 fun x => x.b

-- # STAGES (R252, R255)

/-- A stage record (Table 7-2). -/
structure StageRec where
  off    : Nat
  stage  : Nat
  micro  : Nat
  quota  : Nat
  seg    : Nat
  bslot  : Nat
  nbnd   : Nat
  sflags : Nat
  fwd    : Nat
  bwd    : Nat
  tokens : Nat
  ring   : Nat
  layout : Nat
deriving DecidableEq, Repr

/-- The count word's parts: stage records and tie-use records. -/
def stageCounts (img : List Byte) : Nat × Nat :=
  match imageSection img 4 with
  | none => (0, 0)
  | some (a, _) => (imageNat img a 4, imageNat img (a + 4) 4)

/-- The stage records of an image. -/
def imageStages (img : List Byte) : List StageRec :=
  match imageSection img 4 with
  | none => []
  | some (s, n) =>
    (List.range (min (imageNat img s 4) (n / 64))).map fun i =>
      let o := s + 8 + 64 * i
      let f (x k : Nat) := imageNat img (o + x) k
      ⟨o, f 0 4, f 4 4, f 8 4, f 12 4, f 16 4, f 20 2, f 22 1, f 24 4, f 28 4, f 32 4, f 36 2, f 38 1⟩

/-- The faults of one stage record. -/
def stageFault (img : List Byte) (records : Nat) (x : StageRec) : Option Nat :=
  lowest [
    faultIf (decide (imageNat img 24 2 ≤ x.stage)) x.off,
    faultIf (x.micro == 0 || decide (65535 < x.micro)) (x.off + 4),
    faultIf (x.bslot == 0 || x.bslot % 64 != 0) (x.off + 16),
    faultIf (x.nbnd == 0 || decide (4096 < x.nbnd)) (x.off + 20),
    badBits (x.off + 22) (x.sflags / 4 * 4), reservedFault img (x.off + 23) 1,
    faultIf (decide (records ≤ x.fwd)) (x.off + 24), faultIf (decide (records ≤ x.bwd)) (x.off + 28),
    faultIf (x.ring == 0) (x.off + 36),
    faultIf (decide (1 < x.layout) || (x.layout == 1 && x.tokens % 2 == 1)) (x.off + 38), reservedFault img (x.off + 39) 25]

/-- A group has 2 to 16 uses, numbered from 0 without gaps (R252). -/
def tieFault (l : List (Nat × Nat × Nat × Nat)) : Option Nat :=
  lowest ((l.zipIdx).map fun x =>
    let (o, g, u, r) := x.1
    let mates := l.filter fun y => y.2.1 == g
    let twice := (l.take x.2).any fun y => y.2.1 == g && y.2.2.1 == u
    faultIf (r != 0 || decide (15 < u) || twice || decide (mates.length ≤ u) || decide (mates.length < 2)) o)

/-- The faults of the STAGES section. -/
def stagesFault (img : List Byte) : Option Nat :=
  match imageSection img 4 with
  | none => none
  | some (s, n) =>
    let (a, b) := stageCounts img
    let records := (imageRecords img).1.length
    lowest ([faultIf (decide (n < 8) || n != 8 + 64 * a + 8 * b) s, tieFault (imageTies img)] ++
      (imageStages img).map (stageFault img records))

-- # UPDATE (R294 to R296)

/-- The engine instruction of a word, and which of D, A, B, C and MOD it uses (Table 8-6). -/
def engInstr (w : Nat) : Option (Instr × List Bool) :=
  let f (lo : Nat) : Fin 64 := Fin.ofNat 64 (bitsOf w lo 6)
  let o : EngOps := ⟨0, f 20, f 14, f 8, f 2, Fin.ofNat 4 w⟩
  let d := true
  let n := false
  match w / 2 ^ 26 with
  | 0x00 => some (.engineNop o, [n, n, n, n, n])
  | 0x01 => some (.ld o, [d, d, n, n, n])
  | 0x02 => some (.st o, [n, d, d, n, d])
  | 0x03 => some (.ldm o, [d, n, n, n, n])
  | 0x04 => some (.stm o, [n, d, n, n, n])
  | 0x05 => some (.ldv o, [d, n, n, n, n])
  | 0x06 => some (.wadd o, [d, d, d, n, n])
  | 0x07 => some (.wmul o, [d, d, d, n, n])
  | 0x08 => some (.wtof o, [d, d, n, n, n])
  | 0x10 => some (.add o, [d, d, d, n, n])
  | 0x11 => some (.sub o, [d, d, d, n, n])
  | 0x12 => some (.mul o, [d, d, d, n, n])
  | 0x13 => some (.fma o, [d, d, d, d, n])
  | 0x14 => some (.fms o, [d, d, d, d, n])
  | 0x15 => some (.div o, [d, d, d, n, n])
  | 0x16 => some (.max o, [d, d, d, n, n])
  | 0x17 => some (.min o, [d, d, d, n, n])
  | 0x18 => some (.abs o, [d, d, n, n, n])
  | 0x19 => some (.neg o, [d, d, n, n, n])
  | 0x1A => some (.sqrt o, [d, d, n, n, n])
  | 0x1B => some (.rsq o, [d, d, n, n, n])
  | 0x1C => some (.rcp o, [d, d, n, n, n])
  | 0x1D => some (.exp2 o, [d, d, n, n, n])
  | 0x1E => some (.log2 o, [d, d, n, n, n])
  | 0x1F => some (.csgn o, [d, d, d, n, n])
  | 0x20 => some (.cmp o, [d, d, d, d, n])
  | 0x21 => some (.sel o, [d, d, d, d, n])
  | _ => none

/-- An instruction word that the engines take: a defined opcode, register kinds that it allows, unused fields zero. -/
def engWordOk (w : Nat) : Bool :=
  match engInstr w with
  | none => false
  | some (i, use) =>
    let fields := [bitsOf w 20 6, bitsOf w 14 6, bitsOf w 8 6, bitsOf w 2 6, bitsOf w 0 2]
    i.wellFormed && (List.zip use fields).all (fun x => x.1 || x.2 == 0) &&
      (w / 2 ^ 26 != 0x20 || decide (bitsOf w 2 6 < 8)) && (w / 2 ^ 26 != 0x02 || decide (bitsOf w 0 2 < 2))

/-- The record's offset and number of instructions of the microprograms of an image, as far as they lie in it. -/
def microOffsets (img : List Byte) : Nat → Nat → List (Nat × Nat)
  | 0, _ => []
  | n + 1, a => (a, imageNat img a 2) :: microOffsets img n (a + 64 + 4 * imageNat img a 2)

/-- The microprograms' records: no more than the image has room for. -/
def imageUpdate (img : List Byte) : List (Nat × Nat) :=
  match imageSection img 5 with
  | none => []
  | some (a, _) => microOffsets img (min (img.length / 64 + 1) (imageNat img a 4)) (a + 4)

/-- The faults of one microprogram's record. -/
def microFault (img : List Byte) (x : Nat × Nat) : Option Nat :=
  let (a, n) := x
  lowest ([faultIf (n == 0) a, badBits (a + 2) (imageNat img (a + 2) 2 / 2 ^ 13 * 2 ^ 13),
      faultIf (decide (15 < imageNat img (a + 4) 1) && imageNat img (a + 4) 1 != 0xFF) (a + 4), reservedFault img (a + 5) 3,
      reservedFault img (a + 40) 24] ++
    (List.range n).map fun i => faultIf (!engWordOk (imageNat img (a + 64 + 4 * i) 4)) (a + 64 + 4 * i))

/-- A sketched shard whose microprogram has no SK_BETA (R295), or FP16 gradient blocks that do not align to 256 elements of each
shard (R278), by the table in force. -/
def State.shardFault (s : State) (ctx : Nat) (img : List Byte) : Option Nat :=
  let ms := imageUpdate img
  lowest ((s.shards ctx).map fun x =>
    match ms[x.prog]? with
    | none => none
    | some (a, _) =>
      let t := x.gradTensor
      let fp16 := t != 0xFFFFFFFF && s.tracked ctx t && s.desc ctx t 1 1 == 2
      let split := fp16 && (List.range (ceilDiv x.elems 256)).any fun j =>
        s.blockOf ctx t (x.elemFirst + 256 * j) != s.blockOf ctx t (x.elemFirst + min x.elems (256 * j + 256) - 1)
      lowest [faultIf (x.sketch && imageNat img (a + 4) 1 == 0xFF) (a + 4), faultIf split a])

/-- The faults of the UPDATE section, but for the counts that a fit refuses. -/
def State.updateFault (s : State) (ctx : Nat) (img : List Byte) : Option Nat :=
  match imageSection img 5 with
  | none => none
  | some (a, n) =>
    let ms := imageUpdate img
    let stop := (ms.getLast?).elim (a + 4) fun x => x.1 + 64 + 4 * x.2
    lowest ([faultIf (imageNat img a 4 == 0 || n != stop - a) a, s.shardFault ctx img] ++ ms.map (microFault img))

-- # The outcome of a load

/-- How a binding ends. -/
inductive Bound where
  | format (off : Nat)
  | fit (reason kind place need avail : Nat)
  | service
  | ok
deriving DecidableEq, Repr

/-- The inputs that fix a binding (R64): the image, the operand words, the parameter block, the stepping and the granted sori of each
die. -/
def State.bindKey (s : State) (ctx : Nat) (e : Sqe) (img params : List Byte) : List Byte :=
  let m := s.fld F.QUE_CTX_SORI_MASK ctx
  img ++ [e.w3, e.w4, e.w5, e.w6, e.w7].flatMap (leBytes 8) ++ params ++ leBytes 1 (s.fld F.HIF_ID_STEPPING 0) ++
    (List.range 4).flatMap fun d => leBytes 1 (popCount 8 (m / 2 ^ (8 * d)))

/-- The micro-batches in flight of a stage (R256). -/
def inFlightOf (img : List Byte) (x : StageRec) : Nat := min (imageNat img 24 2 - x.stage) x.micro

/-- The static stash need of a stage in bytes, and its quota (R256). -/
def staticNeed (img : List Byte) (x : StageRec) : Nat := inFlightOf img x * (x.nbnd * x.bslot + 1024 * x.seg)

/-- The boundary arena's bytes. -/
def boundaryBytes (img : List Byte) (x : StageRec) : Nat := inFlightOf img x * x.nbnd * x.bslot

/-- The stage records of the stages this device holds, in the order of the local stages. -/
def localRecs (img key : List Byte) : List StageRec :=
  (Config.localStages key).filterMap fun n => (imageStages img).find? fun x => x.stage == n

/-- What an entry of RESOURCES names is mapped with another kind or other parameters (R155). -/
def State.syncClash (s : State) (ctx : Nat) (x : Need) : Bool :=
  let vid := x.a % 65536
  match NMap.get? s.objs (65536 * ctx + vid) with
  | some o =>
    let k : Nat := match o.kind with | .counter => 0 | .bounded => 1 | .barrier => 2
    k != bitsOf x.a 16 2 || o.n != x.b
  | none =>
    match s.named ctx vid with
    | .object .. => true
    | _ => bitsOf x.a 16 2 == 1 && (match s.named ctx (vid + 1) with | .object .. => true | _ => false)

/-- The SYNC entries. -/
def syncNeeds (img : List Byte) : List Need := (imageNeeds img).filter fun x => x.ty == 5

/-- The kind that an entry gives. -/
def Need.kind (x : Need) : ObjKind := match bitsOf x.a 16 2 with | 0 => .counter | 1 => .bounded | _ => .barrier

/-- Two entries name an id in common: a BOUNDED names two (R148). -/
def Need.shares (x y : Need) : Bool :=
  let v := x.a % 65536
  let w := y.a % 65536
  decide (v < w + y.kind.ids) && decide (w < v + x.kind.ids)

/-- The first entry, in order, whose id is mapped with another kind or other parameters, by an object that stands or by one that the entries
before it make (R155). -/
def State.needClash (s : State) (ctx : Nat) (l : List Need) : Option Need :=
  ((l.zipIdx).find? fun x => s.syncClash ctx x.1 || (l.take x.2).any x.1.shares).map (·.1)

/-- Create the objects of the entries that name unmapped ids, in order: the state with the ids made, or where counters run out those needed
and those free (R155). -/
def State.makeNeeds (ctx : Nat) : List Need → State × List Nat → Except (Nat × Nat) (State × List Nat)
  | [], a => .ok a
  | x :: rest, (s, made) =>
    let vid := x.a % 65536
    if (NMap.get? s.objs (65536 * ctx + vid)).isSome then State.makeNeeds ctx rest (s, made)
    else
      let d := s.bestDie
      if s.freeCounters d < x.kind.counters then .error (x.kind.counters, s.freeCounters d)
      else State.makeNeeds ctx rest (s.makeObj ctx vid x.kind d x.b true, made ++ [vid])

/-- The first format fault of an image (R68, R138). The header and the section table come first: nothing after them is read where they
are wrong. -/
def State.formatFault (s : State) (ctx : Nat) (img : List Byte) (len : Nat) : Option Nat :=
  match firstFault (headerFault img len) (if img.length < 64 then none else sectionFault img len) with
  | some o => some o
  | none => lowest [codeFault img, needsFault img, stagesFault img, s.updateFault ctx img]

/-- The sequence limits of a stage (R263): what it needs and what there is. -/
def seqFault (x : StageRec) (span : Nat) : Option (Nat × Nat) :=
  if 262144 < x.tokens then some (x.tokens, 262144)
  else if 128 < x.ring then some (x.ring, 128)
  else if 1 < x.ring ∧ span < 64 then some (64, span)
  else none

/-- What a program takes of its context: the stages that this device holds, their quotas and the static memory, in MiB (R256, R614). -/
def stageNeed (img key : List Byte) : Nat × Nat × Nat :=
  let l := localRecs img key
  (l.length, (l.map (·.quota)).foldl (· + ·) 0, ceilDiv (needB img 3) 1048576)

/-- What the programs that a context holds take of it together. -/
def State.heldNeed (s : State) (ctx : Nat) : Nat × Nat × Nat :=
  (s.programs.filter fun p => p.1 / 2 ^ 32 == ctx && p.2.ready).foldl
    (fun a p => (a.1 + p.2.need.1, a.2.1 + p.2.need.2.1, a.2.2 + p.2.need.2.2)) (0, 0, 0)

/-- The stash quotas or the static memory of a program do not fit beside those that its context holds (R256, R614): reason STASH where the
quotas are too much for what the programs before it leave, or the device would hold more than 8 stages of the context, which RESULT reports in
the same MiB (DESIGN CHOICE, log 88); reason MEMORY where its static memory together with the quotas is. -/
def State.memoryFault (s : State) (ctx : Nat) (need : Nat × Nat × Nat) : Option Bound :=
  let held := s.heldNeed ctx
  let free := s.regionSize ctx / 1048576 - held.2.1 - held.2.2
  if 8 < held.1 + need.1 ∨ free < need.2.1 then some (.fit 2 0 0 need.2.1 free)
  else if free < need.2.1 + need.2.2 then some (.fit 5 0 0 (need.2.1 + need.2.2) free)
  else none

/-- The needs of an image that do not fit, in the order of Table 2-1. A SYNC entry that clashes is named by its own id, also where a BOUNDED's
second id is the one in use (DESIGN CHOICE, log 109). -/
def State.fitFault (s : State) (ctx : Nat) (img key : List Byte) (handles : Bool) : Option Bound :=
  let mib (n : Nat) := ceilDiv n 1048576
  let kib := ceilDiv (boundCode key).length 1024 + needA img 2 + 17
  let room := s.memoryFault ctx (stageNeed img key)
  let owned := s.fld F.QUE_CTX_CFG_Q_COUNT ctx
  let ids := s.fld F.QUE_CTX_SYN_IDS ctx
  let idNeed := (syncNeeds img).foldl (fun m x => max m (x.a % 65536 + x.kind.ids)) 0
  let sori := popCount 32 (s.fld F.QUE_CTX_SORI_MASK ctx)
  let needSori := ceilDiv (needA img 1) 16
  let ms := imageUpdate img
  if 2560 < kib then some (.fit 1 2 0 kib 2560)
  else if let some x := (imageStages img).find? fun x => decide (1048576 * x.quota < staticNeed img x) then
    some (.fit 2 1 x.stage (mib (staticNeed img x)) x.quota)
  else if let some (.fit 2 k i n a) := room then some (.fit 2 k i n a)
  else if owned < needA img 4 then some (.fit 3 0 0 (needA img 4) owned)
  else if ids < idNeed then some (.fit 4 0 0 idNeed ids)
  else if let some x := s.needClash ctx (syncNeeds img) then some (.fit 4 0 0 (x.a % 65536) 0xFFFFFFFF)
  else if let some b := room then some b
  else if 64 < ms.length then some (.fit 6 3 64 ms.length 64)
  else if let some x := (ms.zipIdx).find? fun x => decide (256 < x.1.2) then some (.fit 6 3 x.2 x.1.2 256)
  else if sori < needSori then some (.fit 7 0 0 needSori sori)
  else if let some (x, n, m) := (imageStages img).findSome? fun x => (seqFault x (Config.replicaSpan key x.stage)).map fun r => (x, r.1, r.2) then
    some (.fit 8 1 x.stage n m)
  else if !handles then some (.fit 9 0 0 1024 1023)
  else none

/-- The program needs more than protonema offers (R581): memory, a COLL or a STAGES section. -/
def wholeService (img : List Byte) : Bool := needB img 3 != 0 || imageColl img || (imageSection img 4).isSome

/-- Bind an image in a context: how it ends, and the state and the ids made where it binds (R62, R63). -/
def State.bind (s : State) (ctx : Nat) (img key : List Byte) (len : Nat) (handles : Bool) : Bound × State × List Nat :=
  match s.formatFault ctx img len with
  | some o => (.format o, s, [])
  | none =>
    if wholeService img ∧ s.stage ≠ 6 then (.service, s, [])
    else match s.fitFault ctx img key handles with
      | some b => (b, s, [])
      | none =>
        match State.makeNeeds ctx (syncNeeds img) (s, []) with
        | .error (need, free) => (.fit 4 0 0 need free, s, [])
        | .ok (t, made) => (.ok, t, made)

-- # Stash arenas of a step program (R255, R256)

/-- The arena of a local stage. -/
def State.arenaOf (s : State) (ctx : Nat) (img key : List Byte) (place : Nat) (x : StageRec) : Arena :=
  let at' (k : Nat) : Nat := s.regionBase ctx + Config.arenaPlace key place k
  { ctx := ctx, place := place, stage := x.stage, dyn := x.sflags.testBit 0, faults := x.sflags.testBit 1
    bndBase := at' 0, bslot := x.bslot, nbnd := x.nbnd, slots := inFlightOf img x
    segBase := at' 1, quota := 1048576 * x.quota - boundaryBytes img x, segStatic := 1024 * x.seg
    markBase := at' 2, used := 0, peak := 0, segs := [], opened := none, marks := 0 }

/-- Show the stash configuration of the step program that a context has bound (EXC_STASH_CFG). -/
def State.showStages (s : State) (ctx : Nat) (img key : List Byte) : State :=
  let l := localRecs img key
  s.each (List.range 8) fun j s =>
    match l[j]? with
    | none => s.clearReg .EXC_STASH_CFG (ctx * 8 + j)
    | some x =>
      let i := ctx * 8 + j
      let s := s.setFld F.EXC_STASH_CFG_STAGE i x.stage
      let s := s.setFld F.EXC_STASH_CFG_DYN i (bitsOf x.sflags 0 1)
      let s := s.setFld F.EXC_STASH_CFG_POLICY i (bitsOf x.sflags 1 1)
      let s := s.setFld F.EXC_STASH_CFG_QUOTA i x.quota
      let s := s.setFld F.EXC_STASH_CFG_VALID i 1
      s.setFld F.EXC_STASH_CFG_BND_MIB i (ceilDiv (boundaryBytes img x) 1048576)

/-- The arenas of a context as its step opens. -/
def State.openArenas (s : State) (ctx : Nat) (img key : List Byte) : State :=
  let l := (localRecs img key).zipIdx.map fun x => s.arenaOf ctx img key x.2 x.1
  let s := { s with arenas := s.arenas.filter (fun (x : Arena) => x.ctx != ctx) ++ l }
  (s.showStages ctx img key).each l fun x s => s.showArena x

end Sys2Proof.Machine
end

