-- ==== Sys2Proof/Machine/Launch.lean ====
section
/-! DEFINITION. The end of a launch (R132, R134, R167, R235) and the close of a step (R242, R266 to R271, R309): its timers, its
capsule and the result of a replay. -/

namespace Sys2Proof.Machine

-- # The timers of a step (R266, R267)

/-- The time a tile has spent in a phase. -/
def State.phaseTime (s : State) (t k : Nat) : Nat := NMap.getD (s.tile t).phaseNs k 0

/-- The sum over tiles. -/
def sumOf (l : List Nat) : Nat := l.foldl (· + ·) 0

/-- The tile with the largest value, the lowest on a tie, and that value. -/
def mostOf (f : Nat → Nat) (l : List Nat) : Nat × Nat :=
  l.foldl (fun b t => if b.2 < f t ∨ (b.2 = f t ∧ t < b.1) then (t, f t) else b) (l.headD 0, f (l.headD 0))

/-- The time of a device activity so far. -/
def State.activityTime (s : State) (p : Step) (k : Nat) : Nat :=
  match NMap.get? p.activity k with
  | none => 0
  | some a => a.total + (if a.count = 0 then 0 else s.now - a.since)

/-- A value cut at the largest of 32 bits. -/
def sat32 (n : Nat) : Nat := min n 0xFFFFFFFF

/-- Write the timers of a step that closes: phases 0 to 3 and 9 over the launch's tiles, phases 4 to 8 as device activities. -/
def State.writePhases (s : State) (ctx : Nat) (p : Step) (tiles : List Nat) : State :=
  s.each (List.range 10) fun k s =>
    let i := ctx * 10 + k
    if 4 ≤ k ∧ k ≤ 8 then
      let s := s.setFld F.EXC_PHASE_TIME i (sat32 (s.activityTime p k))
      (s.setFld F.EXC_PHASE_MAX_TILE i 0).setFld F.EXC_PHASE_MAX_MAX_NS i 0
    else
      let (t, m) := mostOf (fun t => s.phaseTime t k) tiles
      let s := s.setFld F.EXC_PHASE_TIME i (sat32 (sumOf (tiles.map fun t => s.phaseTime t k) / max 1 tiles.length))
      (s.setFld F.EXC_PHASE_MAX_TILE i t).setFld F.EXC_PHASE_MAX_MAX_NS i (sat32 m)

/-- Write the deferred counts and times, and the stash figures, of a step that closes. -/
def State.writeCounts (s : State) (ctx : Nat) (tiles : List Nat) : State :=
  let n := max 1 tiles.length
  let sum (f : Tile → Nat) : Nat := sumOf (tiles.map fun t => f (s.tile t))
  let s := s.setFld F.EXC_DEFER_RUNS_YIELD_RUNS ctx (sum (·.yieldRuns))
  let s := s.setFld F.EXC_DEFER_RUNS_FORCED_RUNS ctx (sum (·.forcedRuns))
  let s := s.setFld F.EXC_DEFER_TIME_YIELD_NS ctx (sat32 (sum (·.yieldNs) / n))
  let s := s.setFld F.EXC_DEFER_TIME_FORCED_NS ctx (sat32 (sum (·.forcedNs) / n))
  s.each (s.arenas.filter fun x => x.ctx == ctx) fun x s =>
    let s := s.setFld F.EXC_STASH_USE_PEAK_KIB (ctx * 8 + x.place) (sat32 (ceilDiv x.peak 1024))
    s.setFld F.EXC_STASH_MARKS_STEP (ctx * 8 + x.place) (sat32 x.marks)

-- # The capsule (R268, Table 7-5)

/-- The digest of the local gradients, in ascending tensor and element. -/
def Step.localDigest (p : Step) : Nat :=
  let l := p.locals.foldl (fun acc x => insertNum (2 ^ 48 * x.1 + x.2.1, x.2.2) acc) []
  crc64 (l.flatMap (·.2))

/-- The owned shards' digests in ascending shard number; a shard that the step did not reach has zeroes. -/
def State.shardDigests (s : State) (ctx : Nat) (p : Step) : List (Nat × Nat × Nat) :=
  ((s.shards ctx).filter s.owns).foldl (fun l x =>
    insertNum (x.num, (p.digests.find? fun d => d.1 == x.num).elim (0, 0) (·.2)) l) []

/-- The norm that was decided for the step, or +0. -/
def Step.normBits (p : Step) : Nat := p.decision.elim 0 (·.norm)

/-- The segments that the step has marked. -/
def State.marksOf (s : State) (ctx : Nat) : Nat := sumOf ((s.arenas.filter fun x => x.ctx == ctx).map (·.marks))

/-- The sections of a capsule in the order of their types. -/
def State.capsuleSections (s : State) (ctx : Nat) (p : Step) : List (Nat × List Byte) :=
  let shards := (s.shardDigests ctx p).flatMap fun d => leBytes 4 d.1 ++ leBytes 4 0 ++ leBytes 8 d.2.1 ++ leBytes 8 d.2.2
  let phases := (List.range 10).flatMap fun k =>
    leBytes 8 (s.reg .EXC_PHASE (ctx * 10 + k)).toNat ++ leBytes 8 (s.reg .EXC_PHASE_MAX (ctx * 10 + k)).toNat
  [(1, p.scales), (2, shards), (3, p.inputs), (4, p.samples.flatMap (leBytes 8)), (5, phases)]

/-- The leading sections that fit a slot after the header; sections stand one after another. -/
def fitSections (room : Nat) : Nat → List (Nat × List Byte) → List (Nat × List Byte)
  | _, [] => []
  | used, x :: rest => if used + x.2.length ≤ room then x :: fitSections room (used + x.2.length) rest else []

/-- The section table's bytes. -/
def sectionTable : Nat → List (Nat × List Byte) → List Byte
  | _, [] => []
  | off, x :: rest =>
    leBytes 2 x.1 ++ leBytes 2 0 ++ leBytes 4 off ++ leBytes 4 x.2.length ++ leBytes 4 (crc32c x.2) ++ sectionTable (off + x.2.length) rest

/-- The FLAGS of a capsule. -/
def State.capsuleFlags (s : State) (l : Launch) (p : Step) (status : Nat) (incomplete : Bool) : Nat :=
  let ended := status != St.ok && status != St.updateSkipped
  let bits := [!(p.intervened || incomplete || ended), p.intervened, l.heritage, p.coldBlocks != 0, s.marksOf l.ctx != 0,
    status == St.updateSkipped, p.adopted, incomplete, p.replay.isSome, ended]
  bits.foldr (fun b n => 2 * n + b2n b) 0

/-- The bytes of a capsule that fits so many. -/
def State.capsule (s : State) (l : Launch) (p : Step) (status room : Nat) : List Byte :=
  let all := s.capsuleSections l.ctx p
  let secs := fitSections room 256 all
  let digests := s.shardDigests l.ctx p
  let head :=
    leBytes 4 0x53345843 ++ leBytes 2 1 ++ leBytes 2 (s.capsuleFlags l p status (decide (secs.length < all.length))) ++ leBytes 8 p.index ++
    leBytes 8 p.jobSeed ++ leBytes 4 l.crc ++ leBytes 1 l.ctx ++ leBytes 1 0 ++ leBytes 2 secs.length ++ leBytes 4 p.epoch ++
    leBytes 2 status ++ leBytes 2 0 ++ leBytes 8 p.opened ++ leBytes 8 s.now ++ leBytes 8 p.layout ++ leBytes 8 p.argDigest ++
    leBytes 4 p.normBits ++ leBytes 4 (sat32 (s.marksOf l.ctx)) ++ leBytes 8 p.localDigest ++
    leBytes 8 (crc64 (digests.flatMap fun d => leBytes 8 d.2.1)) ++ leBytes 8 (crc64 (digests.flatMap fun d => leBytes 8 d.2.2)) ++
    leBytes 4 (sat32 p.coldBlocks) ++ List.replicate 20 0
  let table := sectionTable 256 secs
  let head := head ++ table ++ List.replicate (124 - table.length) 0
  head ++ leBytes 4 (crc32c head) ++ secs.flatMap (·.2)

/-- Write the capsule of a step that closes (R268). -/
def State.writeCapsule (s : State) (l : Launch) (p : Step) (status : Nat) : State :=
  if s.flag F.EXC_STEP_CFG_CAP_EN l.ctx then
    let slot := s.fld F.EXC_STEP_STATE_CLOSED l.ctx % 2 ^ s.fld F.EXC_STEP_CFG_CAP_LOG2_SLOTS l.ctx
    let size := 1024 * 2 ^ s.fld F.EXC_STEP_CFG_CAP_SLOT_LOG2 l.ctx
    let s := s.devWrite (4096 * s.fld F.EXC_CAP_BASE_ADDR l.ctx + slot * size) (s.capsule l p status size)
    s.setFld F.EXC_STEP_STATE_CAP_SLOT l.ctx slot
  else s

-- # Replay (R271)

/-- The first point at which a replayed step differs from its capsule: LOCAL, REDUCED and UPDATED of each shard, NORM. -/
def State.firstMismatch (s : State) (ctx : Nat) (p : Step) (r : Replay) : Option (Nat × Nat) :=
  let now := s.shardDigests ctx p
  let differ (f : Nat × Nat → Nat) : Option Nat :=
    (r.shards.find? fun d => (now.find? fun e => e.1 == d.1).elim true fun e => f e.2 != f d.2).map (·.1)
  if p.localDigest ≠ r.localDigest then some (1, 0)
  else match differ (·.1) with
    | some n => some (2, n)
    | none =>
      if p.normBits ≠ r.norm then some (3, 0)
      else (differ (·.2)).map fun n => (4, n)

/-- The result of a replay, and the scale state of before it (R271). -/
def State.endReplay (s : State) (ctx : Nat) (p : Step) : State :=
  match p.replay with
  | none => s
  | some r =>
    let s := match s.firstMismatch ctx p r with
      | none => s.showReplay ctx 1 0 0
      | some (point, shard) => s.showReplay ctx (if r.repro then 2 else 3) point shard
    s.each r.saved fun x s => s.devWrite x.1 x.2

-- # The close (R242, R267)

/-- The outer rounds at the close of a step (R409, R410, R436): the step's samples count for its round, and a device with no shard to
form, or one that joins, has formed the round at its last step. -/
def State.closeRound (s : State) (ctx : Nat) (p : Step) : State :=
  let h := s.roundH ctx
  if !s.xOn ctx || h == 0 then s
  else
    let s := s.modXch ctx fun x => { x with samples := NMap.update x.samples (p.index / h) 0 fun n => n + sumOf p.samples }
    match s.lastOf ctx p.index with
    | some r =>
      if p.decision.isSome ∧ s.xmode ctx ≠ 3 ∧ s.fld F.XCH_ROUND_LAST_FORMED ctx ≠ r ∧ s.formsDone ctx r then
        (s.openRound ctx r).noteFormed ctx r
      else s
    | none => s

/-- Close the step of a launch: its timers, then its capsule, then CLOSED; an armed checkpoint reaches its logical point (R309). -/
def State.closeStep (s : State) (l : Launch) (status : Nat) : State :=
  match NMap.get? s.steps l.ctx with
  | none => s
  | some p =>
    if p.queue ≠ l.queue ∨ p.cmd ≠ l.cmd then s
    else
      let s := s.each l.tiles fun t s => s.setPhase t 9
      let s := (s.writePhases l.ctx p l.tiles).writeCounts l.ctx l.tiles
      let s := (s.setFld F.EXC_STEP_OPEN_T_TIME l.ctx p.opened).setFld F.EXC_STEP_CLOSE_T_TIME l.ctx s.now
      let s := ((s.writeCapsule l p status).endReplay l.ctx p).closeRound l.ctx p
      let s := s.setFld F.EXC_STEP_STATE_CLOSED l.ctx (s.fld F.EXC_STEP_STATE_CLOSED l.ctx + 1)
      let s := (s.setFld F.EXC_STEP_STATE_OPEN l.ctx 0).setFld F.PAIR_CTX_STATE_DROPPED l.ctx 0
      let s := { s with steps := NMap.erase s.steps l.ctx }
      let s := s.stepBoundary l.ctx
      s.when (s.fld F.UPD_CKPT_STATUS_STATE l.ctx == 1) fun s => s.ckptPoint l.ctx

/-- Count the blocks that a launch converted cold (Table 7-5). -/
def State.coldOf (s : State) (l : Launch) : Nat :=
  sumOf (l.convs.map fun v => (v.checked.filter fun b => (s.scale l.ctx v.tensor b 17 1).testBit 0).length)

/-- The rolls of a launch's converted tensors; a replay leaves every descriptor and entry unchanged (R235, R271). -/
def State.rollAll (s : State) (l : Launch) : State :=
  if l.replay then s else s.each l.convs fun v s => s.roll l.ctx l.step l.nonzero v

/-- What a full exception record has dropped of a launch: event 0x0501, once, with the number that Table 6-6 gives (R240; at the launch's end,
where it is known: DEDUCED, log 15). -/
def State.reportLost (s : State) (l : Launch) : State :=
  match s.launch? l.queue l.cmd with
  | some l => s.when (l.numLost != 0) fun s => s.raise (.context l.ctx) 0x0501 1 0 l.numLost
  | none => s

/-- End a launch, but for its record: the report of what its exception record dropped, its rolls, the barriers it abandons, its tiles,
transfers and collectives, and the close of its step (R132, R167, R235, R242). -/
def State.closeLaunch (s : State) (l : Launch) (status : Nat) : State :=
  let cold := s.coldOf l
  let s := s.when l.isStep fun s => s.modStep l.ctx fun p => { p with coldBlocks := p.coldBlocks + cold }
  let s := (s.reportLost l).rollAll l
  let s := s.when (status != St.ok) fun s => s.abandon l.ctx l.tiles
  let s := s.each l.tiles fun t s => (s.cancelWaits (.tile t)).cancelWaits (.body t)
  let s := { s with
    transfers := s.transfers.filter fun (x : Transfer) => !(x.queue == l.queue && x.cmd == l.cmd)
    colls := s.colls.filter fun (x : Coll) => !(x.queue == l.queue && x.cmd == l.cmd) }
  let s := s.when l.isStep fun s => s.closeStep l status
  let s := s.each l.tiles fun t s => { s with tiles := NMap.erase s.tiles t }
  { s with launches := s.launches.filter fun (x : Launch) => !(x.queue == l.queue && x.cmd == l.cmd) }

/-- Whether every transfer of a launch has completed. -/
def State.transfersDone (s : State) (l : Launch) : Bool := !(s.transfers.any fun x => x.queue == l.queue && x.cmd == l.cmd)

/-- Whether every transfer and collective of a launch has completed, but for one that finalises a shard whose deferred work a fault has
discarded: that one never starts (R251). -/
def State.launchQuiet (s : State) (l : Launch) : Bool :=
  s.transfersDone l && !(s.colls.any fun x => x.queue == l.queue && x.cmd == l.cmd && !x.lostBy l)

/-- A launch stands at an abort point (R84, R161, R251, R406): no transfer of it runs and no deferred body; it is outside a collective, or
held by one that makes no progress, which nothing but the abort ends. -/
def State.abortable (s : State) (l : Launch) : Bool :=
  s.transfersDone l && (l.tiles.all fun t => (s.tile t).body.isNone) &&
    !(s.colls.any fun x => x.queue == l.queue && x.cmd == l.cmd && !x.stalled && !x.lostBy l)

/-- The updates that a launch's step has still to complete (R84, R289): all owned and mirrored shards of an applied step, or the passes
that have started; after a decision, the form passes of the last step of a round too (R410). -/
def State.updatesDone (s : State) (l : Launch) : Bool :=
  match NMap.get? s.steps l.ctx with
  | none => true
  | some p =>
    if p.queue ≠ l.queue ∨ p.cmd ≠ l.cmd then true
    else match p.decision with
      | some d =>
        (d.reason != 0 || (s.shards l.ctx).all fun x => !(s.owns x || s.mirrors x) || p.updated.contains x.num)
          && (s.lastOf l.ctx p.index).all (s.formsDone l.ctx)
      | none => p.started.all fun n => p.updated.contains n

end Sys2Proof.Machine
end

