-- ==== Sys2Proof/Machine/Host.lean ====
section
/-! DEFINITION. The host interface: blocked accesses and BAR4 (R51, R61), queue pairs with their doorbells and records (R69 to R80,
R612, R613), epochs (R86 to R91), event rings (R92 to R95) and contexts with their resets (R58 to R60, R585). -/

namespace Sys2Proof.Machine

-- # HIF

/-- HIF_BLOCKED_CLEAR: a function clears its count of blocked accesses (HIF_BLOCKED.CLEAR). -/
def execHifBlockedClear (fn : Fin 64) (s : State) : Answer :=
  .next (s.reaching fn .HIF_BLOCKED fn fun s => s.setReg .HIF_BLOCKED fn 0#64)

/-- The largest BAR4 window, 512 GiB; any smaller window reaches its first bytes (R51). -/
def bar4Size : Nat := 2 ^ 39

/-- A host access through BAR4 of one function (R51, R61, R581): the bytes of the window that lie in the region of a context of the
function are reached; the others are blocked, or follow R50 where nothing backs them. -/
def State.bar4Reach (s : State) (fn a : Nat) : Bool :=
  (List.range 256).any fun n => s.ctxOn n && s.ctxFn n == fn && decide (s.regionBase n ≤ a) && decide (a < s.regionBase n + s.regionSize n)

/-- The runs of consecutive addresses that an access reaches: the first of each and how many. -/
def openRuns (p : Nat → Bool) : List Nat → List (Nat × Nat)
  | [] => []
  | x :: rest =>
    match p x, openRuns p rest with
    | false, l => l
    | true, (y, n) :: l => if y = x + 1 then (x, n + 1) :: l else (x, 1) :: (y, n) :: l
    | true, [] => [(x, 1)]

/-- HOST_BAR4_ACCESS (R51); `errs` is what goes wrong on its way (R331, R332). The bytes that are reached are read, or written, as runs of
consecutive ones; a write makes the shards stale that guard any of them (R284). -/
def execHostBar4Access (fn : Fin 64) (offset : BitVec 39) (op : Bar4Op) (errs : List Mishap) (s : State) : Answer :=
  if !s.fnThere fn || decide (s.stage < 4) then .next { s with bar4Data := [], bar4Poison := false }
  else
    let a := 0x10000000 * s.fld F.HIF_BAR4_BASE_BASE fn + offset.toNat
    let n := match op with | .read n => n | .write bs => bs.length
    let places := (List.range n).map fun i => a + i
    let outside := places.find? fun x => s.addrKind x != .memory
    let barred := places.any fun x => s.addrKind x == .memory && fn.val != 0 && !s.bar4Reach fn x
    let s := s.when barred fun s => s.blocked fn 0 0
    let s := match outside with | some x => s.outside 1 none (x % 2 ^ 48) | none => s
    let open' (x : Nat) : Bool := s.addrKind x == .memory && (fn.val == 0 || s.bar4Reach fn x)
    let s := s.meets (errs.filter fun e => (mishapAt e).any fun m => places.any fun x => open' x && x / 32 == m / 32)
    match op with
    | .read _ =>
      let (s, bad) := (openRuns open' places).foldl (fun (p : State × Bool) r =>
        let (t, ch) := p.1.readReport 1 none r.1 r.2
        (t, p.2 || ch.isSome)) (s, false)
      .next { s with bar4Data := places.map fun x => if open' x then s.devByte x else (0 : Byte), bar4Poison := bad }
    | .write bs => .next (s.each (openRuns open' places) fun r s => (s.devWrite r.1 ((bs.drop (r.1 - a)).take r.2)).guardWork r.1 r.2)

-- # Ending commands without a record

/-- Take a command's traces out of the device: its held wait, its launch, its unfinished load; an increment that is held for it adds
without a reply. -/
def State.cleanCmd (s : State) (q : Nat) (x : Cmd) (status : Nat) : State :=
  let s := s.cancelWaits (.cmd q x.num)
  let quiet (h : HeldInc) : HeldInc := if h.reply = IncReply.cmd q x.num then { h with reply := .none } else h
  let s := { s with objs := s.objs.map fun (p : Nat × SyncObj) => (p.1, { p.2 with heldIncs := p.2.heldIncs.map quiet }) }
  match s.launch? q x.num with
  | some l => s.closeLaunch l status
  | none =>
    if x.entry.opcode = 0x10 ∧ x.begun then
      match s.ctxOf q with
      | some n => { s with programs := NMap.erase s.programs (2 ^ 32 * n + x.value) }
      | none => s
    else s

/-- The state of a queue (QUE_STATE.STATE). -/
def State.queueState (s : State) (q : Nat) : Nat := s.fld F.QUE_STATE_STATE q

/-- A command may not end yet: it is a launch with updates that run to completion, those that have started or those of an apply decision (R84,
R289). -/
def State.updatesOpen (s : State) (q c : Nat) : Bool := (s.launch? q c).any fun l => !s.updatesDone l

/-- A queue protocol error (R78): the queue is in ERROR, its commands end without records, a launch with open updates at the abort point that follows
the last of them (R289); event 0x0002. -/
def State.queueError (s : State) (q why : Nat) : State :=
  let s := s.each (s.queue q).cmds fun x s => if s.updatesOpen q x.num then s.stopCmd q x St.aborted else s.cleanCmd q x St.aborted
  let s := s.modQueue q fun u =>
    { u with cmds := (u.cmds.filter fun x => s.updatesOpen q x.num).map fun x => { x with silent := true } }
  let s := s.setFld F.QUE_STATE_STATE q 3
  match s.ctxOf q with
  | some n => s.raise (.context n) 0x0002 2 q why
  | none => s

-- # Doorbells (R70, R76, R78, R613)

/-- The entries of a submission queue and the slots of a completion queue. -/
def State.sqSize (s : State) (q : Nat) : Nat := 2 ^ s.fld F.QUE_CFG_SQ_LOG2 q
def State.cqSize (s : State) (q : Nat) : Nat := 2 ^ s.fld F.QUE_CFG_CQ_LOG2 q

/-- A doorbell reaches a queue of an enabled context of the writing function; elsewhere it is discarded and counted (R51, R613). -/
def State.doorbell (s : State) (fn q : Nat) (f : State → State) : State :=
  if !s.fnThere fn || decide (s.stage < 3) then s
  else
    match s.ctxOf q with
    | some n => if s.ctxOn n && s.ctxFn n == fn then f s else s.blocked fn 1 (8 * q)
    | none => s.blocked fn 1 (8 * q)

/-- A queue that takes doorbells: RUNNING or EPOCH_WAIT. -/
def State.queueRuns (s : State) (q : Nat) : Bool := s.queueState q == 1 || s.queueState q == 2

/-- SQ_TAIL_WRITE (R70, R78). -/
def execSqTailWrite (fn : Fin 64) (q : Fin 65536) (tail : BitVec 16) (s : State) : Answer :=
  .next (s.doorbell fn q fun s =>
    if !s.queueRuns q then s
    else if s.sqSize q ≤ tail.toNat then s.queueError q 1
    else s.modQueue q fun u => { u with sqTail := tail.toNat })

/-- How many records a head consumes: those before it, going round the queue. -/
def consumed (size old new : Nat) : Nat := (new + size - old) % size

/-- CQ_HEAD_WRITE (R76, R78). A draining queue writes records too, so a head write frees their slots (R79). -/
def execCqHeadWrite (fn : Fin 64) (q : Fin 65536) (head : BitVec 16) (s : State) : Answer :=
  .next (s.doorbell fn q fun s =>
    let u := s.queue q
    let n := consumed (s.cqSize q) u.cqHead head.toNat
    if !s.queueRuns q && s.queueState q != 4 then s
    else if s.cqSize q ≤ head.toNat then s.queueError q 2
    else if u.used < n then s.queueError q 3
    else s.setQueue q { u with cqHead := head.toNat, used := u.used - n })

-- # Fetching (R71, R72, R77)

/-- The device fetches and starts commands: no device-fatal fault, no orphan hold, no quiesce, no SCAN (R47, R530, R536, R567). -/
def State.dispatches (s : State) : Bool :=
  !s.flag F.HIF_STATUS_FATAL 0 && s.fld F.HIF_STATUS_DRIVER 0 != 2 && s.fld F.HIF_STATUS_DRIVER 0 != 3 && !s.quiesce && !s.secure.scanned

/-- A queue has an entry to fetch, and its completion queue has room. -/
def State.fetchable (s : State) (q : Nat) : Bool :=
  let u := s.queue q
  s.flag F.QUE_CFG_EN q && s.queueRuns q && s.fld F.QUE_STATE_SQ_HEAD q != u.sqTail && decide (u.used < s.cqSize q)
    && (match s.ctxOf q with | some n => s.ctxOn n | none => false)

/-- The queue to fetch from: the highest priority, then round-robin within it. -/
def State.pickQueue (s : State) : Option Nat :=
  let l := (s.queues.map (·.1)).filter s.fetchable
  let prio (q : Nat) := s.fld F.QUE_CFG_PRIO q
  let top := (l.map prio).foldl max 0
  let turn (q : Nat) : Nat := (q + 65536 - (NMap.getD s.served top 65535 + 1) % 65536) % 65536
  (l.filter fun q => prio q == top).foldl (fun b q => match b with
    | none => some q
    | some p => if turn q < turn p then some q else some p) none

/-- Fetch the next entry of a queue; one that an ABORT has already named never starts (Table 2-6). -/
def State.fetch (s : State) (q : Nat) : State :=
  let u := s.queue q
  let head := s.fld F.QUE_STATE_SQ_HEAD q
  let s := s.spaceTouch (s.fld F.QUE_SQ_BASE_SPACE q) (4096 * s.fld F.QUE_SQ_BASE_ADDR q + 64 * head) 64
  let e := Sqe.ofBytes (s.spaceRead (s.fld F.QUE_SQ_BASE_SPACE q) (4096 * s.fld F.QUE_SQ_BASE_ADDR q + 64 * head) 64)
  let next := (head + 1) % s.sqSize q
  let s := s.setFld F.QUE_STATE_SQ_HEAD q next
  let s := { s with served := NMap.set s.served (s.fld F.QUE_CFG_PRIO q) q }
  let x : Cmd := ⟨u.fetched, e, next, .fetched, false, none, false, 0, none, false⟩
  let s := s.setQueue q { u with fetched := u.fetched + 1, cmds := u.cmds ++ [x] }
  if u.preAbort.contains u.fetched then
    (s.finish q u.fetched St.aborted 0 0).modQueue q fun u => { u with preAbort := u.preAbort.filter (· != x.num) }
  else s

/-- SUBMISSION_FETCH (R72, R77). -/
def execSubmissionFetch (s : State) : Answer :=
  if !s.dispatches then .next s
  else match s.pickQueue with
    | none => .next s
    | some q => .next (s.fetch q)

-- # Records (R74 to R77, R80)

/-- The four words of a completion record (Table 2-4). -/
def Rec.words (r : Rec) (q phase seq : Nat) : List Nat :=
  [r.result, 2 ^ 32 * r.detail + r.cmdId, 2 ^ 48 * q + 2 ^ 32 * r.sqHead + 2 ^ 16 * b2n r.nx + r.status, 2 ^ 63 * phase + seq % 2 ^ 63]

/-- Write a record into the next slot, words 0 to 2 and then word 3; then the message. -/
def State.writeRec (s : State) (q : Nat) (r : Rec) : State :=
  let u := s.queue q
  let tail := s.fld F.QUE_STATE_CQ_TAIL q
  let phase := s.fld F.QUE_STATE_PHASE q
  let ws := r.words q phase u.seq
  let sp := s.fld F.QUE_CQ_BASE_SPACE q
  let a := 4096 * s.fld F.QUE_CQ_BASE_ADDR q + 32 * tail
  let s := s.spaceWrite sp a (wordsBytes (ws.take 3))
  let s := s.spaceWrite sp (a + 24) (wordsBytes (ws.drop 3))
  let wrap := tail + 1 = s.cqSize q
  let s := s.setFld F.QUE_STATE_CQ_TAIL q (if wrap then 0 else tail + 1)
  let s := s.setFld F.QUE_STATE_PHASE q (if wrap then 1 - phase else phase)
  let s := s.setQueue q { u with used := u.used + 1, seq := u.seq + 1, waiting := u.waiting.drop 1 }
  s.when (s.flag F.QUE_CFG_IRQ_EN q) fun s =>
    match s.ctxOf q with
    | some n => s.msix (s.ctxFn n) (s.fld F.QUE_CFG_VECTOR q)
    | none => s

/-- COMPLETION_RECORD_WRITE: the oldest completion that waits is written into a free slot (R74 to R77, R80). -/
def execCompletionRecordWrite (q : Fin 65536) (s : State) : Answer :=
  match (s.queue q).waiting with
  | [] => .next s
  | r :: _ =>
    if (s.queue q).used < s.cqSize q ∧ s.queueState q ≠ 0 then .next (s.writeRec q r) else .next s

/-- A function's vector has unconsumed records behind it: of a queue, of its event ring, or of a context's notification ring. -/
def State.vectorDue (s : State) (fn vec : Nat) : Bool :=
  (s.queues.any fun p => decide (0 < p.2.used) && s.flag F.QUE_CFG_IRQ_EN p.1 && s.fld F.QUE_CFG_VECTOR p.1 == vec &&
      (match s.ctxOf p.1 with | some n => s.ctxFn n == fn | none => false)) ||
    (decide (0 < (s.ring fn).used) && s.flag F.EXC_EVQ_CFG_IRQ_EN fn && s.fld F.EXC_EVQ_CFG_VECTOR fn == vec) ||
    s.nrings.any fun p => decide (0 < p.2.used) && s.ctxFn p.1 == fn && s.flag F.SYN_NQ_CFG_IRQ_EN p.1 && s.fld F.SYN_NQ_CFG_VECTOR p.1 == vec

/-- MSIX_UNMASK: the host unmasks a vector; one message is sent where records are unconsumed (R80). -/
def execMsixUnmask (fn : Fin 64) (vector : Fin 2048) (s : State) : Answer :=
  let k := 2048 * fn.val + vector.val
  if s.unmasked.contains k || !s.fnThere fn then .next s
  else
    let s := { s with unmasked := k :: s.unmasked }
    .next (s.when (s.vectorDue fn vector) fun s => s.msix fn vector)

-- # QUE_CFG (R79, R612, R613)

/-- A size field lies in its range. -/
def sizeOk (n lo : Nat) : Bool := decide (lo ≤ n) && decide (n ≤ 16)

/-- A ring or queue of so many bytes in device memory lies inside a context's region (R612). -/
def State.placedOk (s : State) (ctx space base bytes : Nat) : Bool :=
  space == 0 || (decide (s.regionBase ctx ≤ base) && decide (base + bytes ≤ s.regionBase ctx + s.regionSize ctx))

/-- A queue starts (R75, R79). -/
def State.startQueue (s : State) (q : Nat) : State :=
  let s := s.setReg .QUE_STATE q 0#64
  let s := (s.setFld F.QUE_STATE_STATE q 1).setFld F.QUE_STATE_PHASE q 1
  s.setQueue q ⟨0, 0, 0, 1, 0, [], [], [], []⟩

/-- A queue drains: unstarted commands go without records, running ones are to end at their abort points (R79). -/
def State.drainQueue (s : State) (q : Nat) : State :=
  let s := s.setFld F.QUE_STATE_STATE q 4
  let s := s.modQueue q fun u => { u with cmds := u.cmds.filter fun x => x.phase == .running }
  s.each (s.queue q).cmds fun x s => s.stopCmd q x St.aborted

/-- A write to QUE_CFG. While the queue drains, EN is 0: sizes are checked and stored as then, but a write that would set EN is discarded (log
20). -/
def State.writeQueCfg (s : State) (fn q : Nat) (h : Half) (v : Word) : State :=
  s.reaching fn .QUE_CFG q fun s =>
    let old := s.reg .QUE_CFG q
    let new := RegName.QUE_CFG.written h old v
    let blocked := s.blockedReg fn .QUE_CFG q
    if F.QUE_CFG_EN.of old = 1 then
      let kept := F.QUE_CFG_CQ_LOG2.put (F.QUE_CFG_SQ_LOG2.put new (F.QUE_CFG_SQ_LOG2.of old)) (F.QUE_CFG_CQ_LOG2.of old)
      let s := s.setReg .QUE_CFG q kept
      if F.QUE_CFG_EN.of new = 1 then s else s.drainQueue q
    else if !sizeOk (F.QUE_CFG_SQ_LOG2.of new) 4 || !sizeOk (F.QUE_CFG_CQ_LOG2.of new) 4 then blocked
    else if F.QUE_CFG_EN.of new = 0 then s.setReg .QUE_CFG q new
    else
      match s.ctxOf q with
      | none => blocked
      | some n =>
        let sq := s.placedOk n (s.fld F.QUE_SQ_BASE_SPACE q) (4096 * s.fld F.QUE_SQ_BASE_ADDR q) (64 * 2 ^ F.QUE_CFG_SQ_LOG2.of new)
        let cq := s.placedOk n (s.fld F.QUE_CQ_BASE_SPACE q) (4096 * s.fld F.QUE_CQ_BASE_ADDR q) (32 * 2 ^ F.QUE_CFG_CQ_LOG2.of new)
        if !s.ctxOn n || !sq || !cq then blocked
        else if s.queueState q = 4 then s
        else (s.setReg .QUE_CFG q new).startQueue q

/-- QUEUE_ENABLE: a write that sets QUE_CFG.EN (R75, R79, R612, R613). -/
def execQueueEnable (fn : Fin 64) (q : Fin 65536) (value : BitVec 64) (s : State) : Answer :=
  .next (s.writeQueCfg fn q .whole value)

/-- QUEUE_DISABLE: a write that clears QUE_CFG.EN (R79). -/
def execQueueDisable (fn : Fin 64) (q : Fin 65536) (value : BitVec 64) (s : State) : Answer :=
  .next (s.writeQueCfg fn q .whole value)

/-- QUEUE_DRAIN_DONE: the running commands of a draining queue have ended and their records are written (R79). -/
def execQueueDrainDone (q : Fin 65536) (s : State) : Answer :=
  let u := s.queue q
  if s.queueState q = 4 ∧ u.cmds = [] ∧ u.waiting = [] then .next (s.setFld F.QUE_STATE_STATE q 0) else .next s

-- # Epochs (R86 to R91)

/-- The eight classes of Table 2-8. -/
def allClasses : List EpochClass := [.host, .sori, .num, .base, .fabric, .exchange, .far, .power]

/-- The committed epoch. -/
def State.committed (s : State) : Nat := s.fld F.HIF_EPOCH_STATUS_COMMITTED 0

/-- The classes still behind the committed epoch (HIF_EPOCH_PENDING). -/
def State.pendingMask (s : State) : Nat :=
  sumOf (allClasses.map fun c => if s.classEpoch c < s.committed then 2 ^ classNum c else 0)

/-- Bring ADOPTED_MIN and PENDING up to date; event 0x0004 when the last class reaches the committed epoch (R89). -/
def State.showEpochs (s : State) : State :=
  let was := s.fld F.HIF_EPOCH_PENDING_UNITS 0
  let low := (allClasses.map s.classEpoch).foldl min s.committed
  let s := s.setFld F.HIF_EPOCH_STATUS_ADOPTED_MIN 0 low
  let s := s.setFld F.HIF_EPOCH_PENDING_UNITS 0 s.pendingMask
  s.when (was != 0 && s.fld F.HIF_EPOCH_PENDING_UNITS 0 == 0) fun s => s.raise .device 0x0004 0 0 s.committed

/-- The kind of the time of the last COMMIT among the activities. -/
def commitTimer : Nat := 53

/-- A unit instance adopts the committed epoch. -/
def State.adoptEpoch (s : State) (c : EpochClass) (i : Nat) : State :=
  { s with adopted := NMap.set s.adopted (32 * classNum c + i) s.committed }

/-- The base of a context's schedule table before the newest epoch was committed. -/
def State.crozBefore (s : State) (n : Nat) : Nat :=
  let k := RegName.key .UPD_CROZ_BASE n
  F.UPD_CROZ_BASE_ADDR.of (((s.frozen.drop 1).findSome? fun p => NMap.get? p.2 k).getD (s.reg .UPD_CROZ_BASE n)) * 64

/-- Validate the tables that the new staged bases of an epoch name; one that fails leaves the table of the epoch before (R303). -/
def State.validateTables (s : State) (staged : NMap Word) : State :=
  s.each (List.range 256) fun n s =>
    match NMap.get? staged (RegName.key .UPD_CROZ_BASE n) with
    | some v => s.crozValidate n (F.UPD_CROZ_BASE_ADDR.of v * 64) (s.crozBefore n)
    | none => s

/-- A write of COMMIT: the committed epoch rises, the staging copies freeze into it, and HOST adopts with the write (R87, R88). -/
def State.writeCommit (s : State) (fn : Nat) : State :=
  s.reaching fn .HIF_EPOCH_COMMIT 0 fun s =>
    if fn ≠ 0 then s.blockedReg fn .HIF_EPOCH_COMMIT 0
    else
      let staged := s.staging
      let s := s.setFld F.HIF_EPOCH_STATUS_COMMITTED 0 (s.committed + 1)
      let s := { s with frozen := (s.committed, staged) :: s.frozen, staging := [] }
      let s := (s.adoptEpoch .host 0).beginAt commitTimer 0
      let s := s.setFld F.HIF_EPOCH_PENDING_UNITS 0 s.pendingMask
      (s.validateTables staged).showEpochs

/-- EPOCH_COMMIT: a write that sets HIF_EPOCH_COMMIT.COMMIT. -/
def execEpochCommit (fn : Fin 64) (s : State) : Answer := .next (s.writeCommit fn)

/-- A sorus runs a launch. -/
def State.sorusBusy (s : State) (i : Nat) : Bool := s.launches.any fun l => l.tiles.any fun t => t / 16 == i

/-- A context stands at the start of an outer round (R409): the first step of one has opened now, or the last step of the one before has closed,
or none has run. -/
def State.atRoundStart (s : State) (n : Nat) : Bool :=
  let h := s.roundH n
  h == 0 || match NMap.get? s.steps n with
    | some p => p.index % h == 0 && p.opened == s.now
    | none => s.fld F.EXC_STEP_STATE_CLOSED n == 0 || (s.fld F.EXC_STEP_INDEX_STEP n + 1) % h == 0

/-- The exchange stands at the start of an outer round of a context, or none exchanges (Table 2-8). -/
def State.roundStarts (s : State) : Bool :=
  let l := (List.range 256).filter s.xOn
  l.isEmpty || l.any s.atRoundStart

/-- A unit instance stands at a boundary: it is idle, or its boundary has come (Table 2-8). Where several engine programs or collectives of an
instance overlap, which of them is the current one is not said: the instance adopts once none is left (DESIGN CHOICE, log 93). A far port
sends or takes a whole segment in one command, and so stands at a segment's boundary between commands; a control period begins on a whole
millisecond, and only one after the COMMIT counts (R88). -/
def State.atBoundary (s : State) (c : EpochClass) (i : Nat) : Bool :=
  match c with
  | .host => true
  | .sori => !s.sorusBusy i
  | .num => !s.sorusBusy i
  | .base => (List.range 4).all fun k => (NMap.get? s.engines (4 * i + k)).isNone
  | .fabric => !s.colls.any fun x => x.tile / 128 == i
  | .exchange => s.roundStarts
  | .far => true
  | .power => s.now % ms == 0 && (s.beganAt commitTimer 0).elim true fun t => decide (t < s.now)

-- # Event rings (R92 to R95, R582)

/-- A write to EXC_EVQ_CFG of a function (R95, R582, R612). -/
def State.writeEvqCfg (s : State) (fn : Nat) (h : Half) (v : Word) : State :=
  s.reaching fn .EXC_EVQ_CFG fn fun s =>
    let old := s.reg .EXC_EVQ_CFG fn
    let new := RegName.EXC_EVQ_CFG.written h old v
    if F.EXC_EVQ_CFG_EN.of old = 1 then
      s.setReg .EXC_EVQ_CFG fn (F.EXC_EVQ_CFG_LOG2.put new (F.EXC_EVQ_CFG_LOG2.of old))
    else if !sizeOk (F.EXC_EVQ_CFG_LOG2.of new) 6 then s.blockedReg fn .EXC_EVQ_CFG fn
    else
      let s := s.setReg .EXC_EVQ_CFG fn new
      if F.EXC_EVQ_CFG_EN.of new = 0 then s
      else
        let held := (s.ring fn).held
        let s := s.setFld F.EXC_EVQ_HEAD_HEAD fn 0
        let s := (s.setFld F.EXC_EVQ_STATE_TAIL fn 0).setFld F.EXC_EVQ_STATE_PHASE fn 1
        let s := s.setRing fn ⟨0, 1, true, []⟩
        (s.each held fun e s => s.ringWrite fn e).ringLost fn

/-- EVENT_RING_ENABLE: a write that sets EXC_EVQ_CFG.EN; held events come first, then EVENTS_LOST (R95, R582). -/
def execEventRingEnable (fn : Fin 64) (value : BitVec 64) (s : State) : Answer :=
  .next (s.writeEvqCfg fn .whole value)

/-- A write to EXC_EVQ_HEAD (R93, R95). -/
def State.writeEvqHead (s : State) (fn head : Nat) : State :=
  s.reaching fn .EXC_EVQ_HEAD fn fun s =>
    let r := s.ring fn
    let n := consumed (s.ringSize fn) (s.fld F.EXC_EVQ_HEAD_HEAD fn) head
    if s.ringSize fn ≤ head ∨ r.used < n then s.blockedReg fn .EXC_EVQ_HEAD fn
    else
      let s := (s.setFld F.EXC_EVQ_HEAD_HEAD fn head).setRing fn { r with used := r.used - n }
      s.when (s.flag F.EXC_EVQ_CFG_EN fn) fun s => s.ringLost fn

/-- EVENT_RING_HEAD_WRITE (R93). -/
def execEventRingHeadWrite (fn : Fin 64) (head : BitVec 16) (s : State) : Answer := .next (s.writeEvqHead fn head.toNat)

-- # Contexts (R59, R60, R581)

/-- Two ranges of numbers overlap. -/
def meet (a n b m : Nat) : Bool := decide (a < b + m) && decide (b < a + n)

/-- Why an enable of a context is refused, in the order of R59; 0 is no reason. `v` is the register it would have. -/
def State.enableError (s : State) (n : Nat) (v : Word) : Nat :=
  let others := (List.range 256).filter fun m => m != n && s.ctxOn m
  let first := F.QUE_CTX_CFG_Q_FIRST.of v
  let count := F.QUE_CTX_CFG_Q_COUNT.of v
  let qs (m : Nat) := meet first count (s.fld F.QUE_CTX_CFG_Q_FIRST m) (s.fld F.QUE_CTX_CFG_Q_COUNT m)
  let mask := s.fld F.QUE_CTX_SORI_MASK n
  let taken (m : Nat) := Nat.land mask (s.fld F.QUE_CTX_SORI_MASK m) != 0
  let base := s.regionBase n
  let size := s.regionSize n
  let mems (m : Nat) := decide (0 < size) && decide (0 < s.regionSize m) && meet base size (s.regionBase m) (s.regionSize m)
  let ids := s.fld F.QUE_CTX_SYN_IDS n
  if count = 0 ∨ 4096 < count ∨ 65536 < first + count ∨ others.any qs then 1
  else if others.any taken then 2
  else if s.visibleEnd < base + size ∨ others.any mems ∨ (s.stage = 3 ∧ size ≠ 0) then 3
  else if s.vfs < F.QUE_CTX_CFG_FUNCTION.of v then 4
  else if ids = 0 ∨ 65536 < ids then 5
  else 0

/-- Start the reset of a context: fetching stops, and a checkpoint or restore in progress fails with reason 8 (R60, R585). -/
def State.startCtxReset (s : State) (n : Nat) : State :=
  { (s.failCkpt n 8).setFld F.QUE_CTX_CFG_EN n 0 with resetting := NMap.set s.resetting n s.now }

/-- A write to QUE_CTX_CFG (R59, R60, R585). -/
def State.writeCtxCfg (s : State) (fn n : Nat) (h : Half) (v : Word) : State :=
  s.reaching fn .QUE_CTX_CFG n fun s =>
    let old := s.reg .QUE_CTX_CFG n
    let new := RegName.QUE_CTX_CFG.written h old v
    let sets := F.QUE_CTX_CFG_EN.of new = 1
    if F.QUE_CTX_CFG_EN.of old = 1 then
      if sets then s.blockedReg fn .QUE_CTX_CFG n else s.startCtxReset n
    else if sets then
      if s.ctxResetting n then s.blockedReg fn .QUE_CTX_CFG n
      else
        let e := s.enableError n new
        if e = 0 then s.setReg .QUE_CTX_CFG n (F.QUE_CTX_CFG_ERR.put new 0)
        else
          let s := s.setReg .QUE_CTX_CFG n (F.QUE_CTX_CFG_ERR.put (F.QUE_CTX_CFG_EN.put new 0) e)
          s.raise .device 0x0005 1 n e
    else s.setReg .QUE_CTX_CFG n new

/-- CONTEXT_ENABLE: a write that sets QUE_CTX_CFG.EN (R59). -/
def execContextEnable (fn : Fin 64) (ctx : Fin 256) (value : BitVec 64) (s : State) : Answer :=
  .next (s.writeCtxCfg fn ctx .whole value)

/-- CONTEXT_RESET: a write that clears QUE_CTX_CFG.EN (R60, R585). The write leaves the register's other fields as they are. -/
def execContextReset (fn : Fin 64) (ctx : Fin 256) (s : State) : Answer :=
  .next (s.writeCtxCfg fn ctx .whole (F.QUE_CTX_CFG_EN.put (s.reg .QUE_CTX_CFG ctx) 0))

end Sys2Proof.Machine
end

