-- ==== Sys2Proof/Machine/Bundle.lean ====
section
/-! DEFINITION. Image bundles: how a bundle is cut into its five images (R528, R548), when it verifies (R549), and what a bundle that
becomes ACTIVE does to the fuses (R551). -/

namespace Sys2Proof.Machine

-- # Signature blocks (R548)

/-- The length of a signature block. -/
def sigLen : Nat := 272

/-- A little-endian field of a block. -/
def blockNat (blk : List Byte) (o n : Nat) : Nat := leNat ((blk.drop o).take n)

/-- The bundle's images with their blocks, the first image first. Each block says how long the image before it is, so the cut runs from the
end (log 23); where a block or its image does not fit, the answer is the TYPE of the image that fails. -/
def cutBundle : Nat → List Byte → Except Nat (List (List Byte × List Byte))
  | 0, b => if b.isEmpty then .ok [] else .error 1
  | n + 1, b =>
    let e := b.length - sigLen
    let blk := b.drop e
    let len := blockNat blk 12 4
    if b.length < sigLen ∨ e < len then .error (n + 1)
    else match cutBundle n (b.take (e - len)) with
      | .ok l => .ok (l ++ [((b.take e).drop (e - len), blk)])
      | .error t => .error t

/-- Why a bundle does not verify: Table 16-9's codes, and the case that it cannot be cut. -/
inductive BundleFault where
  | signature | key | digest | svn | format | length
deriving DecidableEq, Repr

/-- Why an image does not verify in its place, in the order of R549. -/
def State.imageFault (s : State) (typ : Nat) (x : List Byte × List Byte) : Option BundleFault :=
  let blk := x.2
  let key := blockNat blk 5 1
  let flags := blockNat blk 6 1
  let pub := (blk.drop 72).take 96
  if blk.take 4 ≠ [0x43, 0x58, 0x34, 0x46] ∨ blockNat blk 4 1 ≠ typ then some .format
  else if 4 ≤ key ∨ sha384 pub ≠ Config.fuseKey key ∨ (s.fld F.SEC_STATE_REVOKED 0).testBit key ∨ flags.testBit (1 + key) then
    some .key
  else if !ecdsa384 pub (blk.take 168) ((blk.drop 168).take 96) then some .signature
  else if (blk.drop 24).take 48 ≠ sha384 x.1 then some .digest
  else if blockNat blk 8 4 < s.fld F.SEC_STATE_FLOOR 0 then some .svn
  else if 32 ≤ flags ∨ blockNat blk 7 1 ≠ 0 ∨ blockNat blk 264 8 ≠ 0 ∨ 63 < blockNat blk 8 4 then some .format
  else none

/-- Two blocks carry one VERSION, SVN and FLAGS. -/
def sameIssue (a b : List Byte) : Bool :=
  blockNat a 16 8 == blockNat b 16 8 && blockNat a 8 4 == blockNat b 8 4 && blockNat a 6 1 == blockNat b 6 1

/-- Why a bundle does not verify, with the TYPE of the image; none where it verifies. -/
def State.bundleFault (s : State) (b : List Byte) : Option (Nat × BundleFault) :=
  match cutBundle 5 b with
  | .error t => some (t, .length)
  | .ok l =>
    match l.zipIdx.findSome? fun x => (s.imageFault (x.2 + 1) x.1).map fun f => (x.2 + 1, f) with
    | some f => some f
    | none =>
      let first := (l.head?.map (·.2)).getD []
      (l.zipIdx.find? fun x => !sameIssue first x.1.2).map fun x => (x.2 + 1, .format)

/-- A bundle verifies (R549). -/
def State.verifies (s : State) (b : List Byte) : Bool := (s.bundleFault b).isNone

-- # What a bundle says of itself

/-- The blocks of a bundle that can be cut. -/
def bundleBlocks (b : List Byte) : List (List Byte) :=
  match cutBundle 5 b with
  | .ok l => l.map (·.2)
  | .error _ => []

/-- The bundle version, the security version and the flags, of the first block. -/
def bundleVersion (b : List Byte) : Nat := (bundleBlocks b).head?.elim 0 fun x => blockNat x 16 8
def bundleSvn (b : List Byte) : Nat := (bundleBlocks b).head?.elim 0 fun x => blockNat x 8 4
def bundleFlags (b : List Byte) : Nat := (bundleBlocks b).head?.elim 0 fun x => blockNat x 6 1

/-- The VERSION and the DIGEST of each image. -/
def bundleImages (b : List Byte) : List (Nat × List Byte) := (bundleBlocks b).map fun x => (blockNat x 16 8, (x.drop 24).take 48)

/-- What a slot holds. -/
def State.slotBytes (s : State) (slot : Nat) : List Byte := NMap.getD s.slots slot []

def State.setSlot (s : State) (slot : Nat) (b : List Byte) : State := { s with slots := NMap.set s.slots slot b }

/-- The slot that is not ACTIVE; slot 0 where neither is (R529, R583). -/
def State.spareSlot (s : State) : Nat := if s.directory.active = 0 then 1 else 0

/-- The firmware of a bundle runs: its images, and the minor version it speaks. -/
def State.runBundle (s : State) (b : List Byte) : State :=
  let s := { s with firmware := { s.firmware with running := bundleImages b } }
  s.each (List.range 64) fun fn s => s.setFld F.MBX_VERSION_MINOR fn (Config.firmwareMinor b)

-- # The floor (R551)

/-- VDD_FUSE is in range, as far as a reading of the rail shows (R599, Table 18-2). -/
def State.fuseRail (s : State) : Bool :=
  s.power.sampled.isNone || (decide (1710 ≤ s.fld F.PWR_RAIL_VOUT 14) && decide (s.fld F.PWR_RAIL_VOUT 14 ≤ 1890))

/-- A bundle becomes ACTIVE: with RAISE_FLOOR and an SVN above the floor it raises the floor, revokes the keys that it names, and leaves
INVALID every slot whose bundle no longer verifies. A rail out of range puts it off to a later boot (R599). The answer holds DETAIL0 of
event 0x0908 where that happens. -/
def State.raiseFloor (s : State) (b : List Byte) : State × Option Nat :=
  let flags := bundleFlags b
  let svn := bundleSvn b
  if flags.testBit 0 ∧ s.fld F.SEC_STATE_FLOOR 0 < svn ∧ s.fuseRail then
    let revoke := bitsOf flags 1 4
    let s := s.setFld F.SEC_STATE_FLOOR 0 svn
    let s := s.setFld F.SEC_STATE_REVOKED 0 (s.fld F.SEC_STATE_REVOKED 0 ||| revoke)
    let bad := [0, 1].filter fun k => s.directory.state k != 0 && !s.verifies (s.slotBytes k)
    let s := s.when (!bad.isEmpty) fun s => s.writeDirectory (bad.foldl (fun d k => d.withState k 1) s.directory)
    (s, some (2 ^ 32 * svn + revoke))
  else (s, none)

end Sys2Proof.Machine
end

