-- ==== Sys2Proof/Machine/Mailbox.lean ====
section
/-! DEFINITION. The mailboxes (R519 to R526): the request and its checks, the response, and the shape of every message. -/

namespace Sys2Proof.Machine

-- # The request (R520, R523, R524)

/-- The request that a function's mailbox serves. -/
def State.requestOf (s : State) (fn : Nat) : List Byte := NMap.getD s.serving fn []

/-- A field of its header. -/
def State.headField (s : State) (fn o n : Nat) : Nat := leNat (((s.requestOf fn).drop o).take n)

/-- A field of its payload; what lies beyond its LENGTH is zero. -/
def State.reqField (s : State) (fn o n : Nat) : Nat := leNat ((((s.requestOf fn).take (s.headField fn 12 4)).drop o).take n)

/-- The mailbox serves a request. -/
def State.mbxBusy (s : State) (fn : Nat) : Bool := s.flag F.MBX_STATUS_BUSY fn

-- # The response (R521)

/-- "CX4M". -/
def mbxMagic : List Byte := [0x43, 0x58, 0x34, 0x4D]

/-- A response with its header and CRC. -/
def mbxMessage (minor id seq : Nat) (payload : List Byte) : List Byte :=
  let head := mbxMagic ++ leBytes 1 1 ++ leBytes 1 minor ++ leBytes 2 id ++ leBytes 4 seq ++ leBytes 4 (32 + payload.length) ++ leBytes 4 1
    ++ leBytes 8 0
  head ++ leBytes 4 (crc32c (head ++ leBytes 4 0 ++ payload)) ++ payload

/-- The response stands in the buffer: DONE, then the interrupt (R524). -/
def State.mbxDone (s : State) (fn : Nat) : State :=
  let s := ((s.setFld F.MBX_STATUS_DONE fn 1).setFld F.MBX_STATUS_BUSY fn 0).setFld F.MBX_STATUS_SEQ fn (s.headField fn 8 4)
  let s := { s with serving := NMap.erase s.serving fn }
  s.when (s.flag F.MBX_IRQ_IRQ_EN fn) fun s => s.msix fn (s.fld F.MBX_IRQ_VECTOR fn)

/-- Answer the request that is served: the status word, and after OK the message's fields. -/
def State.respond (s : State) (fn status detail : Nat) (fields : List Byte) : State :=
  let word := leBytes 2 status ++ leBytes 2 0 ++ leBytes 4 detail
  let m := mbxMessage (s.fld F.MBX_VERSION_MINOR fn) (s.headField fn 6 2) (s.headField fn 8 4) (word ++ if status = St.ok then fields else [])
  let s := { s with
    response := memWrite s.response (4096 * fn) m
    answered := NMap.set s.answered fn (s.headField fn 8 4, s.headField fn 28 4) }
  s.mbxDone fn

-- # Checks (R522, R525, Table 15-3a)

/-- The messages of Table 15-3. -/
def mbxIds : List Nat := [0x0001, 0x0002, 0x0010, 0x0011, 0x0012, 0x0020, 0x0021, 0x0022, 0x0030]

/-- The CRC of a request over its LENGTH, with bytes 28 to 31 taken as zero. -/
def requestCrc (m : List Byte) (len : Nat) : Nat := crc32c (m.take 28 ++ leBytes 4 0 ++ (m.take len).drop 32)

/-- The first of checks 1 to 5 that a request fails: its status and DETAIL. -/
def State.requestFault (s : State) (fn : Nat) : Option (Nat × Nat) :=
  let m := s.requestOf fn
  let len := s.headField fn 12 4
  if m.take 4 ≠ mbxMagic then some (St.refusedFormat, 0)
  else if s.headField fn 4 1 ≠ 1 then some (St.refusedFormat, 4)
  else if len < 32 ∨ 4096 < len then some (St.refusedFormat, 12)
  else if requestCrc m len ≠ s.headField fn 28 4 then some (St.refusedFormat, 28)
  else if !mbxIds.contains (s.headField fn 6 2) then some (St.badCommand, 6)
  else none

/-- A write of MBX_CTL: GO copies the request. A repeat gets the response that stands; one that fails checks 1 to 5 is refused at once; any
other stays BUSY until its message's command answers it. -/
def State.writeMbxCtl (s : State) (fn : Nat) (h : Half) (v : Word) : State :=
  s.reaching fn .MBX_CTL fn fun s =>
    if !F.MBX_CTL_GO.hit h v then s
    else if s.mbxBusy fn then s.setFld F.MBX_STATUS_OVERRUN fn 1
    else
      let s := { s with serving := NMap.set s.serving fn (memRead s.request (4096 * fn) 4096) }.setFld F.MBX_STATUS_BUSY fn 1
      if NMap.get? s.answered fn = some (s.headField fn 8 4, s.headField fn 28 4) then s.mbxDone fn
      else match s.requestFault fn with
        | some (st, d) => s.respond fn st d []
        | none => s

/-- A host write into the request buffer; discarded while BUSY (R524). `off` is within the buffer. -/
def State.writeRequest (s : State) (fn off : Nat) (bs : List Byte) : State :=
  if s.mbxBusy fn then s.setFld F.MBX_STATUS_OVERRUN fn 1 else { s with request := memWrite s.request (4096 * fn + off) bs }

-- # Messages (Table 15-3)

/-- The firmware restarts for an activation: no request is answered meanwhile (R524, R530). -/
def State.restarting (s : State) : Bool := s.firmware.act.any fun a => a.step == 5

/-- The first byte of FLAGS and the reserved part of the header that is not zero. -/
def State.headBad (s : State) (fn : Nat) : Option Nat := ((List.range 12).map (16 + ·)).find? fun o => s.headField fn o 1 != 0

/-- The first byte of a reserved part of the payload that is not zero. -/
def State.reservedBad (s : State) (fn o n : Nat) : Option Nat := ((List.range n).map (o + ·)).find? fun k => s.reqField fn k 1 != 0

/-- The TOKEN of the request is the session's. -/
def State.tokenGood (s : State) (fn : Nat) : Bool := s.firmware.session.token == some (s.reqField fn 32 8)

/-- Serve a message that waits in a mailbox: checks 6 to 9, then its effect. `pf` says that only the physical function may send it, `stage`
from which stage, `deny` what a TOKEN that is not the session's does before it is refused (none where the TOKEN is in order, or the message
carries none); `bad` is the offset of its first field out of range. -/
def State.message (s : State) (fn id : Nat) (pf : Bool) (stage : Nat) (deny : Option (State → State)) (bad : Option Nat) (f : State → State) :
    State :=
  if !s.mbxBusy fn || s.headField fn 6 2 != id || s.restarting || s.secure.scanned then s
  else if pf && fn != 0 then s.respond fn St.noPermission 6 []
  else if s.stage < stage then s.respond fn St.refusedService s.stage []
  else match deny with
    | some g => (g s).respond fn St.noPermission 32 []
    | none =>
      match (s.headBad fn).or bad with
      | some o => s.respond fn St.badCommand o []
      | none => f s

/-- A message that carries the session token: no more than the refusal where it is another. -/
def State.needToken (s : State) (fn : Nat) : Option (State → State) := if s.tokenGood fn then none else some id

end Sys2Proof.Machine
end

