-- ==== Sys2Proof/Machine/Control.lean ====
section
/-! DEFINITION. The control slot (Table 3-15): scalar arithmetic, comparisons, branches, END, signals, waits, barriers and the
deferred queue, with what happens to a held tile later. -/

namespace Sys2Proof.Machine

-- # Scalar arithmetic (R128)

/-- SD = SA op SB. -/
def scalarOp (f : BitVec 64 → BitVec 64 → BitVec 64) (h : SlotHdr) (sd sa sb : Fin 32) (s : State) : Answer :=
  s.runSlot h (h.slot == .c) fun c =>
    if c.on then c.putS sd (f (c.src.sreg sa) (c.src.sreg sb)) else c.off [keyS sd]

/-- A shift amount: SB[5:0]. -/
def shamt (b : BitVec 64) : Nat := b.toNat % 64

/-- SADD (R128). -/
def execSadd (h : SlotHdr) (sd sa sb : Fin 32) (s : State) : Answer := scalarOp (· + ·) h sd sa sb s
/-- SSUB (R128). -/
def execSsub (h : SlotHdr) (sd sa sb : Fin 32) (s : State) : Answer := scalarOp (· - ·) h sd sa sb s
/-- SMUL keeps the low 64 bits (R128). -/
def execSmul (h : SlotHdr) (sd sa sb : Fin 32) (s : State) : Answer := scalarOp (· * ·) h sd sa sb s
/-- SAND (R128). -/
def execSand (h : SlotHdr) (sd sa sb : Fin 32) (s : State) : Answer := scalarOp (· &&& ·) h sd sa sb s
/-- SOR (R128). -/
def execSor (h : SlotHdr) (sd sa sb : Fin 32) (s : State) : Answer := scalarOp (· ||| ·) h sd sa sb s
/-- SXOR (R128). -/
def execSxor (h : SlotHdr) (sd sa sb : Fin 32) (s : State) : Answer := scalarOp (· ^^^ ·) h sd sa sb s
/-- SSHL shifts left by SB[5:0] (R128). -/
def execSshl (h : SlotHdr) (sd sa sb : Fin 32) (s : State) : Answer := scalarOp (fun a b => a <<< shamt b) h sd sa sb s
/-- SSHR shifts right logically by SB[5:0] (R128). -/
def execSshr (h : SlotHdr) (sd sa sb : Fin 32) (s : State) : Answer := scalarOp (fun a b => a >>> shamt b) h sd sa sb s
/-- SSRA shifts right arithmetically by SB[5:0] (R128). -/
def execSsra (h : SlotHdr) (sd sa sb : Fin 32) (s : State) : Answer :=
  scalarOp (fun a b => a.sshiftRight (shamt b)) h sd sa sb s
/-- SLT compares signed and writes 1 or 0 (R128). -/
def execSlt (h : SlotHdr) (sd sa sb : Fin 32) (s : State) : Answer :=
  scalarOp (fun a b => if a.slt b then 1 else 0) h sd sa sb s
/-- SLTU compares unsigned and writes 1 or 0 (R128). -/
def execSltu (h : SlotHdr) (sd sa sb : Fin 32) (s : State) : Answer :=
  scalarOp (fun a b => if a.ult b then 1 else 0) h sd sa sb s
/-- SMIN, signed (R128). -/
def execSmin (h : SlotHdr) (sd sa sb : Fin 32) (s : State) : Answer :=
  scalarOp (fun a b => if a.slt b then a else b) h sd sa sb s
/-- SMAX, signed (R128). -/
def execSmax (h : SlotHdr) (sd sa sb : Fin 32) (s : State) : Answer :=
  scalarOp (fun a b => if a.slt b then b else a) h sd sa sb s

/-- SADDI adds the sign-extended immediate (Table 3-15). -/
def execSaddi (h : SlotHdr) (sd sa : Fin 32) (imm : BitVec 28) (s : State) : Answer :=
  s.runSlot h (h.slot == .c) fun c =>
    if c.on then c.putS sd (c.src.sreg sa + imm.signExtend 64) else c.off [keyS sd]

/-- SINS puts 16 bits into a quarter of SD; the other bits stay (Table 3-15). -/
def execSins (h : SlotHdr) (sd : Fin 32) (quarter : Fin 4) (imm : BitVec 16) (s : State) : Answer :=
  s.runSlot h (h.slot == .c) fun c =>
    if c.on then
      let v := (c.src.sreg sd).toNat
      let lo := 16 * quarter.val
      c.putS sd (BitVec.ofNat 64 (v - 2 ^ lo * bitsOf v lo 16 + 2 ^ lo * imm.toNat))
    else c.off [keyS sd]

/-- SCMP sets all 256 bits of PD to the comparison (Table 3-15). -/
def execScmp (h : SlotHdr) (pd cnd : Fin 8) (sa sb : Fin 32) (s : State) : Answer :=
  s.runSlot h (h.slot == .c) fun c =>
    if c.on then
      c.putP pd (if scalarCompare cnd (c.src.sreg sa) (c.src.sreg sb) then BitVec.allOnes 256 else 0#256) []
    else c.off [keyP pd]

/-- PLOG combines two predicates by AND, OR, XOR or AND-NOT (Table 3-15). -/
def execPlog (h : SlotHdr) (pd pa pb : Fin 8) (opn : Fin 4) (s : State) : Answer :=
  s.runSlot h (h.slot == .c) fun c =>
    if c.on then
      let a := c.src.preg pa
      let b := c.src.preg pb
      c.putP pd (match opn.val with | 0 => a &&& b | 1 => a ||| b | 2 => a ^^^ b | _ => a &&& ~~~b) []
    else c.off [keyP pd]

/-- The special values of Table 3-16; none for an IDX it does not list. -/
def specialValue (s : State) (c : SlotCtx) (idx : Nat) : Option Nat :=
  match idx with
  | 0x00 => some s.now
  | 0x01 => some c.t
  | 0x02 => some (c.t / 16)
  | 0x03 => some c.l.ctx
  | 0x04 => some c.l.step
  | 0x05 => some c.l.argAddr
  | 0x06 => some c.l.argLen
  | 0x07 => some (c.l.tiles.idxOf c.t)
  | 0x08 => some c.l.tiles.length
  | 0x09 => some (s.adoptedBy .sori (c.t / 16))
  | 0x0A => some (s.fld F.FAB_ID_ID 0)
  | _ => none

/-- SRD reads a special value; an IDX not listed is a decode fault (R129). -/
def execSrd (h : SlotHdr) (sd : Fin 32) (idx : BitVec 8) (s : State) : Answer :=
  s.runSlot h (h.slot == .c) fun c =>
    match specialValue s c idx.toNat with
    | none => .decode
    | some v => if c.on then c.putS sd (BitVec.ofNat 64 v) else c.off [keyS sd]

-- # Branches (R109, R128)

/-- Go to a bundle after this one has passed; a target outside the bound code is a decode fault (R109). -/
def SlotCtx.goto (c : SlotCtx) (x : Tile) (keys : List Nat) (target : Int) : SlotRes :=
  if 0 ≤ target ∧ target < c.l.bundles then .write { x with target := some target.toNat } keys [] else .decode

/-- The target of a branch offset, counted in bundles from this bundle. -/
def SlotCtx.branch (c : SlotCtx) (off : BitVec 24) : Int := c.x.bundle + off.toInt

/-- BR (R109). -/
def execBr (h : SlotHdr) (off : BitVec 24) (s : State) : Answer :=
  s.runSlot h (h.slot == .c) fun c => if c.on then c.goto c.x [] (c.branch off) else .skip

/-- LOOP: SC takes SC − 1, and the branch is taken where that is not zero (Table 3-15). -/
def execLoop (h : SlotHdr) (sc : Fin 32) (off : BitVec 24) (s : State) : Answer :=
  s.runSlot h (h.slot == .c) fun c =>
    if c.on then
      let v := c.src.sreg sc - 1
      let x := { c.x with core := c.x.core.setS sc v }
      if v = 0 then .write x [keyS sc] [] else c.goto x [keyS sc] (c.branch off)
    else c.off [keyS sc]

/-- CALL: s31 takes the index of the next bundle (Table 3-15). -/
def execCall (h : SlotHdr) (off : BitVec 24) (s : State) : Answer :=
  s.runSlot h (h.slot == .c) fun c =>
    if c.on then
      c.goto { c.x with core := c.x.core.setS 31 (BitVec.ofNat 64 (c.x.bundle + 1)) } [keyS 31] (c.branch off)
    else c.off [keyS 31]

/-- JR goes to the bundle index in SA (Table 3-15). -/
def execJr (h : SlotHdr) (sa : Fin 32) (s : State) : Answer :=
  s.runSlot h (h.slot == .c) fun c => if c.on then c.goto c.x [] (c.src.sreg sa).toNat else .skip

/-- END: the tile runs what its deferred queue still holds and finishes; inside a deferred body it is a decode fault (R132,
R247, R248). -/
def execEndTile (h : SlotHdr) (s : State) : Answer :=
  s.runSlot h (h.slot == .c) fun c =>
    if c.x.body.isSome then .decode
    else if c.on then .write c.x [] [.endTile] else .skip

-- # Synchronisation (R130, R158 to R167)

/-- SIG adds SN to the counter SI[15:0] when its bundle passes (R158). -/
def execSig (h : SlotHdr) (si sn : Fin 32) (s : State) : Answer :=
  s.runSlot h (h.slot == .c) fun c =>
    if c.on then .write c.x [] [.signal ((c.src.sreg si).toNat % 65536) (c.src.sreg sn).toNat] else .skip

/-- The state of a tile whose bundle is held at issue. -/
def Tile.holdBy (x : Tile) (k : Hold) : Tile := { x.rollback with hold := some k }

/-- Who waits where a tile's running stream is held: its main stream, or its deferred body. -/
def Tile.waiter (x : Tile) (t : Nat) : WaiterRef := if x.body.isSome then .body t else .tile t

/-- A WAIT or WAITT of a tile that its checks have let through: satisfied, held, given up at once, or a fault. A wait stands
first in its bundle (log 12), else it is not taken: another slot's operation would have issued before its condition held (R103). A WAITT's
timeout counts from when its bundle was first held; one of 0 finds a condition that already holds, however long DRAIN has held it (R130,
R161). A fault that only another slot's operation has is found when the wait is over (log 112). -/
def waitSlot (h : SlotHdr) (kind : HoldKind) (pd si sn : Nat) (timeout : Option Nat) (s : State) : Answer :=
  if h.slot ≠ .c then .refused .illFormed
  else if (s.tile h.tile).used ≠ [] then .next s
  else match s.openSlot h with
    | .again => .next s
    | .wait => .next s
    | .drain => .next (s.noteStall h.tile)
    | .stop => .next (s.modTile h.tile fun x => { x with stopped := true })
    | .fault => .next (s.tileFault h.tile St.badCommand 3)
    | .go c =>
      let since := (s.tile h.tile).stall.getD s.now
      let vid := (c.src.sreg si).toNat % 65536
      let target := (c.src.sreg sn).toNat
      let k : Hold := ⟨kind, vid, target, pd, since + timeout.getD 0, since, h.last⟩
      let wrote := if kind = .waitt then [keyP pd] else []
      let decided (s : State) (b : Bool) : Answer := .next (s.issued h c { c.x with met := some (metBy kind pd b), wrote := wrote })
      if !c.on then .next (s.issued h c { c.x with wrote := wrote })
      else if s.dropped c.l then decided s true
      else
        match s.waitOn c.l.ctx vid target ⟨0, c.t⟩ (c.x.waiter c.t) with
        | (s', .failed st d) => .next (s'.tileFault c.t st d)
        | (s', .satisfied _) => decided s' (timeout == some 0 || k.decides true s.now)
        | (s', .held) =>
          if kind = .waitt ∧ k.deadline ≤ s.now then decided (s'.cancelWaits (c.x.waiter c.t)) false
          else .next ((s'.setTile c.t (c.x.holdBy k)).noteHeld c.t)

/-- WAIT holds its bundle until the counter SI[15:0] reaches SN (R130, R161). -/
def execWait (h : SlotHdr) (si sn : Fin 32) (s : State) : Answer := waitSlot h .wait 0 si sn none s

/-- WAITT gives up after the timeout in STO[47:0]; PD says whether the target was reached (R130). -/
def execWaitt (h : SlotHdr) (pd : Fin 8) (si sn sto : Fin 32) (s : State) : Answer :=
  let src := (s.tile h.tile).snap.getD (s.tile h.tile).core
  waitSlot h .waitt pd si sn (some ((src.sreg sto).toNat % 2 ^ 48)) s

/-- A held WAITT whose timeout has expired. -/
def Hold.expired (k : Hold) (now : Nat) : Bool := k.kind == .waitt && decide (k.deadline ≤ now)

/-- A WAITT's timeout expires in the tile, of its main stream or of its deferred body: PD becomes zero and the bundle issues; a later release
of that wait is discarded (R130, R161). Before the timeout, or where no WAITT is held, nothing happens. -/
def execWaittTimeout (tile : Fin 512) (s : State) : Answer :=
  let main := (s.tile tile).mainHeld.any fun k => k.expired s.now
  let body := (s.tile tile).bodyHeld.any fun k => k.expired s.now
  let s := s.when main fun s => (s.cancelWaits (.tile tile)).releaseTile tile false
  .next (s.when body fun s => (s.cancelWaits (.body tile)).releaseBody tile false)

/-- BAR arrives at the barrier SI[15:0] for the epoch in SE and holds its bundle until that epoch completes; inside a deferred
body it is a decode fault (R130, R165, R247). -/
def execBar (h : SlotHdr) (si se : Fin 32) (s : State) : Answer :=
  if h.slot ≠ .c then .refused .illFormed
  else if (s.tile h.tile).used ≠ [] then .next s
  else match s.openSlot h with
    | .again => .next s
    | .wait => .next s
    | .drain => .next (s.noteStall h.tile)
    | .stop => .next (s.modTile h.tile fun x => { x with stopped := true })
    | .fault => .next (s.tileFault h.tile St.badCommand 3)
    | .go c =>
      if c.x.body.isSome then .next (s.tileFault c.t St.badCommand 3)
      else if !c.on then .next (s.issued h c c.x)
      else if s.dropped c.l then .next (s.issued h c { c.x with met := some none })
      else
        let vid := (c.src.sreg si).toNat % 65536
        let epoch := (c.src.sreg se).toNat
        let since := (s.tile h.tile).stall.getD s.now
        let k : Hold := ⟨.bar, vid, epoch, 0, 0, since, h.last⟩
        let held := (s.setTile c.t (c.x.holdBy k)).noteHeld c.t
        match held.arrive c.l.ctx vid epoch c.t with
        | (s', none) => .next s'
        | (s', some (st, d)) => .next (s'.tileFault c.t st d)

/-- A released participant's tile acknowledges its release (R165). -/
def execBarrierLeave (tile : Fin 512) (ctx : Fin 256) (vid : Fin 65536) (s : State) : Answer :=
  .next (s.leave ctx vid tile)

-- # The deferred queue (R245 to R249)

/-- A descriptor from its 32 bytes, with its shard; none where a reserved bit is set, the bounds are bad or an offset is not
aligned (Table 7-1, R246). -/
def Deferred.ofBytes (bs : List Byte) (shard : Nat) : Option Deferred :=
  let f (i n : Nat) := leNat ((bs.drop i).take n)
  let entry := f 0 4
  let limit := f 4 4
  let rdOff := f 16 4
  let rdLen := f 20 4
  if f 12 4 < 2 ∧ f 24 8 = 0 ∧ entry < limit ∧ limit ≤ entry + 4096 ∧ rdOff % 64 = 0 ∧ rdLen % 64 = 0 ∧ rdOff + rdLen ≤ storeSize then
    some ⟨entry, limit, f 8 4, f 12 4 = 1, rdOff, rdLen, shard⟩
  else none

/-- DEFQ posts the descriptor at offset SD for shard SH[31:0]. A full queue holds the bundle while the tile runs its oldest
descriptor; inside a deferred body it is a decode fault (R131, R245, R247). -/
def execDefq (h : SlotHdr) (sd sh : Fin 32) (s : State) : Answer :=
  let x := s.tile h.tile
  let full : Bool := match s.openSlot h with | .go c => c.on && c.x.body.isNone && c.x.deferred.length == 64 | _ => false
  if h.slot == .c && full then
    match x.oldest none with
    | some d => .next (s.startBody h.tile d true)
    | none => .next s
  else
    s.runSlot h (h.slot == .c) fun c =>
      if c.x.body.isSome then .decode
      else if !c.on then .skip
      else
        let off := (c.src.sreg sd).toNat
        if off % 32 ≠ 0 then .decode
        else if storeSize < off + 32 then .unbacked (storeAddr c.t (max off storeSize))
        else if s.rangeLocked c.t off 32 then .stall
        else match Deferred.ofBytes (s.storeRead c.t off 32) ((c.src.sreg sh).toNat % 2 ^ 32) with
          | none => .decode
          | some d => .write c.x [] [.defq d]

/-- The main stream has been held by WAIT, WAITT, BAR, DRAIN or a lock for YIELD_NS: the tile runs its oldest deferred body
(R248). A YIELD_NS of zero disables yielding, and a device-fatal fault ends it (R47). -/
def execDeferredYield (tile : Fin 512) (s : State) : Answer :=
  let x := s.tile tile
  match s.tileLaunch tile with
  | none => .next s
  | some l =>
    let y := F.EXC_STEP_CFG_YIELD_NS.of (s.staged .EXC_STEP_CFG l.ctx .sori (tile / 16))
    let since := match x.hold with | some k => some k.since | none => x.stall
    match x.body, x.oldest none, since with
    | none, some d, some t =>
      if y ≠ 0 ∧ t + y ≤ s.now ∧ l.fault.isNone ∧ !x.stopped ∧ !x.ended ∧ !s.flag F.HIF_STATUS_FATAL 0 then .next (s.startBody tile d false) else .next s
    | _, _, _ => .next s

/-- A bundle that failed its byte parity: its 4 KiB code page is refetched from the bound image, and the bundle is retried
once; a second failure on that bundle is a decode fault (R135). -/
def execCodePageRefetch (tile : Fin 512) (s : State) : Answer :=
  let x := s.tile tile
  match s.tileLaunch tile with
  | none => .next s
  | some l =>
    if x.parity = some x.bundle then .next (s.tileFault tile St.badCommand 3)
    else .next ((s.refetchPage tile l.key x.bundle).setTile tile { x with parity := some x.bundle })

end Sys2Proof.Machine
end

