-- ==== Sys2Proof/Machine/Twin.lean ====
section
/-! DEFINITION. What a message from the twin does (R495 to R504, R514), and how messages are held while dispatch is held for an
activation (R534). -/

namespace Sys2Proof.Machine

-- # What comes over MIR (R495, R506)

/-- A message from the twin has been accepted: the silence timer starts anew. -/
def State.fromTwin (s : State) : State := s.setFld F.PAIR_LAST_HB_TIME 0 s.now

/-- The device takes and sends pair traffic: it has a twin, it is at full service and it has not failed. -/
def State.pairLive (s : State) : Bool :=
  s.flag F.PAIR_CFG_EN 0 && decide (s.stage = 6) && !s.flag F.HIF_STATUS_FATAL 0 && !s.inReset

/-- The heartbeat runs (R506). -/
def State.pairBeats (s : State) : Bool := s.pairLive && (s.pairState == 2 || s.pairState == 4)

-- # Pairing (R496, R514)

/-- The shards that a device under reintegration is to receive. -/
def State.shardsToCopy (s : State) (dev : Nat) : Nat :=
  total ((List.range 256).map fun n => (s.shards n).countP fun x => s.owns x && x.twin == dev)

/-- The reason of event 0x0402 for a HELLO: 1 ordering code or stepping, 2 the same position, 0 none. -/
def State.helloFault (s : State) (order stepping pos : Nat) : Nat :=
  if order ≠ s.fld F.HIF_ID_ORDER 0 ∨ stepping ≠ s.fld F.HIF_ID_STEPPING 0 then 1
  else if pos = s.fld F.PAIR_CFG_POS 0 then 2 else 0

/-- Send a HELLO (Table 14-1). -/
def State.sayHello (s : State) : State :=
  s.postMir (.hello (s.fld F.HIF_ID_ORDER 0) (s.fld F.HIF_ID_STEPPING 0) (s.fld F.HIF_SERIAL_SERIAL 0) s.deviceId (s.fld F.PAIR_CFG_POS 0)
    s.pairState)

/-- A HELLO has ended this device's own pairing, or names a device that it does not pair with: where the twin that sent it is forming still, it gets
a HELLO in answer, so that it pairs, or reports the mismatch, too (R6, R496, DEDUCED, log 107). -/
def State.answerHello (s : State) (pst : Nat) : State := s.when (pst == 0) State.sayHello

/-- A HELLO: a forming device pairs with the twin, joins it for reintegration where it stands alone in service, or reports the mismatch and
stays alone; a survivor that has released PAIR_RST_N begins the reintegration, or reports the mismatch, once for each device that names itself
so, and stays without a twin (R6). -/
def State.serveHello (s : State) (order stepping dev pos pst : Nat) : State :=
  let why := s.helloFault order stepping pos
  let named := s.setFld F.PAIR_STATE_TWIN_ID 0 dev
  match s.pairState with
  | 0 =>
    if why ≠ 0 then ((named.setFld F.PAIR_STATE_STATE 0 1).raise .device 0x0402 2 dev why).answerHello pst
    else if 3 ≤ pst then
      { named.setFld F.PAIR_STATE_STATE 0 4 with pair := { named.pair with receiver := true }, copied := [], copying := [] }
    else ((named.setFld F.PAIR_STATE_STATE 0 2).raise .device 0x0401 0 dev (2 ^ 32 * named.fld F.PAIR_STATE_MIR_RATE 0)).answerHello pst
  | 3 =>
    if s.flag F.PAIR_STATE_DRIVING 0 then s
    else if why ≠ 0 then
      if s.pair.told = some dev then s.answerHello pst
      else ({ named with pair := { named.pair with told := some dev } }.raise .device 0x0402 2 dev why).answerHello pst
    else
      let n := named.shardsToCopy dev
      let s := ((named.setFld F.PAIR_STATE_STATE 0 4).setFld F.PAIR_REINT_TOTAL 0 n).setFld F.PAIR_REINT_DONE 0 0
      let s : State :=
        { s with pair := { s.pair with receiver := false, copying := false, back := 0, told := none }, copied := [], copying := [] }
      (s.raise .device 0x0409 0 dev n).answerHello pst
  | 1 => s.when (why != 0) fun s => s.answerHello pst
  | _ => s

/-- A GRADIENT: the mirror takes the finalised gradient of a shard (R402). -/
def State.serveGradient (s : State) (ctx : Nat) (x : Shard) (grad gexp : List Byte) : State :=
  if s.mirrors x then
    let s := s.settleMirror ctx x
    let s := s.devWrite (x.planeAddr 2) (grad.take (2 * x.elems))
    let s := s.when (x.has 3) fun s => s.devWrite (x.planeAddr 3) (gexp.take (ceilDiv x.elems 256))
    let d := crc64 (grad ++ gexp)
    s.modStep ctx fun p => { p.setDigest x.num (fun o => (d, o.2)) with received := x.num :: p.received }
  else s

/-- A DELTA: the mirror takes the dlt values of an exchanged shard for a round, and an apply pass that waited for them may start (R435). -/
def State.serveDelta (s : State) (ctx : Nat) (x : Shard) (round : Nat) (dlt : List Nat) : State :=
  if s.mirrors x then
    let s := (s.settleMirror ctx x).modXch ctx fun q => { q with
      deltas := q.deltas.filter (fun d => !(d.1 == x.num && d.2.1 == round)) ++ [(x.num, round, dlt)] }
    s.when ((s.xchOf ctx).applying == some round) fun s => s.startApplies ctx round
  else s

/-- A COPY: the receiver of a reintegration writes a digest block of a shard, and derives WORK from what it covers of the master (R514). -/
def State.serveCopy (s : State) (ctx : Nat) (x : Shard) (block : Nat) (bytes : List Byte) : State :=
  if s.pairState == 4 && s.mirrors x && decide (block < x.digestBlocks) && bytes.length == (s.blockBytes x block).length then
    let s := (s.writeParts (x.blockParts block) bytes).unmark x block
    let s := if x.planeOf block ≤ 1 then s.deriveBlock x block else s
    s.when (block + 1 == x.digestBlocks) fun s => { s with copied := (ctx, x.num) :: s.copied }
  else s

/-- What a message from the twin does. Each but HELLO counts only while the heartbeat runs. -/
def State.servePair (s : State) (m : PairMsg) : State :=
  let on (ctx shard : Nat) (f : Shard → State) : State := if s.pairBeats then (s.shard? ctx shard).elim s f else s
  match m with
  | .hello order stepping dev pos pst => if s.pairLive then s.serveHello order stepping dev pos pst else s
  | .gradient ctx shard grad gexp => on ctx shard fun x => s.serveGradient ctx x grad gexp
  | .decision ctx step d => if s.pairBeats then s.modStep ctx fun p => if p.index = step then { p with mirror := some d } else p else s
  | .delta ctx shard round dlt => on ctx shard fun x => s.serveDelta ctx x round dlt
  | .digest ctx shard pass step first digests marks => on ctx shard fun x => s.takeDigests ctx x pass step first digests marks
  | .repair ctx shard block bytes =>
    on ctx shard fun x => if block < x.digestBlocks ∧ bytes.length = (s.blockBytes x block).length then s.takeRepair ctx x block bytes else s
  | .copy ctx shard block bytes => on ctx shard fun x => s.serveCopy ctx x block bytes

/-- A message comes from the twin: it is served, or held while dispatch is held for an activation. -/
def State.pairMsg (s : State) (m : PairMsg) : State :=
  if !s.pairLive then s
  else
    let s := s.fromTwin
    if s.quiesce then { s with firmware := { s.firmware with held := s.firmware.held ++ [m] } } else s.servePair m

/-- Dispatch resumes, and the held messages are served in order. -/
def State.resumeDispatch (s : State) : State :=
  let l := s.firmware.held
  { s with quiesce := false, firmware := { s.firmware with held := [] } }.each l fun m s => s.servePair m

end Sys2Proof.Machine
end

