-- ==== Sys2Proof/Machine/Power.lean ====
section
/-! DEFINITION. Power and temperature (R539 to R546): the power loop, the clock limits and which of them bind, the emergencies, and the
thermal trip. -/

namespace Sys2Proof.Machine

-- # Limits (R348, R349, R543)

/-- The causes of Table 15-6 that are active. -/
def State.causes (s : State) : Nat := s.fld F.PWR_EMERG_CAUSES 0

/-- The highest tile clock, in MHz. -/
def State.fTop (s : State) : Nat := if s.stagedFld F.PWR_CAP_TURBO 0 .power = 1 then 2100 else 1900

/-- The stack that a sorus is adjacent to (R348). -/
def adjacentStack (sorus : Nat) : Nat := 3 * (sorus / 8) + (if sorus % 8 < 3 then 0 else if sorus % 8 < 5 then 1 else 2)

/-- The rate of a stack, in percent of full: the lowest of its thermal throttle (R347), the power loop's MEM_PCT (R541), and the 50 % that BRAKE
and OVER_POWER clamp every stack to (Table 15-6). -/
def State.stackRate (s : State) (st : Nat) : Nat :=
  let clamp := if s.causes.testBit 0 || s.causes.testBit 4 then 50 else 100
  min (s.fld F.MEM_THERM_BW_PCT st) (min (s.fld F.PWR_STATUS_MEM_PCT 0) clamp)

/-- The tile clock, in MHz, that a stack below full rate leaves the sori adjacent to it (R348). -/
def State.stackLimit (s : State) (st : Nat) : Nat := max 800 (19 * s.stackRate st)

/-- The limits on the tiles of a sorus that hold below the highest clock, each with its bit of BOUND: the power loop's, its die's, its stack's, and
an emergency's (R348, R349, R543). -/
def State.sorusLimits (s : State) (i : Nat) : List (Nat × Nat) :=
  let f := s.fld F.PWR_STATUS_F_PWR 0
  let die := s.fld F.PWR_DIE_THERM_F_THERM (i / 8)
  let st := adjacentStack i
  (if f < s.fTop then [(f, 0)] else []) ++ (if die < 1900 then [(die, 1)] else []) ++
    (if s.stackRate st < 100 then [(s.stackLimit st, 2)] else []) ++ (if s.causes ≠ 0 then [(800, 3)] else [])

/-- The highest clock of any tile at the current stage: 1.0 GHz before S6 (Table 17-7). -/
def State.tileTop (s : State) : Nat := if s.stage < 6 then 1000 else s.fTop

/-- The clock of the tiles of a sorus: the lowest limit that it is subject to (R348, R543, R581). No result depends on it (R108). -/
def State.sorusClock (s : State) (i : Nat) : Nat := ((s.sorusLimits i).map (·.1)).foldl min s.tileTop

/-- The limits of the device's tiles: those of one sorus of each stack, as the sori adjacent to one stack share theirs. -/
def State.clockLimits (s : State) : List (Nat × Nat) := ((List.range 12).map fun st => 8 * (st / 3) + [0, 3, 5].getD (st % 3) 0).flatMap s.sorusLimits

/-- Show which limits are in force at the lowest clock. -/
def State.showBound (s : State) : State :=
  let l := s.clockLimits
  let low := (l.map (·.1)).foldl min s.tileTop
  s.setFld F.PWR_STATUS_BOUND 0 ((l.filter fun x => x.1 == low).foldl (fun m x => m ||| 2 ^ x.2) 0)

-- # Activation meets emergencies (R530, R531)

/-- Activation is abandoned: dispatch resumes, the slot stays as it was. -/
def State.abandonAct (s : State) (a : Activation) (why : Nat) : State :=
  ({ s with firmware := { s.firmware with act := none } }.resumeDispatch).raise .device 0x0805 2 a.slot why

/-- A cause has become active: a clear wait starts again, a quiesce goes back to the clear wait; both count a deferral. -/
def State.deferActivation (s : State) : State :=
  match s.firmware.act with
  | none => s
  | some a =>
    if a.step = 1 ∨ a.step = 2 then
      let a := { a with step := 1, deferred := a.deferred + 1 }
      let s := { s with firmware := { s.firmware with act := some a } }.resumeDispatch
      let s := s.raise .device 0x0804 1 a.slot (2 ^ 32 * a.deferred + s.causes)
      if 16 ≤ a.deferred then s.abandonAct a 1 else s
    else s

-- # Emergencies (R545)

/-- The kind of the last clear of every cause among the activities. -/
def clearTimer : Nat := 60

/-- A cause of Table 15-6 becomes active, or clears. Entering the emergency counts it, asserts EMERG_N and raises event 0x080C; the last
cause to clear releases EMERG_N and raises event 0x080D. -/
def State.setCause (s : State) (bit : Nat) (on : Bool) : State :=
  let was := s.causes
  let now := if on then was ||| 2 ^ bit else was - (was &&& 2 ^ bit)
  if was = now then s
  else
    let s := (s.setFld F.PWR_EMERG_CAUSES 0 now).setFld F.PWR_EMERG_ACTIVE 0 (b2n (now != 0))
    let s :=
      if was = 0 then
        let s := { s with power := { s.power with since := s.now, emerg := true } }
        (s.bumpFld F.PWR_EMERG_CNT_ENTRIES 0 1).raise .device 0x080C 2 0 now
      else if now = 0 then
        let s := (({ s with power := { s.power with emerg := false } }).setFld F.PWR_EMERG_CLEAR_T 0 s.now).beginAt clearTimer 0
        s.raise .device 0x080D 1 0 ((s.now - s.power.since) / ms)
      else s
    (s.when on State.deferActivation).showBound

/-- A thermal trip (R546): THERM_TRIP_N, PWR_TRIP, event 0x080E and a device-fatal fault, once. -/
def State.thermTrip (s : State) (source temp : Nat) : State :=
  if s.power.trip then s
  else
    let s := { s with power := { s.power with trip := true } }
    let s := ((s.setFld F.PWR_TRIP_TRIPPED 0 1).setFld F.PWR_TRIP_SOURCE 0 source).setFld F.PWR_TRIP_TEMP 0 temp
    (s.raise .device 0x080E 3 source temp).fatal

/-- DIE_HOT from the junction temperatures. -/
def State.dieHot (s : State) : State :=
  let l := s.power.tj.map (·.2)
  if l.any fun t => decide (16 * 105 < t) then s.setCause 1 true
  else if l.all fun t => decide (t ≤ 16 * 103) then s.setCause 1 false else s

/-- MEM_HOT from the stacks' temperatures. -/
def State.memHot (s : State) : State :=
  let l := (List.range 12).map fun st => s.fld F.MEM_THERM_T_MAX st
  if l.any fun t => decide (100 ≤ t) then s.setCause 2 true
  else if l.all fun t => decide (t ≤ 98) then s.setCause 2 false else s

/-- VR_FAULT from VR_HOT_N and the regulators' warnings. -/
def State.vrFault (s : State) : State :=
  s.setCause 3 (s.power.vrHot || (List.range 16).any fun k => s.flag F.PWR_RAIL_WARN k)

/-- A junction temperature, in sixteenths of a degree: shown, and judged for DIE_HOT and for a trip. -/
def State.setTj (s : State) (d tj : Nat) : State :=
  let s := { s with power := { s.power with tj := NMap.set s.power.tj d tj } }
  let s := (s.setFld F.PWR_DIE_THERM_TJ_MAX d (tj / 16)).dieHot
  s.when (decide (16 * 115 ≤ tj)) fun s => s.thermTrip d (tj / 16)

-- # Junctions (R349)

/-- The clock limit of a compute die in MHz at a junction temperature in sixteenths of a degree. -/
def dieLimit (tj : Nat) : Nat := if tj ≤ 16 * 95 then 1900 else if tj ≤ 16 * 105 then 1900 - 110 * (ceilDiv tj 16 - 95) else 800

/-- DIE_THROTTLE_UPDATE: a compute die's hottest junction temperature has changed. -/
def execDieThrottleUpdate (d : Fin 4) (tj : BitVec 12) (s : State) : Answer :=
  if s.inReset then .next s
  else
    let t := tj.toNat
    let was := s.fld F.PWR_DIE_THERM_F_THERM d
    let hot := decide (16 * 105 < t)
    let wasHot := decide (16 * 105 < NMap.getD s.power.tj d 0)
    let s := s.setFld F.PWR_DIE_THERM_F_THERM d (dieLimit t)
    let s := s.when (dieLimit t != was || (hot && !wasHot)) fun s =>
      s.raiseLimited d sec .device 0x010F (if hot then 2 else 1) d (dieLimit t)
    .next ((s.setTj d t).showBound)

/-- HUB_JUNCTION_TEMPERATURE. -/
def execHubJunctionTemperature (tj : BitVec 12) (s : State) : Answer :=
  if s.inReset then .next s else .next (s.setTj 4 tj.toNat)

/-- THERMAL_TRIP: a source of PWR_TRIP stands at its trip temperature, in whole °C. -/
def execThermalTrip (source : BitVec 8) (temp : BitVec 8) (s : State) : Answer :=
  let n := source.toNat
  if !s.inReset && ((decide (n ≤ 4) && decide (115 ≤ temp.toNat)) || (decide (16 ≤ n) && decide (n < 28) && decide (105 ≤ temp.toNat))) then
    .next (s.thermTrip n temp.toNat)
  else .next s

-- # The power loop (R539 to R542)

/-- A write of PWR_CAP: staged, unless CAP_W lies out of its range. -/
def State.writePwrCap (s : State) (fn : Nat) (h : Half) (v : Word) : State :=
  s.reaching fn .PWR_CAP 0 fun s =>
    let w := F.PWR_CAP_CAP_W.of (RegName.PWR_CAP.written h (s.stagingValue .PWR_CAP 0) v)
    if w < 1400 ∨ 2300 < w then s.setFld F.PWR_CAP_ERR 0 1 else (s.setFld F.PWR_CAP_ERR 0 0).stageReg .PWR_CAP 0 h v

/-- f_pwr and the memory limit of the next period, from those of the last, the average of the last 1 ms, the cap, the highest clock, and
whether f_pwr has stood at its floor for ten periods. -/
def powerNext (f pct avg cap top : Nat) (floor : Bool) : Nat × Nat :=
  if cap < avg then (if floor then (min top (max 800 (f - 25)), if 50 < pct then pct - 10 else pct) else (min top (max 800 (f - 25)), pct))
  else if 100 * avg < 98 * cap then (if pct < 100 then (min top f, min 100 (pct + 10)) else (min top (f + 25), pct))
  else (min top f, pct)

/-- POWER_CONTROL_PERIOD: at a whole millisecond, with the average package power of the last 1 ms and of the last 100 ms. -/
def execPowerControlPeriod (p1 p100 : BitVec 16) (s : State) : Answer :=
  if s.inReset || decide (s.stage < 3) || s.now % ms != 0 || decide (s.now / ms < s.power.period) then .next s
  else
    let avg := p1.toNat
    let cap := s.stagedFld F.PWR_CAP_CAP_W 0 .power
    let top := s.fTop
    let f := s.fld F.PWR_STATUS_F_PWR 0
    let pct := s.fld F.PWR_STATUS_MEM_PCT 0
    let n := if f = 800 then s.power.floor + 1 else 0
    let (f', pct') := powerNext f pct avg cap top (decide (10 ≤ n))
    let s := { s with power := { s.power with period := s.now / ms + 1, floor := n } }
    let s := (s.setFld F.PWR_STATUS_P_1MS 0 avg).setFld F.PWR_STATUS_P_100MS 0 p100.toNat
    let s := (s.setFld F.PWR_STATUS_F_PWR 0 f').setFld F.PWR_STATUS_MEM_PCT 0 pct'
    let s := s.when (decide (f' < f) && decide (top ≤ f) && decide (f' < top)) fun s =>
      s.raiseLimited 0 sec .device 0x080A 1 0 (2 ^ 48 * f' + cap)
    let s := s.when (decide (pct' < pct)) fun s => s.raise .device 0x080B 2 0 pct'
    let s := if 2600 < avg then s.setCause 4 true else if avg < 2300 then s.setCause 4 false else s
    .next s.showBound

-- # Signals (Table 15-6b, R544)

/-- PMB_ALERT_SAMPLE: every 100 µs PMB_ALERT_N is sampled and the rails are read, each with its voltage in mV, its current in A, its power
in W and whether its regulator warns; a warning stands while the alert is asserted. -/
def execPmbAlertSample (alert : Bool) (rails : List (BitVec 16 × BitVec 16 × BitVec 16 × Bool)) (s : State) : Answer :=
  if s.inReset || s.power.sampled.elim false (fun t => decide (s.now < t + 100000)) then .next s
  else
    let s := { s with power := { s.power with sampled := some s.now } }
    .next ((((rails.take 16).zipIdx).foldl (fun (s : State) x =>
      let s := (s.setFld F.PWR_RAIL_VOUT x.2 x.1.1.toNat).setFld F.PWR_RAIL_IOUT x.2 x.1.2.1.toNat
      (s.setFld F.PWR_RAIL_PIN x.2 x.1.2.2.1.toNat).setFld F.PWR_RAIL_WARN x.2 (b2n (alert && x.1.2.2.2))) s).vrFault)

/-- PWR_BRAKE_ASSERT. The pin keeps its level through a reset; the cause follows it at once. -/
def execPwrBrakeAssert (s : State) : Answer :=
  let s := { s with power := { s.power with brake := true } }
  if s.inReset then .next s else .next (s.setCause 0 true)

/-- PWR_BRAKE_RELEASE. -/
def execPwrBrakeRelease (s : State) : Answer :=
  let s := { s with power := { s.power with brake := false } }
  if s.inReset then .next s else .next (s.setCause 0 false)

/-- VR_HOT_ASSERT. -/
def execVrHotAssert (s : State) : Answer :=
  let s := { s with power := { s.power with vrHot := true } }
  if s.inReset then .next s else .next s.vrFault

/-- VR_HOT_RELEASE. -/
def execVrHotRelease (s : State) : Answer :=
  let s := { s with power := { s.power with vrHot := false } }
  if s.inReset then .next s else .next s.vrFault

end Sys2Proof.Machine
end

