-- ==== Sys2Proof/Machine/Firmware.lean ====
section
/-! DEFINITION. The firmware: versions and telemetry (R522), the driver session and orphan hold (R535 to R538), images and slots (R528,
R529), activation (R530 to R534), diagnostics (R526) and the board management controller (R527). -/

namespace Sys2Proof.Machine

-- # Versions, telemetry, slots

/-- GET_VERSION. -/
def execGetVersion (fn : Fin 64) (s : State) : Answer :=
  .next (s.message fn 0x0001 false 3 none none fun s =>
    s.respond fn St.ok 0 (leBytes 4 Config.romVersion ++ leBytes 1 s.directory.active ++ leBytes 3 0 ++
      s.firmware.running.flatMap fun x => leBytes 8 x.1))

/-- The registers that TELEMETRY returns. -/
def telemetry : List (RegName × Nat) :=
  [(.PWR_STATUS, 0), (.PWR_EMERG, 0)] ++ (List.range 5).map (fun d => (.PWR_DIE_THERM, d)) ++ (List.range 12).map fun st => (.MEM_THERM, st)

/-- TELEMETRY. -/
def execTelemetry (fn : Fin 64) (s : State) : Answer :=
  .next (s.message fn 0x0002 false 3 none none fun s => s.respond fn St.ok 0 (telemetry.flatMap fun r => leBytes 8 (s.reg r.1 r.2).toNat))

/-- FW_QUERY. -/
def execFwQuery (fn : Fin 64) (s : State) : Answer :=
  .next (s.message fn 0x0022 true 3 none none fun s =>
    s.respond fn St.ok 0 ([0, 1].flatMap fun k =>
      leBytes 1 (s.directory.state k) ++ leBytes 3 0 ++ leBytes 8 (bundleVersion (s.slotBytes k)) ++ leBytes 4 (bundleSvn (s.slotBytes k))))

-- # The driver session (R535 to R538)

/-- HIF_STATUS.DRIVER: 0 attached, 1 not attached, 2 orphan hold, 3 after the timeout. -/
def State.driver (s : State) : Nat := s.fld F.HIF_STATUS_DRIVER 0

/-- Change the session. -/
def State.modSession (s : State) (f : Session → Session) : State :=
  { s with firmware := { s.firmware with session := f s.firmware.session } }

/-- A new session opens: a new token that is not zero, the watchdog armed. -/
def State.openSession (s : State) : State :=
  let (t, s) := s.draw (2 ^ 64 - 1)
  (s.modSession fun x => { x with token := some (t + 1), beat := s.now, held := 0 }).setFld F.HIF_STATUS_DRIVER 0 0

/-- Answer DRIVER_ATTACH with the session. -/
def State.attached (s : State) (fn : Nat) : State :=
  s.respond fn St.ok 0 (leBytes 8 (s.firmware.session.token.getD 0) ++ leBytes 4 s.firmware.session.orphan ++ leBytes 4 0)

/-- The shutdown of contexts goes on with the next enabled one (R538); after the last, event 0x0809, and a forced attach opens its session. -/
def State.shutNext : Nat → State → State
  | 0, s => s
  | k + 1, s =>
    match s.firmware.shut with
    | none => s
    | some (n :: rest, done, wait) =>
      if s.ctxOn n then s.startCtxReset n else State.shutNext k { s with firmware := { s.firmware with shut := some (rest, done, wait) } }
    | some ([], done, wait) =>
      let s := { s with firmware := { s.firmware with shut := none } }
      let s := (s.setFld F.HIF_STATUS_DRIVER 0 3).raise .device 0x0809 2 0 done
      s.when wait fun s => s.openSession.attached 0

/-- The session ends as after an orphan timeout: its token first, then every enabled context in ascending number. -/
def State.shutdown (s : State) (wait : Bool) : State :=
  let s := s.modSession fun x => { x with token := none }
  match s.firmware.shut with
  | some (l, done, w) => { s with firmware := { s.firmware with shut := some (l, done, w || wait) } }
  | none =>
    let l := (List.range 256).filter s.ctxOn
    State.shutNext 257 { s with firmware := { s.firmware with shut := some (l, 0, wait) } }

/-- A context's reset has completed: the shutdown that waited for it goes on. -/
def State.shutDone (s : State) (n : Nat) : State :=
  match s.firmware.shut with
  | some (m :: rest, done, wait) =>
    if m = n then State.shutNext 257 { s with firmware := { s.firmware with shut := some (rest, done + 1, wait) } } else s
  | _ => s

/-- DRIVER_ATTACH (Table 15-5). -/
def execDriverAttach (fn : Fin 64) (s : State) : Answer :=
  let force := (s.reqField fn 40 4).testBit 0
  let held := s.driver == 0 || s.driver == 2
  let deny : Option (State → State) := if held && !s.tokenGood fn && !force then some fun s => s.raise .device 0x0810 1 0 s.driver else none
  let bad := if 2 ≤ s.reqField fn 40 1 then some 40 else s.reservedBad fn 41 7
  .next (s.message fn 0x0010 true 3 deny bad fun s =>
    if !held then s.openSession.attached fn
    else if !s.tokenGood fn then s.shutdown true
    else if s.driver = 2 then
      let s := s.raise .device 0x0808 0 0 ((s.now - s.firmware.session.held) / ms)
      ((s.modSession fun x => { x with beat := s.now }).setFld F.HIF_STATUS_DRIVER 0 0).attached fn
    else s.attached fn)

/-- DRIVER_DETACH. -/
def execDriverDetach (fn : Fin 64) (s : State) : Answer :=
  .next (s.message fn 0x0011 true 3 (s.needToken fn) none fun s =>
    ((s.modSession fun x => { x with token := none }).setFld F.HIF_STATUS_DRIVER 0 1).respond fn St.ok 0 [])

/-- SET_ORPHAN. -/
def execSetOrphan (fn : Fin 64) (s : State) : Answer :=
  let n := s.reqField fn 40 4
  let bad := if n < 10 ∨ 86400 < n then some 40 else s.reservedBad fn 44 4
  .next (s.message fn 0x0012 true 3 (s.needToken fn) bad fun s => (s.modSession fun x => { x with orphan := n }).respond fn St.ok 0 [])

/-- A write of HIF_HEARTBEAT: a heartbeat of the physical function, unless it comes after the deadline (R536). -/
def State.writeHeartbeat (s : State) (fn : Nat) : State :=
  s.reaching fn .HIF_HEARTBEAT 0 fun s =>
    if fn = 0 ∧ s.driver = 0 ∧ s.now ≤ s.firmware.session.beat + 2 * sec then s.modSession fun x => { x with beat := s.now } else s

/-- DRIVER_HEARTBEAT. -/
def execDriverHeartbeat (fn : Fin 64) (s : State) : Answer := .next (s.writeHeartbeat fn)

/-- DRIVER_WATCHDOG_EXPIRY: the deadline has passed without a heartbeat; orphan hold begins. -/
def execDriverWatchdogExpiry (s : State) : Answer :=
  let b := s.firmware.session.beat
  if s.driver = 0 ∧ s.firmware.session.token.isSome ∧ b + 2 * sec < s.now then
    let s := (s.modSession fun x => { x with held := s.now }).setFld F.HIF_STATUS_DRIVER 0 2
    .next (s.raise .device 0x0807 2 0 (b / ms))
  else .next s

/-- ORPHAN_TIMEOUT: the hold has lasted ORPHAN_S. -/
def execOrphanTimeout (s : State) : Answer :=
  let x := s.firmware.session
  if s.driver = 2 ∧ x.token.isSome ∧ x.held + sec * x.orphan ≤ s.now then .next (s.shutdown false) else .next s

-- # Staging (R528, R529)

/-- The largest bundle. -/
def bundleMax : Nat := 48 * 1048576

/-- Staging of a length from a host address begins: the slot that is not ACTIVE loses what it held. -/
def State.beginStage (s : State) (addr len : Nat) : State :=
  let k := s.spareSlot
  let s := (s.writeDirectory (s.directory.withState k 1)).setSlot k []
  { s with firmware := { s.firmware with staging := some (k, addr, len) } }

/-- Staging has failed: the slot stays INVALID. -/
def State.stageFails (s : State) (slot why : Nat) : State :=
  { s with firmware := { s.firmware with staging := none } }.raise .device 0x0802 2 slot why

/-- DETAIL0 of event 0x0802 for a bundle that does not verify. -/
def stageReason : BundleFault → Nat
  | .svn => 3
  | .length => 4
  | _ => 2

/-- The bundle is written into its slot and verified. -/
def State.finishStage (s : State) (slot : Nat) (b : List Byte) : State :=
  let s := s.setSlot slot b
  match s.bundleFault b with
  | some (_, f) => s.stageFails slot (stageReason f)
  | none =>
    let s := { s with firmware := { s.firmware with staging := none } }.writeDirectory (s.directory.withState slot 2)
    s.raise .device 0x0801 0 slot (bundleVersion b)

/-- FW_STAGE. -/
def execFwStage (fn : Fin 64) (s : State) : Answer :=
  let len := s.reqField fn 48 4
  let bad := if len = 0 ∨ bundleMax < len then some 48 else s.reservedBad fn 52 4
  .next (s.message fn 0x0020 true 3 (s.needToken fn) bad fun s =>
    if s.firmware.staging.isSome then s.respond fn St.notReady 0 []
    else (s.beginStage (s.reqField fn 40 8) len).respond fn St.ok 0 (leBytes 1 s.spareSlot ++ leBytes 7 0))

/-- FW_STAGE_DONE: the bundle has been read from host memory, or reading it has failed. -/
def execFwStageDone (readOk : Bool) (s : State) : Answer :=
  match s.firmware.staging with
  | none => .next s
  | some (k, a, len) => if readOk then .next (s.finishStage k (memRead s.host a len)) else .next (s.stageFails k 1)

-- # Activation (R530 to R533)

/-- Change the activation. -/
def State.setAct (s : State) (a : Option Activation) : State := { s with firmware := { s.firmware with act := a } }

/-- An activation of a slot is accepted, with MAX_DEFER_S in s and WAIT_MS in ms. -/
def State.beginActivation (s : State) (slot defer wait : Nat) : State :=
  s.setAct (some ⟨slot, sec * defer, ms * wait, s.now, 1, 0, 0, 0, s.directory.active⟩)

/-- A slot may be activated: STAGED or PREVIOUS. -/
def State.activatable (s : State) (slot : Nat) : Bool := decide (slot ≤ 1) && (s.directory.state slot == 2 || s.directory.state slot == 4)

/-- FW_ACTIVATE. -/
def execFwActivate (fn : Fin 64) (s : State) : Answer :=
  let slot := s.reqField fn 40 1
  let defer := s.reqField fn 42 2
  let wait := s.reqField fn 44 4
  let bad :=
    if !s.activatable slot then some 40
    else if s.reqField fn 41 1 ≠ 0 then some 41
    else if wait ≠ 0 ∧ (wait < 100 ∨ 600000 < wait) then some 44 else none
  .next (s.message fn 0x0021 true 6 (s.needToken fn) bad fun s =>
    if s.firmware.act.isSome then s.respond fn St.notReady 0 []
    else (s.beginActivation slot (if defer = 0 then 600 else defer) (if wait = 0 then 10000 else wait)).respond fn St.ok 0 [])

/-- ACTIVATION_CLEAR_WAIT: no cause has been active for 1 s; quiesce begins. -/
def execActivationClearWait (s : State) : Answer :=
  match s.firmware.act with
  | none => .next s
  | some a =>
    let clear := (s.beganAt clearTimer 0).elim true fun t => decide (t + sec ≤ s.now)
    if a.step = 1 ∧ s.causes = 0 ∧ clear then .next { s.setAct (some { a with step := 2, quiesced := s.now }) with quiesce := true } else .next s

/-- No command runs in any context, and no engine pass. -/
def State.quiet (s : State) : Bool := s.engines.isEmpty && s.queues.all fun q => q.2.cmds.all fun x => x.phase != .running

/-- ACTIVATION_QUIESCED: the firmware cores restart from the named slot. -/
def execActivationQuiesced (s : State) : Answer :=
  match s.firmware.act with
  | none => .next s
  | some a => if a.step = 2 ∧ s.quiet then .next (s.setAct (some { a with step := 5, released := s.now })) else .next s

/-- ACTIVATION_QUIESCE_TIMEOUT. -/
def execActivationQuiesceTimeout (s : State) : Answer :=
  match s.firmware.act with
  | none => .next s
  | some a => if a.step = 2 ∧ a.quiesced + a.wait ≤ s.now then .next (s.abandonAct a 2) else .next s

/-- ACTIVATION_DEFER_TIMEOUT: MAX_DEFER_S have passed before the restart. -/
def execActivationDeferTimeout (s : State) : Answer :=
  match s.firmware.act with
  | none => .next s
  | some a => if a.step ≤ 2 ∧ a.accepted + a.maxDefer ≤ s.now then .next (s.abandonAct a 1) else .next s

/-- The directory once a slot has become ACTIVE: the other verified slot is PREVIOUS. -/
def Directory.activated (d : Directory) (slot : Nat) : Directory :=
  let o := 1 - slot
  let d : Directory := { d.withState slot 3 with active := slot }
  if 2 ≤ d.state o then d.withState o 4 else d

/-- ACTIVATION_HEALTH: every core of the verified bundle has reported, at most 1.5 s after the restart began. -/
def execActivationHealth (s : State) : Answer :=
  match s.firmware.act with
  | none => .next s
  | some a =>
    let b := s.slotBytes a.slot
    if a.step = 5 ∧ s.verifies b ∧ s.now ≤ a.released + 3 * sec / 2 then
      let s := ((s.setAct none).writeDirectory (s.directory.activated a.slot)).runBundle b
      let s := (s.raise .device 0x0803 0 a.slot ((s.now - a.accepted) / ms)).resumeDispatch
      match s.raiseFloor b with
      | (s, some d) => .next (s.raise .device 0x0908 1 0 d)
      | (s, none) => .next s
    else .next s

/-- CORE_HEALTH_TIMEOUT: a core has not reported within 1 s of its release; every core restarts from the slot that was ACTIVE. Where that
slot cannot be restarted from, the device declares a device-fatal fault. -/
def execCoreHealthTimeout (core : Fin 4) (s : State) : Answer :=
  match s.firmware.act with
  | none => .next s
  | some a =>
    if a.step = 5 ∧ a.released + sec ≤ s.now then
      let s := (s.setAct none).writeDirectory (s.directory.withState a.slot 1)
      let s := s.raise .device 0x0806 2 a.slot (core + 1)
      if a.before ≤ 1 ∧ s.verifies (s.slotBytes a.before) then .next s.resumeDispatch else .next s.fatal
    else .next s

-- # Diagnostics (R526)

/-- A context is enabled. -/
def State.anyCtxOn (s : State) : Bool := (List.range 256).any s.ctxOn

/-- DIAG_RUN. -/
def execDiagRun (fn : Fin 64) (s : State) : Answer :=
  let test := s.reqField fn 40 4
  let p := s.reqField fn 44 4
  let bad := if test = 0 ∨ 4 < test then some 40 else if (test = 3 ∧ 6 < p) ∨ (test = 4 ∧ 11 < p) then some 44 else none
  .next (s.message fn 0x0030 true 3 (s.needToken fn) bad fun s =>
    if s.firmware.diag.isSome || (decide (3 ≤ test) && s.anyCtxOn) then s.respond fn St.notReady 0 []
    else { s with firmware := { s.firmware with diag := some (test, p) } }.respond fn St.ok 0 [])

/-- DIAG_DONE: 0 for a pass, otherwise the first failing unit's index plus one. -/
def execDiagDone (result : BitVec 32) (s : State) : Answer :=
  match s.firmware.diag with
  | none => .next s
  | some (test, _) => .next ({ s with firmware := { s.firmware with diag := none } }.raise .device 0x080F 0 test result.toNat)

-- # The board management controller (R527)

/-- The device answers the board management controller. -/
def State.bmcServed (s : State) : Bool := !s.inReset && decide (3 ≤ s.stage) && !s.secure.scanned && !s.restarting

/-- What a sensor reads. -/
def State.sensor (s : State) (q : PldmQuery) : List Nat :=
  match q with
  | .base => Config.pldmBase
  | .power => [s.fld F.PWR_STATUS_P_1MS 0]
  | .die d => [s.fld F.PWR_DIE_THERM_TJ_MAX d]
  | .stack st => [s.fld F.MEM_THERM_T_MAX st]
  | .rail k => [s.fld F.PWR_RAIL_VOUT k, s.fld F.PWR_RAIL_IOUT k, s.fld F.PWR_RAIL_PIN k]

/-- PLDM_REQUEST. -/
def execPldmRequest (query : PldmQuery) (s : State) : Answer := if s.bmcServed then .next (s.emit (.pldm (s.sensor query))) else .next s

/-- PLDM_FIRMWARE_UPDATE: the bundle is staged as by FW_STAGE, and from S6 on activated with the default settings. -/
def execPldmFirmwareUpdate (bundle : List Byte) (s : State) : Answer :=
  if !s.bmcServed || s.firmware.staging.isSome || s.firmware.act.isSome || bundle.isEmpty || decide (bundleMax < bundle.length) then .next s
  else
    let k := s.spareSlot
    let s := (s.beginStage 0 bundle.length).finishStage k bundle
    .next (s.when (decide (s.stage = 6) && s.activatable k) fun s => s.beginActivation k 600 10000)

end Sys2Proof.Machine
end

