-- ==== Sys2Proof/Machine/CtxReset.lean ====
section
/-! DEFINITION. The end of a per-context reset and the function level reset (R60, R157, R585, Table 17-8). -/

namespace Sys2Proof.Machine

-- # What belongs to a context

/-- The register has a copy in every context, in a block other than QUE_CTX. -/
def RegName.perContext (r : RegName) : Bool := r.place.count1 == 256 && !r.place.perFn && !r.ofCtxCfg

/-- A register key is that of a copy which belongs to a context or to a queue of its range. -/
def State.keyOfCtx (s : State) (n key : Nat) : Bool :=
  match RegName.all[key / 1048576]? with
  | none => false
  | some r =>
    let i := key % 1048576
    (r.perContext && i / r.place.count2 == n) || (r.ofQueue && s.queueIn n i)

/-- The context's registers in every block go back to their reset values, their staging copies and frozen values with them. -/
def State.clearCtxRegs (s : State) (n : Nat) : State :=
  { s with
    regs := s.regs.filter fun p => !s.keyOfCtx n p.1
    staging := s.staging.filter fun p => !s.keyOfCtx n p.1
    frozen := s.frozen.map fun (e : Nat × NMap Word) => (e.1, e.2.filter fun p => !s.keyOfCtx n p.1) }

/-- Everything else that the context holds goes: its synchronisation objects, its programs, its step, its arenas, its rounds and paths. -/
def State.clearCtxState (s : State) (n : Nat) : State :=
  let s := s.each (s.objs.filter fun p => p.1 / 65536 == n) fun p s => s.unmakeObj p.1 St.ctxReset false
  let s := { s with
    queues := s.queues.filter fun p => !s.queueIn n p.1
    programs := s.programs.filter fun p => p.1 / 2 ^ 32 != n
    colls := s.colls.filter fun x => x.ctx != n
    transfers := s.transfers.filter fun x => x.ctx != n
    arenas := s.arenas.filter fun x => x.ctx != n
    plain := NMap.erase s.plain n
    stored := NMap.erase s.stored n
    steps := NMap.erase s.steps n
    croz := NMap.erase s.croz n
    crozValid := NMap.erase s.crozValid n
    ckptDue := s.ckptDue.filter fun x => x != n
    ckptImages := NMap.erase s.ckptImages n
    nrings := NMap.erase s.nrings n
    cmps := s.cmps.filter fun c => c.ctx != n
    copied := s.copied.filter fun c => c.1 != n
    copying := s.copying.filter fun c => c.1 != n
    rebalances := NMap.erase s.rebalances n
    xch := NMap.erase s.xch n
    paths := s.paths.filter fun p => p.1 / 128 != n
    gates := NMap.erase s.gates n }
  ((s.clearCtxRegs n).showBuf 0).showBuf 1

-- # The reset's order (R585)

/-- Every waiter of the context's objects is released with CTX_RESET (R157, R585). -/
def State.releaseCtx (s : State) (n : Nat) : State :=
  s.each (s.objs.filter fun p => p.1 / 65536 == n) fun p s => s.failAll p.1 p.2 St.ctxReset 0

/-- Every command of the context ends with CTX_RESET, its waiters first. -/
def State.endCtxCmds (s : State) (n : Nat) : State :=
  let s := s.releaseCtx n
  s.each (s.queues.filter fun p => s.queueIn n p.1) fun p s =>
    s.each p.2.cmds fun x s => (s.cleanCmd p.1 x St.ctxReset).finish p.1 x.num St.ctxReset 0 0

/-- Write the records of a queue as far as its free slots reach. -/
def State.flushRecs : Nat → State → Nat → State
  | 0, s, _ => s
  | k + 1, s, q =>
    match (s.queue q).waiting with
    | [] => s
    | r :: _ => if (s.queue q).used < s.cqSize q ∧ s.queueState q ≠ 0 then State.flushRecs k (s.writeRec q r) q else s

/-- Write the records of the context's queues. -/
def State.flushCtx (s : State) (n : Nat) : State :=
  s.each (s.queues.filter fun p => s.queueIn n p.1) fun p s => State.flushRecs p.2.waiting.length s p.1

/-- No record of the context's queues waits any more; a queue in ERROR or disabled writes none. -/
def State.ctxRecorded (s : State) (n : Nat) : Bool :=
  s.queues.all fun p => !s.queueIn n p.1 || p.2.waiting.isEmpty || s.queueState p.1 == 0

/-- CONTEXT_RESET_DONE: the started passes are over; the commands end, their records are written, the context's state is reset, and event
0x0816 follows. A record that finds no free slot keeps the reset waiting. -/
def execContextResetDone (ctx : Fin 256) (s : State) : Answer :=
  match NMap.get? s.resetting ctx with
  | none => .next s
  | some t =>
    if s.engines.any fun e => e.2.ctx == ctx.val then .next s
    else
      let s := (s.endCtxCmds ctx).flushCtx ctx
      if !s.ctxRecorded ctx then .next s
      else
        let s := s.clearCtxState ctx
        let s := { s with resetting := NMap.erase s.resetting ctx }
        let s := s.when ((s.fld F.SEC_FA_STATE_OPEN 0).testBit 0) fun s => s.setFld F.SYN_DBG_STATUS_SCOPE ctx 1
        let fn := s.ctxFn ctx
        .next ((s.raise (.function fn true) 0x0816 0 ctx ((s.now - t) / 1000)).shutDone ctx)

-- # Function level resets

/-- The physical function's HIF, MBX and EXC ring registers take their reset values; its requests and rings begin anew. -/
def State.clearPf (s : State) : State :=
  let s := ([RegName.HIF_BAR4_BASE, .HIF_BLOCKED, .MBX_CTL, .MBX_STATUS, .MBX_IRQ, .EXC_EVQ_BASE, .EXC_EVQ_CFG, .EXC_EVQ_HEAD,
    .EXC_EVQ_STATE]).foldl (fun s r => s.clearReg r 0) s
  { s with serving := NMap.erase s.serving 0, answered := NMap.erase s.answered 0 }.setRing 0 { s.ring 0 with used := 0, seq := 1 }

/-- FUNCTION_LEVEL_RESET: every context of the function, and of the physical function every context there is, begins its reset; the
function's message vectors are masked. -/
def execFunctionLevelReset (fn : Fin 64) (s : State) : Answer :=
  if !s.fnThere fn then .next s
  else
    let s := s.each ((List.range 256).filter fun n => fn.val == 0 || s.ctxFn n == fn) fun n s =>
      if s.ctxResetting n then s else s.startCtxReset n
    let s := { s with unmasked := s.unmasked.filter fun k => k / 2048 != fn.val }
    .next (s.when (fn.val == 0) State.clearPf)

end Sys2Proof.Machine
end

