-- ==== Sys2Proof/Machine/Reset.lean ====
section
/-! DEFINITION. When the device enters a reset and leaves it, by its inputs, and what it samples as it leaves (R494, R570, R571). -/

namespace Sys2Proof.Machine

-- # Leaving a reset (R494, R570)

/-- Sample the straps (R571): PAIR_EN, PAIR_POS, SPARE_EN, BOOT_SRC from bit 0 on. The reserve and the program-visible size follow
SPARE_EN (R319). -/
def State.takeStraps (s : State) : State :=
  let v := s.boot.straps
  let bit (i : Nat) : Nat := b2n (v.testBit i)
  let s := ((s.setFld F.BOOT_STRAPS_PAIR_EN 0 (bit 0)).setFld F.BOOT_STRAPS_PAIR_POS 0 (bit 1)).setFld F.BOOT_STRAPS_SPARE_EN 0 (bit 2)
  let s := ((s.setFld F.BOOT_STRAPS_BOOT_SRC 0 (bit 3)).setFld F.PAIR_CFG_EN 0 (bit 0)).setFld F.PAIR_CFG_POS 0 (bit 1)
  let small := s.fld F.HIF_ID_ORDER 0 == 2
  let size := if v.testBit 2 then (if small then 124 else 186) else (if small then 128 else 192)
  let s := (s.setFld F.MEM_MAP_RESERVE 0 (bit 2)).setFld F.MEM_MAP_V_3G 0 size
  s.each (List.range 12) fun st s => s.setFld F.MEM_SPARE_STATE st (if v.testBit 2 then 0 else 3)

/-- Outside a reset the three EXTEST instructions act as BYPASS (R566). -/
def State.tapAfterReset (s : State) : State :=
  if s.tap.instr = .extest ∨ s.tap.instr = .extestPulse ∨ s.tap.instr = .extestTrain then { s with tap := { s.tap with instr := .bypass } } else s

/-- Leave the reset once no input is asserted and the twin does not hold the device: T0 is now, and bring-up starts at S0 after a cold
reset, at S1 after the others. -/
def State.tryLeave (s : State) : State :=
  if s.inReset ∧ s.resetWanted = 0 then
    let k := s.boot.kind
    let s := if k = 3 then { s with now := 0 } else s
    let s := { s with boot := { s.boot with kind := 0, t0 := s.now } }.tapAfterReset
    let s := (s.setFld F.BOOT_RESET_CAUSE 0 s.boot.cause).setFld F.BOOT_RESET_T0_MS 0 (s.now / ms)
    let s := if k = 3 then (s.takeStraps).setFld F.BOOT_STAGE_T_TIME 0 s.now else s.bumpFld F.BOOT_RESET_WARMS 0 1
    (s.when s.power.brake fun s => s.setCause 0 true).vrFault
  else s

/-- An input has changed: the device enters the reset it calls for, lets the running one grow, or leaves it. -/
def State.inputChanged (s : State) (cause : Nat) : State :=
  let w := s.resetWanted
  if w = 0 then s.tryLeave
  else if s.boot.kind < w then s.enterReset w cause
  else s

end Sys2Proof.Machine
end

