-- ==== Sys2Proof/Machine/Pair.lean ====
section
/-! DEFINITION. The twin pair (R493 to R516): pairing, the heartbeat and a twin's failure, adoption, what comes from the twin, and
reintegration. -/

namespace Sys2Proof.Machine

-- # Pairing (R496, R514)

/-- HELLO: the twin names itself. -/
def execHello (order stepping : BitVec 8) (_serial : BitVec 40) (dev : BitVec 16) (pos : Fin 2) (pst : Fin 5) (s : State) : Answer :=
  .next (s.pairMsg (.hello order.toNat stepping.toNat dev.toNat pos pst))

/-- The kinds of the pair's timers in `State.began`. -/
def beatTimer : Nat := 40
def helloTimer : Nat := 41

/-- HELLO_SEND: every 1 ms until pairing completes. -/
def execHelloSend (s : State) : Answer :=
  let due := (s.beganAt helloTimer 0).elim true fun t => decide (t + ms ≤ s.now)
  if s.pairLive && s.fld F.PAIR_STATE_MIR_RATE 0 != 0 && due && (s.pairState == 0 || (s.pairState == 3 && !s.flag F.PAIR_STATE_DRIVING 0)) then
    .next (s.beginAt helloTimer 0).sayHello
  else .next s

/-- PAIR_TIMEOUT: 60 s of S6 have passed without pairing; the device goes on forming. -/
def execPairTimeout (s : State) : Answer :=
  if s.pairLive && s.pairState == 0 && !s.pair.late && decide (s.fld F.BOOT_STAGE_T_TIME 6 + 60 * sec ≤ s.now) then
    .next ({ s with pair := { s.pair with late := true } }.raise .device 0x0402 2 s.twinId 3)
  else .next s

-- # The heartbeat and a failure (R506, R507, R512)

/-- HEARTBEAT_SEND: every 2 µs. -/
def execHeartbeatSend (s : State) : Answer :=
  let due := (s.beganAt beatTimer 0).elim true fun t => decide (t + 2000 ≤ s.now)
  if s.pairBeats && s.fld F.PAIR_STATE_MIR_RATE 0 != 0 && due then
    let s := (s.beginAt beatTimer 0).postMir (.heartbeat s.pair.beats s.now s.pairState false)
    .next { s with pair := { s.pair with beats := s.pair.beats + 1 } }
  else .next s

/-- The twin has failed: the device asserts PAIR_RST_N; a survivor of a pair adopts, the receiver of a reintegration stays alone, its
sender stands alone again, and no comparison with that twin goes on; what is queued toward the twin is discarded (R507, R512). -/
def State.twinFails (s : State) (why : Nat) : State :=
  let last := s.fld F.PAIR_LAST_HB_TIME 0
  let s := ((s.setFld F.PAIR_STATE_DRIVING 0 1).setFld F.PAIR_FAIL_REASON 0 why).setFld F.PAIR_FAIL_TIME 0 s.now
  let s := s.raise .device 0x0403 2 s.twinId (2 ^ 56 * why + last % 2 ^ 48)
  let s : State := { s with copied := [], copying := [] }
  let s := s.modPort 6 fun x => { x with queue := [], buffer := [], met := none }
  if s.pairState = 2 then { s.setFld F.PAIR_STATE_STATE 0 3 with pair := { s.pair with adoptDue := some s.now } }
  else
    { s.setFld F.PAIR_STATE_STATE 0 (if s.pair.receiver then 1 else 3) with
      cmps := [], pair := { s.pair with receiver := false, copying := false, handback := false } }

/-- HEARTBEAT: the twin lives, or says that it has failed. -/
def execHeartbeat (_seq _time : BitVec 64) (_pst : Fin 5) (fatal : Bool) (s : State) : Answer :=
  if s.pairLive then .next (s.fromTwin.when (fatal && s.pairBeats) fun s => s.twinFails 2) else .next s

/-- TWIN_SILENCE_TIMEOUT: 20 µs have passed since the last message from the twin. -/
def execTwinSilenceTimeout (s : State) : Answer :=
  if s.pairBeats && decide (s.fld F.PAIR_LAST_HB_TIME 0 + 20000 ≤ s.now) then .next (s.twinFails 1) else .next s

-- # Adoption (R489, R508 to R511)

/-- The first block of a comparison that has not been settled. -/
def PairCmp.firstOpen (c : PairCmp) (blocks : Nat) : Option Nat := (List.range blocks).find? fun b => !c.settled.contains b

/-- Rewrite the entries of a context in which the failed device appears; the answer gives how many it adopts. A comparison that was
pending ends with this device's copy, which event 0x040C reports for an adopted shard (R511). -/
def State.adoptShards (s : State) (ctx failed : Nat) : State × Nat :=
  let me := s.deviceId
  let all := s.shards ctx
  let mine := all.filter fun x => x.owner == failed && x.twin == me
  let rest := all.filter fun x => x.owner == me && x.twin == failed
  let s := s.each mine fun x s =>
    let b := (s.cmp? ctx x.num).bind fun c => c.firstOpen x.digestBlocks
    let s := (s.setShardOwner x me 0xFFFF (x.flags ||| 8)).dropCmp ctx x.num
    match b with
    | some b => s.raise (.context ctx) 0x040C 2 x.num b
    | none => s
  let s := s.each rest fun x s => (s.setShardOwner x me 0xFFFF x.flags).dropCmp ctx x.num
  (s.showAdopted ctx, mine.length)

/-- The rounds that are formed and not yet applied are sent again for the failed device's shards in its name (R489). -/
def State.sendInName (s : State) (ctx failed : Nat) : State :=
  let shards := ((s.shards ctx).filter fun x => x.exchanged && s.owns x && x.adopted).map (·.num)
  let formed (q : Round) : Bool := (roundField (s.fld F.XCH_ROUND_LAST_FORMED ctx)).any fun f => decide (q.round ≤ f)
  s.each ((s.xchOf ctx).rounds.filter fun q => q.src == s.deviceId && !q.done && formed q) fun q s =>
    let (s, v) := s.codeFor ctx { q with src := failed, sealedTo := s.otherSites ctx, counts := [] } shards
    let s := s.modXch ctx fun x => { x with rounds := x.rounds ++ [v] }
    let s := s.queueSoreds ctx failed v.round true (s.otherSites ctx) v.out
    s.each (s.otherSites ctx) fun k s => s.queueItem ctx ⟨k, true, .msg 1 failed 0xFFFF v.body, none⟩

/-- Adopt a context in which the failed device appears. -/
def State.adoptCtx (s : State) (failed since ctx : Nat) : State :=
  if (s.shards ctx).any fun x => x.owner == failed || x.twin == failed then
    let (s, n) := s.adoptShards ctx failed
    let s := s.raise (.context ctx) 0x0404 1 failed (2 ^ 32 * n + (s.now - since) / 1000 % 2 ^ 32)
    let drop := match NMap.get? s.steps ctx with
      | some p => p.decision.isNone
      | none => false
    let a := s.stagedFld F.PAIR_CTX_TWIN_REPLICA ctx .base
    let b := s.stagedFld F.PAIR_CTX_REPLICA ctx .base
    let s := (s.post s.siteOthers (.adoption ctx failed s.deviceId a b drop false)).takeAdoption ctx failed s.deviceId a b drop false
    s.sendInName ctx failed
  else s

/-- ADOPTION: the survivor adopts in every context in which the failed twin appears. -/
def execAdoption (s : State) : Answer :=
  match s.pair.adoptDue with
  | none => .next s
  | some t =>
    let s := { s with pair := { s.pair with adoptDue := none } }
    .next (s.each (List.range 256) fun n s => s.adoptCtx s.twinId t n)

/-- ADOPTION_ANNOUNCE: another device's adoption, or handback, takes effect here. -/
def execAdoptionAnnounce (ctx : Fin 256) (failed adopter replica other : BitVec 16) (drop back : Bool) (s : State) : Answer :=
  .next (s.takeAdoption ctx failed.toNat adopter.toNat replica.toNat other.toNat drop back)

-- # What the twin sends (R497, R498, R402, R435, R501 to R504, R514)

/-- GRADIENT. -/
def execGradient (ctx : Fin 256) (shard : BitVec 24) (grad gexp : List Byte) (s : State) : Answer :=
  .next (s.pairMsg (.gradient ctx shard.toNat grad gexp))

/-- DECISION: the decision record and the crozier's values for the mirror's open step. -/
def execDecision (ctx : Fin 256) (step : BitVec 64) (sum norm kappa : BitVec 32) (reason : Fin 4) (k : List (BitVec 32)) (s : State) : Answer :=
  .next (s.pairMsg (.decision ctx step.toNat ⟨sum.toNat, norm.toNat, kappa.toNat, reason, k.map (·.toNat)⟩))

/-- DELTA. -/
def execDelta (ctx : Fin 256) (shard : BitVec 24) (round : BitVec 32) (dlt : List (BitVec 32)) (s : State) : Answer :=
  .next (s.pairMsg (.delta ctx shard.toNat round.toNat (dlt.map (·.toNat))))

/-- DIGEST: digests of a shard's blocks after a pass of a step, with the sender's memory-error marks. -/
def execDigest (ctx : Fin 256) (shard : BitVec 24) (of_ : DigestOf) (first : Nat) (digests : List (BitVec 64)) (marks : List Nat) (s : State) :
    Answer :=
  .next (s.pairMsg (.digest ctx shard.toNat of_.pass of_.step.toNat first (digests.map (·.toNat)) marks))

/-- REPAIR: a block of the winning copy. -/
def execRepair (ctx : Fin 256) (shard : BitVec 24) (block : Nat) (bytes : List Byte) (s : State) : Answer :=
  .next (s.pairMsg (.repair ctx shard.toNat block bytes))

/-- COPY: a digest block of a shard, for the receiver of a reintegration. -/
def execCopy (ctx : Fin 256) (shard : BitVec 24) (block : Nat) (bytes : List Byte) (s : State) : Answer :=
  .next (s.pairMsg (.copy ctx shard.toNat block bytes))

-- # PAIR_CTL (R505, R514, R515)

/-- Release PAIR_RST_N. A device at position 0 that its twin holds is no longer spared the hold (R494). -/
def State.pairRelease (s : State) : State :=
  if s.pairState = 1 ∨ s.pairState = 3 then
    ((s.setFld F.PAIR_STATE_DRIVING 0 0).setFld F.PAIR_STATE_HOLD 0 0).inputChanged 7
  else s

/-- Every shard is copied: the receiver has the last block of each shard that it mirrors, the sender has had each confirmed. -/
def State.allCopied (s : State) : Bool :=
  if s.pair.receiver then
    (List.range 256).all fun n => ((s.shards n).filter s.mirrors).all fun x => s.copied.contains (n, x.num)
  else decide (s.fld F.PAIR_REINT_TOTAL 0 ≤ s.fld F.PAIR_REINT_DONE 0)

/-- Contexts whose steps are all closed. -/
def State.idleCtxs (s : State) : List Nat := (List.range 256).filter fun n => (NMap.get? s.steps n).isNone

/-- Start the copy: each context's shards go at the close of its step, at once where no step is open. -/
def State.pairReintegrate (s : State) : State :=
  if s.pairState = 4 ∧ ¬ s.pair.receiver then
    { s with pair := { s.pair with copying := true } }.each s.idleCtxs fun n s => s.stepBoundary n
  else s

/-- Adopt back at the next step boundary, at once in a context without an open step. -/
def State.pairHandback (s : State) : State :=
  if s.pairState = 4 ∧ s.allCopied then
    let s := { s with pair := { s.pair with handback := true, back := 0 } }
    (s.each s.idleCtxs fun n s => s.stepBoundary n).handbackEnd
  else s

/-- A write of PAIR_CTL. -/
def State.writePairCtl (s : State) (fn : Nat) (h : Half) (v : Word) : State :=
  s.reaching fn .PAIR_CTL 0 fun s =>
    let s := s.when (F.PAIR_CTL_RELEASE.hit h v) State.pairRelease
    let s := s.when (F.PAIR_CTL_REINTEGRATE.hit h v) State.pairReintegrate
    let s := s.when (F.PAIR_CTL_HANDBACK.hit h v) State.pairHandback
    s.when (F.PAIR_CTL_CONTINUE.hit h v) fun s => s.setFld F.PAIR_CTX_STATE_HELD (F.PAIR_CTL_CTX.of (h.part v)) 0

/-- RELEASE. -/
def execRelease (fn : Fin 64) (s : State) : Answer := .next (s.writePairCtl fn .whole (F.PAIR_CTL_RELEASE.put 0#64 1))

/-- REINTEGRATE. -/
def execReintegrate (fn : Fin 64) (s : State) : Answer := .next (s.writePairCtl fn .whole (F.PAIR_CTL_REINTEGRATE.put 0#64 1))

/-- HANDBACK. -/
def execHandback (fn : Fin 64) (s : State) : Answer := .next (s.writePairCtl fn .whole (F.PAIR_CTL_HANDBACK.put 0#64 1))

/-- CONTINUE. -/
def execContinueStep (fn : Fin 64) (ctx : Fin 256) (s : State) : Answer :=
  .next (s.writePairCtl fn .whole (F.PAIR_CTL_CTX.put (F.PAIR_CTL_CONTINUE.put 0#64 1) ctx))

/-- PAIR_HOLD: the twin asserts PAIR_HOLD_N. Position 0 ignores it while it drives its own PAIR_RST_N; otherwise the device is held in
reset (R494, R570). -/
def execPairHold (s : State) : Answer :=
  let s := { s with pair := { s.pair with holdN := true } }
  if s.ignoresHold then .next (s.setFld F.PAIR_STATE_HOLD 0 1)
  else .next (s.inputChanged 7)

/-- PAIR_HOLD_RELEASE: PAIR_HOLD_N is deasserted. -/
def execPairHoldRelease (s : State) : Answer :=
  .next ((({ s with pair := { s.pair with holdN := false } }).setFld F.PAIR_STATE_HOLD 0 0).inputChanged 7)

end Sys2Proof.Machine
end

