-- ==== Sys2Proof/Machine/Fabric.lean ====
section
/-! DEFINITION. The site fabric: the link layer and its replay (R377 to R380), bringing a link up (R381 to R383), the bypasses (R384 to
R386), routing (R387, R388), device time across the site (R390 to R393), and what a stall or a member rewrite does (R395, R405, R406). -/

namespace Sys2Proof.Machine

/-- A sequenced flit is accepted. -/
def Port.accept (x : Port) : Port := { x with expect := (x.expect + 1) % 4096, nakked := false }

/-- Answer a flit that is not accepted with a NAK. -/
def State.sendNak (s : State) (p : Nat) : State := (s.modPort p fun x => { x with nakked := true }).sendIdle p true

-- # Time roles (R390)

/-- Bring the time role and the upstream port up to date; a device in holdover stays there (`held`), unless it is the master itself. -/
def State.showRole (s : State) (held : Bool) : State :=
  let m := s.fld F.FAB_TIME_STATE_MASTER_NOW 0
  let me := s.deviceId
  let role :=
    if m = me then (if me = s.fld F.FAB_TIME_CFG_MASTER 0 then 1 else 2)
    else if (s.route m).isSome && !held then 0 else 3
  let s := s.setFld F.FAB_TIME_STATE_ROLE 0 role
  s.when (role == 0) fun s => s.setFld F.FAB_TIME_STATE_UP_PORT 0 ((s.route m).getD 0)

/-- A link has changed: holdover lasts until a master returns. -/
def State.showTime (s : State) : State := s.showRole (s.fld F.FAB_TIME_STATE_ROLE 0 == 3)

/-- A device is the master from now on. -/
def State.takeMaster (s : State) (m : Nat) : State := (s.setFld F.FAB_TIME_STATE_MASTER_NOW 0 m).showRole false

/-- In holdover, the named master or the backup returns: it is the master again (R390). -/
def State.timeBack (s : State) (seen : Nat → Bool) : State :=
  let back (m : Nat) : State := s.takeMaster m
  let m := s.fld F.FAB_TIME_CFG_MASTER 0
  let b := s.fld F.FAB_TIME_CFG_BACKUP 0
  if s.fld F.FAB_TIME_STATE_ROLE 0 ≠ 3 then s else if seen m then back m else if seen b then back b else s

/-- A write of FAB_TIME_CFG: the master named is the master. -/
def State.writeTimeCfg (s : State) (fn : Nat) (h : Half) (v : Word) : State :=
  s.reaching fn .FAB_TIME_CFG 0 fun s =>
    let s := s.writeReg .FAB_TIME_CFG 0 h v
    s.takeMaster (s.fld F.FAB_TIME_CFG_MASTER 0)

-- # Links go down and train (R379, R381, R383, R386)

/-- A port may train: MIR from S5 on, a torus port from S3 on where its bypass is open. -/
def State.portMay (s : State) (p : Nat) : Bool :=
  !s.inReset && !s.flag F.FAB_PORT_CTL_DISABLE p &&
    (if p = 6 then decide (5 ≤ s.stage) else decide (3 ≤ s.stage) && (s.fld F.FAB_BYP_STATE_OPEN 0).testBit (p / 2))

/-- A link is in a state, with nothing in service; where it does not train, what waits at its port goes another way (R56, R387). -/
def State.portDead (s : State) (p st : Nat) : State :=
  let s := s.when (decide (3 ≤ s.portState p)) fun s => s.modPort p fun x => { x with lostAt := s.now }
  let s := ((s.setFld F.FAB_PORT_STATE_STATE p st).setFld F.FAB_PORT_STATE_RATE p 0).setFld F.FAB_PORT_STATE_LANES p 0
  let s := ((s.setFld F.FAB_PORT_STATE_B p 0).setFld F.FAB_PORT_STATE_HELD_WHY p 0).forgetCame p
  ((s.when (p == 6) fun s => s.setFld F.PAIR_STATE_MIR_RATE 0 0).showTime).when (st != 1) fun s => s.rehome p

/-- A port trains, where it may. -/
def State.train (s : State) (p : Nat) : State :=
  if s.portMay p then (s.portDead p 1).modPort p fun x => { x with tried := s.now } else s.portDead p 0

/-- A link goes DOWN, event 0x0201, and trains again. -/
def State.linkDown (s : State) (p why : Nat) : State :=
  let st := s.portState p
  if st = 5 then s
  else
    let s := s.when (st == 2 || st == 3 || st == 4) fun s => s.raise .device 0x0201 1 p why
    (s.modPort p fun x => { x with tries := 0, far := 0 }).train p

/-- LINK_SILENCE_TIMEOUT: no good flit has come for 2 µs; on a HELD link it says that a bypass along its path has changed (R382, R386; log 104). -/
def execLinkSilenceTimeout (port : Fin 7) (s : State) : Answer :=
  let st := s.portState port
  if (st == 2 || st == 3 || st == 4) && decide ((s.port port).good + 2000 ≤ s.now) then .next (s.linkDown port 2) else .next s

/-- LINK_TRAIN_DONE: the measured loss at 53.125 GHz in 0.1 dB, and whether the link trains at 106.25 Gb/s. Where it does not take the full
rate and cannot train, it goes back to DOWN. A DISCOVER flit of this end that has not been acknowledged is sent again (log 113). -/
def execLinkTrainDone (port : Fin 7) (loss : BitVec 16) (trains : Bool) (s : State) : Answer :=
  if s.portState port ≠ 1 then .next s
  else
    let low := decide (s.stage < 5)
    let full := !low && decide (loss.toNat ≤ s.fld F.FAB_LINK_CFG_FULL_BUDGET 0)
    let s := s.setFld F.FAB_PORT_STATE_LOSS port loss.toNat
    if !full && !trains then .next (s.portDead port 0)
    else
      let lanes := if low then 1 else if port.val = 6 then 16 else 8
      let s := (s.setFld F.FAB_PORT_STATE_STATE port 2).setFld F.FAB_PORT_STATE_RATE port (if full then 2 else 1)
      let s := (s.setFld F.FAB_PORT_STATE_LANES port lanes).modPort port fun x => { x with good := s.now }
      let (dx, dy, dz) := s.torus
      match (s.port port).buffer.find? fun x => x.2.typ == 4 with
      | some x => .next (s.putFlit port x.2 x.1 false)
      | none => .next (s.sendFlit port (Flit.bare 4 s.deviceId (.discover s.deviceId port (dx - 1) (dy - 1) (dz - 1))))

/-- LINK_TRAIN_RETRY: a DOWN link tries again, 100 ms after the last try. -/
def execLinkTrainRetry (port : Fin 7) (s : State) : Answer :=
  if s.portState port = 0 ∧ s.portMay port ∧ (s.port port).tried + 100 * ms ≤ s.now then .next (s.train port) else .next s

/-- A write of FAB_PORT_CTL: DISABLE takes the port out of service or brings it back; RETRAIN takes the link DOWN and trains it. -/
def State.writePortCtl (s : State) (fn p : Nat) (h : Half) (v : Word) : State :=
  s.reaching fn .FAB_PORT_CTL p fun s =>
    let was := s.flag F.FAB_PORT_CTL_DISABLE p
    let s := s.writeReg .FAB_PORT_CTL p h v
    if s.flag F.FAB_PORT_CTL_DISABLE p then (if was then s else s.portDead p 5)
    else if was then (s.portDead p 0).train p
    else s.when (F.FAB_PORT_CTL_RETRAIN.hit h v) fun s => if s.portState p = 0 then s.train p else s.linkDown p 4

/-- RETRAIN. The write leaves DISABLE as it is. -/
def execRetrain (fn : Fin 64) (port : Fin 7) (s : State) : Answer :=
  .next (s.writePortCtl fn port .high (F.FAB_PORT_CTL_RETRAIN.put (F.FAB_PORT_CTL_DISABLE.put 0#64 (s.fld F.FAB_PORT_CTL_DISABLE port)) 1))

/-- PORT_DISABLE: DISABLE is written 1 or 0. -/
def execPortDisable (fn : Fin 64) (port : Fin 7) (on : Bool) (s : State) : Answer :=
  .next (s.writePortCtl fn port .high (F.FAB_PORT_CTL_DISABLE.put 0#64 (b2n on)))

-- # The link layer on reception (R378, R379)

/-- Flits up to LACK are acknowledged. -/
def Port.acked (x : Port) (lack : Nat) : Port :=
  match x.buffer.findIdx? fun b => b.1 == lack with
  | some i => { x with buffer := x.buffer.drop (i + 1), tries := 0 }
  | none => x

/-- A NAK: the flits after LACK are sent again, each as it was; after 16 failed replays of the same flit the link goes DOWN. -/
def State.replayPort (s : State) (p : Nat) : State :=
  let x := s.port p
  let s := s.bumpFld F.FAB_PORT_CNT_REPLAYS p 1
  if x.buffer = [] then s
  else if 16 ≤ x.tries then s.linkDown p 1
  else
    let s := s.modPort p fun x => { x with tries := x.tries + 1 }
    s.each x.buffer fun b s => s.putFlit p b.2 b.1 false

/-- A flit with a good CRC arrives at a link that carries flits: its acknowledgement counts, and room in the replay buffer is used. -/
def State.heard (s : State) (p : Nat) (t : Trailer) : State :=
  let s := s.modPort p fun x => { x.acked t.lack.toNat with good := s.now }
  (if t.nak then s.replayPort p else s).drainPort p

/-- The link carries flits: DISCOVER or UP. -/
def State.portLive (s : State) (p : Nat) : Bool := s.portState p == 2 || s.portState p == 3

/-- A sequenced flit: accepted in order and acknowledged, or discarded; the first that is discarded draws a NAK, and what it asks for ends the
discarding (R378; log 105). One that comes from the twin restarts the silence timer (R506). -/
def State.inOrder (s : State) (p : Nat) (t : Trailer) (f : State → State) : State :=
  if !s.portLive p then s
  else
    let s := s.heard p t
    if t.lseq.toNat = (s.port p).expect then
      let s := (s.modPort p Port.accept).sendIdle p false
      f (s.when (p == 6 && s.pairBeats) State.fromTwin)
    else if (s.port p).nakked then s
    else s.sendNak p

/-- FLIT_IDLE. A HELD link carries no traffic, but its ends see it run. -/
def execFlitIdle (port : Fin 7) (t : Trailer) (s : State) : Answer :=
  if s.portLive port then .next (s.heard port t)
  else if s.portState port = 4 then .next (s.modPort port fun x => { x with good := s.now })
  else .next s

/-- FLIT_LINK: credits of one channel come back. -/
def execFlitLink (port : Fin 7) (t : Trailer) (vc : Fin 4) (n : BitVec 16) (s : State) : Answer :=
  if !s.portLive port then .next s
  else
    let s := s.modPort port fun x => { x with credits := x.credits.zipIdx.map fun c => if c.2 = vc.val then c.1 + n.toNat else c.1 }
    .next (s.heard port t)

/-- FLIT_BAD_CRC: counted, discarded, answered with a NAK. -/
def execFlitBadCrc (port : Fin 7) (s : State) : Answer :=
  if s.portLive port then .next ((s.bumpFld F.FAB_PORT_CNT_CRC_ERR port 1).sendNak port) else .next s

-- # Delivery and forwarding (R380, R387, R388, R397, R405)

/-- A flit of a collective has come: the collective makes progress (R406). -/
def State.progress (s : State) (tag : Nat) : State :=
  { s with colls := s.colls.map fun (x : Coll) => if x.desc.tag = tag then { x with since := s.now, stalled := false } else x }

/-- A flit that is for this device. A DATA flit is held until its collective completes, and its place in this device's buffer until the TAG is
posted, which holds the sender back (R397; log 115); an older attempt's is discarded (R405). What a message says has a command of its own. -/
def State.takeFlit (s : State) (p : Nat) (f : Flit) : State :=
  let came := some (p, f.vc)
  if p = 6 ∨ f.typ ≠ 1 ∨ s.stale f then s.giveBack came
  else
    let posted := s.colls.any fun x => x.desc.tag == f.stream
    let s : State := { s with inbox := s.inbox ++ [(f, if posted then none else came)] }
    (s.progress f.stream).when posted fun s => s.giveBack came

/-- Deliver a flit here, or forward it toward its destination; its place in this device's buffer is given back to the peer when it leaves (R380).
Where the link that it needs is on its way to UP, it waits at that port (R56). -/
def State.passFlit (s : State) (p : Nat) (f : Flit) : State :=
  if f.dst = s.deviceId ∨ p = 6 then s.takeFlit p f else s.sendOn f (some (p, f.vc))

/-- A link has come UP: what waited at its port for a device that the new link has been found to pass over is discarded (R388). -/
def State.dropHidden (s : State) (p : Nat) : State :=
  let gone (q : Flit × Option (Nat × Nat)) : Bool := decide (p < 6) && q.1.dst != s.deviceId &&
    match s.routeVia (q.2.map (·.1)) q.1.src q.1.dst with | .nowhere _ => true | _ => false
  let l := (s.port p).queue.filter gone
  (s.modPort p fun x => { x with queue := x.queue.filter fun q => !gone q }).each l fun q s => (s.unreachable p q.1.dst).giveBack q.2

/-- The flit that a header and a payload spell. -/
def flitOf (h : FlitHead) (typ : Nat) (payload : List Byte) : Flit :=
  ⟨typ, h.dst.toNat, h.src.toNat, h.vc, h.last, h.attempt, h.len, h.stream.toNat, h.index.toNat, .bytes (payload.take 232)⟩

/-- FLIT_DATA. -/
def execFlitData (port : Fin 7) (t : Trailer) (h : FlitHead) (payload : List Byte) (s : State) : Answer :=
  .next (s.inOrder port t fun s => s.passFlit port (flitOf h 1 payload))

/-- FLIT_CTRL. What a CTRL message says has its own commands. -/
def execFlitCtrl (port : Fin 7) (t : Trailer) (h : FlitHead) (payload : List Byte) (s : State) : Answer :=
  .next (s.inOrder port t fun s => s.passFlit port (flitOf h 2 payload))

-- # DISCOVER (R381, R382)

/-- Why a torus link is HELD: 1 wrong port, 2 coordinates, 3 dimensions, 4 b above 2; 0 for a link that may go UP. With it, b. -/
def State.heldWhy (s : State) (p id peer : Nat) (dims : Nat × Nat × Nat) : Nat × Nat :=
  let me := s.deviceId
  let d := p / 2
  let n := s.siteSize d
  let a := siteCoord me d
  let c := siteCoord id d
  let b := if p % 2 = 0 then (c + 2 * n - a - 1) % n else (a + 2 * n - c - 1) % n
  let why :=
    if peer ≠ (if p % 2 = 0 then p + 1 else p - 1) then 1
    else if (List.range 3).any fun k => k != d && siteCoord me k != siteCoord id k then 2
    else if dims ≠ s.torus then 3
    else if 2 < b then 4 else 0
  (why, b)

/-- A link goes UP: event 0x0202; what waits in the replay buffer is sent again, under new numbers where the peer has changed; MIR shows its
rate and says HELLO (R495). -/
def State.linkUp (s : State) (p id b : Nat) (fresh : Bool) : State :=
  let s := ((s.setFld F.FAB_PORT_STATE_STATE p 3).setFld F.FAB_PORT_STATE_B p b).setFld F.FAB_PORT_STATE_PEER p id
  let s := s.bumpFld F.FAB_PORT_STATE_UPS p 1
  let rate := s.fld F.FAB_PORT_STATE_RATE p
  let loss := s.fld F.FAB_PORT_STATE_LOSS p
  let s := (s.raise .device 0x0202 0 p (2 ^ 48 * id + 2 ^ 40 * b + 2 ^ 32 * rate + loss)).showTime
  let old := (s.port p).buffer.filter fun x => x.2.typ != 4
  let (c0, s) := s.draw 4096
  let (c1, s) := s.draw 4096
  let (c2, s) := s.draw 4096
  let (c3, s) := s.draw 4096
  let s := s.modPort p fun x => { x with credits := [c0, c1, c2, c3], time := none, timed := none, nakked := false, upAt := s.now }
  let s :=
    if fresh then s.each (old.map (·.2)) fun f s => s.sendFlit p f
    else s.each (s.port p).buffer fun x s => s.putFlit p x.2 x.1 false
  let s := s.when (p == 6) fun s =>
    let s := (s.setFld F.PAIR_STATE_MIR_RATE 0 rate).when (rate == 1) fun s => s.raise .device 0x040B 1 6 loss
    s.when s.pairLive State.sayHello
  (s.dropHidden p).drainPort p

/-- FLIT_DISCOVER. In DISCOVER the two ends meet: with another peer than before they agree on new numbers; on an UP link the flit counts in
its order only. -/
def execFlitDiscover (port : Fin 7) (t : Trailer) (id : BitVec 16) (peer : Fin 7) (dx dy : BitVec 5) (dz : BitVec 6) (s : State) : Answer :=
  if s.portState port ≠ 2 then .next (s.inOrder port t fun s => s)
  else
    let p := port.val
    let fresh := decide ((s.port p).met ≠ some (id.toNat, peer.val))
    let own := (s.port p).buffer.filter fun x => x.2.typ == 4
    let s := s.modPort p fun x => { x with
      good := s.now, met := some (id.toNat, peer.val)
      expect := if fresh then (t.lseq.toNat + 1) % 4096 else if t.lseq.toNat = x.expect then (x.expect + 1) % 4096 else x.expect }
    let (why, b) := if p = 6 then (0, 0) else s.heldWhy p id.toNat peer (dx.toNat + 1, dy.toNat + 1, dz.toNat + 1)
    if why ≠ 0 then
      let s := ((s.setFld F.FAB_PORT_STATE_STATE p 4).setFld F.FAB_PORT_STATE_HELD_WHY p why).setFld F.FAB_PORT_STATE_PEER p id.toNat
      .next ((s.rehome p).raise .device 0x0203 2 p (2 ^ 48 * id.toNat + why))
    else
      let rest := (s.port p).buffer.filter fun x => x.2.typ != 4
      let s := s.linkUp p id.toNat b fresh
      .next (s.when fresh fun s => s.modPort p fun x => { x with
        buffer := own.drop (own.length - 1) ++ x.buffer.filter fun y => y.2.typ != 4 && !rest.contains y })

-- # The bypasses (R384 to R386)

/-- Release the bypasses of a mask that are closed, while VSB_BYP is present; FAB_ID and FAB_DIMS are fixed from the first release on. -/
def State.releaseBypass (s : State) (mask how : Nat) : State :=
  if !s.boot.vsb then s
  else
    s.each ((List.range 3).filter fun d => mask.testBit d && !(s.fld F.FAB_BYP_STATE_OPEN 0).testBit d) fun d s =>
      let s := (s.setFld F.FAB_BYP_STATE_OPEN 0 (s.fld F.FAB_BYP_STATE_OPEN 0 ||| 2 ^ d)).setFld F.FAB_ID_LOCK 0 1
      let s := s.raise .device 0x0205 0 d how
      (s.train (2 * d)).train (2 * d + 1)

/-- Close the bypasses of a mask that are open: counted, event 0x0204, and the links of the dimension stay DOWN. -/
def State.closeBypass (s : State) (mask why : Nat) : State :=
  s.each ((List.range 3).filter fun d => mask.testBit d && (s.fld F.FAB_BYP_STATE_OPEN 0).testBit d) fun d s =>
    let o := s.fld F.FAB_BYP_STATE_OPEN 0
    let s := (s.setFld F.FAB_BYP_STATE_OPEN 0 (o - (o &&& 2 ^ d))).bumpFld F.FAB_BYP_STATE_CLOSES 0 1
    let s := s.raise .device 0x0204 1 d why
    (s.linkDown (2 * d) 3).linkDown (2 * d + 1) 3

/-- A write of FAB_BYP_CTL. CLOSE wins; a RELEASE counts from S4 on. -/
def State.writeBypCtl (s : State) (fn : Nat) (h : Half) (v : Word) : State :=
  s.reaching fn .FAB_BYP_CTL 0 fun s =>
    let s := s.writeReg .FAB_BYP_CTL 0 h v
    let mask := s.fld F.FAB_BYP_CTL_MASK 0
    if F.FAB_BYP_CTL_CLOSE.hit h v then s.closeBypass mask 3
    else s.when (F.FAB_BYP_CTL_RELEASE.hit h v && decide (4 ≤ s.stage)) fun s => s.releaseBypass mask 2

/-- BYPASS_RELEASE. -/
def execBypassRelease (fn : Fin 64) (mask : BitVec 3) (s : State) : Answer :=
  .next (s.writeBypCtl fn .whole (F.FAB_BYP_CTL_MASK.put (F.FAB_BYP_CTL_RELEASE.put 0#64 1) mask.toNat))

/-- BYPASS_CLOSE. -/
def execBypassClose (fn : Fin 64) (mask : BitVec 3) (s : State) : Answer :=
  .next (s.writeBypCtl fn .whole (F.FAB_BYP_CTL_MASK.put (F.FAB_BYP_CTL_CLOSE.put 0#64 1) mask.toNat))

/-- VSB_BYP_LOSS: every bypass closes. -/
def execVsbBypLoss (s : State) : Answer :=
  let s := { s with boot := { s.boot with vsb := false } }
  .next ((s.setFld F.FAB_BYP_STATE_VSB 0 0).closeBypass 7 2)

/-- VSB_BYP_PRESENT. -/
def execVsbBypPresent (s : State) : Answer :=
  .next ({ s with boot := { s.boot with vsb := true } }.setFld F.FAB_BYP_STATE_VSB 0 1)

-- # Device time (R43, R390 to R393)

/-- The device has not yet reached S6 since its cold reset: a correction may step. -/
def State.maySteps (s : State) : Bool := !s.boot.served && decide (s.stage < 6)

/-- TIME_FLIT_SEND: every 125 µs an UP port sends its own time, with the times of the last TIME flit that came; where none has come, those two
are undefined. -/
def execTimeFlitSend (port : Fin 7) (s : State) : Answer :=
  let x := s.port port
  if s.portState port ≠ 3 ∨ x.timed.elim false (fun t => decide (s.now < t + 125000)) ∨ replayRoom ≤ x.buffer.length then .next s
  else
    let ((t3, t4), s) := match x.time with
      | some t => (t, s)
      | none =>
        let (a, s) := s.draw (2 ^ 64)
        let (b, s) := s.draw (2 ^ 64)
        ((a, b), s)
    let s := s.modPort port fun x => { x with timed := some s.now }
    .next (s.sendFlit port (Flit.bare 3 s.deviceId (.time s.now t3 t4)))

/-- The offset of this device from its peer by one exchange (R391). -/
def timeOffset (t1 t2 t3 t4 : Nat) : Int := ((t2 : Int) - t1 - ((t4 : Int) - t3)) / 2

/-- The kinds of the time timers among the activities: that the one step has been made, that a lost 1PPS has been told. -/
def stepped : Nat := 50
def ppsTold : Nat := 51

/-- Correct device time by so many ns: forward in one step where it may, else by slewing, which replaces what was still to slew (R43). The
frequency correction follows from the error (R392, R393; log 114). -/
def State.correctTime (s : State) (step : Bool) (d : Int) : State :=
  let f := Config.freqOf d
  if step ∧ 0 ≤ d then { s with now := s.now + d.toNat, slew := ⟨0, 0, f⟩ } else { s with slew := ⟨d, s.slew.ticks, f⟩ }

/-- A follower takes an offset from its upstream port: shown; more than 40 ns for ten exchanges running is event 0x0208; the one step forward
comes with the first, and every other correction slews (R392). -/
def State.takeOffset (s : State) (p : Nat) (o : Int) : State :=
  let s := s.setFld F.FAB_TIME_STATE_OFFSET 0 (unsignedOf 32 o)
  let n := if 40 < o.natAbs then (s.port p).far + 1 else 0
  let s := s.modPort p fun x => { x with far := n }
  let s := s.when (n == 10) fun s => s.raise .device 0x0208 2 p (unsignedOf 64 o)
  let first := s.maySteps && (s.beganAt stepped 0).isNone
  (s.when first fun s => s.beginAt stepped 0).correctTime first (-o)

/-- FLIT_TIME. -/
def execFlitTime (port : Fin 7) (t : Trailer) (replayed : Bool) (t1 t3 t4 : BitVec 64) (s : State) : Answer :=
  .next (s.inOrder port t fun s =>
    if replayed then s
    else
      let seen := (s.port port).timed.isSome
      let s := s.modPort port fun x => { x with time := some (t1.toNat, s.now) }
      let s := s.timeBack fun m => s.route m == some port.val
      if seen && s.fld F.FAB_TIME_STATE_ROLE 0 == 0 && s.fld F.FAB_TIME_STATE_UP_PORT 0 == port.val then
        s.takeOffset port (timeOffset t1.toNat s.now t3.toNat t4.toNat)
      else s)

/-- TIME_MASTER_TIMEOUT: no TIME flit has come from the master's side for 1 ms; the backup becomes the master, and with the backup silent too
the device is in holdover. -/
def execTimeMasterTimeout (s : State) : Answer :=
  let m := s.fld F.FAB_TIME_STATE_MASTER_NOW 0
  let up := s.route m
  let silent := match up with
    | none => true
    | some p => decide ((s.port p).time.elim (s.port p).upAt (·.2) + ms ≤ s.now)
  let backup := s.fld F.FAB_TIME_CFG_BACKUP 0
  if s.inReset || decide (s.stage < 3) || m == s.deviceId || !silent then .next s
  else if m ≠ backup then
    .next ((s.takeMaster backup).raise .device 0x0209 1 0 backup)
  else .next (s.setFld F.FAB_TIME_STATE_ROLE 0 3)

/-- The device is the acting master and is disciplined by 1PPS. -/
def State.ppsMaster (s : State) : Bool :=
  (s.fld F.FAB_TIME_STATE_ROLE 0 == 1 || s.fld F.FAB_TIME_STATE_ROLE 0 == 2) && s.flag F.FAB_TIME_CFG_PPS_EN 0

/-- PPS_EDGE: the edge is timestamped; on the master the error against the nearest mark is corrected: a device time behind it steps forward
before S6 is first reached, and slews otherwise (R43, R393). -/
def execPpsEdge (s : State) : Answer :=
  if s.inReset then .next s
  else
    let s := ((s.setFld F.FAB_PPS_TIME_TIME 0 s.now).setFld F.FAB_TIME_STATE_PPS_SEEN 0 1).endOf ppsTold 0
    let d := (s.fld F.FAB_TIME_CFG_PPS_OFFSET 0 + sec - s.now % sec) % sec
    let err : Int := if 2 * d ≤ sec then d else (d : Int) - sec
    if s.ppsMaster then .next (s.correctTime s.maySteps err) else .next s

/-- PPS_TIMEOUT: no edge has come for 2 s; a master reports it once. -/
def execPpsTimeout (s : State) : Answer :=
  if s.inReset || decide (s.now < s.fld F.FAB_PPS_TIME_TIME 0 + 2 * sec) then .next s
  else
    let s := s.setFld F.FAB_TIME_STATE_PPS_SEEN 0 0
    if s.ppsMaster && (s.beganAt ppsTold 0).isNone then
      .next ((s.beginAt ppsTold 0).raise .device 0x020D 1 0 (s.fld F.FAB_PPS_TIME_TIME 0 / ms))
    else .next s

-- # Collectives (R395, R405, R406)

/-- COLL_STALL_TIMEOUT: a collective has made no progress for STALL_MS; it goes on waiting. -/
def execCollStallTimeout (ctx : Fin 256) (tag : BitVec 32) (s : State) : Answer :=
  let late (x : Coll) : Bool := x.ctx == ctx.val && x.desc.tag == tag.toNat && !x.stalled &&
    decide (x.since + ms * s.fld F.FAB_COLL_CFG_STALL_MS 0 ≤ s.now)
  match s.colls.find? late with
  | none => .next s
  | some x =>
    let s := { s with colls := s.colls.map fun (y : Coll) => if y.id = x.id then { y with stalled := true } else y }
    .next (s.raise (.context ctx) 0x020B 2 x.desc.groupNum x.desc.tag)

/-- MEMBER_REWRITE: a rewrite of a rank reaches this device; where it changes the table, the group's collectives restart. -/
def execMemberRewrite (ctx : Fin 256) (group rank dev : BitVec 16) (s : State) : Answer :=
  match s.group? ctx group.toNat with
  | none => .next s
  | some g =>
    if g.size ≤ rank.toNat ∨ g.members.getD rank.toNat 0 = dev.toNat then .next s
    else .next ((s.setMember g rank.toNat dev.toNat).restartColls ctx fun x => x.desc.groupNum == group.toNat)

end Sys2Proof.Machine
end

