-- ==== Sys2Proof/Machine/Security.lean ====
section
/-! DEFINITION. Keys and field access: loading and erasing keys (R555 to R559), IDE (R560), alarms (R564), the SPDM responder (R552 to
R554), field access (R567, R568) and the TAP (R566). -/

namespace Sys2Proof.Machine

-- # The key store (R555)

/-- Change the hidden part of the security block. -/
def State.modSecure (s : State) (f : Secure → Secure) : State := { s with secure := f s.secure }

/-- SEC_SLOT_INFO shows the selected slot. -/
def State.showSlot (s : State) : State :=
  let v := match NMap.get? s.keys (s.fld F.SEC_SLOT_SEL_SLOT 0) with
    | some k => F.SEC_SLOT_INFO_LOAD_SEQ.put (F.SEC_SLOT_INFO_CTX.put (F.SEC_SLOT_INFO_CLASS.put (F.SEC_SLOT_INFO_VALID.put 0#64 1) k.cls) k.ctx) k.seq
    | none => 0#64
  s.setReg .SEC_SLOT_INFO 0 v

/-- A key takes a slot with the next LOAD_SEQ. -/
def State.installKey (s : State) (slot : Nat) (k : KeySlot) : State :=
  let n := s.loadSeq + 1
  let s := { s with loadSeq := n, keys := NMap.set s.keys slot { k with seq := n } }
  (s.setFld F.SEC_KEY_STATUS_LOAD_SEQ 0 (n % 2 ^ 32)).showSlot

/-- A slot becomes empty. -/
def State.emptySlot (s : State) (slot : Nat) : State := { s with keys := NMap.erase s.keys slot }.showSlot

/-- Every secret is erased: the key store, the session keys, a load that waits (R564). -/
def State.eraseSecrets (s : State) : State :=
  let s := { s with keys := [] }.modSecure fun x => { x with keyDue := none, spdm := ⟨0, []⟩ }
  (s.setFld F.SEC_KEY_STATUS_BUSY 0 0).showSlot

-- # Loads (R557, R558)

/-- "CX4W" and the ASCII bytes "CX4KIK". -/
def blobMagic : List Byte := [0x43, 0x58, 0x34, 0x57]
def kikLabel : List Byte := [0x43, 0x58, 0x34, 0x4B, 0x49, 0x4B]

/-- The key that a blob wraps, where its TAG verifies under the key-encryption key (R557). -/
def unwrapKey (blob : List Byte) : Option (List Byte) :=
  let z := Config.importAgree ((blob.drop 16).take 96)
  let kek := (hmac384 z (kikLabel ++ blob.take 16)).take 32
  gcmOpen kek (List.replicate 12 0) (blob.take 112) (blob.drop 112)

/-- CLASS and SLOT go together (Table 16-3). -/
def classOk (cls slot : Nat) : Bool := (cls == 1 || cls == 2) && decide (slot < 4032)

/-- The checks of a load, in order: the key, or the ERR code. -/
def State.checkBlob (s : State) (blob : List Byte) : Except Nat KeySlot :=
  let f (o n : Nat) := leNat ((blob.drop o).take n)
  if blob.take 4 ≠ blobMagic then .error 1
  else if f 8 8 ≠ (s.reg .HIF_SERIAL 0).toNat then .error 2
  else if !classOk (f 6 1) (f 4 2) then .error 3
  else if !onCurve ((blob.drop 16).take 96) then .error 4
  else match unwrapKey blob with
    | none => .error 5
    | some k => .ok ⟨f 6 1, f 7 1, 0, k⟩

/-- A key command has begun: SEC_KEY_STATUS names its slot, and the new contents wait for the units that took the old key (R559). -/
def State.keyWaits (s : State) (slot : Nat) (k : Option KeySlot) : State :=
  let s := ((s.setFld F.SEC_KEY_STATUS_ERR 0 0).setFld F.SEC_KEY_STATUS_SLOT 0 slot).setFld F.SEC_KEY_STATUS_BUSY 0 1
  s.modSecure fun x => { x with keyDue := some (slot, k) }

/-- LOAD. -/
def State.keyLoad (s : State) : State :=
  let s := s.spaceTouch (s.fld F.SEC_KEY_ADDR_SPACE 0) (s.fld F.SEC_KEY_ADDR_ADDR 0 * 64) 160
  let blob := s.spaceRead (s.fld F.SEC_KEY_ADDR_SPACE 0) (s.fld F.SEC_KEY_ADDR_ADDR 0 * 64) 160
  let slot := leNat ((blob.drop 4).take 2)
  match s.checkBlob blob with
  | .error e => ((s.setFld F.SEC_KEY_STATUS_ERR 0 e).setFld F.SEC_KEY_STATUS_SLOT 0 slot).raise .device 0x0904 1 slot e
  | .ok k => s.keyWaits slot (some k)

/-- ERASE. -/
def State.keyErase (s : State) (slot : Nat) : State :=
  if 4032 ≤ slot then (s.setFld F.SEC_KEY_STATUS_ERR 0 6).setFld F.SEC_KEY_STATUS_SLOT 0 slot else s.keyWaits slot none

/-- A write of SEC_KEY_CMD. -/
def State.writeKeyCmd (s : State) (fn : Nat) (h : Half) (v : Word) : State :=
  s.reaching fn .SEC_KEY_CMD 0 fun s =>
    if !F.SEC_KEY_CMD_GO.hit h v || s.flag F.SEC_KEY_STATUS_BUSY 0 then s
    else match F.SEC_KEY_CMD_OP.of (h.part v) with
      | 1 => s.keyLoad
      | 2 => s.keyErase (F.SEC_KEY_CMD_SLOT.of (h.part v))
      | _ => s

/-- The value of SEC_KEY_CMD with GO, an operation and a slot. -/
def keyCmd (op slot : Nat) : Word := F.SEC_KEY_CMD_SLOT.put (F.SEC_KEY_CMD_OP.put (F.SEC_KEY_CMD_GO.put 0#64 1) op) slot

/-- KEY_LOAD. -/
def execKeyLoad (fn : Fin 64) (s : State) : Answer := .next (s.writeKeyCmd fn .whole (keyCmd 1 0))

/-- KEY_ERASE. -/
def execKeyErase (fn : Fin 64) (slot : BitVec 12) (s : State) : Answer := .next (s.writeKeyCmd fn .whole (keyCmd 2 slot.toNat))

/-- KEY_SLOT_UPDATE: every unit that took the old key has completed; the slot takes its new contents. -/
def execKeySlotUpdate (s : State) : Answer :=
  match s.secure.keyDue with
  | none => .next s
  | some (slot, k) =>
    let s := (s.modSecure fun x => { x with keyDue := none }).setFld F.SEC_KEY_STATUS_BUSY 0 0
    match k with
    | none => .next (s.emptySlot slot)
    | some k =>
      let s := s.installKey slot k
      .next (s.raise .device 0x0903 0 slot (2 ^ 56 * k.cls + s.loadSeq % 2 ^ 32))

/-- A write of SEC_SLOT_SEL. -/
def State.writeSlotSel (s : State) (fn : Nat) (h : Half) (v : Word) : State :=
  s.reaching fn .SEC_SLOT_SEL 0 fun s => (s.writeReg .SEC_SLOT_SEL 0 h v).showSlot

-- # Field access (R567, R568)

/-- The seconds that the open scopes have left. -/
def State.remainS (s : State) : Nat := (s.secure.scopes.map fun x => ceilDiv (x.2 - s.now) sec).foldl max 0

/-- SYNC_INTERVENE opens or closes in every context; with it INTERVENE is cleared (R176). -/
def State.setIntervene (s : State) (on : Bool) : State :=
  s.each (List.range 256) fun n s =>
    let s := s.setFld F.SYN_DBG_STATUS_SCOPE n (b2n on)
    s.when (!on) fun s => s.setFld F.SYN_DBG_CTL_INTERVENE n 0

/-- The scopes of a mask that are open close: event 0x0907. -/
def State.closeScopes (s : State) (mask why : Nat) : State :=
  let open' := s.fld F.SEC_FA_STATE_OPEN 0
  let gone := open' &&& mask
  if gone = 0 then s
  else
    let s := s.setFld F.SEC_FA_STATE_OPEN 0 (open' - gone)
    let s := s.modSecure fun x => { x with scopes := x.scopes.filter fun y => !gone.testBit y.1 }
    let s := s.setFld F.SEC_FA_STATE_REMAIN_S 0 s.remainS
    let s := s.when (gone.testBit 0) fun s => s.setIntervene false
    s.raise .device 0x0907 0 0 (2 ^ 48 * gone + why)

/-- The failed responses since cold reset. -/
def State.faFails (s : State) : Nat := s.fld F.SEC_FA_STATE_FAILS 0

/-- A field access is refused: event 0x0906. A failed response counts, and the eighth locks. -/
def State.faRefuse (s : State) (counts : Bool) (why : Nat) : State :=
  let s := s.when counts fun s => s.bumpFld F.SEC_FA_STATE_FAILS 0 1
  let s := s.when (decide (8 ≤ s.faFails)) fun s => s.setFld F.SEC_FA_STATE_LOCKED 0 1
  s.raise .device 0x0906 1 0 (2 ^ 32 * s.faFails + why)

/-- CHALLENGE: a nonce of 48 bytes is drawn, unless eight responses have failed. -/
def State.faChallenge (s : State) : State :=
  if s.flag F.SEC_FA_STATE_LOCKED 0 then s.faRefuse false 4
  else
    let s := s.each (List.range 6) fun i s => let (v, s) := s.draw (2 ^ 64); s.setReg .SEC_FA_NONCE i (BitVec.ofNat 64 v)
    (s.setFld F.SEC_FA_STATE_PENDING 0 1).modSecure fun x => { x with drawn := s.now }

/-- The 80-byte statement (Table 16-7). -/
def State.faStatement (s : State) : List Byte :=
  [0x43, 0x58, 0x34, 0x41] ++ leBytes 2 (s.fld F.SEC_FA_REQ_SCOPES 0) ++ leBytes 2 (s.fld F.SEC_FA_REQ_MINUTES 0) ++
    leBytes 8 (s.reg .HIF_SERIAL 0).toNat ++ leBytes 8 (s.fld F.SEC_STATE_BOOTS 0) ++
    (List.range 6).flatMap (fun i => leBytes 8 (s.reg .SEC_FA_NONCE i).toNat) ++ leBytes 8 0

/-- The signature as written. -/
def State.faSignature (s : State) : List Byte := (List.range 12).flatMap fun i => leBytes 8 (s.reg .SEC_FA_RESP i).toNat

/-- The scopes of a request open. SCAN erases every secret and ends the device's service until cold reset. -/
def State.openScopes (s : State) (mask minutes : Nat) : State :=
  let till := s.now + sec * (minutes * 60)
  let s := s.setFld F.SEC_FA_STATE_OPEN 0 (s.fld F.SEC_FA_STATE_OPEN 0 ||| mask)
  let s := s.modSecure fun x => { x with
    scopes := (maskBits 4 mask).foldl (fun m i => NMap.set m i till) x.scopes
    opened := x.opened ++ [mask] }
  let s := s.setFld F.SEC_FA_STATE_REMAIN_S 0 s.remainS
  let s := s.when (mask.testBit 0) fun s => s.setIntervene true
  let s := s.raise .device 0x0905 1 0 (2 ^ 48 * mask + minutes)
  s.when (mask.testBit 3) fun s => s.eraseSecrets.modSecure fun x => { x with scanned := true }

/-- SUBMIT: one response to one nonce. -/
def State.faSubmit (s : State) : State :=
  let live := s.flag F.SEC_FA_STATE_PENDING 0 && decide (s.now < s.secure.drawn + 60 * sec)
  let key := s.fld F.SEC_FA_REQ_KEY_IDX 0
  let mask := s.fld F.SEC_FA_REQ_SCOPES 0 % 16
  let good := ecdsa384 (Config.faKey key) s.faStatement s.faSignature
  let s := s.setFld F.SEC_FA_STATE_PENDING 0 0
  if !live then s.faRefuse true 2
  else if (s.fld F.SEC_STATE_FA_REVOKED 0).testBit key then s.faRefuse true 3
  else if !good then s.faRefuse true 1
  else if mask.testBit 3 && (List.range 256).any s.ctxOn then s.faRefuse false 5
  else s.openScopes mask (s.fld F.SEC_FA_REQ_MINUTES 0)

/-- What the bits of SEC_FA_CTL do. -/
def State.faCtl (s : State) (h : Half) (v : Word) : State :=
  let s := s.when (F.SEC_FA_CTL_CHALLENGE.hit h v) State.faChallenge
  let s := s.when (F.SEC_FA_CTL_SUBMIT.hit h v) State.faSubmit
  s.when (F.SEC_FA_CTL_CLOSE.hit h v) fun s => s.closeScopes 0xF 2

/-- A write of SEC_FA_CTL. -/
def State.writeFaCtl (s : State) (fn : Nat) (h : Half) (v : Word) : State := s.reaching fn .SEC_FA_CTL 0 fun s => s.faCtl h v

/-- CHALLENGE. -/
def execChallenge (fn : Fin 64) (s : State) : Answer := .next (s.writeFaCtl fn .whole (F.SEC_FA_CTL_CHALLENGE.put 0#64 1))

/-- SUBMIT. -/
def execSubmit (fn : Fin 64) (s : State) : Answer := .next (s.writeFaCtl fn .whole (F.SEC_FA_CTL_SUBMIT.put 0#64 1))

/-- CLOSE. -/
def execClose (fn : Fin 64) (s : State) : Answer := .next (s.writeFaCtl fn .whole (F.SEC_FA_CTL_CLOSE.put 0#64 1))

/-- NONCE_EXPIRY: the nonce is 60 s old. -/
def execNonceExpiry (s : State) : Answer :=
  if s.flag F.SEC_FA_STATE_PENDING 0 && decide (s.secure.drawn + 60 * sec ≤ s.now) then .next (s.setFld F.SEC_FA_STATE_PENDING 0 0) else .next s

/-- SCOPE_EXPIRY: a scope's minutes are over. -/
def execScopeExpiry (scope : Fin 4) (s : State) : Answer :=
  if (NMap.get? s.secure.scopes scope).any fun t => decide (t ≤ s.now) then .next (s.closeScopes (2 ^ scope.val) 1) else .next s

-- # Alarms (R564, R565)

/-- An alarm of some sensors: every secret goes, every scope closes, the cause is kept, and the device fails. -/
def State.alarm (s : State) (mask : Nat) (link : Bool) : State :=
  let s := s.eraseSecrets.closeScopes 0xF 4
  let s := (s.setFld F.SEC_ALARM_CAUSES 0 mask).fatal
  s.when link fun s => s.raise .device 0x0902 3 0 mask

/-- A write of SEC_ALARM: 0 clears CAUSES, and any other value leaves it (DEDUCED, log 108). -/
def State.writeAlarm (s : State) (fn : Nat) (h : Half) (v : Word) : State :=
  s.reaching fn .SEC_ALARM 0 fun s =>
    let new := RegName.SEC_ALARM.written h (s.reg .SEC_ALARM 0) v
    s.setReg .SEC_ALARM 0 (if F.SEC_ALARM_CAUSES.of new = 0 then new else F.SEC_ALARM_CAUSES.put new (s.fld F.SEC_ALARM_CAUSES 0))

/-- SECURITY_ALARM: the sensors that fire, the SRAM errors corrected since the last report, and whether the hub link allows the event. -/
def execSecurityAlarm (mask : BitVec 6) (corrected : BitVec 32) (link : Bool) (s : State) : Answer :=
  let s := s.bumpFld F.SEC_ALARM_CORRECTED 0 corrected.toNat
  .next (s.when (mask != 0#6) fun s => s.alarm mask.toNat link)

-- # The SPDM responder (R552 to R554)

/-- The DOE mailbox answers: from S3 on. -/
def State.spdmOn (s : State) : Bool := !s.inReset && decide (3 ≤ s.stage) && !s.secure.scanned

-- The response codes of DMTF SPDM (log 23).
namespace SpdmCode
def digests : Nat := 0x01
def certificate : Nat := 0x02
def challengeAuth : Nat := 0x03
def version : Nat := 0x04
def measurements : Nat := 0x60
def capabilities : Nat := 0x61
def algorithms : Nat := 0x63
def keyExchangeRsp : Nat := 0x64
def finishRsp : Nat := 0x65
def heartbeatAck : Nat := 0x68
def keyUpdateAck : Nat := 0x69
def endSessionAck : Nat := 0x6C
def error : Nat := 0x7F
end SpdmCode

/-- A response whose content SPDM gives. -/
def State.spdmReply (s : State) (code : Nat) (own : List Byte) : State := s.emit (.spdm code (Config.spdmField code own ++ own))

/-- A request out of order, or one that is not supported. -/
def State.spdmError (s : State) : State := s.emit (.spdm SpdmCode.error (Config.spdmField SpdmCode.error []))

/-- Serve a request that needs the connection to have come so far. -/
def State.spdmServe (s : State) (phase : Nat) (f : State → State) : State :=
  if !s.spdmOn then s else if s.secure.spdm.phase < phase then s.spdmError else f s

/-- Change the responder's state. -/
def State.modSpdm (s : State) (f : Spdm → Spdm) : State := s.modSecure fun x => { x with spdm := f x.spdm }

/-- SPDM_GET_VERSION: the connection begins anew. -/
def execSpdmGetVersion (s : State) : Answer :=
  .next (s.spdmServe 0 fun s => (s.modSpdm fun _ => ⟨1, []⟩).spdmReply SpdmCode.version (leBytes 2 0x1300))

/-- SPDM_GET_CAPABILITIES. -/
def execSpdmGetCapabilities (s : State) : Answer :=
  .next (s.spdmServe 1 fun s => (s.modSpdm fun x => { x with phase := max x.phase 2 }).spdmReply SpdmCode.capabilities [])

/-- SPDM_NEGOTIATE_ALGORITHMS: the requester offers the device's algorithms, or the negotiation fails. -/
def execSpdmNegotiateAlgorithms (offered : Bool) (s : State) : Answer :=
  .next (s.spdmServe 2 fun s =>
    if offered then (s.modSpdm fun x => { x with phase := 3 }).spdmReply SpdmCode.algorithms [] else s.spdmError)

/-- The digest of the running SEC image. -/
def State.secDigest (s : State) : List Byte := (s.firmware.running.head?.map (·.2)).getD []

/-- The certificate chain of a slot. -/
def State.chain (s : State) (slot : Nat) : List Byte := Config.certChain slot s.secDigest

/-- SPDM_GET_DIGESTS: those of slots 0 and 1. -/
def execSpdmGetDigests (s : State) : Answer :=
  .next (s.spdmServe 3 fun s => s.spdmReply SpdmCode.digests (sha384 (s.chain 0) ++ sha384 (s.chain 1)))

/-- SPDM_GET_CERTIFICATE: a part of the chain of slot 0 or 1. -/
def execSpdmGetCertificate (slot : Fin 8) (offset length : BitVec 16) (s : State) : Answer :=
  .next (s.spdmServe 3 fun s =>
    if 2 ≤ slot.val then s.spdmError else s.spdmReply SpdmCode.certificate (((s.chain slot).drop offset.toNat).take length.toNat))

/-- SPDM_CHALLENGE: a signature by the alias key over the requester's nonce and the chain's digest. -/
def execSpdmChallenge (slot : Fin 8) (nonce : List Byte) (s : State) : Answer :=
  .next (s.spdmServe 3 fun s =>
    if 2 ≤ slot.val then s.spdmError
    else s.spdmReply SpdmCode.challengeAuth (Config.aliasSign s.secDigest (sha384 (s.chain slot) ++ nonce)))

/-- What a measurement block digests (Table 16-2). Blocks 2 to 6 are the images' own digests. -/
def State.measurement (s : State) (i : Nat) : List Byte :=
  if 2 ≤ i ∧ i ≤ 6 then ((s.firmware.running[i - 2]?).map (·.2)).getD []
  else sha384 (match i with
    | 1 => leBytes 4 Config.romVersion
    | 7 => leBytes 8 (s.reg .SEC_STATE 0 &&& 0xFFF0000000000000#64).toNat
    | 8 => leBytes 8 s.secure.alarm ++ s.secure.opened.flatMap (leBytes 2)
    | _ => leBytes 1 ((s.reg .BOOT_STRAPS 0).toNat % 8))

/-- SPDM_GET_MEASUREMENTS: one block, all of them (0xFF) or their number (0), signed by the alias key where asked. -/
def execSpdmGetMeasurements (index : BitVec 8) (signed : Bool) (nonce : List Byte) (s : State) : Answer :=
  .next (s.spdmServe 3 fun s =>
    let i := index.toNat
    let block (k : Nat) : List Byte := leBytes 1 k ++ s.measurement k
    let body := if i = 0 then [] else if i = 0xFF then ((List.range 9).map (· + 1)).flatMap block else block i
    if 9 < i ∧ i ≠ 0xFF then s.spdmError
    else s.spdmReply SpdmCode.measurements (leBytes 1 9 ++ body ++ if signed then Config.aliasSign s.secDigest (body ++ nonce) else []))

/-- SPDM_KEY_EXCHANGE: a secure session begins its handshake; at most four are open. -/
def execSpdmKeyExchange (slot : Fin 8) (exchange : List Byte) (s : State) : Answer :=
  .next (s.spdmServe 3 fun s =>
    if 2 ≤ slot.val || decide (4 ≤ s.secure.spdm.sessions.length) then s.spdmError
    else
      let id := (List.range 5).find? fun k => !s.secure.spdm.sessions.any fun x => x.1 == k
      let s := s.modSpdm fun x => { x with sessions := x.sessions ++ [(id.getD 0, false)] }
      s.spdmReply SpdmCode.keyExchangeRsp (leBytes 4 (id.getD 0) ++ exchange))

/-- A session is open, with its handshake complete where `done` asks for it. -/
def State.spdmSession (s : State) (id : Nat) (done : Bool) : Bool := s.secure.spdm.sessions.any fun x => x.1 == id && x.2 == done

/-- SPDM_FINISH: the handshake is complete where the requester's MAC verifies; otherwise the session ends. -/
def execSpdmFinish (session : BitVec 32) (verifies : Bool) (s : State) : Answer :=
  let id := session.toNat
  .next (s.spdmServe 3 fun s =>
    if !s.spdmSession id false then s.spdmError
    else if verifies then
      (s.modSpdm fun x => { x with sessions := x.sessions.map fun y => if y.1 = id then (id, true) else y }).spdmReply SpdmCode.finishRsp []
    else (s.modSpdm fun x => { x with sessions := x.sessions.filter fun y => y.1 != id }).spdmError)

/-- SPDM_KEY_UPDATE. -/
def execSpdmKeyUpdate (session : BitVec 32) (s : State) : Answer :=
  .next (s.spdmServe 3 fun s => if s.spdmSession session.toNat true then s.spdmReply SpdmCode.keyUpdateAck [] else s.spdmError)

/-- SPDM_HEARTBEAT. -/
def execSpdmHeartbeat (session : BitVec 32) (s : State) : Answer :=
  .next (s.spdmServe 3 fun s => if s.spdmSession session.toNat true then s.spdmReply SpdmCode.heartbeatAck [] else s.spdmError)

/-- SPDM_END_SESSION. -/
def execSpdmEndSession (session : BitVec 32) (s : State) : Answer :=
  let id := session.toNat
  .next (s.spdmServe 3 fun s =>
    if s.spdmSession id true then
      (s.modSpdm fun x => { x with sessions := x.sessions.filter fun y => y.1 != id }).spdmReply SpdmCode.endSessionAck []
    else s.spdmError)

-- # IDE (R560)

/-- The slot of a stream's key. -/
def ideSlot (stream : Nat) (tx : Bool) (sub set : Nat) : Nat := 4032 + 12 * stream + 6 * b2n tx + 2 * sub + set

/-- IDE_KM: a key of a stream comes inside a secure session. -/
def execIdeKm (session : BitVec 32) (stream : Fin 4) (tx : Bool) (sub : Fin 3) (set : Fin 2) (key : BitVec 256) (s : State) : Answer :=
  if s.spdmOn && s.spdmSession session.toNat true then
    .next (s.installKey (ideSlot stream tx sub set) ⟨3, 0, 0, leBytes 32 key.toNat⟩)
  else .next s

/-- IDE_TLP_RECEIVE: a TLP whose MAC fails, or whose slot is empty, is discarded, and its stream becomes insecure. What a TLP that verifies
asks for has its own command. -/
def execIdeTlpReceive (stream : Fin 4) (sub : Fin 3) (set : Fin 2) (iv aad sealed : List Byte) (s : State) : Answer :=
  let key := s.keyIn (ideSlot stream false sub set) 3 0
  let good := key.any fun k => (gcmOpen k.key iv aad sealed).isSome
  if good || s.secure.insecure.contains stream.val || s.inReset then .next s
  else .next ((s.modSecure fun x => { x with insecure := stream.val :: x.insecure }).raise .device 0x090A 2 stream sub)

-- # The TAP (R566)

/-- The TAP takes an instruction. -/
def State.tapTo (s : State) (i : TapInstr) : State := { s with tap := { s.tap with instr := i } }

/-- IDCODE: 0xB, the part number, the manufacturer, and the 1 that IEEE 1149.1 puts in bit 0. -/
def execIdcode (s : State) : Answer :=
  .next ((s.tapTo .idcode).emit (.tap (2 ^ 28 * 0xB + 2 ^ 12 * 0xC004 + Config.manufacturer % 2 ^ 11 * 2 + 1)))

/-- BYPASS. -/
def execBypass (s : State) : Answer := .next (s.tapTo .bypass)

/-- SAMPLE_PRELOAD: the boundary cells are preloaded. -/
def execSamplePreload (cells : List Bool) (s : State) : Answer := .next { s with tap := ⟨.sample, cells⟩ }

/-- An instruction that drives the boundary cells while the device is held in reset, and acts as BYPASS otherwise. -/
def State.tapDrive (s : State) (i : TapInstr) : State := s.tapTo (if s.inReset then i else .bypass)

/-- EXTEST. -/
def execExtest (s : State) : Answer := .next (s.tapDrive .extest)

/-- EXTEST_PULSE. -/
def execExtestPulse (s : State) : Answer := .next (s.tapDrive .extestPulse)

/-- EXTEST_TRAIN. -/
def execExtestTrain (s : State) : Answer := .next (s.tapDrive .extestTrain)

/-- SEC_FA: the field-access registers through the TAP, at all times. -/
def execSecFa (reg : FaReg) (value : BitVec 64) (s : State) : Answer :=
  let s := s.tapTo .secFa
  .next (match reg with
    | .req => s.writeReg .SEC_FA_REQ 0 .whole value
    | .ctl => s.faCtl .whole value
    | .resp i => s.setReg .SEC_FA_RESP i value)

end Sys2Proof.Machine
end

