-- ==== Sys2Proof/Machine/Bringup.lean ====
section
/-! DEFINITION. Bring-up (R570 to R583): the reset inputs, the stages and what each does, the halts, recovery from the host, and the loss of
a reference clock (R601, R602). -/

namespace Sys2Proof.Machine

-- # Reset inputs (Table 17-1)

/-- PWR_GOOD_RISE: the straps are sampled; the reset ends where no other input holds it. While PWR_GOOD is high there is no rise, and a change of
a strap is ignored (R571, R607). -/
def execPwrGoodRise (straps : BitVec 4) (s : State) : Answer :=
  if s.boot.pwrLow then .next ({ s with boot := { s.boot with pwrLow := false, straps := straps.toNat } }.inputChanged 1) else .next s

/-- PWR_GOOD_FALL. -/
def execPwrGoodFall (s : State) : Answer := .next ({ s with boot := { s.boot with pwrLow := true } }.inputChanged 1)

/-- COLD_RESET_ASSERT. -/
def execColdResetAssert (s : State) : Answer := .next ({ s with boot := { s.boot with coldN := true } }.inputChanged 2)

/-- WARM_RESET_ASSERT. -/
def execWarmResetAssert (s : State) : Answer := .next ({ s with boot := { s.boot with warmN := true } }.inputChanged 3)

/-- PERST_ASSERT. -/
def execPerstAssert (s : State) : Answer := .next ({ s with boot := { s.boot with perstN := true } }.inputChanged 4)

/-- PCIE_HOT_RESET: a hot reset, or the link is disabled. -/
def execPcieHotReset (s : State) : Answer := .next ({ s with boot := { s.boot with linkOff := true } }.inputChanged 5)

/-- RESET_RELEASE: COLD_RST_N, WARM_RST_N and PERST_N are deasserted and the link is enabled again; PWR_GOOD and PAIR_HOLD_N have commands of
their own. -/
def execResetRelease (s : State) : Answer :=
  .next ({ s with boot := { s.boot with coldN := false, warmN := false, perstN := false, linkOff := false } }.inputChanged 0)

-- # BOOT_CTL (R570, R583)

/-- The device waits at S1 for a recovery bundle. -/
def State.awaitsRecovery (s : State) : Bool :=
  s.stage == 1 && !s.inReset && (s.flag F.BOOT_STRAPS_BOOT_SRC 0 || (s.flag F.BOOT_STAGE_FAULT 0 && s.fld F.BOOT_STAGE_CODE 0 == 1))

/-- The state of a recovery and its reason. -/
def State.setRecov (s : State) (st why : Nat) : State := (s.setFld F.BOOT_RECOV_STATUS_STATE 0 st).setFld F.BOOT_RECOV_STATUS_REASON 0 why

/-- RECOVER: the fetch begins, unless its length is out of range; in any other state it is ignored. -/
def State.recover (s : State) : State :=
  let len := s.fld F.BOOT_RECOV_LEN_LEN 0
  if !s.awaitsRecovery || s.fld F.BOOT_RECOV_STATUS_STATE 0 == 2 then s
  else if len = 0 ∨ bundleMax < len then s.setRecov 4 4
  else (s.setRecov 2 0).setFld F.BOOT_RECOV_STATUS_BYTES 0 0

/-- A write of BOOT_CTL: WARM resets the device at once. -/
def State.writeBootCtl (s : State) (fn : Nat) (h : Half) (v : Word) : State :=
  s.reaching fn .BOOT_CTL 0 fun s =>
    if F.BOOT_CTL_WARM.hit h v then (s.enterReset 1 6).tryLeave else s.when (F.BOOT_CTL_RECOVER.hit h v) State.recover

/-- WARM. -/
def execWarm (fn : Fin 64) (s : State) : Answer := .next (s.writeBootCtl fn .whole (F.BOOT_CTL_WARM.put 0#64 1))

/-- RECOVER. -/
def execRecover (fn : Fin 64) (s : State) : Answer := .next (s.writeBootCtl fn .whole (F.BOOT_CTL_RECOVER.put 0#64 1))

-- # Stages and halts (R577, R578)

/-- The device enters a stage: shown, timed, and from S3 on reported. -/
def State.enterStage (s : State) (k : Nat) : State :=
  let s := ((s.setFld F.BOOT_STAGE_STAGE 0 k).setFld F.HIF_STATUS_STAGE 0 k).setFld F.BOOT_STAGE_T_TIME k s.now
  s.when (decide (3 ≤ k)) fun s => s.raise .device 0x0811 0 k ((s.now - s.boot.t0) / ms)

/-- Bring-up halts. -/
def State.halt (s : State) (code unit : Nat) : State :=
  ((s.setFld F.BOOT_STAGE_FAULT 0 1).setFld F.BOOT_STAGE_CODE 0 code).setFld F.BOOT_STAGE_UNIT 0 unit

/-- Bring-up stands at a stage and has not halted. -/
def State.at_ (s : State) (k : Nat) : Bool := !s.inReset && s.stage == k && !s.flag F.BOOT_STAGE_FAULT 0

/-- An event that waits for the event rings of S3. -/
def State.later (s : State) (code sev source detail : Nat) : State :=
  { s with boot := { s.boot with late := s.boot.late ++ [(code, sev, source, detail)] } }

-- # S1 (R572 to R576)

/-- The boot count rises; where no copy of it is valid the device takes it for saturated (R574, R576). It heads the next XSEQ of each far
port (R463). -/
def State.countBoot (s : State) : State :=
  let (n, why) := match s.bootCount? with
    | some n => (min (n + 1) 0xFFFF, 1)
    | none => (0xFFFF, 2)
  let s := (s.writeBootCount n).setFld F.SEC_STATE_BOOTS 0 n
  let s := s.each [0, 1] fun p s => s.setFld F.FAR_PORT_XSEQ_XSEQ p (2 ^ 48 * n)
  s.when (n == 0xFFFF) fun s => s.later 0x0815 2 0 why

/-- The boot configuration: FAB_ID, FAB_DIMS and BYP_AUTO, or the defaults (R575). -/
def State.takeConfig (s : State) : State :=
  let r := s.record .config
  let f (o n : Nat) : Nat := r.elim 0 fun b => leNat ((b.drop o).take n)
  let s := (s.setFld F.BOOT_CFG_VALID 0 (b2n r.isSome)).setFld F.BOOT_CFG_BYP_AUTO 0 (f 5 1 % 2)
  let s := s.setFld F.FAB_ID_ID 0 (f 0 2)
  let s := ((s.setFld F.FAB_DIMS_DX_M1 0 (f 2 1)).setFld F.FAB_DIMS_DY_M1 0 (f 3 1)).setFld F.FAB_DIMS_DZ_M1 0 (f 4 1)
  (s.when (!r.isSome) fun s => s.later 0x0813 1 0 1).showTime

/-- The ROM starts: it reads SFDP, and where the flash will do the boot count and the boot configuration. -/
def State.romStart (s : State) (cap : Option Nat) : State :=
  let s := s.enterStage 1
  let s := s.setFld F.BOOT_FLASH_CAP_MIB 0 (min (cap.getD 0) 0xFFFF)
  if cap.all fun n => decide (n < 128) then s.halt 2 0
  else
    let s := (s.setFld F.BOOT_FLASH_SFDP_OK 0 1).setFld F.BOOT_FLASH_REPAIR_ENTRIES 0 s.repairs.length
    let s := s.countBoot.takeConfig
    let s := s.modSecure fun x => { x with alarm := (s.reg .SEC_ALARM 0).toNat }
    s.when (s.flag F.BOOT_STRAPS_BOOT_SRC 0) fun s => s.setRecov 1 0

-- # S2 (R549, R550, R576)

/-- DETAIL0 of event 0x0901. -/
def slotReason : BundleFault → Nat
  | .signature => 1
  | .key => 2
  | .digest => 3
  | .svn => 4
  | .format => 5
  | .length => 5

/-- A bundle boots from a slot: it runs, it may raise the floor, and S2 is entered. -/
def State.bootSlot (s : State) (slot : Nat) : State :=
  let b := s.slotBytes slot
  let s := ((s.setFld F.BOOT_FLASH_SLOT 0 slot).runBundle b).enterStage 2
  match s.raiseFloor b with
  | (s, some d) => s.later 0x0908 1 0 d
  | (s, none) => s

/-- The slots in the order in which the ROM tries them: the ACTIVE one first. -/
def State.bootOrder (s : State) : List Nat := if s.directory.active = 1 then [1, 0] else [0, 1]

/-- Where the directory is sound and the bundle of its ACTIVE slot does not verify, event 0x0901 is raised once event rings exist (R550). -/
def State.activeFails (s : State) : State :=
  match s.directory? with
  | some d =>
    if d.active ≤ 1 then
      match s.bundleFault (s.slotBytes d.active) with
      | some (t, f) => s.later 0x0901 2 d.active (t * 256 + slotReason f)
      | none => s
    else s
  | none => s

/-- The ROM boots the first slot whose bundle verifies, or halts and waits for a recovery. -/
def State.bootFirmware (s : State) : State :=
  let s := s.activeFails
  match s.bootOrder.find? fun k => s.verifies (s.slotBytes k) with
  | none => (s.halt 1 0).setRecov 1 0
  | some k =>
    match s.directory? with
    | some _ => s.bootSlot k
    | none =>
      let other := if s.verifies (s.slotBytes (1 - k)) then 2 else 1
      let s := s.writeDirectory (((⟨k, 0, 0⟩ : Directory).withState k 3).withState (1 - k) other)
      (s.later 0x0813 1 0 2).bootSlot k

-- # S3 (R385, R582)

/-- Protonema begins: the events that waited, the automatic release of the bypasses, and the torus ports that may train. -/
def State.protonema (s : State) : State :=
  let s := s.enterStage 3
  let s := s.raise .device 0x0812 1 (s.fld F.BOOT_RESET_CAUSE 0) (s.fld F.SEC_STATE_BOOTS 0)
  let l := s.boot.late
  let s := { s with boot := { s.boot with late := [] } }.each l fun e s => s.raise .device e.1 e.2.1 e.2.2.1 e.2.2.2
  s.when (s.flag F.BOOT_CFG_BYP_AUTO 0) fun s => s.releaseBypass 7 1

-- # S4 (R345, R579)

/-- A stack's spared channel stands wholly in the reserve: SPARED, with W at Q. -/
def State.spared (s : State) (ch trigger : Nat) : State :=
  let st := ch / 32
  let s := (s.setFld F.MEM_SPARE_STATE st 2).setFld F.MEM_SPARE_CHANNEL st (ch % 32)
  let s := (s.setFld F.MEM_SPARE_TRIGGER st trigger).setFld F.MEM_SPARE_WATERMARK st (s.visibleEnd / 98304)
  s.setFld F.MEM_CH_STATE_STATE ch 3

/-- The stack for which the repair record cannot be applied: it lists two of its channels, or one while the reserve is zero. -/
def State.repairFault (s : State) (l : List Repair) : Option Nat :=
  (List.range 12).find? fun st =>
    let n := l.countP fun e => e.kind == 1 && e.channel / 32 == st
    decide (2 ≤ n) || (decide (1 ≤ n) && s.fld F.MEM_SPARE_STATE st == 3)

/-- Apply one entry of the record. -/
def State.applyRepair (s : State) (e : Repair) : State :=
  let spares : Field := if e.pseudo = 0 then F.MEM_CH_STATE_SPARES_PC0 else F.MEM_CH_STATE_SPARES_PC1
  let eras : Field := if e.pseudo = 0 then F.MEM_CH_STATE_ERAS_PC0 else F.MEM_CH_STATE_ERAS_PC1
  match e.kind with
  | 1 => s.spared e.channel e.trigger
  | 2 => s.bumpFld spares e.channel 1
  | 3 => s.bumpFld eras e.channel 1
  | _ => s

/-- A channel cannot be trained: its stack's free reserve takes it, or bring-up halts. -/
def State.untrainable (s : State) (ch : Nat) : State :=
  if s.flag F.BOOT_STAGE_FAULT 0 || decide (2 ≤ s.fld F.MEM_CH_STATE_STATE ch) then s
  else if s.fld F.MEM_SPARE_STATE (ch / 32) = 0 then
    ((s.spared ch 5).noteRetired ch 5).raise .device 0x0814 2 ch (ch / 32)
  else s.halt 4 (ch / 32)

/-- Memory is trained: the repair record is applied after a cold reset, the channels that fail are dealt with, the others are ACTIVE. -/
def State.trainMemory (s : State) (bad : List Nat) : State :=
  match s.record .repair with
  | none => s.halt 5 0xFFFF
  | some b =>
    let l := repairEntries b
    match s.repairFault l with
    | some st => s.halt 5 st
    | none =>
      let due (e : Repair) : Bool := !s.boot.repaired || (e.kind == 1 && s.fld F.MEM_CH_STATE_STATE e.channel == 4)
      let s := { s.each (l.filter due) fun e s => s.applyRepair e with boot := { s.boot with repaired := true } }
      let s := s.each (List.range 384) fun ch s => s.when (s.fld F.MEM_CH_STATE_STATE ch == 1) fun s => s.setFld F.MEM_CH_STATE_STATE ch 0
      let s := s.each bad fun ch s => s.untrainable ch
      if s.flag F.BOOT_STAGE_FAULT 0 then s else s.enterStage 4

-- # S5 and S6

/-- The fabric comes up: every port that may trains all its lanes. -/
def State.fabricUp (s : State) : State :=
  (s.enterStage 5).each (List.range 7) fun p s => if s.portState p = 5 then s else s.train p

/-- A port of S5: MIR, or a torus port whose bypass is open. -/
def State.portOfS5 (s : State) (p : Nat) : Bool := p == 6 || (s.fld F.FAB_BYP_STATE_OPEN 0).testBit (p / 2)

/-- The ports have settled or have been DOWN for 10 s, and device time is aligned or 1 s has passed. -/
def State.settled (s : State) : Bool :=
  let t := s.fld F.BOOT_STAGE_T_TIME 5
  ((List.range 7).all fun p => !s.portOfS5 p || decide (3 ≤ s.portState p) || decide (max t (s.port p).lostAt + 10 * sec ≤ s.now)) &&
    (s.fld F.FAB_TIME_STATE_ROLE 0 != 3 || decide (t + sec ≤ s.now))

/-- Full service begins; a device without a twin stays alone (R493, Table 14-4). -/
def State.fullService (s : State) : State :=
  { s.enterStage 6 with boot := { s.boot with served := true } }.when (!s.flag F.PAIR_CFG_EN 0) fun s => s.setFld F.PAIR_STATE_STATE 0 1

/-- STAGE_REACHED: the next stage's conditions are met. -/
def execStageReached (event : StageEvent) (s : State) : Answer :=
  .next (match event with
    | .s1 flash => if s.at_ 0 then s.romStart (flash.map (·.toNat)) else s
    | .s2 => if s.at_ 1 && !s.flag F.BOOT_STRAPS_BOOT_SRC 0 then s.bootFirmware else s
    | .s3 unhealthy =>
      if !s.at_ 2 then s
      else match unhealthy with
        | some c => s.halt 3 (c + 1)
        | none => s.protonema
    | .s4 untrained => if s.at_ 3 then s.trainMemory (untrained.map (·.val)) else s
    | .s5 => if s.at_ 4 then s.fabricUp else s
    | .s6 => if s.at_ 5 && s.settled then s.fullService else s)

/-- The bound of the stage after this one, in ms from T0 (Table 17-5); none where it has no bound, or waits for a recovery. -/
def State.stageBound (s : State) : Option Nat :=
  if s.boot.recovered then none
  else match s.stage with
    | 0 => some 50
    | 1 => if s.flag F.BOOT_STRAPS_BOOT_SRC 0 then none else some 400
    | 2 => some 1000
    | 3 => some (if s.fld F.BOOT_RESET_WARMS 0 = 0 then 25000 else 2000)
    | _ => none

/-- STAGE_BOUND_TIMEOUT. -/
def execStageBoundTimeout (s : State) : Answer :=
  match s.stageBound with
  | some b => if s.at_ s.stage && decide (s.boot.t0 + ms * b < s.now) then .next (s.halt 7 (s.stage + 1)) else .next s
  | none => .next s

-- # Recovery (R583)

/-- BOOT_RECOV_STATUS.REASON for a bundle that does not verify. -/
def recovReason : BundleFault → Nat
  | .svn => 3
  | .length => 4
  | .format => 5
  | _ => 2

/-- The largest SEC image that recovery takes. -/
def secMax : Nat := 192 * 1024

/-- The length of a bundle's SEC image. -/
def secLength (b : List Byte) : Nat := (bundleBlocks b).head?.elim 0 fun x => blockNat x 12 4

/-- Why a fetched bundle is refused; 0 for none. -/
def State.recovFault (s : State) (b : List Byte) : Nat :=
  match s.bundleFault b with
  | some (_, f) => recovReason f
  | none => if secMax < secLength b then 4 else 0

/-- RECOVERY_FETCH_DONE: the bundle has been fetched, or the read failed after so many bytes. It goes into the slot that is not ACTIVE, and
boots where it verifies. -/
def execRecoveryFetchDone (fault : Option (BitVec 32)) (s : State) : Answer :=
  if s.fld F.BOOT_RECOV_STATUS_STATE 0 ≠ 2 then .next s
  else match fault with
    | some n => .next ((s.setRecov 4 1).setFld F.BOOT_RECOV_STATUS_BYTES 0 n.toNat)
    | none =>
      let len := s.fld F.BOOT_RECOV_LEN_LEN 0
      let b := memRead s.host (4096 * s.fld F.BOOT_RECOV_ADDR_ADDR 0) len
      let k := s.spareSlot
      let s := (s.setSlot k b).setFld F.BOOT_RECOV_STATUS_BYTES 0 len
      let why := s.recovFault b
      if why ≠ 0 then .next ((s.writeDirectory (s.directory.withState k 1)).setRecov 4 why)
      else
        let o := 1 - k
        let d : Directory := { s.directory.withState k 3 with active := k }
        let d := if d.state o = 0 then d else d.withState o (if s.verifies (s.slotBytes o) then 4 else 1)
        let s := (s.writeDirectory d).setRecov 3 0
        let s := ((s.setFld F.BOOT_STAGE_FAULT 0 0).setFld F.BOOT_STAGE_CODE 0 0).setFld F.BOOT_STAGE_UNIT 0 0
        .next ({ s with boot := { s.boot with recovered := true } }.bootSlot k)

-- # Reference clocks (R602)

/-- REFCLK_LOSS: a clock has stopped for more than 1 µs. The loss of the PCIe clock shows in the heartbeats that no longer come. -/
def execRefclkLoss (clock : RefClk) (s : State) : Answer :=
  if s.inReset then .next s
  else .next (match clock with
    | .sds0 => s.each (List.range 7) fun p s => s.linkDown p 2
    | .sds1 => s.each [0, 1] fun p s => (s.setFld F.FAR_PORT_STATE_LF p 1).portDown p 1
    | .pcie => s
    | .hub => s.alarm 2 true)

end Sys2Proof.Machine
end

