-- ==== Sys2Proof/Machine/Commands.lean ====
section
/-! DEFINITION. Host commands (R71 to R73, R81 to R85, R90, Table 2-3): how a fetched command starts, what each opcode does, how it
is ended early, and the end of a launch (R132). -/

namespace Sys2Proof.Machine

-- # The checks at the start (R61, R66, R73, R581)

/-- The operand bits that an opcode takes, by word 3 to 7; none where the opcode is undefined (Table 2-3). The other bits count as
reserved (log 8). -/
def operandBits (op : Nat) : Option (List Nat) :=
  let all := 2 ^ 64 - 1
  match op with
  | 0x00 => some [0, 0, 0, 0, 0]
  | 0x10 => some [all, 2 ^ 33 - 1, all, 2 ^ 32 - 1, 0]
  | 0x11 => some [0xFFFF, 0, 0, 0, 0]
  | 0x20 => some [0xFFFF, all, 2 ^ 32 - 1, all, 0]
  | 0x30 => some [all, all, all, 7, 0]
  | 0x31 => some [all, all, all, 2, 0]
  | 0x40 => some [0xFFFF, all, 0, 0, 0]
  | 0x41 => some [0xFFFF, all, 0, 0, 0]
  | 0x50 => some [0xFFFF, 2 ^ 32 - 1, 0, 0, 0]
  | _ => none

/-- The operand words of an entry. -/
def Sqe.operands (e : Sqe) : List Nat := [e.w3, e.w4, e.w5, e.w6, e.w7]

/-- The word of the first reserved bit that is set, or of an undefined opcode (R73). -/
def Sqe.badWord (e : Sqe) : Option Nat :=
  match operandBits e.opcode with
  | none => some 0
  | some l =>
    if 4 ≤ e.flags ∨ bitsOf e.w0 16 8 ≠ 0 then some 0
    else ((e.operands.zip l).findIdx? fun x => Nat.land x.1 x.2 != x.1).map (· + 3)

/-- The word of the first operand that is out of its range: the handle of a program that the context does not hold, the length of a coding
copy, its destination in a tile store (R66, R73, R363). -/
def State.badOperand (s : State) (n : Nat) (e : Sqe) : Option Nat :=
  let codes := e.opcode == 0x30 && e.w6.testBit 2
  if (e.opcode = 0x11 ∨ e.opcode = 0x20) ∧ (s.program? n e.w3).isNone then some 3
  else if codes ∧ e.w6.testBit 1 ∧ storeBase ≤ e.w4 ∧ e.w4 < storeBase + 512 * 0x400000 then some 4
  else if codes ∧ (e.w5 = 0 ∨ e.w5 % 64 ≠ 0) then some 5
  else none

/-- The earlier of two words, where either is bad. -/
def firstWord : Option Nat → Option Nat → Option Nat
  | none, b => b
  | a, none => a
  | some a, some b => some (min a b)

/-- How a command ends before it begins: its status and DETAIL, and an unbacked address to record. -/
structure Turned where
  status : Nat
  detail : Nat
  addr   : Option Nat
deriving DecidableEq, Repr

/-- The ranges a command names in device memory, each with its operand word (R61): the grants over every range first. -/
def State.rangesTurned (s : State) (n : Nat) (l : List (Nat × Nat × Nat)) : Option Turned :=
  let cs := l.map fun x => (x.2.2, s.checkRange n x.1 x.2.1)
  match cs.find? fun c => c.2 == .noPermission with
  | some c => some ⟨St.noPermission, c.1, none⟩
  | none => cs.findSome? fun c => match c.2 with
      | .unbacked a => some ⟨St.addrFault, a / 65536 % 2 ^ 32, some (a % 2 ^ 48)⟩
      | _ => none

/-- The device ranges that an entry names, by their space bits. -/
def Sqe.deviceRanges (e : Sqe) : List (Nat × Nat × Nat) :=
  let r (space a n w : Nat) : List (Nat × Nat × Nat) := if space = 1 ∧ n ≠ 0 then [(a, n, w)] else []
  match e.opcode with
  | 0x10 => r (bitsOf e.w4 32 1) e.w3 (e.w4 % 2 ^ 32) 3 ++ (if e.w5 = 0 then [] else r (bitsOf e.w4 32 1) e.w5 e.w6 5)
  | 0x20 => r 1 e.w4 e.w5 4
  | 0x30 => r (bitsOf e.w6 0 1) e.w3 e.w5 3 ++ r (bitsOf e.w6 1 1) e.w4 (if e.w6.testBit 2 then streamBound e.w5 else e.w5) 4
  | 0x31 => r (bitsOf e.w6 1 1) e.w3 e.w4 3
  | _ => []

/-- What turns a command away at its start, if anything does: the first word with a reserved bit or an operand out of range, a program that is
not ready, a refused service, then its ranges (R61, R66, R73, R81, R363, R581). -/
def State.turned (s : State) (n : Nat) (e : Sqe) : Option Turned :=
  match firstWord e.badWord (s.badOperand n e) with
  | some w => some ⟨St.badCommand, w, none⟩
  | none =>
    let stage : Turned := ⟨St.refusedService, s.stage, none⟩
    let ranges := s.rangesTurned n e.deviceRanges
    match e.opcode with
    | 0x11 =>
      match s.program? n e.w3 with
      | none => some ⟨St.badCommand, 3, none⟩
      | some p => if p.ready then none else some ⟨St.notReady, 0, none⟩
    | 0x20 =>
      match s.program? n e.w3 with
      | none => some ⟨St.badCommand, 3, none⟩
      | some p =>
        if !p.ready then some ⟨St.notReady, 0, none⟩
        else if (p.isStep || p.usesColl || p.usesMem) && s.stage != 6 then some stage
        else ranges
    | 0x30 => if e.deviceRanges ≠ [] ∧ s.stage < 4 then some stage else ranges
    | 0x31 => if e.deviceRanges ≠ [] ∧ s.stage < 4 then some stage else ranges
    | 0x50 => if s.ctxOf e.w3 = some n then none else some ⟨St.noPermission, 3, none⟩
    | _ => ranges

-- # Starting (R71, R90, R243)

/-- The unit classes that an opcode uses (Table 2-3). -/
def classesOf (op : Nat) : List EpochClass :=
  match op with
  | 0x20 => [.sori, .num, .base, .fabric]
  | 0x30 => [.sori]
  | 0x31 => [.sori]
  | _ => [.host]

/-- The classes that a command uses are behind its MIN_EPOCH (R90). -/
def State.epochWait (s : State) (e : Sqe) : Bool := (classesOf e.opcode).any fun c => decide (s.classEpoch c < e.w1)

/-- The first command of a queue that has not started is to go: it no longer waits at the head, whatever it waited for (R90). -/
def State.leaveHead (s : State) (q c : Nat) : State :=
  let head := (s.queue q).cmds.find? fun y => y.phase == .fetched
  s.when (s.queueState q == 2 && head.map (·.num) == some c) fun s => s.setFld F.QUE_STATE_STATE q 1

/-- A step of a context is open, or a launch of a step program has started and is to open one. -/
def State.stepRuns (s : State) (n : Nat) : Bool := (NMap.get? s.steps n).isSome || s.launches.any fun l => l.ctx == n && l.isStep

/-- A launch of a step program waits for an open step (R243), or for CONTINUE after a divergence, unless it is a replay (R505). -/
def State.stepWait (s : State) (n : Nat) (e : Sqe) : Bool :=
  e.opcode == 0x20 && (match s.program? n e.w3 with
    | some p => p.isStep && (s.stepRuns n || (s.flag F.PAIR_CTX_STATE_HELD n && !s.flag F.EXC_REPLAY_CTL_ARM n))
    | none => false)

/-- Start the first command of a queue that has not started. -/
def State.startCmd (s : State) (q n : Nat) (x : Cmd) : State :=
  let s := s.setFld F.QUE_STATE_STATE q 1
  match s.turned n x.entry with
  | some t =>
    let s := match t.addr with | some a => s.outside 2 (some n) a | none => s
    s.finishFree q x.num t.status t.detail
  | none => s.modCmd q x.num fun x => { x with phase := .running }

/-- COMMAND_START: the first fetched command of a queue starts once its FENCE, MIN_EPOCH and open-step conditions hold; while its
classes are behind MIN_EPOCH the queue shows EPOCH_WAIT (R71, R90, R243). -/
def execCommandStart (q : Fin 65536) (s : State) : Answer :=
  match (s.queue q).cmds.find? fun x => x.phase == .fetched, s.ctxOf q with
  | some x, some n =>
    let first := (s.queue q).cmds.head?.map (·.num)
    if !s.dispatches || !s.queueRuns q || !s.ctxOn n then .next s
    else if x.entry.fence && first != some x.num then .next s
    else if s.epochWait x.entry then .next (s.setFld F.QUE_STATE_STATE q 2)
    else if s.stepWait n x.entry then .next (s.leaveHead q x.num)
    else .next (s.startCmd q n x)
  | _, _ => .next s

-- # Deadlines and abort points (R82 to R85, R364)

/-- Ask a command to end: it never starts, or ends at its next abort point (Table 2-6). An ABORT too ends so where its own deadline passes
(DEDUCED, log 110). -/
def State.askEnd (s : State) (q : Nat) (x : Cmd) (status detail : Nat) : State :=
  match x.phase with
  | .fetched => (s.leaveHead q x.num).finish q x.num status detail 0
  | .running => s.stopCmd q x status

/-- DEADLINE_EXPIRY (R85): a command that waits for MIN_EPOCH ends with EPOCH_WAIT. -/
def execDeadlineExpiry (q : Fin 65536) (c : Nat) (s : State) : Answer :=
  match s.cmd? q c with
  | none => .next s
  | some x =>
    if x.entry.w2 = 0 ∨ s.now ≤ x.entry.w2 then .next s
    else
      let head := (s.queue q).cmds.find? fun y => y.phase == .fetched
      if x.phase = .fetched ∧ s.epochWait x.entry ∧ head.map (·.num) = some c then
        let s := s.leaveHead q c
        .next (s.finishFree q c St.epochWait s.pendingMask)
      else .next (s.askEnd q x St.timeout 0)

/-- The bytes that a host DMA writes at its destination, with their plain number, and the block of a coding one that fails its self-check
(R360, R363, Table 2-3); `faults` are the bits that the codec gets wrong. -/
def State.dmaBytes (s : State) (e : Sqe) (n : Nat) (faults : List (Nat × Nat)) : Coded :=
  if e.opcode = 0x31 then ⟨((List.replicate (n / 8 + 1) (leBytes 8 e.w5)).flatten).take n, n, none⟩
  else
    let src := s.spaceRead (bitsOf e.w6 0 1) e.w3 n
    if e.w6.testBit 2 then codeStream faults (ceilDiv n blockSize) 0 src [] else ⟨src, n, none⟩

/-- Where a host DMA writes: its space and address. -/
def Sqe.dest (e : Sqe) : Nat × Nat := (bitsOf e.w6 1 1, if e.opcode = 0x31 then e.w3 else e.w4)

/-- The length of a host DMA. -/
def Sqe.dmaLen (e : Sqe) : Nat := if e.opcode = 0x31 then e.w4 else e.w5

/-- Move the first bytes of a host DMA; the answer is what has been coded or copied. A write to a guarded working copy makes its shard stale
(R284); a block that fails its self-check counts as an INTEGRITY failure (R371). -/
def State.dmaMove (s : State) (n q : Nat) (e : Sqe) (len : Nat) (faults : List (Nat × Nat)) : State × Coded :=
  let r := s.dmaBytes e len faults
  let (sp, a) := e.dest
  let s := s.spaceWrite sp a r.bytes
  let s := s.when (sp == 1) fun s => s.guardWork a r.bytes.length
  let s := s.when (e.opcode == 0x30 && e.w6.testBit 2) fun s => s.countCmp n r.plain r.bytes.length
  match r.fail with
  | none => (s, r)
  | some (b, k) => (s.integrity n 2 k q b 0, r)

/-- A host DMA may stop after so many bytes: at a 4 KiB boundary of its destination, or at a block boundary where it compresses, or at its end
(R84, R364). -/
def Sqe.stopsAt (e : Sqe) (units : Nat) : Bool :=
  units == e.dmaLen ||
    (decide (units < e.dmaLen) && (if e.opcode == 0x30 && e.w6.testBit 2 then units % 4096 == 0 else (e.dest.2 + units) % 4096 == 0))

/-- DETAIL of a command ended at its abort point (Table 2-5); a compressing copy gives the plain bytes coded whatever ends it early (R364). -/
def stopDetail (status units : Nat) (codes : Bool) : Nat :=
  if status = St.aborted ∨ (status = St.timeout ∧ codes) then units else if status = St.timeout then 1 else 0

/-- The entry is a compressing copy (R363). -/
def Sqe.codes (e : Sqe) : Bool := e.opcode == 0x30 && e.w6.testBit 2

/-- A command waits for one that it has asked to end and that has not ended (R83). -/
def State.waitsStill (s : State) (x : Cmd) : Bool :=
  x.waitsFor.any fun w => (s.cmd? w.1 w.2).isSome || (s.queue w.1).preAbort.contains w.2

/-- ABORT_POINT: a running command that is to end reaches its abort point with so many units of work done (R84, R85). A launch reaches
it outside a collective, its transfers complete, its started updates complete (R84, R289); a command that has not begun has done
nothing, so a copy or fill has moved 0 bytes; an ABORT whose target's record precedes its own waits for it (R83). -/
def execAbortPoint (q : Fin 65536) (c units : Nat) (s : State) : Answer :=
  match s.cmd? q c, s.ctxOf q with
  | some x, some n =>
    match x.stop with
    | none => .next s
    | some st =>
      match s.launch? q c with
      | some l =>
        if s.abortable l && s.updatesDone l then
          let s := s.closeLaunch l st
          .next (s.finishFree q c st (stopDetail st units false))
        else .next s
      | none =>
        if x.entry.opcode = 0x30 ∨ x.entry.opcode = 0x31 then
          if !x.begun then .next (s.finish q c st (stopDetail st 0 x.entry.codes) 0)
          else if x.entry.stopsAt units then
            let (s, r) := s.dmaMove n q x.entry units []
            .next (s.finish q c st (stopDetail st units x.entry.codes) r.bytes.length)
          else .next s
        else if s.waitsStill x then .next s
        else .next ((s.cleanCmd q x st).finishFree q c st (stopDetail st 0 false))
  | _, _ => .next s

-- # The commands (Table 2-3)

/-- NOP. -/
def execNop (q : Fin 65536) (c : Nat) (s : State) : Answer :=
  match s.toBegin q c 0x00 with
  | none => .next s
  | some _ => .next (s.finish q c St.ok 0 0)

/-- The first free place for a program of a context: a handle, or where all 1,023 are taken a place beyond them. -/
def State.freeProgram (s : State) (n : Nat) : Nat :=
  (((List.range (s.programs.length + 1)).map (· + 1)).find? fun h => (NMap.get? s.programs (2 ^ 32 * n + h)).isNone).getD 1024

/-- What the binder makes of an image: the program that its handle will name (R62, R64, R139, R141, R614). -/
def programOf (img key : List Byte) (len : Nat) : Program :=
  { ready := false, crc := Config.boundCrc key, image := img, tiles := needA img 1, heritage := imageNat img 18 2 % 2 == 1
    isStep := (imageStages img).length != 0, stages := (imageStages img).length, usesColl := imageColl img, usesMem := needB img 3 != 0
    bundles := (boundCode key).length / 32, madeIds := [], key := key, imgLen := len
    plans := plansOf key (imageRecords img).1
    entries := (imageStages img).flatMap fun x => [(boundIndex key x.fwd, 0), (boundIndex key x.bwd, 1)]
    need := stageNeed img key }

/-- LOAD_PROGRAM begins: the lowest free handle is taken, and the binding's inputs are read (R62, R64 to R66, log 19). Its parameter block
lies in the image's address space. -/
def execLoadProgram (q : Fin 65536) (c : Nat) (s : State) : Answer :=
  match s.toBegin q c 0x10 with
  | none => .next s
  | some (x, n) =>
    let e := x.entry
    let sp := bitsOf e.w4 32 1
    let len := e.w4 % 2 ^ 32
    let img := s.spaceRead sp e.w3 len
    let params := if e.w5 = 0 then [] else s.spaceRead sp e.w5 e.w6
    let key := s.bindKey n e img params
    let s := ((s.spaceTouch sp e.w3 len).spaceTouch sp e.w5 (if e.w5 = 0 then 0 else e.w6)).begin q c
    let h := s.freeProgram n
    .next ({ s with programs := NMap.set s.programs (2 ^ 32 * n + h) (programOf img key len) }.modCmd q c fun x => { x with value := h })

/-- LOAD_PROGRAM_COMPLETE: the binding ends (R62, R63, R67, R68). A load that found no free handle holds none, and is refused where
nothing else refuses it. -/
def execLoadProgramComplete (q : Fin 65536) (c : Nat) (s : State) : Answer :=
  match s.cmd? q c, s.ctxOf q with
  | some x, some n =>
    let k := 2 ^ 32 * n + x.value
    if x.entry.opcode ≠ 0x10 ∨ !x.goesOn then .next s
    else match NMap.get? s.programs k with
      | none => .next s
      | some p =>
        let gone (s : State) : State := { s with programs := NMap.erase s.programs k }
        match s.bind n p.image p.key p.imgLen (decide (x.value ≤ 1023)) with
        | (.format off, s, _) => .next ((gone s).finishFree q c St.refusedFormat off)
        | (.service, s, _) => .next ((gone s).finishFree q c St.refusedService s.stage)
        | (.fit r kind place need avail, s, _) =>
          .next ((gone s).finish q c St.refusedFit (2 ^ 24 * r + 2 ^ 16 * kind + place) (2 ^ 32 * need + avail))
        | (.ok, s, made) =>
          let s := { s with programs := NMap.set s.programs k { p with ready := true, madeIds := made } }
          let s := s.when (p.isStep && !s.stepRuns n) fun s => s.showStages n p.image p.key
          .next (s.finish q c St.ok 0 (2 ^ 32 * p.crc + x.value))
  | _, _ => .next s

/-- A LAUNCH of a handle of a context has started and has not ended (R65). -/
def State.launching (s : State) (n h : Nat) : Bool :=
  (s.launches.any fun l => l.ctx == n && l.handle == h) ||
    s.queues.any fun u => s.ctxOf u.1 == some n && u.2.cmds.any fun y => y.phase == .running && y.entry.opcode == 0x20 && y.entry.w3 == h

/-- UNLOAD_PROGRAM waits for the handle's launches, then releases the handle and the objects that its load made (R65, R155). -/
def execUnloadProgram (q : Fin 65536) (c : Nat) (s : State) : Answer :=
  match s.toBegin q c 0x11 with
  | none => .next s
  | some (x, n) =>
    let h := x.entry.w3
    if s.launching n h then .next s
    else match s.program? n h with
      | none => .next (s.finishFree q c St.badCommand 3)
      | some p =>
        let s := s.each p.madeIds fun v s => s.unmakeObj (65536 * n + v) St.protocol true
        let s := { s with programs := NMap.erase s.programs (2 ^ 32 * n + h) }
        .next (s.finish q c St.ok 0 0)

/-- The tiles of a context's granted sori, in ascending order. -/
def State.grantedTiles (s : State) (n : Nat) : List Nat :=
  (maskBits 32 (s.fld F.QUE_CTX_SORI_MASK n)).flatMap fun i => (List.range 16).map fun t => 16 * i + t

/-- LAUNCH begins on the first tiles of the granted sori, once they run nothing: each tile's store takes the bound code, and INV of its
sets is clear (R96, R100, R132, R181). A step program's tiles issue once its
step has opened (R242, R285). -/
def execLaunch (q : Fin 65536) (c : Nat) (s : State) : Answer :=
  match s.toBegin q c 0x20 with
  | none => .next s
  | some (x, n) =>
    match s.program? n x.entry.w3 with
    | none => .next (s.finishFree q c St.badCommand 3)
    | some p =>
      let tiles := (s.grantedTiles n).take p.tiles
      if s.launches.any fun l => l.tiles.any fun t => tiles.contains t then .next s
      else
        let seed := s.draws
        let l : Launch := ⟨q, c, n, x.entry.w3, x.entry.w4, x.entry.w5, x.entry.w6, tiles, p.heritage, p.isStep, !p.isStep, false,
          p.bundles, p.crc, s.fld F.NUM_JOB_SEED_SEED n, s.fld F.EXC_NUM_CFG_TRAP n, 0, [], [], none, [], p.key, p.entries, 0, false⟩
        let s := s.begin q c
        let s := { s with launches := s.launches ++ [l], draws := s.draws + p.tiles }
        .next (s.each tiles.zipIdx fun t s =>
          (((s.loadCode t.1 p.key).setInv n t.1 false false).setInv n t.1 true false).setTile t.1
            { Tile.idle with launch := some (q.val, c), core := TileCore.fresh (seed + t.2), since := s.now })

/-- A tile of a launch has nothing left to do: it has ended, or after a fault it stands at a bundle's boundary (R132, R134, R251). -/
def Tile.finished (x : Tile) (failed : Bool) : Bool :=
  x.ended || (failed && (x.stopped || (x.body.isNone && (x.snap.isNone || x.hold.isSome))))

/-- LAUNCH_COMPLETE (R132, R134, R289): every tile has finished, and everything the launch issued has completed. A launch that is to end early
ends at its abort point (R82, R85). -/
def execLaunchComplete (q : Fin 65536) (c : Nat) (s : State) : Answer :=
  match s.launch? q c with
  | none => .next s
  | some l =>
    let failed := l.fault.isSome
    let ready := ((s.cmd? q c).all fun x => x.stop.isNone) && l.opened && l.tiles.all (fun t => (s.tile t).finished failed && (s.tile t).flights.isEmpty)
      && s.launchQuiet l && s.updatesDone l
    if !ready then .next s
    else
      let skip : Bool := match NMap.get? s.steps l.ctx with
        | some p => l.isStep && p.queue == l.queue && p.cmd == l.cmd && p.decision.any fun d => d.reason != 0
        | none => false
      match l.fault with
      | some f =>
        .next ((s.closeLaunch l f.status).finish q c f.status f.detail (2 ^ 48 * f.tile + f.bundle % 2 ^ 32))
      | none =>
        if skip then .next ((s.closeLaunch l St.updateSkipped).finishFree q c St.updateSkipped 0)
        else .next ((s.closeLaunch l St.ok).finish q c St.ok 0 l.result)

/-- DMA_COPY begins (R71). -/
def execDmaCopy (q : Fin 65536) (c : Nat) (s : State) : Answer :=
  match s.toBegin q c 0x30 with
  | none => .next s
  | some _ => .next (s.begin q c)

/-- DMA_FILL begins (R71). -/
def execDmaFill (q : Fin 65536) (c : Nat) (s : State) : Answer :=
  match s.toBegin q c 0x31 with
  | none => .next s
  | some _ => .next (s.begin q c)

/-- What goes wrong in the codewords of device memory that a host DMA reads or writes. -/
def Sqe.met (e : Sqe) (errs : List Mishap) : List Mishap :=
  let src := if e.opcode == 0x30 && e.w6.testBit 0 then [(e.w3, e.w5)] else []
  let dst := if e.dest.1 = 1 then [(e.dest.2, if e.opcode == 0x30 && e.w6.testBit 2 then streamBound e.dmaLen else e.dmaLen)] else []
  errs.filter fun m => (mishapAt m).any fun a => (src ++ dst).any fun r => decide (r.1 < a / 32 * 32 + 32) && decide (a / 32 * 32 < r.1 + r.2)

/-- HOST_DMA_COMPLETE: a host DMA has moved its bytes; one that is to end early ends at its abort point, which its end is too; one that read
poisoned memory ends with MEM_UNCORRECTABLE, one whose block failed its self-check with INTEGRITY (R71, R360, R363, R370, Table 9-5). `e`
names it, with what went wrong on its way (R331, R332, R360). -/
def execHostDmaComplete (q : Fin 65536) (e : DmaEnd) (s : State) : Answer :=
  let (c, errs) := (e.cmd, e.errs)
  match s.cmd? q c, s.ctxOf q with
  | some x, some n =>
    let e := x.entry
    if !((e.opcode == 0x30 || e.opcode == 0x31) && x.goesOn) then .next s
    else
      let fromDevice := e.opcode = 0x30 ∧ e.w6.testBit 0
      let s := s.meets (e.met errs)
      let (s, bad) := if fromDevice then s.readReport 2 (some n) e.w3 e.w5 else (s, none)
      let (s, r) := s.dmaMove n q e e.dmaLen (errs.filterMap mishapBlock)
      match bad, r.fail with
      | some ch, _ => .next (s.finishFree q c St.memUncorrectable ch)
      | none, some (b, _) => .next (s.finishFree q c St.integrity b)
      | none, none => .next (s.finish q c St.ok 0 r.bytes.length)
  | _, _ => .next s

/-- SYNC_SIGNAL: RESULT is the value after this increment (R158); one kept by DBG_HOLD replies when it is applied (R177). -/
def execSyncSignal (q : Fin 65536) (c : Nat) (s : State) : Answer :=
  match s.toBegin q c 0x40 with
  | none => .next s
  | some (x, n) =>
    match s.increment n x.entry.w3 x.entry.w4 ⟨1, q⟩ (.cmd q c) with
    | (s, .applied v) => .next (s.finish q c St.ok 0 v)
    | (s, .kept) => .next (s.begin q c)
    | (_, .stalled) => .next s
    | (s, .failed st d) => .next (s.finishFree q c st d)

/-- SYNC_WAIT: RESULT is the value at which the home die found the condition true (R161). -/
def execSyncWait (q : Fin 65536) (c : Nat) (s : State) : Answer :=
  match s.toBegin q c 0x41 with
  | none => .next s
  | some (x, n) =>
    match s.waitOn n x.entry.w3 x.entry.w4 ⟨1, q⟩ (.cmd q.val c) with
    | (s, .satisfied v) => .next (s.finish q c St.ok 0 v)
    | (s, .held) => .next (s.begin q c)
    | (s, .failed st d) => .next (s.finishFree q c st d)

/-- The entries of a queue that the host has rung and the device has not fetched, in order. -/
def State.unfetched (s : State) (q : Nat) : List Sqe :=
  let head := s.fld F.QUE_STATE_SQ_HEAD q
  let n := consumed (s.sqSize q) head (s.queue q).sqTail
  (List.range n).map fun i =>
    Sqe.ofBytes (s.spaceRead (s.fld F.QUE_SQ_BASE_SPACE q) (4096 * s.fld F.QUE_SQ_BASE_ADDR q + 64 * ((head + i) % s.sqSize q)) 64)

/-- ABORT: its outcome is decided here, by the target's state (R82, R83, Table 2-6). -/
def execAbort (q : Fin 65536) (c : Nat) (s : State) : Answer :=
  match s.toBegin q c 0x50 with
  | none => .next s
  | some (x, _) =>
    let tq := x.entry.w3 % 65536
    let id := x.entry.w4
    let named (y : Cmd) : Bool := y.entry.cmdId == id
    let self (y : Cmd) : Bool := tq == q.val && y.num == c
    match ((s.queue tq).cmds.find? fun y => named y && !self y).or ((s.queue tq).cmds.find? named) with
    | some y =>
      if y.entry.opcode = 0x50 then .next (s.finishFree q c St.badCommand 4)
      else
        let s := s.askEnd tq y St.aborted 0
        if y.phase = .running ∧ tq = q.val then .next ((s.begin q c).modCmd q c fun x => { x with waitsFor := some (tq, y.num) })
        else .next (s.finish q c St.ok 0 0)
    | none =>
      let s := s.spaceTouch (s.fld F.QUE_SQ_BASE_SPACE tq) (4096 * s.fld F.QUE_SQ_BASE_ADDR tq) (64 * s.sqSize tq)
      match (s.unfetched tq).findIdx? fun e => e.cmdId == id with
      | some i =>
        let e := (s.unfetched tq)[i]?
        if e.any fun e => e.opcode == 0x50 then .next (s.finishFree q c St.badCommand 4)
        else
          let num := (s.queue tq).fetched + i
          let s := s.modQueue tq fun u => { u with preAbort := num :: u.preAbort }
          if tq = q.val then .next ((s.begin q c).modCmd q c fun x => { x with waitsFor := some (tq, num) })
          else .next (s.finish q c St.ok 0 0)
      | none => .next (s.finishFree q c St.abortLate (if (s.queue tq).doneIds.contains id then 0 else 1))

end Sys2Proof.Machine
end

