-- ==== Sys2Proof/Machine/MemorySys.lean ====
section
/-! DEFINITION. The stacked memory's own commands: regions (R322), the patrol scrub (R335), calibration and lane repair (R336 to R339),
channel commands (R342), migration (R343), losses (R344), link retries (R46, R346), throttling (R347 to R350) and the rails (R38, R598). -/

namespace Sys2Proof.Machine

/-- Memory is trained and the device is out of reset. -/
def State.memRuns (s : State) : Bool := !s.inReset && decide (4 ≤ s.stage)

-- # Regions (R322)

/-- A write of MEM_REGION_CFG: blocked while a context is enabled, refused where the regions would pass V. -/
def State.writeRegionCfg (s : State) (fn : Nat) (h : Half) (v : Word) : State :=
  s.reaching fn .MEM_REGION_CFG 0 fun s =>
    if (List.range 256).any s.ctxOn then s.blockedReg fn .MEM_REGION_CFG 0
    else
      let new := RegName.MEM_REGION_CFG.written h (s.reg .MEM_REGION_CFG 0) v
      if s.visibleEnd < 4 * (0x30000000 * F.MEM_REGION_CFG_LOCAL_768M.of new) + 0xC0000000 * F.MEM_REGION_CFG_AFF_3G.of new then
        s.setFld F.MEM_REGION_CFG_ERR 0 1
      else (s.setReg .MEM_REGION_CFG 0 new).setFld F.MEM_REGION_CFG_ERR 0 0

/-- REGION_CONFIG. -/
def execRegionConfig (fn : Fin 64) (value : BitVec 64) (s : State) : Answer := .next (s.writeRegionCfg fn .whole value)

-- # Codewords by place (R323, R341)

/-- The nominal key of the slot that lies at a channel's slot: itself, or for a slot of the reserve in use the retired channel's. -/
def State.nominal (s : State) (c t : Nat) : Nat × Nat :=
  let st := c / 32
  let q := s.visibleEnd / 98304
  let kf := s.fld F.MEM_SPARE_CHANNEL st
  let k := c % 32
  if q ≤ t ∧ k ≠ kf ∧ (s.fld F.MEM_SPARE_STATE st = 1 ∨ s.fld F.MEM_SPARE_STATE st = 2) then
    let n := (t - q) * 31 + (if k < kf then k else k - 1)
    if n < s.fld F.MEM_SPARE_WATERMARK st then (32 * st + kf, n) else (c, t)
  else (c, t)

/-- The device address of a nominal slot, where it is program-visible (the reverse of R323). -/
def State.slotAddr (s : State) (c t : Nat) : Option Nat :=
  let l := s.localSize
  let u := s.affineSize
  let o := s.visibleEnd - 4 * l - u
  let place (base n cb q : Nat) : Nat :=
    let f := 0x9E3779B9 * q % 2 ^ 32 / 256 % n
    base + (q * n + (c - cb + n - f) % n) * 256
  if s.visibleEnd / 98304 ≤ t then none
  else if t < o / 98304 then some (place 0 384 0 t)
  else if t < o / 98304 + l / 24576 then
    let d := c / 96
    some (place (o + d * l) 96 (96 * d) (t - o / 98304))
  else
    let st := c / 32
    some (place (o + 4 * l + st * (u / 12)) 32 (32 * st) (t - o / 98304 - l / 24576))

-- # The scrub (R335)

/-- The scrub finds a codeword uncorrectable: poisoned, counted, marked and reported; the agent class of the event and the address of a
codeword of the reserve are given by no rule. -/
def State.scrubBad (s : State) (ch key : Nat) (a : Option Nat) : State :=
  let s := (s.poisonKey key).countUe ch
  let s := if s.memErrs.contains key then s else { s with memErrs := key :: s.memErrs }
  let (agent, s) := s.draw 256
  let (free, s) := s.draw (2 ^ 48)
  s.raise .device 0x0103 2 ch (2 ^ 56 * agent + a.getD free)

/-- A codeword is read outside any agent's access, by the scrub or by a migration: corrected and written back so, or found uncorrectable
(R333, R335, R343). -/
def State.readWord (s : State) (ch key : Nat) (a : Option Nat) : State :=
  let bad (s : State) : State := s.scrubBad ch key a
  if s.poison.contains key then bad s
  else
    match s.fate key with
    | .clean => s
    | .corrected => (s.mend key).countCe ch
    | .bad => bad (s.leaveStored key)
    | .beyond =>
      let (b, s) := s.draw 2
      if b = 0 then bad (s.leaveStored key) else (s.garble key).countCe ch

/-- SCRUB_READ: the scrub reads one codeword of an active channel, in which symbols have gone wrong. -/
def execScrubRead (ch : Fin 384) (slot : BitVec 23) (word : Fin 8) (errs : SymErrs) (s : State) : Answer :=
  let st := s.fld F.MEM_CH_STATE_STATE ch
  let small := s.fld F.HIF_ID_ORDER 0 == 2
  let slots := if small then 4194304 else 6291456
  if !s.memRuns || s.fld F.MEM_SCRUB_CFG_HOURS 0 == 0 || decide (2 ≤ st) || decide (slots ≤ slot.toNat) then .next s
  else
    let (c, t) := s.nominal ch slot.toNat
    let key := (slotsPerChannel * c + t) * 8 + word.val
    .next ((s.spoil key errs).readWord ch key ((s.slotAddr c t).map fun x => x + 32 * word.val))

-- # Calibration (R336 to R339)

/-- No pass of a channel has begun. -/
def CalPass.none : CalPass := ⟨0, 0, .none, false⟩

/-- The calibration of a channel. -/
def State.calPass (s : State) (ch : Nat) : CalPass := NMap.getD s.calPasses ch CalPass.none

/-- MEM_CAL_CFG as a stack's base die has it in force; a value outside its range counts as the nearest in it (log 97). -/
def State.calPeriod (s : State) (st : Nat) : Nat := ms * max 1000 (min 60000 (F.MEM_CAL_CFG_PERIOD_MS.of (s.staged .MEM_CAL_CFG 0 .base st)))
def State.calDelta (s : State) (st : Nat) : Nat := max 1 (min 20 (F.MEM_CAL_CFG_TEMP_DELTA.of (s.staged .MEM_CAL_CFG 0 .base st)))

/-- Device time is in a channel's slot of the calibration period (R337). -/
def State.inCalSlot (s : State) (ch : Nat) : Bool :=
  let p := s.calPeriod (ch / 32)
  decide (ch % 32 * p / 32 ≤ s.now % p) && decide (s.now % p < (ch % 32 + 1) * p / 32)

/-- A pass of a channel has a slice to come: one that runs has had less than 96, or in the channel's slot the period's pass, or an extra one, is
still to begin (R337; DESIGN CHOICE, log 96). -/
def State.passOpen (s : State) (ch : Nat) : Bool :=
  let x := s.calPass ch
  if x.slices != 0 then decide (x.slices < 96)
  else s.inCalSlot ch && (x.period != s.now / s.calPeriod (ch / 32) + 1 || x.extra)

/-- A slice may start on a channel: it is active, a pass of it has a slice to come, 187.5 µs have passed since its last slice began, and no other
channel of its stack is in a slice (R336, R337). -/
def State.sliceOpen (s : State) (ch : Nat) : Bool :=
  s.fld F.MEM_CH_STATE_STATE ch == 0 && s.passOpen ch &&
    (NMap.get? s.slices ch).elim true (fun x => decide (x.2 + 187500 ≤ s.now)) &&
    (List.range 32).all fun k => s.fld F.MEM_CH_STATE_STATE (ch / 32 * 32 + k) != 1

/-- The calibration of a channel with one slice more: the first one begins the period's pass, or else the extra one. -/
def State.withSlice (s : State) (ch : Nat) : CalPass :=
  let x := s.calPass ch
  let p := s.now / s.calPeriod (ch / 32) + 1
  if x.slices != 0 then { x with slices := x.slices + 1 }
  else if x.period != p then { x with period := p, slices := 1 }
  else { x with slices := 1, extra := false }

/-- CAL_SLICE: a slice takes a pseudo-channel out of data service. -/
def execCalSlice (ch : Fin 384) (pc : Fin 2) (s : State) : Answer :=
  if s.memRuns && s.sliceOpen ch then
    .next { s.setFld F.MEM_CH_STATE_STATE ch 1 with
      slices := NMap.set s.slices ch (pc.val, s.now)
      calPasses := NMap.set s.calPasses ch (s.withSlice ch) }
  else .next s

/-- A pin of a pseudo-channel is below its limit: a spare lane, an erasure, a retirement or a loss (R339). -/
def State.weakPin (s : State) (ch pc pin : Nat) : State :=
  let spares : Field := if pc = 0 then F.MEM_CH_STATE_SPARES_PC0 else F.MEM_CH_STATE_SPARES_PC1
  let erasF : Field := if pc = 0 then F.MEM_CH_STATE_ERAS_PC0 else F.MEM_CH_STATE_ERAS_PC1
  let used := s.fld spares ch
  let eras := s.fld erasF ch
  let event (how : Nat) (s : State) : State := s.raise .device 0x0104 1 ch (2 ^ 56 * pc + 2 ^ 48 * pin + 2 ^ 40 * how)
  if s.pinListed ch pc pin || s.fld F.MEM_CH_STATE_STATE ch == 4 then s
  else if used < 2 then
    event 1 ((s.setFld spares ch (used + 1)).addRepair ⟨2, 0, ch, pc, pin, used⟩)
  else if eras < 2 then
    let s := event 2 ((s.setFld erasF ch (eras + 1)).addRepair ⟨3, 0, ch, pc, pin, 0⟩)
    s.when (eras == 1) fun s => s.retireAuto ch 1
  else s.loseChannel ch 2

/-- The worst margin that a pass has found in a channel (R337). -/
def State.noteMargin (s : State) (ch : Nat) (margin : Option (BitVec 8)) : State :=
  margin.elim s fun m => s.setFld F.MEM_CH_STATE_MARGIN ch m.toNat

/-- CAL_SLICE_DONE: a slice ends; the pins it found below their limit, the worst margin, and whether it ends the channel's pass, which its
96th slice does in any case. A channel that has no margin cannot be trained at all, and is lost (R337, R339, R344). -/
def execCalSliceDone (ch : Fin 384) (pins : List (Fin 36)) (margin : Option (BitVec 8)) (last : Bool) (s : State) : Answer :=
  match NMap.get? s.slices ch with
  | none => .next s
  | some (pc, _) =>
    if s.fld F.MEM_CH_STATE_STATE ch ≠ 1 then .next s
    else
      let x := s.calPass ch
      let s := s.setFld F.MEM_CH_STATE_STATE ch 0
      let s := s.when (last || decide (96 ≤ x.slices)) fun s =>
        let s := { s with calPasses := NMap.set s.calPasses ch { x with slices := 0, temp := some (s.fld F.MEM_THERM_T_MAX (ch / 32)) } }
        (s.noteMargin ch margin).setFld F.MEM_CH_STATE_LAST_CAL ch (s.now / ms)
      let s := s.each pins fun p s => s.weakPin ch pc p
      .next (s.when (margin.isNone && s.fld F.MEM_CH_STATE_STATE ch != 4) fun s => s.loseChannel ch 1)

/-- A stack's hottest sensor differs from its value at a channel's last pass: the channel is due an extra pass (R337). -/
def State.extraPasses (s : State) (st t : Nat) : State :=
  { s with calPasses := s.calPasses.map fun (p : Nat × CalPass) =>
      (p.1, if p.1 / 32 = st ∧ p.2.temp.any (fun was => decide (s.calDelta st ≤ max was t - min was t)) then { p.2 with extra := true } else p.2) }

-- # Channel commands (R342)

/-- The error of a RETIRE: the channel, its state, its stack's reserve. -/
def State.retireErr (s : State) (ch : Nat) : Nat :=
  if 384 ≤ ch then 1
  else if 2 ≤ s.fld F.MEM_CH_STATE_STATE ch then 4
  else if s.fld F.MEM_SPARE_STATE (ch / 32) = 3 then 3
  else if s.fld F.MEM_SPARE_STATE (ch / 32) ≠ 0 then 2
  else 0

/-- A write of MEM_CH_CMD. -/
def State.writeMemCmd (s : State) (fn : Nat) (h : Half) (v : Word) : State :=
  s.reaching fn .MEM_CH_CMD 0 fun s =>
    let w := h.part v
    let op := F.MEM_CH_CMD_OP.of w
    let ch := F.MEM_CH_CMD_CHANNEL.of w
    if !F.MEM_CH_CMD_GO.hit h v || (op != 1 && op != 2) || s.flag F.MEM_CMD_STATUS_BUSY 0 then s
    else
      let err := if op = 1 then s.retireErr ch else if 384 ≤ ch then 1 else 0
      let s := (s.setFld F.MEM_CMD_STATUS_ERR 0 err).setFld F.MEM_CMD_STATUS_CHANNEL 0 ch
      if op = 1 then (if err = 1 then s else s.retireIn ch 4)
      else if err = 0 then
        { s.setReg .MEM_CH_WINDOW ch 0#64 with ceTimes := NMap.erase s.ceTimes ch, ueTimes := NMap.erase s.ueTimes ch }
      else s

/-- The word that a channel command writes. -/
def memCmdWord (op ch : Nat) : Word := F.MEM_CH_CMD_CHANNEL.put (F.MEM_CH_CMD_OP.put (F.MEM_CH_CMD_GO.put 0#64 1) op) ch

/-- CHANNEL_RETIRE. -/
def execChannelRetire (fn : Fin 64) (ch : BitVec 9) (s : State) : Answer := .next (s.writeMemCmd fn .whole (memCmdWord 1 ch.toNat))

/-- CLEAR_COUNTS. -/
def execClearCounts (fn : Fin 64) (ch : BitVec 9) (s : State) : Answer := .next (s.writeMemCmd fn .whole (memCmdWord 2 ch.toNat))

-- # Migration (R343)

/-- The time of a stack's last slot move among the activities. -/
def slotTimer : Nat := 2

/-- The migration rate; a value outside its range counts as the nearest in it (R343, log 97). -/
def State.moveRate (s : State) : Nat := max 1 (min 160 (s.fld F.MEM_SPARE_CFG_RATE 0))

/-- MIGRATION_SLOT_MOVE: the next slot moves, read through the symbol code; a codeword that is poisoned, or that the read finds uncorrectable,
arrives poisoned. `errs` are the symbols of its codewords that have gone wrong. -/
def execMigrationSlotMove (st : Fin 12) (errs : List (Fin 8 × SymErrs)) (s : State) : Answer :=
  let gap := ceilDiv 2560 s.moveRate
  if !s.memRuns || s.fld F.MEM_SPARE_STATE st != 1 || (s.beganAt slotTimer st).elim false (fun t => decide (s.now < t + gap)) then .next s
  else
    let kf := s.fld F.MEM_SPARE_CHANNEL st
    let t := s.fld F.MEM_SPARE_WATERMARK st
    let q := s.visibleEnd / 98304
    let ch := 32 * st.val + kf
    let key (i : Nat) : Nat := (slotsPerChannel * ch + t) * 8 + i
    let s := s.each errs fun e s => s.spoil (key e.1) e.2
    let s := s.each ((List.range 8).filter fun i => !s.poison.contains (key i)) fun i s =>
      s.readWord ch (key i) ((s.slotAddr ch t).map fun x => x + 32 * i)
    let n := (List.range 8).countP fun i => s.poison.contains (key i)
    let s := { s with moved := NMap.update s.moved st 0 (· + n), wrong := s.wrong.filter fun p => p.1 / 8 != slotsPerChannel * ch + t }
    let s := (s.setFld F.MEM_SPARE_WATERMARK st (t + 1)).beginAt slotTimer st
    let (c', t') := s.spare ch t
    let s := { s with poison := s.poison.filter fun k => k / 8 != slotsPerChannel * c' + t' }
    if t + 1 < q then .next s
    else
      let from' := (s.beganAt migration st).getD s.now
      let s := (s.setFld F.MEM_SPARE_STATE st 2).setFld F.MEM_CH_STATE_STATE ch 3
      .next ((s.raise .device 0x0107 0 ch (2 ^ 32 * ((s.now - from') / ms % 2 ^ 32) + NMap.getD s.moved st 0)).endOf migration st)

-- # Losses and links (R344, R46, R346)

/-- CHANNEL_NO_RESPONSE. -/
def execChannelNoResponse (ch : Fin 384) (s : State) : Answer :=
  if !s.memRuns || s.fld F.MEM_CH_STATE_STATE ch == 4 then .next s else .next (s.loseChannel ch 3)

/-- DIE_LINK_RETRY: a transfer fails its CRC, for the first time or, with `again`, once more; the failure after the sixteenth retry is
device-fatal. -/
def execDieLinkRetry (l : Fin 10) (again : Bool) (s : State) : Answer :=
  if s.inReset then .next s
  else
    let run := if again then NMap.getD s.linkRuns l 0 else 0
    if 16 ≤ run then
      .next (({ s with linkRuns := NMap.set s.linkRuns l 0 }.raise .device 0x010D 3 l 16).fatal)
    else
      let s := { s with linkRuns := NMap.set s.linkRuns l (run + 1) }
      let s := (s.bumpFld F.MEM_LINK_RETRIES l 1).setFld F.MEM_LINK_MAX_RUN l (max (s.fld F.MEM_LINK_MAX_RUN l) (run + 1))
      let (n, s) := s.failure 3 l
      .next (if 1024 ≤ n then s.raiseLimited l sec .device 0x010C 1 l n else s)

-- # Throttling (R347, R350)

/-- The bandwidth that a threshold in force allows (Table 9-8). -/
def throttlePct (t : Nat) : Nat := if t < 88 then 100 else if t < 95 then 100 - 10 * (t - 87) else 25

/-- The threshold that a bandwidth says is in force. -/
def throttleAt (pct : Nat) : Nat := if pct = 100 then 0 else if pct = 25 then 95 else 87 + (100 - pct) / 10

/-- The threshold in force at a temperature: a higher one is set at once, one in force is released 2 °C below it. -/
def throttleNext (was t : Nat) : Nat := if was ≤ t then min t 95 else min was (t + 1)

/-- The activities of a stack's temperature: its last tick, since when it has stood at 95 °C or above, and that event 0x010B is out. -/
def throttleTimer : Nat := 3
def hotTimer : Nat := 4
def hotTold : Nat := 5

/-- MEM_THROTTLE_TICK: every 1 ms a stack is throttled from its hottest sensor; both temperatures are in whole °C. -/
def execMemThrottleTick (st : Fin 12) (tMax tBase : BitVec 8) (s : State) : Answer :=
  if s.inReset || (s.beganAt throttleTimer st).elim false (fun t => decide (s.now < t + ms)) then .next s
  else
    let t := tMax.toNat
    let was := s.fld F.MEM_THERM_BW_PCT st
    let pct := throttlePct (throttleNext (throttleAt was) t)
    let s := (s.beginAt throttleTimer st).setFld F.MEM_THERM_T_MAX st t
    let s := (s.setFld F.MEM_THERM_T_BASE st tBase.toNat).setFld F.MEM_THERM_BW_PCT st pct
    let s := s.when (pct != was) fun s => s.raise .device 0x010A 1 st (t * 256 + pct)
    let s :=
      if t < 95 then (s.endOf hotTimer st).endOf hotTold st
      else
        match s.beganAt hotTimer st with
        | none => s.beginAt hotTimer st
        | some x =>
          s.when (decide (x + sec < s.now) && (s.beganAt hotTold st).isNone) fun s =>
            (s.beginAt hotTold st).raise .device 0x010B 2 st t
    let s := s.extraPasses st t
    .next (s.memHot.showBound.when (decide (105 ≤ t)) fun s => s.thermTrip (16 + st) t)

-- # Supplies (R38, R598)

/-- SUPPLY_DROOP: the island stretches its cycles; nothing of it is visible. -/
def execSupplyDroop (_rail : Fin 6) (s : State) : Answer := .next s

/-- RAIL_UNDERVOLT: rail 0 to 5 has stayed below 94 % of its set point for more than 10 µs. -/
def execRailUndervolt (_rail : Fin 6) (s : State) : Answer := if s.inReset then .next s else .next s.fatal

end Sys2Proof.Machine
end

