-- ==== Sys2Proof/Machine/Sync.lean ====
section
/-! DEFINITION. The command window of the SYN block (R152 to R156, R168, R169, R175 to R178) and the other commands that reach
synchronisation objects: an increment of a core (R158), the debugger's control (R176) and the notification ring (R172, R173). -/

namespace Sys2Proof.Machine

-- # The window (R152, R153)

/-- What a SYN_OP reports. A value it does not give is free (log 3). -/
structure SynAns where
  status : Nat
  detail : Option Nat
  r0     : Option Nat
  r1     : Option Nat
deriving DecidableEq, Repr

namespace SynAns

/-- Done: RESULT0 as given, RESULT1 left to the part. -/
def one (v : Nat) : SynAns := ⟨St.ok, some 0, some v, none⟩

/-- Done with the result 0 of Table 4-2. -/
def done : SynAns := ⟨St.ok, some 0, some 0, some 0⟩

/-- A value outside its range, or a reserved bit that is set. -/
def bad : SynAns := ⟨St.badCommand, none, none, none⟩

/-- The function, the context or the mode does not allow it. -/
def denied : SynAns := ⟨St.noPermission, none, none, none⟩

/-- A protocol error, or an object that is in one. -/
def proto (code vid : Nat) : SynAns := ⟨St.protocol, some (protoDetail code vid), none, none⟩

/-- REFUSED_FIT with reason 0x04 and the count that is left. -/
def full (left : Nat) : SynAns := ⟨St.refusedFit, some (0x04 * 2 ^ 24), some left, none⟩

end SynAns

/-- A value, or a free one where none is given. -/
def State.orFree (s : State) (v : Option Nat) : Nat × State :=
  match v with
  | some v => (v, s)
  | none => s.draw (2 ^ 64)

/-- Keep what an operation will report until it completes. -/
def State.synKeep (s : State) (fn : Nat) (a : SynAns) : State :=
  let (d, s) := s.orFree a.detail
  let (r0, s) := s.orFree a.r0
  let (r1, s) := s.orFree a.r1
  { s with synOps := NMap.set s.synOps fn ⟨a.status, d, r0, r1⟩ }

/-- A write to SYN_OP: discarded while the window is busy; turned away where the context is not the function's or the id lies outside the
grants; else the operation takes effect, to be reported at its completion. The register's reserved bits are ignored (R26). -/
def State.synOp (s : State) (fn ctx vid : Nat) (run : State → State × SynAns) : State :=
  s.reaching fn .SYN_OP fn fun s =>
    if s.flag F.SYN_OP_STATUS_BUSY fn then s.setFld F.SYN_OP_STATUS_OVERRUN fn 1
    else
      let s := s.setFld F.SYN_OP_STATUS_BUSY fn 1
      let (s, a) :=
        if s.ctxFn ctx ≠ fn then (s, SynAns.denied)
        else if s.fld F.QUE_CTX_SYN_IDS ctx ≤ vid then (s, SynAns.denied)
        else run s
      s.synKeep fn a

/-- The arguments of a window, as they stand at the write. -/
def State.synArg (s : State) (fn i : Nat) : Nat :=
  (s.reg (if i = 0 then .SYN_ARG0 else if i = 1 then .SYN_ARG1 else .SYN_ARG2) fn).toNat

/-- SYN_OP_COMPLETE: the results and the status are written, then BUSY clears (R153). -/
def execSynOpComplete (fn : Fin 64) (s : State) : Answer :=
  match NMap.get? s.synOps fn with
  | none => .next s
  | some x =>
    let s := (s.setFld F.SYN_RESULT0_RESULT0 fn x.r0).setFld F.SYN_RESULT1_RESULT1 fn x.r1
    let s := (s.setFld F.SYN_OP_STATUS_DETAIL fn x.detail).setFld F.SYN_OP_STATUS_STATUS fn x.status
    .next { s.setFld F.SYN_OP_STATUS_BUSY fn 0 with synOps := NMap.erase s.synOps fn }

/-- Act on the object that an id of a context names; an id that names none is a protocol error of the operation (R151, R174). -/
def State.onObject (s : State) (ctx vid : Nat) (src : Origin) (f : Nat → Bool → SyncObj → State × SynAns) : State × SynAns :=
  match s.named ctx vid with
  | .outside => (s, SynAns.denied)
  | .unmapped => (s.protoError ctx vid Proto.unmapped src 0, SynAns.proto Proto.unmapped vid)
  | .object k side o => f k side o

-- # CREATE, DESTROY, READ (R154, R156, Table 4-3)

/-- The kind that a number names (Table 4-1). -/
def kindOf (n : Nat) : Option ObjKind :=
  match n with
  | 0 => some .counter
  | 1 => some .bounded
  | 2 => some .barrier
  | _ => none

/-- The arguments of a kind lie in their ranges. -/
def ObjKind.argOk (k : ObjKind) (vid ids arg : Nat) : Bool :=
  match k with
  | .counter => true
  | .bounded => vid % 2 == 0 && decide (vid + 1 < ids) && decide (1 ≤ arg) && decide (arg ≤ 65535)
  | .barrier => decide (1 ≤ arg) && decide (arg ≤ 512)

/-- An id maps an object. -/
def State.mapped (s : State) (ctx vid : Nat) : Bool :=
  match s.named ctx vid with
  | .object _ _ _ => true
  | _ => false

/-- The effect of CREATE (R149, R154). -/
def State.synCreate (s : State) (fn ctx vid : Nat) : State × SynAns :=
  let a0 := s.synArg fn 0
  let a1 := s.synArg fn 1
  match kindOf (a0 % 4) with
  | none => (s, SynAns.bad)
  | some kind =>
    if 32 ≤ a0 ∨ kind.argOk vid (s.fld F.QUE_CTX_SYN_IDS ctx) a1 = false then (s, SynAns.bad)
    else if s.mapped ctx vid ∨ (kind = .bounded ∧ s.mapped ctx (vid + 1)) then
      (s.protoError ctx vid Proto.mapped ⟨6, fn⟩ (s.valueOf ctx vid), SynAns.proto Proto.mapped vid)
    else
      let die := if a0.testBit 4 then s.bestDie else bitsOf a0 2 2
      if s.freeCounters die < kind.counters then (s, SynAns.full (s.freeCounters die))
      else
        let s := s.makeObj ctx vid kind die a1 false
        let id := match NMap.get? s.objs (65536 * ctx + vid) with
          | some o => o.phys.headD 0
          | none => 0
        (s, SynAns.one id)

/-- CREATE. -/
def execCreate (fn : Fin 64) (ctx : Fin 256) (vid : Fin 65536) (_rsv : Bool) (s : State) : Answer :=
  .next (s.synOp fn ctx vid fun s => s.synCreate fn ctx vid)

/-- DESTROY: the even id of a BOUNDED; not an object of the binder (R156). -/
def execDestroy (fn : Fin 64) (ctx : Fin 256) (vid : Fin 65536) (_rsv : Bool) (s : State) : Answer :=
  .next (s.synOp fn ctx vid fun s => s.onObject ctx vid ⟨6, fn⟩ fun k side o =>
    if side then (s, SynAns.bad)
    else if o.binder then (s, SynAns.denied)
    else (s.unmakeObj k St.protocol true, SynAns.done))

/-- The STATE field of Table 4-3. -/
def SyncObj.stateField (o : SyncObj) : Nat :=
  match o.kind with
  | .counter => min o.waiters.length 0xFFFFF
  | .bounded => o.n
  | .barrier => 1024 * (if o.releasing then o.leaving.length else o.arrived.length) + o.parked.length

/-- The number of a kind. -/
def ObjKind.num : ObjKind → Nat
  | .counter => 0
  | .bounded => 1
  | .barrier => 2

/-- The state word of READ (Table 4-3). -/
def SyncObj.stateWord (o : SyncObj) (side : Bool) : Nat :=
  2 ^ 62 * o.kind.num + 2 ^ 61 * b2n o.err.isSome + 2 ^ 60 * b2n o.binder + 2 ^ 59 * b2n (o.heldIncs != []) + 2 ^ 58 * b2n o.releasing
    + 2 ^ 50 * o.err.getD 0 + 2 ^ 40 * (if o.kind = .barrier then o.n else 0) + 2 ^ 20 * (o.phys.getD (b2n side) 0) + o.stateField

/-- READ (Table 4-2). -/
def execRead (fn : Fin 64) (ctx : Fin 256) (vid : Fin 65536) (_rsv : Bool) (s : State) : Answer :=
  .next (s.synOp fn ctx vid fun s => s.onObject ctx vid ⟨6, fn⟩ fun _ side o =>
    (s, ⟨St.ok, some 0, some (o.value side), some (o.stateWord side)⟩))

-- # Watches (R168 to R171)

/-- The watch that the arguments describe (Table 4-6). -/
def watchOf (vid : Nat) (side : Bool) (a0 a1 a2 : Nat) : Watch :=
  ⟨vid, side, bitsOf a1 32 32, a0, bitsOf a2 32 32, bitsOf a2 0 32, bitsOf a1 16 16, a1.testBit 2, a1.testBit 1, a1.testBit 0⟩

/-- A SIGNAL target that a watch may not name (R168). -/
def State.badTarget (s : State) (ctx : Nat) (w : Watch) : Bool :=
  w.signal && (w.target == w.vid ||
    match s.named ctx w.target with
    | .object _ _ o => o.kind == .barrier
    | _ => true)

/-- The watches still available to a context (R169). -/
def State.watchesLeft (s : State) (ctx : Nat) : Nat :=
  min (4096 - s.fld F.SYN_CTX_USE_WATCHES ctx) (s.fld F.SYN_WATCH_FREE_FREE 0)

/-- The effect of WATCH. -/
def State.synWatch (s : State) (ctx vid k : Nat) (side : Bool) (o : SyncObj) (a0 a1 a2 : Nat) : State × SynAns :=
  let w := watchOf vid side a0 a1 a2
  if bitsOf a1 3 13 ≠ 0 ∨ (o.watches.any fun x => x.vid == vid && x.tag == w.tag) ∨ (!w.notify && !w.signal) ∨
      (w.repeats && w.period == 0) ∨ s.badTarget ctx w then (s, SynAns.bad)
  else if s.watchesLeft ctx = 0 then (s, SynAns.full 0)
  else
    let s := s.setObj k { o with watches := o.watches ++ [w] }
    let s := s.setFld F.SYN_CTX_USE_WATCHES ctx (s.fld F.SYN_CTX_USE_WATCHES ctx + 1)
    let s := s.setFld F.SYN_WATCH_FREE_FREE 0 (s.fld F.SYN_WATCH_FREE_FREE 0 - 1)
    (s.when (decide (w.thresh ≤ o.value side)) fun s => s.fire (firstAct ctx []) ctx k (o.value side) w, SynAns.done)

/-- WATCH. -/
def execWatch (fn : Fin 64) (ctx : Fin 256) (vid : Fin 65536) (_rsv : Bool) (s : State) : Answer :=
  .next (s.synOp fn ctx vid fun s => s.onObject ctx vid ⟨6, fn⟩ fun k side o =>
    s.synWatch ctx vid k side o (s.synArg fn 0) (s.synArg fn 1) (s.synArg fn 2))

/-- UNWATCH (R168). -/
def execUnwatch (fn : Fin 64) (ctx : Fin 256) (vid : Fin 65536) (_rsv : Bool) (s : State) : Answer :=
  .next (s.synOp fn ctx vid fun s => s.onObject ctx vid ⟨6, fn⟩ fun k _ o =>
    match o.watches.find? fun x => x.vid == vid.val && x.tag == bitsOf (s.synArg fn 1) 32 32 with
    | none => (s, SynAns.bad)
    | some w => (s.dropWatch ctx k w, SynAns.done))

/-- TRACE needs observe mode (R175). -/
def execTrace (fn : Fin 64) (ctx : Fin 256) (vid : Fin 65536) (_rsv : Bool) (s : State) : Answer :=
  .next (s.synOp fn ctx vid fun s =>
    if !s.flag F.SYN_DBG_CTL_OBSERVE ctx then (s, SynAns.denied)
    else if 2 ≤ s.synArg fn 0 then (s, SynAns.bad)
    else s.onObject ctx vid ⟨6, fn⟩ fun k _ o => (s.setObj k { o with trace := s.synArg fn 0 == 1 }, SynAns.done))

-- # The debugger's operations (R176 to R178)

/-- Count an intervene operation, write its record, and mark the open step of its context (R178). -/
def State.intervened (s : State) (ctx vid op : Nat) : State :=
  let s := s.bumpFld F.SYN_DBG_STATUS_INTERVENTIONS ctx 1
  let s := s.notify ctx ⟨s.now, 5, op, vid, 0, s.valueOf ctx vid⟩
  s.modStep ctx fun p => { p with intervened := true }

/-- An intervene operation: it needs intervene mode and an object. -/
def State.intervene (s : State) (ctx vid op : Nat) (f : Nat → Bool → SyncObj → State × SynAns) : State × SynAns :=
  if !s.flag F.SYN_DBG_CTL_INTERVENE ctx || !s.flag F.SYN_DBG_STATUS_SCOPE ctx then (s, SynAns.denied)
  else s.onObject ctx vid ⟨4, 0⟩ fun k side o =>
    let (s, a) := f k side o
    (s.when (a.status == St.ok) fun s => s.intervened ctx vid op, a)

/-- The waits and watches whose condition a debugger's write has made true. -/
def State.settle (s : State) (ctx k : Nat) (side : Bool) : State := (s.wake ctx k side).fireAll (firstAct ctx) [] ctx k side

/-- DBG_SET writes any value to the side named; that of a BARRIER is its epoch (R177; DESIGN CHOICE, log 119). -/
def execDbgSet (fn : Fin 64) (ctx : Fin 256) (vid : Fin 65536) (_rsv : Bool) (s : State) : Answer :=
  .next (s.synOp fn ctx vid fun s => s.intervene ctx vid 0x10 fun k side o =>
    ((s.setObj k (o.setValue side (s.synArg fn 0))).settle ctx k side, SynAns.one (o.value side)))

/-- Release everyone an object holds: a tile issues, a SYNC_WAIT ends with ABORTED. A barrier's counts A and Q are empty after it: the rule
says nothing of them (DESIGN CHOICE, log 82). -/
def State.releaseAll (s : State) (k : Nat) (o : SyncObj) : State :=
  let s := s.modObj k fun o => { o with waiters := [], arrived := [], parked := [] }
  s.each o.everyone fun w s =>
    let s := s.traceRelease k o w
    match w.1 with
    | .tile t => s.releaseTile t false
    | .body t => s.releaseBody t false
    | .cmd q c => s.finishFree q c St.aborted 0

/-- DBG_RELEASE. -/
def execDbgRelease (fn : Fin 64) (ctx : Fin 256) (vid : Fin 65536) (_rsv : Bool) (s : State) : Answer :=
  .next (s.synOp fn ctx vid fun s => s.intervene ctx vid 0x11 fun k _ o =>
    (s.releaseAll k o, SynAns.one o.everyone.length))

/-- The effect of DBG_EPOCH: the arrivals go as under DBG_RELEASE, and the barrier is open at the epoch named, its value. -/
def State.openEpoch (s : State) (ctx k : Nat) (o : SyncObj) (e : Nat) : State :=
  let held : SyncObj := { o with waiters := [] }
  let s := s.each held.everyone fun w s =>
    match w.1 with
    | .tile t => (s.traceRelease k o w).releaseTile t false
    | _ => s
  let s := s.modObj k fun o => { o with p := e, arrived := [], parked := [], leaving := [], releasing := false }
  s.settle ctx k false

/-- DBG_EPOCH, of a barrier alone. -/
def execDbgEpoch (fn : Fin 64) (ctx : Fin 256) (vid : Fin 65536) (_rsv : Bool) (s : State) : Answer :=
  .next (s.synOp fn ctx vid fun s => s.intervene ctx vid 0x12 fun k side o =>
    if o.kind ≠ .barrier then (s.protoError ctx vid Proto.kind ⟨4, 0⟩ (o.value side), SynAns.proto Proto.kind vid)
    else (s.openEpoch ctx k o (s.synArg fn 0), SynAns.done))

/-- DBG_CLEAR ends ERROR and keeps the values. -/
def execDbgClear (fn : Fin 64) (ctx : Fin 256) (vid : Fin 65536) (_rsv : Bool) (s : State) : Answer :=
  .next (s.synOp fn ctx vid fun s => s.intervene ctx vid 0x13 fun k _ o =>
    (s.setObj k { o with err := none }, SynAns.done))

/-- DBG_HOLD keeps increments, or applies the kept ones; those that were stalled at their sources then follow, and RESULT0 does not count
them. -/
def execDbgHold (fn : Fin 64) (ctx : Fin 256) (vid : Fin 65536) (_rsv : Bool) (s : State) : Answer :=
  .next (s.synOp fn ctx vid fun s => s.intervene ctx vid 0x14 fun k _ o =>
    if 2 ≤ s.synArg fn 0 then (s, SynAns.bad)
    else if s.synArg fn 0 = 1 then (s.setObj k { o with hold := true }, SynAns.one 0)
    else
      let (s, n) := (s.setObj k { o with hold := false, heldIncs := [], stalled := [] }).applyHeld ctx o.heldIncs
      ((s.applyHeld ctx o.stalled).1, SynAns.one n))

-- # Cores, the debugger's control, and the ring

/-- CORE_INCREMENT: an application or firmware core adds to a counter, and what it comes to is reported to the core (R158, Table 4-4). -/
def execCoreIncrement (core : Fin 21) (ctx : Fin 256) (vid : Fin 65536) (inc : BitVec 64) (s : State) : Answer :=
  let r := s.incrementOnce ctx vid inc.toNat ⟨3, core⟩ (.core core)
  .next (r.1.replyInc (.core core) r.2)

/-- A write to SYN_DBG_CTL: INTERVENE is set only while the scope is open (R176). -/
def State.writeDbgCtl (s : State) (fn ctx : Nat) (h : Half) (v : Word) : State :=
  s.reaching fn .SYN_DBG_CTL ctx fun s =>
    if F.SYN_DBG_CTL_INTERVENE.hit h v && !s.flag F.SYN_DBG_STATUS_SCOPE ctx then
      let s := s.writeReg .SYN_DBG_CTL ctx h (F.SYN_DBG_CTL_INTERVENE.put v (s.fld F.SYN_DBG_CTL_INTERVENE ctx))
      s.blockedReg fn .SYN_DBG_CTL ctx
    else s.writeReg .SYN_DBG_CTL ctx h v

/-- SYN_DBG_CTL_WRITE. -/
def execSynDbgCtlWrite (fn : Fin 64) (ctx : Fin 256) (value : BitVec 64) (s : State) : Answer :=
  .next (s.writeDbgCtl fn ctx .whole value)

/-- A write to SYN_NQ_CFG (R172, R612): enabling starts the ring afresh; LOST, which its first record reports, and
the THRESHOLD and PROTOCOL records that are held stay. -/
def State.writeNqCfg (s : State) (fn ctx : Nat) (h : Half) (v : Word) : State :=
  s.reaching fn .SYN_NQ_CFG ctx fun s =>
    let old := s.reg .SYN_NQ_CFG ctx
    let new := RegName.SYN_NQ_CFG.written h old v
    if F.SYN_NQ_CFG_EN.of old = 1 then
      s.setReg .SYN_NQ_CFG ctx (F.SYN_NQ_CFG_LOG2.put new (F.SYN_NQ_CFG_LOG2.of old))
    else
      let lg := F.SYN_NQ_CFG_LOG2.of new
      let sized := decide (6 ≤ lg) && decide (lg ≤ 16)
      let space := s.fld F.SYN_NQ_BASE_SPACE ctx
      let base := 4096 * s.fld F.SYN_NQ_BASE_ADDR ctx
      let placed := space == 0 ||
        (decide (s.regionBase ctx ≤ base) && decide (base + 32 * 2 ^ lg ≤ s.regionBase ctx + s.regionSize ctx))
      let on := F.SYN_NQ_CFG_EN.of new == 1
      if !sized || (on && !placed) then s.blockedReg fn .SYN_NQ_CFG ctx
      else
        let s := s.setReg .SYN_NQ_CFG ctx new
        if !on then s
        else
          let s := s.setFld F.SYN_NQ_HEAD_HEAD ctx 0
          let s := (s.setFld F.SYN_NQ_STATE_TAIL ctx 0).setFld F.SYN_NQ_STATE_PHASE ctx 1
          let held := (s.nring ctx).held
          let s := (s.setNring ctx ⟨0, 1, []⟩).nringFlush 1 ctx
          (s.setNring ctx { s.nring ctx with held := held }).nringFlush held.length ctx

/-- NOTIFY_RING_ENABLE: a write that sets SYN_NQ_CFG.EN. -/
def execNotifyRingEnable (fn : Fin 64) (ctx : Fin 256) (value : BitVec 64) (s : State) : Answer :=
  .next (s.writeNqCfg fn ctx .whole value)

/-- A write to SYN_NQ_HEAD: an invalid value is ignored and counted; else held records, then LOST, take the room (R172, R173). -/
def State.writeNqHead (s : State) (fn ctx head : Nat) : State :=
  s.reaching fn .SYN_NQ_HEAD ctx fun s =>
    let r := s.nring ctx
    let size := s.nringSize ctx
    let n := (head + size - s.fld F.SYN_NQ_HEAD_HEAD ctx) % size
    if size ≤ head ∨ r.used < n then s.blockedReg fn .SYN_NQ_HEAD ctx
    else
      let s := (s.setFld F.SYN_NQ_HEAD_HEAD ctx head).setNring ctx { r with used := r.used - n }
      s.when (s.flag F.SYN_NQ_CFG_EN ctx) fun s => s.nringFlush (r.held.length + 1) ctx

/-- NOTIFY_RING_HEAD_WRITE. -/
def execNotifyRingHeadWrite (fn : Fin 64) (ctx : Fin 256) (head : BitVec 16) (s : State) : Answer :=
  .next (s.writeNqHead fn ctx head.toNat)

end Sys2Proof.Machine
end

