-- ==== Sys2Proof/Machine/Tensor.lean ====
section
/-! DEFINITION. The exception record's clear (R240) and the registration of a tracked tensor (R316). -/

namespace Sys2Proof.Machine

/-- A write to EXC_NUM_STATE: CLEAR empties the record (R240). -/
def State.writeNumState (s : State) (fn ctx : Nat) (h : Half) (v : Word) : State :=
  s.reaching fn .EXC_NUM_STATE ctx fun s =>
    if F.EXC_NUM_STATE_CLEAR.hit h v then
      let s := (s.setFld F.EXC_NUM_STATE_COUNT ctx 0).setFld F.EXC_NUM_STATE_LOST ctx 0
      s.each (List.range 64) fun i s => s.setFld F.EXC_NUM_E3_VALID (ctx * 64 + i) 0
    else s

/-- NUM_RECORD_CLEAR. -/
def execNumRecordClear (fn : Fin 64) (ctx : Fin 256) (s : State) : Answer :=
  .next (s.writeNumState fn ctx .whole (F.EXC_NUM_STATE_CLEAR.put 0#64 1))

/-- A write to NUM_TENSOR_REG: GO starts a registration, unless one runs. -/
def State.writeTensorReg (s : State) (fn ctx : Nat) (h : Half) (v : Word) : State :=
  s.reaching fn .NUM_TENSOR_REG ctx fun s =>
    if F.NUM_TENSOR_REG_GO.hit h v && !s.flag F.NUM_REG_STATUS_BUSY ctx then
      let s := (s.setFld F.NUM_REG_STATUS_BUSY ctx 1).setFld F.NUM_REG_STATUS_ERR ctx 0
      s.setFld F.NUM_REG_STATUS_TID ctx (F.NUM_TENSOR_REG_TID.of (h.part v))
    else s

/-- TENSOR_REGISTER. -/
def execTensorRegister (fn : Fin 64) (ctx : Fin 256) (tid : BitVec 32) (s : State) : Answer :=
  .next (s.writeTensorReg fn ctx .whole (F.NUM_TENSOR_REG_TID.put (F.NUM_TENSOR_REG_GO.put 0#64 1) tid.toNat))

/-- A descriptor's fields lie in their ranges (Table 6-3): a destination format of a conversion, which scales of its own leave without a
scale (R235), a granularity, its block or row size, and an aligned table. -/
def State.descOk (s : State) (ctx t : Nat) : Bool :=
  let ctrl := s.desc ctx t 0 1
  let gran := bitsOf ctrl 2 2
  let fmt := s.desc ctx t 1 1
  let lg := s.desc ctx t 2 1
  decide (fmt < 0xD) && !(decide (5 ≤ fmt) && decide (fmt ≤ 0xA) && ctrl.testBit 4) && gran != 3 &&
    (gran != 2 || (decide (5 ≤ lg) && decide (lg ≤ 16))) && (gran != 1 || s.desc ctx t 8 4 != 0) && s.desc ctx t 16 8 % 32 == 0

/-- Why a registration fails (NUM_REG_STATUS.ERR); 0 is no reason. -/
def State.regError (s : State) (ctx t : Nat) : Nat :=
  if s.fld F.NUM_TENSOR_COUNT_COUNT ctx ≤ t then 1
  else if !(s.desc ctx t 0 1).testBit 7 then 2
  else if !s.descOk ctx t then 3
  else 0

/-- Reset a tensor's history: the descriptor's state, its window, and every block cold, with their CRCs. -/
def State.registerTensor (s : State) (ctx t : Nat) : State :=
  let alarms := s.desc ctx t 40 4
  let s := s.devWrite (s.descAddr ctx t + 64) (List.replicate 128 0)
  let s := s.setDesc ctx t 24 8 (2 ^ 64 - 1)
  let s := s.setDesc ctx t 6 2 0
  let s := s.setDesc ctx t 32 8 0
  let s := s.setDesc ctx t 40 4 (alarms - alarms % 2)
  s.chillAll ctx t

/-- TENSOR_REGISTER_DONE: the registration checks the descriptor, then resets the tensor's history (R236, R316). -/
def execTensorRegisterDone (ctx : Fin 256) (s : State) : Answer :=
  if !s.flag F.NUM_REG_STATUS_BUSY ctx then .next s
  else
    let t := s.fld F.NUM_REG_STATUS_TID ctx
    let s := s.setFld F.NUM_REG_STATUS_BUSY ctx 0
    let e := s.regError ctx t
    if e ≠ 0 then .next (s.setFld F.NUM_REG_STATUS_ERR ctx e) else .next (s.registerTensor ctx t)

end Sys2Proof.Machine
end

