-- ==== Sys2Proof/Machine/RegWrite.lean ====
section
/-! DEFINITION. A host write at any offset of BAR0 (R24, R26, R27): the register it reaches, what its block says of a write there, and what
a read there returns. -/

namespace Sys2Proof.Machine

-- # Writes that a condition holds back

/-- A write acts unless a condition holds, in which case it is ignored. -/
def State.writeUnless (s : State) (fn : Nat) (r : RegName) (i : Nat) (h : Half) (v : Word) (c : Bool) : State :=
  s.reaching fn r i fun s => if c then s else s.writeReg r i h v

/-- A write acts unless a condition holds, in which case it is ignored and counted as a blocked access. -/
def State.writeOrBlock (s : State) (fn : Nat) (r : RegName) (i : Nat) (h : Half) (v : Word) (c : Bool) : State :=
  s.reaching fn r i fun s => if c then s.blockedReg fn r i else s.writeReg r i h v

/-- A write of 1 to VALID of a record clears the registers that hold it. -/
def State.clearRecord (s : State) (fn : Nat) (valid : Field) (also : List RegName) (i : Nat) (h : Half) (v : Word) : State :=
  s.reaching fn valid.reg i fun s => s.when (valid.hit h v) fun s => s.each (valid.reg :: also) fun r s => s.setReg r i 0#64

/-- A write to EXC_STEP_CFG: YIELD_NS is staged, the capsule fields act at once. -/
def State.writeStepCfg (s : State) (fn ctx : Nat) (h : Half) (v : Word) : State :=
  s.reaching fn .EXC_STEP_CFG ctx fun s =>
    let yield := s.fld F.EXC_STEP_CFG_YIELD_NS ctx
    ((s.stageReg .EXC_STEP_CFG ctx h v).writeReg .EXC_STEP_CFG ctx h v).setFld F.EXC_STEP_CFG_YIELD_NS ctx yield

/-- A write to FAB_ID or FAB_DIMS: blocked once a bypass has been released (R374). -/
def State.writeFabId (s : State) (fn : Nat) (r : RegName) (h : Half) (v : Word) : State :=
  (s.writeOrBlock fn r 0 h v (s.flag F.FAB_ID_LOCK 0)).showTime

/-- A write to HIF_BLOCKED: CLEAR clears the count and the last access. -/
def State.writeBlocked (s : State) (fn : Nat) (h : Half) (v : Word) : State :=
  s.reaching fn .HIF_BLOCKED fn fun s => s.when (F.HIF_BLOCKED_CLEAR.hit h v) fun s => s.setReg .HIF_BLOCKED fn 0#64

-- # The synchronisation window (R153, Table 4-2)

/-- What a meaning answers, as a state. -/
def Answer.state (s : State) : Answer → State
  | .next t => t
  | _ => s

/-- The operation that a write to SYN_OP asks for. -/
def synOpOf (op : Nat) (fn : Fin 64) (ctx : Fin 256) (vid : Fin 65536) (rsv : Bool) (s : State) : Answer :=
  match op with
  | 0x01 => execCreate fn ctx vid rsv s
  | 0x02 => execDestroy fn ctx vid rsv s
  | 0x03 => execRead fn ctx vid rsv s
  | 0x04 => execWatch fn ctx vid rsv s
  | 0x05 => execUnwatch fn ctx vid rsv s
  | 0x06 => execTrace fn ctx vid rsv s
  | 0x10 => execDbgSet fn ctx vid rsv s
  | 0x11 => execDbgRelease fn ctx vid rsv s
  | 0x12 => execDbgEpoch fn ctx vid rsv s
  | 0x13 => execDbgClear fn ctx vid rsv s
  | 0x14 => execDbgHold fn ctx vid rsv s
  | _ => .next (s.synOp fn ctx vid fun s => (s, SynAns.bad))

/-- A write to SYN_OP. A code that Table 4-2 does not list counts as a value outside its range. -/
def State.writeSynOp (s : State) (fn : Fin 64) (h : Half) (v : Word) : State :=
  let w := h.part v
  Answer.state s (synOpOf (F.SYN_OP_OP.of w) fn (Fin.ofNat 256 (F.SYN_OP_CTX.of w)) (Fin.ofNat 65536 (F.SYN_OP_VID.of w))
    (bitsOf w.toNat 16 32 != 0) s)

-- # Every register

/-- A write to one copy of a register. -/
def State.writeAt (s : State) (fn : Fin 64) (r : RegName) (i : Nat) (h : Half) (v : Word) : State :=
  let plain := s.reaching fn r i fun s => s.writeReg r i h v
  let staged := s.reaching fn r i fun s => s.stageReg r i h v
  match r with
  | .HIF_EPOCH_COMMIT => s.when (F.HIF_EPOCH_COMMIT_COMMIT.hit h v) fun s => s.writeCommit fn
  | .HIF_HEARTBEAT => s.writeHeartbeat fn
  | .HIF_BLOCKED => s.writeBlocked fn h v
  | .QUE_CTX_CFG => s.writeCtxCfg fn i h v
  | .QUE_CTX_SORI => s.writeOrBlock fn r i h v (s.ctxOn i)
  | .QUE_CTX_MEM => s.writeOrBlock fn r i h v (s.ctxOn i)
  | .QUE_CTX_SYN => s.writeOrBlock fn r i h v (s.ctxOn i)
  | .QUE_SQ_BASE => s.writeUnless fn r i h v (s.flag F.QUE_CFG_EN i)
  | .QUE_CQ_BASE => s.writeUnless fn r i h v (s.flag F.QUE_CFG_EN i)
  | .QUE_CFG => s.writeQueCfg fn i h v
  | .EXC_EVQ_BASE => s.writeUnless fn r i h v (s.flag F.EXC_EVQ_CFG_EN i)
  | .EXC_EVQ_CFG => s.writeEvqCfg fn h v
  | .EXC_EVQ_HEAD => s.writeEvqHead fn (F.EXC_EVQ_HEAD_HEAD.of (h.merge (s.reg r i) v))
  | .SYN_OP => s.writeSynOp fn h v
  | .SYN_NQ_BASE => s.writeUnless fn r i h v (s.flag F.SYN_NQ_CFG_EN i)
  | .SYN_NQ_CFG => s.writeNqCfg fn i h v
  | .SYN_NQ_HEAD => s.writeNqHead fn i (F.SYN_NQ_HEAD_HEAD.of (h.merge (s.reg r i) v))
  | .SYN_ERR => s.clearRecord fn F.SYN_ERR_VALID [] i h v
  | .SYN_DBG_CTL => s.writeDbgCtl fn i h v
  | .EXC_NUM_STATE => s.writeNumState fn i h v
  | .EXC_STEP_CFG => s.writeStepCfg fn i h v
  | .EXC_CAP_BASE => s.writeUnless fn r i h v (s.flag F.EXC_STEP_CFG_CAP_EN i)
  | .EXC_REPLAY_CTL => s.writeReplayCtl fn i h v
  | .EXC_INT_REC => s.clearRecord fn F.EXC_INT_REC_VALID [.EXC_INT_ADDR] i h v
  | .NUM_TENSOR_BASE => s.writeOrBlock fn r i h v (NMap.get? s.steps i).isSome
  | .NUM_TENSOR_COUNT => s.writeOrBlock fn r i h v (NMap.get? s.steps i).isSome
  | .NUM_TENSOR_REG => s.writeTensorReg fn i h v
  | .UPD_CROZ_T => s.writeOrBlock fn r i h v (NMap.get? s.steps i).isSome
  | .UPD_CROZ_P => s.writeOrBlock fn r i h v (NMap.get? s.steps i).isSome
  | .UPD_CKPT_ADDR => s.writeUnless fn r i h v (s.ckptBusy i)
  | .UPD_CKPT_CTL => s.writeCkptCtl fn i h v
  | .MEM_REGION_CFG => s.writeRegionCfg fn h v
  | .MEM_OUTSIDE => s.clearRecord fn F.MEM_OUTSIDE_VALID [] i h v
  | .MEM_CH_CMD => s.writeMemCmd fn h v
  | .FAB_ID => s.writeFabId fn r h v
  | .FAB_DIMS => s.writeFabId fn r h v
  | .FAB_TIME_CFG => s.writeTimeCfg fn h v
  | .FAB_PORT_CTL => s.writePortCtl fn i h v
  | .FAB_BYP_CTL => s.writeBypCtl fn h v
  | .XCH_CFG => s.writeXchCfg fn i h v
  | .XCH_CMD => s.writeXchCmd fn i h v
  | .XCH_OUT_BASE => s.writeUnless fn r i h v (s.flag F.XCH_CFG_EN i)
  | .XCH_IN_BASE => s.writeUnless fn r i h v (s.flag F.XCH_CFG_EN i)
  | .FAR_PORT_CFG => s.writeFarPort fn i h v
  | .FAR_PORT_BUF => s.writeFarBuf fn i h v
  | .FAR_PATH_SEL => s.writePathSel fn h v
  | .PAIR_CTL => s.writePairCtl fn h v
  | .MBX_CTL => s.writeMbxCtl fn h v
  | .PWR_CAP => s.writePwrCap fn h v
  | .SEC_KEY_CMD => s.writeKeyCmd fn h v
  | .SEC_ALARM => s.writeAlarm fn h v
  | .SEC_SLOT_SEL => s.writeSlotSel fn h v
  | .SEC_FA_CTL => s.writeFaCtl fn h v
  | .SEC_FA_RESP => s.reaching fn r i fun s => s.setReg r i (h.merge (s.reg r i) v)
  | .BOOT_CTL => s.writeBootCtl fn h v
  | .UPD_SHARD_BASE => staged
  | .UPD_SHARD_COUNT => staged
  | .UPD_NORM_CFG => staged
  | .UPD_SKIP_CFG => staged
  | .UPD_CROZ_BASE => staged
  | .UPD_CROZ_BETA => staged
  | .MEM_CACHE_CFG => staged
  | .MEM_CAL_CFG => staged
  | .PAIR_CTX => staged
  | .PAIR_SAMP_BASE => staged
  | .PAIR_SAMP_COUNT => staged
  | .FAB_GRP_BASE => staged
  | .FAB_GRP_COUNT => staged
  | .XCH_TIMING => staged
  | .XCH_STALE => staged
  | .XCH_OUTER => staged
  | .XCH_LEDGER => staged
  | .CIP_PAGE_CFG => staged
  | .FAR_JOB => staged
  | .FAR_PATH_BASE => staged
  | .FAR_PATH_COUNT => staged
  | .FAR_RTAB_BASE => staged
  | .FAR_FWD_BASE => staged
  | .FAR_FWD_COUNT => staged
  | _ => plain

-- # Every offset

/-- The offset lies in the request buffer of MBX. -/
def inRequest (off : Nat) : Bool := decide (0x10000 ≤ off) && decide (off < 0x11000)

/-- The bytes that a write of a half, or of the whole, of an aligned place stores. -/
def halfBytes (h : Half) (v : Word) : List Byte :=
  let bs := leBytes 8 v.toNat
  match h with
  | .whole => bs
  | .low => bs.take 4
  | .high => bs.drop 4

/-- The offset lies in a block that a virtual function does not see (R27), once BAR0 holds that block: BOOT from S1 on, the others from S3
(R580). -/
def State.hidden (s : State) (fn : Fin 64) (off : Nat) : Bool :=
  s.fnThere fn && fn != 0 && decide (0x1000000 ≤ off) && (decide (3 ≤ s.stage) || decide (0x3800000 ≤ off))

/-- A host write at an offset of BAR0: an offset that no map defines ignores it (R26), and a virtual function reaches no block but its own
(R27). -/
def State.writeOffset (s : State) (fn : Fin 64) (off : Nat) (h : Half) (v : Word) : State :=
  let base := off - off % 8
  if s.hidden fn off then s.blocked fn 0 off
  else if inRequest off then
    if s.fnThere fn && decide (3 ≤ s.stage) then s.writeRequest fn (off % 0x10000) (halfBytes h v) else s
  else
    match regAt fn base with
    | none => s
    | some (r, i) => s.writeAt fn r i h v

/-- REGISTER_WRITE: a host write of a register or of one half. -/
def execRegisterWrite (fn : Fin 64) (offset : BitVec 26) (half : Half) (value : BitVec 64) (s : State) : Answer :=
  .next (s.writeOffset fn offset.toNat half value)

-- # Reads

/-- MEM_CACHE_STAT of a stack: its hits and misses in units of 1,024 (R329, log 38). -/
def State.cacheStat (s : State) (st : Nat) : Word :=
  F.MEM_CACHE_STAT_HIT_K.put (F.MEM_CACHE_STAT_MISS_K.put 0#64 (NMap.getD s.cacheMisses st 0 / 1024)) (NMap.getD s.cacheHits st 0 / 1024)

/-- MEM_CH_ECC of a channel: POISONED counts the codewords now poisoned in it (R334). -/
def State.eccShown (s : State) (ch : Nat) : Word :=
  F.MEM_CH_ECC_POISONED.put (s.reg .MEM_CH_ECC ch) (min (s.poison.countP fun k => (s.codePlace k).1 == ch) 0xFFFF)

/-- MEM_CH_WINDOW of a channel: the codewords of the last hour and of the last 24 h (Table 9-6). -/
def State.windowShown (s : State) (ch : Nat) : Word :=
  F.MEM_CH_WINDOW_UE_DAY.put (F.MEM_CH_WINDOW_CE_HOUR.put (s.reg .MEM_CH_WINDOW ch)
    (min (s.within (NMap.getD s.ceTimes ch []) hour).length 0xFFFFFFFF)) (min (s.within (NMap.getD s.ueTimes ch []) day).length 0xFFFFFFFF)

/-- What a read of a register shows: the fields that reads return (Table 0-4), the value in force of a staged one (R86), device time. -/
def State.shown (s : State) (r : RegName) (i : Nat) : Word :=
  let w := match r.stagedIn with
    | some c => s.stagedAll r i c
    | none =>
      if r = .HIF_DEVTIME then BitVec.ofNat 64 s.now
      else if r = .MEM_CACHE_STAT then s.cacheStat i
      else if r = .MEM_CH_WINDOW then s.windowShown i
      else if r = .MEM_CH_ECC then s.eccShown i
      else if r = .FAR_PATH_RTT ∨ r = .FAR_PATH_RATE ∨ r = .FAR_PATH_CNT then s.showPath.reg r i
      else if r = .FAR_PORT_BUF then (s.showBuf i).reg r i
      else if r = .FAR_PORT_FEC ∧ s.stage = 6 then Config.fecCount i s.now
      else s.reg r i
  let own := match r with
    | .XCH_CFG => F.XCH_CFG_EN.put (F.XCH_CFG_ERR.put w (s.fld F.XCH_CFG_ERR i)) (s.fld F.XCH_CFG_EN i)
    | .PWR_CAP => F.PWR_CAP_ERR.put w (s.fld F.PWR_CAP_ERR i)
    | .SEC_FA_STATE => F.SEC_FA_STATE_REMAIN_S.put w s.remainS
    | .FAB_TIME_STATE => F.FAB_TIME_STATE_PPS_SEEN.put w
        (b2n (s.flag F.FAB_TIME_STATE_PPS_SEEN 0 && decide (s.now < s.fld F.FAB_PPS_TIME_TIME 0 + 2 * sec)))
    | .EXC_STEP_CFG => F.EXC_STEP_CFG_YIELD_NS.put (s.reg r i) (F.EXC_STEP_CFG_YIELD_NS.of w)
    | _ => w
  r.rows.foldl (fun (v : Word) (row : FieldRow) => if row.acc = .wo then v else (row.field r).put v ((row.field r).of own)) 0#64

-- # Adoption of an epoch (R88, R89)

/-- Pages that an adoption enables count their sealed soredia anew (CIP_PAGE_STAT). -/
def State.enablePages (before s : State) : State :=
  let on (t : State) (n : Nat) : Bool := F.CIP_PAGE_CFG_EN.of (t.staged .CIP_PAGE_CFG n .exchange 0) == 1
  s.each ((List.range 256).filter fun n => on s n && !on before n) fun n s => s.setFld F.CIP_PAGE_STAT_SEALED n 0

/-- EPOCH_ADOPT: a unit instance reaches its boundary and adopts the latest committed epoch, passing over those between (R88, R89). The
start of an outer round and the segment boundary of a far port are where the sender places this command. -/
def execEpochAdopt (unit : EpochClass) (inst : Fin 32) (s : State) : Answer :=
  if inst.val < classCount unit ∧ s.atBoundary unit inst ∧ s.adoptedBy unit inst < s.committed then
    let t := s.adoptEpoch unit inst
    let t := t.when (unit == .exchange) fun t => State.enablePages s t
    .next (t.when (unit == .far) fun t => State.startPaths s t).showEpochs
  else .next s

-- # Reads

/-- A host read of 64 bits at an offset of BAR0, or of one half of them: what it returns, and what it leaves (R24, R27, R61, R519, R580,
R613). Reads are no commands of the block; this is how a host sees its registers and buffers. -/
def State.readOffset (s : State) (fn : Fin 64) (off : Nat) (h : Half) : Word × State :=
  let base := off - off % 8
  if !s.fnThere fn then (0#64, s)
  else if s.hidden fn off then (0#64, s.blocked fn 0 off)
  else if 3 ≤ s.stage ∧ inRequest off then (h.read (BitVec.ofNat 64 (leNat (memRead s.request (4096 * fn + base % 0x1000) 8))), s)
  else if 3 ≤ s.stage ∧ 0x11000 ≤ off ∧ off < 0x12000 then
    (h.read (BitVec.ofNat 64 (leNat (memRead s.response (4096 * fn + base % 0x1000) 8))), s)
  else
    match regAt fn base with
    | none => (0#64, s)
    | some (r, i) =>
      match s.access false fn r i with
      | .go => (h.read (s.shown r i), s)
      | .ignore => (0#64, s)
      | .blocked => (0#64, s.blockedReg fn r i)

end Sys2Proof.Machine
end

