-- ==== Sys2Proof/Machine/StepOpen.lean ====
section
/-! DEFINITION. The open of a training step (R242): the shard table's checks (R275), a replay's capsule (R270, R271), the working copies that
are refreshed (R285, R412), what the open waits for (R309, R411, R505, R530), and the values that the step takes (R268, R303, R317). -/

namespace Sys2Proof.Machine

-- # The shard table (R275)

/-- A reserved bit of an entry is set (Table 8-1). -/
def State.shardReserved (s : State) (x : Shard) : Bool :=
  let f (o n : Nat) := s.devNat (x.addr + o) n
  decide (2 ^ 24 ≤ x.num) || decide (2 ^ 48 ≤ x.elemFirst) || decide (2 ^ 13 ≤ x.planes) || decide (16 ≤ x.flags) || f 29 3 != 0 || f 56 4 != 0

/-- Two entries hold elements of one tensor in common. -/
def Shard.overlaps (x y : Shard) : Bool :=
  x.tensor == y.tensor && decide (x.elemFirst < y.elemFirst + y.elems) && decide (y.elemFirst < x.elemFirst + x.elems)

/-- A microprogram stores to a plane of the exchange. -/
def Micro.storesOuter (m : Micro) : Bool :=
  m.words.any fun w => match engInstr w with
    | some (.st o, _) => o.a.val == 8 || o.a.val == 9 || o.a.val == 10 || o.a.val == 12
    | _ => false

/-- A microprogram names a plane: in its header, or in a word that reads or writes it (R294, R296). -/
def Micro.names (m : Micro) (q : Nat) : Bool :=
  m.planes.testBit q || m.words.any fun w => match engInstr w with
    | some (.ld o, _) | some (.st o, _) => o.a.val == q
    | some (.ldm _, _) | some (.stm _, _) => q == 0
    | some (.ldv _, _) => q == 6 || q == 7
    | _ => false

/-- What is wrong with an entry (event 0x0609); 0 is nothing. -/
def State.entryFault (s : State) (ctx : Nat) (p : Program) (ms : List Micro) (all : List Shard) (x : Shard) : Nat :=
  if s.devNat (x.addr + 60) 4 ≠ crc32c (s.devRead x.addr 60) ∨ s.shardReserved x then 1
  else if x.elems = 0 ∨ 2 ^ 28 < x.elems ∨ Config.tensorElems p.key x.tensor < x.elemFirst + x.elems ∨
      (all.any fun y => y.addr != x.addr && x.overlaps y) then 2
  else match ms[x.prog]? with
    | none => 3
    | some m =>
      if 2 < x.wfmt then 4
      else if (List.range 13).any fun q => m.names q && !x.has q then 5
      else if x.sketch ∧ (x.rowLen = 0 ∨ x.elems % x.rowLen ≠ 0) then 6
      else if s.flag F.XCH_CFG_EN ctx && x.exchanged && m.storesOuter then 7 else 0

/-- The first entry that fails, and why. -/
def State.tableFault (s : State) (ctx : Nat) (p : Program) : Option (Nat × Nat) :=
  let all := s.shards ctx
  let ms := imageMicros p.image
  all.zipIdx.findSome? fun x => match s.entryFault ctx p ms all x.1 with
    | 0 => none
    | n + 1 => some (x.2, n + 1)

-- # What a capsule records at the open (R268)

/-- The tracked tensors of a context. -/
def State.trackedTensors (s : State) (ctx : Nat) : List Nat := (List.range (s.fld F.NUM_TENSOR_COUNT_COUNT ctx)).filter (s.tracked ctx)

/-- The SCALE section. -/
def State.scaleBytes (s : State) (ctx : Nat) : List Byte :=
  (s.trackedTensors ctx).flatMap fun t => (List.range (s.desc ctx t 12 4)).map fun b =>
    if (s.scale ctx t b 17 1).testBit 0 then 0x80 else BitVec.ofNat 8 (s.scale ctx t b 16 1)

/-- The INPUTS section. -/
def State.inputBytes (s : State) (p : Program) : List Byte :=
  (Config.inputTensors p.key).flatMap fun x => leBytes 4 x.1 ++ leBytes 4 0 ++ leBytes 8 (crc64 (s.devRead x.2.1 x.2.2))

/-- LAYOUT: the digest of the site group's member table, in rank order. -/
def State.layoutDigest (s : State) (ctx : Nat) : Nat := crc64 (((s.group? ctx 0).elim [] (·.members)).flatMap (leBytes 2))

-- # Replays (R270, R271)

/-- A section of a capsule: its bytes, if the capsule lists it. -/
def State.capsulePart (s : State) (a ty : Nat) : Option (List Byte) :=
  ((List.range (min 7 (s.devNat (a + 30) 2))).find? fun i => s.devNat (a + 128 + 16 * i) 2 == ty).map fun i =>
    let e := a + 128 + 16 * i
    s.devRead (a + s.devNat (e + 4) 4) (s.devNat (e + 8) 4)

/-- A capsule's CRCs hold. -/
def State.capsuleGood (s : State) (a : Nat) : Bool :=
  s.devNat (a + 252) 4 == crc32c (s.devRead a 252) &&
    (List.range (min 7 (s.devNat (a + 30) 2))).all fun i =>
      let e := a + 128 + 16 * i
      s.devNat (e + 12) 4 == crc32c (s.devRead (a + s.devNat (e + 4) 4) (s.devNat (e + 8) 4))

/-- The replay is refused. -/
def State.replayRefused (s : State) (l : Launch) : Bool :=
  let a := 4096 * s.fld F.EXC_REPLAY_ADDR_ADDR l.ctx
  !s.capsuleGood a || s.devNat (a + 8) 8 != l.step || s.devNat (a + 16) 8 != s.fld F.NUM_JOB_SEED_SEED l.ctx || s.devNat (a + 24) 4 != l.crc ||
    s.devNat (a + 56) 8 != s.layoutDigest l.ctx

/-- The digests of a capsule against which the replay is compared, and the descriptors and entries of before it. -/
def State.replayOf (s : State) (ctx : Nat) : Replay :=
  let a := 4096 * s.fld F.EXC_REPLAY_ADDR_ADDR ctx
  let sh := (s.capsulePart a 2).getD []
  let f (i o n : Nat) := leNat ((sh.drop (24 * i + o)).take n)
  { localDigest := s.devNat (a + 80) 8
    shards := (List.range (sh.length / 24)).map fun i => (f i 0 4, f i 8 8, f i 16 8)
    norm := s.devNat (a + 72) 4
    repro := (s.devNat (a + 6) 2).testBit 0
    saved := (s.trackedTensors ctx).flatMap fun t =>
      [(s.descAddr ctx t, s.devRead (s.descAddr ctx t) 192), (s.desc ctx t 16 8, s.devRead (s.desc ctx t 16 8) (32 * s.desc ctx t 12 4))]
    zero := (s.capsulePart a 4).any fun l =>
      let i := 8 * s.stagedFld F.PAIR_CTX_REPLICA ctx .base
      decide (i + 8 ≤ l.length) && leNat ((l.drop i).take 8) == 0 }

/-- Every tracked block converts with the EXP, or the cold state, of the capsule's SCALE section. -/
def State.replayScales (s : State) (ctx : Nat) : State :=
  let bytes := (s.capsulePart (4096 * s.fld F.EXC_REPLAY_ADDR_ADDR ctx) 1).getD []
  let blocks := (s.trackedTensors ctx).flatMap fun t => (List.range (s.desc ctx t 12 4)).map fun b => (t, b)
  (blocks.zip bytes).foldl (fun (s : State) x =>
    let a := s.entryAddr ctx x.1.1 x.1.2
    let flags := s.scale ctx x.1.1 x.1.2 17 1
    let s := if x.2 = 0x80 then s.devWrite (a + 17) (leBytes 1 (flags ||| 1))
      else s.devWrite (a + 16) (x.2 :: leBytes 1 (flags - flags % 2))
    s.devWrite (a + 28) (leBytes 4 (crc32c (s.devRead a 28)))) s

-- # Working copies (R285, R412)

/-- The shards to refresh at an open: the stale ones, and at the open that applies a round the fetched ones of exchanged tensors. -/
def State.staleShards (s : State) (ctx step : Nat) : List Shard :=
  let applies := (s.appliedAt ctx step).isSome
  (s.shards ctx).filter fun x => x.stale || (applies && x.exchanged && !s.owns x && !s.mirrors x)

/-- Refresh the working copies: owned and mirrored ones from the master, fetched ones with what the owner has sent. -/
def State.refresh (s : State) (ctx : Nat) (l : List Shard) (fetched : List (Nat × List Byte)) : State :=
  let s := s.each l fun x s =>
    let s := if s.owns x || s.mirrors x then s.derive x
      else match fetched.find? fun f => f.1 == x.num with
        | some f => s.devWrite x.work (f.2.take (x.elems * x.workWidth))
        | none => s
    s.setShardFlags x (x.flags - (x.flags &&& 4))
  let s := s.setFld F.UPD_STATE_STALE_LAST ctx (min l.length 0xFFFF)
  s.when (!l.isEmpty) fun s => s.raise (.context ctx) 0x0603 0 0 l.length

-- # The open (R242, R303, R317)

/-- The schedule table that the step brings into force: the one that UPD_CROZ_BASE names, if it is valid. The first step after a cold reset
validates it. -/
def State.takeCroz (s : State) (ctx : Nat) : State :=
  let base := s.stagedFld F.UPD_CROZ_BASE_ADDR ctx .base * 64
  let s := if (s.beganAt crozFirst ctx).isNone then (s.beginAt crozFirst ctx).crozValidate ctx base base else s
  match NMap.get? (NMap.getD s.crozValid ctx []) base with
  | some tb => { s with croz := NMap.set s.croz ctx tb }
  | none => s

/-- The values that a step takes at its open. -/
def State.openedStep (s : State) (l : Launch) (p : Program) (replay : Option Replay) : Step :=
  let t := s.shardTable l.ctx
  { queue := l.queue, cmd := l.cmd, handle := l.handle, index := l.step, jobSeed := l.jobSeed
    epoch := s.fld F.HIF_EPOCH_STATUS_ADOPTED_MIN 0, shardBase := t.1, shardCount := t.2
    limit := s.stagedFld F.UPD_NORM_CFG_LIMIT l.ctx .base, clip := s.stagedFld F.UPD_NORM_CFG_CLIP l.ctx .base
    skipLimit := s.stagedFld F.UPD_SKIP_CFG_LIMIT l.ctx .base, croz := NMap.get? s.croz l.ctx
    beta1 := s.stagedFld F.UPD_CROZ_BETA_BETA1 l.ctx .base, beta2 := s.stagedFld F.UPD_CROZ_BETA_BETA2 l.ctx .base
    opened := s.now, locals := [], finalised := [], handed := [], received := [], intakes := [], waiting := [], decision := none, mirror := none
    started := [], updated := [], digests := [], activity := [], coldBlocks := 0, intervened := false, adopted := false
    scales := s.scaleBytes l.ctx, layout := s.layoutDigest l.ctx, argDigest := crc64 (s.devRead l.argAddr l.argLen)
    samples := s.currentSamples l.ctx, replay := replay, inputs := s.inputBytes p, finals := [], lost := [], tied := [], broken := false }

/-- What the open of a step reads passes through the caches: the shard table, the descriptors with the scale entries, the argument block, the
inputs, and the capsule of an armed replay. -/
def State.readForOpen (s : State) (l : Launch) (p : Program) : State :=
  let t := s.shardTable l.ctx
  let s := ((s.touch t.1 (64 * t.2)).touch (s.descAddr l.ctx 0) (192 * s.fld F.NUM_TENSOR_COUNT_COUNT l.ctx)).touch l.argAddr l.argLen
  let s := s.each (s.trackedTensors l.ctx) fun t s => s.touch (s.desc l.ctx t 16 8) (32 * s.desc l.ctx t 12 4)
  let s := s.each (Config.inputTensors p.key) fun x s => s.touch x.2.1 x.2.2
  s.when (s.flag F.EXC_REPLAY_CTL_ARM l.ctx) fun s =>
    let a := 4096 * s.fld F.EXC_REPLAY_ADDR_ADDR l.ctx
    (s.touch a 256).each (List.range (min 7 (s.devNat (a + 30) 2))) fun i s =>
      s.touch (a + s.devNat (a + 128 + 16 * i + 4) 4) (s.devNat (a + 128 + 16 * i + 8) 4)

/-- Open the step of a launch, all waits over. Its tiles' phase timers begin, in phase WAIT with the wait for a round's apply and its passes
(R266, R411). -/
def State.openStep (s : State) (l : Launch) (p : Program) (fetched : List (Nat × List Byte)) (replay : Bool) : State :=
  let s := s.readForOpen l p
  let s := s.refresh l.ctx (s.staleShards l.ctx l.step) fetched
  let s := (s.takeCroz l.ctx).openArenas l.ctx p.image p.key
  let rep := if replay then some (s.replayOf l.ctx) else none
  let s := s.when replay fun s => (s.replayScales l.ctx).setFld F.EXC_REPLAY_CTL_ARM l.ctx 0
  let s := { s with steps := NMap.set s.steps l.ctx (s.openedStep l p rep) }
  let s := s.modLaunch l.queue l.cmd fun l => { l with opened := true, replay := replay }
  let from_ := if s.xOn l.ctx then (s.xchOf l.ctx).waitSince.getD s.now else s.now
  let s := s.each l.tiles fun t s => s.modTile t fun x => { x with since := from_, phaseNs := [] }
  let s := s.when (s.xOn l.ctx) fun s => s.modXch l.ctx fun x => { x with waitSince := none, stalled := false }
  let s := (s.setFld F.EXC_STEP_STATE_OPEN l.ctx 1).setFld F.EXC_STEP_INDEX_STEP l.ctx l.step
  s.setFld F.UPD_DECISION_VALID l.ctx 0

/-- The device opens no step: it waits for a fault, an orphan hold, an activation, a checkpoint, CONTINUE. -/
def State.opensNone (s : State) (ctx : Nat) : Bool :=
  !s.dispatches || s.ckptDue.contains ctx || (s.flag F.PAIR_CTX_STATE_HELD ctx && !s.flag F.EXC_REPLAY_CTL_ARM ctx)

/-- The round that the open applies is still to be applied (R411). -/
def State.applyPending (s : State) (ctx step : Nat) : Bool :=
  match s.appliedAt ctx step with
  | none => false
  | some r => !(roundField (s.fld F.XCH_ROUND_LAST_APPLIED ctx)).any fun a => decide (r ≤ a)

/-- STEP_OPEN: a launch of a step program opens its step, or ends without running; `fetched` holds the working copies that the owners of
stale fetched shards have sent. -/
def execStepOpen (q : Fin 65536) (c : Nat) (fetched : List (BitVec 24 × List Byte)) (s : State) : Answer :=
  match s.launch? q c with
  | none => .next s
  | some l =>
    if !l.isStep || l.opened || s.opensNone l.ctx || (NMap.get? s.steps l.ctx).isSome then .next s
    else match s.program? l.ctx l.handle with
      | none => .next s
      | some p =>
        let armed := s.flag F.EXC_REPLAY_CTL_ARM l.ctx
        let stop' (s : State) : State := (s.closeLaunch l St.badCommand).finishFree q c St.badCommand 3
        let got := fetched.map fun f => (f.1.toNat, f.2)
        if armed && s.replayRefused l then
          .next (stop' ((s.setFld F.EXC_REPLAY_CTL_ARM l.ctx 0).showReplay l.ctx 4 0 0))
        else match s.tableFault l.ctx p with
          | some (i, why) => .next (stop' (s.raise (.context l.ctx) 0x0609 2 i why))
          | none =>
            if s.applyPending l.ctx l.step then
              .next (s.modXch l.ctx fun x => { x with waitSince := x.waitSince.orElse fun _ => some s.now })
            else if (s.staleShards l.ctx l.step).all fun x => s.owns x || s.mirrors x ||
                got.any fun f => f.1 == x.num && decide (x.elems * x.workWidth ≤ f.2.length) then
              .next (s.openStep l p got armed)
            else .next s

end Sys2Proof.Machine
end

