-- ==== Sys2Proof/Machine/Dispatch.lean ====
section
/-! DEFINITION. The meaning of every command: one arm for each constructor of Instr, each one direct call of that
command's own definition. -/

namespace Sys2Proof.Machine

def exec (i : Instr) (s : State) : Host.Outcome State Fault Refusal :=
  match i with
  | .registerWrite fn offset half value => Sys2Proof.Machine.execRegisterWrite fn offset half value s
  | .hifBlockedClear fn => Sys2Proof.Machine.execHifBlockedClear fn s
  | .hostBar4Access fn offset op errs => Sys2Proof.Machine.execHostBar4Access fn offset op errs s
  | .sqTailWrite fn q tail => Sys2Proof.Machine.execSqTailWrite fn q tail s
  | .cqHeadWrite fn q head => Sys2Proof.Machine.execCqHeadWrite fn q head s
  | .submissionFetch => Sys2Proof.Machine.execSubmissionFetch s
  | .commandStart q => Sys2Proof.Machine.execCommandStart q s
  | .completionRecordWrite q => Sys2Proof.Machine.execCompletionRecordWrite q s
  | .msixUnmask fn vector => Sys2Proof.Machine.execMsixUnmask fn vector s
  | .deadlineExpiry q c => Sys2Proof.Machine.execDeadlineExpiry q c s
  | .abortPoint q c units => Sys2Proof.Machine.execAbortPoint q c units s
  | .nop q c => Sys2Proof.Machine.execNop q c s
  | .loadProgram q c => Sys2Proof.Machine.execLoadProgram q c s
  | .loadProgramComplete q c => Sys2Proof.Machine.execLoadProgramComplete q c s
  | .unloadProgram q c => Sys2Proof.Machine.execUnloadProgram q c s
  | .launch q c => Sys2Proof.Machine.execLaunch q c s
  | .launchComplete q c => Sys2Proof.Machine.execLaunchComplete q c s
  | .dmaCopy q c => Sys2Proof.Machine.execDmaCopy q c s
  | .dmaFill q c => Sys2Proof.Machine.execDmaFill q c s
  | .hostDmaComplete q e => Sys2Proof.Machine.execHostDmaComplete q e s
  | .syncSignal q c => Sys2Proof.Machine.execSyncSignal q c s
  | .syncWait q c => Sys2Proof.Machine.execSyncWait q c s
  | .abort q c => Sys2Proof.Machine.execAbort q c s
  | .contextEnable fn ctx value => Sys2Proof.Machine.execContextEnable fn ctx value s
  | .contextReset fn ctx => Sys2Proof.Machine.execContextReset fn ctx s
  | .functionLevelReset fn => Sys2Proof.Machine.execFunctionLevelReset fn s
  | .contextResetDone ctx => Sys2Proof.Machine.execContextResetDone ctx s
  | .queueEnable fn q value => Sys2Proof.Machine.execQueueEnable fn q value s
  | .queueDisable fn q value => Sys2Proof.Machine.execQueueDisable fn q value s
  | .queueDrainDone q => Sys2Proof.Machine.execQueueDrainDone q s
  | .epochCommit fn => Sys2Proof.Machine.execEpochCommit fn s
  | .epochAdopt unit inst => Sys2Proof.Machine.execEpochAdopt unit inst s
  | .driverHeartbeat fn => Sys2Proof.Machine.execDriverHeartbeat fn s
  | .eventRingEnable fn value => Sys2Proof.Machine.execEventRingEnable fn value s
  | .eventRingHeadWrite fn head => Sys2Proof.Machine.execEventRingHeadWrite fn head s
  | .slotNop h => Sys2Proof.Machine.execSlotNop h s
  | .mma h o => Sys2Proof.Machine.execMma h o s
  | .mmax h o => Sys2Proof.Machine.execMmax h o s
  | .mmin h o => Sys2Proof.Machine.execMmin h o s
  | .matrixOpComplete tile acc => Sys2Proof.Machine.execMatrixOpComplete tile acc s
  | .aclr h acc => Sys2Proof.Machine.execAclr h acc s
  | .acst h o => Sys2Proof.Machine.execAcst h o s
  | .acld h o => Sys2Proof.Machine.execAcld h o s
  | .acrv h acc vd row => Sys2Proof.Machine.execAcrv h acc vd row s
  | .vrac h acc va row => Sys2Proof.Machine.execVrac h acc va row s
  | .vadd h o => Sys2Proof.Machine.execVadd h o s
  | .vsub h o => Sys2Proof.Machine.execVsub h o s
  | .vmul h o => Sys2Proof.Machine.execVmul h o s
  | .vfma h o => Sys2Proof.Machine.execVfma h o s
  | .vfms h o => Sys2Proof.Machine.execVfms h o s
  | .vmax h o => Sys2Proof.Machine.execVmax h o s
  | .vmin h o => Sys2Proof.Machine.execVmin h o s
  | .vabs h o => Sys2Proof.Machine.execVabs h o s
  | .vneg h o => Sys2Proof.Machine.execVneg h o s
  | .vrcp h o => Sys2Proof.Machine.execVrcp h o s
  | .vrsq h o => Sys2Proof.Machine.execVrsq h o s
  | .vexp2 h o => Sys2Proof.Machine.execVexp2 h o s
  | .vlog2 h o => Sys2Proof.Machine.execVlog2 h o s
  | .vsqrt h o => Sys2Proof.Machine.execVsqrt h o s
  | .vscal h o => Sys2Proof.Machine.execVscal h o s
  | .vand h o => Sys2Proof.Machine.execVand h o s
  | .vor h o => Sys2Proof.Machine.execVor h o s
  | .vxor h o => Sys2Proof.Machine.execVxor h o s
  | .vshl h o => Sys2Proof.Machine.execVshl h o s
  | .vshr h o => Sys2Proof.Machine.execVshr h o s
  | .vsra h o => Sys2Proof.Machine.execVsra h o s
  | .viadd h o => Sys2Proof.Machine.execViadd h o s
  | .visub h o => Sys2Proof.Machine.execVisub h o s
  | .vcmp h o => Sys2Proof.Machine.execVcmp h o s
  | .vsel h o => Sys2Proof.Machine.execVsel h o s
  | .vred h o => Sys2Proof.Machine.execVred h o s
  | .vbc h o => Sys2Proof.Machine.execVbc h o s
  | .vext h o => Sys2Proof.Machine.execVext h o s
  | .vperm h o => Sys2Proof.Machine.execVperm h o s
  | .vcvt h o => Sys2Proof.Machine.execVcvt h o s
  | .vld h vd sb off => Sys2Proof.Machine.execVld h vd sb off s
  | .vst h vs sb off => Sys2Proof.Machine.execVst h vs sb off s
  | .sld h sd sb off => Sys2Proof.Machine.execSld h sd sb off s
  | .sst h ss sb off => Sys2Proof.Machine.execSst h ss sb off s
  | .dma h o => Sys2Proof.Machine.execDma h o s
  | .dma2 h o => Sys2Proof.Machine.execDma2 h o s
  | .dmaComplete id errs => Sys2Proof.Machine.execDmaComplete id errs s
  | .blockReread id block => Sys2Proof.Machine.execBlockReread id block s
  | .reduceScatter h sd sv => Sys2Proof.Machine.execReduceScatter h sd sv s
  | .allGather h sd sv => Sys2Proof.Machine.execAllGather h sd sv s
  | .allReduce h sd sv => Sys2Proof.Machine.execAllReduce h sd sv s
  | .norm h sd sv => Sys2Proof.Machine.execNorm h sd sv s
  | .broadcast h sd sv => Sys2Proof.Machine.execBroadcast h sd sv s
  | .shift h sd sv => Sys2Proof.Machine.execShift h sd sv s
  | .collComplete id e => Sys2Proof.Machine.execCollComplete id e s
  | .sadd h sd sa sb => Sys2Proof.Machine.execSadd h sd sa sb s
  | .ssub h sd sa sb => Sys2Proof.Machine.execSsub h sd sa sb s
  | .smul h sd sa sb => Sys2Proof.Machine.execSmul h sd sa sb s
  | .sand h sd sa sb => Sys2Proof.Machine.execSand h sd sa sb s
  | .sor h sd sa sb => Sys2Proof.Machine.execSor h sd sa sb s
  | .sxor h sd sa sb => Sys2Proof.Machine.execSxor h sd sa sb s
  | .sshl h sd sa sb => Sys2Proof.Machine.execSshl h sd sa sb s
  | .sshr h sd sa sb => Sys2Proof.Machine.execSshr h sd sa sb s
  | .ssra h sd sa sb => Sys2Proof.Machine.execSsra h sd sa sb s
  | .slt h sd sa sb => Sys2Proof.Machine.execSlt h sd sa sb s
  | .sltu h sd sa sb => Sys2Proof.Machine.execSltu h sd sa sb s
  | .smin h sd sa sb => Sys2Proof.Machine.execSmin h sd sa sb s
  | .smax h sd sa sb => Sys2Proof.Machine.execSmax h sd sa sb s
  | .saddi h sd sa imm => Sys2Proof.Machine.execSaddi h sd sa imm s
  | .sins h sd quarter imm => Sys2Proof.Machine.execSins h sd quarter imm s
  | .scmp h pd cnd sa sb => Sys2Proof.Machine.execScmp h pd cnd sa sb s
  | .plog h pd pa pb opn => Sys2Proof.Machine.execPlog h pd pa pb opn s
  | .srd h sd idx => Sys2Proof.Machine.execSrd h sd idx s
  | .br h off => Sys2Proof.Machine.execBr h off s
  | .loop h sc off => Sys2Proof.Machine.execLoop h sc off s
  | .call h off => Sys2Proof.Machine.execCall h off s
  | .jr h sa => Sys2Proof.Machine.execJr h sa s
  | .endTile h => Sys2Proof.Machine.execEndTile h s
  | .sig h si sn => Sys2Proof.Machine.execSig h si sn s
  | .wait h si sn => Sys2Proof.Machine.execWait h si sn s
  | .waitt h pd si sn sto => Sys2Proof.Machine.execWaitt h pd si sn sto s
  | .waittTimeout tile => Sys2Proof.Machine.execWaittTimeout tile s
  | .bar h si se => Sys2Proof.Machine.execBar h si se s
  | .barrierLeave tile ctx vid => Sys2Proof.Machine.execBarrierLeave tile ctx vid s
  | .defq h sd sh => Sys2Proof.Machine.execDefq h sd sh s
  | .deferredYield tile => Sys2Proof.Machine.execDeferredYield tile s
  | .codePageRefetch tile => Sys2Proof.Machine.execCodePageRefetch tile s
  | .ld o => Sys2Proof.Machine.execLd o s
  | .st o => Sys2Proof.Machine.execSt o s
  | .ldm o => Sys2Proof.Machine.execLdm o s
  | .stm o => Sys2Proof.Machine.execStm o s
  | .ldv o => Sys2Proof.Machine.execLdv o s
  | .wadd o => Sys2Proof.Machine.execWadd o s
  | .wmul o => Sys2Proof.Machine.execWmul o s
  | .wtof o => Sys2Proof.Machine.execWtof o s
  | .add o => Sys2Proof.Machine.execAdd o s
  | .sub o => Sys2Proof.Machine.execSub o s
  | .mul o => Sys2Proof.Machine.execMul o s
  | .fma o => Sys2Proof.Machine.execFma o s
  | .fms o => Sys2Proof.Machine.execFms o s
  | .div o => Sys2Proof.Machine.execDiv o s
  | .max o => Sys2Proof.Machine.execMax o s
  | .min o => Sys2Proof.Machine.execMin o s
  | .abs o => Sys2Proof.Machine.execAbs o s
  | .neg o => Sys2Proof.Machine.execNeg o s
  | .sqrt o => Sys2Proof.Machine.execSqrt o s
  | .rsq o => Sys2Proof.Machine.execRsq o s
  | .rcp o => Sys2Proof.Machine.execRcp o s
  | .exp2 o => Sys2Proof.Machine.execExp2 o s
  | .log2 o => Sys2Proof.Machine.execLog2 o s
  | .csgn o => Sys2Proof.Machine.execCsgn o s
  | .cmp o => Sys2Proof.Machine.execCmp o s
  | .sel o => Sys2Proof.Machine.execSel o s
  | .engineNop o => Sys2Proof.Machine.execEngineNop o s
  | .create fn ctx vid rsv => Sys2Proof.Machine.execCreate fn ctx vid rsv s
  | .destroy fn ctx vid rsv => Sys2Proof.Machine.execDestroy fn ctx vid rsv s
  | .read fn ctx vid rsv => Sys2Proof.Machine.execRead fn ctx vid rsv s
  | .watch fn ctx vid rsv => Sys2Proof.Machine.execWatch fn ctx vid rsv s
  | .unwatch fn ctx vid rsv => Sys2Proof.Machine.execUnwatch fn ctx vid rsv s
  | .trace fn ctx vid rsv => Sys2Proof.Machine.execTrace fn ctx vid rsv s
  | .dbgSet fn ctx vid rsv => Sys2Proof.Machine.execDbgSet fn ctx vid rsv s
  | .dbgRelease fn ctx vid rsv => Sys2Proof.Machine.execDbgRelease fn ctx vid rsv s
  | .dbgEpoch fn ctx vid rsv => Sys2Proof.Machine.execDbgEpoch fn ctx vid rsv s
  | .dbgClear fn ctx vid rsv => Sys2Proof.Machine.execDbgClear fn ctx vid rsv s
  | .dbgHold fn ctx vid rsv => Sys2Proof.Machine.execDbgHold fn ctx vid rsv s
  | .synOpComplete fn => Sys2Proof.Machine.execSynOpComplete fn s
  | .coreIncrement core ctx vid inc => Sys2Proof.Machine.execCoreIncrement core ctx vid inc s
  | .synDbgCtlWrite fn ctx value => Sys2Proof.Machine.execSynDbgCtlWrite fn ctx value s
  | .notifyRingEnable fn ctx value => Sys2Proof.Machine.execNotifyRingEnable fn ctx value s
  | .notifyRingHeadWrite fn ctx head => Sys2Proof.Machine.execNotifyRingHeadWrite fn ctx head s
  | .numRecordClear fn ctx => Sys2Proof.Machine.execNumRecordClear fn ctx s
  | .tensorRegister fn ctx tid => Sys2Proof.Machine.execTensorRegister fn ctx tid s
  | .tensorRegisterDone ctx => Sys2Proof.Machine.execTensorRegisterDone ctx s
  | .stepOpen q c fetched => Sys2Proof.Machine.execStepOpen q c fetched s
  | .replayArm fn ctx => Sys2Proof.Machine.execReplayArm fn ctx s
  | .decisionRecord ctx step sum norm kappa reason => Sys2Proof.Machine.execDecisionRecord ctx step sum norm kappa reason s
  | .updateStart eng ctx shard => Sys2Proof.Machine.execUpdateStart eng ctx shard s
  | .enginePassComplete eng => Sys2Proof.Machine.execEnginePassComplete eng s
  | .formPass eng ctx shard => Sys2Proof.Machine.execFormPass eng ctx shard s
  | .checkpointGo fn ctx => Sys2Proof.Machine.execCheckpointGo fn ctx s
  | .checkpointWrite ctx => Sys2Proof.Machine.execCheckpointWrite ctx s
  | .checkpointDone ctx => Sys2Proof.Machine.execCheckpointDone ctx s
  | .restore fn ctx => Sys2Proof.Machine.execRestore fn ctx s
  | .restoreDone ctx => Sys2Proof.Machine.execRestoreDone ctx s
  | .regionConfig fn value => Sys2Proof.Machine.execRegionConfig fn value s
  | .calSlice ch pc => Sys2Proof.Machine.execCalSlice ch pc s
  | .calSliceDone ch pins margin last => Sys2Proof.Machine.execCalSliceDone ch pins margin last s
  | .channelRetire fn ch => Sys2Proof.Machine.execChannelRetire fn ch s
  | .clearCounts fn ch => Sys2Proof.Machine.execClearCounts fn ch s
  | .migrationSlotMove st errs => Sys2Proof.Machine.execMigrationSlotMove st errs s
  | .scrubRead ch slot word errs => Sys2Proof.Machine.execScrubRead ch slot word errs s
  | .channelNoResponse ch => Sys2Proof.Machine.execChannelNoResponse ch s
  | .dieLinkRetry l again => Sys2Proof.Machine.execDieLinkRetry l again s
  | .memThrottleTick st tMax tBase => Sys2Proof.Machine.execMemThrottleTick st tMax tBase s
  | .dieThrottleUpdate d tj => Sys2Proof.Machine.execDieThrottleUpdate d tj s
  | .supplyDroop rail => Sys2Proof.Machine.execSupplyDroop rail s
  | .railUndervolt rail => Sys2Proof.Machine.execRailUndervolt rail s
  | .flitData port t h payload => Sys2Proof.Machine.execFlitData port t h payload s
  | .flitCtrl port t h payload => Sys2Proof.Machine.execFlitCtrl port t h payload s
  | .flitTime port t replayed t1 t3 t4 => Sys2Proof.Machine.execFlitTime port t replayed t1 t3 t4 s
  | .flitDiscover port t id peer dx dy dz => Sys2Proof.Machine.execFlitDiscover port t id peer dx dy dz s
  | .flitLink port t vc n => Sys2Proof.Machine.execFlitLink port t vc n s
  | .flitIdle port t => Sys2Proof.Machine.execFlitIdle port t s
  | .linkSilenceTimeout port => Sys2Proof.Machine.execLinkSilenceTimeout port s
  | .linkTrainDone port loss trains => Sys2Proof.Machine.execLinkTrainDone port loss trains s
  | .linkTrainRetry port => Sys2Proof.Machine.execLinkTrainRetry port s
  | .timeFlitSend port => Sys2Proof.Machine.execTimeFlitSend port s
  | .timeMasterTimeout => Sys2Proof.Machine.execTimeMasterTimeout s
  | .ppsEdge => Sys2Proof.Machine.execPpsEdge s
  | .ppsTimeout => Sys2Proof.Machine.execPpsTimeout s
  | .vsbBypLoss => Sys2Proof.Machine.execVsbBypLoss s
  | .vsbBypPresent => Sys2Proof.Machine.execVsbBypPresent s
  | .bypassRelease fn mask => Sys2Proof.Machine.execBypassRelease fn mask s
  | .bypassClose fn mask => Sys2Proof.Machine.execBypassClose fn mask s
  | .retrain fn port => Sys2Proof.Machine.execRetrain fn port s
  | .portDisable fn port on => Sys2Proof.Machine.execPortDisable fn port on s
  | .collStallTimeout ctx tag => Sys2Proof.Machine.execCollStallTimeout ctx tag s
  | .memberRewrite ctx group rank dev => Sys2Proof.Machine.execMemberRewrite ctx group rank dev s
  | .xchEnable fn ctx value => Sys2Proof.Machine.execXchEnable fn ctx value s
  | .roundCode ctx lost => Sys2Proof.Machine.execRoundCode ctx lost s
  | .sealSend ctx round site => Sys2Proof.Machine.execSealSend ctx round site s
  | .gatewayItemReceive ctx dev site rep kind dst bytes => Sys2Proof.Machine.execGatewayItemReceive ctx dev site rep kind dst bytes s
  | .gatewayCredit ctx gw => Sys2Proof.Machine.execGatewayCredit ctx gw s
  | .pathAnnounce ctx gw site up => Sys2Proof.Machine.execPathAnnounce ctx gw site up s
  | .sorediumReceive ctx bytes => Sys2Proof.Machine.execSorediumReceive ctx bytes s
  | .sealReceive ctx body => Sys2Proof.Machine.execSealReceive ctx body s
  | .refetchTimeout ctx site src round => Sys2Proof.Machine.execRefetchTimeout ctx site src round s
  | .refetch ctx frm dev body => Sys2Proof.Machine.execRefetch ctx frm dev body s
  | .gone ctx body => Sys2Proof.Machine.execGone ctx body s
  | .contributionReport ctx dev site round => Sys2Proof.Machine.execContributionReport ctx dev site round s
  | .siteReport ctx body => Sys2Proof.Machine.execSiteReport ctx body s
  | .ledgerDeadline ctx => Sys2Proof.Machine.execLedgerDeadline ctx s
  | .ledgerEntry ctx body => Sys2Proof.Machine.execLedgerEntry ctx body s
  | .provisionalTimeout ctx told => Sys2Proof.Machine.execProvisionalTimeout ctx told s
  | .roundApply ctx => Sys2Proof.Machine.execRoundApply ctx s
  | .applyStallTimer ctx => Sys2Proof.Machine.execApplyStallTimer ctx s
  | .efficiencyReport ctx gw round first all => Sys2Proof.Machine.execEfficiencyReport ctx gw round first all s
  | .snapReq ctx frm dev body => Sys2Proof.Machine.execSnapReq ctx frm dev body s
  | .snapManifest ctx dev role body => Sys2Proof.Machine.execSnapManifest ctx dev role body s
  | .snapChunk ctx dev body => Sys2Proof.Machine.execSnapChunk ctx dev body s
  | .snapshotHoldTimeout ctx => Sys2Proof.Machine.execSnapshotHoldTimeout ctx s
  | .handover fn ctx target => Sys2Proof.Machine.execHandover fn ctx target s
  | .claim fn ctx => Sys2Proof.Machine.execClaim fn ctx s
  | .join fn ctx => Sys2Proof.Machine.execJoin fn ctx s
  | .resume fn ctx => Sys2Proof.Machine.execResume fn ctx s
  | .farPortEnable fn port value => Sys2Proof.Machine.execFarPortEnable fn port value s
  | .farPortUp port => Sys2Proof.Machine.execFarPortUp port s
  | .farPortDown port remote => Sys2Proof.Machine.execFarPortDown port remote s
  | .dataSegment port frame => Sys2Proof.Machine.execDataSegment port frame s
  | .ackSegment port frame => Sys2Proof.Machine.execAckSegment port frame s
  | .msgSegment port frame => Sys2Proof.Machine.execMsgSegment port frame s
  | .probeSegment port frame => Sys2Proof.Machine.execProbeSegment port frame s
  | .segmentSend ctx path => Sys2Proof.Machine.execSegmentSend ctx path s
  | .ackDelayTimeout ctx path => Sys2Proof.Machine.execAckDelayTimeout ctx path s
  | .rtoTimeout ctx path => Sys2Proof.Machine.execRtoTimeout ctx path s
  | .probeTimer ctx path => Sys2Proof.Machine.execProbeTimer ctx path s
  | .pathDeadTimeout ctx path => Sys2Proof.Machine.execPathDeadTimeout ctx path s
  | .paceInterval ctx path => Sys2Proof.Machine.execPaceInterval ctx path s
  | .bufferFullTimer port => Sys2Proof.Machine.execBufferFullTimer port s
  | .segmentDrop ctx path => Sys2Proof.Machine.execSegmentDrop ctx path s
  | .msgTtlExpiry ctx site gw id => Sys2Proof.Machine.execMsgTtlExpiry ctx site gw id s
  | .keyPhaseSwitch fn ctx path => Sys2Proof.Machine.execKeyPhaseSwitch fn ctx path s
  | .hello order stepping serial dev pos pst => Sys2Proof.Machine.execHello order stepping serial dev pos pst s
  | .helloSend => Sys2Proof.Machine.execHelloSend s
  | .pairTimeout => Sys2Proof.Machine.execPairTimeout s
  | .heartbeatSend => Sys2Proof.Machine.execHeartbeatSend s
  | .heartbeat seq time pst fatal => Sys2Proof.Machine.execHeartbeat seq time pst fatal s
  | .twinSilenceTimeout => Sys2Proof.Machine.execTwinSilenceTimeout s
  | .adoption => Sys2Proof.Machine.execAdoption s
  | .adoptionAnnounce ctx failed adopter replica other drop back => Sys2Proof.Machine.execAdoptionAnnounce ctx failed adopter replica other drop back s
  | .gradient ctx shard grad gexp => Sys2Proof.Machine.execGradient ctx shard grad gexp s
  | .decision ctx step sum norm kappa reason k => Sys2Proof.Machine.execDecision ctx step sum norm kappa reason k s
  | .delta ctx shard round dlt => Sys2Proof.Machine.execDelta ctx shard round dlt s
  | .digest ctx shard of_ first digests marks => Sys2Proof.Machine.execDigest ctx shard of_ first digests marks s
  | .repair ctx shard block bytes => Sys2Proof.Machine.execRepair ctx shard block bytes s
  | .copy ctx shard block bytes => Sys2Proof.Machine.execCopy ctx shard block bytes s
  | .pairHold => Sys2Proof.Machine.execPairHold s
  | .pairHoldRelease => Sys2Proof.Machine.execPairHoldRelease s
  | .release fn => Sys2Proof.Machine.execRelease fn s
  | .reintegrate fn => Sys2Proof.Machine.execReintegrate fn s
  | .handback fn => Sys2Proof.Machine.execHandback fn s
  | .continueStep fn ctx => Sys2Proof.Machine.execContinueStep fn ctx s
  | .getVersion fn => Sys2Proof.Machine.execGetVersion fn s
  | .telemetry fn => Sys2Proof.Machine.execTelemetry fn s
  | .driverAttach fn => Sys2Proof.Machine.execDriverAttach fn s
  | .driverDetach fn => Sys2Proof.Machine.execDriverDetach fn s
  | .setOrphan fn => Sys2Proof.Machine.execSetOrphan fn s
  | .fwStage fn => Sys2Proof.Machine.execFwStage fn s
  | .fwStageDone readOk => Sys2Proof.Machine.execFwStageDone readOk s
  | .fwActivate fn => Sys2Proof.Machine.execFwActivate fn s
  | .activationClearWait => Sys2Proof.Machine.execActivationClearWait s
  | .activationQuiesced => Sys2Proof.Machine.execActivationQuiesced s
  | .activationQuiesceTimeout => Sys2Proof.Machine.execActivationQuiesceTimeout s
  | .activationDeferTimeout => Sys2Proof.Machine.execActivationDeferTimeout s
  | .activationHealth => Sys2Proof.Machine.execActivationHealth s
  | .coreHealthTimeout core => Sys2Proof.Machine.execCoreHealthTimeout core s
  | .fwQuery fn => Sys2Proof.Machine.execFwQuery fn s
  | .diagRun fn => Sys2Proof.Machine.execDiagRun fn s
  | .diagDone result => Sys2Proof.Machine.execDiagDone result s
  | .driverWatchdogExpiry => Sys2Proof.Machine.execDriverWatchdogExpiry s
  | .orphanTimeout => Sys2Proof.Machine.execOrphanTimeout s
  | .pldmRequest query => Sys2Proof.Machine.execPldmRequest query s
  | .pldmFirmwareUpdate bundle => Sys2Proof.Machine.execPldmFirmwareUpdate bundle s
  | .powerControlPeriod p1 p100 => Sys2Proof.Machine.execPowerControlPeriod p1 p100 s
  | .pmbAlertSample alert rails => Sys2Proof.Machine.execPmbAlertSample alert rails s
  | .pwrBrakeAssert => Sys2Proof.Machine.execPwrBrakeAssert s
  | .pwrBrakeRelease => Sys2Proof.Machine.execPwrBrakeRelease s
  | .vrHotAssert => Sys2Proof.Machine.execVrHotAssert s
  | .vrHotRelease => Sys2Proof.Machine.execVrHotRelease s
  | .thermalTrip source temp => Sys2Proof.Machine.execThermalTrip source temp s
  | .spdmGetVersion => Sys2Proof.Machine.execSpdmGetVersion s
  | .spdmGetCapabilities => Sys2Proof.Machine.execSpdmGetCapabilities s
  | .spdmNegotiateAlgorithms offered => Sys2Proof.Machine.execSpdmNegotiateAlgorithms offered s
  | .spdmGetDigests => Sys2Proof.Machine.execSpdmGetDigests s
  | .spdmGetCertificate slot offset length => Sys2Proof.Machine.execSpdmGetCertificate slot offset length s
  | .spdmChallenge slot nonce => Sys2Proof.Machine.execSpdmChallenge slot nonce s
  | .spdmGetMeasurements index signed nonce => Sys2Proof.Machine.execSpdmGetMeasurements index signed nonce s
  | .spdmKeyExchange slot exchange => Sys2Proof.Machine.execSpdmKeyExchange slot exchange s
  | .spdmFinish session verifies => Sys2Proof.Machine.execSpdmFinish session verifies s
  | .spdmKeyUpdate session => Sys2Proof.Machine.execSpdmKeyUpdate session s
  | .spdmHeartbeat session => Sys2Proof.Machine.execSpdmHeartbeat session s
  | .spdmEndSession session => Sys2Proof.Machine.execSpdmEndSession session s
  | .ideKm session stream tx sub set key => Sys2Proof.Machine.execIdeKm session stream tx sub set key s
  | .ideTlpReceive stream sub set iv aad sealed => Sys2Proof.Machine.execIdeTlpReceive stream sub set iv aad sealed s
  | .keyLoad fn => Sys2Proof.Machine.execKeyLoad fn s
  | .keyErase fn slot => Sys2Proof.Machine.execKeyErase fn slot s
  | .keySlotUpdate => Sys2Proof.Machine.execKeySlotUpdate s
  | .securityAlarm mask corrected link => Sys2Proof.Machine.execSecurityAlarm mask corrected link s
  | .challenge fn => Sys2Proof.Machine.execChallenge fn s
  | .submit fn => Sys2Proof.Machine.execSubmit fn s
  | .close fn => Sys2Proof.Machine.execClose fn s
  | .nonceExpiry => Sys2Proof.Machine.execNonceExpiry s
  | .scopeExpiry scope => Sys2Proof.Machine.execScopeExpiry scope s
  | .idcode => Sys2Proof.Machine.execIdcode s
  | .bypass => Sys2Proof.Machine.execBypass s
  | .samplePreload cells => Sys2Proof.Machine.execSamplePreload cells s
  | .extest => Sys2Proof.Machine.execExtest s
  | .extestPulse => Sys2Proof.Machine.execExtestPulse s
  | .extestTrain => Sys2Proof.Machine.execExtestTrain s
  | .secFa reg value => Sys2Proof.Machine.execSecFa reg value s
  | .pwrGoodRise straps => Sys2Proof.Machine.execPwrGoodRise straps s
  | .pwrGoodFall => Sys2Proof.Machine.execPwrGoodFall s
  | .coldResetAssert => Sys2Proof.Machine.execColdResetAssert s
  | .warmResetAssert => Sys2Proof.Machine.execWarmResetAssert s
  | .perstAssert => Sys2Proof.Machine.execPerstAssert s
  | .pcieHotReset => Sys2Proof.Machine.execPcieHotReset s
  | .warm fn => Sys2Proof.Machine.execWarm fn s
  | .resetRelease => Sys2Proof.Machine.execResetRelease s
  | .stageReached event => Sys2Proof.Machine.execStageReached event s
  | .stageBoundTimeout => Sys2Proof.Machine.execStageBoundTimeout s
  | .recover fn => Sys2Proof.Machine.execRecover fn s
  | .recoveryFetchDone fault => Sys2Proof.Machine.execRecoveryFetchDone fault s
  | .refclkLoss clock => Sys2Proof.Machine.execRefclkLoss clock s
  | .flitBadCrc port => Sys2Proof.Machine.execFlitBadCrc port s
  | .frameDiscard port frame => Sys2Proof.Machine.execFrameDiscard port frame s
  | .hubJunctionTemperature tj => Sys2Proof.Machine.execHubJunctionTemperature tj s

end Sys2Proof.Machine
end

