-- ==== Sys2Proof/Machine/Fetch.lean ====
section
/-! DEFINITION. How the tiles fetch their bundles (R96, R97, R109, R133): the next bundle of a tile that can issue one, read from its store,
as the commands that its slots spell. -/

namespace Sys2Proof.Machine

/-- A tile can take its next bundle, or what is left of one: it runs an opened launch, it has not ended or stopped, nothing holds it, and no
fault of its launch or of the device ends its work (R47, R132, R134). -/
def State.fetches (s : State) (t : Nat) : Bool :=
  let x := s.tile t
  match s.tileLaunch t with
  | none => false
  | some l =>
    l.opened && !x.ended && !x.stopped && !x.ending && x.hold.isNone && !s.flag F.HIF_STATUS_FATAL 0 &&
      !(l.fault.isSome && x.snap.isNone && x.body.isNone)

/-- The OP of the descriptor that a COLL of a tile names: its first byte (R127, Table 11-5). -/
def State.collOp (s : State) (t : Nat) (sd : Fin 32) : Nat :=
  let x := s.tile t
  leNat (s.storeRead t ((x.snap.getD x.core).sreg sd).toNat 1)

/-- Fetch a tile's bundle: the commands of the slots that it has not used wait to be performed; a bundle beyond the bound code, or one that
cannot be decoded, is a decode fault (R109, R133). -/
def State.fetchBundle (s : State) (t : Nat) : State :=
  let x := s.tile t
  match s.tileLaunch t with
  | none => s
  | some l =>
    if l.bundles ≤ x.bundle then s.tileFault t St.badCommand 3
    else match bundleCommands (Fin.ofNat 512 t) (bundleOf (s.storeRead t (codeBase l.key + 32 * x.bundle) 32)) (s.collOp t) x.used with
      | none => s.tileFault t St.badCommand 3
      | some cs => { s with pending := s.pending ++ cs }

/-- The first tile, from one on and round, that can take a bundle. -/
def State.nextTile (s : State) (start : Nat) : Option Nat :=
  ((List.range 512).map fun k => (start + k) % 512).find? s.fetches

/-- A tile takes its next bundle, where one can: the turn goes round with device time (log 89). -/
def State.fetchNext (s : State) : State :=
  match s.nextTile s.now with
  | none => s
  | some t => s.fetchBundle t

end Sys2Proof.Machine
end

