-- ==== Sys2Proof/Machine/Step.lean ====
section
/-! DEFINITION. One step of the block: it takes the command at the front of its queue and performs it, or lets device time
advance and a tile fetch where nothing waits. -/

namespace Sys2Proof.Machine

/-- The nanoseconds that pass for one that is corrected: 20,000 while a correction is slewed, at 50 ns per ms; otherwise as many as the frequency
correction gives, which is at most that fast (R43, R392). -/
def Slew.every (w : Slew) : Nat := if w.left = 0 then max 20000 (1000000 / w.freq.natAbs) else 20000

/-- One nanosecond passes: device time goes on by it. While a correction is slewed, or by the frequency correction, one in so many counts twice
where device time is behind and not at all where it is ahead (R43, R392, R393; log 92, log 114). -/
def State.advanceTime (s : State) : State :=
  let w := s.slew
  if w.left = 0 ∧ w.freq = 0 then { s with now := s.now + 1 }
  else if w.ticks + 1 < w.every then { s with now := s.now + 1, slew := { w with ticks := w.ticks + 1 } }
  else if w.left = 0 then
    (if 0 < w.freq then { s with now := s.now + 2, slew := { w with ticks := 0 } } else { s with slew := { w with ticks := 0 } })
  else if 0 < w.left then { s with now := s.now + 2, slew := { w with left := w.left - 1, ticks := 0 } }
  else { s with slew := { w with left := w.left + 1, ticks := 0 } }

/-- One step: the first waiting command's effect on the rest of the state; with none waiting, 1 ns of device time passes, and a tile that can
fetches its next bundle (log 1, log 89). -/
def step (s : State) : Host.Outcome State Fault Refusal :=
  match s.pending with
  | [] => .next s.advanceTime.fetchNext
  | i :: rest => exec i { s with pending := rest }

/-- The state with the command that a word spells at the front of its queue; the state itself where the word spells none. -/
def State.withFetchWord (s : State) (nbits w : Nat) : State :=
  match decodeTableWord nbits w with
  | none => s
  | some i => { s with pending := i :: s.pending }

end Sys2Proof.Machine
end

