-- ==== Sys2Proof/Safety.lean ====
section
/-! DEFINITION. The terms in which claims are stated: the shape of a sound state, when a command is ready to have its effect, and what a
command leaves untouched. -/

namespace Sys2Proof.Machine

-- # The shape of a state

/-- The three byte memories are in their canonical form. -/
def State.memoriesCanonical (s : State) : Prop :=
  Memory.wf s.mem = true ∧ Memory.wf s.host = true ∧ Memory.wf s.store = true

/-- Every byte that the device or the host can read is the same in both states. -/
def State.sameBytes (s t : State) : Prop :=
  (∀ a, t.devByte a = s.devByte a) ∧ (∀ a, memGet t.host a = memGet s.host a) ∧ (∀ a, memGet t.store a = memGet s.store a)

-- # Operations of a slot

/-- An operation of a slot is admitted on its tile, and its guard is on. -/
def State.opens (s : State) (h : SlotHdr) (c : SlotCtx) : Prop := s.openSlot h = .go c ∧ c.on = true

/-- No operation of the bundle has yet written a register (R104). -/
def SlotCtx.mayWrite (c : SlotCtx) (key : Nat) : Prop := c.x.wrote.contains key = false

/-- The tile with a scalar register written. -/
def SlotCtx.withS (c : SlotCtx) (sd : Nat) (v : BitVec 64) : Tile :=
  ({ c.x with core := c.x.core.setS sd v } : Tile).gathers [keyS sd] []

/-- The tile with a predicate register written. -/
def SlotCtx.withP (c : SlotCtx) (pd : Nat) (v : BitVec 256) (effs : List SlotEffect) : Tile :=
  ({ c.x with core := c.x.core.setP pd v } : Tile).gathers [keyP pd] effs

/-- The tile with a vector register written. -/
def SlotCtx.withV (c : SlotCtx) (vd : Nat) (v : BitVec 4096) (effs : List SlotEffect) : Tile :=
  ({ c.x with core := c.x.core.setV vd v } : Tile).gathers [keyV vd] effs

/-- The tile after a lane-wise operation: each active lane takes its result, the first active lane that raised invalid is recorded. -/
def SlotCtx.withLanes (c : SlotCtx) (h : SlotHdr) (o : VOps) (opcode : Nat) (f : Nat → Nat × Bool) : Tile :=
  c.withV o.vd (mergeLanes (c.x.core.vreg o.vd) c.guard (laneBits o.w) (laneCount o.w) fun i => (f i).1)
    (vecEntry h c opcode 1 ((activeLanes c.guard (laneCount o.w)).filter fun i => (f i).2) (fun _ => 0) 0)

/-- The lane of a vector register that a float operation reads, flushed in heritage mode. -/
def SlotCtx.floatLane (c : SlotCtx) (o : VOps) (f : FFmt) (v i : Nat) : Nat :=
  flushed c.her f (lane (c.src.vreg v) (laneBits o.w) i)

/-- The 32-bit lane of a vector register. -/
def SlotCtx.intLane (c : SlotCtx) (v i : Nat) : BitVec 32 := BitVec.ofNat 32 (lane (c.src.vreg v) 32 i)

/-- A branch target lies in the bound code (R109). -/
def SlotCtx.inCode (c : SlotCtx) (target : Int) : Prop := 0 ≤ target ∧ target < c.l.bundles

/-- The tile with a branch taken. -/
def SlotCtx.goes (x : Tile) (keys : List Nat) (target : Int) : Tile := ({ x with target := some target.toNat } : Tile).gathers keys []

/-- The tile-store range of an access is backed and not locked by a transfer or collective in flight (R107, R123). -/
def State.canRead (s : State) (c : SlotCtx) (off n : Nat) : Prop := storeHole c.t off n = none ∧ s.rangeLocked c.t off n = false

/-- The range may be read, and no deferred descriptor locks it against writes (R246). -/
def State.canStore (s : State) (c : SlotCtx) (off n : Nat) : Prop := s.canRead c off n ∧ c.x.readLocked off n = false

/-- The checks of a matrix product let it issue (R105, R107, R111 to R113, R123): its fields, its K, its operands in the tile store, and
its destination set, or with `wide` both sets. -/
def State.canMultiply (s : State) (c : SlotCtx) (o : MmaOps) (wide : Bool) : Prop :=
  let r := c.mmaRun o
  mmaFields c.her o = true ∧ 0 < r.k ∧ r.k ≤ 65536 ∧ r.a.hole c.t = none ∧ r.b.hole c.t = none ∧
  s.rangeLocked c.t r.a.off r.a.bytes = false ∧ s.rangeLocked c.t r.b.off r.b.bytes = false ∧
  c.x.setBusy o.acc = false ∧ (wide = true → c.x.setBusy (!o.acc) = false)

/-- Two register files that differ in a block of cells of one set alone. -/
def TileCore.onlyBlock (old new : TileCore) (set : Bool) (m n : Nat) : Prop :=
  new.s = old.s ∧ new.v = old.v ∧ new.p = old.p ∧ new.seed = old.seed ∧
    ∀ set' i j, i < 64 → j < 64 → set' ≠ set ∨ m ≤ i ∨ n ≤ j → new.cell set' i j = old.cell set' i j

/-- The winner of a cell over the run so far (R203 to R205). -/
def State.winnerAt (s : State) (c : SlotCtx) (o : MmaOps) (isMax : Bool) (i j : Nat) : Winner :=
  let going := c.x.run.filter fun u => u.isMax == isMax && u.acc == o.acc && u.msh == o.msh.val && u.nsh == o.nsh.val
  (winnerOf isMax (o.fmta.val == 0xB) c.her (s.productAt c (c.mmaRun o) i j) (c.mmaRun o).k (going.elim 0 (·.ksum))
    ⟨c.src.cell o.acc i j, c.src.cell (!o.acc) i j, going.isSome⟩).1

/-- A fixed tree over `2 ^ k` values: in each round a value combines with the one half the width above it (R118). -/
def treeFold (g : Nat → Nat → Nat) : Nat → (Nat → Nat) → Nat
  | 0, a => a 0
  | k + 1, a => treeFold g k fun i => g (a i) (a (i + 2 ^ k))

/-- A transfer lies in its context's grants and in backed bytes, its tile has room for it, and nothing locks its tile-store range (R61, R107,
R123, R246). -/
def State.canTransfer (s : State) (c : SlotCtx) (x : Transfer) : Prop :=
  x.comp = false ∧ s.rangesCheck x.ctx x.ranges = .fine ∧ storeHole c.t x.toff x.bytes = none ∧ s.inFlight c.t < 32 ∧ c.writesLocked x = false

/-- A collective's descriptor names an operation that its group can perform, over ranges of device memory that the context holds (R127, R397,
R398). -/
def State.canCollect (s : State) (c : SlotCtx) (d : CollDesc) : Prop :=
  ∃ g, s.firstBeyond (s.groupReads c.t c.l.ctx d.groupNum) = none ∧ s.groupAt c.t c.l.ctx d.groupNum = some g ∧
    let r := g.rankOf s.deviceId
    let rs := d.ranges g r
    r < g.size ∧ (∀ a b, rs = [a, b] → overlap a.1 a.2 b.1 b.2 = false) ∧ (d.flags.testBit 1 = true → s.finalFits c.l.ctx d g r = true) ∧
    (d.op = 6 → g.flags.testBit 0 = true) ∧ (d.op = 5 → d.root < g.size) ∧ s.rangesCheck c.l.ctx rs = .fine ∧
    (∀ x ∈ rs, s.addrKind x.1 = .memory) ∧ s.inFlight c.t < 32

/-- The operations that nothing but their guard decides to perform or to pass over, each with its slot and the registers that it names as
destinations (R102, R104). -/
def guardedOp : Instr → Option (SlotHdr × SlotName × List Nat)
  | .sadd h sd _ _ => some (h, .c, [keyS sd])
  | .ssub h sd _ _ => some (h, .c, [keyS sd])
  | .smul h sd _ _ => some (h, .c, [keyS sd])
  | .sand h sd _ _ => some (h, .c, [keyS sd])
  | .sor h sd _ _ => some (h, .c, [keyS sd])
  | .sxor h sd _ _ => some (h, .c, [keyS sd])
  | .sshl h sd _ _ => some (h, .c, [keyS sd])
  | .sshr h sd _ _ => some (h, .c, [keyS sd])
  | .ssra h sd _ _ => some (h, .c, [keyS sd])
  | .slt h sd _ _ => some (h, .c, [keyS sd])
  | .sltu h sd _ _ => some (h, .c, [keyS sd])
  | .smin h sd _ _ => some (h, .c, [keyS sd])
  | .smax h sd _ _ => some (h, .c, [keyS sd])
  | .saddi h sd _ _ => some (h, .c, [keyS sd])
  | .sins h sd _ _ => some (h, .c, [keyS sd])
  | .scmp h pd _ _ _ => some (h, .c, [keyP pd])
  | .plog h pd _ _ _ => some (h, .c, [keyP pd])
  | .br h _ => some (h, .c, [])
  | .loop h sc _ => some (h, .c, [keyS sc])
  | .call h _ => some (h, .c, [keyS 31])
  | .jr h _ => some (h, .c, [])
  | .sig h _ _ => some (h, .c, [])
  | .vld h vd _ _ => some (h, .l, [keyV vd])
  | .vst h _ _ _ => some (h, .l, [])
  | .sld h sd _ _ => some (h, .l, [keyS sd])
  | .sst h _ _ _ => some (h, .l, [])
  | .aclr h acc => some (h, .m, [keyA acc])
  | _ => none

/-- The operations of the control slot that write one scalar or predicate register, each with the register's key (R104). -/
def soleWriter : Instr → Option (SlotHdr × Nat)
  | .sadd h sd _ _ => some (h, keyS sd)
  | .ssub h sd _ _ => some (h, keyS sd)
  | .smul h sd _ _ => some (h, keyS sd)
  | .sand h sd _ _ => some (h, keyS sd)
  | .sor h sd _ _ => some (h, keyS sd)
  | .sxor h sd _ _ => some (h, keyS sd)
  | .sshl h sd _ _ => some (h, keyS sd)
  | .sshr h sd _ _ => some (h, keyS sd)
  | .ssra h sd _ _ => some (h, keyS sd)
  | .slt h sd _ _ => some (h, keyS sd)
  | .sltu h sd _ _ => some (h, keyS sd)
  | .smin h sd _ _ => some (h, keyS sd)
  | .smax h sd _ _ => some (h, keyS sd)
  | .saddi h sd _ _ => some (h, keyS sd)
  | .sins h sd _ _ => some (h, keyS sd)
  | .srd h sd _ => some (h, keyS sd)
  | .loop h sc _ => some (h, keyS sc)
  | .call h _ => some (h, keyS 31)
  | .scmp h pd _ _ _ => some (h, keyP pd)
  | .plog h pd _ _ _ => some (h, keyP pd)
  | _ => none

-- # The address map and the codec

/-- The regions lie in program-visible memory, and it in the largest stacks (R320 to R322). -/
def State.mapOk (s : State) : Prop :=
  4 * s.localSize + s.affineSize ≤ s.visibleEnd ∧ s.visibleEnd ≤ 98304 * slotsPerChannel

/-- Decode so many blocks of a stream whose plain bytes number `l` (R353, R366). -/
def decodeAll : Nat → List Byte → Nat → Option (List Byte)
  | 0, _, l => if l = 0 then some [] else none
  | n + 1, bs, l =>
    if l = 0 then some []
    else match decodeBlock bs (min blockSize l) with
      | .plain p stored => (decodeAll n (bs.drop stored) (l - p.length)).map (p ++ ·)
      | .damaged _ => none

-- # Host writes and the command window

/-- The registers in which a host write stores its fields and does nothing else. -/
def plainRegs : List RegName :=
  [.HIF_BAR4_BASE, .SYN_ARG0, .SYN_ARG1, .SYN_ARG2, .SYN_OP_STATUS, .EXC_NUM_CFG, .EXC_REPLAY_ADDR, .NUM_JOB_SEED, .UPD_CKPT_STATUS,
    .MEM_SPARE_CFG, .MEM_SCRUB_CFG, .FAB_LINK_CFG, .FAB_COLL_CFG, .XCH_STORE_SIZE, .FAR_PORT_MAC, .FAR_PORT_ADDR_HI, .FAR_PORT_ADDR_LO,
    .FAR_NET_CFG, .FAR_AXT_CFG, .FAR_PACE_CFG, .PAIR_CFG, .PAIR_FAIL, .MBX_STATUS, .MBX_IRQ, .PWR_TRIP, .SEC_KEY_ADDR,
    .SEC_FA_REQ, .BOOT_RESET, .BOOT_RECOV_ADDR, .BOOT_RECOV_LEN]

/-- The state in which a function's command window is busy. -/
def State.window (s : State) (fn : Nat) : State := s.setFld F.SYN_OP_STATUS_BUSY fn 1

/-- A write to SYN_OP starts an operation on an id that lies in the grants of a context of the writing function (R151, R153). -/
def State.windowTakes (s : State) (fn ctx vid : Nat) : Prop :=
  s.reach fn .SYN_OP fn = .go ∧ s.flag F.SYN_OP_STATUS_BUSY fn = false ∧ (s.window fn).ctxFn ctx = fn ∧
    vid < (s.window fn).fld F.QUE_CTX_SYN_IDS ctx

/-- The debugger may intervene in a context (R176). -/
def State.mayIntervene (s : State) (ctx : Nat) : Prop :=
  s.flag F.SYN_DBG_CTL_INTERVENE ctx = true ∧ s.flag F.SYN_DBG_STATUS_SCOPE ctx = true

-- # Far frames

/-- A frame carries a segment of a type for a path of this gateway, and passes every check up to its tag and header (R454, R457, R458, R465); the
path follows its entry. -/
def State.takesSegment (s : State) (port typ : Nat) (frame : List Byte) (ctx i : Nat) (e : PathEntry) (x : Rx) (payload : List Byte) : Prop :=
  let h := segHead x.seg
  s.portUp port = true ∧ s.rxFrame port frame = some x ∧ h.typ = typ ∧ s.rxPath port h = some (ctx, i, e) ∧
    ((s.pathKey e h.phase).bind fun k => openSegment k h x.seg) = some payload ∧ s.segOk h (x.seg.length + x.tail) = true ∧
    s.watchPath ctx i = s

/-- The state in which a received segment has closed what lies below its FLOOR (R470). -/
def State.closedBy (s : State) (ctx i : Nat) (x : Rx) : State := s.modPath ctx i fun p => p.close (segHead x.seg).floor

/-- A sequenced segment is new and lies in its path's window (R472). -/
def Path.takes (p : Path) (psn : Nat) : Prop := psnGap p.cum psn < 2 ^ 21 ∧ p.got.contains psn = false

-- # Mailboxes

/-- A mailbox holds a request of an id that the device serves from a stage on, with a header in order (R520, R522, R525, R530, R568). -/
def State.messageIn (s : State) (fn id stage : Nat) : Prop :=
  s.mbxBusy fn = true ∧ s.headField fn 6 2 = id ∧ stage ≤ s.stage ∧ s.headBad fn = none ∧ s.restarting = false ∧ s.secure.scanned = false

-- # Engines

/-- An engine runs a microprogram over a shard and has an element left (R298). -/
def State.engineRuns (s : State) (k : Nat) (en : Engine) (x : Shard) : Prop :=
  NMap.get? s.engines k = some en ∧ s.shard? en.ctx en.shard = some x ∧ en.kind = .program ∧ en.elem < x.elems

end Sys2Proof.Machine
end

