-- ==== Sys2Proof/Certificates/Slice0/Obligations.lean ====
section
/-! DEFINITION. The statements for the provers. -/

namespace Sys2Proof.Machine

end Sys2Proof.Machine

open Sys2Proof Sys2Proof.Machine

/-- One step takes the command at the front of the queue and performs it on the state with the rest of the queue. With none waiting it lets 1 ns
of device time pass and the next tile fetch its bundle, which is the model's choice (log 1, log 89): device time goes on by 1, where nothing is
left to slew and no frequency correction is kept (R43); the tile's bundle is read from its store and its slots' commands wait (R96, R97). -/
def Obligations.StepTakesFront : Prop :=
  (∀ (s : State) (i : Instr) (rest : List Instr), step { s with pending := i :: rest } = exec i { s with pending := rest }) ∧
  (∀ s : State, s.pending = [] → step s = .next s.advanceTime.fetchNext) ∧
  (∀ s : State,
    (s.slew.left = 0 → s.slew.freq = 0 → s.advanceTime = { s with now := s.now + 1 }) ∧
    (s.now ≤ s.advanceTime.now ∧ s.advanceTime.now ≤ s.now + 2) ∧ s.advanceTime.slew.left.natAbs ≤ s.slew.left.natAbs) ∧
  (∀ s : State,
    ((∀ t, t < 512 → s.fetches t = false) → s.fetchNext = s) ∧
    ∀ (t : Nat) (l : Launch) (cs : List Instr), s.nextTile s.now = some t → s.tileLaunch t = some l → (s.tile t).bundle < l.bundles →
      bundleCommands (Fin.ofNat 512 t) (bundleOf (s.storeRead t (codeBase l.key + 32 * (s.tile t).bundle) 32)) (s.collOp t) (s.tile t).used = some cs →
      s.fetchNext = { s with pending := s.pending ++ cs })

/-- The thirteen scalar operations of the control slot (Table 3-15, R128): each completes and its destination takes the result of the two
sources as the bundle found them. -/
def Obligations.ScalarResults : Prop :=
  ∀ (s : State) (h : SlotHdr) (c : SlotCtx) (sd sa sb : Fin 32),
    s.opens h c → h.slot = .c → c.mayWrite (keyS sd) →
    let a := c.src.sreg sa
    let b := c.src.sreg sb
    let done (v : BitVec 64) : Answer := .next (s.issued h c (c.withS sd v))
    exec (.sadd h sd sa sb) s = done (a + b) ∧
    exec (.ssub h sd sa sb) s = done (a - b) ∧
    exec (.smul h sd sa sb) s = done (a * b) ∧
    exec (.sand h sd sa sb) s = done (a &&& b) ∧
    exec (.sor h sd sa sb) s = done (a ||| b) ∧
    exec (.sxor h sd sa sb) s = done (a ^^^ b) ∧
    exec (.sshl h sd sa sb) s = done (a <<< (b.toNat % 64)) ∧
    exec (.sshr h sd sa sb) s = done (a >>> (b.toNat % 64)) ∧
    exec (.ssra h sd sa sb) s = done (a.sshiftRight (b.toNat % 64)) ∧
    exec (.slt h sd sa sb) s = done (if a.slt b then 1 else 0) ∧
    exec (.sltu h sd sa sb) s = done (if a.ult b then 1 else 0) ∧
    exec (.smin h sd sa sb) s = done (if a.slt b then a else b) ∧
    exec (.smax h sd sa sb) s = done (if a.slt b then b else a)

/-- SADDI, SINS and SRD (Tables 3-15 and 3-16): each completes with the value that its row gives. -/
def Obligations.ScalarImmediates : Prop :=
  ∀ (s : State) (h : SlotHdr) (c : SlotCtx) (sd sa : Fin 32),
    s.opens h c → h.slot = .c → c.mayWrite (keyS sd) →
    let done (v : BitVec 64) : Answer := .next (s.issued h c (c.withS sd v))
    (∀ imm : BitVec 28, exec (.saddi h sd sa imm) s = done (c.src.sreg sa + imm.signExtend 64)) ∧
    (∀ (quarter : Fin 4) (imm : BitVec 16) (v : BitVec 64),
      (∀ k : Nat, k < 64 → v.getLsbD k =
        if 16 * quarter.val ≤ k ∧ k < 16 * quarter.val + 16 then imm.getLsbD (k - 16 * quarter.val) else (c.src.sreg sd).getLsbD k) →
      exec (.sins h sd quarter imm) s = done v) ∧
    exec (.srd h sd 0x00) s = done (BitVec.ofNat 64 s.now) ∧
    exec (.srd h sd 0x01) s = done (BitVec.ofNat 64 h.tile) ∧
    exec (.srd h sd 0x02) s = done (BitVec.ofNat 64 (h.tile / 16)) ∧
    exec (.srd h sd 0x03) s = done (BitVec.ofNat 64 c.l.ctx) ∧
    exec (.srd h sd 0x04) s = done (BitVec.ofNat 64 c.l.step) ∧
    exec (.srd h sd 0x05) s = done (BitVec.ofNat 64 c.l.argAddr) ∧
    exec (.srd h sd 0x06) s = done (BitVec.ofNat 64 c.l.argLen) ∧
    exec (.srd h sd 0x07) s = done (BitVec.ofNat 64 (c.l.tiles.idxOf h.tile.val)) ∧
    exec (.srd h sd 0x08) s = done (BitVec.ofNat 64 c.l.tiles.length) ∧
    exec (.srd h sd 0x09) s = done (BitVec.ofNat 64 (s.adoptedBy .sori (h.tile / 16))) ∧
    exec (.srd h sd 0x0A) s = done (BitVec.ofNat 64 (s.fld F.FAB_ID_ID 0)) ∧
    (∀ idx : BitVec 8, 0x0A < idx.toNat → exec (.srd h sd idx) s = .next (s.tileFault h.tile St.badCommand 3))

/-- SCMP sets or clears all 256 bits of its predicate, PLOG combines two predicates (Table 3-15). -/
def Obligations.PredicateResults : Prop :=
  ∀ (s : State) (h : SlotHdr) (c : SlotCtx) (pd : Fin 8),
    s.opens h c → h.slot = .c → c.mayWrite (keyP pd) →
    let done (v : BitVec 256) : Answer := .next (s.issued h c (c.withP pd v []))
    let all (b : Bool) : Answer := done (if b then BitVec.allOnes 256 else 0#256)
    (∀ sa sb : Fin 32,
      let a := c.src.sreg sa
      let b := c.src.sreg sb
      exec (.scmp h pd 0 sa sb) s = all (a == b) ∧
      exec (.scmp h pd 1 sa sb) s = all (a != b) ∧
      exec (.scmp h pd 2 sa sb) s = all (decide (a.toInt < b.toInt)) ∧
      exec (.scmp h pd 3 sa sb) s = all (decide (a.toInt ≤ b.toInt)) ∧
      exec (.scmp h pd 4 sa sb) s = all (decide (b.toInt < a.toInt)) ∧
      exec (.scmp h pd 5 sa sb) s = all (decide (b.toInt ≤ a.toInt)) ∧
      exec (.scmp h pd 6 sa sb) s = all (decide (a.toNat < b.toNat)) ∧
      exec (.scmp h pd 7 sa sb) s = all (decide (b.toNat ≤ a.toNat))) ∧
    (∀ pa pb : Fin 8,
      let a := c.src.preg pa
      let b := c.src.preg pb
      exec (.plog h pd pa pb 0) s = done (a &&& b) ∧
      exec (.plog h pd pa pb 1) s = done (a ||| b) ∧
      exec (.plog h pd pa pb 2) s = done (a ^^^ b) ∧
      exec (.plog h pd pa pb 3) s = done (a &&& ~~~b))

/-- BR, LOOP, CALL, JR, END, SIG and opcode 0x00 complete (Table 3-15, R98, R109): a branch whose target lies in the bound code sets the
bundle that follows, END ends the tile and SIG signals once the bundle passes. -/
def Obligations.ControlFlow : Prop :=
  ∀ (s : State) (h : SlotHdr) (c : SlotCtx), s.opens h c → h.slot = .c →
    let done (x : Tile) : Answer := .next (s.issued h c x)
    (∀ off : BitVec 24, c.inCode (c.branch off) → exec (.br h off) s = done (SlotCtx.goes c.x [] (c.branch off))) ∧
    (∀ (sc : Fin 32) (off : BitVec 24), c.mayWrite (keyS sc) →
      let v := c.src.sreg sc - 1
      let x : Tile := { c.x with core := c.x.core.setS sc v }
      (v = 0 → exec (.loop h sc off) s = done (c.withS sc v)) ∧
      (v ≠ 0 → c.inCode (c.branch off) → exec (.loop h sc off) s = done (SlotCtx.goes x [keyS sc] (c.branch off)))) ∧
    (∀ off : BitVec 24, c.mayWrite (keyS 31) → c.inCode (c.branch off) →
      exec (.call h off) s =
        done (SlotCtx.goes { c.x with core := c.x.core.setS 31 (BitVec.ofNat 64 (c.x.bundle + 1)) } [keyS 31] (c.branch off))) ∧
    (∀ sa : Fin 32, c.inCode (c.src.sreg sa).toNat → exec (.jr h sa) s = done (SlotCtx.goes c.x [] (c.src.sreg sa).toNat)) ∧
    (c.x.body = none → exec (.endTile h) s = done (c.x.gathers [] [.endTile])) ∧
    (∀ si sn : Fin 32,
      exec (.sig h si sn) s = done (c.x.gathers [] [.signal ((c.src.sreg si).toNat % 65536) (c.src.sreg sn).toNat])) ∧
    exec (.slotNop h) s = done c.x

/-- WAIT, WAITT and BAR (R130, R161, R165): a satisfied wait passes its bundle, one whose target is not reached holds it; WAITT writes its
predicate, and gives up when its timeout is over; a barrier arrival holds its bundle, and a released participant leaves. A wait stands first
in its bundle (log 12). -/
def Obligations.WaitsAndBarriers : Prop :=
  ∀ (s : State) (h : SlotHdr) (c : SlotCtx), s.opens h c → h.slot = .c → (s.tile h.tile).used = [] → s.dropped c.l = false →
    let pass (t : State) (x : Tile) : Answer := .next (t.issued h c x)
    let gone : Tile := { c.x with met := some none, wrote := [] }
    let held (t : State) (k : Hold) : State := (t.setTile h.tile (c.x.holdBy k)).noteHeld h.tile
    let since := (s.tile h.tile).stall.getD s.now
    let who := c.x.waiter h.tile
    (∀ si sn : Fin 32,
      let vid := (c.src.sreg si).toNat % 65536
      let target := (c.src.sreg sn).toNat
      let decides (pd : Fin 8) (b : Bool) : Tile := { c.x with met := some (some (pd, b)), wrote := [keyP pd] }
      let due (sto : Fin 32) : Nat := since + (c.src.sreg sto).toNat % 2 ^ 48
      (∀ t v, s.waitOn c.l.ctx vid target ⟨0, h.tile⟩ who = (t, .satisfied v) →
        exec (.wait h si sn) s = pass t gone ∧
        ∀ pd sto, exec (.waitt h pd si sn sto) s =
          pass t (decides pd (decide ((c.src.sreg sto).toNat % 2 ^ 48 = 0) || decide (s.now ≤ due sto)))) ∧
      (∀ t, s.waitOn c.l.ctx vid target ⟨0, h.tile⟩ who = (t, .held) →
        exec (.wait h si sn) s = .next (held t ⟨.wait, vid, target, 0, since, since, h.last⟩) ∧
        ∀ (pd : Fin 8) (sto : Fin 32),
          (s.now < due sto → exec (.waitt h pd si sn sto) s = .next (held t ⟨.waitt, vid, target, pd, due sto, since, h.last⟩)) ∧
          (due sto ≤ s.now → exec (.waitt h pd si sn sto) s = pass (t.cancelWaits who) (decides pd false)))) ∧
    (∀ si se : Fin 32, c.x.body = none →
      let vid := (c.src.sreg si).toNat % 65536
      ∀ t, (held s ⟨.bar, vid, (c.src.sreg se).toNat, 0, 0, since, h.last⟩).arrive c.l.ctx vid (c.src.sreg se).toNat h.tile = (t, none) →
        exec (.bar h si se) s = .next t)

/-- What happens later to a held tile (R130, R161, R165, R247): a WAITT whose timeout is over is released with its predicate clear, of the main
stream, also while a deferred body runs, and of a body; and a released participant leaves its barrier. -/
def Obligations.HeldTiles : Prop :=
  ∀ (s : State) (tile : Fin 512),
    (∀ k : Hold, (s.tile tile).body = none → (s.tile tile).hold = some k → k.kind = .waitt → k.deadline ≤ s.now →
      exec (.waittTimeout tile) s = .next ((s.cancelWaits (.tile tile)).releaseTile tile false)) ∧
    (∀ (b : Body) (k : Hold), (s.tile tile).body = some b → (s.tile tile).hold = none → b.mainHold = some k → b.mainRel = none →
      k.kind = .waitt → k.deadline ≤ s.now →
      exec (.waittTimeout tile) s = .next ((s.cancelWaits (.tile tile)).releaseTile tile false)) ∧
    (∀ (b : Body) (k : Hold), (s.tile tile).body = some b → (s.tile tile).hold = some k → b.mainHold = none ∨ b.mainRel.isSome = true →
      k.kind = .waitt → k.deadline ≤ s.now →
      exec (.waittTimeout tile) s = .next ((s.cancelWaits (.body tile)).releaseBody tile false)) ∧
    (∀ (ctx : Fin 256) (vid : Fin 65536), exec (.barrierLeave tile ctx vid) s = .next (s.leave ctx vid tile))

/-- DEFQ, the deferred yield and the refetch of a code page (R131, R135, R245 to R248). -/
def Obligations.DeferredQueue : Prop :=
  (∀ (s : State) (h : SlotHdr) (c : SlotCtx) (sd sh : Fin 32) (d : Deferred),
    s.opens h c → h.slot = .c → c.x.body = none → c.x.deferred.length < 64 →
    (c.src.sreg sd).toNat % 32 = 0 → s.canRead c (c.src.sreg sd).toNat 32 →
    Deferred.ofBytes (s.storeRead h.tile (c.src.sreg sd).toNat 32) ((c.src.sreg sh).toNat % 2 ^ 32) = some d →
    exec (.defq h sd sh) s = .next (s.issued h c (c.x.gathers [] [.defq d]))) ∧
  (∀ (s : State) (h : SlotHdr) (c : SlotCtx) (sd sh : Fin 32) (d : Deferred) (rest : List Deferred),
    s.opens h c → h.slot = .c → (s.tile h.tile).body = none → (s.tile h.tile).deferred = d :: rest → rest.length = 63 →
    exec (.defq h sd sh) s = .next (s.startBody h.tile d true)) ∧
  (∀ (s : State) (tile : Fin 512) (l : Launch) (d : Deferred) (rest : List Deferred) (since : Nat),
    s.tileLaunch tile = some l → l.fault = none → (s.tile tile).body = none → (s.tile tile).deferred = d :: rest →
    (∃ k, (s.tile tile).hold = some k ∧ k.since = since) ∨ ((s.tile tile).hold = none ∧ (s.tile tile).stall = some since) →
    (s.tile tile).stopped = false → (s.tile tile).ended = false → s.flag F.HIF_STATUS_FATAL 0 = false →
    let y := F.EXC_STEP_CFG_YIELD_NS.of (s.staged .EXC_STEP_CFG l.ctx .sori (tile / 16))
    y ≠ 0 → since + y ≤ s.now → exec (.deferredYield tile) s = .next (s.startBody tile d false)) ∧
  (∀ (s : State) (tile : Fin 512) (l : Launch), s.tileLaunch tile = some l →
    ((s.tile tile).parity ≠ some (s.tile tile).bundle →
      exec (.codePageRefetch tile) s =
        .next ((s.refetchPage tile l.key (s.tile tile).bundle).setTile tile { s.tile tile with parity := some (s.tile tile).bundle })) ∧
    ((s.tile tile).parity = some (s.tile tile).bundle →
      exec (.codePageRefetch tile) s = .next (s.tileFault tile St.badCommand 3)))

/-- The float operations of the vector slots (Table 3-11, R116, R230, R231, R241): each completes, every active lane taking the correctly
rounded result of its lanes. -/
def Obligations.FloatResults : Prop :=
  ∀ (s : State) (h : SlotHdr) (c : SlotCtx) (o : VOps) (f : FFmt),
    s.openSlot h = .go c → vecSlot h = true → widthFmt o.w = some f → o.mod = 0 → c.mayWrite (keyV o.vd) →
    let a := c.floatLane o f o.va
    let b := c.floatLane o f o.vb
    let d := c.floatLane o f o.vc
    let her := c.her
    let done (opcode : Nat) (r : Nat → Nat × Bool) : Answer := .next (s.issued h c (c.withLanes h o opcode r))
    let one (opcode : Nat) (g : FFmt → Nat → Nat × Bool) : Answer := done opcode fun i => (flushed her f (g f (a i)).1, (g f (a i)).2)
    exec (.vadd h o) s = done 0x01 (fun i => settle f her ((f.decode (a i)).add (f.decode (b i)))) ∧
    exec (.vsub h o) s = done 0x02 (fun i => settle f her ((f.decode (a i)).add (f.decode (b i)).negate)) ∧
    exec (.vmul h o) s = done 0x03 (fun i => settle f her ((f.decode (a i)).mul (f.decode (b i)))) ∧
    exec (.vfma h o) s = done 0x04 (fun i => fFma f her false (a i) (b i) (d i)) ∧
    exec (.vfms h o) s = done 0x05 (fun i => fFma f her true (a i) (b i) (d i)) ∧
    exec (.vmax h o) s = done 0x06 (fun i => fExt true f her (a i) (b i)) ∧
    exec (.vmin h o) s = done 0x07 (fun i => fExt false f her (a i) (b i)) ∧
    exec (.vabs h o) s = one 0x08 fAbs ∧
    exec (.vneg h o) s = one 0x09 fNeg ∧
    exec (.vrcp h o) s = one 0x0A fRcp ∧
    exec (.vrsq h o) s = one 0x0B fRsq ∧
    exec (.vexp2 h o) s = one 0x0C fExp2 ∧
    exec (.vlog2 h o) s = one 0x0D fLog2 ∧
    exec (.vsqrt h o) s = one 0x0E fSqrt

/-- VSCAL and the INT32 operations of the vector slots (Table 3-11, R116): each completes lane by lane. -/
def Obligations.IntegerResults : Prop :=
  ∀ (s : State) (h : SlotHdr) (c : SlotCtx) (o : VOps),
    s.openSlot h = .go c → vecSlot h = true → o.mod = 0 → c.mayWrite (keyV o.vd) →
    let a := c.intLane o.va
    let b := c.intLane o.vb
    let done (opcode : Nat) (r : Nat → BitVec 32) : Answer := .next (s.issued h c (c.withLanes h o opcode fun i => ((r i).toNat, false)))
    (o.w = 3 →
      exec (.vand h o) s = done 0x10 (fun i => a i &&& b i) ∧
      exec (.vor h o) s = done 0x11 (fun i => a i ||| b i) ∧
      exec (.vxor h o) s = done 0x12 (fun i => a i ^^^ b i) ∧
      exec (.vshl h o) s = done 0x13 (fun i => a i <<< ((b i).toNat % 32)) ∧
      exec (.vshr h o) s = done 0x14 (fun i => a i >>> ((b i).toNat % 32)) ∧
      exec (.vsra h o) s = done 0x15 (fun i => (a i).sshiftRight ((b i).toNat % 32)) ∧
      exec (.viadd h o) s = done 0x16 (fun i => a i + b i) ∧
      exec (.visub h o) s = done 0x17 (fun i => a i - b i)) ∧
    (o.w = 0 → ∃ r : Nat → Nat × Bool, exec (.vscal h o) s = .next (s.issued h c (c.withLanes h o 0x0F r)) ∧
      ∀ i g m e, fp32.decode (c.floatLane o fp32 o.va i) = .fin g m e → -4096 ≤ e + (b i).toInt → e + (b i).toInt ≤ 4096 →
        r i = (flushed c.her fp32 (fp32.encode .nearest (.fin g m (e + (b i).toInt))), false))

/-- Selection and movement in the vector slots (Table 3-11, R117): VSEL, VBC, VPERM and VEXT complete with what their rows give. -/
def Obligations.VectorMoves : Prop :=
  ∀ (s : State) (h : SlotHdr) (c : SlotCtx) (o : VOps), s.openSlot h = .go c → vecSlot h = true →
    let w := laneBits o.w
    let done (opcode : Nat) (r : Nat → Nat) : Answer := .next (s.issued h c (c.withLanes h o opcode fun i => (r i, false)))
    (c.mayWrite (keyV o.vd) →
      (o.mod.val % 512 = 0 → exec (.vsel h o) s = done 0x19 fun i =>
        lane (c.src.vreg (if (c.src.preg (o.mod.val / 512)).getLsbD i then o.va else o.vb)) w i) ∧
      (o.mod.val < 32 → exec (.vbc h o) s = done 0x1B fun _ => (c.src.sreg o.mod.val).toNat % 2 ^ w) ∧
      (o.mod = 0 → exec (.vperm h o) s = done 0x1D fun i =>
        lane (c.src.vreg o.va) w (lane (c.src.vreg o.vb) w i % laneCount o.w))) ∧
    (c.on = true → c.mayWrite (keyS (o.mod.val / 128)) →
      exec (.vext h o) s =
        .next (s.issued h c (c.withS (o.mod.val / 128) (BitVec.ofNat 64 (lane (c.src.vreg o.va) 32 (o.mod.val % 128))))))

/-- VCMP, VRED and VCVT complete and write their destination alone (Tables 3-11 to 3-12a, R117 to R122): each active lane of a VCMP takes the
comparison and the other bits of its predicate stay; a VRED without heritage reduces in its fixed tree; a VCVT without heritage to a
destination without MX scales converts each active lane, and the bits above its elements are zero. -/
def Obligations.VectorSummaries : Prop :=
  ∀ (s : State) (h : SlotHdr) (c : SlotCtx), s.openSlot h = .go c → vecSlot h = true →
    (∀ (o : VOps) (f : FFmt), widthFmt o.w = some f → o.mod.val % 64 = 0 → c.mayWrite (keyP (o.mod.val / 512)) →
      ∃ v effs, exec (.vcmp h o) s = .next (s.issued h c (c.withP (o.mod.val / 512) v effs)) ∧
        ∀ i, i < 256 → v.getLsbD i =
          if i < laneCount o.w ∧ c.guard.getLsbD i = true then
            (numCompare (o.mod.val / 64 % 8) (f.decode (c.floatLane o f o.va i)) (f.decode (c.floatLane o f o.vb i))).1
          else (c.x.core.preg (o.mod.val / 512)).getLsbD i) ∧
    (∀ (o : VOps) (f : FFmt), widthFmt o.w = some f → o.mod.val < 4 → c.mayWrite (keyV o.vd) →
      ∃ r effs, exec (.vred h o) s = .next (s.issued h c (c.withV o.vd
        (mergeLanes (c.x.core.vreg o.vd) c.guard (laneBits o.w) (laneCount o.w) fun i => if i = 0 then r else 0) effs)) ∧
        (o.mod.val < 3 → c.her = false →
          (∀ i, i < laneCount o.w → c.guard.getLsbD i = true → (f.decode (lane (c.src.vreg o.va) (laneBits o.w) i)).isSnan = false) →
          r = treeFold (fun x y => (redCombine o.mod.val f false x y).1) (Nat.log2 (laneCount o.w)) fun i =>
            if c.guard.getLsbD i then lane (c.src.vreg o.va) (laneBits o.w) i
            else if o.mod.val = 1 then f.withSign true (f.inf.getD 0) else if o.mod.val = 2 then f.inf.getD 0 else 0)) ∧
    (∀ o : CvtOps, cvtFields c.her o = true → c.mayWrite (keyV o.vd) → ∃ v effs, exec (.vcvt h o) s = .next (s.issued h c (c.withV o.vd v effs)) ∧
      let w := fmtBits o.dfmt.val
      let n := cvtCount o.sfmt.val o.dfmt.val
      (c.her = false → isMx o.dfmt.val = false → ∀ i, i < n → lane v w i =
        if c.guard.getLsbD i then
          let x := (cvtSource (c.src.vreg o.va) o.sfmt.val n i).scale2 (-signedOf 8 (c.src.sreg o.ss).toNat)
          let rm := cvtMode o.rm.val false c.l ((c.src.sreg o.st).toNat % 2 ^ 32) ((c.src.sreg o.se).toNat % 2 ^ 48 + i)
          ((codeFmt o.dfmt.val).elim (cvtInt w o.sat rm x) fun g => cvtFloat o.dfmt.val g rm x).bits % 2 ^ w
        else lane (c.x.core.vreg o.vd) w i) ∧
      (isMx o.dfmt.val = false → ∀ k, w * n ≤ k → v.getLsbD k = false))

/-- MMA, MMAX and MMIN complete (R191, R202, R205): the product's cells take their values at issue, the flight ends later, and its invalid
result sets INV and writes its entry (R201, R239). -/
def Obligations.MatrixProducts : Prop :=
  (∀ (s : State) (h : SlotHdr) (c : SlotCtx) (o : MmaOps), s.opens h c → h.slot = .m → c.mayWrite (keyA o.acc) →
    (s.canMultiply c o false → ∃ (core : TileCore) (entry : Option NumEntry),
      exec (.mma h o) s = .next (s.issued h c
        (({ c.x with core := core, run := none } : Tile).gathers [keyA o.acc] [.mflight ⟨[o.acc], entry⟩])) ∧
      TileCore.onlyBlock c.x.core core o.acc (shapeOf o.msh) (shapeOf o.nsh) ∧
      ∀ i j, i < shapeOf o.msh → j < shapeOf o.nsh → core.cell o.acc i j = (s.mmaCells c o (c.mmaRun o) i j).1 % 2 ^ 32) ∧
    (s.canMultiply c o true → o.z = false → c.x.body = none → c.mayWrite (keyA (!o.acc)) →
      let m := shapeOf o.msh
      let n := shapeOf o.nsh
      let holds (core : TileCore) (isMax : Bool) : Prop :=
        core.s = c.x.core.s ∧ core.v = c.x.core.v ∧ core.p = c.x.core.p ∧
        (∀ set i j, i < 64 → j < 64 → m ≤ i ∨ n ≤ j → core.cell set i j = c.x.core.cell set i j) ∧
        ∀ i j, i < m → j < n → core.cell o.acc i j = (s.winnerAt c o isMax i j).bits % 2 ^ 32 ∧
          core.cell (!o.acc) i j = (s.winnerAt c o isMax i j).index % 2 ^ 32
      (∃ core run entry, exec (.mmax h o) s = .next (s.issued h c
        (({ c.x with core := core, run := some run } : Tile).gathers [keyA o.acc, keyA (!o.acc)] [.mflight ⟨[o.acc, !o.acc], entry⟩])) ∧
        holds core true) ∧
      (∃ core run entry, exec (.mmin h o) s = .next (s.issued h c
        (({ c.x with core := core, run := some run } : Tile).gathers [keyA o.acc, keyA (!o.acc)] [.mflight ⟨[o.acc, !o.acc], entry⟩])) ∧
        holds core false))) ∧
  (∀ (s : State) (tile : Fin 512) (acc : Bool) (sets : List Bool) (rest : List MFlight) (l : Launch),
    s.tileLaunch tile = some l →
    (∀ e, (s.tile tile).flights = ⟨acc :: sets, e⟩ :: rest →
      let t := s.setTile tile { s.tile tile with flights := rest }
      exec (.matrixOpComplete tile acc) s = .next (e.elim t fun x => (t.setInv l.ctx tile acc true).numException l x)))

/-- ACLR, ACST, ACLD, ACRV and VRAC complete and move the accumulator's bits unchanged (R210 to R212). -/
def Obligations.AccumulatorMoves : Prop :=
  ∀ (s : State) (h : SlotHdr) (c : SlotCtx), s.opens h c → h.slot = .m →
    (∀ acc : Bool, c.x.setBusy acc = false → c.mayWrite (keyA acc) → ∃ core : TileCore,
      exec (.aclr h acc) s = .next (s.issued h c (({ c.x with core := core, run := none } : Tile).gathers [keyA acc] [.clearInv acc])) ∧
      TileCore.onlyBlock c.x.core core acc 64 64 ∧ ∀ i j, i < 64 → j < 64 → core.cell acc i j = 0) ∧
    (∀ o : AccOps, o.msh ≠ 3 → o.nsh ≠ 3 → c.x.setBusy o.acc = false →
      let off := (c.src.sreg o.sa).toNat
      let n := 4 * shapeOf o.msh * shapeOf o.nsh
      off % 4 = 0 →
      (s.canStore c off n → exec (.acst h o) s = .next (s.issued h c
        (({ c.x with run := none } : Tile).gathers [] [.store off (c.src.blockBytes o.acc (shapeOf o.msh) (shapeOf o.nsh))]))) ∧
      (s.canRead c off n → c.mayWrite (keyA o.acc) → ∃ core : TileCore,
        exec (.acld h o) s = .next (s.issued h c (({ c.x with core := core, run := none } : Tile).gathers [keyA o.acc] [])) ∧
        TileCore.onlyBlock c.x.core core o.acc (shapeOf o.msh) (shapeOf o.nsh) ∧
        ∀ i j, i < shapeOf o.msh → j < shapeOf o.nsh → core.cell o.acc i j =
          leNat (((s.storeRead h.tile off n).drop (4 * (i * shapeOf o.nsh + j))).take 4))) ∧
    (∀ (acc : Bool) (r row : Fin 64), row.val % 2 = 0 → c.x.setBusy acc = false →
      (c.mayWrite (keyV r) → ∃ v : BitVec 4096,
        exec (.acrv h acc r row) s =
          .next (s.issued h c (({ c.x with core := c.x.core.setV r v, run := none } : Tile).gathers [keyV r] [])) ∧
        ∀ i, i < 128 → lane v 32 i = c.src.cell acc (row + i / 64) (i % 64)) ∧
      (c.mayWrite (keyA acc) → ∃ core : TileCore,
        exec (.vrac h acc r row) s = .next (s.issued h c (({ c.x with core := core, run := none } : Tile).gathers [keyA acc] [])) ∧
        core.s = c.x.core.s ∧ core.v = c.x.core.v ∧ core.p = c.x.core.p ∧
        (∀ set i j, i < 64 → j < 64 → set ≠ acc ∨ (i ≠ row.val ∧ i ≠ row.val + 1) → core.cell set i j = c.x.core.cell set i j) ∧
        ∀ i, i < 128 → core.cell acc (row + i / 64) (i % 64) = lane (c.src.vreg r) 32 i))

/-- VLD, VST, SLD and SST complete at an aligned, backed and unlocked offset (R107, R123). -/
def Obligations.LoadsAndStores : Prop :=
  ∀ (s : State) (h : SlotHdr) (c : SlotCtx) (sb : Fin 32) (off : BitVec 22), s.opens h c → h.slot = .l →
    let a := (c.src.sreg sb + off.setWidth 64).toNat
    let done (x : Tile) : Answer := .next (s.issued h c x)
    (∀ r : Fin 64, a % 64 = 0 →
      (s.canRead c a 512 → c.mayWrite (keyV r) → exec (.vld h r sb off) s = done (c.withV r (ofVbytes (s.storeRead h.tile a 512)) [])) ∧
      (s.canStore c a 512 → exec (.vst h r sb off) s = done (c.x.gathers [] [.store a (vbytes (c.src.vreg r))]))) ∧
    (∀ r : Fin 32, a % 8 = 0 →
      (s.canRead c a 8 → c.mayWrite (keyS r) →
        exec (.sld h r sb off) s = done (c.withS r (BitVec.ofNat 64 (leNat (s.storeRead h.tile a 8))))) ∧
      (s.canStore c a 8 → exec (.sst h r sb off) s = done (c.x.gathers [] [.store a (leBytes 8 (c.src.sreg r).toNat)])))

/-- DMA and DMA2 start a transfer, DMA_COMPLETE moves its bytes and adds 1 to its counter, and a block that fails is read once more (R107,
R124, R125, R366). -/
def Obligations.Transfers : Prop :=
  (∀ (s : State) (h : SlotHdr) (c : SlotCtx) (o : DmaOps), s.opens h c → h.slot = .l → o.stash = false → o.cmp = false →
    (let n := (c.src.sreg o.sl).toNat
     let x := c.transfer o n 1 0
     0 < n → n % 64 = 0 → n ≤ 0x280000 → x.toff % 64 = 0 → x.maddr % 64 = 0 → s.canTransfer c x →
     exec (.dma h o) s = .next (s.issued h c (c.x.gathers [] [.dma x]))) ∧
    (let v := (c.src.sreg o.sl).toNat
     let x := c.transfer o (v % 2 ^ 32) (v / 2 ^ 32 % 2 ^ 20) (c.src.sreg (o.sl + 1)).toNat
     o.sl.val % 2 = 0 → 0 < x.rowLen → 0 < x.rows → x.toff % 64 = 0 → x.maddr % 64 = 0 → s.canTransfer c x →
     exec (.dma2 h o) s = .next (s.issued h c (c.x.gathers [] [.dma x])))) ∧
  (∀ (s : State) (x : Transfer) (errs : List Mishap), (s.transfers.find? fun y => y.id == x.id) = some x → s.transferReady x = true →
    let s0 := s.meets (x.met errs)
    let moved := if x.toMem then s0.moveOut x (errs.filterMap mishapBlock) else s0.moveIn x
    (moved.2 = true → ∀ t v,
      (moved.1.stashRead x).increment x.ctx x.sv 1 ⟨5, x.tile⟩ (.launch x.queue x.cmd x.tile x.bundle) = (t, .applied v) →
      exec (.dmaComplete x.id errs) s = .next { t with transfers := t.transfers.filter fun y => y.id != x.id }) ∧
    (moved.2 = false → exec (.dmaComplete x.id errs) s = .next { moved.1 with transfers := moved.1.transfers.filter fun y => y.id != x.id }) ∧
    (x.toMem = false → x.comp = true → ∀ block, block < ceilDiv x.bytes blockSize →
      let u := s.readStream x
      let r := u.decodeStream x (block + 1) 0 x.maddr []
      r.fail = none → exec (.blockReread x.id block) s =
        .next ((u.cacheAccess false x.hint x.maddr r.stored).bumpFld F.EXC_INT_CNT_REREAD_OK x.ctx 1)))

/-- The stack caches (R126, R329 to R331, R338, Table 9-3): a set keeps within its ways and its keep lines, a hint places a line as its row says,
a write that misses during a calibration slice becomes a dirty line whatever its hint, a hint changes no data where no codeword is wrong, and an
uncorrectable error drops a clean line and poisons a dirty one. How the hits and misses are counted is open (log 38). -/
def Obligations.StackCache : Prop :=
  (∀ (ways hint k : Nat) (write slice : Bool) (l : List CacheLine), ways ≤ 12 → l.length ≤ cacheWays → (l.map (·.line)).Nodup →
    l.countP (·.keep) ≤ 12 →
    let m := touchSet ways write slice hint k l
    m.length ≤ cacheWays ∧ (m.map (·.line)).Nodup ∧ m.countP (·.keep) ≤ max ways (l.countP (·.keep)) ∧ (∀ y ∈ m, y.line ≠ k → y ∈ l) ∧
    touchSet 0 write slice 2 k l = touchSet 0 write slice 0 k l ∧
    (slice = true → write = true → ∃ x ∈ m, x.line = k ∧ x.dirty = true) ∧
    (hint = 0 → ∃ x rest, m = x :: rest ∧ x.line = k ∧ (write = true → x.dirty = true)) ∧
    (hint = 1 → slice = false ∨ write = false → m.map (·.line) = l.map (·.line) ∧ (write = false → m = l)) ∧
    (hint = 2 → 0 < ways → ∃ x ∈ m, x.line = k ∧ x.keep = true) ∧
    (hint = 3 → write = false → (∀ x ∈ l, x.line = k → ∃ rest, m = rest ++ [{ x with keep := false }]) ∧ ((∀ x ∈ l, x.line ≠ k) → m = l)) ∧
    (hint < 2 ∨ hint = 3 ∨ l.countP (·.keep) < ways → ∀ y ∈ l, y.keep = true → y.line ≠ k → y ∈ m)) ∧
  (∀ (s : State) (x : Transfer) (hint : Nat) (faults : List (Nat × Nat)), s.wrong = [] →
    (s.moveIn { x with hint := hint }).1.store = (s.moveIn x).1.store ∧
    ((s.moveOut { x with hint := hint } faults).2 = true →
      (s.moveOut { x with hint := hint } faults).1.mem = (s.moveOut x faults).1.mem)) ∧
  (∀ (s : State) (e : CacheErr) (x : CacheLine),
    let a := e.addr.toNat / 32 * 32
    let st := lineStack x.line
    let t := s.cacheErrors [e]
    s.addrKind a = .memory → s.cached? a = some x → st < 12 →
    (e.hard = true → x.dirty = false → t.cached? a = none) ∧
    (e.hard = false ∨ x.dirty = false → t.poison = s.poison ∧ t.sent = s.sent ∧
      t.fld F.MEM_CACHE_ERR_CORRECTED st = min (s.fld F.MEM_CACHE_ERR_CORRECTED st + 1) 0xFFFFFFFF) ∧
    (e.hard = true → x.dirty = true → ∃ u : State, t = u.raise .device 0x010E 2 st 1 ∧ u.cached? a = none ∧ s.codeKey a ∈ u.poison ∧
      u.fld F.MEM_CACHE_ERR_DIRTY_LOST st = min (s.fld F.MEM_CACHE_ERR_DIRTY_LOST st + 1) 0xFFFFFFFF ∧
      u.sent = s.sent ∧ u.mem = s.mem ∧ u.store = s.store) ∧
    (e.hard = false ∨ x.dirty = false → t.mem = s.mem ∧ t.store = s.store))

/-- The six collectives are posted. One that is ready reads its input, takes the streams that have come and sends its own; it waits for those that are
missing, ends with INTEGRITY at a damaged block, and otherwise completes and adds 1 to its counter (R125, R127, R366, R371, R397 to R404). -/
def Obligations.Collectives : Prop :=
  (∀ (s : State) (h : SlotHdr) (c : SlotCtx) (sd sv : Fin 32) (d : CollDesc), s.opens h c → h.slot = .l →
    let off := (c.src.sreg sd).toNat
    s.canRead c off 64 → CollDesc.ofBytes (s.storeRead h.tile off 64) = some d → leNat (s.storeRead h.tile off 1) = d.op → s.canCollect c d →
    let reads : List SlotEffect := (s.groupReads h.tile c.l.ctx d.groupNum).map fun a => .reads a.1 a.2
    let done : Answer := .next (s.issued h c (c.x.gathers [] (reads ++ [.coll ⟨0, h.tile, c.l.ctx, c.l.queue, c.l.cmd, c.x.bundle, off,
      (c.src.sreg sv).toNat % 65536, d, 0, s.now, false, 0, false, false, false, false⟩])))
    (d.op = 1 → exec (.reduceScatter h sd sv) s = done) ∧ (d.op = 2 → exec (.allGather h sd sv) s = done) ∧
    (d.op = 3 → exec (.allReduce h sd sv) s = done) ∧ (d.op = 4 → exec (.norm h sd sv) s = done) ∧
    (d.op = 5 → exec (.broadcast h sd sv) s = done) ∧ (d.op = 6 → exec (.shift h sd sv) s = done)) ∧
  ∀ (s : State) (x : Coll) (l : Launch) (g : Group) (e : CollParts),
    (s.colls.find? fun y => y.id == x.id) = some x → s.launch? x.queue x.cmd = some l → s.groupAt x.tile x.ctx x.desc.groupNum = some g →
    s.collReady x = true → x.odd = false → x.desc.odd e.posts = none → (s.collReads x l g).2 = none →
    let s0 := (s.collReads x l g).1
    let run := s0.runColl x l g e.parts
    let sent := s0.sendStreams x g run.1.sends e.faults
    sent.2 = none →
    (run.1.harm = none → run.1.wait = true → exec (.collComplete x.id e) s = .next sent.1) ∧
    (∀ h, run.1.harm = some h → exec (.collComplete x.id e) s = .next (sent.1.collHarmed x g run.1 h)) ∧
    (∀ (u : State) (v : Nat), run.1.harm = none → run.1.wait = false → run.1.parts = [] → x.again = false →
      (((run.2 sent.1).countCmp x.ctx run.1.plain run.1.stored).collDone x).increment x.ctx x.sv 1 ⟨5, x.tile⟩
        (.launch x.queue x.cmd x.tile x.bundle) = (u, .applied v) →
      exec (.collComplete x.id e) s = .next { u with colls := u.colls.filter fun y => y.id != x.id })

/-- The instructions of an engine (Table 8-6, R296 to R301): each completes on an element, leaves its result in the engine, or for ST and STM
in the shard, and goes to the next instruction. -/
def Obligations.EngineResults : Prop :=
  ∀ (s : State) (o : EngOps) (en : Engine) (x : Shard), s.engineRuns o.eng en x →
    let a := s.source en x o.a
    let b := s.source en x o.b
    let d := s.source en x o.c
    let ran (t : State) (e : Engine) : Answer :=
      .next (t.setEngine o.eng (e.advance (s.micro en.ctx x).words.length (s.nextElem x (o.eng / 4) (en.elem + 1))))
    let elem (v : Nat) : Answer := ran s (en.setElem o.d v)
    let r (f : Nat × Bool) : Answer := elem (canon f.1)
    ((Instr.add o).wellFormed = true → exec (.add o) s = elem (canon (f32Add a b))) ∧
    ((Instr.sub o).wellFormed = true → exec (.sub o) s = elem (canon (f32Sub a b))) ∧
    ((Instr.mul o).wellFormed = true → exec (.mul o) s = elem (canon (f32Mul a b))) ∧
    ((Instr.fma o).wellFormed = true → exec (.fma o) s = r (fFma fp32 false false a b d)) ∧
    ((Instr.fms o).wellFormed = true → exec (.fms o) s = r (fFma fp32 false true a b d)) ∧
    ((Instr.div o).wellFormed = true → exec (.div o) s = elem (canon (f32Div a b))) ∧
    ((Instr.max o).wellFormed = true → exec (.max o) s = r (fExt true fp32 false a b)) ∧
    ((Instr.min o).wellFormed = true → exec (.min o) s = r (fExt false fp32 false a b)) ∧
    ((Instr.abs o).wellFormed = true → exec (.abs o) s = r (fAbs fp32 a)) ∧
    ((Instr.neg o).wellFormed = true → exec (.neg o) s = r (fNeg fp32 a)) ∧
    ((Instr.sqrt o).wellFormed = true → exec (.sqrt o) s = r (fSqrt fp32 a)) ∧
    ((Instr.rsq o).wellFormed = true → exec (.rsq o) s = r (fRsq fp32 a)) ∧
    ((Instr.rcp o).wellFormed = true → exec (.rcp o) s = r (fRcp fp32 a)) ∧
    ((Instr.exp2 o).wellFormed = true → exec (.exp2 o) s = r (fExp2 fp32 a)) ∧
    ((Instr.log2 o).wellFormed = true → exec (.log2 o) s = r (fLog2 fp32 a)) ∧
    ((Instr.csgn o).wellFormed = true → exec (.csgn o) s = elem (canon (fp32.withSign (fp32.sign b) (fp32.mag a)))) ∧
    ((Instr.cmp o).wellFormed = true → exec (.cmp o) s = ran s
      { en with q := NMap.set en.q (o.d - 52) (numCompare (o.c.val % 8) (fp32.decode a) (fp32.decode b)).1 }) ∧
    ((Instr.sel o).wellFormed = true → exec (.sel o) s = elem (if NMap.getD en.q (o.c - 52) false then a else b)) ∧
    ((Instr.engineNop o).wellFormed = true → exec (.engineNop o) s = ran s en) ∧
    ((Instr.ldm o).wellFormed = true → exec (.ldm o) s = ran s (en.setWide o.d (s.master x en.elem))) ∧
    ((Instr.ldv o).wellFormed = true → exec (.ldv o) s = elem (canon (f32Mul
      (f32Mul (s.devNat (x.elemAddr 6 en.elem) 4) (s.devNat (x.elemAddr 7 en.elem) 4)) en.rinv.toNat))) ∧
    ((Instr.ld o).wellFormed = true → exec (.ld o) s = elem (s.planeF32 en.ctx x o.a en.elem)) ∧
    ((Instr.wtof o).wellFormed = true →
      (∀ v, en.wide o.a = some v → exec (.wtof o) s = elem (canon (fp32.encode .nearest v))) ∧
      (en.wide o.a = none →
        exec (.wtof o) s = ran (s.draw (2 ^ 32)).2 (en.setElem o.d (s.draw (2 ^ 32)).1))) ∧
    (∀ u v, en.wide o.a = some u → s.wideSource en x o.b = some v →
      ((Instr.wadd o).wellFormed = true → (u.add v).1.finite = true →
        exec (.wadd o) s = ran s (en.setWide o.d ((roundMaster (u.add v).1).getD noResult))) ∧
      ((Instr.wmul o).wellFormed = true → (u.mul v).1.finite = true →
        exec (.wmul o) s = ran s (en.setWide o.d ((roundMaster (u.mul v).1).getD noResult)))) ∧
    ((Instr.st o).wellFormed = true →
      ((fp32.decode b).finite = true → x.width o.a ≠ 2 →
        exec (.st o) s = ran (s.devWrite (x.elemAddr o.a en.elem) (leBytes 4 b)) en) ∧
      ((fp32.decode b).finite = true → x.width o.a = 2 → ∃ v,
        exec (.st o) s = ran (s.devWrite (x.elemAddr o.a en.elem) (leBytes 2 v)) en) ∧
      ((fp32.decode b).finite = false → exec (.st o) s = ran s (en.keep en.elem))) ∧
    (∀ v m, (Instr.stm o).wellFormed = true → en.wide o.a = some v → v.finite = true → roundMaster v = some m →
      exec (.stm o) s = ran ((s.storeMaster x en.elem m).deriveElem x en.elem) en)

/-- Host accesses (R51, R70, R76, R80, R93, R95): a doorbell, a head or a write that reaches its place is taken, a BAR4 access moves its bytes,
and a vector that is unmasked with records behind it sends one message. -/
def Obligations.HostAccesses : Prop :=
  (∀ (s : State) (fn : Fin 64) (q : Fin 65536) (n : Nat), s.fnThere fn = true → 3 ≤ s.stage → s.ctxOf q = some n → s.ctxOn n = true →
    s.ctxFn n = fn.val →
    (s.queueRuns q = true → ∀ tail : BitVec 16, tail.toNat < s.sqSize q →
      exec (.sqTailWrite fn q tail) s = .next (s.setQueue q { s.queue q with sqTail := tail.toNat })) ∧
    (s.queueRuns q = true ∨ s.queueState q = 4 → ∀ head : BitVec 16, head.toNat < s.cqSize q →
      consumed (s.cqSize q) (s.queue q).cqHead head.toNat ≤ (s.queue q).used →
      exec (.cqHeadWrite fn q head) s = .next (s.setQueue q
        { s.queue q with cqHead := head.toNat, used := (s.queue q).used - consumed (s.cqSize q) (s.queue q).cqHead head.toNat }))) ∧
  (∀ (s : State) (fn : Fin 64) (vector : Fin 2048), s.fnThere fn = true → s.unmasked.contains (2048 * fn.val + vector.val) = false →
    let t : State := { s with unmasked := (2048 * fn.val + vector.val) :: s.unmasked }
    exec (.msixUnmask fn vector) s = .next (if t.vectorDue fn vector then t.emit (.msix fn vector) else t)) ∧
  (∀ (s : State) (fn : Fin 64), s.reach fn .HIF_BLOCKED fn = .go →
    exec (.hifBlockedClear fn) s = .next (s.setReg .HIF_BLOCKED fn 0#64)) ∧
  (∀ (s : State) (fn : Fin 64) (head : BitVec 16), s.reach fn .EXC_EVQ_HEAD fn = .go →
    let n := consumed (s.ringSize fn) (s.fld F.EXC_EVQ_HEAD_HEAD fn) head.toNat
    head.toNat < s.ringSize fn → n ≤ (s.ring fn).used →
    let t := (s.setFld F.EXC_EVQ_HEAD_HEAD fn head.toNat).setRing fn { s.ring fn with used := (s.ring fn).used - n }
    exec (.eventRingHeadWrite fn head) s = .next (if s.flag F.EXC_EVQ_CFG_EN fn then t.ringLost fn else t)) ∧
  (∀ (s : State) (offset : BitVec 39) (n : Nat), s.fnThere 0 = true → 4 ≤ s.stage →
    let a := 0x10000000 * s.fld F.HIF_BAR4_BASE_BASE 0 + offset.toNat
    (∀ i, i < n → s.addrKind (a + i) = .memory) → s.wrong = [] → ∃ t, exec (.hostBar4Access 0 offset (.read n) []) s = .next t ∧
      t.bar4Poison = (s.poisonedWords a n).any (fun _ => true) ∧
      (s.poisonedWords a n = [] → t.bar4Data = (List.range n).map fun i => s.devByte (a + i))) ∧
  (∀ (s : State) (offset : BitVec 39) (b : Byte), s.fnThere 0 = true → 4 ≤ s.stage →
    let a := 0x10000000 * s.fld F.HIF_BAR4_BASE_BASE 0 + offset.toNat
    s.addrKind a = .memory → exec (.hostBar4Access 0 offset (.write [b]) []) s = .next ((s.devWrite a [b]).guardWork a 1))

/-- A queue's life (R71 to R79, R85, R90): it is enabled, its entries are fetched and started, its records are written, and it drains. -/
def Obligations.QueueLife : Prop :=
  (∀ (s : State) (fn : Fin 64) (q : Fin 65536) (v : Word) (n : Nat), s.reach fn .QUE_CFG q = .go → s.ctxOf q = some n → s.ctxOn n = true →
    s.flag F.QUE_CFG_EN q = false → s.queueState q = 0 →
    let new := RegName.QUE_CFG.written .whole (s.reg .QUE_CFG q) v
    F.QUE_CFG_EN.of new = 1 → 4 ≤ F.QUE_CFG_SQ_LOG2.of new → F.QUE_CFG_SQ_LOG2.of new ≤ 16 → 4 ≤ F.QUE_CFG_CQ_LOG2.of new →
    F.QUE_CFG_CQ_LOG2.of new ≤ 16 → s.fld F.QUE_SQ_BASE_SPACE q = 0 → s.fld F.QUE_CQ_BASE_SPACE q = 0 →
    exec (.queueEnable fn q v) s = .next ((s.setReg .QUE_CFG q new).startQueue q)) ∧
  (∀ (s : State) (fn : Fin 64) (q : Fin 65536) (v : Word), s.reach fn .QUE_CFG q = .go → s.fld F.QUE_CFG_EN q = 1 →
    let new := RegName.QUE_CFG.written .whole (s.reg .QUE_CFG q) v
    F.QUE_CFG_EN.of new = 0 → ∃ kept, exec (.queueDisable fn q v) s = .next ((s.setReg .QUE_CFG q kept).drainQueue q)) ∧
  (∀ (s : State) (q : Fin 65536), s.queueState q = 4 → (s.queue q).cmds = [] → (s.queue q).waiting = [] →
    exec (.queueDrainDone q) s = .next (s.setFld F.QUE_STATE_STATE q 0)) ∧
  (∀ (s : State) (q : Nat), s.dispatches = true → s.pickQueue = some q → exec .submissionFetch s = .next (s.fetch q)) ∧
  (∀ (s : State) (q : Fin 65536) (x : Cmd) (n : Nat), ((s.queue q).cmds.find? fun x => x.phase == .fetched) = some x →
    x.entry.fence = false ∨ (s.queue q).cmds.head?.map (·.num) = some x.num →
    s.ctxOf q = some n → s.ctxOn n = true → s.dispatches = true → s.queueRuns q = true →
    (∀ c ∈ classesOf x.entry.opcode, x.entry.w1 ≤ s.classEpoch c) → s.stepWait n x.entry = false →
    (s.setFld F.QUE_STATE_STATE q 1).turned n x.entry = none →
    exec (.commandStart q) s = .next ((s.setFld F.QUE_STATE_STATE q 1).modCmd q x.num fun x => { x with phase := .running })) ∧
  (∀ (s : State) (q : Fin 65536) (r : Rec) (rest : List Rec), (s.queue q).waiting = r :: rest → (s.queue q).used < s.cqSize q →
    s.queueState q ≠ 0 → exec (.completionRecordWrite q) s = .next (s.writeRec q r)) ∧
  (∀ (s : State) (q : Fin 65536) (x : Cmd), s.cmd? q x.num = some x → x.phase = .running → x.stop = none → x.entry.w2 ≠ 0 →
    x.entry.w2 < s.now →
    exec (.deadlineExpiry q x.num) s = .next (s.modCmd q x.num fun y => { y with stop := some St.timeout })) ∧
  (∀ (s : State) (q : Fin 65536) (x : Cmd) (n st units : Nat), s.cmd? q x.num = some x → s.ctxOf q = some n → x.stop = some st →
    s.launch? q x.num = none → x.begun = false → x.entry.opcode = 0x30 ∨ x.entry.opcode = 0x31 →
    exec (.abortPoint q x.num units) s = .next (s.finish q x.num st (stopDetail st 0 x.entry.codes) 0)) ∧
  (∀ (s : State) (q : Fin 65536) (x : Cmd) (n st units : Nat), s.cmd? q x.num = some x → s.ctxOf q = some n → x.stop = some st →
    s.launch? q x.num = none → ¬ (x.entry.opcode = 0x30 ∨ x.entry.opcode = 0x31) → s.waitsStill x = false →
    exec (.abortPoint q x.num units) s = .next ((s.cleanCmd q x st).finishFree q x.num st (stopDetail st 0 false))) ∧
  (∀ (s : State) (q : Fin 65536) (x : Cmd) (n st units : Nat), s.cmd? q x.num = some x → s.ctxOf q = some n → x.stop = some st →
    s.launch? q x.num = none → x.begun = true → x.entry.opcode = 0x30 ∨ x.entry.opcode = 0x31 → x.entry.stopsAt units = true →
    let r := s.dmaMove n q x.entry units []
    exec (.abortPoint q x.num units) s = .next (r.1.finish q x.num st (stopDetail st units x.entry.codes) r.2.bytes.length))

/-- The host commands (Table 2-3): each that has started, and that nothing turns away, has its own effect. -/
def Obligations.HostCommands : Prop :=
  ∀ (s : State) (q : Fin 65536) (c : Nat) (x : Cmd) (n : Nat),
    (s.toBegin q c 0x00 = some (x, n) → exec (.nop q c) s = .next (s.finish q c St.ok 0 0)) ∧
    (s.toBegin q c 0x10 = some (x, n) → ∃ t, exec (.loadProgram q c) s = .next t ∧
      (((t.queue q).cmds.find? fun y => y.num == c).map fun y => y.begun) = some true) ∧
    (∀ p, s.cmd? q c = some x → s.ctxOf q = some n → x.entry.opcode = 0x10 → x.goesOn = true →
      NMap.get? s.programs (2 ^ 32 * n + x.value) = some p → ∃ u, exec (.loadProgramComplete q c) s = .next u ∧
        ∀ t made, s.bind n p.image p.key p.imgLen (decide (x.value ≤ 1023)) = (.ok, t, made) → p.isStep = false ∨ t.stepRuns n = true →
          u = ({ t with programs := NMap.set t.programs (2 ^ 32 * n + x.value) { p with ready := true, madeIds := made } } : State).finish q c
            St.ok 0 (2 ^ 32 * p.crc + x.value)) ∧
    (∀ p, s.toBegin q c 0x11 = some (x, n) → s.program? n x.entry.w3 = some p →
      (s.launches.any fun l => l.ctx == n && l.handle == x.entry.w3) = false →
      let t := s.each p.madeIds fun v s => s.unmakeObj (65536 * n + v) St.protocol true
      exec (.unloadProgram q c) s =
        .next (({ t with programs := NMap.erase t.programs (2 ^ 32 * n + x.entry.w3) } : State).finish q c St.ok 0 0)) ∧
    (∀ p, s.toBegin q c 0x20 = some (x, n) → s.program? n x.entry.w3 = some p →
      (s.launches.any fun l => l.tiles.any fun t => ((s.grantedTiles n).take p.tiles).contains t) = false →
      ∃ t l, exec (.launch q c) s = .next t ∧ t.launches = s.launches ++ [l] ∧ l.queue = q.val ∧ l.cmd = c ∧ l.handle = x.entry.w3 ∧
        l.tiles = (s.grantedTiles n).take p.tiles) ∧
    (∀ l, s.launch? q c = some l → (∀ y, s.cmd? q c = some y → y.stop = none) → l.fault = none → l.opened = true →
      l.isStep = false → s.launchQuiet l = true → s.updatesDone l = true →
      (∀ t ∈ l.tiles, (s.tile t).finished false = true ∧ (s.tile t).flights = []) →
      exec (.launchComplete q c) s = .next ((s.closeLaunch l St.ok).finish q c St.ok 0 l.result)) ∧
    (s.toBegin q c 0x30 = some (x, n) → exec (.dmaCopy q c) s = .next (s.begin q c)) ∧
    (s.toBegin q c 0x31 = some (x, n) → exec (.dmaFill q c) s = .next (s.begin q c)) ∧
    (s.cmd? q c = some x → s.ctxOf q = some n → x.entry.opcode = 0x31 ∨ (x.entry.opcode = 0x30 ∧ x.entry.w6.testBit 0 = false) →
      x.goesOn = true → ∀ errs : List Mishap,
      let r := (s.meets (x.entry.met errs)).dmaMove n q x.entry x.entry.dmaLen (errs.filterMap mishapBlock)
      (r.2.fail = none → exec (.hostDmaComplete q ⟨c, errs⟩) s = .next (r.1.finish q c St.ok 0 r.2.bytes.length)) ∧
      (∀ b k, r.2.fail = some (b, k) → exec (.hostDmaComplete q ⟨c, errs⟩) s = .next (r.1.finishFree q c St.integrity b))) ∧
    (s.toBegin q c 0x40 = some (x, n) → ∀ t v, s.increment n x.entry.w3 x.entry.w4 ⟨1, q⟩ (.cmd q c) = (t, .applied v) →
      exec (.syncSignal q c) s = .next (t.finish q c St.ok 0 v)) ∧
    (s.toBegin q c 0x41 = some (x, n) →
      (∀ t v, s.waitOn n x.entry.w3 x.entry.w4 ⟨1, q⟩ (.cmd q.val c) = (t, .satisfied v) →
        exec (.syncWait q c) s = .next (t.finish q c St.ok 0 v)) ∧
      (∀ t, s.waitOn n x.entry.w3 x.entry.w4 ⟨1, q⟩ (.cmd q.val c) = (t, .held) → exec (.syncWait q c) s = .next (t.begin q c))) ∧
    (∀ y, s.toBegin q c 0x50 = some (x, n) → x.entry.w3 ≠ q.val → x.entry.w3 < 65536 →
      ((s.queue x.entry.w3).cmds.find? fun y => y.entry.cmdId == x.entry.w4) = some y → y.entry.opcode ≠ 0x50 →
      exec (.abort q c) s = .next ((s.askEnd x.entry.w3 y St.aborted 0).finish q c St.ok 0 0))

/-- REGISTER_WRITE (R24, R26, R86, Table 0-4): a write that reaches a register without further effect stores each field under its access
type; a write that reaches a staged register goes to its staging copy, and the register stays; a write of SEC_ALARM clears CAUSES by 0 alone
(the model's choice, log 108). -/
def Obligations.RegisterWrites : Prop :=
  ∀ (s : State) (fn : Fin 64) (off : BitVec 26) (h : Half) (v : Word) (r : RegName) (i : Nat),
    regAt fn (off.toNat - off.toNat % 8) = some (r, i) → inRequest off.toNat = false → fn = 0 ∨ off.toNat < 0x1000000 → s.reach fn r i = .go →
    (r ∈ plainRegs → exec (.registerWrite fn off h v) s = .next (s.setReg r i (r.written h (s.reg r i) v))) ∧
    (r.stagedIn.isSome = true → r ≠ .EXC_STEP_CFG → r ≠ .XCH_CFG → r ≠ .PWR_CAP → exec (.registerWrite fn off h v) s =
      .next { s with staging := NMap.set s.staging (r.key i) (r.written h (s.stagingValue r i) v) }) ∧
    (r = .SEC_ALARM → i = 0 →
      let new := RegName.SEC_ALARM.written h (s.reg .SEC_ALARM 0) v
      exec (.registerWrite fn off h v) s = .next (s.setReg .SEC_ALARM 0
        (if F.SEC_ALARM_CAUSES.of new = 0 then new else F.SEC_ALARM_CAUSES.put new (s.fld F.SEC_ALARM_CAUSES 0))))

/-- A context's life (R59, R60, R585, Table 17-8): an enable that no check of R59 refuses takes the register; a clear of EN begins the reset;
a function level reset begins that of every context of the function; the end of a reset takes the context's state away. -/
def Obligations.ContextLife : Prop :=
  (∀ (s : State) (fn : Fin 64) (ctx : Fin 256) (v : Word), s.reach fn .QUE_CTX_CFG ctx = .go → s.fld F.QUE_CTX_CFG_EN ctx = 0 →
    s.ctxResetting ctx = false →
    let new := RegName.QUE_CTX_CFG.written .whole (s.reg .QUE_CTX_CFG ctx) v
    F.QUE_CTX_CFG_EN.of new = 1 → s.enableError ctx new = 0 →
    exec (.contextEnable fn ctx v) s = .next (s.setReg .QUE_CTX_CFG ctx (F.QUE_CTX_CFG_ERR.put new 0))) ∧
  (∀ (s : State) (fn : Fin 64) (ctx : Fin 256), s.reach fn .QUE_CTX_CFG ctx = .go → s.fld F.QUE_CTX_CFG_EN ctx = 1 → ∃ t,
    exec (.contextReset fn ctx) s = .next t ∧ t.ctxOn ctx = false ∧ NMap.get? t.resetting ctx = some s.now) ∧
  (∀ (s : State) (fn : Fin 64), s.fnThere fn = true → ∃ t, exec (.functionLevelReset fn) s = .next t ∧
    (∀ n, n < 256 → (fn = 0 ∨ s.ctxFn n = fn) → t.ctxResetting n = true) ∧ (∀ k ∈ t.unmasked, k / 2048 ≠ fn)) ∧
  (∀ (s : State) (ctx : Fin 256) (began : Nat), NMap.get? s.resetting ctx = some began → (s.engines.any fun e => e.2.ctx == ctx.val) = false →
    ((s.endCtxCmds ctx).flushCtx ctx).ctxRecorded ctx = true → s.firmware.shut = none → ∃ t, exec (.contextResetDone ctx) s = .next t ∧
      NMap.get? t.resetting ctx = none ∧ NMap.get? t.steps ctx = none ∧ (∀ x ∈ t.colls, x.ctx ≠ ctx) ∧
      ∀ p ∈ t.programs, p.1 / 2 ^ 32 ≠ ctx)

/-- Epochs and the event ring (R86 to R89, R95, R582): a commit raises the committed epoch, freezes the staging copies and lets HOST adopt; a
unit at its boundary adopts the committed epoch; an enabled ring begins anew with the events it held; a heartbeat of the session is noted. -/
def Obligations.EpochsAndRings : Prop :=
  (∀ s : State, s.reach 0 .HIF_EPOCH_COMMIT 0 = .go → s.committed + 1 < 2 ^ 32 →
    (∀ n, NMap.get? s.staging (RegName.key .UPD_CROZ_BASE n) = none) → ∃ t, exec (.epochCommit 0) s = .next t ∧
      t.committed = s.committed + 1 ∧ t.staging = [] ∧ t.frozen = (s.committed + 1, s.staging) :: s.frozen ∧
      t.adoptedBy .host 0 = s.committed + 1) ∧
  (∀ (s : State) (unit : EpochClass) (inst : Fin 32), inst.val < classCount unit → s.atBoundary unit inst = true →
    s.adoptedBy unit inst < s.committed → ∃ t, exec (.epochAdopt unit inst) s = .next t ∧ t.adoptedBy unit inst = s.committed) ∧
  (∀ (s : State) (fn : Fin 64) (v : Word), s.reach fn .EXC_EVQ_CFG fn = .go → s.fld F.EXC_EVQ_CFG_EN fn = 0 →
    let new := RegName.EXC_EVQ_CFG.written .whole (s.reg .EXC_EVQ_CFG fn) v
    6 ≤ F.EXC_EVQ_CFG_LOG2.of new → F.EXC_EVQ_CFG_LOG2.of new ≤ 16 → F.EXC_EVQ_CFG_EN.of new = 1 →
    let t := (s.setReg .EXC_EVQ_CFG fn new).setFld F.EXC_EVQ_HEAD_HEAD fn 0
    let t := ((t.setFld F.EXC_EVQ_STATE_TAIL fn 0).setFld F.EXC_EVQ_STATE_PHASE fn 1).setRing fn ⟨0, 1, true, []⟩
    exec (.eventRingEnable fn v) s = .next ((t.each (s.ring fn).held fun e t => t.ringWrite fn e).ringLost fn)) ∧
  (∀ (s : State) (fn : Fin 64), s.reach fn .HIF_HEARTBEAT 0 = .go → fn = 0 → s.driver = 0 →
    s.now ≤ s.firmware.session.beat + 2 * sec →
    exec (.driverHeartbeat fn) s = .next { s with firmware := { s.firmware with session := { s.firmware.session with beat := s.now } } })

/-- The command window (Table 4-2, R153 to R156, R168, R175 to R178): each operation on an id that the context may name takes effect at the
write, its results are kept, and SYN_OP_COMPLETE shows them. -/
def Obligations.SyncWindow : Prop :=
  (∀ (s : State) (fn : Fin 64) (ctx : Fin 256) (vid : Fin 65536) (rsv : Bool), s.windowTakes fn ctx vid →
    let b := s.window fn
    let a0 := b.synArg fn 0
    let a1 := b.synArg fn 1
    let ok (t : State) (r : SynAns) : Answer := .next (t.synKeep fn r)
    (∀ kind, kindOf (a0 % 4) = some kind → a0 < 32 → kind.argOk vid (b.fld F.QUE_CTX_SYN_IDS ctx) a1 = true → b.mapped ctx vid = false →
      (kind = .bounded → b.mapped ctx (vid + 1) = false) →
      let die := if a0.testBit 4 then b.bestDie else bitsOf a0 2 2
      kind.counters ≤ b.freeCounters die → ∃ t o, exec (.create fn ctx vid rsv) s = ok t (SynAns.one (o.phys.headD 0)) ∧
        NMap.get? t.objs (65536 * ctx + vid) = some o ∧ o.kind = kind ∧ o.die = die ∧ o.p = (if kind = .counter then a1 else 0) ∧ o.c = 0 ∧
        o.n = a1 ∧ o.phys.length = kind.counters ∧ o.err = none ∧ o.waiters = [] ∧ o.watches = []) ∧
    (∀ k side o, b.named ctx vid = .object k side o →
      (side = false → o.binder = false → exec (.destroy fn ctx vid rsv) s = ok (b.unmakeObj k St.protocol true) SynAns.done) ∧
      exec (.read fn ctx vid rsv) s = ok b ⟨St.ok, some 0, some (o.value side), some (o.stateWord side)⟩ ∧
      (let w := watchOf vid side a0 a1 (b.synArg fn 2)
       bitsOf a1 3 13 = 0 → (o.watches.any fun x => x.vid == vid.val && x.tag == w.tag) = false → w.notify = true ∨ w.signal = true →
       (w.repeats = true → w.period ≠ 0) → b.badTarget ctx w = false → b.watchesLeft ctx ≠ 0 →
       let t := (b.setObj k { o with watches := o.watches ++ [w] }).setFld F.SYN_CTX_USE_WATCHES ctx (b.fld F.SYN_CTX_USE_WATCHES ctx + 1)
       let t := t.setFld F.SYN_WATCH_FREE_FREE 0 (b.fld F.SYN_WATCH_FREE_FREE 0 - 1)
       exec (.watch fn ctx vid rsv) s = ok (if w.thresh ≤ o.value side then t.fire (firstAct ctx []) ctx k (o.value side) w else t) SynAns.done) ∧
      (∀ w, (o.watches.find? fun x => x.vid == vid.val && x.tag == bitsOf a1 32 32) = some w →
        exec (.unwatch fn ctx vid rsv) s = ok (b.dropWatch ctx k w) SynAns.done) ∧
      (b.flag F.SYN_DBG_CTL_OBSERVE ctx = true → a0 < 2 →
        exec (.trace fn ctx vid rsv) s = ok (b.setObj k { o with trace := a0 == 1 }) SynAns.done) ∧
      (b.mayIntervene ctx →
        exec (.dbgSet fn ctx vid rsv) s =
          ok (((b.setObj k (o.setValue side a0)).settle ctx k side).intervened ctx vid 0x10) (SynAns.one (o.value side)) ∧
        exec (.dbgRelease fn ctx vid rsv) s = ok ((b.releaseAll k o).intervened ctx vid 0x11) (SynAns.one o.everyone.length) ∧
        (o.kind = .barrier → exec (.dbgEpoch fn ctx vid rsv) s = ok ((b.openEpoch ctx k o a0).intervened ctx vid 0x12) SynAns.done) ∧
        exec (.dbgClear fn ctx vid rsv) s = ok ((b.setObj k { o with err := none }).intervened ctx vid 0x13) SynAns.done ∧
        (a0 = 1 → exec (.dbgHold fn ctx vid rsv) s = ok ((b.setObj k { o with hold := true }).intervened ctx vid 0x14) (SynAns.one 0)) ∧
        (a0 = 0 → let r := (b.setObj k { o with hold := false, heldIncs := [], stalled := [] }).applyHeld ctx o.heldIncs
          exec (.dbgHold fn ctx vid rsv) s = ok ((r.1.applyHeld ctx o.stalled).1.intervened ctx vid 0x14) (SynAns.one r.2))))) ∧
  (∀ (s : State) (fn : Fin 64) (x : SynOp), NMap.get? s.synOps fn = some x → ∃ t, exec (.synOpComplete fn) s = .next t ∧
    (t.reg .SYN_RESULT0 fn).toNat = x.r0 % 2 ^ 64 ∧ (t.reg .SYN_RESULT1 fn).toNat = x.r1 % 2 ^ 64 ∧
    t.fld F.SYN_OP_STATUS_STATUS fn = x.status % 2 ^ 16 ∧ t.fld F.SYN_OP_STATUS_DETAIL fn = x.detail % 2 ^ 32 ∧
    t.flag F.SYN_OP_STATUS_BUSY fn = false ∧ NMap.get? t.synOps fn = none)

/-- The notification ring, the debugger's control and a core's increment (R158, R172, R173, R176): each completes where its write is valid. -/
def Obligations.SyncControl : Prop :=
  (∀ (s : State) (core : Fin 21) (ctx : Fin 256) (vid : Fin 65536) (inc : BitVec 64) (t : State) (v : Nat),
    s.incrementOnce ctx vid inc.toNat ⟨3, core⟩ (.core core) = (t, .applied v) →
      exec (.coreIncrement core ctx vid inc) s = .next (t.emit (.coreReply core St.ok 0 (some v)))) ∧
  (∀ (s : State) (fn : Fin 64) (ctx : Fin 256) (v : Word), s.reach fn .SYN_DBG_CTL ctx = .go →
    F.SYN_DBG_CTL_INTERVENE.of v = 0 ∨ s.flag F.SYN_DBG_STATUS_SCOPE ctx = true → exec (.synDbgCtlWrite fn ctx v) s =
      .next (s.setReg .SYN_DBG_CTL ctx (RegName.SYN_DBG_CTL.written .whole (s.reg .SYN_DBG_CTL ctx) v))) ∧
  (∀ (s : State) (fn : Fin 64) (ctx : Fin 256) (v : Word), s.reach fn .SYN_NQ_CFG ctx = .go → s.fld F.SYN_NQ_CFG_EN ctx = 0 →
    let new := RegName.SYN_NQ_CFG.written .whole (s.reg .SYN_NQ_CFG ctx) v
    6 ≤ F.SYN_NQ_CFG_LOG2.of new → F.SYN_NQ_CFG_LOG2.of new ≤ 16 → F.SYN_NQ_CFG_EN.of new = 1 → s.fld F.SYN_NQ_BASE_SPACE ctx = 0 →
    let t := (s.setReg .SYN_NQ_CFG ctx new).setFld F.SYN_NQ_HEAD_HEAD ctx 0
    let t := (((t.setFld F.SYN_NQ_STATE_TAIL ctx 0).setFld F.SYN_NQ_STATE_PHASE ctx 1).setNring ctx ⟨0, 1, []⟩).nringFlush 1 ctx
    let held := (s.nring ctx).held
    exec (.notifyRingEnable fn ctx v) s = .next ((t.setNring ctx { t.nring ctx with held := held }).nringFlush held.length ctx)) ∧
  (∀ (s : State) (fn : Fin 64) (ctx : Fin 256) (head : BitVec 16), s.reach fn .SYN_NQ_HEAD ctx = .go →
    let n := consumed (s.nringSize ctx) (s.fld F.SYN_NQ_HEAD_HEAD ctx) head.toNat
    head.toNat < s.nringSize ctx → n ≤ (s.nring ctx).used →
    let t := (s.setFld F.SYN_NQ_HEAD_HEAD ctx head.toNat).setNring ctx { s.nring ctx with used := (s.nring ctx).used - n }
    exec (.notifyRingHeadWrite fn ctx head) s =
      .next (if s.flag F.SYN_NQ_CFG_EN ctx then t.nringFlush ((s.nring ctx).held.length + 1) ctx else t))

/-- A training step's own commands (R236, R240, R242, R270, R287, R298, R299, R316, R410): the record's clear, a registration and its end, the
open, a replay's arm, the decision, the start and the end of a pass. -/
def Obligations.StepCommands : Prop :=
  (∀ (s : State) (fn : Fin 64) (ctx : Fin 256), s.reach fn .EXC_NUM_STATE ctx = .go → ∃ t, exec (.numRecordClear fn ctx) s = .next t ∧
    t.fld F.EXC_NUM_STATE_COUNT ctx = 0 ∧ t.fld F.EXC_NUM_STATE_LOST ctx = 0 ∧
    ∀ i, i < 64 → t.flag F.EXC_NUM_E3_VALID (64 * ctx + i) = false) ∧
  (∀ (s : State) (fn : Fin 64) (ctx : Fin 256) (tid : BitVec 32), s.reach fn .NUM_TENSOR_REG ctx = .go → s.flag F.NUM_REG_STATUS_BUSY ctx = false →
    ∃ t, exec (.tensorRegister fn ctx tid) s = .next t ∧ t.flag F.NUM_REG_STATUS_BUSY ctx = true ∧
      t.fld F.NUM_REG_STATUS_TID ctx = tid.toNat % 2 ^ F.NUM_REG_STATUS_TID.width ∧ t.fld F.NUM_REG_STATUS_ERR ctx = 0) ∧
  (∀ (s : State) (ctx : Fin 256), s.flag F.NUM_REG_STATUS_BUSY ctx = true →
    let t := s.setFld F.NUM_REG_STATUS_BUSY ctx 0
    let id := s.fld F.NUM_REG_STATUS_TID ctx
    t.regError ctx id = 0 → exec (.tensorRegisterDone ctx) s = .next (t.registerTensor ctx id)) ∧
  (∀ (s : State) (q : Fin 65536) (c : Nat) (fetched : List (BitVec 24 × List Byte)) (l : Launch) (p : Program),
    s.launch? q c = some l → l.isStep = true → l.opened = false → s.opensNone l.ctx = false → NMap.get? s.steps l.ctx = none →
    s.program? l.ctx l.handle = some p → s.flag F.EXC_REPLAY_CTL_ARM l.ctx = false ∨ s.replayRefused l = false →
    s.tableFault l.ctx p = none → s.applyPending l.ctx l.step = false →
    (∀ x ∈ s.staleShards l.ctx l.step, s.owns x = true ∨ s.mirrors x = true) →
    exec (.stepOpen q c fetched) s =
      .next (s.openStep l p (fetched.map fun f => (f.1.toNat, f.2)) (s.flag F.EXC_REPLAY_CTL_ARM l.ctx))) ∧
  (∀ (s : State) (fn : Fin 64) (ctx : Fin 256), s.reach fn .EXC_REPLAY_CTL ctx = .go → ∃ t, exec (.replayArm fn ctx) s = .next t ∧
    t.flag F.EXC_REPLAY_CTL_ARM ctx = true) ∧
  (∀ (s : State) (ctx : Fin 256) (sum norm kappa : BitVec 32) (reason : Fin 4) (p : Step), NMap.get? s.steps ctx = some p → p.index < 2 ^ 64 →
    exec (.decisionRecord ctx (BitVec.ofNat 64 p.index) sum norm kappa reason) s =
      .next (s.adopt ctx ⟨sum.toNat, norm.toNat, kappa.toNat, reason, []⟩)) ∧
  (∀ (s : State) (eng : Fin 48) (ctx : Fin 256) (shard : BitVec 24) (p : Step) (x : Shard) (d : Decision), NMap.get? s.steps ctx = some p →
    s.shard? ctx shard.toNat = some x → p.decisionFor (s.mirrors x) s.twinFailed = some d → s.owns x = true ∨ s.mirrors x = true →
    d.reason = 0 → p.gradReady (s.owns x) x.num = true → p.started.contains x.num = false → (s.owns x && s.comparing ctx x.num) = false →
    s.ckptDue.contains ctx.val = false → s.quiesce = false → ∀ ks, s.passEngines x (some eng.val) = some ks →
    exec (.updateStart eng ctx shard) s =
      .next (((s.startPasses ks ctx x (if x.sketch then .sketch else .program)).modStep ctx fun p =>
        { p with started := x.num :: p.started }).activityIn ctx 7)) ∧
  (∀ (s : State) (eng : Fin 48) (en : Engine) (x : Shard), NMap.get? s.engines eng = some en → s.shard? en.ctx en.shard = some x →
    en.done = false →
    let t := s.partDone eng en x
    (en.kind = .copy ∨ en.kind = .restore → exec (.enginePassComplete eng) s = .next ((s.endPass eng).startIntakes)) ∧
    (en.kind ≠ .copy → en.kind ≠ .restore → (t.passOf en.ctx x.num).all (·.2.done) = false → exec (.enginePassComplete eng) s = .next t) ∧
    ((t.passOf en.ctx x.num).all (·.2.done) = true →
      (en.kind = .intake → exec (.enginePassComplete eng) s = .next (t.endIntake en.ctx x)) ∧
      (en.kind = .sketch → exec (.enginePassComplete eng) s = .next (t.endSketch en x)) ∧
      (en.kind = .program → exec (.enginePassComplete eng) s = .next (t.endProgram en.ctx x)) ∧
      (en.kind = .form → exec (.enginePassComplete eng) s = .next (t.endForm en.ctx x)) ∧
      (en.kind = .apply → exec (.enginePassComplete eng) s = .next (t.endApply en.ctx x)))) ∧
  (∀ (s : State) (eng : Fin 48) (ctx : Fin 256) (shard : BitVec 24) (p : Step) (x : Shard) (r : Nat), NMap.get? s.steps ctx = some p →
    s.shard? ctx shard.toNat = some x → s.lastOf ctx p.index = some r → x.exchanged = true → s.owns x = true ∨ s.mirrors x = true →
    p.updateOver x.num = true → ((s.xchOf ctx).round? r s.deviceId).any (fun v => v.formed.contains x.num) = false →
    (s.engines.any fun e => e.2.ctx == ctx.val && e.2.shard == x.num) = false → (s.xchOf ctx).fresh ≠ some r → s.xmode ctx ≠ 3 →
    s.comparing ctx x.num = false → s.ckptDue.contains ctx.val = false → s.quiesce = false →
    s.fld F.HIF_STATUS_DRIVER 0 ≠ 2 ∨ ((s.xchOf ctx).round? r s.deviceId).isSome = true → ∀ ks, s.passEngines x (some eng.val) = some ks →
    exec (.formPass eng ctx shard) s = .next (((s.openRound ctx r).startPasses ks ctx x .form).activityIn ctx 7))

/-- Checkpoints and restore (R309 to R313): GO asks for the next logical point, where the image is taken; the image is written, its end is
reported; a restore whose image verifies begins, and at its end the counts of the crozier are those of the image. -/
def Obligations.Checkpoints : Prop :=
  (∀ (s : State) (fn : Fin 64) (ctx : Fin 256), s.reach fn .UPD_CKPT_CTL ctx = .go → s.ckptBusy ctx = false →
    (s.fld F.HIF_STATUS_DRIVER 0 ≠ 2 → ∃ t, exec (.checkpointGo fn ctx) s = .next t ∧
      t.fld F.UPD_CKPT_STATUS_STATE ctx = (if (NMap.get? s.steps ctx).isSome then 1 else 2) ∧ t.fld F.UPD_CKPT_STATUS_REASON ctx = 0 ∧
      (NMap.get? s.steps ctx = none → t.ckptDue.contains ctx.val = true ∧
        let u := (s.setFld F.UPD_CKPT_CTL_LEN_MIB ctx (s.fld F.UPD_CKPT_CTL_LEN_MIB ctx)).setFld F.UPD_CKPT_CTL_GO ctx 1
        NMap.get? t.ckptImages ctx = some ((u.readForImage ctx).checkpointImage ctx))) ∧
    (let u := s.setFld F.UPD_CKPT_CTL_LEN_MIB ctx (s.fld F.UPD_CKPT_CTL_LEN_MIB ctx)
     let u := u.spaceTouch (u.fld F.UPD_CKPT_ADDR_SPACE ctx) (4096 * u.fld F.UPD_CKPT_ADDR_ADDR ctx) (u.storedImage ctx).length
     NMap.get? s.steps ctx = none → u.restoreError ctx (u.storedImage ctx) = 0 → ∃ t, exec (.restore fn ctx) s = .next t ∧
      t.fld F.UPD_CKPT_STATUS_STATE ctx = 5 ∧ t.fld F.UPD_CKPT_STATUS_REASON ctx = 0)) ∧
  (∀ (s : State) (ctx : Fin 256), s.fld F.UPD_CKPT_STATUS_STATE ctx = 2 →
    (s.ckptDue.contains ctx.val = true →
      let img := NMap.getD s.ckptImages ctx []
      let t := { s with ckptDue := s.ckptDue.filter (· != ctx.val), ckptImages := NMap.erase s.ckptImages ctx }
      let t := (t.setFld F.UPD_CKPT_STATUS_MIB ctx (mibOf img.length)).endCopies ctx .copy
      let t := if img.length ≤ 1048576 * t.fld F.UPD_CKPT_CTL_LEN_MIB ctx then
          t.spaceWrite (t.fld F.UPD_CKPT_ADDR_SPACE ctx) (4096 * t.fld F.UPD_CKPT_ADDR_ADDR ctx) img
        else t.setFld F.UPD_CKPT_STATUS_REASON ctx 5
      ((t.xchOf ctx).applying = none → exec (.checkpointWrite ctx) s = .next t) ∧
      ∀ r, (t.xchOf ctx).applying = some r → exec (.checkpointWrite ctx) s = .next (t.startApplies ctx r)) ∧
    (s.ckptDue.contains ctx.val = false → s.fld F.UPD_CKPT_STATUS_REASON ctx = 0 →
      let t := (s.setFld F.UPD_CKPT_CTL_GO ctx 0).setFld F.UPD_CKPT_STATUS_STATE ctx 3
      exec (.checkpointDone ctx) s = .next (t.raise (.context ctx) 0x0605 0 0 (s.fld F.UPD_CKPT_STATUS_MIB ctx)))) ∧
  (∀ (s : State) (ctx : Fin 256), s.fld F.UPD_CKPT_STATUS_STATE ctx = 5 →
    let u := s.spaceTouch (s.fld F.UPD_CKPT_ADDR_SPACE ctx) (4096 * s.fld F.UPD_CKPT_ADDR_ADDR ctx) (s.storedImage ctx).length
    let img := u.storedImage ctx
    ∃ t, exec (.restoreDone ctx) s = .next t ∧ t.fld F.UPD_CKPT_STATUS_STATE ctx = 6 ∧
      t.fld F.UPD_CROZ_T_T ctx = leNat ((img.drop 24).take 8) ∧ t.fld F.UPD_CROZ_P_P1 ctx = leNat ((img.drop 32).take 4) ∧
      t.fld F.UPD_CROZ_P_P2 ctx = leNat ((img.drop 36).take 4))

/-- The stacked memory's commands (R322, R335 to R350, Table 9-8): each completes where the spec lets it have its effect. -/
def Obligations.MemorySystem : Prop :=
  (∀ (s : State) (fn : Fin 64) (v : Word), s.reach fn .MEM_REGION_CFG 0 = .go → ((List.range 256).any s.ctxOn) = false →
    let new := RegName.MEM_REGION_CFG.written .whole (s.reg .MEM_REGION_CFG 0) v
    4 * (0x30000000 * F.MEM_REGION_CFG_LOCAL_768M.of new) + 0xC0000000 * F.MEM_REGION_CFG_AFF_3G.of new ≤ s.visibleEnd →
    exec (.regionConfig fn v) s = .next ((s.setReg .MEM_REGION_CFG 0 new).setFld F.MEM_REGION_CFG_ERR 0 0)) ∧
  (∀ (s : State) (ch : Fin 384), s.memRuns = true →
    (∀ pc : Fin 2, s.sliceOpen ch = true → exec (.calSlice ch pc) s =
      .next { s.setFld F.MEM_CH_STATE_STATE ch 1 with
        slices := NMap.set s.slices ch (pc.val, s.now), calPasses := NMap.set s.calPasses ch (s.withSlice ch) }) ∧
    (s.fld F.MEM_CH_STATE_STATE ch ≠ 4 → exec (.channelNoResponse ch) s = .next (s.loseChannel ch 3)) ∧
    (∀ (slot : BitVec 23) (word : Fin 8) (errs : SymErrs), s.fld F.MEM_SCRUB_CFG_HOURS 0 ≠ 0 → s.fld F.MEM_CH_STATE_STATE ch < 2 →
      slot.toNat < 4194304 →
      let at' := s.nominal ch slot.toNat
      let key := (slotsPerChannel * at'.1 + at'.2) * 8 + word.val
      let t := s.spoil key errs
      s.poison.contains key = false →
      (t.fate key = .clean → exec (.scrubRead ch slot word errs) s = .next t) ∧
      (t.fate key = .corrected → exec (.scrubRead ch slot word errs) s = .next ((t.mend key).countCe ch)) ∧
      (t.fate key = .bad → exec (.scrubRead ch slot word errs) s =
        .next ((t.leaveStored key).scrubBad ch key ((t.slotAddr at'.1 at'.2).map fun x => x + 32 * word.val))))) ∧
  (∀ (s : State) (ch : Fin 384) (pins : List (Fin 36)) (margin : Option (BitVec 8)) (last : Bool) (pc since : Nat),
    NMap.get? s.slices ch = some (pc, since) → s.fld F.MEM_CH_STATE_STATE ch = 1 →
    let x := s.calPass ch
    let t := s.setFld F.MEM_CH_STATE_STATE ch 0
    let t := if last = true ∨ 96 ≤ x.slices then
        let t := { t with calPasses := NMap.set t.calPasses ch { x with slices := 0, temp := some (t.fld F.MEM_THERM_T_MAX (ch.val / 32)) } }
        (t.noteMargin ch margin).setFld F.MEM_CH_STATE_LAST_CAL ch (s.now / ms)
      else t
    let t := t.each pins fun p t => t.weakPin ch pc p
    (margin ≠ none ∨ t.fld F.MEM_CH_STATE_STATE ch = 4 → exec (.calSliceDone ch pins margin last) s = .next t) ∧
    (margin = none → t.fld F.MEM_CH_STATE_STATE ch ≠ 4 → exec (.calSliceDone ch pins margin last) s = .next (t.loseChannel ch 1))) ∧
  (∀ (s : State) (fn : Fin 64) (ch : BitVec 9), s.reach fn .MEM_CH_CMD 0 = .go → s.flag F.MEM_CMD_STATUS_BUSY 0 = false →
    (s.retireErr ch.toNat = 0 → exec (.channelRetire fn ch) s =
      .next (((s.setFld F.MEM_CMD_STATUS_ERR 0 0).setFld F.MEM_CMD_STATUS_CHANNEL 0 ch.toNat).retire ch.toNat 4)) ∧
    (ch.toNat < 384 → ∃ t, exec (.clearCounts fn ch) s = .next t ∧ t.reg .MEM_CH_WINDOW ch.toNat = 0 ∧
      NMap.get? t.ceTimes ch.toNat = none ∧ NMap.get? t.ueTimes ch.toNat = none)) ∧
  (∀ (s : State) (st : Fin 12) (errs : List (Fin 8 × SymErrs)), s.memRuns = true → s.fld F.MEM_SPARE_STATE st = 1 → s.beganAt slotTimer st = none →
    s.fld F.MEM_SPARE_WATERMARK st + 1 < 2 ^ F.MEM_SPARE_WATERMARK.width → ∃ t, exec (.migrationSlotMove st errs) s = .next t ∧
      t.fld F.MEM_SPARE_WATERMARK st = s.fld F.MEM_SPARE_WATERMARK st + 1) ∧
  (∀ (s : State) (l : Fin 10), s.inReset = false → ∃ t, exec (.dieLinkRetry l false) s = .next t ∧ NMap.getD t.linkRuns l 0 = 1) ∧
  (∀ (s : State) (st : Fin 12) (tMax tBase : BitVec 8), s.inReset = false → s.beganAt throttleTimer st = none → tMax.toNat < 105 → ∃ u : State,
    exec (.memThrottleTick st tMax tBase) s = .next (u.extraPasses st tMax.toNat).memHot.showBound ∧ u.fld F.MEM_THERM_T_MAX st = tMax.toNat ∧
      u.fld F.MEM_THERM_T_BASE st = tBase.toNat ∧
      u.fld F.MEM_THERM_BW_PCT st = throttlePct (throttleNext (throttleAt (s.fld F.MEM_THERM_BW_PCT st)) tMax.toNat)) ∧
  (∀ (s : State) (rail : Fin 6), exec (.supplyDroop rail) s = .next s) ∧
  (∀ (s : State) (rail : Fin 6), s.inReset = false → exec (.railUndervolt rail) s = .next s.fatal)

/-- Power and temperature (R348, R349, R539 to R546): a period of the loop, the rails, the brake and the regulators' signal, the junctions and
the trip. -/
def Obligations.PowerCommands : Prop :=
  (∀ (s : State) (p1 p100 : BitVec 16), s.inReset = false → 3 ≤ s.stage → s.now % ms = 0 → s.power.period ≤ s.now / ms →
    let floor := if s.fld F.PWR_STATUS_F_PWR 0 = 800 then s.power.floor + 1 else 0
    let next := powerNext (s.fld F.PWR_STATUS_F_PWR 0) (s.fld F.PWR_STATUS_MEM_PCT 0) p1.toNat (s.stagedFld F.PWR_CAP_CAP_W 0 .power) s.fTop
      (decide (10 ≤ floor))
    ∃ u : State, exec (.powerControlPeriod p1 p100) s =
        .next (if 2600 < p1.toNat then u.setCause 4 true else if p1.toNat < 2300 then u.setCause 4 false else u).showBound ∧
      u.fld F.PWR_STATUS_P_1MS 0 = p1.toNat ∧ u.fld F.PWR_STATUS_P_100MS 0 = p100.toNat ∧ u.fld F.PWR_STATUS_F_PWR 0 = next.1 ∧
      u.fld F.PWR_STATUS_MEM_PCT 0 = next.2 ∧ u.power.period = s.now / ms + 1 ∧ u.power.floor = floor) ∧
  (∀ (s : State) (alert : Bool) (rails : List (BitVec 16 × BitVec 16 × BitVec 16 × Bool)), s.inReset = false → s.power.sampled = none →
    ∃ u : State, exec (.pmbAlertSample alert rails) s = .next u.vrFault ∧ u.power.sampled = some s.now ∧
      ∀ (k : Nat) (r : BitVec 16 × BitVec 16 × BitVec 16 × Bool), (rails.take 16)[k]? = some r →
        u.fld F.PWR_RAIL_VOUT k = r.1.toNat ∧ u.fld F.PWR_RAIL_IOUT k = r.2.1.toNat ∧
        u.fld F.PWR_RAIL_PIN k = r.2.2.1.toNat ∧ u.flag F.PWR_RAIL_WARN k = (alert && r.2.2.2)) ∧
  (∀ s : State, s.inReset = false →
    exec .pwrBrakeAssert s = .next (({ s with power := { s.power with brake := true } } : State).setCause 0 true) ∧
    exec .pwrBrakeRelease s = .next (({ s with power := { s.power with brake := false } } : State).setCause 0 false) ∧
    exec .vrHotAssert s = .next ({ s with power := { s.power with vrHot := true } } : State).vrFault ∧
    exec .vrHotRelease s = .next ({ s with power := { s.power with vrHot := false } } : State).vrFault ∧
    (∀ tj : BitVec 12, exec (.hubJunctionTemperature tj) s = .next (s.setTj 4 tj.toNat)) ∧
    (∀ (d : Fin 4) (tj : BitVec 12), ∃ u : State, exec (.dieThrottleUpdate d tj) s = .next (u.setTj d tj.toNat).showBound ∧
      u.fld F.PWR_DIE_THERM_F_THERM d = dieLimit tj.toNat) ∧
    (∀ source temp : BitVec 8, (source.toNat ≤ 4 ∧ 115 ≤ temp.toNat) ∨ (16 ≤ source.toNat ∧ source.toNat < 28 ∧ 105 ≤ temp.toNat) →
      exec (.thermalTrip source temp) s = .next (s.thermTrip source.toNat temp.toNat)))

/-- Flits at a link that carries them (R378 to R380, R387 to R391): a flit in order is acknowledged and delivered, forwarded or taken; a LINK
flit gives credits back; a flit with a bad CRC is counted and answered with a NAK; a DISCOVER of the right peer brings the link UP. -/
def Obligations.Flits : Prop :=
  ∀ (s : State) (p : Fin 7) (t : Trailer),
    (s.portLive p = true →
      exec (.flitIdle p t) s = .next (s.heard p t) ∧
      exec (.flitBadCrc p) s = .next ((s.bumpFld F.FAB_PORT_CNT_CRC_ERR p 1).sendNak p) ∧
      (∀ (vc : Fin 4) (n : BitVec 16), exec (.flitLink p t vc n) s = .next ((s.modPort p fun x =>
        { x with credits := x.credits.zipIdx.map fun c => if c.2 = vc.val then c.1 + n.toNat else c.1 }).heard p t)) ∧
      (t.lseq.toNat = ((s.heard p t).port p).expect →
        let v := ((s.heard p t).modPort p Port.accept).sendIdle p false
        let u := v.when (p == 6 && v.pairBeats) State.fromTwin
        (∀ (h : FlitHead) (payload : List Byte),
          exec (.flitData p t h payload) s = .next (u.passFlit p (flitOf h 1 payload)) ∧
          exec (.flitCtrl p t h payload) s = .next (u.passFlit p (flitOf h 2 payload))) ∧
        (∀ t1 t3 t4 : BitVec 64, exec (.flitTime p t true t1 t3 t4) s = .next u ∧ ∃ w, exec (.flitTime p t false t1 t3 t4) s = .next w ∧
          (w.port p).time = some (t1.toNat, u.now)))) ∧
    (∀ (id : BitVec 16) (peer : Fin 7) (dx dy : BitVec 5) (dz : BitVec 6), s.portState p = 2 →
      (p = 6 ∨ (s.heldWhy p id.toNat peer (dx.toNat + 1, dy.toNat + 1, dz.toNat + 1)).1 = 0) → ∃ u,
      exec (.flitDiscover p t id peer dx dy dz) s = .next u ∧ u.portState p = 3 ∧ u.fld F.FAB_PORT_STATE_PEER p = id.toNat ∧
        (u.port p).met = some (id.toNat, peer.val))

/-- The fabric's other commands (R379 to R395, R405, R406): each completes where its condition holds. -/
def Obligations.FabricCommands : Prop :=
  (∀ (s : State) (p : Fin 7),
    (s.portLive p = true → (s.port p).good + 2000 ≤ s.now → exec (.linkSilenceTimeout p) s = .next (s.linkDown p 2)) ∧
    (∀ (loss : BitVec 16) (trains : Bool), s.portState p = 1 →
      let full := decide (5 ≤ s.stage) && decide (loss.toNat ≤ s.fld F.FAB_LINK_CFG_FULL_BUDGET 0)
      full = true ∨ trains = true → ∃ t, exec (.linkTrainDone p loss trains) s = .next t ∧ t.portState p = 2 ∧
        t.fld F.FAB_PORT_STATE_RATE p = (if full then 2 else 1) ∧
        t.fld F.FAB_PORT_STATE_LANES p = (if s.stage < 5 then 1 else if p = 6 then 16 else 8)) ∧
    (s.portState p = 0 → s.portMay p = true → (s.port p).tried + 100 * ms ≤ s.now → exec (.linkTrainRetry p) s = .next (s.train p)) ∧
    (s.portState p = 3 → (s.port p).timed = none → (s.port p).buffer.length < 1023 → ∃ t, exec (.timeFlitSend p) s = .next t ∧
      (t.port p).timed = some s.now) ∧
    (∀ fn : Fin 64, s.reach fn .FAB_PORT_CTL p = .go → s.flag F.FAB_PORT_CTL_DISABLE p = false →
      (∃ t, exec (.portDisable fn p true) s = .next t ∧ t.portState p = 5 ∧ t.flag F.FAB_PORT_CTL_DISABLE p = true) ∧
      (∃ t : State, exec (.retrain fn p) s = .next (if s.portState p = 0 then t.train p else t.linkDown p 4) ∧ ∀ i, t.port i = s.port i)) ∧
    (∀ fn : Fin 64, s.reach fn .FAB_PORT_CTL p = .go → s.flag F.FAB_PORT_CTL_DISABLE p = true → ∃ t : State,
      exec (.portDisable fn p false) s = .next ((t.portDead p 0).train p) ∧ t.flag F.FAB_PORT_CTL_DISABLE p = false ∧
      ∀ i, t.port i = s.port i)) ∧
  (∀ s : State, s.inReset = false →
    (let m := s.fld F.FAB_TIME_STATE_MASTER_NOW 0
     let backup := s.fld F.FAB_TIME_CFG_BACKUP 0
     3 ≤ s.stage → m ≠ s.deviceId →
     (∀ p, s.route m = some p → (s.port p).time.elim (s.port p).upAt (·.2) + ms ≤ s.now) →
     m ≠ backup → exec .timeMasterTimeout s =
       .next ((s.takeMaster backup).raise .device 0x0209 1 0 backup)) ∧
    (∃ t, exec .ppsEdge s = .next t ∧ t.fld F.FAB_PPS_TIME_TIME 0 = s.now % 2 ^ 64 ∧ t.flag F.FAB_TIME_STATE_PPS_SEEN 0 = true) ∧
    (s.fld F.FAB_PPS_TIME_TIME 0 + 2 * sec ≤ s.now → ∃ t, exec .ppsTimeout s = .next t ∧ t.flag F.FAB_TIME_STATE_PPS_SEEN 0 = false)) ∧
  (∀ s : State, exec .vsbBypLoss s =
      .next ((({ s with boot := { s.boot with vsb := false } } : State).setFld F.FAB_BYP_STATE_VSB 0 0).closeBypass 7 2) ∧
    exec .vsbBypPresent s = .next (({ s with boot := { s.boot with vsb := true } } : State).setFld F.FAB_BYP_STATE_VSB 0 1) ∧
    ∀ (fn : Fin 64) (mask : BitVec 3), s.reach fn .FAB_BYP_CTL 0 = .go →
      (∃ t : State, exec (.bypassClose fn mask) s = .next (t.closeBypass mask.toNat 3) ∧
        ∀ f : Field, f.reg ≠ .FAB_BYP_CTL → ∀ i, i < 1048576 → t.fld f i = s.fld f i) ∧
      (4 ≤ s.stage → ∃ t : State, exec (.bypassRelease fn mask) s = .next (t.releaseBypass mask.toNat 2) ∧
        ∀ f : Field, f.reg ≠ .FAB_BYP_CTL → ∀ i, i < 1048576 → t.fld f i = s.fld f i)) ∧
  (∀ (s : State) (ctx : Fin 256) (tag : BitVec 32) (x : Coll),
    s.colls.find? (fun x => x.ctx == ctx.val && x.desc.tag == tag.toNat && !x.stalled &&
      decide (x.since + ms * s.fld F.FAB_COLL_CFG_STALL_MS 0 ≤ s.now)) = some x →
    exec (.collStallTimeout ctx tag) s = .next (({ s with colls := s.colls.map fun y => if y.id = x.id then { y with stalled := true } else y } :
      State).raise (.context ctx) 0x020B 2 x.desc.groupNum x.desc.tag)) ∧
  (∀ (s : State) (ctx : Fin 256) (group rank dev : BitVec 16) (g : Group), s.group? ctx group.toNat = some g → rank.toNat < g.size →
    g.members.getD rank.toNat 0 ≠ dev.toNat →
    exec (.memberRewrite ctx group rank dev) s =
      .next ((s.setMember g rank.toNat dev.toNat).restartColls ctx fun x => x.desc.groupNum == group.toNat))

/-- Outer rounds are enabled, coded, sealed, sent and received (R418 to R432, R451, R459, R462, R483 to R489): each command completes where
its condition holds. -/
def Obligations.OuterRounds : Prop :=
  (∀ (s : State) (fn : Fin 64) (ctx : Fin 256) (v : Word), s.reach fn .XCH_CFG ctx = .go → 6 ≤ s.stage → s.flag F.XCH_CFG_EN ctx = false →
    let new := RegName.XCH_CFG.written .whole (F.XCH_CFG_EN.put (s.stagingValue .XCH_CFG ctx) 0) v
    xchCfgOk new = true → F.XCH_CFG_EN.of new = 1 →
    let t := (s.stageReg .XCH_CFG ctx .whole v).setFld F.XCH_CFG_ERR ctx 0
    ((List.range 256).filter fun n => t.flag F.XCH_CFG_EN n).length < 4 → exec (.xchEnable fn ctx v) s = .next (t.startRounds ctx)) ∧
  (∀ (s : State) (ctx : Fin 256) (lost : List (BitVec 24 × BitVec 24)) (q : Round),
    (s.xchOf ctx).rounds.find? (fun q => q.src == s.deviceId && !q.coded && s.xOn ctx && !s.flag F.HIF_STATUS_FATAL 0 &&
      (roundField (s.fld F.XCH_ROUND_LAST_FORMED ctx)).any fun f => decide (q.round ≤ f)) = some q →
    let u := s.loseBlocks ctx q (lost.map fun p => (p.1.toNat, p.2.toNat))
    let v := (u.1.codeFor ctx u.2 (u.1.codedHere ctx q.round)).2
    ∃ t w, exec (.roundCode ctx lost) s = .next t ∧ (t.xchOf ctx).round? q.round s.deviceId = some w ∧ w.coded = true ∧ w.out = v.out ∧
      w.body = v.body) ∧
  (∀ (s : State) (ctx : Fin 256) (round : BitVec 32) (site : Fin 64) (q : Round), (s.xchOf ctx).round? round.toNat s.deviceId = some q →
    q.coded = true → q.refused = false → (s.otherSites ctx).contains site.val = true → q.sealedTo.contains site.val = false →
    (s.xchOf ctx).waits site q.src q.round = false → s.flag F.HIF_STATUS_FATAL 0 = false →
    let t := s.modXch ctx fun x => x.modRound q.round q.src fun p => { p with sealedTo := site.val :: p.sealedTo }
    exec (.sealSend ctx round site) s = .next (t.queueItem ctx ⟨site, false, .msg 1 s.deviceId 0xFFFF q.body, NMap.get? q.via site⟩)) ∧
  (∀ (s : State) (ctx : Fin 256) (gw : BitVec 16),
    (∀ i x, s.firstFor ctx gw.toNat = some (i, x) → s.flag F.HIF_STATUS_FATAL 0 = false →
      NMap.getD (s.xchOf ctx).credits gw.toNat 0 + 1 = x.item.segments → ∃ t, exec (.gatewayCredit ctx gw) s = .next t ∧
        t.sent.head? = some (.item ctx gw.toNat x.site x.rep x.item) ∧ (t.xchOf ctx).outQueue = (s.xchOf ctx).outQueue.eraseIdx i ∧
        NMap.getD (t.xchOf ctx).credits gw.toNat 0 = 0) ∧
    (∀ (site : Fin 64) (up : Bool), ∃ t, exec (.pathAnnounce ctx gw site up) s = .next t ∧
      ((gw.toNat, site.val) ∈ (t.xchOf ctx).noPath ↔ up = false)) ∧
    (∀ (round : BitVec 32) (first all : BitVec 64), exec (.efficiencyReport ctx gw round first all) s =
      .next (s.modXch ctx fun x => x.modRound round.toNat s.deviceId fun q =>
        { q with counts := (gw.toNat, first.toNat, all.toNat) :: q.counts.filter fun c => c.1 != gw.toNat }))) ∧
  (∀ (s : State) (ctx : Fin 256) (bytes : List Byte), s.xOn ctx = true →
    let h := soredHead bytes
    let x := s.xchOf ctx
    s.contribGone ctx h.site h.round (h.flags.testBit 1) = false → x.holds h.site h.src h.round h.seq h.shard = none → x.tries h.site h.src h.round h.seq < 2 →
    ∀ k plain y z, s.pageKey ctx h.round = some k →
      gcmOpen k.key (soredIv h.site h.src h.round h.seq) (bytes.take 40) (bytes.drop 40) = some plain →
      (s.ownExchanged ctx).find? (fun y => y.num == h.shard) = some y →
      readSored (bytes.take 40 ++ plain) y.elems = some z →
      x.inBytes + (bytes.take 40 ++ plain).length ≤ 1048576 * s.fld F.XCH_STORE_SIZE_IN_MIB ctx →
      exec (.sorediumReceive ctx bytes) s =
        .next ((s.modXch ctx fun q => { q with inbound := q.inbound ++ [z] }).checkContrib ctx h.site h.round)) ∧
  (∀ (s : State) (ctx : Fin 256) (body : List Byte), s.xOn ctx = true → (s.xchOf ctx).gone.contains (beAt body 0 1, beAt body 8 8) = false →
    (s.xchOf ctx).seals.find? (fun z => z.site == beAt body 0 1 && z.src == beAt body 2 2 && z.round == beAt body 8 8) = none →
    let t := (s.modXch ctx fun q => { q with seals := q.seals ++
      [⟨beAt body 0 1, beAt body 2 2, beAt body 8 8, (beAt body 1 1).testBit 0, body, sealRecs body, s.now, none⟩] }).checkContrib ctx
        (beAt body 0 1) (beAt body 8 8)
    exec (.sealReceive ctx body) s =
      .next (if (beAt body 1 1).testBit 0 && t.isLedger ctx then t.reportIf ctx (beAt body 0 1) (beAt body 8 8) else t)) ∧
  (∀ (s : State) (ctx : Fin 256) (site : Fin 64) (src : BitVec 16) (round : BitVec 64) (z : Seal),
    (s.xchOf ctx).seals.find? (fun z => z.site == site.val && z.src == src.toNat && z.round == round.toNat) = some z → z.asked = none →
    z.came + ms * s.fld F.FAR_AXT_CFG_REFETCH_MS 0 ≤ s.now → s.contribGone ctx z.site z.round false = false →
    let mine := (s.ownExchanged ctx).map (·.num)
    let want := (z.recs.filter fun q => mine.contains q.shard).flatMap fun q =>
      (runsOf (((s.xchOf ctx).missing z q).filter fun n => decide ((s.xchOf ctx).tries z.site z.src z.round n < 2))).map fun p => (q.shard, p.1, p.2)
    want ≠ [] → exec (.refetchTimeout ctx site src round) s = .next ((s.setXch ctx { s.xchOf ctx with seals := (s.xchOf ctx).seals.map fun y =>
      if y.site = z.site ∧ y.src = z.src ∧ y.round = z.round then { y with asked := some s.now } else y }).askSoreds ctx z.site z.src z.round want)) ∧
  (∀ (s : State) (ctx : Fin 256) (frm : Fin 64) (dev : BitVec 16) (body : List Byte),
    let src := beAt body 2 2
    let r := beAt body 8 8
    let named := (refetchRecs body).flatMap fun p => (List.range p.2.2).map fun i => (p.1, p.2.1 + i)
    let out := (((s.xchOf ctx).round? r src).map (·.out)).getD []
    (∀ p ∈ named, (out.any fun y => y.shard == p.1 && y.seq == p.2) = true) →
    exec (.refetch ctx frm dev body) s = .next (s.queueSoreds ctx src r true [frm.val] (out.filter fun y => named.contains (y.shard, y.seq)))) ∧
  (∀ (s : State) (ctx : Fin 256) (body : List Byte) (p : Nat × Nat × Nat) (rest : List (Nat × Nat × Nat)), refetchRecs body = p :: rest →
    ∃ t : State, exec (.gone ctx body) s = .next (t.raise (.context ctx) 0x030B 2 (beAt body 2 2) (2 ^ 32 * p.1 + p.2.1)) ∧
      (0 < p.2.2 → (t.xchOf ctx).tries (beAt body 0 1) (beAt body 2 2) (beAt body 8 8) p.2.1 = 2))

/-- The ledger (R411, R436 to R443): reports, deadlines, entries, the provisional mode and the apply of a round. -/
def Obligations.LedgerCommands : Prop :=
  (∀ (s : State) (ctx : Fin 256), s.xOn ctx = true → s.isLedger ctx = true →
    (∀ (dev : BitVec 16) (site : Fin 64) (round : BitVec 32),
      let t := (dev.toNat, site.val, round.toNat)
      let u := s.modXch ctx fun x => { x with owners := if x.owners.contains t then x.owners else t :: x.owners }
      exec (.contributionReport ctx dev site round) s = .next (if u.siteHasIt ctx (site, round.toNat) then u.sendReport ctx else u)) ∧
    (∀ body : List Byte, exec (.siteReport ctx body) s = .next ((s.modXch ctx fun x => x.takeReport (readReport body)).tryClose ctx))) ∧
  (∀ (s : State) (ctx : Fin 256) (q : Round), s.nextClose ctx = some q →
    (s.closes ctx = true → q.time + ms * s.roundCfg F.XCH_TIMING_DEADLINE_MS ctx q.round ≤ s.now →
      exec (.ledgerDeadline ctx) s = .next (s.closeNow ctx q.round)) ∧
    (s.xOn ctx = true → s.xmode ctx = 1 → s.flag F.XCH_STATE_HOLDER ctx = false →
      (s.isLedger ctx = true → q.time + ms * (s.roundCfg F.XCH_TIMING_DEADLINE_MS ctx q.round + s.roundCfg F.XCH_TIMING_GRACE_MS ctx q.round) ≤ s.now →
        ∀ told, exec (.provisionalTimeout ctx told) s = .next (((s.goProvisional ctx q.round).post s.siteOthers (.provisional ctx q.round)).sendReport ctx)) ∧
      (s.isLedger ctx = false → exec (.provisionalTimeout ctx true) s = .next (s.goProvisional ctx q.round)))) ∧
  (∀ (s : State) (ctx : Fin 256) (e : Entry), s.xOn ctx = true → readEntry e.bytes = some e →
    exec (.ledgerEntry ctx e.bytes) s =
      .next (let t := if s.isLedger ctx then s.post s.siteOthers (.entry ctx e.bytes) else s
        if e.prov then t.adoptProvisional ctx e else t.adoptCanonical ctx e)) ∧
  (∀ (s : State) (ctx : Fin 256) (l : Launch) (r since : Nat), s.openingLaunch ctx = some l → s.appliedAt ctx l.step = some r →
    (s.xchOf ctx).waitSince = some since →
    ((s.xchOf ctx).applying = none → ((roundField (s.fld F.XCH_ROUND_LAST_APPLIED ctx)).any fun a => decide (r ≤ a)) = false → s.quiesce = false →
      ctx.val ∉ s.ckptDue →
      (∀ m, (s.xchOf ctx).snapFor = some m → (s.xchOf ctx).snaps.all Snap.whole = true →
        exec (.roundApply ctx) s = .next (s.applySnapshots ctx r l.step (m == 3))) ∧
      (∀ e, (s.xchOf ctx).snapFor = none → (s.xchOf ctx).entries.find? (fun e => e.round == r) = some e →
        e.recs.all (s.haveContrib ctx) = true →
        let t := s.setXch ctx { s.xchOf ctx with applying := some r, applied := [], passQueue := (s.myExchanged ctx).map (·.num) }
        exec (.roundApply ctx) s = .next (if (s.myExchanged ctx).isEmpty then t.roundApplied ctx r
          else (t.beginHold ctx r).startApplies ctx r))) ∧
    ((s.xchOf ctx).stalled = false → since + ms < s.now → exec (.applyStallTimer ctx) s =
      .next ((s.setXch ctx { s.xchOf ctx with stalled := true }).raise (.context ctx) 0x070F 1 0
        (2 ^ 32 * r + (s.now - since) / 1000 % 2 ^ 32))))

/-- Snapshots and the commands of XCH_CMD (R441, R446 to R449). -/
def Obligations.SnapshotsAndToken : Prop :=
  (∀ (s : State) (ctx : Fin 256) (frm : Fin 64) (dev : BitVec 16) (body : List Byte) (h : Shard),
    (s.myExchanged ctx).find? (fun h => h.num == beAt body 0 4) = some h →
    let n := beAt body 0 4
    let k := beAt body 4 4
    let who := 65536 * frm.val + dev.toNat
    let r := s.fld F.XCH_ROUND_LAST_APPLIED ctx
    (k = 0xFFFFFFFF → ∃ t : State, exec (.snapReq ctx frm dev body) s = .next (t.queueMsg ctx frm 7 dev.toNat
        (beBytes 4 n ++ beBytes 4 r ++ beBytes 4 h.chunks ++ beBytes 4 0 ++ (List.range h.chunks).flatMap fun i =>
          beBytes 8 (crc64 ((s.each (List.range h.chunks) fun j u => u.touchChunk ctx h j).chunkBytes h i)))) ∧
      ∃ v ∈ (t.xchOf ctx).serves, v.dev = who ∧ v.shard = n ∧ v.round = r) ∧
    (k ≠ 0xFFFFFFFF → k < h.chunks → beAt body 8 4 = 1 →
      let u := s.touchChunk ctx h k
      let t := u.queueMsg ctx frm 8 dev.toNat (beBytes 4 n ++ beBytes 4 r ++ beBytes 4 k ++ beBytes 4 0 ++ u.chunkBytes h k)
      exec (.snapReq ctx frm dev body) s = .next (if k + 1 = h.chunks then
        (t.modXch ctx fun x => { x with serves := x.serves.map fun v => if v.dev = who ∧ v.shard = n then { v with sent := true } else v }).goOnApplying
          ctx else t))) ∧
  (∀ (s : State) (ctx : Fin 256) (dev : BitVec 16) (role : Fin 3) (body : List Byte),
    ((s.xchOf ctx).snaps.any fun y => y.shard == beAt body 0 4 && y.round.isNone) = true →
    let m := (dev.toNat, beAt body 4 4, (List.range (beAt body 8 4)).map fun i => beAt body (16 + 8 * i) 8)
    exec (.snapManifest ctx dev role body) s = .next ((s.setXch ctx ((s.xchOf ctx).modSnap (beAt body 0 4) fun y =>
      if role.val = 1 then { y with twin := some m } else { y with source := some m })).weighManifest ctx (beAt body 0 4) (role.val == 2))) ∧
  (∀ (s : State) (ctx : Fin 256) (dev : BitVec 16) (body : List Byte) (y : Snap) (r : Nat) (a : Nat × Nat × List Nat),
    (s.xchOf ctx).snaps.find? (fun y => y.shard == beAt body 0 4) = some y → y.round = some r → y.source = some a → beAt body 4 4 = r →
    NMap.get? y.got (beAt body 8 4) = none → beAt body 8 4 < a.2.2.length → crc64 (body.drop 16) = a.2.2.getD (beAt body 8 4) 0 →
    exec (.snapChunk ctx dev body) s = .next (s.modXch ctx fun x => x.modSnap (beAt body 0 4) fun y =>
      { y with got := NMap.set y.got (beAt body 8 4) (body.drop 16) })) ∧
  (∀ (s : State) (ctx : Fin 256),
    ((s.xchOf ctx).applying = none → exec (.snapshotHoldTimeout ctx) s = .next s) ∧
    ∀ r, (s.xchOf ctx).applying = some r → exec (.snapshotHoldTimeout ctx) s = .next (s.startApplies ctx r)) ∧
  (∀ (s : State) (fn : Fin 64) (ctx : Fin 256), s.reach fn .XCH_CMD ctx = .go → s.flag F.XCH_CFG_EN ctx = true →
    (∀ target : Fin 64, s.xmode ctx = 1 → s.flag F.XCH_STATE_HOLDER ctx = true → s.isLedger ctx = true →
      exec (.handover fn ctx target) s = .next ((s.xchErr ctx 0).modXch ctx fun x => { x with handTo := some target.val })) ∧
    (s.isLedger ctx = true → s.xmode ctx ≠ 0 → s.xmode ctx ≠ 3 → s.fld F.XCH_STATE_EPOCH ctx + 1 < 2 ^ F.XCH_STATE_EPOCH.width → ∃ t,
      exec (.claim fn ctx) s = .next t ∧ t.fld F.XCH_STATE_EPOCH ctx = s.fld F.XCH_STATE_EPOCH ctx + 1 ∧
        t.flag F.XCH_STATE_HOLDER ctx = true ∧ t.xmode ctx = 1) ∧
    (s.xmode ctx = 0 ∨ s.xmode ctx = 1 → exec (.join fn ctx) s = .next (((s.xchErr ctx 0).setFld F.XCH_STATE_MODE ctx 3).fetchAll ctx 3)) ∧
    (s.xmode ctx = 0 → s.fld F.XCH_ROUND_LAST_FORMED ctx = s.fld F.XCH_ROUND_LAST_APPLIED ctx → exec (.resume fn ctx) s =
      .next (((s.xchErr ctx 0).setFld F.XCH_STATE_MODE ctx 1).setToken ctx
        (((s.xchErr ctx 0).setFld F.XCH_STATE_MODE ctx 1).fld F.XCH_STATE_TOKEN_SITE ctx))))

/-- A gateway's sending side (R453, R459 to R471, R476 to R482): items, segments, timers, drops, pacing, ports and key phases. -/
def Obligations.FarSending : Prop :=
  (∀ (s : State) (ctx : Fin 256) (dev : BitVec 16) (site : Fin 64) (rep : Bool) (dst : BitVec 16) (bytes : List Byte),
    let h := soredHead bytes
    exec (.gatewayItemReceive ctx dev site rep 0 dst bytes) s = .next ((s.modGate ctx fun g => { g with
      queue := g.queue ++ [⟨site, h.src, rep, 1, some h.round, bytes⟩], owed := g.owed ++ [(dev.toNat, site.val, 1)] }).grantCredits ctx) ∧
    ∀ kind : Fin 9, kind ≠ 0 → exec (.gatewayItemReceive ctx dev site rep kind dst bytes) s = .next ((s.modGate ctx fun g => { g with
      queue := g.queue ++ (fragments kind dev.toNat dst.toNat g.msgId bytes).map fun f =>
        ⟨site, dev.toNat, rep, 3, if kind.val = 1 then some (beAt bytes 8 8) else none, f⟩
      msgId := (g.msgId + 1) % 2 ^ 32
      owed := g.owed ++ [(dev.toNat, site.val, (fragments kind dev.toNat dst.toNat (s.gate ctx).msgId bytes).length)] }).grantCredits ctx)) ∧
  (∀ (s : State) (ctx : Fin 256) (i : Fin 128) (e : PathEntry), s.pathOn? ctx i = some e → s.watchPath ctx i = s →
    let p := s.path ctx i
    (p.up = true → p.paceAt ≤ s.now →
      (∀ x t, p.segs.find? (·.lost) = some x → s.transmit ctx i e x.typ (1 + 2 * b2n x.rep) x.psn x.payload = some t →
        exec (.segmentSend ctx i) s = .next (s.resend ctx i e x)) ∧
      (∀ k it, p.segs.find? (·.lost) = none → p.segs.length < 2097151 → s.nextItem ctx i = some (k, it) → s.fits e it.payload.length = true →
        exec (.segmentSend ctx i) s = .next (s.sendNew ctx i e k it))) ∧
    (∀ since t, p.pendAt = some since → since + 1000 * s.fld F.FAR_AXT_CFG_ACK_US 0 ≤ s.now →
      s.transmit ctx i e 2 0 0 (p.ackPayload s.now) = some t → exec (.ackDelayTimeout ctx i) s = .next (s.sendAck ctx i e)) ∧
    (∀ x rest, p.segs = x :: rest → x.lost = false → x.sentAt + p.timeout < s.now → exec (.rtoTimeout ctx i) s =
      .next (s.setPath ctx i { p with segs := { x with lost := true } :: rest, rto := min 2000000000 (2 * p.rto), loss := true })) ∧
    (∀ t, p.up = false → p.probed + 100 * ms ≤ s.now → s.transmit ctx i e 4 4 0 [] = some t →
      exec (.probeTimer ctx i) s = .next (t.modPath ctx i fun p => { (if p.up then p.await t.now else p) with idle := t.now, probed := t.now, probing := p.up })) ∧
    (∀ since, p.quiet = some since → since + ms * s.fld F.FAR_AXT_CFG_DEAD_MS 0 ≤ s.now →
      exec (.pathDeadTimeout ctx i) s = .next (s.pathDown ctx i e)) ∧
    (p.up = true → p.interval + max 1000000 p.srtt ≤ s.now → p.loss = true → ∃ t, exec (.paceInterval ctx i) s = .next t ∧
      (t.path ctx i).rate = max (s.fld F.FAR_PACE_CFG_RMIN 0 : Rat) (p.rate * 7 / 10) ∧ (t.path ctx i).loss = false ∧
      (t.path ctx i).interval = s.now) ∧
    ((∃ x ∈ p.segs, s.dropsSeg ctx x = true) →
      let out := p.segs.filter (s.dropsSeg ctx)
      let data := out.countP fun x => x.typ == 1
      let t := s.setPath ctx i (p.dropping (s.dropsSeg ctx) s.now)
      exec (.segmentDrop ctx i) s =
        .next (((t.raise (.context ctx) 0x0309 1 i (2 ^ 32 * data + (out.length - data))).showBuf e.port).roomAgain e.port |>.grantCredits ctx))) ∧
  (∀ (s : State) (port : Fin 2),
    (∀ since, s.bufFull port = true → s.beganAt 30 port = some since → since + 10 * ms ≤ s.now → exec (.bufferFullTimer port) s =
      .next ((s.endOf 30 port).raise .device 0x0308 1 port (ceilDiv (s.bufUsed port) 1048576))) ∧
    (∀ (fn : Fin 64) (v : Word), s.reach fn .FAR_PORT_CFG port = .go → s.fld F.FAR_PORT_CFG_EN port = 0 → 6 ≤ s.stage →
      s.fld F.SEC_STATE_BOOTS 0 ≠ 0xFFFF →
      let t := s.setReg .FAR_PORT_CFG port (RegName.FAR_PORT_CFG.written .whole (s.reg .FAR_PORT_CFG port) v)
      t.fld F.FAR_PORT_CFG_EN port = 1 → t.bufPlaced port = true → exec (.farPortEnable fn port v) s = .next (t.setFld F.FAR_PORT_CFG_ERR port 0)) ∧
    (s.flag F.FAR_PORT_CFG_EN port = true → s.portUp port = false →
      (s.bufPlaced port = false → exec (.farPortUp port) s = .next (s.setFld F.FAR_PORT_CFG_ERR port 1)) ∧
      (s.bufPlaced port = true → s.fld F.FAR_PORT_CFG_ERR port = 0 → 6 ≤ s.stage → ∃ t, exec (.farPortUp port) s = .next t ∧
        t.portUp port = true)) ∧
    (∀ remote : Bool, ∃ t, exec (.farPortDown port remote) s = .next t ∧ t.portUp port = false)) ∧
  (∀ (s : State) (fn : Fin 64) (ctx : Fin 256) (i : Fin 128), s.reach fn .FAR_PATH_SEL 0 = .go →
    let v := F.FAR_PATH_SEL_OP.put (F.FAR_PATH_SEL_CTX.put (F.FAR_PATH_SEL_PATH.put 0#64 i) ctx) 1
    let t := s.setReg .FAR_PATH_SEL 0 (RegName.FAR_PATH_SEL.written .whole (s.reg .FAR_PATH_SEL 0) v)
    (t.pathOn? ctx i).isSome = true → t.watchPath ctx i = t → exec (.keyPhaseSwitch fn ctx i) s = .next (t.modPath ctx i fun p => { p with phase := !p.phase })) ∧
  (∀ (s : State) (ctx : Fin 256) (site : Fin 64) (gw : BitVec 16) (id : BitVec 32) (a : Assembly),
    (s.gate ctx).asm.find? (fun a => a.site == site.val && a.gw == gw.toNat && a.id == id.toNat) = some a →
    a.since + sec * s.fld F.FAR_AXT_CFG_MSG_TTL_S 0 ≤ s.now → exec (.msgTtlExpiry ctx site gw id) s =
      .next ((s.modGate ctx fun g => { g with asm := g.asm.filter fun a => !(a.site == site.val && a.gw == gw.toNat && a.id == id.toNat) }).raise
        (.context ctx) 0x030E 1 a.path id.toNat))

/-- A gateway's receiving side (R454, R457, R461, R465, R472 to R484): each kind of segment that passes its checks, and a discarded frame. -/
def Obligations.FarReceiving : Prop :=
  (∀ (s : State) (port : Fin 2) (frame : List Byte) (ctx i : Nat) (e : PathEntry) (x : Rx) (payload : List Byte),
    let t := s.closedBy ctx i x
    let h := segHead x.seg
    let p := (t.path ctx i).accept h x.ce t.now
    let u := t.setPath ctx i p.1
    let closed := (s.path ctx i).closesGap h.floor
    let acked (v : State) : State := if closed || p.2 || h.ackNow || decide (v.fld F.FAR_AXT_CFG_ACK_SEGS 0 ≤ p.1.pend) then v.sendAck ctx i e else v
    (s.takesSegment port 2 frame ctx i e x payload → exec (.ackSegment port frame) s =
      .next ((t.when (closed || h.ackNow) fun t => t.sendAck ctx i e).takeAck ctx i e (readAck payload))) ∧
    (s.takesSegment port 4 frame ctx i e x payload → exec (.probeSegment port frame) s = .next (t.sendAck ctx i e)) ∧
    (s.takesSegment port 1 frame ctx i e x payload → (t.path ctx i).takes h.psn →
      ∀ o w, u.forwardOf ctx (soredHead payload).shard = some (o, w) →
        let d := u.standIn ctx o
        exec (.dataSegment port frame) s = .next (acked ((u.countForwarded ctx (some (soredHead payload).round) d (8 * frame.length)
          (h.retx || h.repeat_)).post [d] (.soredium ctx d payload)))) ∧
    (s.takesSegment port 3 frame ctx i e x payload → (t.path ctx i).takes h.psn →
      let same (a : Assembly) : Bool := a.site == h.srcSite && a.gw == h.srcGw && a.id == beAt payload 12 4
      let new : Assembly :=
        ⟨h.srcSite, h.srcGw, beAt payload 12 4, i, beAt payload 0 1, beAt payload 2 2, beAt payload 4 2, beAt payload 8 2, u.now, [], (0, 0)⟩
      let put := (((u.gate ctx).asm.find? same).getD new).put (beAt payload 6 2) (payload.drop 16)
      let v := (u.countFragment ctx put (8 * frame.length) (h.retx || h.repeat_)).1
      ∃ a : Assembly, a = { put with early := a.early } ∧
        let rest := (v.gate ctx).asm.filter fun a => !same a
        exec (.msgSegment port frame) s = .next (acked (if a.whole then
            (v.modGate ctx fun g => { g with asm := rest }).forwardMsg ctx h.srcSite a.kind a.src a.dst (a.parts.flatMap (·.2))
          else v.modGate ctx fun g => { g with asm := rest ++ [a] })))) ∧
  (∀ (s : State) (port : Fin 2) (frame : List Byte), s.portUp port = true →
    (s.rxFrame port frame = none ∨ ∃ x, s.rxFrame port frame = some x ∧
      ((segHead x.seg).typ = 0 ∨ 4 < (segHead x.seg).typ ∨ s.rxPath port (segHead x.seg) = none)) →
    exec (.frameDiscard port frame) s = .next (s.rxDiscard port))

/-- The twin pair (R494 to R516): pairing, the heartbeat, a failure and its adoption, what comes from the twin, and PAIR_CTL. -/
def Obligations.PairCommands : Prop :=
  (∀ s : State, s.pairLive = true →
    (s.fld F.PAIR_STATE_MIR_RATE 0 ≠ 0 → s.beganAt helloTimer 0 = none → s.pairState = 0 → exec .helloSend s =
      .next ((s.beginAt helloTimer 0).postMir (.hello (s.fld F.HIF_ID_ORDER 0) (s.fld F.HIF_ID_STEPPING 0) (s.fld F.HIF_SERIAL_SERIAL 0) s.deviceId
        (s.fld F.PAIR_CFG_POS 0) 0))) ∧
    (s.pairState = 0 → s.pair.late = false → s.fld F.BOOT_STAGE_T_TIME 6 + 60 * sec ≤ s.now → exec .pairTimeout s =
      .next (({ s with pair := { s.pair with late := true } } : State).raise .device 0x0402 2 s.twinId 3)) ∧
    (∀ (order stepping : BitVec 8) (serial : BitVec 40) (dev : BitVec 16) (pos : Fin 2) (pst : Fin 5), s.quiesce = false →
      exec (.hello order stepping serial dev pos pst) s = .next (s.fromTwin.serveHello order.toNat stepping.toNat dev.toNat pos pst))) ∧
  (∀ s : State, s.pairBeats = true →
    (s.fld F.PAIR_STATE_MIR_RATE 0 ≠ 0 → s.beganAt beatTimer 0 = none →
      let t := (s.beginAt beatTimer 0).postMir (.heartbeat s.pair.beats s.now s.pairState false)
      exec .heartbeatSend s = .next { t with pair := { t.pair with beats := t.pair.beats + 1 } }) ∧
    (∀ (seq time : BitVec 64) (pst : Fin 5) (fatal : Bool), exec (.heartbeat seq time pst fatal) s =
      .next (if fatal then s.fromTwin.twinFails 2 else s.fromTwin)) ∧
    (s.fld F.PAIR_LAST_HB_TIME 0 + 20000 ≤ s.now → exec .twinSilenceTimeout s = .next (s.twinFails 1)) ∧
    (s.quiesce = false → ∀ (ctx : Fin 256),
      let t := s.fromTwin
      (∀ (step : BitVec 64) (sum norm kappa : BitVec 32) (reason : Fin 4) (k : List (BitVec 32)),
        let d : Decision := ⟨sum.toNat, norm.toNat, kappa.toNat, reason, k.map (·.toNat)⟩
        exec (.decision ctx step sum norm kappa reason k) s =
          .next (t.modStep ctx fun p => if p.index = step.toNat then { p with mirror := some d } else p)) ∧
      ∀ (shard : BitVec 24) (x : Shard), t.shard? ctx shard.toNat = some x →
        (∀ grad gexp, exec (.gradient ctx shard grad gexp) s = .next (t.serveGradient ctx x grad gexp)) ∧
        (∀ (round : BitVec 32) (dlt : List (BitVec 32)),
          exec (.delta ctx shard round dlt) s = .next (t.serveDelta ctx x round.toNat (dlt.map (·.toNat)))) ∧
        (∀ (of_ : DigestOf) (first : Nat) (digests : List (BitVec 64)) (marks : List Nat),
          exec (.digest ctx shard of_ first digests marks) s =
            .next (t.takeDigests ctx x of_.pass of_.step.toNat first (digests.map (·.toNat)) marks)) ∧
        (∀ block bytes, block < x.digestBlocks → bytes.length = (t.blockBytes x block).length →
          exec (.repair ctx shard block bytes) s = .next (t.takeRepair ctx x block bytes) ∧
          (t.pairState = 4 → t.mirrors x = true → exec (.copy ctx shard block bytes) s =
            .next (let u := (t.writeParts (x.blockParts block) bytes).unmark x block
              let u := if x.planeOf block ≤ 1 then u.deriveBlock x block else u
              if block + 1 = x.digestBlocks then { u with copied := (ctx.val, x.num) :: u.copied } else u))))) ∧
  (∀ (s : State) (since : Nat), s.pair.adoptDue = some since → exec .adoption s =
    .next (({ s with pair := { s.pair with adoptDue := none } } : State).each (List.range 256) fun n t => t.adoptCtx t.twinId since n)) ∧
  (∀ (s : State) (ctx : Fin 256) (failed adopter replica other : BitVec 16) (drop back : Bool),
    exec (.adoptionAnnounce ctx failed adopter replica other drop back) s =
      .next (s.takeAdoption ctx failed.toNat adopter.toNat replica.toNat other.toNat drop back)) ∧
  (∀ s : State,
    (let t : State := { s with pair := { s.pair with holdN := true } }
     (s.fld F.PAIR_CFG_POS 0 = 0 → s.flag F.PAIR_STATE_DRIVING 0 = true → exec .pairHold s = .next (t.setFld F.PAIR_STATE_HOLD 0 1)) ∧
     (s.fld F.PAIR_CFG_POS 0 ≠ 0 ∨ s.flag F.PAIR_STATE_DRIVING 0 = false → exec .pairHold s = .next (t.inputChanged 7))) ∧
    exec .pairHoldRelease s =
      .next ((({ s with pair := { s.pair with holdN := false } } : State).setFld F.PAIR_STATE_HOLD 0 0).inputChanged 7)) ∧
  (∀ (s : State) (fn : Fin 64), s.reach fn .PAIR_CTL 0 = .go →
    (s.pairState = 1 ∨ s.pairState = 3 →
      exec (.release fn) s = .next (((s.setFld F.PAIR_STATE_DRIVING 0 0).setFld F.PAIR_STATE_HOLD 0 0).inputChanged 7)) ∧
    (s.pairState = 4 → s.pair.receiver = false → exec (.reintegrate fn) s =
      .next (({ s with pair := { s.pair with copying := true } } : State).each s.idleCtxs fun n t => t.stepBoundary n)) ∧
    (s.pairState = 4 → s.allCopied = true → exec (.handback fn) s =
      .next ((({ s with pair := { s.pair with handback := true, back := 0 } } : State).each s.idleCtxs fun n t => t.stepBoundary n).handbackEnd)) ∧
    (∀ ctx : Fin 256, exec (.continueStep fn ctx) s = .next (s.setFld F.PAIR_CTX_STATE_HELD ctx 0)))

/-- The nine messages of a mailbox (Table 15-3, R522 to R538): a request in order is answered OK and has its effect. -/
def Obligations.MailboxMessages : Prop :=
  (∀ (s : State) (fn : Fin 64),
    (s.messageIn fn 0x0001 3 → exec (.getVersion fn) s = .next (s.respond fn St.ok 0 (leBytes 4 Config.romVersion ++
      leBytes 1 s.directory.active ++ leBytes 3 0 ++ s.firmware.running.flatMap fun x => leBytes 8 x.1))) ∧
    (s.messageIn fn 0x0002 3 → exec (.telemetry fn) s =
      .next (s.respond fn St.ok 0 (telemetry.flatMap fun r => leBytes 8 (s.reg r.1 r.2).toNat)))) ∧
  (∀ s : State,
    (s.messageIn 0 0x0022 3 → exec (.fwQuery 0) s = .next (s.respond 0 St.ok 0 ([0, 1].flatMap fun k =>
      leBytes 1 (s.directory.state k) ++ leBytes 3 0 ++ leBytes 8 (bundleVersion (s.slotBytes k)) ++ leBytes 4 (bundleSvn (s.slotBytes k))))) ∧
    (s.messageIn 0 0x0010 3 → s.reqField 0 40 1 < 2 → s.reservedBad 0 41 7 = none →
      (s.driver ≠ 0 → s.driver ≠ 2 → exec (.driverAttach 0) s = .next (s.openSession.attached 0)) ∧
      (s.driver = 0 → s.tokenGood 0 = true → exec (.driverAttach 0) s = .next (s.attached 0)) ∧
      (s.driver = 2 → s.tokenGood 0 = true →
        let t := s.raise .device 0x0808 0 0 ((s.now - s.firmware.session.held) / ms)
        exec (.driverAttach 0) s = .next (((t.modSession fun x => { x with beat := t.now }).setFld F.HIF_STATUS_DRIVER 0 0).attached 0)) ∧
      (s.driver = 0 ∨ s.driver = 2 → s.tokenGood 0 = false → (s.reqField 0 40 4).testBit 0 = true →
        exec (.driverAttach 0) s = .next (s.shutdown true))) ∧
    (s.tokenGood 0 = true →
      (s.messageIn 0 0x0011 3 → exec (.driverDetach 0) s =
        .next (((s.modSession fun x => { x with token := none }).setFld F.HIF_STATUS_DRIVER 0 1).respond 0 St.ok 0 [])) ∧
      (s.messageIn 0 0x0012 3 → 10 ≤ s.reqField 0 40 4 → s.reqField 0 40 4 ≤ 86400 → s.reservedBad 0 44 4 = none → exec (.setOrphan 0) s =
        .next ((s.modSession fun x => { x with orphan := s.reqField 0 40 4 }).respond 0 St.ok 0 [])) ∧
      (s.messageIn 0 0x0020 3 → 0 < s.reqField 0 48 4 → s.reqField 0 48 4 ≤ 48 * 1048576 → s.reservedBad 0 52 4 = none →
        s.firmware.staging = none → exec (.fwStage 0) s =
          .next ((s.beginStage (s.reqField 0 40 8) (s.reqField 0 48 4)).respond 0 St.ok 0 (leBytes 1 s.spareSlot ++ leBytes 7 0))) ∧
      (s.messageIn 0 0x0021 6 → s.activatable (s.reqField 0 40 1) = true → s.reqField 0 41 1 = 0 → s.firmware.act = none →
        let defer := s.reqField 0 42 2
        let wait := s.reqField 0 44 4
        wait = 0 ∨ (100 ≤ wait ∧ wait ≤ 600000) → exec (.fwActivate 0) s = .next ((s.beginActivation (s.reqField 0 40 1)
          (if defer = 0 then 600 else defer) (if wait = 0 then 10000 else wait)).respond 0 St.ok 0 [])) ∧
      (s.messageIn 0 0x0030 3 → s.firmware.diag = none →
        let test := s.reqField 0 40 4
        let p := s.reqField 0 44 4
        1 ≤ test → test ≤ 4 → (test = 3 → p ≤ 6) → (test = 4 → p ≤ 11) → (3 ≤ test → s.anyCtxOn = false) → exec (.diagRun 0) s =
          .next (({ s with firmware := { s.firmware with diag := some (test, p) } } : State).respond 0 St.ok 0 []))))

/-- What the firmware does later (R526 to R538): a bundle staged, an activation's steps, the driver's watchdog, orphan hold, diagnostics and
the board management controller. -/
def Obligations.FirmwareEvents : Prop :=
  (∀ (s : State) (slot addr len : Nat), s.firmware.staging = some (slot, addr, len) →
    exec (.fwStageDone true) s = .next (s.finishStage slot (memRead s.host addr len)) ∧
    exec (.fwStageDone false) s = .next (s.stageFails slot 1)) ∧
  (∀ (s : State) (a : Activation), s.firmware.act = some a →
    (a.step = 1 → s.causes = 0 → (∀ t, s.beganAt clearTimer 0 = some t → t + sec ≤ s.now) → exec .activationClearWait s =
      .next ({ s.setAct (some { a with step := 2, quiesced := s.now }) with quiesce := true })) ∧
    (a.step = 2 → s.quiet = true → exec .activationQuiesced s = .next (s.setAct (some { a with step := 5, released := s.now }))) ∧
    (a.step = 2 → a.quiesced + a.wait ≤ s.now → exec .activationQuiesceTimeout s = .next (s.abandonAct a 2)) ∧
    (a.step ≤ 2 → a.accepted + a.maxDefer ≤ s.now → exec .activationDeferTimeout s = .next (s.abandonAct a 1)) ∧
    (a.step = 5 → s.now ≤ a.released + 3 * sec / 2 →
      let t := ((s.setAct none).writeDirectory (s.directory.activated a.slot)).runBundle (s.slotBytes a.slot)
      ∀ u d, (t.raise .device 0x0803 0 a.slot ((t.now - a.accepted) / ms)).resumeDispatch.raiseFloor (s.slotBytes a.slot) = (u, d) →
        exec .activationHealth s =
          .next (if s.verifies (s.slotBytes a.slot) = true then d.elim u fun d => u.raise .device 0x0908 1 0 d else s)) ∧
    (∀ core : Fin 4, a.step = 5 → a.released + sec ≤ s.now →
      let t := ((s.setAct none).writeDirectory (s.directory.withState a.slot 1)).raise .device 0x0806 2 a.slot (core + 1)
      exec (.coreHealthTimeout core) s =
        .next (if a.before ≤ 1 ∧ t.verifies (t.slotBytes a.before) = true then t.resumeDispatch else t.fatal))) ∧
  (∀ (s : State) (test p : Nat) (result : BitVec 32), s.firmware.diag = some (test, p) → exec (.diagDone result) s =
    .next (({ s with firmware := { s.firmware with diag := none } } : State).raise .device 0x080F 0 test result.toNat)) ∧
  (∀ s : State, s.firmware.session.token.isSome = true →
    (s.driver = 0 → s.firmware.session.beat + 2 * sec < s.now → exec .driverWatchdogExpiry s =
      .next (((s.modSession fun x => { x with held := s.now }).setFld F.HIF_STATUS_DRIVER 0 2).raise .device 0x0807 2 0
        (s.firmware.session.beat / ms))) ∧
    (s.driver = 2 → s.firmware.session.held + sec * s.firmware.session.orphan ≤ s.now →
      exec .orphanTimeout s = .next (s.shutdown false))) ∧
  (∀ s : State, s.bmcServed = true →
    (∀ q : PldmQuery, exec (.pldmRequest q) s = .next (s.emit (.pldm (s.sensor q)))) ∧
    (∀ bundle : List Byte, s.firmware.staging = none → s.firmware.act = none → bundle ≠ [] → bundle.length ≤ 48 * 1048576 →
      let t := (s.beginStage 0 bundle.length).finishStage s.spareSlot bundle
      exec (.pldmFirmwareUpdate bundle) s =
        .next (if t.stage = 6 ∧ t.activatable s.spareSlot = true then t.beginActivation s.spareSlot 600 10000 else t)))

/-- The SPDM responder and IDE (R552 to R554, R560): each request in its order is answered, a secure session opens and ends, a stream's key
is installed; a TLP that verifies is taken, and one that does not makes its stream insecure. -/
def Obligations.SpdmAndIde : Prop :=
  (∀ s : State, s.spdmOn = true →
    let spdm := s.secure.spdm
    exec .spdmGetVersion s = .next ((s.modSpdm fun _ => ⟨1, []⟩).spdmReply SpdmCode.version (leBytes 2 0x1300)) ∧
    (1 ≤ spdm.phase → exec .spdmGetCapabilities s =
      .next ((s.modSpdm fun x => { x with phase := max x.phase 2 }).spdmReply SpdmCode.capabilities [])) ∧
    (2 ≤ spdm.phase → exec (.spdmNegotiateAlgorithms true) s =
      .next ((s.modSpdm fun x => { x with phase := 3 }).spdmReply SpdmCode.algorithms [])) ∧
    (3 ≤ spdm.phase →
      exec .spdmGetDigests s = .next (s.spdmReply SpdmCode.digests (sha384 (s.chain 0) ++ sha384 (s.chain 1))) ∧
      (∀ slot : Fin 8, slot.val < 2 →
        (∀ offset length : BitVec 16, exec (.spdmGetCertificate slot offset length) s =
          .next (s.spdmReply SpdmCode.certificate (((s.chain slot).drop offset.toNat).take length.toNat))) ∧
        (∀ nonce : List Byte, exec (.spdmChallenge slot nonce) s =
          .next (s.spdmReply SpdmCode.challengeAuth (Config.aliasSign s.secDigest (sha384 (s.chain slot) ++ nonce)))) ∧
        (∀ (exchange : List Byte) (id : Nat), spdm.sessions.length < 4 →
          (List.range 5).find? (fun k => !spdm.sessions.any fun x => x.1 == k) = some id → exec (.spdmKeyExchange slot exchange) s =
            .next ((s.modSpdm fun x => { x with sessions := x.sessions ++ [(id, false)] }).spdmReply SpdmCode.keyExchangeRsp
              (leBytes 4 id ++ exchange)))) ∧
      (∀ (index : BitVec 8) (nonce : List Byte), 1 ≤ index.toNat → index.toNat ≤ 9 →
        let body := leBytes 1 index.toNat ++ s.measurement index.toNat
        exec (.spdmGetMeasurements index true nonce) s =
          .next (s.spdmReply SpdmCode.measurements (leBytes 1 9 ++ body ++ Config.aliasSign s.secDigest (body ++ nonce))) ∧
        exec (.spdmGetMeasurements index false nonce) s = .next (s.spdmReply SpdmCode.measurements (leBytes 1 9 ++ body))) ∧
      ∀ session : BitVec 32,
        (s.spdmSession session.toNat false = true → exec (.spdmFinish session true) s = .next ((s.modSpdm fun x => { x with
          sessions := x.sessions.map fun y => if y.1 = session.toNat then (session.toNat, true) else y }).spdmReply SpdmCode.finishRsp [])) ∧
        (s.spdmSession session.toNat true = true →
          exec (.spdmKeyUpdate session) s = .next (s.spdmReply SpdmCode.keyUpdateAck []) ∧
          exec (.spdmHeartbeat session) s = .next (s.spdmReply SpdmCode.heartbeatAck []) ∧
          exec (.spdmEndSession session) s = .next ((s.modSpdm fun x => { x with
            sessions := x.sessions.filter fun y => y.1 != session.toNat }).spdmReply SpdmCode.endSessionAck []) ∧
          ∀ (stream : Fin 4) (tx : Bool) (sub : Fin 3) (set : Fin 2) (key : BitVec 256), exec (.ideKm session stream tx sub set key) s =
            .next (s.installKey (4032 + 12 * stream.val + 6 * b2n tx + 2 * sub.val + set.val) ⟨3, 0, 0, leBytes 32 key.toNat⟩)))) ∧
  (∀ (s : State) (stream : Fin 4) (sub : Fin 3) (set : Fin 2) (iv aad sealed : List Byte),
    let slot := 4032 + 12 * stream.val + 2 * sub.val + set.val
    (∀ k plain, s.keyIn slot 3 0 = some k → gcmOpen k.key iv aad sealed = some plain →
      exec (.ideTlpReceive stream sub set iv aad sealed) s = .next s) ∧
    (s.inReset = false → s.secure.insecure.contains stream.val = false →
      (∀ k, s.keyIn slot 3 0 = some k → gcmOpen k.key iv aad sealed = none) →
      exec (.ideTlpReceive stream sub set iv aad sealed) s =
        .next ((s.modSecure fun x => { x with insecure := stream.val :: x.insecure }).raise .device 0x090A 2 stream sub)))

/-- Keys, alarms and field access (R555 to R559, R564, R567, R568). -/
def Obligations.KeysAndFieldAccess : Prop :=
  (∀ (s : State) (fn : Fin 64), s.reach fn .SEC_KEY_CMD 0 = .go → s.flag F.SEC_KEY_STATUS_BUSY 0 = false →
    (let t := s.spaceTouch (s.fld F.SEC_KEY_ADDR_SPACE 0) (s.fld F.SEC_KEY_ADDR_ADDR 0 * 64) 160
     let blob := t.spaceRead (t.fld F.SEC_KEY_ADDR_SPACE 0) (t.fld F.SEC_KEY_ADDR_ADDR 0 * 64) 160
     let slot := leNat ((blob.drop 4).take 2)
     exec (.keyLoad fn) s = .next (match t.checkBlob blob with
      | .ok k => t.keyWaits slot (some k)
      | .error e => ((t.setFld F.SEC_KEY_STATUS_ERR 0 e).setFld F.SEC_KEY_STATUS_SLOT 0 slot).raise .device 0x0904 1 slot e)) ∧
    (∀ slot : BitVec 12, slot.toNat < 4032 → exec (.keyErase fn slot) s = .next (s.keyWaits slot.toNat none))) ∧
  (∀ (s : State) (slot : Nat),
    let t := (s.modSecure fun x => { x with keyDue := none }).setFld F.SEC_KEY_STATUS_BUSY 0 0
    (s.secure.keyDue = some (slot, none) → exec .keySlotUpdate s = .next (t.emptySlot slot)) ∧
    (∀ k, s.secure.keyDue = some (slot, some k) → exec .keySlotUpdate s =
      .next ((t.installKey slot k).raise .device 0x0903 0 slot (2 ^ 56 * k.cls + (s.loadSeq + 1) % 2 ^ 32)))) ∧
  (∀ (s : State) (mask : BitVec 6) (corrected : BitVec 32) (link : Bool),
    let t := s.bumpFld F.SEC_ALARM_CORRECTED 0 corrected.toNat
    exec (.securityAlarm mask corrected link) s = .next (if mask = 0 then t else t.alarm mask.toNat link)) ∧
  (∀ (s : State) (fn : Fin 64), s.reach fn .SEC_FA_CTL 0 = .go →
    (s.flag F.SEC_FA_STATE_LOCKED 0 = false → ∃ t, exec (.challenge fn) s = .next t ∧ t.flag F.SEC_FA_STATE_PENDING 0 = true ∧
      t.secure.drawn = s.now ∧ t.draws = s.draws + 6) ∧
    (let key := s.fld F.SEC_FA_REQ_KEY_IDX 0
     let mask := s.fld F.SEC_FA_REQ_SCOPES 0 % 16
     s.flag F.SEC_FA_STATE_PENDING 0 = true → s.now < s.secure.drawn + 60 * sec → (s.fld F.SEC_STATE_FA_REVOKED 0).testBit key = false →
     (mask.testBit 3 = true → s.anyCtxOn = false) →
     let t := s.setFld F.SEC_FA_STATE_PENDING 0 0
     exec (.submit fn) s = .next (if ecdsa384 (Config.faKey key) s.faStatement s.faSignature = true then
       t.openScopes mask (s.fld F.SEC_FA_REQ_MINUTES 0) else t.faRefuse true 1)) ∧
    exec (.close fn) s = .next (s.closeScopes 0xF 2)) ∧
  (∀ s : State,
    (s.flag F.SEC_FA_STATE_PENDING 0 = true → s.secure.drawn + 60 * sec ≤ s.now →
      exec .nonceExpiry s = .next (s.setFld F.SEC_FA_STATE_PENDING 0 0)) ∧
    (∀ (scope : Fin 4) (till : Nat), NMap.get? s.secure.scopes scope = some till → till ≤ s.now →
      exec (.scopeExpiry scope) s = .next (s.closeScopes (2 ^ scope.val) 1)))

/-- The TAP's instructions (R566): the boundary cells are driven only while the device is held in reset, and the field-access registers are
reached at all times. -/
def Obligations.TapCommands : Prop :=
  ∀ s : State,
    exec .idcode s = .next ((s.tapTo .idcode).emit (.tap (2 ^ 28 * 0xB + 2 ^ 12 * 0xC004 + Config.manufacturer % 2 ^ 11 * 2 + 1))) ∧
    exec .bypass s = .next (s.tapTo .bypass) ∧
    (∀ cells : List Bool, exec (.samplePreload cells) s = .next { s with tap := ⟨.sample, cells⟩ }) ∧
    (s.inReset = true → exec .extest s = .next (s.tapTo .extest) ∧ exec .extestPulse s = .next (s.tapTo .extestPulse) ∧
      exec .extestTrain s = .next (s.tapTo .extestTrain)) ∧
    (s.inReset = false → exec .extest s = .next (s.tapTo .bypass) ∧ exec .extestPulse s = .next (s.tapTo .bypass) ∧
      exec .extestTrain s = .next (s.tapTo .bypass)) ∧
    (∀ v : Word, exec (.secFa .req v) s = .next ((s.tapTo .secFa).writeReg .SEC_FA_REQ 0 .whole v)) ∧
    (∀ v : Word, exec (.secFa .ctl v) s = .next ((s.tapTo .secFa).faCtl .whole v)) ∧
    (∀ (i : Fin 12) (v : Word), exec (.secFa (.resp i) v) s = .next ((s.tapTo .secFa).setReg .SEC_FA_RESP i v))

/-- The reset inputs (R494, R570, R571): a cold input wins over a warm one, the device is held while one is asserted, and leaves the reset
when none is left. -/
def Obligations.ResetInputs : Prop :=
  ∀ s : State,
    let b := s.boot
    (b.kind < 3 →
      exec .pwrGoodFall s = .next (({ s with boot := { b with pwrLow := true } } : State).enterReset 3 1) ∧
      exec .coldResetAssert s = .next (({ s with boot := { b with coldN := true } } : State).enterReset 3 2)) ∧
    (b.kind = 0 → b.pwrLow = false → b.coldN = false → s.pair.holdN = false →
      exec .warmResetAssert s = .next (({ s with boot := { b with warmN := true } } : State).enterReset 1 3) ∧
      exec .perstAssert s = .next (({ s with boot := { b with perstN := true } } : State).enterReset 1 4) ∧
      exec .pcieHotReset s = .next (({ s with boot := { b with linkOff := true } } : State).enterReset 1 5)) ∧
    (∀ fn : Fin 64, s.reach fn .BOOT_CTL 0 = .go → exec (.warm fn) s = .next (s.enterReset 1 6).tryLeave) ∧
    (b.kind ≠ 0 → s.pair.holdN = false →
      (∀ straps : BitVec 4, b.pwrLow = true → b.coldN = false → b.warmN = false → b.perstN = false → b.linkOff = false → ∃ t,
        exec (.pwrGoodRise straps) s = .next t ∧ t.inReset = false ∧ t.boot.straps = straps.toNat ∧
          t = ({ s with boot := { b with pwrLow := false, straps := straps.toNat } } : State).tryLeave) ∧
      (b.pwrLow = false → ∃ t, exec .resetRelease s = .next t ∧ t.inReset = false ∧
        t = ({ s with boot := { b with coldN := false, warmN := false, perstN := false, linkOff := false } } : State).tryLeave)) ∧
    (b.pwrLow = false → ∀ straps : BitVec 4, exec (.pwrGoodRise straps) s = .next s)

/-- Bring-up (R572 to R583, R602): each stage follows the one before it, a bound that passes halts, a recovery bundle is fetched, and a
reference clock stops. -/
def Obligations.BringUp : Prop :=
  (∀ s : State,
    (∀ flash : Option (BitVec 32), s.at_ 0 = true → exec (.stageReached (.s1 flash)) s = .next (s.romStart (flash.map (·.toNat)))) ∧
    (s.at_ 1 = true → s.flag F.BOOT_STRAPS_BOOT_SRC 0 = false → exec (.stageReached .s2) s = .next s.bootFirmware) ∧
    (s.at_ 2 = true → exec (.stageReached (.s3 none)) s = .next s.protonema) ∧
    (∀ bad : List (Fin 384), s.at_ 3 = true → exec (.stageReached (.s4 bad)) s = .next (s.trainMemory (bad.map (·.val)))) ∧
    (s.at_ 4 = true → exec (.stageReached .s5) s = .next s.fabricUp) ∧
    (s.at_ 5 = true → s.settled = true →
      let t : State := { s.enterStage 6 with boot := { s.boot with served := true } }
      exec (.stageReached .s6) s = .next (if s.flag F.PAIR_CFG_EN 0 then t else t.setFld F.PAIR_STATE_STATE 0 1)) ∧
    (∀ b, s.stageBound = some b → s.at_ s.stage = true → s.boot.t0 + ms * b < s.now →
      exec .stageBoundTimeout s = .next (s.halt 7 (s.stage + 1)))) ∧
  (∀ (s : State) (fn : Fin 64), s.reach fn .BOOT_CTL 0 = .go → s.awaitsRecovery = true → s.fld F.BOOT_RECOV_STATUS_STATE 0 ≠ 2 →
    let len := s.fld F.BOOT_RECOV_LEN_LEN 0
    exec (.recover fn) s =
      .next (if len = 0 ∨ 48 * 1048576 < len then s.setRecov 4 4 else (s.setRecov 2 0).setFld F.BOOT_RECOV_STATUS_BYTES 0 0)) ∧
  (∀ s : State, s.fld F.BOOT_RECOV_STATUS_STATE 0 = 2 →
    let len := s.fld F.BOOT_RECOV_LEN_LEN 0
    let b := memRead s.host (4096 * s.fld F.BOOT_RECOV_ADDR_ADDR 0) len
    let k := s.spareSlot
    let t := (s.setSlot k b).setFld F.BOOT_RECOV_STATUS_BYTES 0 len
    (∀ n : BitVec 32, exec (.recoveryFetchDone (some n)) s = .next ((s.setRecov 4 1).setFld F.BOOT_RECOV_STATUS_BYTES 0 n.toNat)) ∧
    (let d : Directory := { t.directory.withState k 3 with active := k }
     let d := if d.state (1 - k) = 0 then d else d.withState (1 - k) (if t.verifies (t.slotBytes (1 - k)) then 4 else 1)
     let u := (t.writeDirectory d).setRecov 3 0
     let u := ((u.setFld F.BOOT_STAGE_FAULT 0 0).setFld F.BOOT_STAGE_CODE 0 0).setFld F.BOOT_STAGE_UNIT 0 0
     exec (.recoveryFetchDone none) s = .next (
      if t.recovFault b = 0 then ({ u with boot := { u.boot with recovered := true } } : State).bootSlot k
      else (t.writeDirectory (t.directory.withState k 1)).setRecov 4 (t.recovFault b)))) ∧
  (∀ s : State, s.inReset = false →
    exec (.refclkLoss .sds0) s = .next (s.each (List.range 7) fun p t => t.linkDown p 2) ∧
    exec (.refclkLoss .sds1) s = .next (s.each [0, 1] fun p s => (s.setFld F.FAR_PORT_STATE_LF p 1).portDown p 1) ∧
    exec (.refclkLoss .pcie) s = .next s ∧
    exec (.refclkLoss .hub) s = .next (s.alarm 2 true))

/-- The machine right after reset (R28, R42, R584): nothing waits, device time is 0, every register holds its reset value, the memories list
nothing and are in their canonical form. -/
def Obligations.ResetState : Prop :=
  State.reset.memoriesCanonical ∧ State.reset.pending = [] ∧ State.reset.now = 0 ∧ State.reset.stage = 0 ∧
  (∀ (r : RegName) (i : Nat), State.reset.reg r i = r.resetValue i) ∧
  (∀ a, State.reset.devByte a = 0 ∧ memGet State.reset.host a = 0) ∧
  (∀ k, State.reset.tile k = Tile.idle) ∧ State.reset.keys = []

/-- Every step keeps the byte memories in their canonical form. -/
def Obligations.StepKeepsMemoryForm : Prop :=
  ∀ s t : State, s.memoriesCanonical → step s = .next t → t.memoriesCanonical

/-- The codec is lossless (R352): a stream decodes to exactly the bytes that were coded, and one block does so whatever follows it. -/
def Obligations.CodecLossless : Prop :=
  (∀ plain : List Byte, plain.length % 64 = 0 →
    decodeAll (ceilDiv plain.length blockSize) (encodeStream (ceilDiv plain.length blockSize) plain) plain.length = some plain) ∧
  (∀ plain after : List Byte, 0 < plain.length → plain.length ≤ blockSize → plain.length % 64 = 0 →
    decodeBlock (encodeBlock plain ++ after) plain.length = .plain plain (encodeBlock plain).length)

/-- What the cipher seals it opens with the same key, IV and additional data, and a ciphertext with another tag opens to nothing (R424,
R562). -/
def Obligations.SealOpens : Prop :=
  ∀ key iv aad plain : List Byte,
    gcmOpen key iv aad (gcmSeal key iv aad plain) = some plain ∧ (gcmSeal key iv aad plain).length = plain.length + 16 ∧
    ∀ ct tag : List Byte, tag.length = 16 → tag ≠ gcmTagOf key iv aad ct → gcmOpen key iv aad (ct ++ tag) = none

/-- What a host write stores in a register (R24, R26, Table 0-4): each written bit follows the access type of its field, and every bit of the
other half, and every reserved bit, stays. -/
def Obligations.WriteAccess : Prop :=
  ∀ (r : RegName) (h : Half) (old v : Word),
    (∀ row ∈ r.rows, ∀ k, row.lo ≤ k → k < row.lo + row.width → (r.written h old v).getLsbD k =
      if h.mask.getLsbD k then
        (if row.acc = .rw ∨ row.acc = .rws then v.getLsbD k
        else if row.acc = .w1c then old.getLsbD k && !v.getLsbD k
        else if row.acc = .w1s then old.getLsbD k || v.getLsbD k
        else old.getLsbD k)
      else old.getLsbD k) ∧
    (∀ k, (∀ row ∈ r.rows, k < row.lo ∨ row.lo + row.width ≤ k) → (r.written h old v).getLsbD k = old.getLsbD k) ∧
    (∀ k, k < 32 → (r.written .high old v).getLsbD k = old.getLsbD k) ∧
    (∀ k, 32 ≤ k → (r.written .low old v).getLsbD k = old.getLsbD k)

/-- What each kind of reset does to the registers and memories (R1, R4, R28, R42, Table 17-8): a cold reset (3) returns every register, the
fuses' and the part's identity apart, to its reset value; a warm (1) or a pair-forced (2) one keeps the identity, the RWS fields and those that
`keptField` names, and returns the others, the fuses' and the counter of key loads apart. -/
def Obligations.ResetsKeep : Prop :=
  ∀ (s : State) (r : RegName) (i : Nat), i < 1048576 → r ≠ .SEC_STATE →
    (r ≠ .HIF_ID → r ≠ .HIF_SERIAL → (s.afterReset 3).reg r i = r.resetValue i) ∧
    (r = .HIF_ID ∨ r = .HIF_SERIAL → ∀ kind, ∀ row ∈ r.rows, (s.afterReset kind).fld (row.field r) i = s.fld (row.field r) i) ∧
    (s.afterReset 3).mem = [] ∧ (s.afterReset 3).now = 0 ∧
    ∀ kind, kind = 1 ∨ kind = 2 →
      (s.afterReset kind).mem = s.mem ∧ (s.afterReset kind).now = s.now ∧ (s.afterReset kind).store = [] ∧ (s.afterReset kind).keys = [] ∧
      (∀ row ∈ r.rows, row.acc = .rws → keptField kind r row = true) ∧
      (r ≠ .SEC_KEY_STATUS → ∀ row ∈ r.rows,
        (s.afterReset kind).fld (row.field r) i = if keptField kind r row then s.fld (row.field r) i else (row.field r).of (r.resetValue i))

/-- A tile's registers (R100 to R102): s0 and p0 hold their fixed values whatever is written, any other register reads what was last written
and no other changes, and a lane-wise write reaches the active lanes alone. -/
def Obligations.TileRegisters : Prop :=
  (∀ (core : TileCore) (i j : Nat) (v : BitVec 64) (p : BitVec 256) (x : BitVec 4096),
    core.sreg 0 = 0 ∧ core.preg 0 = BitVec.allOnes 256 ∧ core.setS 0 v = core ∧ core.setP 0 p = core ∧
    (i ≠ 0 → (core.setS i v).sreg i = v ∧ (core.setP i p).preg i = p) ∧ (core.setV i x).vreg i = x ∧
    (j ≠ i → (core.setS i v).sreg j = core.sreg j ∧ (core.setP i p).preg j = core.preg j ∧ (core.setV i x).vreg j = core.vreg j) ∧
    (core.setS i v).v = core.v ∧ (core.setS i v).p = core.p ∧ (core.setS i v).cells = core.cells ∧
    (core.setP i p).s = core.s ∧ (core.setP i p).v = core.v ∧ (core.setP i p).cells = core.cells ∧
    (core.setV i x).s = core.s ∧ (core.setV i x).p = core.p ∧ (core.setV i x).cells = core.cells) ∧
  (∀ (core : TileCore) (set set' : Bool) (row col row' col' v : Nat), row < 64 → col < 64 → row' < 64 → col' < 64 →
    (core.setCell set row col v).cell set' row' col' =
      if set' = set ∧ row' = row ∧ col' = col then v % 2 ^ 32 else core.cell set' row' col') ∧
  (∀ (old : BitVec 4096) (guard : BitVec 256) (w n : Nat) (f : Nat → Nat), w * n ≤ 4096 →
    (∀ i, i < n → lane (mergeLanes old guard w n f) w i = if guard.getLsbD i then f i % 2 ^ w else lane old w i) ∧
    (∀ k, w * n ≤ k → (mergeLanes old guard w n f).getLsbD k = old.getLsbD k))

/-- An operation whose guard is off performs nothing, but names its destinations; one that names a register which another operation of its
bundle has named, performed or not, is a decode fault (R102, R104, R133). -/
def Obligations.SlotChecks : Prop :=
  ∀ (s : State) (i : Instr) (h : SlotHdr) (c : SlotCtx), s.openSlot h = .go c →
    (∀ keys, guardedOp i = some (h, h.slot, keys) → c.on = false →
      ((∀ key ∈ keys, c.mayWrite key) → exec i s = .next (s.issued h c (c.x.gathers keys []))) ∧
      (∀ key ∈ keys, c.x.wrote.contains key = true → exec i s = .next (s.tileFault h.tile St.badCommand 3))) ∧
    (∀ key, soleWriter i = some (h, key) → h.slot = .c → c.x.wrote.contains key = true →
      exec i s = .next (s.tileFault h.tile St.badCommand 3))

/-- The frame of an operation that has issued (R103): before the last of its bundle nothing but its own tile changes; a bundle that only
stores changes, beside its tile, the tile-store bytes of its stores alone, and they read as stored. -/
def Obligations.SlotFrame : Prop :=
  ∀ (s : State) (h : SlotHdr) (c : SlotCtx) (x : Tile), s.openSlot h = .go c →
    let t := s.issued h c x
    (h.last = false →
      t = { s with tiles := t.tiles } ∧ (∀ k, k ≠ h.tile.val → t.tile k = s.tile k) ∧
      ∃ phase since phaseNs code, t.tile h.tile = { x with phase := phase, since := since, phaseNs := phaseNs, code := code }) ∧
    (h.last = true → x.launch = (s.tile h.tile).launch → x.body = none → x.ending = false →
      (∀ e ∈ x.effects, ∃ off bs, e = .store off bs) →
      t = { s with tiles := t.tiles, store := t.store } ∧ (∀ k, k ≠ h.tile.val → t.tile k = s.tile k) ∧
      (t.tile h.tile).core = x.settled ∧ (t.tile h.tile).bundle = x.target.getD (x.bundle + 1) ∧
      (∀ a, (∀ off bs, .store off bs ∈ x.effects → a < 0x400000 * h.tile.val + off ∨ 0x400000 * h.tile.val + off + bs.length ≤ a) →
        memGet t.store a = memGet s.store a) ∧
      (∀ off bs, x.effects = [.store off bs] → t.storeRead h.tile off bs.length = bs))

/-- The tile stores in the address map (R49). -/
def Obligations.TileStoreMap : Prop :=
  ∀ (s : State) (n : Fin 512) (off : Nat), off < 0x400000 →
    (off ≤ 0x27FFFF → s.addrKind (0xE00000000000 + n.val * 0x400000 + off) = .store ∧
      s.devRead (0xE00000000000 + n.val * 0x400000 + off) 1 = s.storeRead n off 1) ∧
    (0x280000 ≤ off → s.addrKind (0xE00000000000 + n.val * 0x400000 + off) = .unbacked)

/-- The address map is one to one, so that a write to the device's memory is read back and changes no other byte (R319 to R323). -/
def Obligations.MemoryMap : Prop :=
  ∀ s : State, s.mapOk →
    (∀ a b, a < s.visibleEnd → b < s.visibleEnd → s.memKey a = s.memKey b → a = b) ∧
    (∀ (a : Nat) (bs : List Byte), (∀ i, i < bs.length → s.addrKind (a + i) = .memory ∨ s.addrKind (a + i) = .store) →
      let t := s.devWrite a bs
      t.devRead a bs.length = bs ∧ (∀ b, b < a ∨ a + bs.length ≤ b → t.devByte b = s.devByte b) ∧ t.host = s.host ∧ t.regs = s.regs)

/-- Device time is set to zero at cold reset and runs through the other resets (R42). -/
def Obligations.DeviceTime : Prop :=
  ∀ s : State,
    (s.boot.kind < 3 → ∃ t, exec .coldResetAssert s = .next t ∧ t.now = 0) ∧
    (s.boot.kind < 3 → ∃ t, exec .pwrGoodFall s = .next t ∧ t.now = 0) ∧
    (∀ fn, s.boot.kind ≤ 2 → ∃ t, exec (.warm fn) s = .next t ∧ t.now = s.now) ∧
    (s.boot.kind ≤ 2 → s.boot.pwrLow = false → s.boot.coldN = false →
      (∃ t, exec .warmResetAssert s = .next t ∧ t.now = s.now) ∧ (∃ t, exec .perstAssert s = .next t ∧ t.now = s.now) ∧
      (∃ t, exec .pcieHotReset s = .next t ∧ t.now = s.now) ∧ (∃ t, exec .pairHold s = .next t ∧ t.now = s.now) ∧
      (∃ t, exec .pairHoldRelease s = .next t ∧ t.now = s.now) ∧ ∃ t, exec .resetRelease s = .next t ∧ t.now = s.now) ∧
    (∀ fn ctx, (∃ t, exec (.contextReset fn ctx) s = .next t ∧ t.now = s.now) ∧ ∃ t, exec (.contextResetDone ctx) s = .next t ∧ t.now = s.now)

/-- DRIVER_ATTACH with the current token during orphan hold (R537): the hold ends, the watchdog is armed again, fetching resumes where nothing
else holds it, event 0x0808 is raised, and the token stays. -/
def Obligations.OrphanHoldEnds : Prop :=
  ∀ s : State, s.messageIn 0 0x0010 3 → s.reqField 0 40 1 < 2 → s.reservedBad 0 41 7 = none → s.driver = 2 → s.tokenGood 0 = true → ∃ t,
    exec (.driverAttach 0) s = .next t ∧ t.driver = 0 ∧ t.firmware.session.beat = s.now ∧
    t.firmware.session.token = s.firmware.session.token ∧
    (s.flag F.HIF_STATUS_FATAL 0 = false → s.quiesce = false → t.dispatches = true) ∧
    ∃ u, u = s.raise .device 0x0808 0 0 ((s.now - s.firmware.session.held) / ms) ∧ t.rings = u.rings ∧ t.mem = u.mem ∧ t.host = u.host

/-- An increment (R158, R159): a counter that nothing watches takes exactly the sum; an increment that would take a counter above 2^64 − 1 is not applied and is a
protocol error with code OVERFLOW. -/
def Obligations.Increments : Prop :=
  ∀ (s : State) (ctx vid inc k : Nat) (side : Bool) (o : SyncObj) (src : Origin) (reply : IncReply),
    s.named ctx vid = .object k side o → o.hold = false → o.kind ≠ .barrier → o.err = none →
    (2 ^ 64 ≤ o.value side + inc →
      s.increment ctx vid inc src reply = (s.protoError ctx vid Proto.overflow src (o.value side), .failed St.protocol (protoDetail Proto.overflow vid)) ∧
      (s.increment ctx vid inc src reply).1.objs = s.objs ∧ (s.increment ctx vid inc src reply).1.valueOf ctx vid = o.value side) ∧
    (o.value side + inc < 2 ^ 64 → o.kind = .counter → o.watches = [] → (∀ w ∈ o.waiters, ∃ t, w.who = .tile t) →
      (s.increment ctx vid inc src reply).2 = .applied (o.value side + inc) ∧
      (s.increment ctx vid inc src reply).1.valueOf ctx vid = o.value side + inc)
end

