-- ==== Sys2Proof/Laws/Emit.lean ====
section
/-! SUPPORT. The layout of bound code: a record takes as many bundles whatever its labels stand for, and a label goes to the first bundle of
its record (R139). -/

namespace Sys2Proof.Machine

@[simp] theorem loadConst_length (her : Bool) (r v : Nat) : (loadConst her r v).length = 4 := by simp [loadConst]

theorem supply_length (e : Emit) (f g : Nat → Nat) (pop i : Nat) (x : NatField) (w : Nat) :
    (e.supply f pop i x w).1.length = (e.supply g pop i x w).1.length := by
  unfold Emit.supply
  split
  · rfl
  · cases x <;> simp

theorem native_length (e : Emit) (f g : Nat → Nat) (p q pop : Nat) : (e.native f p pop).length = (e.native g q pop).length := by
  simp only [Emit.native, List.length_append, List.length_flatMap, List.map_map, Function.comp_def, List.length_cons, List.length_nil]
  congr 4
  funext x
  exact supply_length e f g pop x.2 x.1.2 _

/-- The number of bundles of a record does not depend on what labels stand for, nor on where the record's code begins. -/
theorem emitRecord_length (key : List Byte) (f : Nat → Nat) (p a : Nat) : (emitRecord key f p a).length = recordLen key a := by
  unfold recordLen emitRecord
  simp only
  split <;> first | rfl | exact native_length _ _ _ _ _ _

/-- The bundles of the records before the `n`-th are as many as the place that a label of that record goes to. -/
theorem length_before (key : List Byte) (f : Nat → Nat) (l : List (Nat × Nat)) :
    (l.flatMap fun x => emitRecord key f (f x.2) x.1).length = (l.map fun x => recordLen key x.1).sum := by
  simp [List.length_flatMap, emitRecord_length]

/-- A label goes to the first bundle of its record: what stands there is that record's code. -/
theorem boundBundles_drop (key : List Byte) (n a : Nat) (h : (imageRecords (imageOf key)).1[n]? = some a) :
    ∃ rest, (boundBundles key).drop (boundIndex key n) = emitRecord key (boundIndex key) (boundIndex key n) a ++ rest := by
  let rs := (imageRecords (imageOf key)).1
  have hz : rs.zipIdx = rs.zipIdx.take n ++ (a, n) :: rs.zipIdx.drop (n + 1) := by
    have hn : n < rs.zipIdx.length := by
      have := (List.getElem?_eq_some_iff.1 h).1
      simpa using this
    have hg : rs.zipIdx[n] = (a, n) := by
      have := (List.getElem?_eq_some_iff.1 h).2
      simp only [List.getElem_zipIdx, Nat.zero_add, Prod.mk.injEq, and_true]
      exact this
    conv_lhs => rw [← List.take_append_drop n rs.zipIdx, List.drop_eq_getElem_cons hn, hg]
  have hb : boundIndex key n = ((rs.zipIdx.take n).flatMap fun x => emitRecord key (boundIndex key) (boundIndex key x.2) x.1).length := by
    rw [length_before]
    have : (rs.zipIdx.take n).map (fun x => recordLen key x.1) = ((rs.zipIdx.map Prod.fst).take n).map (recordLen key) := by
      rw [← List.map_take, List.map_map]; rfl
    rw [this]
    simp [boundIndex, rs]
  refine ⟨(rs.zipIdx.drop (n + 1)).flatMap fun x => emitRecord key (boundIndex key) (boundIndex key x.2) x.1, ?_⟩
  have : boundBundles key = (rs.zipIdx.take n).flatMap (fun x => emitRecord key (boundIndex key) (boundIndex key x.2) x.1) ++
      (emitRecord key (boundIndex key) (boundIndex key n) a ++
        (rs.zipIdx.drop (n + 1)).flatMap fun x => emitRecord key (boundIndex key) (boundIndex key x.2) x.1) := by
    unfold boundBundles
    conv_lhs => rw [show (imageRecords (imageOf key)).1 = rs from rfl, hz, List.flatMap_append, List.flatMap_cons]
  rw [this, hb]
  exact List.drop_left

end Sys2Proof.Machine
end

