-- ==== Sys2Proof/Laws/Far.lean ====
section
/-! SUPPORT. Laws of the far paths: where the device looks at a path whose entry is as it was, nothing changes. -/

namespace Sys2Proof.Machine

theorem watchPath_same {s : State} {ctx i : Nat} {e : PathEntry} {p : Path} (he : s.pathOn? ctx i = some e)
    (hp : NMap.get? s.paths (pathKeyAt ctx i) = some p) (h : p.ends = e.endsAt) : s.watchPath ctx i = s := by
  unfold State.watchPath
  rw [he, hp]
  exact if_pos h

theorem watchPath_none {s : State} {ctx i : Nat} (he : s.pathOn? ctx i = none) (hp : NMap.get? s.paths (pathKeyAt ctx i) = none) :
    s.watchPath ctx i = s := by
  unfold State.watchPath
  rw [he, hp]

/-- What the path table says does not depend on what the paths and the gates hold. -/
theorem pathOn?_gates (s : State) (p : NMap Path) (g : NMap Gate) (ctx i : Nat) :
    ({ s with paths := p, gates := g } : State).pathOn? ctx i = s.pathOn? ctx i := rfl

theorem pathsOn_gates (s : State) (p : NMap Path) (g : NMap Gate) (ctx : Nat) :
    ({ s with paths := p, gates := g } : State).pathsOn ctx = s.pathsOn ctx := rfl

theorem farCtxs_gates (s : State) (p : NMap Path) (g : NMap Gate) : ({ s with paths := p, gates := g } : State).farCtxs = s.farCtxs := rfl

/-- Which path carries a device's traffic does not depend on the gates. -/
theorem pathFor_gates (s : State) (g : NMap Gate) (ctx site dev : Nat) :
    ({ s with gates := g } : State).pathFor ctx site dev = s.pathFor ctx site dev := rfl

end Sys2Proof.Machine
end

