-- ==== Sys2Proof/Laws/Maps.lean ====
section
/-! SUPPORT. Laws of the sparse maps: what a read finds after a write, and the canonical form. -/

namespace Sys2Proof

variable {α : Type}

@[simp] theorem NMap.get?_set_self (m : NMap α) (i : Nat) (v : α) : NMap.get? (NMap.set m i v) i = some v := by
  induction m with
  | nil => simp [NMap.set, NMap.get?]
  | cons p rest ih =>
    obtain ⟨k, w⟩ := p
    simp only [NMap.set]
    split
    · simp [NMap.get?]
    · split
      · simp [NMap.get?]
      · have : ¬ k = i := fun h => by omega
        simp [NMap.get?, this, ih]

theorem NMap.get?_set_other (m : NMap α) {i j : Nat} (v : α) (h : j ≠ i) : NMap.get? (NMap.set m i v) j = NMap.get? m j := by
  have h' : ¬ i = j := fun e => h e.symm
  induction m with
  | nil => simp [NMap.set, NMap.get?, h']
  | cons p rest ih =>
    obtain ⟨k, w⟩ := p
    simp only [NMap.set]
    split
    · simp [NMap.get?, h']
    · split
      · subst_vars; simp [NMap.get?, h']
      · simp only [NMap.get?]; split
        · rfl
        · exact ih

@[simp] theorem NMap.getD_set_self (m : NMap α) (i : Nat) (v d : α) : NMap.getD (NMap.set m i v) i d = v := by
  simp [NMap.getD]

theorem NMap.getD_set_other (m : NMap α) {i j : Nat} (v d : α) (h : j ≠ i) :
    NMap.getD (NMap.set m i v) j d = NMap.getD m j d := by
  simp [NMap.getD, NMap.get?_set_other m v h]

@[simp] theorem NMap.get?_erase_self (m : NMap α) (i : Nat) : NMap.get? (NMap.erase m i) i = none := by
  induction m with
  | nil => rfl
  | cons p rest ih =>
    obtain ⟨k, w⟩ := p
    simp only [NMap.erase]
    split
    · exact ih
    · rename_i h; simp [NMap.get?, h, ih]

theorem NMap.get?_erase_other (m : NMap α) {i j : Nat} (h : j ≠ i) : NMap.get? (NMap.erase m i) j = NMap.get? m j := by
  induction m with
  | nil => rfl
  | cons p rest ih =>
    obtain ⟨k, w⟩ := p
    simp only [NMap.erase]
    split
    · rename_i hk
      have : ¬ k = j := fun e => h (by omega)
      simp [NMap.get?, this, ih]
    · simp only [NMap.get?]; split
      · rfl
      · exact ih

theorem NMap.getD_erase_other (m : NMap α) {i j : Nat} (d : α) (h : j ≠ i) :
    NMap.getD (NMap.erase m i) j d = NMap.getD m j d := by
  simp [NMap.getD, NMap.get?_erase_other m h]

/-- Every key of a map is above a bound. -/
def NMap.above (b : Nat) (m : NMap α) : Prop := ∀ p ∈ m, b < p.1

/-- The canonical form of a map with a first entry: what follows is canonical, with keys above the first. -/
theorem NMap.wf_cons (k : Nat) (v : α) (m : NMap α) : NMap.wf ((k, v) :: m) = true ↔ NMap.wf m = true ∧ NMap.above k m := by
  induction m generalizing k v with
  | nil => simp [NMap.wf, NMap.above]
  | cons p rest ih =>
    obtain ⟨j, w⟩ := p
    simp only [NMap.wf, Bool.and_eq_true, decide_eq_true_eq]
    constructor
    · rintro ⟨hkj, hrest⟩
      refine ⟨hrest, ?_⟩
      intro q hq
      rcases List.mem_cons.mp hq with rfl | hq
      · exact hkj
      · exact Nat.lt_trans hkj (((ih j w).mp hrest).2 q hq)
    · rintro ⟨hrest, hab⟩
      exact ⟨hab _ (List.mem_cons_self ..), hrest⟩

theorem NMap.above_set {b : Nat} {m : NMap α} {i : Nat} {v : α} (hm : NMap.above b m) (hi : b < i) : NMap.above b (NMap.set m i v) := by
  induction m with
  | nil => intro p hp; simp [NMap.set] at hp; subst hp; exact hi
  | cons q rest ih =>
    obtain ⟨k, w⟩ := q
    simp only [NMap.set]
    have hk : b < k := hm (k, w) (List.mem_cons_self ..)
    have hr : NMap.above b rest := fun p hp => hm p (List.mem_cons_of_mem _ hp)
    split
    · intro p hp
      rcases List.mem_cons.mp hp with rfl | hp
      · exact hi
      · exact hm p hp
    · split
      · intro p hp
        rcases List.mem_cons.mp hp with rfl | hp
        · exact hi
        · exact hr p hp
      · intro p hp
        rcases List.mem_cons.mp hp with rfl | hp
        · exact hk
        · exact ih hr p hp

theorem NMap.wf_set {m : NMap α} (h : NMap.wf m = true) (i : Nat) (v : α) : NMap.wf (NMap.set m i v) = true := by
  induction m with
  | nil => rfl
  | cons q rest ih =>
    obtain ⟨k, w⟩ := q
    have hq := (NMap.wf_cons k w rest).mp h
    simp only [NMap.set]
    split
    · rename_i hik
      refine (NMap.wf_cons i v _).mpr ⟨h, ?_⟩
      intro p hp
      rcases List.mem_cons.mp hp with rfl | hp
      · exact hik
      · exact Nat.lt_trans hik (hq.2 p hp)
    · split
      · rename_i hik
        exact (NMap.wf_cons i v _).mpr ⟨hq.1, hik ▸ hq.2⟩
      · exact (NMap.wf_cons k w _).mpr ⟨ih hq.1, NMap.above_set hq.2 (by omega)⟩

theorem NMap.mem_erase {m : NMap α} {i : Nat} {p : Nat × α} (h : p ∈ NMap.erase m i) : p ∈ m := by
  induction m with
  | nil => exact h
  | cons q rest ih =>
    obtain ⟨k, w⟩ := q
    simp only [NMap.erase] at h
    split at h
    · exact List.mem_cons_of_mem _ (ih h)
    · rcases List.mem_cons.mp h with rfl | h
      · exact List.mem_cons_self ..
      · exact List.mem_cons_of_mem _ (ih h)

theorem NMap.wf_erase {m : NMap α} (h : NMap.wf m = true) (i : Nat) : NMap.wf (NMap.erase m i) = true := by
  induction m with
  | nil => rfl
  | cons q rest ih =>
    obtain ⟨k, w⟩ := q
    have hq := (NMap.wf_cons k w rest).mp h
    simp only [NMap.erase]
    split
    · exact ih hq.1
    · exact (NMap.wf_cons k w _).mpr ⟨ih hq.1, fun p hp => hq.2 p (NMap.mem_erase hp)⟩

theorem NMap.mem_set {m : NMap α} {i : Nat} {v : α} {p : Nat × α} (h : p ∈ NMap.set m i v) : p = (i, v) ∨ p ∈ m := by
  induction m with
  | nil => simp [NMap.set] at h; exact .inl h
  | cons q rest ih =>
    obtain ⟨k, w⟩ := q
    simp only [NMap.set] at h
    split at h
    · rcases List.mem_cons.mp h with rfl | h
      · exact .inl rfl
      · exact .inr h
    · split at h
      · rcases List.mem_cons.mp h with rfl | h
        · exact .inl rfl
        · exact .inr (List.mem_cons_of_mem _ h)
      · rcases List.mem_cons.mp h with rfl | h
        · exact .inr (List.mem_cons_self ..)
        · rcases ih h with rfl | h
          · exact .inl rfl
          · exact .inr (List.mem_cons_of_mem _ h)

end Sys2Proof
end

