-- ==== Sys2Proof/Laws/Memory.lean ====
section
/-! SUPPORT. The byte memories: a read after a write, and that every memory operation keeps the canonical form. -/

namespace Sys2Proof.Machine

@[simp] theorem memGet_memSet_self (m : NMap Byte) (a : Nat) (b : Byte) : memGet (memSet m a b) a = b := by
  unfold memGet memSet
  split
  · rename_i h; simp [NMap.getD, h]
  · simp

theorem memGet_memSet_other (m : NMap Byte) {a c : Nat} (b : Byte) (h : c ≠ a) : memGet (memSet m a b) c = memGet m c := by
  unfold memGet memSet
  split
  · exact NMap.getD_erase_other m 0 h
  · exact NMap.getD_set_other m b 0 h

theorem memory_wf_iff (m : NMap Byte) : Memory.wf m = true ↔ NMap.wf m = true ∧ ∀ p ∈ m, p.2 ≠ 0 := by
  simp [Memory.wf]

theorem memSet_wf {m : NMap Byte} (h : Memory.wf m = true) (a : Nat) (b : Byte) : Memory.wf (memSet m a b) = true := by
  obtain ⟨hw, hz⟩ := (memory_wf_iff m).mp h
  unfold memSet
  split
  · exact (memory_wf_iff _).mpr ⟨NMap.wf_erase hw a, fun p hp => hz p (NMap.mem_erase hp)⟩
  · rename_i hb
    refine (memory_wf_iff _).mpr ⟨NMap.wf_set hw a b, fun p hp => ?_⟩
    rcases NMap.mem_set hp with rfl | hp
    · exact hb
    · exact hz p hp

theorem memWrite_wf {m : NMap Byte} (h : Memory.wf m = true) (a : Nat) (bs : List Byte) : Memory.wf (memWrite m a bs) = true := by
  induction bs generalizing m a with
  | nil => exact h
  | cons b rest ih => exact ih (memSet_wf h a b) (a + 1)

/-- A write leaves every byte outside it. -/
theorem memGet_memWrite_other (m : NMap Byte) (a : Nat) (bs : List Byte) {c : Nat} (h : c < a ∨ a + bs.length ≤ c) :
    memGet (memWrite m a bs) c = memGet m c := by
  induction bs generalizing m a with
  | nil => rfl
  | cons b rest ih =>
    simp only [memWrite]
    rw [ih (memSet m a b) (a + 1) (by simp at h; omega)]
    exact memGet_memSet_other m b (by simp at h; omega)

/-- Every byte of a write is found where it was put. -/
theorem memGet_memWrite_self (m : NMap Byte) (a : Nat) (bs : List Byte) (i : Nat) (h : i < bs.length) :
    memGet (memWrite m a bs) (a + i) = bs[i] := by
  induction bs generalizing m a i with
  | nil => simp at h
  | cons b rest ih =>
    simp only [memWrite]
    cases i with
    | zero =>
      rw [Nat.add_zero, memGet_memWrite_other _ _ _ (by omega)]
      simp
    | succ i =>
      have := ih (memSet m a b) (a + 1) i (by simpa using h)
      simpa [Nat.add_assoc, Nat.add_comm 1 i] using this

theorem setDevByte_memory {s : State} {a : Nat} (h : s.addrKind a = .memory) (b : Byte) :
    s.setDevByte a b = { s with mem := memSet s.mem (s.memKey a) b } := by
  simp [State.setDevByte, h]

theorem setDevByte_store {s : State} {a : Nat} (h : s.addrKind a = .store) (b : Byte) :
    s.setDevByte a b = { s with store := memSet s.store (storeOff a) b } := by
  simp [State.setDevByte, h]

theorem setDevByte_none {s : State} {a : Nat} (h : s.addrKind a = .control ∨ s.addrKind a = .unbacked) (b : Byte) : s.setDevByte a b = s := by
  rcases h with h | h <;> simp [State.setDevByte, h]

theorem setDevByte_canonical {s : State} (h : s.memoriesCanonical) (a : Nat) (b : Byte) : (s.setDevByte a b).memoriesCanonical := by
  obtain ⟨hm, hh, hs⟩ := h
  rcases hk : s.addrKind a with _ | _ | _ | _
  · rw [setDevByte_memory hk]; exact ⟨memSet_wf hm _ _, hh, hs⟩
  · rw [setDevByte_store hk]; exact ⟨hm, hh, memSet_wf hs _ _⟩
  · rw [setDevByte_none (.inl hk)]; exact ⟨hm, hh, hs⟩
  · rw [setDevByte_none (.inr hk)]; exact ⟨hm, hh, hs⟩

theorem devBytes_canonical {s : State} (h : s.memoriesCanonical) (a : Nat) (bs : List Byte) : (s.devBytes a bs).memoriesCanonical := by
  induction bs generalizing s a with
  | nil => exact h
  | cons b rest ih => exact ih (setDevByte_canonical h a b) (a + 1)

theorem devStore_canonical {s : State} (h : s.memoriesCanonical) (hint a : Nat) (bs : List Byte) :
    (s.devStore hint a bs).memoriesCanonical := devBytes_canonical h a bs

theorem devWrite_canonical {s : State} (h : s.memoriesCanonical) (a : Nat) (bs : List Byte) : (s.devWrite a bs).memoriesCanonical :=
  devStore_canonical h 0 a bs

theorem spaceWrite_canonical {s : State} (h : s.memoriesCanonical) (space a : Nat) (bs : List Byte) :
    (s.spaceWrite space a bs).memoriesCanonical := by
  unfold State.spaceWrite
  split
  · exact ⟨h.1, memWrite_wf h.2.1 _ _, h.2.2⟩
  · exact devWrite_canonical h a bs

theorem storeWrite_canonical {s : State} (h : s.memoriesCanonical) (tile off : Nat) (bs : List Byte) :
    (s.storeWrite tile off bs).memoriesCanonical :=
  ⟨h.1, h.2.1, memWrite_wf h.2.2 _ _⟩

/-- After reset every memory lists nothing. -/
theorem reset_canonical : State.reset.memoriesCanonical := ⟨rfl, rfl, rfl⟩

end Sys2Proof.Machine
end

