-- ==== Sys2Proof/Laws/Registers.lean ====
section
/-! SUPPORT. Registers and their fields: what a field reads after a field or a register is written. -/

namespace Sys2Proof.Machine

-- # The arithmetic of a field

/-- A number cut at a field's two ends. -/
theorem cut (m lo w : Nat) : m = 2 ^ (lo + w) * (m / 2 ^ (lo + w)) + 2 ^ lo * (m / 2 ^ lo % 2 ^ w) + m % 2 ^ lo := by
  have h1 : m / 2 ^ (lo + w) = m / 2 ^ lo / 2 ^ w := by rw [Nat.pow_add, Nat.div_div_eq_div_mul]
  have h2 := Nat.div_add_mod (m / 2 ^ lo) (2 ^ w)
  have h3 := Nat.div_add_mod m (2 ^ lo)
  rw [h1, Nat.pow_add, Nat.mul_assoc, ← Nat.mul_add, h2, h3]

/-- The number with a field replaced, in the same cut. -/
theorem replaced (m lo w v : Nat) : m - 2 ^ lo * bitsOf m lo w + 2 ^ lo * (v % 2 ^ w) =
    2 ^ (lo + w) * (m / 2 ^ (lo + w)) + 2 ^ lo * (v % 2 ^ w) + m % 2 ^ lo := by
  have h := cut m lo w
  unfold bitsOf
  omega

theorem cut_mid (hi lo w v x : Nat) (hx : x < 2 ^ lo) : (2 ^ (lo + w) * hi + 2 ^ lo * v + x) / 2 ^ lo = 2 ^ w * hi + v := by
  rw [Nat.pow_add, Nat.mul_assoc, ← Nat.mul_add, Nat.mul_add_div (Nat.two_pow_pos lo), Nat.div_eq_of_lt hx, Nat.add_zero]

theorem cut_lt {m lo w v : Nat} (hm : m < 2 ^ 64) (hf : lo + w ≤ 64) :
    2 ^ (lo + w) * (m / 2 ^ (lo + w)) + 2 ^ lo * (v % 2 ^ w) + m % 2 ^ lo < 2 ^ 64 := by
  have h1 : m / 2 ^ (lo + w) < 2 ^ (64 - (lo + w)) := by
    rw [Nat.div_lt_iff_lt_mul (Nat.two_pow_pos _), ← Nat.pow_add]
    have : 64 - (lo + w) + (lo + w) = 64 := by omega
    rw [this]; exact hm
  have h2 : 2 ^ lo * (v % 2 ^ w) + m % 2 ^ lo < 2 ^ (lo + w) := by
    have a := Nat.mod_lt v (Nat.two_pow_pos w)
    have b := Nat.mod_lt m (Nat.two_pow_pos lo)
    calc 2 ^ lo * (v % 2 ^ w) + m % 2 ^ lo < 2 ^ lo * (v % 2 ^ w) + 2 ^ lo := by omega
      _ = 2 ^ lo * (v % 2 ^ w + 1) := by ring
      _ ≤ 2 ^ lo * 2 ^ w := Nat.mul_le_mul_left _ a
      _ = 2 ^ (lo + w) := (Nat.pow_add ..).symm
  calc _ < 2 ^ (lo + w) * (m / 2 ^ (lo + w)) + 2 ^ (lo + w) := by omega
    _ = 2 ^ (lo + w) * (m / 2 ^ (lo + w) + 1) := by ring
    _ ≤ 2 ^ (lo + w) * 2 ^ (64 - (lo + w)) := Nat.mul_le_mul_left _ h1
    _ = 2 ^ 64 := by rw [← Nat.pow_add]; congr 1; omega

theorem Field.put_toNat (f : Field) (hf : f.lo + f.width ≤ 64) (w : Word) (v : Nat) :
    (f.put w v).toNat =
      2 ^ (f.lo + f.width) * (w.toNat / 2 ^ (f.lo + f.width)) + 2 ^ f.lo * (v % 2 ^ f.width) + w.toNat % 2 ^ f.lo := by
  unfold Field.put
  dsimp only
  rw [replaced, BitVec.toNat_ofNat]
  exact Nat.mod_eq_of_lt (cut_lt w.isLt hf)

/-- A field reads what was put there. -/
theorem Field.of_put (f : Field) (hf : f.lo + f.width ≤ 64) (w : Word) (v : Nat) : f.of (f.put w v) = v % 2 ^ f.width := by
  unfold Field.of bitsOf
  rw [Field.put_toNat f hf, cut_mid _ _ _ _ _ (Nat.mod_lt _ (Nat.two_pow_pos _)), Nat.mul_add_mod, Nat.mod_mod]

/-- A field below another is not touched when that one is written. -/
theorem Field.of_put_above (f g : Field) (hf : f.lo + f.width ≤ 64) (h : g.lo + g.width ≤ f.lo) (w : Word) (v : Nat) :
    g.of (f.put w v) = g.of w := by
  unfold Field.of bitsOf
  rw [Field.put_toNat f hf]
  obtain ⟨k, hk⟩ := Nat.exists_eq_add_of_le h
  have e : w.toNat = 2 ^ f.lo * (w.toNat / 2 ^ f.lo) + w.toNat % 2 ^ f.lo := (Nat.div_add_mod ..).symm
  have key : ∀ a x, x < 2 ^ f.lo → (2 ^ f.lo * a + x) / 2 ^ g.lo % 2 ^ g.width = x / 2 ^ g.lo % 2 ^ g.width := by
    intro a x _
    rw [hk, show g.lo + g.width + k = g.lo + (g.width + k) by omega, Nat.pow_add, Nat.mul_assoc, Nat.mul_add_div (Nat.two_pow_pos _),
      Nat.pow_add, Nat.mul_assoc, Nat.mul_add_mod]
  have l := Nat.mod_lt w.toNat (Nat.two_pow_pos f.lo)
  rw [Nat.pow_add, Nat.mul_assoc, ← Nat.mul_add, key _ _ l]
  conv_rhs => rw [e, key _ _ l]

/-- A field above another is not touched when that one is written. -/
theorem Field.of_put_below (f g : Field) (hf : f.lo + f.width ≤ 64) (h : f.lo + f.width ≤ g.lo) (w : Word) (v : Nat) :
    g.of (f.put w v) = g.of w := by
  unfold Field.of bitsOf
  rw [Field.put_toNat f hf]
  obtain ⟨k, hk⟩ := Nat.exists_eq_add_of_le h
  have a := Nat.mod_lt v (Nat.two_pow_pos f.width)
  have b := Nat.mod_lt w.toNat (Nat.two_pow_pos f.lo)
  have l : 2 ^ f.lo * (v % 2 ^ f.width) + w.toNat % 2 ^ f.lo < 2 ^ (f.lo + f.width) := by
    calc 2 ^ f.lo * (v % 2 ^ f.width) + w.toNat % 2 ^ f.lo < 2 ^ f.lo * (v % 2 ^ f.width) + 2 ^ f.lo := by omega
      _ = 2 ^ f.lo * (v % 2 ^ f.width + 1) := by ring
      _ ≤ 2 ^ f.lo * 2 ^ f.width := Nat.mul_le_mul_left _ a
      _ = 2 ^ (f.lo + f.width) := (Nat.pow_add ..).symm
  have e : (2 ^ (f.lo + f.width) * (w.toNat / 2 ^ (f.lo + f.width)) + 2 ^ f.lo * (v % 2 ^ f.width) + w.toNat % 2 ^ f.lo) / 2 ^ (f.lo + f.width) =
      w.toNat / 2 ^ (f.lo + f.width) := by
    rw [Nat.add_assoc, Nat.mul_add_div (Nat.two_pow_pos _), Nat.div_eq_of_lt l, Nat.add_zero]
  rw [hk, Nat.pow_add 2 (f.lo + f.width) k, ← Nat.div_div_eq_div_mul, ← Nat.div_div_eq_div_mul, e]

/-- Two fields of one register share no bit. -/
def Field.apart (f g : Field) : Prop := g.lo + g.width ≤ f.lo ∨ f.lo + f.width ≤ g.lo

theorem Field.of_put_other {f g : Field} (hf : f.lo + f.width ≤ 64) (h : f.apart g) (w : Word) (v : Nat) : g.of (f.put w v) = g.of w := by
  rcases h with h | h
  · exact Field.of_put_above f g hf h w v
  · exact Field.of_put_below f g hf h w v

-- # The register file

theorem RegName.key_inj {r q : RegName} {i j : Nat} (hi : i < 1048576) (hj : j < 1048576) : r.key i = q.key j ↔ r = q ∧ i = j := by
  constructor
  · intro h
    unfold RegName.key at h
    have h1 : r.ctorIdx = q.ctorIdx := by omega
    have h2 : i = j := by omega
    refine ⟨?_, h2⟩
    rw [← RegName.ofNat_ctorIdx r, ← RegName.ofNat_ctorIdx q, h1]
  · rintro ⟨rfl, rfl⟩; rfl

@[simp] theorem reg_setReg_self (s : State) (r : RegName) (i : Nat) (v : Word) : (s.setReg r i v).reg r i = v := by
  simp [State.reg, State.setReg]

theorem reg_setReg_other (s : State) {r q : RegName} {i j : Nat} (v : Word) (h : q.key j ≠ r.key i) : (s.setReg r i v).reg q j = s.reg q j := by
  simp only [State.reg, State.setReg]
  exact NMap.getD_set_other _ _ _ h

/-- A field reads what was written to it. -/
theorem fld_setFld_self (s : State) (f : Field) (hf : f.lo + f.width ≤ 64) (i v : Nat) : (s.setFld f i v).fld f i = v % 2 ^ f.width := by
  simp [State.fld, State.setFld, Field.of_put f hf]

/-- A field of another register, or of another copy, is not touched. -/
theorem fld_setFld_reg (s : State) {f g : Field} {i j : Nat} (v : Nat) (h : g.reg.key j ≠ f.reg.key i) : (s.setFld f i v).fld g j = s.fld g j := by
  simp only [State.fld, State.setFld]
  rw [reg_setReg_other _ _ h]

/-- Another field of the same register is not touched. -/
theorem fld_setFld_apart (s : State) {f g : Field} (hf : f.lo + f.width ≤ 64) (h : f.apart g) (hr : g.reg = f.reg) (i v : Nat) :
    (s.setFld f i v).fld g i = s.fld g i := by
  simp only [State.fld, State.setFld, hr, reg_setReg_self]
  exact Field.of_put_other hf h _ _

end Sys2Proof.Machine
end

