-- ==== Sys2Proof/Laws/Slots.lean ====
section
/-! SUPPORT. What an operation of a slot does once it is admitted. -/

namespace Sys2Proof.Machine

/-- An admitted operation goes to the tile of its header, with the registers its bundle found. -/
theorem admit_go {s : State} {h : SlotHdr} {c : SlotCtx} (hg : s.openSlot h = .go c) :
    c.t = h.tile ∧ c.src = ((s.tile h.tile).snap.getD (s.tile h.tile).core) ∧ c.her = h.her ∧ c.her = c.l.heritage ∧
    c.guard = guardOf c.src h ∧ c.on = c.guard.toNat.testBit 0 ∧ s.tileLaunch h.tile = some c.l ∧
    c.x = (s.tile h.tile).takes h.slot := by
  unfold State.openSlot at hg
  split at hg
  · cases hg
  · rename_i l hl
    dsimp only at hg
    repeat' split at hg
    all_goals cases hg
    rename_i hu _ _
    have he : h.her = l.heritage := by
      rw [Bool.not_eq_true, Bool.or_eq_false_iff] at hu
      simpa using hu.2
    exact ⟨rfl, rfl, he.symm, rfl, rfl, rfl, hl, rfl⟩

theorem runSlot_go {s : State} {h : SlotHdr} {c : SlotCtx} (hg : s.openSlot h = .go c) (f : SlotCtx → SlotRes) :
    s.runSlot h true f =
      match f c with
      | .fault st d => .next (s.tileFault c.t st d)
      | .unbacked a => .next ((s.outside 0 (some c.l.ctx) (a % 2 ^ 48)).tileFault c.t St.addrFault (a % 2 ^ 48 / 65536))
      | .stall => .next (s.stalled c.t)
      | .busy => .next (s.held c.t)
      | .skip => .next (s.issued h c c.x)
      | .write x keys effs =>
        if keys.any fun k => c.x.wrote.contains k then .next (s.tileFault c.t St.badCommand 3)
        else .next (s.issued h c (x.gathers keys effs)) := by
  simp only [State.runSlot, Bool.not_true, Bool.false_eq_true, if_false, hg]
  all_goals (cases f c <;> rfl)

/-- An admitted operation that writes registers no other operation of its bundle has written issues. -/
theorem runSlot_write {s : State} {h : SlotHdr} {c : SlotCtx} (hg : s.openSlot h = .go c) {f : SlotCtx → SlotRes} {x : Tile} {keys : List Nat}
    {effs : List SlotEffect} (hf : f c = .write x keys effs) (hk : ∀ k ∈ keys, c.mayWrite k) :
    s.runSlot h true f = .next (s.issued h c (x.gathers keys effs)) := by
  have hn : (keys.any fun k => c.x.wrote.contains k) = false := by
    rw [List.any_eq_false]
    intro k hk'
    rw [show c.x.wrote.contains k = false from hk k hk']
    exact Bool.false_ne_true
  rw [runSlot_go hg, hf]
  simp only [hn, Bool.false_eq_true, if_false]

/-- An admitted operation that has nothing to do issues. -/
theorem runSlot_skip {s : State} {h : SlotHdr} {c : SlotCtx} (hg : s.openSlot h = .go c) {f : SlotCtx → SlotRes} (hf : f c = .skip) :
    s.runSlot h true f = .next (s.issued h c c.x) := by
  rw [runSlot_go hg, hf]

/-- Two operations of a bundle that write one register end the launch with a decode fault (R104). -/
theorem runSlot_twice {s : State} {h : SlotHdr} {c : SlotCtx} (hg : s.openSlot h = .go c) {f : SlotCtx → SlotRes} {x : Tile} {keys : List Nat}
    {effs : List SlotEffect} (hf : f c = .write x keys effs) {k : Nat} (hk : k ∈ keys) (hw : c.x.wrote.contains k = true) :
    s.runSlot h true f = .next (s.tileFault h.tile St.badCommand 3) := by
  have hn : (keys.any fun k => c.x.wrote.contains k) = true := List.any_eq_true.mpr ⟨k, hk, hw⟩
  rw [runSlot_go hg, hf, ← (admit_go hg).1]
  simp only [hn, if_true]

/-- An operation that is not admitted leaves everything but its own tile's notes as it was. -/
theorem runSlot_again {s : State} {h : SlotHdr} (hg : s.openSlot h = .again) (f : SlotCtx → SlotRes) : s.runSlot h true f = .next s := by
  simp [State.runSlot, hg]

end Sys2Proof.Machine
end

