-- ==== Sys2Proof/Laws/State.lean ====
section
/-! SUPPORT. What the named updates of a state leave as it was: one lemma a field and update. -/

namespace Sys2Proof.Machine

section
variable (s : State) (r : RegName) (i : Nat) (v : Word)
@[simp] theorem setReg_pending : (s.setReg r i v).pending = s.pending := rfl
@[simp] theorem setReg_now : (s.setReg r i v).now = s.now := rfl
@[simp] theorem setReg_draws : (s.setReg r i v).draws = s.draws := rfl
@[simp] theorem setReg_staging : (s.setReg r i v).staging = s.staging := rfl
@[simp] theorem setReg_frozen : (s.setReg r i v).frozen = s.frozen := rfl
@[simp] theorem setReg_adopted : (s.setReg r i v).adopted = s.adopted := rfl
@[simp] theorem setReg_mem : (s.setReg r i v).mem = s.mem := rfl
@[simp] theorem setReg_host : (s.setReg r i v).host = s.host := rfl
@[simp] theorem setReg_store : (s.setReg r i v).store = s.store := rfl
@[simp] theorem setReg_poison : (s.setReg r i v).poison = s.poison := rfl
@[simp] theorem setReg_cache : (s.setReg r i v).cache = s.cache := rfl
@[simp] theorem setReg_wrong : (s.setReg r i v).wrong = s.wrong := rfl
@[simp] theorem setReg_cacheHits : (s.setReg r i v).cacheHits = s.cacheHits := rfl
@[simp] theorem setReg_cacheMisses : (s.setReg r i v).cacheMisses = s.cacheMisses := rfl
@[simp] theorem setReg_unmasked : (s.setReg r i v).unmasked = s.unmasked := rfl
@[simp] theorem setReg_vfs : (s.setReg r i v).vfs = s.vfs := rfl
@[simp] theorem setReg_sent : (s.setReg r i v).sent = s.sent := rfl
@[simp] theorem setReg_bar4Data : (s.setReg r i v).bar4Data = s.bar4Data := rfl
@[simp] theorem setReg_bar4Poison : (s.setReg r i v).bar4Poison = s.bar4Poison := rfl
@[simp] theorem setReg_limits : (s.setReg r i v).limits = s.limits := rfl
@[simp] theorem setReg_began : (s.setReg r i v).began = s.began := rfl
@[simp] theorem setReg_queues : (s.setReg r i v).queues = s.queues := rfl
@[simp] theorem setReg_served : (s.setReg r i v).served = s.served := rfl
@[simp] theorem setReg_rings : (s.setReg r i v).rings = s.rings := rfl
@[simp] theorem setReg_programs : (s.setReg r i v).programs = s.programs := rfl
@[simp] theorem setReg_resetting : (s.setReg r i v).resetting = s.resetting := rfl
@[simp] theorem setReg_launches : (s.setReg r i v).launches = s.launches := rfl
@[simp] theorem setReg_tiles : (s.setReg r i v).tiles = s.tiles := rfl
@[simp] theorem setReg_transfers : (s.setReg r i v).transfers = s.transfers := rfl
@[simp] theorem setReg_nextId : (s.setReg r i v).nextId = s.nextId := rfl
@[simp] theorem setReg_colls : (s.setReg r i v).colls = s.colls := rfl
@[simp] theorem setReg_arenas : (s.setReg r i v).arenas = s.arenas := rfl
@[simp] theorem setReg_plain : (s.setReg r i v).plain = s.plain := rfl
@[simp] theorem setReg_stored : (s.setReg r i v).stored = s.stored := rfl
@[simp] theorem setReg_ueTimes : (s.setReg r i v).ueTimes = s.ueTimes := rfl
@[simp] theorem setReg_ceTimes : (s.setReg r i v).ceTimes = s.ceTimes := rfl
@[simp] theorem setReg_slew : (s.setReg r i v).slew = s.slew := rfl
@[simp] theorem setReg_ceOwed : (s.setReg r i v).ceOwed = s.ceOwed := rfl
@[simp] theorem setReg_steps : (s.setReg r i v).steps = s.steps := rfl
@[simp] theorem setReg_engines : (s.setReg r i v).engines = s.engines := rfl
@[simp] theorem setReg_croz : (s.setReg r i v).croz = s.croz := rfl
@[simp] theorem setReg_crozValid : (s.setReg r i v).crozValid = s.crozValid := rfl
@[simp] theorem setReg_memErrs : (s.setReg r i v).memErrs = s.memErrs := rfl
@[simp] theorem setReg_ckptDue : (s.setReg r i v).ckptDue = s.ckptDue := rfl
@[simp] theorem setReg_ckptImages : (s.setReg r i v).ckptImages = s.ckptImages := rfl
@[simp] theorem setReg_quiesce : (s.setReg r i v).quiesce = s.quiesce := rfl
@[simp] theorem setReg_objs : (s.setReg r i v).objs = s.objs := rfl
@[simp] theorem setReg_nrings : (s.setReg r i v).nrings = s.nrings := rfl
@[simp] theorem setReg_synOps : (s.setReg r i v).synOps = s.synOps := rfl
@[simp] theorem setReg_cmps : (s.setReg r i v).cmps = s.cmps := rfl
@[simp] theorem setReg_copied : (s.setReg r i v).copied = s.copied := rfl
@[simp] theorem setReg_copying : (s.setReg r i v).copying = s.copying := rfl
@[simp] theorem setReg_pair : (s.setReg r i v).pair = s.pair := rfl
@[simp] theorem setReg_rebalances : (s.setReg r i v).rebalances = s.rebalances := rfl
@[simp] theorem setReg_xch : (s.setReg r i v).xch = s.xch := rfl
@[simp] theorem setReg_paths : (s.setReg r i v).paths = s.paths := rfl
@[simp] theorem setReg_gates : (s.setReg r i v).gates = s.gates := rfl
@[simp] theorem setReg_loadSeq : (s.setReg r i v).loadSeq = s.loadSeq := rfl
@[simp] theorem setReg_keys : (s.setReg r i v).keys = s.keys := rfl
@[simp] theorem setReg_failTimes : (s.setReg r i v).failTimes = s.failTimes := rfl
@[simp] theorem setReg_ports : (s.setReg r i v).ports = s.ports := rfl
@[simp] theorem setReg_inbox : (s.setReg r i v).inbox = s.inbox := rfl
@[simp] theorem setReg_posted : (s.setReg r i v).posted = s.posted := rfl
@[simp] theorem setReg_slices : (s.setReg r i v).slices = s.slices := rfl
@[simp] theorem setReg_calPasses : (s.setReg r i v).calPasses = s.calPasses := rfl
@[simp] theorem setReg_moved : (s.setReg r i v).moved = s.moved := rfl
@[simp] theorem setReg_linkRuns : (s.setReg r i v).linkRuns = s.linkRuns := rfl
@[simp] theorem setReg_power : (s.setReg r i v).power = s.power := rfl
@[simp] theorem setReg_request : (s.setReg r i v).request = s.request := rfl
@[simp] theorem setReg_response : (s.setReg r i v).response = s.response := rfl
@[simp] theorem setReg_serving : (s.setReg r i v).serving = s.serving := rfl
@[simp] theorem setReg_answered : (s.setReg r i v).answered = s.answered := rfl
@[simp] theorem setReg_firmware : (s.setReg r i v).firmware = s.firmware := rfl
@[simp] theorem setReg_secure : (s.setReg r i v).secure = s.secure := rfl
@[simp] theorem setReg_tap : (s.setReg r i v).tap = s.tap := rfl
@[simp] theorem setReg_slots : (s.setReg r i v).slots = s.slots := rfl
@[simp] theorem setReg_boot : (s.setReg r i v).boot = s.boot := rfl
@[simp] theorem setReg_flash : (s.setReg r i v).flash = s.flash := rfl
end

section
variable (s : State) (f : Field) (i v : Nat)
@[simp] theorem setFld_pending : (s.setFld f i v).pending = s.pending := rfl
@[simp] theorem setFld_now : (s.setFld f i v).now = s.now := rfl
@[simp] theorem setFld_draws : (s.setFld f i v).draws = s.draws := rfl
@[simp] theorem setFld_staging : (s.setFld f i v).staging = s.staging := rfl
@[simp] theorem setFld_frozen : (s.setFld f i v).frozen = s.frozen := rfl
@[simp] theorem setFld_adopted : (s.setFld f i v).adopted = s.adopted := rfl
@[simp] theorem setFld_mem : (s.setFld f i v).mem = s.mem := rfl
@[simp] theorem setFld_host : (s.setFld f i v).host = s.host := rfl
@[simp] theorem setFld_store : (s.setFld f i v).store = s.store := rfl
@[simp] theorem setFld_poison : (s.setFld f i v).poison = s.poison := rfl
@[simp] theorem setFld_cache : (s.setFld f i v).cache = s.cache := rfl
@[simp] theorem setFld_wrong : (s.setFld f i v).wrong = s.wrong := rfl
@[simp] theorem setFld_cacheHits : (s.setFld f i v).cacheHits = s.cacheHits := rfl
@[simp] theorem setFld_cacheMisses : (s.setFld f i v).cacheMisses = s.cacheMisses := rfl
@[simp] theorem setFld_unmasked : (s.setFld f i v).unmasked = s.unmasked := rfl
@[simp] theorem setFld_vfs : (s.setFld f i v).vfs = s.vfs := rfl
@[simp] theorem setFld_sent : (s.setFld f i v).sent = s.sent := rfl
@[simp] theorem setFld_bar4Data : (s.setFld f i v).bar4Data = s.bar4Data := rfl
@[simp] theorem setFld_bar4Poison : (s.setFld f i v).bar4Poison = s.bar4Poison := rfl
@[simp] theorem setFld_limits : (s.setFld f i v).limits = s.limits := rfl
@[simp] theorem setFld_began : (s.setFld f i v).began = s.began := rfl
@[simp] theorem setFld_queues : (s.setFld f i v).queues = s.queues := rfl
@[simp] theorem setFld_served : (s.setFld f i v).served = s.served := rfl
@[simp] theorem setFld_rings : (s.setFld f i v).rings = s.rings := rfl
@[simp] theorem setFld_programs : (s.setFld f i v).programs = s.programs := rfl
@[simp] theorem setFld_resetting : (s.setFld f i v).resetting = s.resetting := rfl
@[simp] theorem setFld_launches : (s.setFld f i v).launches = s.launches := rfl
@[simp] theorem setFld_tiles : (s.setFld f i v).tiles = s.tiles := rfl
@[simp] theorem setFld_transfers : (s.setFld f i v).transfers = s.transfers := rfl
@[simp] theorem setFld_nextId : (s.setFld f i v).nextId = s.nextId := rfl
@[simp] theorem setFld_colls : (s.setFld f i v).colls = s.colls := rfl
@[simp] theorem setFld_arenas : (s.setFld f i v).arenas = s.arenas := rfl
@[simp] theorem setFld_plain : (s.setFld f i v).plain = s.plain := rfl
@[simp] theorem setFld_stored : (s.setFld f i v).stored = s.stored := rfl
@[simp] theorem setFld_ueTimes : (s.setFld f i v).ueTimes = s.ueTimes := rfl
@[simp] theorem setFld_ceTimes : (s.setFld f i v).ceTimes = s.ceTimes := rfl
@[simp] theorem setFld_slew : (s.setFld f i v).slew = s.slew := rfl
@[simp] theorem setFld_ceOwed : (s.setFld f i v).ceOwed = s.ceOwed := rfl
@[simp] theorem setFld_steps : (s.setFld f i v).steps = s.steps := rfl
@[simp] theorem setFld_engines : (s.setFld f i v).engines = s.engines := rfl
@[simp] theorem setFld_croz : (s.setFld f i v).croz = s.croz := rfl
@[simp] theorem setFld_crozValid : (s.setFld f i v).crozValid = s.crozValid := rfl
@[simp] theorem setFld_memErrs : (s.setFld f i v).memErrs = s.memErrs := rfl
@[simp] theorem setFld_ckptDue : (s.setFld f i v).ckptDue = s.ckptDue := rfl
@[simp] theorem setFld_ckptImages : (s.setFld f i v).ckptImages = s.ckptImages := rfl
@[simp] theorem setFld_quiesce : (s.setFld f i v).quiesce = s.quiesce := rfl
@[simp] theorem setFld_objs : (s.setFld f i v).objs = s.objs := rfl
@[simp] theorem setFld_nrings : (s.setFld f i v).nrings = s.nrings := rfl
@[simp] theorem setFld_synOps : (s.setFld f i v).synOps = s.synOps := rfl
@[simp] theorem setFld_cmps : (s.setFld f i v).cmps = s.cmps := rfl
@[simp] theorem setFld_copied : (s.setFld f i v).copied = s.copied := rfl
@[simp] theorem setFld_copying : (s.setFld f i v).copying = s.copying := rfl
@[simp] theorem setFld_pair : (s.setFld f i v).pair = s.pair := rfl
@[simp] theorem setFld_rebalances : (s.setFld f i v).rebalances = s.rebalances := rfl
@[simp] theorem setFld_xch : (s.setFld f i v).xch = s.xch := rfl
@[simp] theorem setFld_paths : (s.setFld f i v).paths = s.paths := rfl
@[simp] theorem setFld_gates : (s.setFld f i v).gates = s.gates := rfl
@[simp] theorem setFld_loadSeq : (s.setFld f i v).loadSeq = s.loadSeq := rfl
@[simp] theorem setFld_keys : (s.setFld f i v).keys = s.keys := rfl
@[simp] theorem setFld_failTimes : (s.setFld f i v).failTimes = s.failTimes := rfl
@[simp] theorem setFld_ports : (s.setFld f i v).ports = s.ports := rfl
@[simp] theorem setFld_inbox : (s.setFld f i v).inbox = s.inbox := rfl
@[simp] theorem setFld_posted : (s.setFld f i v).posted = s.posted := rfl
@[simp] theorem setFld_slices : (s.setFld f i v).slices = s.slices := rfl
@[simp] theorem setFld_calPasses : (s.setFld f i v).calPasses = s.calPasses := rfl
@[simp] theorem setFld_moved : (s.setFld f i v).moved = s.moved := rfl
@[simp] theorem setFld_linkRuns : (s.setFld f i v).linkRuns = s.linkRuns := rfl
@[simp] theorem setFld_power : (s.setFld f i v).power = s.power := rfl
@[simp] theorem setFld_request : (s.setFld f i v).request = s.request := rfl
@[simp] theorem setFld_response : (s.setFld f i v).response = s.response := rfl
@[simp] theorem setFld_serving : (s.setFld f i v).serving = s.serving := rfl
@[simp] theorem setFld_answered : (s.setFld f i v).answered = s.answered := rfl
@[simp] theorem setFld_firmware : (s.setFld f i v).firmware = s.firmware := rfl
@[simp] theorem setFld_secure : (s.setFld f i v).secure = s.secure := rfl
@[simp] theorem setFld_tap : (s.setFld f i v).tap = s.tap := rfl
@[simp] theorem setFld_slots : (s.setFld f i v).slots = s.slots := rfl
@[simp] theorem setFld_boot : (s.setFld f i v).boot = s.boot := rfl
@[simp] theorem setFld_flash : (s.setFld f i v).flash = s.flash := rfl
end

section
variable (s : State) (f : Field) (i v : Nat)
@[simp] theorem bumpFld_pending : (s.bumpFld f i v).pending = s.pending := rfl
@[simp] theorem bumpFld_now : (s.bumpFld f i v).now = s.now := rfl
@[simp] theorem bumpFld_draws : (s.bumpFld f i v).draws = s.draws := rfl
@[simp] theorem bumpFld_staging : (s.bumpFld f i v).staging = s.staging := rfl
@[simp] theorem bumpFld_frozen : (s.bumpFld f i v).frozen = s.frozen := rfl
@[simp] theorem bumpFld_adopted : (s.bumpFld f i v).adopted = s.adopted := rfl
@[simp] theorem bumpFld_mem : (s.bumpFld f i v).mem = s.mem := rfl
@[simp] theorem bumpFld_host : (s.bumpFld f i v).host = s.host := rfl
@[simp] theorem bumpFld_store : (s.bumpFld f i v).store = s.store := rfl
@[simp] theorem bumpFld_poison : (s.bumpFld f i v).poison = s.poison := rfl
@[simp] theorem bumpFld_cache : (s.bumpFld f i v).cache = s.cache := rfl
@[simp] theorem bumpFld_wrong : (s.bumpFld f i v).wrong = s.wrong := rfl
@[simp] theorem bumpFld_cacheHits : (s.bumpFld f i v).cacheHits = s.cacheHits := rfl
@[simp] theorem bumpFld_cacheMisses : (s.bumpFld f i v).cacheMisses = s.cacheMisses := rfl
@[simp] theorem bumpFld_unmasked : (s.bumpFld f i v).unmasked = s.unmasked := rfl
@[simp] theorem bumpFld_vfs : (s.bumpFld f i v).vfs = s.vfs := rfl
@[simp] theorem bumpFld_sent : (s.bumpFld f i v).sent = s.sent := rfl
@[simp] theorem bumpFld_bar4Data : (s.bumpFld f i v).bar4Data = s.bar4Data := rfl
@[simp] theorem bumpFld_bar4Poison : (s.bumpFld f i v).bar4Poison = s.bar4Poison := rfl
@[simp] theorem bumpFld_limits : (s.bumpFld f i v).limits = s.limits := rfl
@[simp] theorem bumpFld_began : (s.bumpFld f i v).began = s.began := rfl
@[simp] theorem bumpFld_queues : (s.bumpFld f i v).queues = s.queues := rfl
@[simp] theorem bumpFld_served : (s.bumpFld f i v).served = s.served := rfl
@[simp] theorem bumpFld_rings : (s.bumpFld f i v).rings = s.rings := rfl
@[simp] theorem bumpFld_programs : (s.bumpFld f i v).programs = s.programs := rfl
@[simp] theorem bumpFld_resetting : (s.bumpFld f i v).resetting = s.resetting := rfl
@[simp] theorem bumpFld_launches : (s.bumpFld f i v).launches = s.launches := rfl
@[simp] theorem bumpFld_tiles : (s.bumpFld f i v).tiles = s.tiles := rfl
@[simp] theorem bumpFld_transfers : (s.bumpFld f i v).transfers = s.transfers := rfl
@[simp] theorem bumpFld_nextId : (s.bumpFld f i v).nextId = s.nextId := rfl
@[simp] theorem bumpFld_colls : (s.bumpFld f i v).colls = s.colls := rfl
@[simp] theorem bumpFld_arenas : (s.bumpFld f i v).arenas = s.arenas := rfl
@[simp] theorem bumpFld_plain : (s.bumpFld f i v).plain = s.plain := rfl
@[simp] theorem bumpFld_stored : (s.bumpFld f i v).stored = s.stored := rfl
@[simp] theorem bumpFld_ueTimes : (s.bumpFld f i v).ueTimes = s.ueTimes := rfl
@[simp] theorem bumpFld_ceTimes : (s.bumpFld f i v).ceTimes = s.ceTimes := rfl
@[simp] theorem bumpFld_slew : (s.bumpFld f i v).slew = s.slew := rfl
@[simp] theorem bumpFld_ceOwed : (s.bumpFld f i v).ceOwed = s.ceOwed := rfl
@[simp] theorem bumpFld_steps : (s.bumpFld f i v).steps = s.steps := rfl
@[simp] theorem bumpFld_engines : (s.bumpFld f i v).engines = s.engines := rfl
@[simp] theorem bumpFld_croz : (s.bumpFld f i v).croz = s.croz := rfl
@[simp] theorem bumpFld_crozValid : (s.bumpFld f i v).crozValid = s.crozValid := rfl
@[simp] theorem bumpFld_memErrs : (s.bumpFld f i v).memErrs = s.memErrs := rfl
@[simp] theorem bumpFld_ckptDue : (s.bumpFld f i v).ckptDue = s.ckptDue := rfl
@[simp] theorem bumpFld_ckptImages : (s.bumpFld f i v).ckptImages = s.ckptImages := rfl
@[simp] theorem bumpFld_quiesce : (s.bumpFld f i v).quiesce = s.quiesce := rfl
@[simp] theorem bumpFld_objs : (s.bumpFld f i v).objs = s.objs := rfl
@[simp] theorem bumpFld_nrings : (s.bumpFld f i v).nrings = s.nrings := rfl
@[simp] theorem bumpFld_synOps : (s.bumpFld f i v).synOps = s.synOps := rfl
@[simp] theorem bumpFld_cmps : (s.bumpFld f i v).cmps = s.cmps := rfl
@[simp] theorem bumpFld_copied : (s.bumpFld f i v).copied = s.copied := rfl
@[simp] theorem bumpFld_copying : (s.bumpFld f i v).copying = s.copying := rfl
@[simp] theorem bumpFld_pair : (s.bumpFld f i v).pair = s.pair := rfl
@[simp] theorem bumpFld_rebalances : (s.bumpFld f i v).rebalances = s.rebalances := rfl
@[simp] theorem bumpFld_xch : (s.bumpFld f i v).xch = s.xch := rfl
@[simp] theorem bumpFld_paths : (s.bumpFld f i v).paths = s.paths := rfl
@[simp] theorem bumpFld_gates : (s.bumpFld f i v).gates = s.gates := rfl
@[simp] theorem bumpFld_loadSeq : (s.bumpFld f i v).loadSeq = s.loadSeq := rfl
@[simp] theorem bumpFld_keys : (s.bumpFld f i v).keys = s.keys := rfl
@[simp] theorem bumpFld_failTimes : (s.bumpFld f i v).failTimes = s.failTimes := rfl
@[simp] theorem bumpFld_ports : (s.bumpFld f i v).ports = s.ports := rfl
@[simp] theorem bumpFld_inbox : (s.bumpFld f i v).inbox = s.inbox := rfl
@[simp] theorem bumpFld_posted : (s.bumpFld f i v).posted = s.posted := rfl
@[simp] theorem bumpFld_slices : (s.bumpFld f i v).slices = s.slices := rfl
@[simp] theorem bumpFld_calPasses : (s.bumpFld f i v).calPasses = s.calPasses := rfl
@[simp] theorem bumpFld_moved : (s.bumpFld f i v).moved = s.moved := rfl
@[simp] theorem bumpFld_linkRuns : (s.bumpFld f i v).linkRuns = s.linkRuns := rfl
@[simp] theorem bumpFld_power : (s.bumpFld f i v).power = s.power := rfl
@[simp] theorem bumpFld_request : (s.bumpFld f i v).request = s.request := rfl
@[simp] theorem bumpFld_response : (s.bumpFld f i v).response = s.response := rfl
@[simp] theorem bumpFld_serving : (s.bumpFld f i v).serving = s.serving := rfl
@[simp] theorem bumpFld_answered : (s.bumpFld f i v).answered = s.answered := rfl
@[simp] theorem bumpFld_firmware : (s.bumpFld f i v).firmware = s.firmware := rfl
@[simp] theorem bumpFld_secure : (s.bumpFld f i v).secure = s.secure := rfl
@[simp] theorem bumpFld_tap : (s.bumpFld f i v).tap = s.tap := rfl
@[simp] theorem bumpFld_slots : (s.bumpFld f i v).slots = s.slots := rfl
@[simp] theorem bumpFld_boot : (s.bumpFld f i v).boot = s.boot := rfl
@[simp] theorem bumpFld_flash : (s.bumpFld f i v).flash = s.flash := rfl
end

section
variable (s : State) (ctx tile : Nat) (set v : Bool)
@[simp] theorem setInv_pending : (s.setInv ctx tile set v).pending = s.pending := rfl
@[simp] theorem setInv_now : (s.setInv ctx tile set v).now = s.now := rfl
@[simp] theorem setInv_draws : (s.setInv ctx tile set v).draws = s.draws := rfl
@[simp] theorem setInv_staging : (s.setInv ctx tile set v).staging = s.staging := rfl
@[simp] theorem setInv_frozen : (s.setInv ctx tile set v).frozen = s.frozen := rfl
@[simp] theorem setInv_adopted : (s.setInv ctx tile set v).adopted = s.adopted := rfl
@[simp] theorem setInv_mem : (s.setInv ctx tile set v).mem = s.mem := rfl
@[simp] theorem setInv_host : (s.setInv ctx tile set v).host = s.host := rfl
@[simp] theorem setInv_store : (s.setInv ctx tile set v).store = s.store := rfl
@[simp] theorem setInv_poison : (s.setInv ctx tile set v).poison = s.poison := rfl
@[simp] theorem setInv_cache : (s.setInv ctx tile set v).cache = s.cache := rfl
@[simp] theorem setInv_wrong : (s.setInv ctx tile set v).wrong = s.wrong := rfl
@[simp] theorem setInv_cacheHits : (s.setInv ctx tile set v).cacheHits = s.cacheHits := rfl
@[simp] theorem setInv_cacheMisses : (s.setInv ctx tile set v).cacheMisses = s.cacheMisses := rfl
@[simp] theorem setInv_unmasked : (s.setInv ctx tile set v).unmasked = s.unmasked := rfl
@[simp] theorem setInv_vfs : (s.setInv ctx tile set v).vfs = s.vfs := rfl
@[simp] theorem setInv_sent : (s.setInv ctx tile set v).sent = s.sent := rfl
@[simp] theorem setInv_bar4Data : (s.setInv ctx tile set v).bar4Data = s.bar4Data := rfl
@[simp] theorem setInv_bar4Poison : (s.setInv ctx tile set v).bar4Poison = s.bar4Poison := rfl
@[simp] theorem setInv_limits : (s.setInv ctx tile set v).limits = s.limits := rfl
@[simp] theorem setInv_began : (s.setInv ctx tile set v).began = s.began := rfl
@[simp] theorem setInv_queues : (s.setInv ctx tile set v).queues = s.queues := rfl
@[simp] theorem setInv_served : (s.setInv ctx tile set v).served = s.served := rfl
@[simp] theorem setInv_rings : (s.setInv ctx tile set v).rings = s.rings := rfl
@[simp] theorem setInv_programs : (s.setInv ctx tile set v).programs = s.programs := rfl
@[simp] theorem setInv_resetting : (s.setInv ctx tile set v).resetting = s.resetting := rfl
@[simp] theorem setInv_launches : (s.setInv ctx tile set v).launches = s.launches := rfl
@[simp] theorem setInv_tiles : (s.setInv ctx tile set v).tiles = s.tiles := rfl
@[simp] theorem setInv_transfers : (s.setInv ctx tile set v).transfers = s.transfers := rfl
@[simp] theorem setInv_nextId : (s.setInv ctx tile set v).nextId = s.nextId := rfl
@[simp] theorem setInv_colls : (s.setInv ctx tile set v).colls = s.colls := rfl
@[simp] theorem setInv_arenas : (s.setInv ctx tile set v).arenas = s.arenas := rfl
@[simp] theorem setInv_plain : (s.setInv ctx tile set v).plain = s.plain := rfl
@[simp] theorem setInv_stored : (s.setInv ctx tile set v).stored = s.stored := rfl
@[simp] theorem setInv_ueTimes : (s.setInv ctx tile set v).ueTimes = s.ueTimes := rfl
@[simp] theorem setInv_ceTimes : (s.setInv ctx tile set v).ceTimes = s.ceTimes := rfl
@[simp] theorem setInv_slew : (s.setInv ctx tile set v).slew = s.slew := rfl
@[simp] theorem setInv_ceOwed : (s.setInv ctx tile set v).ceOwed = s.ceOwed := rfl
@[simp] theorem setInv_steps : (s.setInv ctx tile set v).steps = s.steps := rfl
@[simp] theorem setInv_engines : (s.setInv ctx tile set v).engines = s.engines := rfl
@[simp] theorem setInv_croz : (s.setInv ctx tile set v).croz = s.croz := rfl
@[simp] theorem setInv_crozValid : (s.setInv ctx tile set v).crozValid = s.crozValid := rfl
@[simp] theorem setInv_memErrs : (s.setInv ctx tile set v).memErrs = s.memErrs := rfl
@[simp] theorem setInv_ckptDue : (s.setInv ctx tile set v).ckptDue = s.ckptDue := rfl
@[simp] theorem setInv_ckptImages : (s.setInv ctx tile set v).ckptImages = s.ckptImages := rfl
@[simp] theorem setInv_quiesce : (s.setInv ctx tile set v).quiesce = s.quiesce := rfl
@[simp] theorem setInv_objs : (s.setInv ctx tile set v).objs = s.objs := rfl
@[simp] theorem setInv_nrings : (s.setInv ctx tile set v).nrings = s.nrings := rfl
@[simp] theorem setInv_synOps : (s.setInv ctx tile set v).synOps = s.synOps := rfl
@[simp] theorem setInv_cmps : (s.setInv ctx tile set v).cmps = s.cmps := rfl
@[simp] theorem setInv_copied : (s.setInv ctx tile set v).copied = s.copied := rfl
@[simp] theorem setInv_copying : (s.setInv ctx tile set v).copying = s.copying := rfl
@[simp] theorem setInv_pair : (s.setInv ctx tile set v).pair = s.pair := rfl
@[simp] theorem setInv_rebalances : (s.setInv ctx tile set v).rebalances = s.rebalances := rfl
@[simp] theorem setInv_xch : (s.setInv ctx tile set v).xch = s.xch := rfl
@[simp] theorem setInv_paths : (s.setInv ctx tile set v).paths = s.paths := rfl
@[simp] theorem setInv_gates : (s.setInv ctx tile set v).gates = s.gates := rfl
@[simp] theorem setInv_loadSeq : (s.setInv ctx tile set v).loadSeq = s.loadSeq := rfl
@[simp] theorem setInv_keys : (s.setInv ctx tile set v).keys = s.keys := rfl
@[simp] theorem setInv_failTimes : (s.setInv ctx tile set v).failTimes = s.failTimes := rfl
@[simp] theorem setInv_ports : (s.setInv ctx tile set v).ports = s.ports := rfl
@[simp] theorem setInv_inbox : (s.setInv ctx tile set v).inbox = s.inbox := rfl
@[simp] theorem setInv_posted : (s.setInv ctx tile set v).posted = s.posted := rfl
@[simp] theorem setInv_slices : (s.setInv ctx tile set v).slices = s.slices := rfl
@[simp] theorem setInv_calPasses : (s.setInv ctx tile set v).calPasses = s.calPasses := rfl
@[simp] theorem setInv_moved : (s.setInv ctx tile set v).moved = s.moved := rfl
@[simp] theorem setInv_linkRuns : (s.setInv ctx tile set v).linkRuns = s.linkRuns := rfl
@[simp] theorem setInv_power : (s.setInv ctx tile set v).power = s.power := rfl
@[simp] theorem setInv_request : (s.setInv ctx tile set v).request = s.request := rfl
@[simp] theorem setInv_response : (s.setInv ctx tile set v).response = s.response := rfl
@[simp] theorem setInv_serving : (s.setInv ctx tile set v).serving = s.serving := rfl
@[simp] theorem setInv_answered : (s.setInv ctx tile set v).answered = s.answered := rfl
@[simp] theorem setInv_firmware : (s.setInv ctx tile set v).firmware = s.firmware := rfl
@[simp] theorem setInv_secure : (s.setInv ctx tile set v).secure = s.secure := rfl
@[simp] theorem setInv_tap : (s.setInv ctx tile set v).tap = s.tap := rfl
@[simp] theorem setInv_slots : (s.setInv ctx tile set v).slots = s.slots := rfl
@[simp] theorem setInv_boot : (s.setInv ctx tile set v).boot = s.boot := rfl
@[simp] theorem setInv_flash : (s.setInv ctx tile set v).flash = s.flash := rfl
end

section
variable (s : State) (t : Nat) (x : Tile)
@[simp] theorem setTile_pending : (s.setTile t x).pending = s.pending := rfl
@[simp] theorem setTile_now : (s.setTile t x).now = s.now := rfl
@[simp] theorem setTile_draws : (s.setTile t x).draws = s.draws := rfl
@[simp] theorem setTile_regs : (s.setTile t x).regs = s.regs := rfl
@[simp] theorem setTile_staging : (s.setTile t x).staging = s.staging := rfl
@[simp] theorem setTile_frozen : (s.setTile t x).frozen = s.frozen := rfl
@[simp] theorem setTile_adopted : (s.setTile t x).adopted = s.adopted := rfl
@[simp] theorem setTile_mem : (s.setTile t x).mem = s.mem := rfl
@[simp] theorem setTile_host : (s.setTile t x).host = s.host := rfl
@[simp] theorem setTile_store : (s.setTile t x).store = s.store := rfl
@[simp] theorem setTile_poison : (s.setTile t x).poison = s.poison := rfl
@[simp] theorem setTile_cache : (s.setTile t x).cache = s.cache := rfl
@[simp] theorem setTile_wrong : (s.setTile t x).wrong = s.wrong := rfl
@[simp] theorem setTile_cacheHits : (s.setTile t x).cacheHits = s.cacheHits := rfl
@[simp] theorem setTile_cacheMisses : (s.setTile t x).cacheMisses = s.cacheMisses := rfl
@[simp] theorem setTile_unmasked : (s.setTile t x).unmasked = s.unmasked := rfl
@[simp] theorem setTile_vfs : (s.setTile t x).vfs = s.vfs := rfl
@[simp] theorem setTile_sent : (s.setTile t x).sent = s.sent := rfl
@[simp] theorem setTile_bar4Data : (s.setTile t x).bar4Data = s.bar4Data := rfl
@[simp] theorem setTile_bar4Poison : (s.setTile t x).bar4Poison = s.bar4Poison := rfl
@[simp] theorem setTile_limits : (s.setTile t x).limits = s.limits := rfl
@[simp] theorem setTile_began : (s.setTile t x).began = s.began := rfl
@[simp] theorem setTile_queues : (s.setTile t x).queues = s.queues := rfl
@[simp] theorem setTile_served : (s.setTile t x).served = s.served := rfl
@[simp] theorem setTile_rings : (s.setTile t x).rings = s.rings := rfl
@[simp] theorem setTile_programs : (s.setTile t x).programs = s.programs := rfl
@[simp] theorem setTile_resetting : (s.setTile t x).resetting = s.resetting := rfl
@[simp] theorem setTile_launches : (s.setTile t x).launches = s.launches := rfl
@[simp] theorem setTile_transfers : (s.setTile t x).transfers = s.transfers := rfl
@[simp] theorem setTile_nextId : (s.setTile t x).nextId = s.nextId := rfl
@[simp] theorem setTile_colls : (s.setTile t x).colls = s.colls := rfl
@[simp] theorem setTile_arenas : (s.setTile t x).arenas = s.arenas := rfl
@[simp] theorem setTile_plain : (s.setTile t x).plain = s.plain := rfl
@[simp] theorem setTile_stored : (s.setTile t x).stored = s.stored := rfl
@[simp] theorem setTile_ueTimes : (s.setTile t x).ueTimes = s.ueTimes := rfl
@[simp] theorem setTile_ceTimes : (s.setTile t x).ceTimes = s.ceTimes := rfl
@[simp] theorem setTile_slew : (s.setTile t x).slew = s.slew := rfl
@[simp] theorem setTile_ceOwed : (s.setTile t x).ceOwed = s.ceOwed := rfl
@[simp] theorem setTile_steps : (s.setTile t x).steps = s.steps := rfl
@[simp] theorem setTile_engines : (s.setTile t x).engines = s.engines := rfl
@[simp] theorem setTile_croz : (s.setTile t x).croz = s.croz := rfl
@[simp] theorem setTile_crozValid : (s.setTile t x).crozValid = s.crozValid := rfl
@[simp] theorem setTile_memErrs : (s.setTile t x).memErrs = s.memErrs := rfl
@[simp] theorem setTile_ckptDue : (s.setTile t x).ckptDue = s.ckptDue := rfl
@[simp] theorem setTile_ckptImages : (s.setTile t x).ckptImages = s.ckptImages := rfl
@[simp] theorem setTile_quiesce : (s.setTile t x).quiesce = s.quiesce := rfl
@[simp] theorem setTile_objs : (s.setTile t x).objs = s.objs := rfl
@[simp] theorem setTile_nrings : (s.setTile t x).nrings = s.nrings := rfl
@[simp] theorem setTile_synOps : (s.setTile t x).synOps = s.synOps := rfl
@[simp] theorem setTile_cmps : (s.setTile t x).cmps = s.cmps := rfl
@[simp] theorem setTile_copied : (s.setTile t x).copied = s.copied := rfl
@[simp] theorem setTile_copying : (s.setTile t x).copying = s.copying := rfl
@[simp] theorem setTile_pair : (s.setTile t x).pair = s.pair := rfl
@[simp] theorem setTile_rebalances : (s.setTile t x).rebalances = s.rebalances := rfl
@[simp] theorem setTile_xch : (s.setTile t x).xch = s.xch := rfl
@[simp] theorem setTile_paths : (s.setTile t x).paths = s.paths := rfl
@[simp] theorem setTile_gates : (s.setTile t x).gates = s.gates := rfl
@[simp] theorem setTile_loadSeq : (s.setTile t x).loadSeq = s.loadSeq := rfl
@[simp] theorem setTile_keys : (s.setTile t x).keys = s.keys := rfl
@[simp] theorem setTile_failTimes : (s.setTile t x).failTimes = s.failTimes := rfl
@[simp] theorem setTile_ports : (s.setTile t x).ports = s.ports := rfl
@[simp] theorem setTile_inbox : (s.setTile t x).inbox = s.inbox := rfl
@[simp] theorem setTile_posted : (s.setTile t x).posted = s.posted := rfl
@[simp] theorem setTile_slices : (s.setTile t x).slices = s.slices := rfl
@[simp] theorem setTile_calPasses : (s.setTile t x).calPasses = s.calPasses := rfl
@[simp] theorem setTile_moved : (s.setTile t x).moved = s.moved := rfl
@[simp] theorem setTile_linkRuns : (s.setTile t x).linkRuns = s.linkRuns := rfl
@[simp] theorem setTile_power : (s.setTile t x).power = s.power := rfl
@[simp] theorem setTile_request : (s.setTile t x).request = s.request := rfl
@[simp] theorem setTile_response : (s.setTile t x).response = s.response := rfl
@[simp] theorem setTile_serving : (s.setTile t x).serving = s.serving := rfl
@[simp] theorem setTile_answered : (s.setTile t x).answered = s.answered := rfl
@[simp] theorem setTile_firmware : (s.setTile t x).firmware = s.firmware := rfl
@[simp] theorem setTile_secure : (s.setTile t x).secure = s.secure := rfl
@[simp] theorem setTile_tap : (s.setTile t x).tap = s.tap := rfl
@[simp] theorem setTile_slots : (s.setTile t x).slots = s.slots := rfl
@[simp] theorem setTile_boot : (s.setTile t x).boot = s.boot := rfl
@[simp] theorem setTile_flash : (s.setTile t x).flash = s.flash := rfl
end

section
variable (s : State) (t : Nat) (f : Tile → Tile)
@[simp] theorem modTile_pending : (s.modTile t f).pending = s.pending := rfl
@[simp] theorem modTile_now : (s.modTile t f).now = s.now := rfl
@[simp] theorem modTile_draws : (s.modTile t f).draws = s.draws := rfl
@[simp] theorem modTile_regs : (s.modTile t f).regs = s.regs := rfl
@[simp] theorem modTile_staging : (s.modTile t f).staging = s.staging := rfl
@[simp] theorem modTile_frozen : (s.modTile t f).frozen = s.frozen := rfl
@[simp] theorem modTile_adopted : (s.modTile t f).adopted = s.adopted := rfl
@[simp] theorem modTile_mem : (s.modTile t f).mem = s.mem := rfl
@[simp] theorem modTile_host : (s.modTile t f).host = s.host := rfl
@[simp] theorem modTile_store : (s.modTile t f).store = s.store := rfl
@[simp] theorem modTile_poison : (s.modTile t f).poison = s.poison := rfl
@[simp] theorem modTile_cache : (s.modTile t f).cache = s.cache := rfl
@[simp] theorem modTile_wrong : (s.modTile t f).wrong = s.wrong := rfl
@[simp] theorem modTile_cacheHits : (s.modTile t f).cacheHits = s.cacheHits := rfl
@[simp] theorem modTile_cacheMisses : (s.modTile t f).cacheMisses = s.cacheMisses := rfl
@[simp] theorem modTile_unmasked : (s.modTile t f).unmasked = s.unmasked := rfl
@[simp] theorem modTile_vfs : (s.modTile t f).vfs = s.vfs := rfl
@[simp] theorem modTile_sent : (s.modTile t f).sent = s.sent := rfl
@[simp] theorem modTile_bar4Data : (s.modTile t f).bar4Data = s.bar4Data := rfl
@[simp] theorem modTile_bar4Poison : (s.modTile t f).bar4Poison = s.bar4Poison := rfl
@[simp] theorem modTile_limits : (s.modTile t f).limits = s.limits := rfl
@[simp] theorem modTile_began : (s.modTile t f).began = s.began := rfl
@[simp] theorem modTile_queues : (s.modTile t f).queues = s.queues := rfl
@[simp] theorem modTile_served : (s.modTile t f).served = s.served := rfl
@[simp] theorem modTile_rings : (s.modTile t f).rings = s.rings := rfl
@[simp] theorem modTile_programs : (s.modTile t f).programs = s.programs := rfl
@[simp] theorem modTile_resetting : (s.modTile t f).resetting = s.resetting := rfl
@[simp] theorem modTile_launches : (s.modTile t f).launches = s.launches := rfl
@[simp] theorem modTile_transfers : (s.modTile t f).transfers = s.transfers := rfl
@[simp] theorem modTile_nextId : (s.modTile t f).nextId = s.nextId := rfl
@[simp] theorem modTile_colls : (s.modTile t f).colls = s.colls := rfl
@[simp] theorem modTile_arenas : (s.modTile t f).arenas = s.arenas := rfl
@[simp] theorem modTile_plain : (s.modTile t f).plain = s.plain := rfl
@[simp] theorem modTile_stored : (s.modTile t f).stored = s.stored := rfl
@[simp] theorem modTile_ueTimes : (s.modTile t f).ueTimes = s.ueTimes := rfl
@[simp] theorem modTile_ceTimes : (s.modTile t f).ceTimes = s.ceTimes := rfl
@[simp] theorem modTile_slew : (s.modTile t f).slew = s.slew := rfl
@[simp] theorem modTile_ceOwed : (s.modTile t f).ceOwed = s.ceOwed := rfl
@[simp] theorem modTile_steps : (s.modTile t f).steps = s.steps := rfl
@[simp] theorem modTile_engines : (s.modTile t f).engines = s.engines := rfl
@[simp] theorem modTile_croz : (s.modTile t f).croz = s.croz := rfl
@[simp] theorem modTile_crozValid : (s.modTile t f).crozValid = s.crozValid := rfl
@[simp] theorem modTile_memErrs : (s.modTile t f).memErrs = s.memErrs := rfl
@[simp] theorem modTile_ckptDue : (s.modTile t f).ckptDue = s.ckptDue := rfl
@[simp] theorem modTile_ckptImages : (s.modTile t f).ckptImages = s.ckptImages := rfl
@[simp] theorem modTile_quiesce : (s.modTile t f).quiesce = s.quiesce := rfl
@[simp] theorem modTile_objs : (s.modTile t f).objs = s.objs := rfl
@[simp] theorem modTile_nrings : (s.modTile t f).nrings = s.nrings := rfl
@[simp] theorem modTile_synOps : (s.modTile t f).synOps = s.synOps := rfl
@[simp] theorem modTile_cmps : (s.modTile t f).cmps = s.cmps := rfl
@[simp] theorem modTile_copied : (s.modTile t f).copied = s.copied := rfl
@[simp] theorem modTile_copying : (s.modTile t f).copying = s.copying := rfl
@[simp] theorem modTile_pair : (s.modTile t f).pair = s.pair := rfl
@[simp] theorem modTile_rebalances : (s.modTile t f).rebalances = s.rebalances := rfl
@[simp] theorem modTile_xch : (s.modTile t f).xch = s.xch := rfl
@[simp] theorem modTile_paths : (s.modTile t f).paths = s.paths := rfl
@[simp] theorem modTile_gates : (s.modTile t f).gates = s.gates := rfl
@[simp] theorem modTile_loadSeq : (s.modTile t f).loadSeq = s.loadSeq := rfl
@[simp] theorem modTile_keys : (s.modTile t f).keys = s.keys := rfl
@[simp] theorem modTile_failTimes : (s.modTile t f).failTimes = s.failTimes := rfl
@[simp] theorem modTile_ports : (s.modTile t f).ports = s.ports := rfl
@[simp] theorem modTile_inbox : (s.modTile t f).inbox = s.inbox := rfl
@[simp] theorem modTile_posted : (s.modTile t f).posted = s.posted := rfl
@[simp] theorem modTile_slices : (s.modTile t f).slices = s.slices := rfl
@[simp] theorem modTile_calPasses : (s.modTile t f).calPasses = s.calPasses := rfl
@[simp] theorem modTile_moved : (s.modTile t f).moved = s.moved := rfl
@[simp] theorem modTile_linkRuns : (s.modTile t f).linkRuns = s.linkRuns := rfl
@[simp] theorem modTile_power : (s.modTile t f).power = s.power := rfl
@[simp] theorem modTile_request : (s.modTile t f).request = s.request := rfl
@[simp] theorem modTile_response : (s.modTile t f).response = s.response := rfl
@[simp] theorem modTile_serving : (s.modTile t f).serving = s.serving := rfl
@[simp] theorem modTile_answered : (s.modTile t f).answered = s.answered := rfl
@[simp] theorem modTile_firmware : (s.modTile t f).firmware = s.firmware := rfl
@[simp] theorem modTile_secure : (s.modTile t f).secure = s.secure := rfl
@[simp] theorem modTile_tap : (s.modTile t f).tap = s.tap := rfl
@[simp] theorem modTile_slots : (s.modTile t f).slots = s.slots := rfl
@[simp] theorem modTile_boot : (s.modTile t f).boot = s.boot := rfl
@[simp] theorem modTile_flash : (s.modTile t f).flash = s.flash := rfl
end

section
variable (s : State) (t k : Nat)
@[simp] theorem setPhase_pending : (s.setPhase t k).pending = s.pending := rfl
@[simp] theorem setPhase_now : (s.setPhase t k).now = s.now := rfl
@[simp] theorem setPhase_draws : (s.setPhase t k).draws = s.draws := rfl
@[simp] theorem setPhase_regs : (s.setPhase t k).regs = s.regs := rfl
@[simp] theorem setPhase_staging : (s.setPhase t k).staging = s.staging := rfl
@[simp] theorem setPhase_frozen : (s.setPhase t k).frozen = s.frozen := rfl
@[simp] theorem setPhase_adopted : (s.setPhase t k).adopted = s.adopted := rfl
@[simp] theorem setPhase_mem : (s.setPhase t k).mem = s.mem := rfl
@[simp] theorem setPhase_host : (s.setPhase t k).host = s.host := rfl
@[simp] theorem setPhase_store : (s.setPhase t k).store = s.store := rfl
@[simp] theorem setPhase_poison : (s.setPhase t k).poison = s.poison := rfl
@[simp] theorem setPhase_cache : (s.setPhase t k).cache = s.cache := rfl
@[simp] theorem setPhase_wrong : (s.setPhase t k).wrong = s.wrong := rfl
@[simp] theorem setPhase_cacheHits : (s.setPhase t k).cacheHits = s.cacheHits := rfl
@[simp] theorem setPhase_cacheMisses : (s.setPhase t k).cacheMisses = s.cacheMisses := rfl
@[simp] theorem setPhase_unmasked : (s.setPhase t k).unmasked = s.unmasked := rfl
@[simp] theorem setPhase_vfs : (s.setPhase t k).vfs = s.vfs := rfl
@[simp] theorem setPhase_sent : (s.setPhase t k).sent = s.sent := rfl
@[simp] theorem setPhase_bar4Data : (s.setPhase t k).bar4Data = s.bar4Data := rfl
@[simp] theorem setPhase_bar4Poison : (s.setPhase t k).bar4Poison = s.bar4Poison := rfl
@[simp] theorem setPhase_limits : (s.setPhase t k).limits = s.limits := rfl
@[simp] theorem setPhase_began : (s.setPhase t k).began = s.began := rfl
@[simp] theorem setPhase_queues : (s.setPhase t k).queues = s.queues := rfl
@[simp] theorem setPhase_served : (s.setPhase t k).served = s.served := rfl
@[simp] theorem setPhase_rings : (s.setPhase t k).rings = s.rings := rfl
@[simp] theorem setPhase_programs : (s.setPhase t k).programs = s.programs := rfl
@[simp] theorem setPhase_resetting : (s.setPhase t k).resetting = s.resetting := rfl
@[simp] theorem setPhase_launches : (s.setPhase t k).launches = s.launches := rfl
@[simp] theorem setPhase_transfers : (s.setPhase t k).transfers = s.transfers := rfl
@[simp] theorem setPhase_nextId : (s.setPhase t k).nextId = s.nextId := rfl
@[simp] theorem setPhase_colls : (s.setPhase t k).colls = s.colls := rfl
@[simp] theorem setPhase_arenas : (s.setPhase t k).arenas = s.arenas := rfl
@[simp] theorem setPhase_plain : (s.setPhase t k).plain = s.plain := rfl
@[simp] theorem setPhase_stored : (s.setPhase t k).stored = s.stored := rfl
@[simp] theorem setPhase_ueTimes : (s.setPhase t k).ueTimes = s.ueTimes := rfl
@[simp] theorem setPhase_ceTimes : (s.setPhase t k).ceTimes = s.ceTimes := rfl
@[simp] theorem setPhase_slew : (s.setPhase t k).slew = s.slew := rfl
@[simp] theorem setPhase_ceOwed : (s.setPhase t k).ceOwed = s.ceOwed := rfl
@[simp] theorem setPhase_steps : (s.setPhase t k).steps = s.steps := rfl
@[simp] theorem setPhase_engines : (s.setPhase t k).engines = s.engines := rfl
@[simp] theorem setPhase_croz : (s.setPhase t k).croz = s.croz := rfl
@[simp] theorem setPhase_crozValid : (s.setPhase t k).crozValid = s.crozValid := rfl
@[simp] theorem setPhase_memErrs : (s.setPhase t k).memErrs = s.memErrs := rfl
@[simp] theorem setPhase_ckptDue : (s.setPhase t k).ckptDue = s.ckptDue := rfl
@[simp] theorem setPhase_ckptImages : (s.setPhase t k).ckptImages = s.ckptImages := rfl
@[simp] theorem setPhase_quiesce : (s.setPhase t k).quiesce = s.quiesce := rfl
@[simp] theorem setPhase_objs : (s.setPhase t k).objs = s.objs := rfl
@[simp] theorem setPhase_nrings : (s.setPhase t k).nrings = s.nrings := rfl
@[simp] theorem setPhase_synOps : (s.setPhase t k).synOps = s.synOps := rfl
@[simp] theorem setPhase_cmps : (s.setPhase t k).cmps = s.cmps := rfl
@[simp] theorem setPhase_copied : (s.setPhase t k).copied = s.copied := rfl
@[simp] theorem setPhase_copying : (s.setPhase t k).copying = s.copying := rfl
@[simp] theorem setPhase_pair : (s.setPhase t k).pair = s.pair := rfl
@[simp] theorem setPhase_rebalances : (s.setPhase t k).rebalances = s.rebalances := rfl
@[simp] theorem setPhase_xch : (s.setPhase t k).xch = s.xch := rfl
@[simp] theorem setPhase_paths : (s.setPhase t k).paths = s.paths := rfl
@[simp] theorem setPhase_gates : (s.setPhase t k).gates = s.gates := rfl
@[simp] theorem setPhase_loadSeq : (s.setPhase t k).loadSeq = s.loadSeq := rfl
@[simp] theorem setPhase_keys : (s.setPhase t k).keys = s.keys := rfl
@[simp] theorem setPhase_failTimes : (s.setPhase t k).failTimes = s.failTimes := rfl
@[simp] theorem setPhase_ports : (s.setPhase t k).ports = s.ports := rfl
@[simp] theorem setPhase_inbox : (s.setPhase t k).inbox = s.inbox := rfl
@[simp] theorem setPhase_posted : (s.setPhase t k).posted = s.posted := rfl
@[simp] theorem setPhase_slices : (s.setPhase t k).slices = s.slices := rfl
@[simp] theorem setPhase_calPasses : (s.setPhase t k).calPasses = s.calPasses := rfl
@[simp] theorem setPhase_moved : (s.setPhase t k).moved = s.moved := rfl
@[simp] theorem setPhase_linkRuns : (s.setPhase t k).linkRuns = s.linkRuns := rfl
@[simp] theorem setPhase_power : (s.setPhase t k).power = s.power := rfl
@[simp] theorem setPhase_request : (s.setPhase t k).request = s.request := rfl
@[simp] theorem setPhase_response : (s.setPhase t k).response = s.response := rfl
@[simp] theorem setPhase_serving : (s.setPhase t k).serving = s.serving := rfl
@[simp] theorem setPhase_answered : (s.setPhase t k).answered = s.answered := rfl
@[simp] theorem setPhase_firmware : (s.setPhase t k).firmware = s.firmware := rfl
@[simp] theorem setPhase_secure : (s.setPhase t k).secure = s.secure := rfl
@[simp] theorem setPhase_tap : (s.setPhase t k).tap = s.tap := rfl
@[simp] theorem setPhase_slots : (s.setPhase t k).slots = s.slots := rfl
@[simp] theorem setPhase_boot : (s.setPhase t k).boot = s.boot := rfl
@[simp] theorem setPhase_flash : (s.setPhase t k).flash = s.flash := rfl
end

section
variable (s : State) (q : Nat) (v : Queue)
@[simp] theorem setQueue_pending : (s.setQueue q v).pending = s.pending := rfl
@[simp] theorem setQueue_now : (s.setQueue q v).now = s.now := rfl
@[simp] theorem setQueue_draws : (s.setQueue q v).draws = s.draws := rfl
@[simp] theorem setQueue_regs : (s.setQueue q v).regs = s.regs := rfl
@[simp] theorem setQueue_staging : (s.setQueue q v).staging = s.staging := rfl
@[simp] theorem setQueue_frozen : (s.setQueue q v).frozen = s.frozen := rfl
@[simp] theorem setQueue_adopted : (s.setQueue q v).adopted = s.adopted := rfl
@[simp] theorem setQueue_mem : (s.setQueue q v).mem = s.mem := rfl
@[simp] theorem setQueue_host : (s.setQueue q v).host = s.host := rfl
@[simp] theorem setQueue_store : (s.setQueue q v).store = s.store := rfl
@[simp] theorem setQueue_poison : (s.setQueue q v).poison = s.poison := rfl
@[simp] theorem setQueue_cache : (s.setQueue q v).cache = s.cache := rfl
@[simp] theorem setQueue_wrong : (s.setQueue q v).wrong = s.wrong := rfl
@[simp] theorem setQueue_cacheHits : (s.setQueue q v).cacheHits = s.cacheHits := rfl
@[simp] theorem setQueue_cacheMisses : (s.setQueue q v).cacheMisses = s.cacheMisses := rfl
@[simp] theorem setQueue_unmasked : (s.setQueue q v).unmasked = s.unmasked := rfl
@[simp] theorem setQueue_vfs : (s.setQueue q v).vfs = s.vfs := rfl
@[simp] theorem setQueue_sent : (s.setQueue q v).sent = s.sent := rfl
@[simp] theorem setQueue_bar4Data : (s.setQueue q v).bar4Data = s.bar4Data := rfl
@[simp] theorem setQueue_bar4Poison : (s.setQueue q v).bar4Poison = s.bar4Poison := rfl
@[simp] theorem setQueue_limits : (s.setQueue q v).limits = s.limits := rfl
@[simp] theorem setQueue_began : (s.setQueue q v).began = s.began := rfl
@[simp] theorem setQueue_served : (s.setQueue q v).served = s.served := rfl
@[simp] theorem setQueue_rings : (s.setQueue q v).rings = s.rings := rfl
@[simp] theorem setQueue_programs : (s.setQueue q v).programs = s.programs := rfl
@[simp] theorem setQueue_resetting : (s.setQueue q v).resetting = s.resetting := rfl
@[simp] theorem setQueue_launches : (s.setQueue q v).launches = s.launches := rfl
@[simp] theorem setQueue_tiles : (s.setQueue q v).tiles = s.tiles := rfl
@[simp] theorem setQueue_transfers : (s.setQueue q v).transfers = s.transfers := rfl
@[simp] theorem setQueue_nextId : (s.setQueue q v).nextId = s.nextId := rfl
@[simp] theorem setQueue_colls : (s.setQueue q v).colls = s.colls := rfl
@[simp] theorem setQueue_arenas : (s.setQueue q v).arenas = s.arenas := rfl
@[simp] theorem setQueue_plain : (s.setQueue q v).plain = s.plain := rfl
@[simp] theorem setQueue_stored : (s.setQueue q v).stored = s.stored := rfl
@[simp] theorem setQueue_ueTimes : (s.setQueue q v).ueTimes = s.ueTimes := rfl
@[simp] theorem setQueue_ceTimes : (s.setQueue q v).ceTimes = s.ceTimes := rfl
@[simp] theorem setQueue_slew : (s.setQueue q v).slew = s.slew := rfl
@[simp] theorem setQueue_ceOwed : (s.setQueue q v).ceOwed = s.ceOwed := rfl
@[simp] theorem setQueue_steps : (s.setQueue q v).steps = s.steps := rfl
@[simp] theorem setQueue_engines : (s.setQueue q v).engines = s.engines := rfl
@[simp] theorem setQueue_croz : (s.setQueue q v).croz = s.croz := rfl
@[simp] theorem setQueue_crozValid : (s.setQueue q v).crozValid = s.crozValid := rfl
@[simp] theorem setQueue_memErrs : (s.setQueue q v).memErrs = s.memErrs := rfl
@[simp] theorem setQueue_ckptDue : (s.setQueue q v).ckptDue = s.ckptDue := rfl
@[simp] theorem setQueue_ckptImages : (s.setQueue q v).ckptImages = s.ckptImages := rfl
@[simp] theorem setQueue_quiesce : (s.setQueue q v).quiesce = s.quiesce := rfl
@[simp] theorem setQueue_objs : (s.setQueue q v).objs = s.objs := rfl
@[simp] theorem setQueue_nrings : (s.setQueue q v).nrings = s.nrings := rfl
@[simp] theorem setQueue_synOps : (s.setQueue q v).synOps = s.synOps := rfl
@[simp] theorem setQueue_cmps : (s.setQueue q v).cmps = s.cmps := rfl
@[simp] theorem setQueue_copied : (s.setQueue q v).copied = s.copied := rfl
@[simp] theorem setQueue_copying : (s.setQueue q v).copying = s.copying := rfl
@[simp] theorem setQueue_pair : (s.setQueue q v).pair = s.pair := rfl
@[simp] theorem setQueue_rebalances : (s.setQueue q v).rebalances = s.rebalances := rfl
@[simp] theorem setQueue_xch : (s.setQueue q v).xch = s.xch := rfl
@[simp] theorem setQueue_paths : (s.setQueue q v).paths = s.paths := rfl
@[simp] theorem setQueue_gates : (s.setQueue q v).gates = s.gates := rfl
@[simp] theorem setQueue_loadSeq : (s.setQueue q v).loadSeq = s.loadSeq := rfl
@[simp] theorem setQueue_keys : (s.setQueue q v).keys = s.keys := rfl
@[simp] theorem setQueue_failTimes : (s.setQueue q v).failTimes = s.failTimes := rfl
@[simp] theorem setQueue_ports : (s.setQueue q v).ports = s.ports := rfl
@[simp] theorem setQueue_inbox : (s.setQueue q v).inbox = s.inbox := rfl
@[simp] theorem setQueue_posted : (s.setQueue q v).posted = s.posted := rfl
@[simp] theorem setQueue_slices : (s.setQueue q v).slices = s.slices := rfl
@[simp] theorem setQueue_calPasses : (s.setQueue q v).calPasses = s.calPasses := rfl
@[simp] theorem setQueue_moved : (s.setQueue q v).moved = s.moved := rfl
@[simp] theorem setQueue_linkRuns : (s.setQueue q v).linkRuns = s.linkRuns := rfl
@[simp] theorem setQueue_power : (s.setQueue q v).power = s.power := rfl
@[simp] theorem setQueue_request : (s.setQueue q v).request = s.request := rfl
@[simp] theorem setQueue_response : (s.setQueue q v).response = s.response := rfl
@[simp] theorem setQueue_serving : (s.setQueue q v).serving = s.serving := rfl
@[simp] theorem setQueue_answered : (s.setQueue q v).answered = s.answered := rfl
@[simp] theorem setQueue_firmware : (s.setQueue q v).firmware = s.firmware := rfl
@[simp] theorem setQueue_secure : (s.setQueue q v).secure = s.secure := rfl
@[simp] theorem setQueue_tap : (s.setQueue q v).tap = s.tap := rfl
@[simp] theorem setQueue_slots : (s.setQueue q v).slots = s.slots := rfl
@[simp] theorem setQueue_boot : (s.setQueue q v).boot = s.boot := rfl
@[simp] theorem setQueue_flash : (s.setQueue q v).flash = s.flash := rfl
end

section
variable (s : State) (q : Nat) (f : Queue → Queue)
@[simp] theorem modQueue_pending : (s.modQueue q f).pending = s.pending := rfl
@[simp] theorem modQueue_now : (s.modQueue q f).now = s.now := rfl
@[simp] theorem modQueue_draws : (s.modQueue q f).draws = s.draws := rfl
@[simp] theorem modQueue_regs : (s.modQueue q f).regs = s.regs := rfl
@[simp] theorem modQueue_staging : (s.modQueue q f).staging = s.staging := rfl
@[simp] theorem modQueue_frozen : (s.modQueue q f).frozen = s.frozen := rfl
@[simp] theorem modQueue_adopted : (s.modQueue q f).adopted = s.adopted := rfl
@[simp] theorem modQueue_mem : (s.modQueue q f).mem = s.mem := rfl
@[simp] theorem modQueue_host : (s.modQueue q f).host = s.host := rfl
@[simp] theorem modQueue_store : (s.modQueue q f).store = s.store := rfl
@[simp] theorem modQueue_poison : (s.modQueue q f).poison = s.poison := rfl
@[simp] theorem modQueue_cache : (s.modQueue q f).cache = s.cache := rfl
@[simp] theorem modQueue_wrong : (s.modQueue q f).wrong = s.wrong := rfl
@[simp] theorem modQueue_cacheHits : (s.modQueue q f).cacheHits = s.cacheHits := rfl
@[simp] theorem modQueue_cacheMisses : (s.modQueue q f).cacheMisses = s.cacheMisses := rfl
@[simp] theorem modQueue_unmasked : (s.modQueue q f).unmasked = s.unmasked := rfl
@[simp] theorem modQueue_vfs : (s.modQueue q f).vfs = s.vfs := rfl
@[simp] theorem modQueue_sent : (s.modQueue q f).sent = s.sent := rfl
@[simp] theorem modQueue_bar4Data : (s.modQueue q f).bar4Data = s.bar4Data := rfl
@[simp] theorem modQueue_bar4Poison : (s.modQueue q f).bar4Poison = s.bar4Poison := rfl
@[simp] theorem modQueue_limits : (s.modQueue q f).limits = s.limits := rfl
@[simp] theorem modQueue_began : (s.modQueue q f).began = s.began := rfl
@[simp] theorem modQueue_served : (s.modQueue q f).served = s.served := rfl
@[simp] theorem modQueue_rings : (s.modQueue q f).rings = s.rings := rfl
@[simp] theorem modQueue_programs : (s.modQueue q f).programs = s.programs := rfl
@[simp] theorem modQueue_resetting : (s.modQueue q f).resetting = s.resetting := rfl
@[simp] theorem modQueue_launches : (s.modQueue q f).launches = s.launches := rfl
@[simp] theorem modQueue_tiles : (s.modQueue q f).tiles = s.tiles := rfl
@[simp] theorem modQueue_transfers : (s.modQueue q f).transfers = s.transfers := rfl
@[simp] theorem modQueue_nextId : (s.modQueue q f).nextId = s.nextId := rfl
@[simp] theorem modQueue_colls : (s.modQueue q f).colls = s.colls := rfl
@[simp] theorem modQueue_arenas : (s.modQueue q f).arenas = s.arenas := rfl
@[simp] theorem modQueue_plain : (s.modQueue q f).plain = s.plain := rfl
@[simp] theorem modQueue_stored : (s.modQueue q f).stored = s.stored := rfl
@[simp] theorem modQueue_ueTimes : (s.modQueue q f).ueTimes = s.ueTimes := rfl
@[simp] theorem modQueue_ceTimes : (s.modQueue q f).ceTimes = s.ceTimes := rfl
@[simp] theorem modQueue_slew : (s.modQueue q f).slew = s.slew := rfl
@[simp] theorem modQueue_ceOwed : (s.modQueue q f).ceOwed = s.ceOwed := rfl
@[simp] theorem modQueue_steps : (s.modQueue q f).steps = s.steps := rfl
@[simp] theorem modQueue_engines : (s.modQueue q f).engines = s.engines := rfl
@[simp] theorem modQueue_croz : (s.modQueue q f).croz = s.croz := rfl
@[simp] theorem modQueue_crozValid : (s.modQueue q f).crozValid = s.crozValid := rfl
@[simp] theorem modQueue_memErrs : (s.modQueue q f).memErrs = s.memErrs := rfl
@[simp] theorem modQueue_ckptDue : (s.modQueue q f).ckptDue = s.ckptDue := rfl
@[simp] theorem modQueue_ckptImages : (s.modQueue q f).ckptImages = s.ckptImages := rfl
@[simp] theorem modQueue_quiesce : (s.modQueue q f).quiesce = s.quiesce := rfl
@[simp] theorem modQueue_objs : (s.modQueue q f).objs = s.objs := rfl
@[simp] theorem modQueue_nrings : (s.modQueue q f).nrings = s.nrings := rfl
@[simp] theorem modQueue_synOps : (s.modQueue q f).synOps = s.synOps := rfl
@[simp] theorem modQueue_cmps : (s.modQueue q f).cmps = s.cmps := rfl
@[simp] theorem modQueue_copied : (s.modQueue q f).copied = s.copied := rfl
@[simp] theorem modQueue_copying : (s.modQueue q f).copying = s.copying := rfl
@[simp] theorem modQueue_pair : (s.modQueue q f).pair = s.pair := rfl
@[simp] theorem modQueue_rebalances : (s.modQueue q f).rebalances = s.rebalances := rfl
@[simp] theorem modQueue_xch : (s.modQueue q f).xch = s.xch := rfl
@[simp] theorem modQueue_paths : (s.modQueue q f).paths = s.paths := rfl
@[simp] theorem modQueue_gates : (s.modQueue q f).gates = s.gates := rfl
@[simp] theorem modQueue_loadSeq : (s.modQueue q f).loadSeq = s.loadSeq := rfl
@[simp] theorem modQueue_keys : (s.modQueue q f).keys = s.keys := rfl
@[simp] theorem modQueue_failTimes : (s.modQueue q f).failTimes = s.failTimes := rfl
@[simp] theorem modQueue_ports : (s.modQueue q f).ports = s.ports := rfl
@[simp] theorem modQueue_inbox : (s.modQueue q f).inbox = s.inbox := rfl
@[simp] theorem modQueue_posted : (s.modQueue q f).posted = s.posted := rfl
@[simp] theorem modQueue_slices : (s.modQueue q f).slices = s.slices := rfl
@[simp] theorem modQueue_calPasses : (s.modQueue q f).calPasses = s.calPasses := rfl
@[simp] theorem modQueue_moved : (s.modQueue q f).moved = s.moved := rfl
@[simp] theorem modQueue_linkRuns : (s.modQueue q f).linkRuns = s.linkRuns := rfl
@[simp] theorem modQueue_power : (s.modQueue q f).power = s.power := rfl
@[simp] theorem modQueue_request : (s.modQueue q f).request = s.request := rfl
@[simp] theorem modQueue_response : (s.modQueue q f).response = s.response := rfl
@[simp] theorem modQueue_serving : (s.modQueue q f).serving = s.serving := rfl
@[simp] theorem modQueue_answered : (s.modQueue q f).answered = s.answered := rfl
@[simp] theorem modQueue_firmware : (s.modQueue q f).firmware = s.firmware := rfl
@[simp] theorem modQueue_secure : (s.modQueue q f).secure = s.secure := rfl
@[simp] theorem modQueue_tap : (s.modQueue q f).tap = s.tap := rfl
@[simp] theorem modQueue_slots : (s.modQueue q f).slots = s.slots := rfl
@[simp] theorem modQueue_boot : (s.modQueue q f).boot = s.boot := rfl
@[simp] theorem modQueue_flash : (s.modQueue q f).flash = s.flash := rfl
end

section
variable (s : State) (q c : Nat) (f : Cmd → Cmd)
@[simp] theorem modCmd_pending : (s.modCmd q c f).pending = s.pending := rfl
@[simp] theorem modCmd_now : (s.modCmd q c f).now = s.now := rfl
@[simp] theorem modCmd_draws : (s.modCmd q c f).draws = s.draws := rfl
@[simp] theorem modCmd_regs : (s.modCmd q c f).regs = s.regs := rfl
@[simp] theorem modCmd_staging : (s.modCmd q c f).staging = s.staging := rfl
@[simp] theorem modCmd_frozen : (s.modCmd q c f).frozen = s.frozen := rfl
@[simp] theorem modCmd_adopted : (s.modCmd q c f).adopted = s.adopted := rfl
@[simp] theorem modCmd_mem : (s.modCmd q c f).mem = s.mem := rfl
@[simp] theorem modCmd_host : (s.modCmd q c f).host = s.host := rfl
@[simp] theorem modCmd_store : (s.modCmd q c f).store = s.store := rfl
@[simp] theorem modCmd_poison : (s.modCmd q c f).poison = s.poison := rfl
@[simp] theorem modCmd_cache : (s.modCmd q c f).cache = s.cache := rfl
@[simp] theorem modCmd_wrong : (s.modCmd q c f).wrong = s.wrong := rfl
@[simp] theorem modCmd_cacheHits : (s.modCmd q c f).cacheHits = s.cacheHits := rfl
@[simp] theorem modCmd_cacheMisses : (s.modCmd q c f).cacheMisses = s.cacheMisses := rfl
@[simp] theorem modCmd_unmasked : (s.modCmd q c f).unmasked = s.unmasked := rfl
@[simp] theorem modCmd_vfs : (s.modCmd q c f).vfs = s.vfs := rfl
@[simp] theorem modCmd_sent : (s.modCmd q c f).sent = s.sent := rfl
@[simp] theorem modCmd_bar4Data : (s.modCmd q c f).bar4Data = s.bar4Data := rfl
@[simp] theorem modCmd_bar4Poison : (s.modCmd q c f).bar4Poison = s.bar4Poison := rfl
@[simp] theorem modCmd_limits : (s.modCmd q c f).limits = s.limits := rfl
@[simp] theorem modCmd_began : (s.modCmd q c f).began = s.began := rfl
@[simp] theorem modCmd_served : (s.modCmd q c f).served = s.served := rfl
@[simp] theorem modCmd_rings : (s.modCmd q c f).rings = s.rings := rfl
@[simp] theorem modCmd_programs : (s.modCmd q c f).programs = s.programs := rfl
@[simp] theorem modCmd_resetting : (s.modCmd q c f).resetting = s.resetting := rfl
@[simp] theorem modCmd_launches : (s.modCmd q c f).launches = s.launches := rfl
@[simp] theorem modCmd_tiles : (s.modCmd q c f).tiles = s.tiles := rfl
@[simp] theorem modCmd_transfers : (s.modCmd q c f).transfers = s.transfers := rfl
@[simp] theorem modCmd_nextId : (s.modCmd q c f).nextId = s.nextId := rfl
@[simp] theorem modCmd_colls : (s.modCmd q c f).colls = s.colls := rfl
@[simp] theorem modCmd_arenas : (s.modCmd q c f).arenas = s.arenas := rfl
@[simp] theorem modCmd_plain : (s.modCmd q c f).plain = s.plain := rfl
@[simp] theorem modCmd_stored : (s.modCmd q c f).stored = s.stored := rfl
@[simp] theorem modCmd_ueTimes : (s.modCmd q c f).ueTimes = s.ueTimes := rfl
@[simp] theorem modCmd_ceTimes : (s.modCmd q c f).ceTimes = s.ceTimes := rfl
@[simp] theorem modCmd_slew : (s.modCmd q c f).slew = s.slew := rfl
@[simp] theorem modCmd_ceOwed : (s.modCmd q c f).ceOwed = s.ceOwed := rfl
@[simp] theorem modCmd_steps : (s.modCmd q c f).steps = s.steps := rfl
@[simp] theorem modCmd_engines : (s.modCmd q c f).engines = s.engines := rfl
@[simp] theorem modCmd_croz : (s.modCmd q c f).croz = s.croz := rfl
@[simp] theorem modCmd_crozValid : (s.modCmd q c f).crozValid = s.crozValid := rfl
@[simp] theorem modCmd_memErrs : (s.modCmd q c f).memErrs = s.memErrs := rfl
@[simp] theorem modCmd_ckptDue : (s.modCmd q c f).ckptDue = s.ckptDue := rfl
@[simp] theorem modCmd_ckptImages : (s.modCmd q c f).ckptImages = s.ckptImages := rfl
@[simp] theorem modCmd_quiesce : (s.modCmd q c f).quiesce = s.quiesce := rfl
@[simp] theorem modCmd_objs : (s.modCmd q c f).objs = s.objs := rfl
@[simp] theorem modCmd_nrings : (s.modCmd q c f).nrings = s.nrings := rfl
@[simp] theorem modCmd_synOps : (s.modCmd q c f).synOps = s.synOps := rfl
@[simp] theorem modCmd_cmps : (s.modCmd q c f).cmps = s.cmps := rfl
@[simp] theorem modCmd_copied : (s.modCmd q c f).copied = s.copied := rfl
@[simp] theorem modCmd_copying : (s.modCmd q c f).copying = s.copying := rfl
@[simp] theorem modCmd_pair : (s.modCmd q c f).pair = s.pair := rfl
@[simp] theorem modCmd_rebalances : (s.modCmd q c f).rebalances = s.rebalances := rfl
@[simp] theorem modCmd_xch : (s.modCmd q c f).xch = s.xch := rfl
@[simp] theorem modCmd_paths : (s.modCmd q c f).paths = s.paths := rfl
@[simp] theorem modCmd_gates : (s.modCmd q c f).gates = s.gates := rfl
@[simp] theorem modCmd_loadSeq : (s.modCmd q c f).loadSeq = s.loadSeq := rfl
@[simp] theorem modCmd_keys : (s.modCmd q c f).keys = s.keys := rfl
@[simp] theorem modCmd_failTimes : (s.modCmd q c f).failTimes = s.failTimes := rfl
@[simp] theorem modCmd_ports : (s.modCmd q c f).ports = s.ports := rfl
@[simp] theorem modCmd_inbox : (s.modCmd q c f).inbox = s.inbox := rfl
@[simp] theorem modCmd_posted : (s.modCmd q c f).posted = s.posted := rfl
@[simp] theorem modCmd_slices : (s.modCmd q c f).slices = s.slices := rfl
@[simp] theorem modCmd_calPasses : (s.modCmd q c f).calPasses = s.calPasses := rfl
@[simp] theorem modCmd_moved : (s.modCmd q c f).moved = s.moved := rfl
@[simp] theorem modCmd_linkRuns : (s.modCmd q c f).linkRuns = s.linkRuns := rfl
@[simp] theorem modCmd_power : (s.modCmd q c f).power = s.power := rfl
@[simp] theorem modCmd_request : (s.modCmd q c f).request = s.request := rfl
@[simp] theorem modCmd_response : (s.modCmd q c f).response = s.response := rfl
@[simp] theorem modCmd_serving : (s.modCmd q c f).serving = s.serving := rfl
@[simp] theorem modCmd_answered : (s.modCmd q c f).answered = s.answered := rfl
@[simp] theorem modCmd_firmware : (s.modCmd q c f).firmware = s.firmware := rfl
@[simp] theorem modCmd_secure : (s.modCmd q c f).secure = s.secure := rfl
@[simp] theorem modCmd_tap : (s.modCmd q c f).tap = s.tap := rfl
@[simp] theorem modCmd_slots : (s.modCmd q c f).slots = s.slots := rfl
@[simp] theorem modCmd_boot : (s.modCmd q c f).boot = s.boot := rfl
@[simp] theorem modCmd_flash : (s.modCmd q c f).flash = s.flash := rfl
end

section
variable (s : State) (q c : Nat) (f : Launch → Launch)
@[simp] theorem modLaunch_pending : (s.modLaunch q c f).pending = s.pending := rfl
@[simp] theorem modLaunch_now : (s.modLaunch q c f).now = s.now := rfl
@[simp] theorem modLaunch_draws : (s.modLaunch q c f).draws = s.draws := rfl
@[simp] theorem modLaunch_regs : (s.modLaunch q c f).regs = s.regs := rfl
@[simp] theorem modLaunch_staging : (s.modLaunch q c f).staging = s.staging := rfl
@[simp] theorem modLaunch_frozen : (s.modLaunch q c f).frozen = s.frozen := rfl
@[simp] theorem modLaunch_adopted : (s.modLaunch q c f).adopted = s.adopted := rfl
@[simp] theorem modLaunch_mem : (s.modLaunch q c f).mem = s.mem := rfl
@[simp] theorem modLaunch_host : (s.modLaunch q c f).host = s.host := rfl
@[simp] theorem modLaunch_store : (s.modLaunch q c f).store = s.store := rfl
@[simp] theorem modLaunch_poison : (s.modLaunch q c f).poison = s.poison := rfl
@[simp] theorem modLaunch_cache : (s.modLaunch q c f).cache = s.cache := rfl
@[simp] theorem modLaunch_wrong : (s.modLaunch q c f).wrong = s.wrong := rfl
@[simp] theorem modLaunch_cacheHits : (s.modLaunch q c f).cacheHits = s.cacheHits := rfl
@[simp] theorem modLaunch_cacheMisses : (s.modLaunch q c f).cacheMisses = s.cacheMisses := rfl
@[simp] theorem modLaunch_unmasked : (s.modLaunch q c f).unmasked = s.unmasked := rfl
@[simp] theorem modLaunch_vfs : (s.modLaunch q c f).vfs = s.vfs := rfl
@[simp] theorem modLaunch_sent : (s.modLaunch q c f).sent = s.sent := rfl
@[simp] theorem modLaunch_bar4Data : (s.modLaunch q c f).bar4Data = s.bar4Data := rfl
@[simp] theorem modLaunch_bar4Poison : (s.modLaunch q c f).bar4Poison = s.bar4Poison := rfl
@[simp] theorem modLaunch_limits : (s.modLaunch q c f).limits = s.limits := rfl
@[simp] theorem modLaunch_began : (s.modLaunch q c f).began = s.began := rfl
@[simp] theorem modLaunch_queues : (s.modLaunch q c f).queues = s.queues := rfl
@[simp] theorem modLaunch_served : (s.modLaunch q c f).served = s.served := rfl
@[simp] theorem modLaunch_rings : (s.modLaunch q c f).rings = s.rings := rfl
@[simp] theorem modLaunch_programs : (s.modLaunch q c f).programs = s.programs := rfl
@[simp] theorem modLaunch_resetting : (s.modLaunch q c f).resetting = s.resetting := rfl
@[simp] theorem modLaunch_tiles : (s.modLaunch q c f).tiles = s.tiles := rfl
@[simp] theorem modLaunch_transfers : (s.modLaunch q c f).transfers = s.transfers := rfl
@[simp] theorem modLaunch_nextId : (s.modLaunch q c f).nextId = s.nextId := rfl
@[simp] theorem modLaunch_colls : (s.modLaunch q c f).colls = s.colls := rfl
@[simp] theorem modLaunch_arenas : (s.modLaunch q c f).arenas = s.arenas := rfl
@[simp] theorem modLaunch_plain : (s.modLaunch q c f).plain = s.plain := rfl
@[simp] theorem modLaunch_stored : (s.modLaunch q c f).stored = s.stored := rfl
@[simp] theorem modLaunch_ueTimes : (s.modLaunch q c f).ueTimes = s.ueTimes := rfl
@[simp] theorem modLaunch_ceTimes : (s.modLaunch q c f).ceTimes = s.ceTimes := rfl
@[simp] theorem modLaunch_slew : (s.modLaunch q c f).slew = s.slew := rfl
@[simp] theorem modLaunch_ceOwed : (s.modLaunch q c f).ceOwed = s.ceOwed := rfl
@[simp] theorem modLaunch_steps : (s.modLaunch q c f).steps = s.steps := rfl
@[simp] theorem modLaunch_engines : (s.modLaunch q c f).engines = s.engines := rfl
@[simp] theorem modLaunch_croz : (s.modLaunch q c f).croz = s.croz := rfl
@[simp] theorem modLaunch_crozValid : (s.modLaunch q c f).crozValid = s.crozValid := rfl
@[simp] theorem modLaunch_memErrs : (s.modLaunch q c f).memErrs = s.memErrs := rfl
@[simp] theorem modLaunch_ckptDue : (s.modLaunch q c f).ckptDue = s.ckptDue := rfl
@[simp] theorem modLaunch_ckptImages : (s.modLaunch q c f).ckptImages = s.ckptImages := rfl
@[simp] theorem modLaunch_quiesce : (s.modLaunch q c f).quiesce = s.quiesce := rfl
@[simp] theorem modLaunch_objs : (s.modLaunch q c f).objs = s.objs := rfl
@[simp] theorem modLaunch_nrings : (s.modLaunch q c f).nrings = s.nrings := rfl
@[simp] theorem modLaunch_synOps : (s.modLaunch q c f).synOps = s.synOps := rfl
@[simp] theorem modLaunch_cmps : (s.modLaunch q c f).cmps = s.cmps := rfl
@[simp] theorem modLaunch_copied : (s.modLaunch q c f).copied = s.copied := rfl
@[simp] theorem modLaunch_copying : (s.modLaunch q c f).copying = s.copying := rfl
@[simp] theorem modLaunch_pair : (s.modLaunch q c f).pair = s.pair := rfl
@[simp] theorem modLaunch_rebalances : (s.modLaunch q c f).rebalances = s.rebalances := rfl
@[simp] theorem modLaunch_xch : (s.modLaunch q c f).xch = s.xch := rfl
@[simp] theorem modLaunch_paths : (s.modLaunch q c f).paths = s.paths := rfl
@[simp] theorem modLaunch_gates : (s.modLaunch q c f).gates = s.gates := rfl
@[simp] theorem modLaunch_loadSeq : (s.modLaunch q c f).loadSeq = s.loadSeq := rfl
@[simp] theorem modLaunch_keys : (s.modLaunch q c f).keys = s.keys := rfl
@[simp] theorem modLaunch_failTimes : (s.modLaunch q c f).failTimes = s.failTimes := rfl
@[simp] theorem modLaunch_ports : (s.modLaunch q c f).ports = s.ports := rfl
@[simp] theorem modLaunch_inbox : (s.modLaunch q c f).inbox = s.inbox := rfl
@[simp] theorem modLaunch_posted : (s.modLaunch q c f).posted = s.posted := rfl
@[simp] theorem modLaunch_slices : (s.modLaunch q c f).slices = s.slices := rfl
@[simp] theorem modLaunch_calPasses : (s.modLaunch q c f).calPasses = s.calPasses := rfl
@[simp] theorem modLaunch_moved : (s.modLaunch q c f).moved = s.moved := rfl
@[simp] theorem modLaunch_linkRuns : (s.modLaunch q c f).linkRuns = s.linkRuns := rfl
@[simp] theorem modLaunch_power : (s.modLaunch q c f).power = s.power := rfl
@[simp] theorem modLaunch_request : (s.modLaunch q c f).request = s.request := rfl
@[simp] theorem modLaunch_response : (s.modLaunch q c f).response = s.response := rfl
@[simp] theorem modLaunch_serving : (s.modLaunch q c f).serving = s.serving := rfl
@[simp] theorem modLaunch_answered : (s.modLaunch q c f).answered = s.answered := rfl
@[simp] theorem modLaunch_firmware : (s.modLaunch q c f).firmware = s.firmware := rfl
@[simp] theorem modLaunch_secure : (s.modLaunch q c f).secure = s.secure := rfl
@[simp] theorem modLaunch_tap : (s.modLaunch q c f).tap = s.tap := rfl
@[simp] theorem modLaunch_slots : (s.modLaunch q c f).slots = s.slots := rfl
@[simp] theorem modLaunch_boot : (s.modLaunch q c f).boot = s.boot := rfl
@[simp] theorem modLaunch_flash : (s.modLaunch q c f).flash = s.flash := rfl
end

section
variable (s : State) (o : Out)
@[simp] theorem emit_pending : (s.emit o).pending = s.pending := rfl
@[simp] theorem emit_now : (s.emit o).now = s.now := rfl
@[simp] theorem emit_draws : (s.emit o).draws = s.draws := rfl
@[simp] theorem emit_regs : (s.emit o).regs = s.regs := rfl
@[simp] theorem emit_staging : (s.emit o).staging = s.staging := rfl
@[simp] theorem emit_frozen : (s.emit o).frozen = s.frozen := rfl
@[simp] theorem emit_adopted : (s.emit o).adopted = s.adopted := rfl
@[simp] theorem emit_mem : (s.emit o).mem = s.mem := rfl
@[simp] theorem emit_host : (s.emit o).host = s.host := rfl
@[simp] theorem emit_store : (s.emit o).store = s.store := rfl
@[simp] theorem emit_poison : (s.emit o).poison = s.poison := rfl
@[simp] theorem emit_cache : (s.emit o).cache = s.cache := rfl
@[simp] theorem emit_wrong : (s.emit o).wrong = s.wrong := rfl
@[simp] theorem emit_cacheHits : (s.emit o).cacheHits = s.cacheHits := rfl
@[simp] theorem emit_cacheMisses : (s.emit o).cacheMisses = s.cacheMisses := rfl
@[simp] theorem emit_unmasked : (s.emit o).unmasked = s.unmasked := rfl
@[simp] theorem emit_vfs : (s.emit o).vfs = s.vfs := rfl
@[simp] theorem emit_bar4Data : (s.emit o).bar4Data = s.bar4Data := rfl
@[simp] theorem emit_bar4Poison : (s.emit o).bar4Poison = s.bar4Poison := rfl
@[simp] theorem emit_limits : (s.emit o).limits = s.limits := rfl
@[simp] theorem emit_began : (s.emit o).began = s.began := rfl
@[simp] theorem emit_queues : (s.emit o).queues = s.queues := rfl
@[simp] theorem emit_served : (s.emit o).served = s.served := rfl
@[simp] theorem emit_rings : (s.emit o).rings = s.rings := rfl
@[simp] theorem emit_programs : (s.emit o).programs = s.programs := rfl
@[simp] theorem emit_resetting : (s.emit o).resetting = s.resetting := rfl
@[simp] theorem emit_launches : (s.emit o).launches = s.launches := rfl
@[simp] theorem emit_tiles : (s.emit o).tiles = s.tiles := rfl
@[simp] theorem emit_transfers : (s.emit o).transfers = s.transfers := rfl
@[simp] theorem emit_nextId : (s.emit o).nextId = s.nextId := rfl
@[simp] theorem emit_colls : (s.emit o).colls = s.colls := rfl
@[simp] theorem emit_arenas : (s.emit o).arenas = s.arenas := rfl
@[simp] theorem emit_plain : (s.emit o).plain = s.plain := rfl
@[simp] theorem emit_stored : (s.emit o).stored = s.stored := rfl
@[simp] theorem emit_ueTimes : (s.emit o).ueTimes = s.ueTimes := rfl
@[simp] theorem emit_ceTimes : (s.emit o).ceTimes = s.ceTimes := rfl
@[simp] theorem emit_slew : (s.emit o).slew = s.slew := rfl
@[simp] theorem emit_ceOwed : (s.emit o).ceOwed = s.ceOwed := rfl
@[simp] theorem emit_steps : (s.emit o).steps = s.steps := rfl
@[simp] theorem emit_engines : (s.emit o).engines = s.engines := rfl
@[simp] theorem emit_croz : (s.emit o).croz = s.croz := rfl
@[simp] theorem emit_crozValid : (s.emit o).crozValid = s.crozValid := rfl
@[simp] theorem emit_memErrs : (s.emit o).memErrs = s.memErrs := rfl
@[simp] theorem emit_ckptDue : (s.emit o).ckptDue = s.ckptDue := rfl
@[simp] theorem emit_ckptImages : (s.emit o).ckptImages = s.ckptImages := rfl
@[simp] theorem emit_quiesce : (s.emit o).quiesce = s.quiesce := rfl
@[simp] theorem emit_objs : (s.emit o).objs = s.objs := rfl
@[simp] theorem emit_nrings : (s.emit o).nrings = s.nrings := rfl
@[simp] theorem emit_synOps : (s.emit o).synOps = s.synOps := rfl
@[simp] theorem emit_cmps : (s.emit o).cmps = s.cmps := rfl
@[simp] theorem emit_copied : (s.emit o).copied = s.copied := rfl
@[simp] theorem emit_copying : (s.emit o).copying = s.copying := rfl
@[simp] theorem emit_pair : (s.emit o).pair = s.pair := rfl
@[simp] theorem emit_rebalances : (s.emit o).rebalances = s.rebalances := rfl
@[simp] theorem emit_xch : (s.emit o).xch = s.xch := rfl
@[simp] theorem emit_paths : (s.emit o).paths = s.paths := rfl
@[simp] theorem emit_gates : (s.emit o).gates = s.gates := rfl
@[simp] theorem emit_loadSeq : (s.emit o).loadSeq = s.loadSeq := rfl
@[simp] theorem emit_keys : (s.emit o).keys = s.keys := rfl
@[simp] theorem emit_failTimes : (s.emit o).failTimes = s.failTimes := rfl
@[simp] theorem emit_ports : (s.emit o).ports = s.ports := rfl
@[simp] theorem emit_inbox : (s.emit o).inbox = s.inbox := rfl
@[simp] theorem emit_posted : (s.emit o).posted = s.posted := rfl
@[simp] theorem emit_slices : (s.emit o).slices = s.slices := rfl
@[simp] theorem emit_calPasses : (s.emit o).calPasses = s.calPasses := rfl
@[simp] theorem emit_moved : (s.emit o).moved = s.moved := rfl
@[simp] theorem emit_linkRuns : (s.emit o).linkRuns = s.linkRuns := rfl
@[simp] theorem emit_power : (s.emit o).power = s.power := rfl
@[simp] theorem emit_request : (s.emit o).request = s.request := rfl
@[simp] theorem emit_response : (s.emit o).response = s.response := rfl
@[simp] theorem emit_serving : (s.emit o).serving = s.serving := rfl
@[simp] theorem emit_answered : (s.emit o).answered = s.answered := rfl
@[simp] theorem emit_firmware : (s.emit o).firmware = s.firmware := rfl
@[simp] theorem emit_secure : (s.emit o).secure = s.secure := rfl
@[simp] theorem emit_tap : (s.emit o).tap = s.tap := rfl
@[simp] theorem emit_slots : (s.emit o).slots = s.slots := rfl
@[simp] theorem emit_boot : (s.emit o).boot = s.boot := rfl
@[simp] theorem emit_flash : (s.emit o).flash = s.flash := rfl
end

section
variable (s : State) (fn : Nat) (r : Ring)
@[simp] theorem setRing_pending : (s.setRing fn r).pending = s.pending := rfl
@[simp] theorem setRing_now : (s.setRing fn r).now = s.now := rfl
@[simp] theorem setRing_draws : (s.setRing fn r).draws = s.draws := rfl
@[simp] theorem setRing_regs : (s.setRing fn r).regs = s.regs := rfl
@[simp] theorem setRing_staging : (s.setRing fn r).staging = s.staging := rfl
@[simp] theorem setRing_frozen : (s.setRing fn r).frozen = s.frozen := rfl
@[simp] theorem setRing_adopted : (s.setRing fn r).adopted = s.adopted := rfl
@[simp] theorem setRing_mem : (s.setRing fn r).mem = s.mem := rfl
@[simp] theorem setRing_host : (s.setRing fn r).host = s.host := rfl
@[simp] theorem setRing_store : (s.setRing fn r).store = s.store := rfl
@[simp] theorem setRing_poison : (s.setRing fn r).poison = s.poison := rfl
@[simp] theorem setRing_cache : (s.setRing fn r).cache = s.cache := rfl
@[simp] theorem setRing_wrong : (s.setRing fn r).wrong = s.wrong := rfl
@[simp] theorem setRing_cacheHits : (s.setRing fn r).cacheHits = s.cacheHits := rfl
@[simp] theorem setRing_cacheMisses : (s.setRing fn r).cacheMisses = s.cacheMisses := rfl
@[simp] theorem setRing_unmasked : (s.setRing fn r).unmasked = s.unmasked := rfl
@[simp] theorem setRing_vfs : (s.setRing fn r).vfs = s.vfs := rfl
@[simp] theorem setRing_sent : (s.setRing fn r).sent = s.sent := rfl
@[simp] theorem setRing_bar4Data : (s.setRing fn r).bar4Data = s.bar4Data := rfl
@[simp] theorem setRing_bar4Poison : (s.setRing fn r).bar4Poison = s.bar4Poison := rfl
@[simp] theorem setRing_limits : (s.setRing fn r).limits = s.limits := rfl
@[simp] theorem setRing_began : (s.setRing fn r).began = s.began := rfl
@[simp] theorem setRing_queues : (s.setRing fn r).queues = s.queues := rfl
@[simp] theorem setRing_served : (s.setRing fn r).served = s.served := rfl
@[simp] theorem setRing_programs : (s.setRing fn r).programs = s.programs := rfl
@[simp] theorem setRing_resetting : (s.setRing fn r).resetting = s.resetting := rfl
@[simp] theorem setRing_launches : (s.setRing fn r).launches = s.launches := rfl
@[simp] theorem setRing_tiles : (s.setRing fn r).tiles = s.tiles := rfl
@[simp] theorem setRing_transfers : (s.setRing fn r).transfers = s.transfers := rfl
@[simp] theorem setRing_nextId : (s.setRing fn r).nextId = s.nextId := rfl
@[simp] theorem setRing_colls : (s.setRing fn r).colls = s.colls := rfl
@[simp] theorem setRing_arenas : (s.setRing fn r).arenas = s.arenas := rfl
@[simp] theorem setRing_plain : (s.setRing fn r).plain = s.plain := rfl
@[simp] theorem setRing_stored : (s.setRing fn r).stored = s.stored := rfl
@[simp] theorem setRing_ueTimes : (s.setRing fn r).ueTimes = s.ueTimes := rfl
@[simp] theorem setRing_ceTimes : (s.setRing fn r).ceTimes = s.ceTimes := rfl
@[simp] theorem setRing_slew : (s.setRing fn r).slew = s.slew := rfl
@[simp] theorem setRing_ceOwed : (s.setRing fn r).ceOwed = s.ceOwed := rfl
@[simp] theorem setRing_steps : (s.setRing fn r).steps = s.steps := rfl
@[simp] theorem setRing_engines : (s.setRing fn r).engines = s.engines := rfl
@[simp] theorem setRing_croz : (s.setRing fn r).croz = s.croz := rfl
@[simp] theorem setRing_crozValid : (s.setRing fn r).crozValid = s.crozValid := rfl
@[simp] theorem setRing_memErrs : (s.setRing fn r).memErrs = s.memErrs := rfl
@[simp] theorem setRing_ckptDue : (s.setRing fn r).ckptDue = s.ckptDue := rfl
@[simp] theorem setRing_ckptImages : (s.setRing fn r).ckptImages = s.ckptImages := rfl
@[simp] theorem setRing_quiesce : (s.setRing fn r).quiesce = s.quiesce := rfl
@[simp] theorem setRing_objs : (s.setRing fn r).objs = s.objs := rfl
@[simp] theorem setRing_nrings : (s.setRing fn r).nrings = s.nrings := rfl
@[simp] theorem setRing_synOps : (s.setRing fn r).synOps = s.synOps := rfl
@[simp] theorem setRing_cmps : (s.setRing fn r).cmps = s.cmps := rfl
@[simp] theorem setRing_copied : (s.setRing fn r).copied = s.copied := rfl
@[simp] theorem setRing_copying : (s.setRing fn r).copying = s.copying := rfl
@[simp] theorem setRing_pair : (s.setRing fn r).pair = s.pair := rfl
@[simp] theorem setRing_rebalances : (s.setRing fn r).rebalances = s.rebalances := rfl
@[simp] theorem setRing_xch : (s.setRing fn r).xch = s.xch := rfl
@[simp] theorem setRing_paths : (s.setRing fn r).paths = s.paths := rfl
@[simp] theorem setRing_gates : (s.setRing fn r).gates = s.gates := rfl
@[simp] theorem setRing_loadSeq : (s.setRing fn r).loadSeq = s.loadSeq := rfl
@[simp] theorem setRing_keys : (s.setRing fn r).keys = s.keys := rfl
@[simp] theorem setRing_failTimes : (s.setRing fn r).failTimes = s.failTimes := rfl
@[simp] theorem setRing_ports : (s.setRing fn r).ports = s.ports := rfl
@[simp] theorem setRing_inbox : (s.setRing fn r).inbox = s.inbox := rfl
@[simp] theorem setRing_posted : (s.setRing fn r).posted = s.posted := rfl
@[simp] theorem setRing_slices : (s.setRing fn r).slices = s.slices := rfl
@[simp] theorem setRing_calPasses : (s.setRing fn r).calPasses = s.calPasses := rfl
@[simp] theorem setRing_moved : (s.setRing fn r).moved = s.moved := rfl
@[simp] theorem setRing_linkRuns : (s.setRing fn r).linkRuns = s.linkRuns := rfl
@[simp] theorem setRing_power : (s.setRing fn r).power = s.power := rfl
@[simp] theorem setRing_request : (s.setRing fn r).request = s.request := rfl
@[simp] theorem setRing_response : (s.setRing fn r).response = s.response := rfl
@[simp] theorem setRing_serving : (s.setRing fn r).serving = s.serving := rfl
@[simp] theorem setRing_answered : (s.setRing fn r).answered = s.answered := rfl
@[simp] theorem setRing_firmware : (s.setRing fn r).firmware = s.firmware := rfl
@[simp] theorem setRing_secure : (s.setRing fn r).secure = s.secure := rfl
@[simp] theorem setRing_tap : (s.setRing fn r).tap = s.tap := rfl
@[simp] theorem setRing_slots : (s.setRing fn r).slots = s.slots := rfl
@[simp] theorem setRing_boot : (s.setRing fn r).boot = s.boot := rfl
@[simp] theorem setRing_flash : (s.setRing fn r).flash = s.flash := rfl
end

section
variable (s : State) (kind i : Nat)
@[simp] theorem beginAt_pending : (s.beginAt kind i).pending = s.pending := rfl
@[simp] theorem beginAt_now : (s.beginAt kind i).now = s.now := rfl
@[simp] theorem beginAt_draws : (s.beginAt kind i).draws = s.draws := rfl
@[simp] theorem beginAt_regs : (s.beginAt kind i).regs = s.regs := rfl
@[simp] theorem beginAt_staging : (s.beginAt kind i).staging = s.staging := rfl
@[simp] theorem beginAt_frozen : (s.beginAt kind i).frozen = s.frozen := rfl
@[simp] theorem beginAt_adopted : (s.beginAt kind i).adopted = s.adopted := rfl
@[simp] theorem beginAt_mem : (s.beginAt kind i).mem = s.mem := rfl
@[simp] theorem beginAt_host : (s.beginAt kind i).host = s.host := rfl
@[simp] theorem beginAt_store : (s.beginAt kind i).store = s.store := rfl
@[simp] theorem beginAt_poison : (s.beginAt kind i).poison = s.poison := rfl
@[simp] theorem beginAt_cache : (s.beginAt kind i).cache = s.cache := rfl
@[simp] theorem beginAt_wrong : (s.beginAt kind i).wrong = s.wrong := rfl
@[simp] theorem beginAt_cacheHits : (s.beginAt kind i).cacheHits = s.cacheHits := rfl
@[simp] theorem beginAt_cacheMisses : (s.beginAt kind i).cacheMisses = s.cacheMisses := rfl
@[simp] theorem beginAt_unmasked : (s.beginAt kind i).unmasked = s.unmasked := rfl
@[simp] theorem beginAt_vfs : (s.beginAt kind i).vfs = s.vfs := rfl
@[simp] theorem beginAt_sent : (s.beginAt kind i).sent = s.sent := rfl
@[simp] theorem beginAt_bar4Data : (s.beginAt kind i).bar4Data = s.bar4Data := rfl
@[simp] theorem beginAt_bar4Poison : (s.beginAt kind i).bar4Poison = s.bar4Poison := rfl
@[simp] theorem beginAt_limits : (s.beginAt kind i).limits = s.limits := rfl
@[simp] theorem beginAt_queues : (s.beginAt kind i).queues = s.queues := rfl
@[simp] theorem beginAt_served : (s.beginAt kind i).served = s.served := rfl
@[simp] theorem beginAt_rings : (s.beginAt kind i).rings = s.rings := rfl
@[simp] theorem beginAt_programs : (s.beginAt kind i).programs = s.programs := rfl
@[simp] theorem beginAt_resetting : (s.beginAt kind i).resetting = s.resetting := rfl
@[simp] theorem beginAt_launches : (s.beginAt kind i).launches = s.launches := rfl
@[simp] theorem beginAt_tiles : (s.beginAt kind i).tiles = s.tiles := rfl
@[simp] theorem beginAt_transfers : (s.beginAt kind i).transfers = s.transfers := rfl
@[simp] theorem beginAt_nextId : (s.beginAt kind i).nextId = s.nextId := rfl
@[simp] theorem beginAt_colls : (s.beginAt kind i).colls = s.colls := rfl
@[simp] theorem beginAt_arenas : (s.beginAt kind i).arenas = s.arenas := rfl
@[simp] theorem beginAt_plain : (s.beginAt kind i).plain = s.plain := rfl
@[simp] theorem beginAt_stored : (s.beginAt kind i).stored = s.stored := rfl
@[simp] theorem beginAt_ueTimes : (s.beginAt kind i).ueTimes = s.ueTimes := rfl
@[simp] theorem beginAt_ceTimes : (s.beginAt kind i).ceTimes = s.ceTimes := rfl
@[simp] theorem beginAt_slew : (s.beginAt kind i).slew = s.slew := rfl
@[simp] theorem beginAt_ceOwed : (s.beginAt kind i).ceOwed = s.ceOwed := rfl
@[simp] theorem beginAt_steps : (s.beginAt kind i).steps = s.steps := rfl
@[simp] theorem beginAt_engines : (s.beginAt kind i).engines = s.engines := rfl
@[simp] theorem beginAt_croz : (s.beginAt kind i).croz = s.croz := rfl
@[simp] theorem beginAt_crozValid : (s.beginAt kind i).crozValid = s.crozValid := rfl
@[simp] theorem beginAt_memErrs : (s.beginAt kind i).memErrs = s.memErrs := rfl
@[simp] theorem beginAt_ckptDue : (s.beginAt kind i).ckptDue = s.ckptDue := rfl
@[simp] theorem beginAt_ckptImages : (s.beginAt kind i).ckptImages = s.ckptImages := rfl
@[simp] theorem beginAt_quiesce : (s.beginAt kind i).quiesce = s.quiesce := rfl
@[simp] theorem beginAt_objs : (s.beginAt kind i).objs = s.objs := rfl
@[simp] theorem beginAt_nrings : (s.beginAt kind i).nrings = s.nrings := rfl
@[simp] theorem beginAt_synOps : (s.beginAt kind i).synOps = s.synOps := rfl
@[simp] theorem beginAt_cmps : (s.beginAt kind i).cmps = s.cmps := rfl
@[simp] theorem beginAt_copied : (s.beginAt kind i).copied = s.copied := rfl
@[simp] theorem beginAt_copying : (s.beginAt kind i).copying = s.copying := rfl
@[simp] theorem beginAt_pair : (s.beginAt kind i).pair = s.pair := rfl
@[simp] theorem beginAt_rebalances : (s.beginAt kind i).rebalances = s.rebalances := rfl
@[simp] theorem beginAt_xch : (s.beginAt kind i).xch = s.xch := rfl
@[simp] theorem beginAt_paths : (s.beginAt kind i).paths = s.paths := rfl
@[simp] theorem beginAt_gates : (s.beginAt kind i).gates = s.gates := rfl
@[simp] theorem beginAt_loadSeq : (s.beginAt kind i).loadSeq = s.loadSeq := rfl
@[simp] theorem beginAt_keys : (s.beginAt kind i).keys = s.keys := rfl
@[simp] theorem beginAt_failTimes : (s.beginAt kind i).failTimes = s.failTimes := rfl
@[simp] theorem beginAt_ports : (s.beginAt kind i).ports = s.ports := rfl
@[simp] theorem beginAt_inbox : (s.beginAt kind i).inbox = s.inbox := rfl
@[simp] theorem beginAt_posted : (s.beginAt kind i).posted = s.posted := rfl
@[simp] theorem beginAt_slices : (s.beginAt kind i).slices = s.slices := rfl
@[simp] theorem beginAt_calPasses : (s.beginAt kind i).calPasses = s.calPasses := rfl
@[simp] theorem beginAt_moved : (s.beginAt kind i).moved = s.moved := rfl
@[simp] theorem beginAt_linkRuns : (s.beginAt kind i).linkRuns = s.linkRuns := rfl
@[simp] theorem beginAt_power : (s.beginAt kind i).power = s.power := rfl
@[simp] theorem beginAt_request : (s.beginAt kind i).request = s.request := rfl
@[simp] theorem beginAt_response : (s.beginAt kind i).response = s.response := rfl
@[simp] theorem beginAt_serving : (s.beginAt kind i).serving = s.serving := rfl
@[simp] theorem beginAt_answered : (s.beginAt kind i).answered = s.answered := rfl
@[simp] theorem beginAt_firmware : (s.beginAt kind i).firmware = s.firmware := rfl
@[simp] theorem beginAt_secure : (s.beginAt kind i).secure = s.secure := rfl
@[simp] theorem beginAt_tap : (s.beginAt kind i).tap = s.tap := rfl
@[simp] theorem beginAt_slots : (s.beginAt kind i).slots = s.slots := rfl
@[simp] theorem beginAt_boot : (s.beginAt kind i).boot = s.boot := rfl
@[simp] theorem beginAt_flash : (s.beginAt kind i).flash = s.flash := rfl
end

section
variable (s : State) (kind i : Nat)
@[simp] theorem endOf_pending : (s.endOf kind i).pending = s.pending := rfl
@[simp] theorem endOf_now : (s.endOf kind i).now = s.now := rfl
@[simp] theorem endOf_draws : (s.endOf kind i).draws = s.draws := rfl
@[simp] theorem endOf_regs : (s.endOf kind i).regs = s.regs := rfl
@[simp] theorem endOf_staging : (s.endOf kind i).staging = s.staging := rfl
@[simp] theorem endOf_frozen : (s.endOf kind i).frozen = s.frozen := rfl
@[simp] theorem endOf_adopted : (s.endOf kind i).adopted = s.adopted := rfl
@[simp] theorem endOf_mem : (s.endOf kind i).mem = s.mem := rfl
@[simp] theorem endOf_host : (s.endOf kind i).host = s.host := rfl
@[simp] theorem endOf_store : (s.endOf kind i).store = s.store := rfl
@[simp] theorem endOf_poison : (s.endOf kind i).poison = s.poison := rfl
@[simp] theorem endOf_cache : (s.endOf kind i).cache = s.cache := rfl
@[simp] theorem endOf_wrong : (s.endOf kind i).wrong = s.wrong := rfl
@[simp] theorem endOf_cacheHits : (s.endOf kind i).cacheHits = s.cacheHits := rfl
@[simp] theorem endOf_cacheMisses : (s.endOf kind i).cacheMisses = s.cacheMisses := rfl
@[simp] theorem endOf_unmasked : (s.endOf kind i).unmasked = s.unmasked := rfl
@[simp] theorem endOf_vfs : (s.endOf kind i).vfs = s.vfs := rfl
@[simp] theorem endOf_sent : (s.endOf kind i).sent = s.sent := rfl
@[simp] theorem endOf_bar4Data : (s.endOf kind i).bar4Data = s.bar4Data := rfl
@[simp] theorem endOf_bar4Poison : (s.endOf kind i).bar4Poison = s.bar4Poison := rfl
@[simp] theorem endOf_limits : (s.endOf kind i).limits = s.limits := rfl
@[simp] theorem endOf_queues : (s.endOf kind i).queues = s.queues := rfl
@[simp] theorem endOf_served : (s.endOf kind i).served = s.served := rfl
@[simp] theorem endOf_rings : (s.endOf kind i).rings = s.rings := rfl
@[simp] theorem endOf_programs : (s.endOf kind i).programs = s.programs := rfl
@[simp] theorem endOf_resetting : (s.endOf kind i).resetting = s.resetting := rfl
@[simp] theorem endOf_launches : (s.endOf kind i).launches = s.launches := rfl
@[simp] theorem endOf_tiles : (s.endOf kind i).tiles = s.tiles := rfl
@[simp] theorem endOf_transfers : (s.endOf kind i).transfers = s.transfers := rfl
@[simp] theorem endOf_nextId : (s.endOf kind i).nextId = s.nextId := rfl
@[simp] theorem endOf_colls : (s.endOf kind i).colls = s.colls := rfl
@[simp] theorem endOf_arenas : (s.endOf kind i).arenas = s.arenas := rfl
@[simp] theorem endOf_plain : (s.endOf kind i).plain = s.plain := rfl
@[simp] theorem endOf_stored : (s.endOf kind i).stored = s.stored := rfl
@[simp] theorem endOf_ueTimes : (s.endOf kind i).ueTimes = s.ueTimes := rfl
@[simp] theorem endOf_ceTimes : (s.endOf kind i).ceTimes = s.ceTimes := rfl
@[simp] theorem endOf_slew : (s.endOf kind i).slew = s.slew := rfl
@[simp] theorem endOf_ceOwed : (s.endOf kind i).ceOwed = s.ceOwed := rfl
@[simp] theorem endOf_steps : (s.endOf kind i).steps = s.steps := rfl
@[simp] theorem endOf_engines : (s.endOf kind i).engines = s.engines := rfl
@[simp] theorem endOf_croz : (s.endOf kind i).croz = s.croz := rfl
@[simp] theorem endOf_crozValid : (s.endOf kind i).crozValid = s.crozValid := rfl
@[simp] theorem endOf_memErrs : (s.endOf kind i).memErrs = s.memErrs := rfl
@[simp] theorem endOf_ckptDue : (s.endOf kind i).ckptDue = s.ckptDue := rfl
@[simp] theorem endOf_ckptImages : (s.endOf kind i).ckptImages = s.ckptImages := rfl
@[simp] theorem endOf_quiesce : (s.endOf kind i).quiesce = s.quiesce := rfl
@[simp] theorem endOf_objs : (s.endOf kind i).objs = s.objs := rfl
@[simp] theorem endOf_nrings : (s.endOf kind i).nrings = s.nrings := rfl
@[simp] theorem endOf_synOps : (s.endOf kind i).synOps = s.synOps := rfl
@[simp] theorem endOf_cmps : (s.endOf kind i).cmps = s.cmps := rfl
@[simp] theorem endOf_copied : (s.endOf kind i).copied = s.copied := rfl
@[simp] theorem endOf_copying : (s.endOf kind i).copying = s.copying := rfl
@[simp] theorem endOf_pair : (s.endOf kind i).pair = s.pair := rfl
@[simp] theorem endOf_rebalances : (s.endOf kind i).rebalances = s.rebalances := rfl
@[simp] theorem endOf_xch : (s.endOf kind i).xch = s.xch := rfl
@[simp] theorem endOf_paths : (s.endOf kind i).paths = s.paths := rfl
@[simp] theorem endOf_gates : (s.endOf kind i).gates = s.gates := rfl
@[simp] theorem endOf_loadSeq : (s.endOf kind i).loadSeq = s.loadSeq := rfl
@[simp] theorem endOf_keys : (s.endOf kind i).keys = s.keys := rfl
@[simp] theorem endOf_failTimes : (s.endOf kind i).failTimes = s.failTimes := rfl
@[simp] theorem endOf_ports : (s.endOf kind i).ports = s.ports := rfl
@[simp] theorem endOf_inbox : (s.endOf kind i).inbox = s.inbox := rfl
@[simp] theorem endOf_posted : (s.endOf kind i).posted = s.posted := rfl
@[simp] theorem endOf_slices : (s.endOf kind i).slices = s.slices := rfl
@[simp] theorem endOf_calPasses : (s.endOf kind i).calPasses = s.calPasses := rfl
@[simp] theorem endOf_moved : (s.endOf kind i).moved = s.moved := rfl
@[simp] theorem endOf_linkRuns : (s.endOf kind i).linkRuns = s.linkRuns := rfl
@[simp] theorem endOf_power : (s.endOf kind i).power = s.power := rfl
@[simp] theorem endOf_request : (s.endOf kind i).request = s.request := rfl
@[simp] theorem endOf_response : (s.endOf kind i).response = s.response := rfl
@[simp] theorem endOf_serving : (s.endOf kind i).serving = s.serving := rfl
@[simp] theorem endOf_answered : (s.endOf kind i).answered = s.answered := rfl
@[simp] theorem endOf_firmware : (s.endOf kind i).firmware = s.firmware := rfl
@[simp] theorem endOf_secure : (s.endOf kind i).secure = s.secure := rfl
@[simp] theorem endOf_tap : (s.endOf kind i).tap = s.tap := rfl
@[simp] theorem endOf_slots : (s.endOf kind i).slots = s.slots := rfl
@[simp] theorem endOf_boot : (s.endOf kind i).boot = s.boot := rfl
@[simp] theorem endOf_flash : (s.endOf kind i).flash = s.flash := rfl
end

section
variable (s : State) (key : Nat)
@[simp] theorem noteLimit_pending : (s.noteLimit key).pending = s.pending := rfl
@[simp] theorem noteLimit_now : (s.noteLimit key).now = s.now := rfl
@[simp] theorem noteLimit_draws : (s.noteLimit key).draws = s.draws := rfl
@[simp] theorem noteLimit_regs : (s.noteLimit key).regs = s.regs := rfl
@[simp] theorem noteLimit_staging : (s.noteLimit key).staging = s.staging := rfl
@[simp] theorem noteLimit_frozen : (s.noteLimit key).frozen = s.frozen := rfl
@[simp] theorem noteLimit_adopted : (s.noteLimit key).adopted = s.adopted := rfl
@[simp] theorem noteLimit_mem : (s.noteLimit key).mem = s.mem := rfl
@[simp] theorem noteLimit_host : (s.noteLimit key).host = s.host := rfl
@[simp] theorem noteLimit_store : (s.noteLimit key).store = s.store := rfl
@[simp] theorem noteLimit_poison : (s.noteLimit key).poison = s.poison := rfl
@[simp] theorem noteLimit_cache : (s.noteLimit key).cache = s.cache := rfl
@[simp] theorem noteLimit_wrong : (s.noteLimit key).wrong = s.wrong := rfl
@[simp] theorem noteLimit_cacheHits : (s.noteLimit key).cacheHits = s.cacheHits := rfl
@[simp] theorem noteLimit_cacheMisses : (s.noteLimit key).cacheMisses = s.cacheMisses := rfl
@[simp] theorem noteLimit_unmasked : (s.noteLimit key).unmasked = s.unmasked := rfl
@[simp] theorem noteLimit_vfs : (s.noteLimit key).vfs = s.vfs := rfl
@[simp] theorem noteLimit_sent : (s.noteLimit key).sent = s.sent := rfl
@[simp] theorem noteLimit_bar4Data : (s.noteLimit key).bar4Data = s.bar4Data := rfl
@[simp] theorem noteLimit_bar4Poison : (s.noteLimit key).bar4Poison = s.bar4Poison := rfl
@[simp] theorem noteLimit_began : (s.noteLimit key).began = s.began := rfl
@[simp] theorem noteLimit_queues : (s.noteLimit key).queues = s.queues := rfl
@[simp] theorem noteLimit_served : (s.noteLimit key).served = s.served := rfl
@[simp] theorem noteLimit_rings : (s.noteLimit key).rings = s.rings := rfl
@[simp] theorem noteLimit_programs : (s.noteLimit key).programs = s.programs := rfl
@[simp] theorem noteLimit_resetting : (s.noteLimit key).resetting = s.resetting := rfl
@[simp] theorem noteLimit_launches : (s.noteLimit key).launches = s.launches := rfl
@[simp] theorem noteLimit_tiles : (s.noteLimit key).tiles = s.tiles := rfl
@[simp] theorem noteLimit_transfers : (s.noteLimit key).transfers = s.transfers := rfl
@[simp] theorem noteLimit_nextId : (s.noteLimit key).nextId = s.nextId := rfl
@[simp] theorem noteLimit_colls : (s.noteLimit key).colls = s.colls := rfl
@[simp] theorem noteLimit_arenas : (s.noteLimit key).arenas = s.arenas := rfl
@[simp] theorem noteLimit_plain : (s.noteLimit key).plain = s.plain := rfl
@[simp] theorem noteLimit_stored : (s.noteLimit key).stored = s.stored := rfl
@[simp] theorem noteLimit_ueTimes : (s.noteLimit key).ueTimes = s.ueTimes := rfl
@[simp] theorem noteLimit_ceTimes : (s.noteLimit key).ceTimes = s.ceTimes := rfl
@[simp] theorem noteLimit_slew : (s.noteLimit key).slew = s.slew := rfl
@[simp] theorem noteLimit_ceOwed : (s.noteLimit key).ceOwed = s.ceOwed := rfl
@[simp] theorem noteLimit_steps : (s.noteLimit key).steps = s.steps := rfl
@[simp] theorem noteLimit_engines : (s.noteLimit key).engines = s.engines := rfl
@[simp] theorem noteLimit_croz : (s.noteLimit key).croz = s.croz := rfl
@[simp] theorem noteLimit_crozValid : (s.noteLimit key).crozValid = s.crozValid := rfl
@[simp] theorem noteLimit_memErrs : (s.noteLimit key).memErrs = s.memErrs := rfl
@[simp] theorem noteLimit_ckptDue : (s.noteLimit key).ckptDue = s.ckptDue := rfl
@[simp] theorem noteLimit_ckptImages : (s.noteLimit key).ckptImages = s.ckptImages := rfl
@[simp] theorem noteLimit_quiesce : (s.noteLimit key).quiesce = s.quiesce := rfl
@[simp] theorem noteLimit_objs : (s.noteLimit key).objs = s.objs := rfl
@[simp] theorem noteLimit_nrings : (s.noteLimit key).nrings = s.nrings := rfl
@[simp] theorem noteLimit_synOps : (s.noteLimit key).synOps = s.synOps := rfl
@[simp] theorem noteLimit_cmps : (s.noteLimit key).cmps = s.cmps := rfl
@[simp] theorem noteLimit_copied : (s.noteLimit key).copied = s.copied := rfl
@[simp] theorem noteLimit_copying : (s.noteLimit key).copying = s.copying := rfl
@[simp] theorem noteLimit_pair : (s.noteLimit key).pair = s.pair := rfl
@[simp] theorem noteLimit_rebalances : (s.noteLimit key).rebalances = s.rebalances := rfl
@[simp] theorem noteLimit_xch : (s.noteLimit key).xch = s.xch := rfl
@[simp] theorem noteLimit_paths : (s.noteLimit key).paths = s.paths := rfl
@[simp] theorem noteLimit_gates : (s.noteLimit key).gates = s.gates := rfl
@[simp] theorem noteLimit_loadSeq : (s.noteLimit key).loadSeq = s.loadSeq := rfl
@[simp] theorem noteLimit_keys : (s.noteLimit key).keys = s.keys := rfl
@[simp] theorem noteLimit_failTimes : (s.noteLimit key).failTimes = s.failTimes := rfl
@[simp] theorem noteLimit_ports : (s.noteLimit key).ports = s.ports := rfl
@[simp] theorem noteLimit_inbox : (s.noteLimit key).inbox = s.inbox := rfl
@[simp] theorem noteLimit_posted : (s.noteLimit key).posted = s.posted := rfl
@[simp] theorem noteLimit_slices : (s.noteLimit key).slices = s.slices := rfl
@[simp] theorem noteLimit_calPasses : (s.noteLimit key).calPasses = s.calPasses := rfl
@[simp] theorem noteLimit_moved : (s.noteLimit key).moved = s.moved := rfl
@[simp] theorem noteLimit_linkRuns : (s.noteLimit key).linkRuns = s.linkRuns := rfl
@[simp] theorem noteLimit_power : (s.noteLimit key).power = s.power := rfl
@[simp] theorem noteLimit_request : (s.noteLimit key).request = s.request := rfl
@[simp] theorem noteLimit_response : (s.noteLimit key).response = s.response := rfl
@[simp] theorem noteLimit_serving : (s.noteLimit key).serving = s.serving := rfl
@[simp] theorem noteLimit_answered : (s.noteLimit key).answered = s.answered := rfl
@[simp] theorem noteLimit_firmware : (s.noteLimit key).firmware = s.firmware := rfl
@[simp] theorem noteLimit_secure : (s.noteLimit key).secure = s.secure := rfl
@[simp] theorem noteLimit_tap : (s.noteLimit key).tap = s.tap := rfl
@[simp] theorem noteLimit_slots : (s.noteLimit key).slots = s.slots := rfl
@[simp] theorem noteLimit_boot : (s.noteLimit key).boot = s.boot := rfl
@[simp] theorem noteLimit_flash : (s.noteLimit key).flash = s.flash := rfl
end

section
variable (s : State) (tile off : Nat) (bs : List Byte)
@[simp] theorem storeWrite_pending : (s.storeWrite tile off bs).pending = s.pending := rfl
@[simp] theorem storeWrite_now : (s.storeWrite tile off bs).now = s.now := rfl
@[simp] theorem storeWrite_draws : (s.storeWrite tile off bs).draws = s.draws := rfl
@[simp] theorem storeWrite_regs : (s.storeWrite tile off bs).regs = s.regs := rfl
@[simp] theorem storeWrite_staging : (s.storeWrite tile off bs).staging = s.staging := rfl
@[simp] theorem storeWrite_frozen : (s.storeWrite tile off bs).frozen = s.frozen := rfl
@[simp] theorem storeWrite_adopted : (s.storeWrite tile off bs).adopted = s.adopted := rfl
@[simp] theorem storeWrite_mem : (s.storeWrite tile off bs).mem = s.mem := rfl
@[simp] theorem storeWrite_host : (s.storeWrite tile off bs).host = s.host := rfl
@[simp] theorem storeWrite_poison : (s.storeWrite tile off bs).poison = s.poison := rfl
@[simp] theorem storeWrite_cache : (s.storeWrite tile off bs).cache = s.cache := rfl
@[simp] theorem storeWrite_wrong : (s.storeWrite tile off bs).wrong = s.wrong := rfl
@[simp] theorem storeWrite_cacheHits : (s.storeWrite tile off bs).cacheHits = s.cacheHits := rfl
@[simp] theorem storeWrite_cacheMisses : (s.storeWrite tile off bs).cacheMisses = s.cacheMisses := rfl
@[simp] theorem storeWrite_unmasked : (s.storeWrite tile off bs).unmasked = s.unmasked := rfl
@[simp] theorem storeWrite_vfs : (s.storeWrite tile off bs).vfs = s.vfs := rfl
@[simp] theorem storeWrite_sent : (s.storeWrite tile off bs).sent = s.sent := rfl
@[simp] theorem storeWrite_bar4Data : (s.storeWrite tile off bs).bar4Data = s.bar4Data := rfl
@[simp] theorem storeWrite_bar4Poison : (s.storeWrite tile off bs).bar4Poison = s.bar4Poison := rfl
@[simp] theorem storeWrite_limits : (s.storeWrite tile off bs).limits = s.limits := rfl
@[simp] theorem storeWrite_began : (s.storeWrite tile off bs).began = s.began := rfl
@[simp] theorem storeWrite_queues : (s.storeWrite tile off bs).queues = s.queues := rfl
@[simp] theorem storeWrite_served : (s.storeWrite tile off bs).served = s.served := rfl
@[simp] theorem storeWrite_rings : (s.storeWrite tile off bs).rings = s.rings := rfl
@[simp] theorem storeWrite_programs : (s.storeWrite tile off bs).programs = s.programs := rfl
@[simp] theorem storeWrite_resetting : (s.storeWrite tile off bs).resetting = s.resetting := rfl
@[simp] theorem storeWrite_launches : (s.storeWrite tile off bs).launches = s.launches := rfl
@[simp] theorem storeWrite_tiles : (s.storeWrite tile off bs).tiles = s.tiles := rfl
@[simp] theorem storeWrite_transfers : (s.storeWrite tile off bs).transfers = s.transfers := rfl
@[simp] theorem storeWrite_nextId : (s.storeWrite tile off bs).nextId = s.nextId := rfl
@[simp] theorem storeWrite_colls : (s.storeWrite tile off bs).colls = s.colls := rfl
@[simp] theorem storeWrite_arenas : (s.storeWrite tile off bs).arenas = s.arenas := rfl
@[simp] theorem storeWrite_plain : (s.storeWrite tile off bs).plain = s.plain := rfl
@[simp] theorem storeWrite_stored : (s.storeWrite tile off bs).stored = s.stored := rfl
@[simp] theorem storeWrite_ueTimes : (s.storeWrite tile off bs).ueTimes = s.ueTimes := rfl
@[simp] theorem storeWrite_ceTimes : (s.storeWrite tile off bs).ceTimes = s.ceTimes := rfl
@[simp] theorem storeWrite_slew : (s.storeWrite tile off bs).slew = s.slew := rfl
@[simp] theorem storeWrite_ceOwed : (s.storeWrite tile off bs).ceOwed = s.ceOwed := rfl
@[simp] theorem storeWrite_steps : (s.storeWrite tile off bs).steps = s.steps := rfl
@[simp] theorem storeWrite_engines : (s.storeWrite tile off bs).engines = s.engines := rfl
@[simp] theorem storeWrite_croz : (s.storeWrite tile off bs).croz = s.croz := rfl
@[simp] theorem storeWrite_crozValid : (s.storeWrite tile off bs).crozValid = s.crozValid := rfl
@[simp] theorem storeWrite_memErrs : (s.storeWrite tile off bs).memErrs = s.memErrs := rfl
@[simp] theorem storeWrite_ckptDue : (s.storeWrite tile off bs).ckptDue = s.ckptDue := rfl
@[simp] theorem storeWrite_ckptImages : (s.storeWrite tile off bs).ckptImages = s.ckptImages := rfl
@[simp] theorem storeWrite_quiesce : (s.storeWrite tile off bs).quiesce = s.quiesce := rfl
@[simp] theorem storeWrite_objs : (s.storeWrite tile off bs).objs = s.objs := rfl
@[simp] theorem storeWrite_nrings : (s.storeWrite tile off bs).nrings = s.nrings := rfl
@[simp] theorem storeWrite_synOps : (s.storeWrite tile off bs).synOps = s.synOps := rfl
@[simp] theorem storeWrite_cmps : (s.storeWrite tile off bs).cmps = s.cmps := rfl
@[simp] theorem storeWrite_copied : (s.storeWrite tile off bs).copied = s.copied := rfl
@[simp] theorem storeWrite_copying : (s.storeWrite tile off bs).copying = s.copying := rfl
@[simp] theorem storeWrite_pair : (s.storeWrite tile off bs).pair = s.pair := rfl
@[simp] theorem storeWrite_rebalances : (s.storeWrite tile off bs).rebalances = s.rebalances := rfl
@[simp] theorem storeWrite_xch : (s.storeWrite tile off bs).xch = s.xch := rfl
@[simp] theorem storeWrite_paths : (s.storeWrite tile off bs).paths = s.paths := rfl
@[simp] theorem storeWrite_gates : (s.storeWrite tile off bs).gates = s.gates := rfl
@[simp] theorem storeWrite_loadSeq : (s.storeWrite tile off bs).loadSeq = s.loadSeq := rfl
@[simp] theorem storeWrite_keys : (s.storeWrite tile off bs).keys = s.keys := rfl
@[simp] theorem storeWrite_failTimes : (s.storeWrite tile off bs).failTimes = s.failTimes := rfl
@[simp] theorem storeWrite_ports : (s.storeWrite tile off bs).ports = s.ports := rfl
@[simp] theorem storeWrite_inbox : (s.storeWrite tile off bs).inbox = s.inbox := rfl
@[simp] theorem storeWrite_posted : (s.storeWrite tile off bs).posted = s.posted := rfl
@[simp] theorem storeWrite_slices : (s.storeWrite tile off bs).slices = s.slices := rfl
@[simp] theorem storeWrite_calPasses : (s.storeWrite tile off bs).calPasses = s.calPasses := rfl
@[simp] theorem storeWrite_moved : (s.storeWrite tile off bs).moved = s.moved := rfl
@[simp] theorem storeWrite_linkRuns : (s.storeWrite tile off bs).linkRuns = s.linkRuns := rfl
@[simp] theorem storeWrite_power : (s.storeWrite tile off bs).power = s.power := rfl
@[simp] theorem storeWrite_request : (s.storeWrite tile off bs).request = s.request := rfl
@[simp] theorem storeWrite_response : (s.storeWrite tile off bs).response = s.response := rfl
@[simp] theorem storeWrite_serving : (s.storeWrite tile off bs).serving = s.serving := rfl
@[simp] theorem storeWrite_answered : (s.storeWrite tile off bs).answered = s.answered := rfl
@[simp] theorem storeWrite_firmware : (s.storeWrite tile off bs).firmware = s.firmware := rfl
@[simp] theorem storeWrite_secure : (s.storeWrite tile off bs).secure = s.secure := rfl
@[simp] theorem storeWrite_tap : (s.storeWrite tile off bs).tap = s.tap := rfl
@[simp] theorem storeWrite_slots : (s.storeWrite tile off bs).slots = s.slots := rfl
@[simp] theorem storeWrite_boot : (s.storeWrite tile off bs).boot = s.boot := rfl
@[simp] theorem storeWrite_flash : (s.storeWrite tile off bs).flash = s.flash := rfl
end

section
variable (s : State) (k : Nat) (o : SyncObj)
@[simp] theorem setObj_pending : (s.setObj k o).pending = s.pending := rfl
@[simp] theorem setObj_now : (s.setObj k o).now = s.now := rfl
@[simp] theorem setObj_draws : (s.setObj k o).draws = s.draws := rfl
@[simp] theorem setObj_regs : (s.setObj k o).regs = s.regs := rfl
@[simp] theorem setObj_staging : (s.setObj k o).staging = s.staging := rfl
@[simp] theorem setObj_frozen : (s.setObj k o).frozen = s.frozen := rfl
@[simp] theorem setObj_adopted : (s.setObj k o).adopted = s.adopted := rfl
@[simp] theorem setObj_mem : (s.setObj k o).mem = s.mem := rfl
@[simp] theorem setObj_host : (s.setObj k o).host = s.host := rfl
@[simp] theorem setObj_store : (s.setObj k o).store = s.store := rfl
@[simp] theorem setObj_poison : (s.setObj k o).poison = s.poison := rfl
@[simp] theorem setObj_cache : (s.setObj k o).cache = s.cache := rfl
@[simp] theorem setObj_wrong : (s.setObj k o).wrong = s.wrong := rfl
@[simp] theorem setObj_cacheHits : (s.setObj k o).cacheHits = s.cacheHits := rfl
@[simp] theorem setObj_cacheMisses : (s.setObj k o).cacheMisses = s.cacheMisses := rfl
@[simp] theorem setObj_unmasked : (s.setObj k o).unmasked = s.unmasked := rfl
@[simp] theorem setObj_vfs : (s.setObj k o).vfs = s.vfs := rfl
@[simp] theorem setObj_sent : (s.setObj k o).sent = s.sent := rfl
@[simp] theorem setObj_bar4Data : (s.setObj k o).bar4Data = s.bar4Data := rfl
@[simp] theorem setObj_bar4Poison : (s.setObj k o).bar4Poison = s.bar4Poison := rfl
@[simp] theorem setObj_limits : (s.setObj k o).limits = s.limits := rfl
@[simp] theorem setObj_began : (s.setObj k o).began = s.began := rfl
@[simp] theorem setObj_queues : (s.setObj k o).queues = s.queues := rfl
@[simp] theorem setObj_served : (s.setObj k o).served = s.served := rfl
@[simp] theorem setObj_rings : (s.setObj k o).rings = s.rings := rfl
@[simp] theorem setObj_programs : (s.setObj k o).programs = s.programs := rfl
@[simp] theorem setObj_resetting : (s.setObj k o).resetting = s.resetting := rfl
@[simp] theorem setObj_launches : (s.setObj k o).launches = s.launches := rfl
@[simp] theorem setObj_tiles : (s.setObj k o).tiles = s.tiles := rfl
@[simp] theorem setObj_transfers : (s.setObj k o).transfers = s.transfers := rfl
@[simp] theorem setObj_nextId : (s.setObj k o).nextId = s.nextId := rfl
@[simp] theorem setObj_colls : (s.setObj k o).colls = s.colls := rfl
@[simp] theorem setObj_arenas : (s.setObj k o).arenas = s.arenas := rfl
@[simp] theorem setObj_plain : (s.setObj k o).plain = s.plain := rfl
@[simp] theorem setObj_stored : (s.setObj k o).stored = s.stored := rfl
@[simp] theorem setObj_ueTimes : (s.setObj k o).ueTimes = s.ueTimes := rfl
@[simp] theorem setObj_ceTimes : (s.setObj k o).ceTimes = s.ceTimes := rfl
@[simp] theorem setObj_slew : (s.setObj k o).slew = s.slew := rfl
@[simp] theorem setObj_ceOwed : (s.setObj k o).ceOwed = s.ceOwed := rfl
@[simp] theorem setObj_steps : (s.setObj k o).steps = s.steps := rfl
@[simp] theorem setObj_engines : (s.setObj k o).engines = s.engines := rfl
@[simp] theorem setObj_croz : (s.setObj k o).croz = s.croz := rfl
@[simp] theorem setObj_crozValid : (s.setObj k o).crozValid = s.crozValid := rfl
@[simp] theorem setObj_memErrs : (s.setObj k o).memErrs = s.memErrs := rfl
@[simp] theorem setObj_ckptDue : (s.setObj k o).ckptDue = s.ckptDue := rfl
@[simp] theorem setObj_ckptImages : (s.setObj k o).ckptImages = s.ckptImages := rfl
@[simp] theorem setObj_quiesce : (s.setObj k o).quiesce = s.quiesce := rfl
@[simp] theorem setObj_nrings : (s.setObj k o).nrings = s.nrings := rfl
@[simp] theorem setObj_synOps : (s.setObj k o).synOps = s.synOps := rfl
@[simp] theorem setObj_cmps : (s.setObj k o).cmps = s.cmps := rfl
@[simp] theorem setObj_copied : (s.setObj k o).copied = s.copied := rfl
@[simp] theorem setObj_copying : (s.setObj k o).copying = s.copying := rfl
@[simp] theorem setObj_pair : (s.setObj k o).pair = s.pair := rfl
@[simp] theorem setObj_rebalances : (s.setObj k o).rebalances = s.rebalances := rfl
@[simp] theorem setObj_xch : (s.setObj k o).xch = s.xch := rfl
@[simp] theorem setObj_paths : (s.setObj k o).paths = s.paths := rfl
@[simp] theorem setObj_gates : (s.setObj k o).gates = s.gates := rfl
@[simp] theorem setObj_loadSeq : (s.setObj k o).loadSeq = s.loadSeq := rfl
@[simp] theorem setObj_keys : (s.setObj k o).keys = s.keys := rfl
@[simp] theorem setObj_failTimes : (s.setObj k o).failTimes = s.failTimes := rfl
@[simp] theorem setObj_ports : (s.setObj k o).ports = s.ports := rfl
@[simp] theorem setObj_inbox : (s.setObj k o).inbox = s.inbox := rfl
@[simp] theorem setObj_posted : (s.setObj k o).posted = s.posted := rfl
@[simp] theorem setObj_slices : (s.setObj k o).slices = s.slices := rfl
@[simp] theorem setObj_calPasses : (s.setObj k o).calPasses = s.calPasses := rfl
@[simp] theorem setObj_moved : (s.setObj k o).moved = s.moved := rfl
@[simp] theorem setObj_linkRuns : (s.setObj k o).linkRuns = s.linkRuns := rfl
@[simp] theorem setObj_power : (s.setObj k o).power = s.power := rfl
@[simp] theorem setObj_request : (s.setObj k o).request = s.request := rfl
@[simp] theorem setObj_response : (s.setObj k o).response = s.response := rfl
@[simp] theorem setObj_serving : (s.setObj k o).serving = s.serving := rfl
@[simp] theorem setObj_answered : (s.setObj k o).answered = s.answered := rfl
@[simp] theorem setObj_firmware : (s.setObj k o).firmware = s.firmware := rfl
@[simp] theorem setObj_secure : (s.setObj k o).secure = s.secure := rfl
@[simp] theorem setObj_tap : (s.setObj k o).tap = s.tap := rfl
@[simp] theorem setObj_slots : (s.setObj k o).slots = s.slots := rfl
@[simp] theorem setObj_boot : (s.setObj k o).boot = s.boot := rfl
@[simp] theorem setObj_flash : (s.setObj k o).flash = s.flash := rfl
end

section
variable (s : State) (ctx : Nat) (r : NRing)
@[simp] theorem setNring_pending : (s.setNring ctx r).pending = s.pending := rfl
@[simp] theorem setNring_now : (s.setNring ctx r).now = s.now := rfl
@[simp] theorem setNring_draws : (s.setNring ctx r).draws = s.draws := rfl
@[simp] theorem setNring_regs : (s.setNring ctx r).regs = s.regs := rfl
@[simp] theorem setNring_staging : (s.setNring ctx r).staging = s.staging := rfl
@[simp] theorem setNring_frozen : (s.setNring ctx r).frozen = s.frozen := rfl
@[simp] theorem setNring_adopted : (s.setNring ctx r).adopted = s.adopted := rfl
@[simp] theorem setNring_mem : (s.setNring ctx r).mem = s.mem := rfl
@[simp] theorem setNring_host : (s.setNring ctx r).host = s.host := rfl
@[simp] theorem setNring_store : (s.setNring ctx r).store = s.store := rfl
@[simp] theorem setNring_poison : (s.setNring ctx r).poison = s.poison := rfl
@[simp] theorem setNring_cache : (s.setNring ctx r).cache = s.cache := rfl
@[simp] theorem setNring_wrong : (s.setNring ctx r).wrong = s.wrong := rfl
@[simp] theorem setNring_cacheHits : (s.setNring ctx r).cacheHits = s.cacheHits := rfl
@[simp] theorem setNring_cacheMisses : (s.setNring ctx r).cacheMisses = s.cacheMisses := rfl
@[simp] theorem setNring_unmasked : (s.setNring ctx r).unmasked = s.unmasked := rfl
@[simp] theorem setNring_vfs : (s.setNring ctx r).vfs = s.vfs := rfl
@[simp] theorem setNring_sent : (s.setNring ctx r).sent = s.sent := rfl
@[simp] theorem setNring_bar4Data : (s.setNring ctx r).bar4Data = s.bar4Data := rfl
@[simp] theorem setNring_bar4Poison : (s.setNring ctx r).bar4Poison = s.bar4Poison := rfl
@[simp] theorem setNring_limits : (s.setNring ctx r).limits = s.limits := rfl
@[simp] theorem setNring_began : (s.setNring ctx r).began = s.began := rfl
@[simp] theorem setNring_queues : (s.setNring ctx r).queues = s.queues := rfl
@[simp] theorem setNring_served : (s.setNring ctx r).served = s.served := rfl
@[simp] theorem setNring_rings : (s.setNring ctx r).rings = s.rings := rfl
@[simp] theorem setNring_programs : (s.setNring ctx r).programs = s.programs := rfl
@[simp] theorem setNring_resetting : (s.setNring ctx r).resetting = s.resetting := rfl
@[simp] theorem setNring_launches : (s.setNring ctx r).launches = s.launches := rfl
@[simp] theorem setNring_tiles : (s.setNring ctx r).tiles = s.tiles := rfl
@[simp] theorem setNring_transfers : (s.setNring ctx r).transfers = s.transfers := rfl
@[simp] theorem setNring_nextId : (s.setNring ctx r).nextId = s.nextId := rfl
@[simp] theorem setNring_colls : (s.setNring ctx r).colls = s.colls := rfl
@[simp] theorem setNring_arenas : (s.setNring ctx r).arenas = s.arenas := rfl
@[simp] theorem setNring_plain : (s.setNring ctx r).plain = s.plain := rfl
@[simp] theorem setNring_stored : (s.setNring ctx r).stored = s.stored := rfl
@[simp] theorem setNring_ueTimes : (s.setNring ctx r).ueTimes = s.ueTimes := rfl
@[simp] theorem setNring_ceTimes : (s.setNring ctx r).ceTimes = s.ceTimes := rfl
@[simp] theorem setNring_slew : (s.setNring ctx r).slew = s.slew := rfl
@[simp] theorem setNring_ceOwed : (s.setNring ctx r).ceOwed = s.ceOwed := rfl
@[simp] theorem setNring_steps : (s.setNring ctx r).steps = s.steps := rfl
@[simp] theorem setNring_engines : (s.setNring ctx r).engines = s.engines := rfl
@[simp] theorem setNring_croz : (s.setNring ctx r).croz = s.croz := rfl
@[simp] theorem setNring_crozValid : (s.setNring ctx r).crozValid = s.crozValid := rfl
@[simp] theorem setNring_memErrs : (s.setNring ctx r).memErrs = s.memErrs := rfl
@[simp] theorem setNring_ckptDue : (s.setNring ctx r).ckptDue = s.ckptDue := rfl
@[simp] theorem setNring_ckptImages : (s.setNring ctx r).ckptImages = s.ckptImages := rfl
@[simp] theorem setNring_quiesce : (s.setNring ctx r).quiesce = s.quiesce := rfl
@[simp] theorem setNring_objs : (s.setNring ctx r).objs = s.objs := rfl
@[simp] theorem setNring_synOps : (s.setNring ctx r).synOps = s.synOps := rfl
@[simp] theorem setNring_cmps : (s.setNring ctx r).cmps = s.cmps := rfl
@[simp] theorem setNring_copied : (s.setNring ctx r).copied = s.copied := rfl
@[simp] theorem setNring_copying : (s.setNring ctx r).copying = s.copying := rfl
@[simp] theorem setNring_pair : (s.setNring ctx r).pair = s.pair := rfl
@[simp] theorem setNring_rebalances : (s.setNring ctx r).rebalances = s.rebalances := rfl
@[simp] theorem setNring_xch : (s.setNring ctx r).xch = s.xch := rfl
@[simp] theorem setNring_paths : (s.setNring ctx r).paths = s.paths := rfl
@[simp] theorem setNring_gates : (s.setNring ctx r).gates = s.gates := rfl
@[simp] theorem setNring_loadSeq : (s.setNring ctx r).loadSeq = s.loadSeq := rfl
@[simp] theorem setNring_keys : (s.setNring ctx r).keys = s.keys := rfl
@[simp] theorem setNring_failTimes : (s.setNring ctx r).failTimes = s.failTimes := rfl
@[simp] theorem setNring_ports : (s.setNring ctx r).ports = s.ports := rfl
@[simp] theorem setNring_inbox : (s.setNring ctx r).inbox = s.inbox := rfl
@[simp] theorem setNring_posted : (s.setNring ctx r).posted = s.posted := rfl
@[simp] theorem setNring_slices : (s.setNring ctx r).slices = s.slices := rfl
@[simp] theorem setNring_calPasses : (s.setNring ctx r).calPasses = s.calPasses := rfl
@[simp] theorem setNring_moved : (s.setNring ctx r).moved = s.moved := rfl
@[simp] theorem setNring_linkRuns : (s.setNring ctx r).linkRuns = s.linkRuns := rfl
@[simp] theorem setNring_power : (s.setNring ctx r).power = s.power := rfl
@[simp] theorem setNring_request : (s.setNring ctx r).request = s.request := rfl
@[simp] theorem setNring_response : (s.setNring ctx r).response = s.response := rfl
@[simp] theorem setNring_serving : (s.setNring ctx r).serving = s.serving := rfl
@[simp] theorem setNring_answered : (s.setNring ctx r).answered = s.answered := rfl
@[simp] theorem setNring_firmware : (s.setNring ctx r).firmware = s.firmware := rfl
@[simp] theorem setNring_secure : (s.setNring ctx r).secure = s.secure := rfl
@[simp] theorem setNring_tap : (s.setNring ctx r).tap = s.tap := rfl
@[simp] theorem setNring_slots : (s.setNring ctx r).slots = s.slots := rfl
@[simp] theorem setNring_boot : (s.setNring ctx r).boot = s.boot := rfl
@[simp] theorem setNring_flash : (s.setNring ctx r).flash = s.flash := rfl
end

section
variable (s : State) (k : Nat) (en : Engine)
@[simp] theorem setEngine_pending : (s.setEngine k en).pending = s.pending := rfl
@[simp] theorem setEngine_now : (s.setEngine k en).now = s.now := rfl
@[simp] theorem setEngine_draws : (s.setEngine k en).draws = s.draws := rfl
@[simp] theorem setEngine_regs : (s.setEngine k en).regs = s.regs := rfl
@[simp] theorem setEngine_staging : (s.setEngine k en).staging = s.staging := rfl
@[simp] theorem setEngine_frozen : (s.setEngine k en).frozen = s.frozen := rfl
@[simp] theorem setEngine_adopted : (s.setEngine k en).adopted = s.adopted := rfl
@[simp] theorem setEngine_mem : (s.setEngine k en).mem = s.mem := rfl
@[simp] theorem setEngine_host : (s.setEngine k en).host = s.host := rfl
@[simp] theorem setEngine_store : (s.setEngine k en).store = s.store := rfl
@[simp] theorem setEngine_poison : (s.setEngine k en).poison = s.poison := rfl
@[simp] theorem setEngine_cache : (s.setEngine k en).cache = s.cache := rfl
@[simp] theorem setEngine_wrong : (s.setEngine k en).wrong = s.wrong := rfl
@[simp] theorem setEngine_cacheHits : (s.setEngine k en).cacheHits = s.cacheHits := rfl
@[simp] theorem setEngine_cacheMisses : (s.setEngine k en).cacheMisses = s.cacheMisses := rfl
@[simp] theorem setEngine_unmasked : (s.setEngine k en).unmasked = s.unmasked := rfl
@[simp] theorem setEngine_vfs : (s.setEngine k en).vfs = s.vfs := rfl
@[simp] theorem setEngine_sent : (s.setEngine k en).sent = s.sent := rfl
@[simp] theorem setEngine_bar4Data : (s.setEngine k en).bar4Data = s.bar4Data := rfl
@[simp] theorem setEngine_bar4Poison : (s.setEngine k en).bar4Poison = s.bar4Poison := rfl
@[simp] theorem setEngine_limits : (s.setEngine k en).limits = s.limits := rfl
@[simp] theorem setEngine_began : (s.setEngine k en).began = s.began := rfl
@[simp] theorem setEngine_queues : (s.setEngine k en).queues = s.queues := rfl
@[simp] theorem setEngine_served : (s.setEngine k en).served = s.served := rfl
@[simp] theorem setEngine_rings : (s.setEngine k en).rings = s.rings := rfl
@[simp] theorem setEngine_programs : (s.setEngine k en).programs = s.programs := rfl
@[simp] theorem setEngine_resetting : (s.setEngine k en).resetting = s.resetting := rfl
@[simp] theorem setEngine_launches : (s.setEngine k en).launches = s.launches := rfl
@[simp] theorem setEngine_tiles : (s.setEngine k en).tiles = s.tiles := rfl
@[simp] theorem setEngine_transfers : (s.setEngine k en).transfers = s.transfers := rfl
@[simp] theorem setEngine_nextId : (s.setEngine k en).nextId = s.nextId := rfl
@[simp] theorem setEngine_colls : (s.setEngine k en).colls = s.colls := rfl
@[simp] theorem setEngine_arenas : (s.setEngine k en).arenas = s.arenas := rfl
@[simp] theorem setEngine_plain : (s.setEngine k en).plain = s.plain := rfl
@[simp] theorem setEngine_stored : (s.setEngine k en).stored = s.stored := rfl
@[simp] theorem setEngine_ueTimes : (s.setEngine k en).ueTimes = s.ueTimes := rfl
@[simp] theorem setEngine_ceTimes : (s.setEngine k en).ceTimes = s.ceTimes := rfl
@[simp] theorem setEngine_slew : (s.setEngine k en).slew = s.slew := rfl
@[simp] theorem setEngine_ceOwed : (s.setEngine k en).ceOwed = s.ceOwed := rfl
@[simp] theorem setEngine_steps : (s.setEngine k en).steps = s.steps := rfl
@[simp] theorem setEngine_croz : (s.setEngine k en).croz = s.croz := rfl
@[simp] theorem setEngine_crozValid : (s.setEngine k en).crozValid = s.crozValid := rfl
@[simp] theorem setEngine_memErrs : (s.setEngine k en).memErrs = s.memErrs := rfl
@[simp] theorem setEngine_ckptDue : (s.setEngine k en).ckptDue = s.ckptDue := rfl
@[simp] theorem setEngine_ckptImages : (s.setEngine k en).ckptImages = s.ckptImages := rfl
@[simp] theorem setEngine_quiesce : (s.setEngine k en).quiesce = s.quiesce := rfl
@[simp] theorem setEngine_objs : (s.setEngine k en).objs = s.objs := rfl
@[simp] theorem setEngine_nrings : (s.setEngine k en).nrings = s.nrings := rfl
@[simp] theorem setEngine_synOps : (s.setEngine k en).synOps = s.synOps := rfl
@[simp] theorem setEngine_cmps : (s.setEngine k en).cmps = s.cmps := rfl
@[simp] theorem setEngine_copied : (s.setEngine k en).copied = s.copied := rfl
@[simp] theorem setEngine_copying : (s.setEngine k en).copying = s.copying := rfl
@[simp] theorem setEngine_pair : (s.setEngine k en).pair = s.pair := rfl
@[simp] theorem setEngine_rebalances : (s.setEngine k en).rebalances = s.rebalances := rfl
@[simp] theorem setEngine_xch : (s.setEngine k en).xch = s.xch := rfl
@[simp] theorem setEngine_paths : (s.setEngine k en).paths = s.paths := rfl
@[simp] theorem setEngine_gates : (s.setEngine k en).gates = s.gates := rfl
@[simp] theorem setEngine_loadSeq : (s.setEngine k en).loadSeq = s.loadSeq := rfl
@[simp] theorem setEngine_keys : (s.setEngine k en).keys = s.keys := rfl
@[simp] theorem setEngine_failTimes : (s.setEngine k en).failTimes = s.failTimes := rfl
@[simp] theorem setEngine_ports : (s.setEngine k en).ports = s.ports := rfl
@[simp] theorem setEngine_inbox : (s.setEngine k en).inbox = s.inbox := rfl
@[simp] theorem setEngine_posted : (s.setEngine k en).posted = s.posted := rfl
@[simp] theorem setEngine_slices : (s.setEngine k en).slices = s.slices := rfl
@[simp] theorem setEngine_calPasses : (s.setEngine k en).calPasses = s.calPasses := rfl
@[simp] theorem setEngine_moved : (s.setEngine k en).moved = s.moved := rfl
@[simp] theorem setEngine_linkRuns : (s.setEngine k en).linkRuns = s.linkRuns := rfl
@[simp] theorem setEngine_power : (s.setEngine k en).power = s.power := rfl
@[simp] theorem setEngine_request : (s.setEngine k en).request = s.request := rfl
@[simp] theorem setEngine_response : (s.setEngine k en).response = s.response := rfl
@[simp] theorem setEngine_serving : (s.setEngine k en).serving = s.serving := rfl
@[simp] theorem setEngine_answered : (s.setEngine k en).answered = s.answered := rfl
@[simp] theorem setEngine_firmware : (s.setEngine k en).firmware = s.firmware := rfl
@[simp] theorem setEngine_secure : (s.setEngine k en).secure = s.secure := rfl
@[simp] theorem setEngine_tap : (s.setEngine k en).tap = s.tap := rfl
@[simp] theorem setEngine_slots : (s.setEngine k en).slots = s.slots := rfl
@[simp] theorem setEngine_boot : (s.setEngine k en).boot = s.boot := rfl
@[simp] theorem setEngine_flash : (s.setEngine k en).flash = s.flash := rfl
end

section
variable (s : State) (ctx : Nat) (x : Xch)
@[simp] theorem setXch_pending : (s.setXch ctx x).pending = s.pending := rfl
@[simp] theorem setXch_now : (s.setXch ctx x).now = s.now := rfl
@[simp] theorem setXch_draws : (s.setXch ctx x).draws = s.draws := rfl
@[simp] theorem setXch_regs : (s.setXch ctx x).regs = s.regs := rfl
@[simp] theorem setXch_staging : (s.setXch ctx x).staging = s.staging := rfl
@[simp] theorem setXch_frozen : (s.setXch ctx x).frozen = s.frozen := rfl
@[simp] theorem setXch_adopted : (s.setXch ctx x).adopted = s.adopted := rfl
@[simp] theorem setXch_mem : (s.setXch ctx x).mem = s.mem := rfl
@[simp] theorem setXch_host : (s.setXch ctx x).host = s.host := rfl
@[simp] theorem setXch_store : (s.setXch ctx x).store = s.store := rfl
@[simp] theorem setXch_poison : (s.setXch ctx x).poison = s.poison := rfl
@[simp] theorem setXch_cache : (s.setXch ctx x).cache = s.cache := rfl
@[simp] theorem setXch_wrong : (s.setXch ctx x).wrong = s.wrong := rfl
@[simp] theorem setXch_cacheHits : (s.setXch ctx x).cacheHits = s.cacheHits := rfl
@[simp] theorem setXch_cacheMisses : (s.setXch ctx x).cacheMisses = s.cacheMisses := rfl
@[simp] theorem setXch_unmasked : (s.setXch ctx x).unmasked = s.unmasked := rfl
@[simp] theorem setXch_vfs : (s.setXch ctx x).vfs = s.vfs := rfl
@[simp] theorem setXch_sent : (s.setXch ctx x).sent = s.sent := rfl
@[simp] theorem setXch_bar4Data : (s.setXch ctx x).bar4Data = s.bar4Data := rfl
@[simp] theorem setXch_bar4Poison : (s.setXch ctx x).bar4Poison = s.bar4Poison := rfl
@[simp] theorem setXch_limits : (s.setXch ctx x).limits = s.limits := rfl
@[simp] theorem setXch_began : (s.setXch ctx x).began = s.began := rfl
@[simp] theorem setXch_queues : (s.setXch ctx x).queues = s.queues := rfl
@[simp] theorem setXch_served : (s.setXch ctx x).served = s.served := rfl
@[simp] theorem setXch_rings : (s.setXch ctx x).rings = s.rings := rfl
@[simp] theorem setXch_programs : (s.setXch ctx x).programs = s.programs := rfl
@[simp] theorem setXch_resetting : (s.setXch ctx x).resetting = s.resetting := rfl
@[simp] theorem setXch_launches : (s.setXch ctx x).launches = s.launches := rfl
@[simp] theorem setXch_tiles : (s.setXch ctx x).tiles = s.tiles := rfl
@[simp] theorem setXch_transfers : (s.setXch ctx x).transfers = s.transfers := rfl
@[simp] theorem setXch_nextId : (s.setXch ctx x).nextId = s.nextId := rfl
@[simp] theorem setXch_colls : (s.setXch ctx x).colls = s.colls := rfl
@[simp] theorem setXch_arenas : (s.setXch ctx x).arenas = s.arenas := rfl
@[simp] theorem setXch_plain : (s.setXch ctx x).plain = s.plain := rfl
@[simp] theorem setXch_stored : (s.setXch ctx x).stored = s.stored := rfl
@[simp] theorem setXch_ueTimes : (s.setXch ctx x).ueTimes = s.ueTimes := rfl
@[simp] theorem setXch_ceTimes : (s.setXch ctx x).ceTimes = s.ceTimes := rfl
@[simp] theorem setXch_slew : (s.setXch ctx x).slew = s.slew := rfl
@[simp] theorem setXch_ceOwed : (s.setXch ctx x).ceOwed = s.ceOwed := rfl
@[simp] theorem setXch_steps : (s.setXch ctx x).steps = s.steps := rfl
@[simp] theorem setXch_engines : (s.setXch ctx x).engines = s.engines := rfl
@[simp] theorem setXch_croz : (s.setXch ctx x).croz = s.croz := rfl
@[simp] theorem setXch_crozValid : (s.setXch ctx x).crozValid = s.crozValid := rfl
@[simp] theorem setXch_memErrs : (s.setXch ctx x).memErrs = s.memErrs := rfl
@[simp] theorem setXch_ckptDue : (s.setXch ctx x).ckptDue = s.ckptDue := rfl
@[simp] theorem setXch_ckptImages : (s.setXch ctx x).ckptImages = s.ckptImages := rfl
@[simp] theorem setXch_quiesce : (s.setXch ctx x).quiesce = s.quiesce := rfl
@[simp] theorem setXch_objs : (s.setXch ctx x).objs = s.objs := rfl
@[simp] theorem setXch_nrings : (s.setXch ctx x).nrings = s.nrings := rfl
@[simp] theorem setXch_synOps : (s.setXch ctx x).synOps = s.synOps := rfl
@[simp] theorem setXch_cmps : (s.setXch ctx x).cmps = s.cmps := rfl
@[simp] theorem setXch_copied : (s.setXch ctx x).copied = s.copied := rfl
@[simp] theorem setXch_copying : (s.setXch ctx x).copying = s.copying := rfl
@[simp] theorem setXch_pair : (s.setXch ctx x).pair = s.pair := rfl
@[simp] theorem setXch_rebalances : (s.setXch ctx x).rebalances = s.rebalances := rfl
@[simp] theorem setXch_paths : (s.setXch ctx x).paths = s.paths := rfl
@[simp] theorem setXch_gates : (s.setXch ctx x).gates = s.gates := rfl
@[simp] theorem setXch_loadSeq : (s.setXch ctx x).loadSeq = s.loadSeq := rfl
@[simp] theorem setXch_keys : (s.setXch ctx x).keys = s.keys := rfl
@[simp] theorem setXch_failTimes : (s.setXch ctx x).failTimes = s.failTimes := rfl
@[simp] theorem setXch_ports : (s.setXch ctx x).ports = s.ports := rfl
@[simp] theorem setXch_inbox : (s.setXch ctx x).inbox = s.inbox := rfl
@[simp] theorem setXch_posted : (s.setXch ctx x).posted = s.posted := rfl
@[simp] theorem setXch_slices : (s.setXch ctx x).slices = s.slices := rfl
@[simp] theorem setXch_calPasses : (s.setXch ctx x).calPasses = s.calPasses := rfl
@[simp] theorem setXch_moved : (s.setXch ctx x).moved = s.moved := rfl
@[simp] theorem setXch_linkRuns : (s.setXch ctx x).linkRuns = s.linkRuns := rfl
@[simp] theorem setXch_power : (s.setXch ctx x).power = s.power := rfl
@[simp] theorem setXch_request : (s.setXch ctx x).request = s.request := rfl
@[simp] theorem setXch_response : (s.setXch ctx x).response = s.response := rfl
@[simp] theorem setXch_serving : (s.setXch ctx x).serving = s.serving := rfl
@[simp] theorem setXch_answered : (s.setXch ctx x).answered = s.answered := rfl
@[simp] theorem setXch_firmware : (s.setXch ctx x).firmware = s.firmware := rfl
@[simp] theorem setXch_secure : (s.setXch ctx x).secure = s.secure := rfl
@[simp] theorem setXch_tap : (s.setXch ctx x).tap = s.tap := rfl
@[simp] theorem setXch_slots : (s.setXch ctx x).slots = s.slots := rfl
@[simp] theorem setXch_boot : (s.setXch ctx x).boot = s.boot := rfl
@[simp] theorem setXch_flash : (s.setXch ctx x).flash = s.flash := rfl
end

end Sys2Proof.Machine
end

