-- ==== Sys2Proof/Tests/Slice0.lean ====
section
/-! SUPPORT. The author's own tests: small terms that are not well formed, values worked out from the spec, and for each statement with
hypotheses a concrete state that meets them. -/

namespace Sys2Proof.Tests

open Sys2Proof Sys2Proof.Machine

-- One theorem at a time: many kernel evaluations at once take more memory than a compile of the package may.
set_option Elab.async false

-- # Small states

/-- The header of an operation of tile 0 in a slot, unguarded and not the last of its bundle. -/
def hdr (k : SlotName) : SlotHdr := ⟨0, k, false, 0, true, false, false, false, false⟩

/-- A launch of command 1 of queue 0, in context 0, on tile 0. -/
def run0 : Launch :=
  ⟨0, 1, 0, 1, 0, 0, 0, [0], false, false, true, false, 8, 0, 0, 0, 0, [], [], none, [], [], [], 0, false⟩

/-- Tile 0 of that launch, with some of its scalar registers. -/
def tile0 : Tile :=
  { Tile.idle with
    launch := some (0, 1)
    core := ⟨0, [(1, 0#64), (2, 64#64), (3, 5#64), (4, 1#64), (5, 2621376#64), (6, 2621440#64)], [], [], []⟩ }

/-- The tile runs, and its context has 256 MiB of memory, sorus 0 and 16 virtual ids. -/
def tiled : State :=
  (({ State.reset with launches := [run0], tiles := [(0, tile0)] }.setFld F.QUE_CTX_SORI_MASK 0 1).setFld F.QUE_CTX_MEM_SIZE 0 1).setFld
    F.QUE_CTX_SYN_IDS 0 16

/-- The same tile in another state. -/
def tiledAs (x : Tile) : State := { tiled with tiles := [(0, x)] }

/-- What an admitted operation sees. -/
def seen (s : State) (h : SlotHdr) : SlotCtx :=
  match s.openSlot h with
  | .go c => c
  | _ => ⟨0, Tile.idle, ⟨0, [], [], [], []⟩, run0, 0, false, false⟩

-- # Witnesses: the slots

theorem test_step_idle : State.reset.pending = [] := rfl

theorem test_scalar_forms : tiled.opens (hdr .c) (seen tiled (hdr .c)) ∧ (hdr .c).slot = .c ∧
    (seen tiled (hdr .c)).mayWrite (keyS 0) ∧ (seen tiled (hdr .c)).mayWrite (keyS 31) ∧ (seen tiled (hdr .c)).mayWrite (keyP 7) :=
  ⟨⟨rfl, rfl⟩, rfl, rfl, rfl, rfl⟩

/-- Branches to the first and the last bundle; a LOOP whose count runs out, and one that goes on; JR to a bundle of the code. -/
theorem test_control_forms : (seen tiled (hdr .c)).inCode ((seen tiled (hdr .c)).branch 0) ∧
    (seen tiled (hdr .c)).inCode ((seen tiled (hdr .c)).branch 7) ∧ (seen tiled (hdr .c)).inCode ((seen tiled (hdr .c)).src.sreg 3).toNat ∧
    (seen tiled (hdr .c)).src.sreg 4 - 1 = 0 ∧ (seen tiled (hdr .c)).src.sreg 3 - 1 ≠ 0 ∧ (seen tiled (hdr .c)).x.body = none :=
  ⟨⟨by decide +kernel, by decide +kernel⟩, ⟨by decide +kernel, by decide +kernel⟩, ⟨by decide +kernel, by decide +kernel⟩,
    by decide +kernel, by decide +kernel, rfl⟩

/-- A counter, a barrier of two and a barrier of one in context 0. -/
def counterObj : SyncObj := ⟨.counter, 0, [0], 7, 0, 0, none, false, false, [], [], false, [], [], [], [], [], false⟩
def barrierObj (n : Nat) : SyncObj := ⟨.barrier, 0, [2, 3], 0, 0, n, none, false, false, [], [], false, [], [], [], [], [], false⟩
def waiting : State := { tiled with objs := [(0, counterObj), (5, barrierObj 2), (6, barrierObj 1)] }

/-- Tile 0 held at barrier `vid`. -/
def atBarrier (vid : Nat) : State := (waiting.setTile 0 ((seen waiting (hdr .c)).x.holdBy ⟨.bar, vid, 0, 0, 0, 0, false⟩)).noteHeld 0

/-- A wait for 5 or 7 at a counter that stands at 7 is satisfied, one for 8 or more is held, with a timeout to come and one that is over; an
arrival is held or completes its epoch. -/
theorem test_wait_forms : waiting.opens (hdr .c) (seen waiting (hdr .c)) ∧ (waiting.tile 0).used = [] ∧
    waiting.dropped (seen waiting (hdr .c)).l = false ∧ (seen waiting (hdr .c)).x.waiter 0 = .tile 0 ∧
    waiting.waitOn 0 0 5 ⟨0, 0⟩ (.tile 0) = (waiting, .satisfied 7) ∧ waiting.waitOn 0 0 7 ⟨0, 0⟩ (.tile 0) = (waiting, .satisfied 7) ∧
    (waiting.waitOn 0 0 8 ⟨0, 0⟩ (.tile 0)).2 = .held ∧ (waiting.waitOn 0 0 64 ⟨0, 0⟩ (.tile 0)).2 = .held ∧
    waiting.now < (waiting.tile 0).stall.getD waiting.now + ((seen waiting (hdr .c)).src.sreg 2).toNat % 2 ^ 48 ∧
    (waiting.tile 0).stall.getD waiting.now + ((seen waiting (hdr .c)).src.sreg 1).toNat % 2 ^ 48 ≤ waiting.now ∧
    ((atBarrier 5).arrive 0 5 0 0).2 = none ∧ ((atBarrier 6).arrive 0 6 0 0).2 = none ∧ (seen waiting (hdr .c)).x.body = none :=
  ⟨⟨rfl, rfl⟩, rfl, by decide +kernel, rfl, by decide +kernel, by decide +kernel, by decide +kernel, by decide +kernel, by decide +kernel,
    by decide +kernel, by decide +kernel, by decide +kernel, rfl⟩

/-- A WAITT whose deadline is this nanosecond, in the main stream, beside a deferred body and in a body. -/
def late : Hold := ⟨.waitt, 0, 9, 1, 0, 0, true⟩
def desc0 : Deferred := ⟨4, 5, 0, false, 0, 0, 0⟩
def body0 : Body := ⟨desc0, false, 0, 0, some late, none, none⟩

def heldMain : State := tiledAs { tile0 with hold := some late }
def heldBeside : State := tiledAs { tile0 with body := some body0 }
def heldInside : State := tiledAs { tile0 with body := some { body0 with mainHold := none }, hold := some late }

theorem test_held_forms : late.kind = .waitt ∧ late.deadline ≤ tiled.now ∧ (heldMain.tile 0).body = none ∧ (heldMain.tile 0).hold = some late ∧
    (heldBeside.tile 0).body = some body0 ∧ (heldBeside.tile 0).hold = none ∧ body0.mainHold = some late ∧ body0.mainRel = none ∧
    (heldInside.tile 0).body = some { body0 with mainHold := none } ∧ (heldInside.tile 0).hold = some late := by
  refine ⟨rfl, ?_, rfl, rfl, rfl, rfl, rfl, rfl, rfl, rfl⟩; decide +kernel

/-- A descriptor of one bundle, at offset 64 of the tile store. -/
def descState : State := tiled.storeWrite 0 64 (leBytes 4 4 ++ leBytes 4 5)

theorem test_defq_forms : descState.opens (hdr .c) (seen descState (hdr .c)) ∧ (seen descState (hdr .c)).x.body = none ∧
    (seen descState (hdr .c)).x.deferred.length < 64 ∧ ((seen descState (hdr .c)).src.sreg 2).toNat % 32 = 0 ∧
    descState.canRead (seen descState (hdr .c)) ((seen descState (hdr .c)).src.sreg 2).toNat 32 ∧
    Deferred.ofBytes (descState.storeRead 0 ((seen descState (hdr .c)).src.sreg 2).toNat 32) (((seen descState (hdr .c)).src.sreg 1).toNat % 2 ^ 32) =
      some desc0 :=
  ⟨⟨rfl, rfl⟩, rfl, by decide +kernel, by decide +kernel, ⟨by decide +kernel, by decide +kernel⟩, by decide +kernel⟩

/-- A full queue of descriptors. -/
def fullState : State := tiledAs { tile0 with deferred := List.replicate 64 desc0 }

theorem test_defq_full_forms : fullState.opens (hdr .c) (seen fullState (hdr .c)) ∧ (fullState.tile 0).body = none ∧
    (fullState.tile 0).deferred = desc0 :: List.replicate 63 desc0 ∧ (List.replicate 63 desc0).length = 63 :=
  ⟨⟨rfl, rfl⟩, rfl, rfl, rfl⟩

/-- A tile held since 0 with YIELD_NS 5, at time 5. -/
def yieldState : State :=
  { (tiledAs { tile0 with hold := some ⟨.wait, 0, 9, 0, 0, 0, true⟩, deferred := [desc0] }).setFld F.EXC_STEP_CFG_YIELD_NS 0 5 with now := 5 }

theorem test_yield_forms : yieldState.tileLaunch 0 = some run0 ∧ run0.fault = none ∧ (yieldState.tile 0).body = none ∧
    (yieldState.tile 0).deferred = desc0 :: [] ∧ (yieldState.tile 0).hold = some ⟨.wait, 0, 9, 0, 0, 0, true⟩ ∧
    (yieldState.tile 0).stopped = false ∧ (yieldState.tile 0).ended = false ∧ yieldState.flag F.HIF_STATUS_FATAL 0 = false ∧
    F.EXC_STEP_CFG_YIELD_NS.of (yieldState.staged .EXC_STEP_CFG 0 .sori 0) = 5 ∧ 0 + 5 ≤ yieldState.now := by
  refine ⟨by decide +kernel, rfl, rfl, rfl, rfl, rfl, rfl, ?_, ?_, ?_⟩ <;> decide +kernel

theorem test_page_forms : tiled.tileLaunch 0 = some run0 ∧ (tiled.tile 0).parity ≠ some (tiled.tile 0).bundle ∧
    ((tiledAs { tile0 with parity := some 0 }).tile 0).parity = some ((tiledAs { tile0 with parity := some 0 }).tile 0).bundle := by
  refine ⟨?_, ?_, rfl⟩ <;> decide +kernel

/-- The vector slots: each width of a float operation, and the INT32 width. -/
theorem test_vector_forms : tiled.openSlot (hdr .v0) = .go (seen tiled (hdr .v0)) ∧ tiled.openSlot (hdr .v1) = .go (seen tiled (hdr .v1)) ∧
    vecSlot (hdr .v0) = true ∧ vecSlot (hdr .v1) = true ∧ widthFmt 0 = some fp32 ∧ widthFmt 1 = some bf16 ∧ widthFmt 2 = some fp16 ∧
    (seen tiled (hdr .v0)).mayWrite (keyV 63) ∧ (seen tiled (hdr .v0)).on = true :=
  ⟨rfl, rfl, rfl, rfl, rfl, rfl, rfl, rfl, rfl⟩

/-- A VSCAL of 1 by 2 to the powers −4096 and 4096. -/
def scaleTile : Tile := { tile0 with core := { tile0.core with v := [(0, 0x3F800000#4096), (1, 0xFFFFF000#4096), (2, 0x1000#4096)] } }

theorem test_vscal_forms : ∃ m, fp32.decode ((seen (tiledAs scaleTile) (hdr .v0)).floatLane ⟨0, 3, 0, 1, 0, 0⟩ fp32 0 0) = .fin false m (-23) ∧
    ((seen (tiledAs scaleTile) (hdr .v0)).intLane 1 0).toInt = -4096 ∧ ((seen (tiledAs scaleTile) (hdr .v0)).intLane 2 0).toInt = 4096 := by
  refine ⟨0x800000, ?_, ?_, ?_⟩ <;> decide +kernel

/-- A VCVT from FP32 to each kind of destination. -/
theorem test_vcvt_forms : cvtFields false ⟨0, 0, 1, 0, 1, 0, 0, 0, false⟩ = true ∧ cvtFields false ⟨0, 0, 1, 0, 0xB, 0, 0, 0, true⟩ = true ∧
    cvtFields false ⟨1, 0, 1, 0, 3, 0, 0, 0, false⟩ = true ∧ cvtFields false ⟨0, 0, 1, 0, 5, 0, 0, 0, false⟩ = true ∧ isMx 1 = false ∧
    isMx 0xB = false ∧ isMx 5 = true ∧ (seen tiled (hdr .v0)).her = false := by decide +kernel

/-- A VRED of lanes that hold 1, each active. -/
theorem test_vred_forms : (∀ i, i < laneCount 0 → (seen (tiledAs scaleTile) (hdr .v0)).guard.getLsbD i = true →
    (fp32.decode (lane ((seen (tiledAs scaleTile) (hdr .v0)).src.vreg 0) (laneBits 0) i)).isSnan = false) := by decide +kernel

/-- An 8 × 8 product of BF16 with K 1, and one with K 65,536; a MMAX of the same. -/
def bfOps (acc : Bool) (sk : Fin 32) : MmaOps := ⟨acc, false, 1, 1, false, false, 1, 1, sk, 0, 0⟩

theorem test_mma_forms : tiled.opens (hdr .m) (seen tiled (hdr .m)) ∧ (seen tiled (hdr .m)).mayWrite (keyA true) ∧
    (seen tiled (hdr .m)).mayWrite (keyA false) ∧ tiled.canMultiply (seen tiled (hdr .m)) (bfOps true 4) true ∧ (bfOps true 4).z = false ∧
    (seen tiled (hdr .m)).x.body = none :=
  ⟨⟨rfl, rfl⟩, rfl, rfl, ⟨by decide +kernel, by decide +kernel, by decide +kernel, by decide +kernel, by decide +kernel, by decide +kernel,
    by decide +kernel, by decide +kernel, fun _ => by decide +kernel⟩, rfl, rfl⟩

theorem test_flight_forms : (tiledAs { tile0 with flights := [⟨[true], none⟩] }).tileLaunch 0 = some run0 ∧
    ((tiledAs { tile0 with flights := [⟨[true], none⟩] }).tile 0).flights = ⟨true :: [], none⟩ :: [] := by
  refine ⟨?_, rfl⟩; decide +kernel

/-- The block moves at offset 0 and at the last one that fits. -/
theorem test_acc_forms : (seen tiled (hdr .m)).x.setBusy true = false ∧ (⟨true, false, 1, 2, 0⟩ : AccOps).msh ≠ 3 ∧
    ((seen tiled (hdr .m)).src.sreg 1).toNat % 4 = 0 ∧ tiled.canStore (seen tiled (hdr .m)) 0 (4 * 64 * 64) ∧
    tiled.canRead (seen tiled (hdr .m)) (0x280000 - 4 * 64 * 64) (4 * 64 * 64) := by
  refine ⟨?_, ?_, ?_, ⟨⟨?_, ?_⟩, ?_⟩, ⟨?_, ?_⟩⟩ <;> decide +kernel

/-- Accesses at offset 0 and at the end of the tile store. -/
theorem test_load_forms : tiled.opens (hdr .l) (seen tiled (hdr .l)) ∧ tiled.canRead (seen tiled (hdr .l)) (0x280000 - 512) 512 ∧
    tiled.canStore (seen tiled (hdr .l)) (0x280000 - 512) 512 ∧ tiled.canRead (seen tiled (hdr .l)) (0x280000 - 8) 8 ∧
    tiled.canStore (seen tiled (hdr .l)) (0x280000 - 8) 8 ∧ (0x280000 - 512) % 64 = 0 := by
  refine ⟨⟨rfl, rfl⟩, ⟨?_, ?_⟩, ⟨⟨?_, ?_⟩, ?_⟩, ⟨?_, ?_⟩, ⟨⟨?_, ?_⟩, ?_⟩, ?_⟩ <;> decide +kernel

/-- A DMA of 64 bytes, the largest length in a register, and a DMA2 of one row of 64 bytes. -/
def dmaOps (sl : Fin 32) : DmaOps := ⟨true, false, 0, false, 1, 1, sl, 4⟩
def oneRow : State := tiledAs { tile0 with core := { tile0.core with s := [(1, 0#64), (2, 0x100000040#64), (3, 64#64), (4, 1#64)] } }

theorem test_dma_forms :
    ((seen tiled (hdr .l)).src.sreg 2).toNat = 64 ∧ ((seen tiled (hdr .l)).src.sreg 6).toNat = 0x280000 ∧
    tiled.canTransfer (seen tiled (hdr .l)) ((seen tiled (hdr .l)).transfer (dmaOps 2) 64 1 0) ∧
    ((seen oneRow (hdr .l)).transfer (dmaOps 2) 64 1 64).rows = 1 ∧
    oneRow.canTransfer (seen oneRow (hdr .l)) ((seen oneRow (hdr .l)).transfer (dmaOps 2) 64 1 64) := by
  refine ⟨?_, ?_, ⟨rfl, ?_, ?_, ?_, ?_⟩, ?_, ⟨rfl, ?_, ?_, ?_, ?_⟩⟩ <;> decide +kernel

-- # Witnesses: transfers that complete, collectives and engines

/-- The stored block of 64 zero bytes: its header with KIND 0 and the CRC-32C of the plain bytes (R353). -/
def blockOf : List Byte := [0, 0, 1, 0, 0x36, 0x96, 0x6B, 0x42] ++ List.replicate 56 0

def moving (toMem comp : Bool) : Transfer := ⟨9, 0, 0, 0, 1, toMem, comp, 0, false, 0, 0x1000, 64, 1, 0, 0, 0⟩
def moves (toMem comp : Bool) : State :=
  ({ tiled with transfers := [moving toMem comp], objs := [(0, counterObj)] }).devBytes 0x1000 blockOf
def counted (s : State) : Nat := match (s.increment 0 0 1 ⟨5, 0⟩ (.launch 0 1 0 0)).2 with | .applied v => v | _ => 0

theorem each_noop {α : Type} (s : State) (l : List α) (f : α → State → State) (h : ∀ x ∈ l, f x s = s) : s.each l f = s := by
  induction l with
  | nil => rfl
  | cons x l ih =>
    have hx := h x (List.mem_cons_self ..)
    have : s.each (x :: l) f = (f x s).each l f := rfl
    rw [this, hx]
    exact ih fun y hy => h y (List.mem_cons_of_mem _ hy)

/-- With no context enabled no write is guarded. -/
theorem guardWork_off (s : State) (a n : Nat) (h : ∀ ctx ∈ List.range 256, s.ctxOn ctx = false) : s.guardWork a n = s :=
  each_noop s _ _ fun ctx hc => by simp [State.when, h ctx hc]

theorem moveOut_one (s : State) (x : Transfer) (hc : x.comp = false) (hr : x.ranges = [(x.maddr, x.rowLen)]) :
    s.moveOut x [] = ((s.devStore x.hint x.maddr (s.storeRead x.tile x.toff x.rowLen)).guardWork x.maddr x.rowLen, true) := by
  simp [State.moveOut, hc, hr]

theorem test_transfer_forms : ((moves true false).transfers.find? fun y => y.id == 9) = some (moving true false) ∧
    (moves true false).transferReady (moving true false) = true ∧ (moving true false).met [] = [] ∧
    ((moves true false).moveOut (moving true false) []).2 = true ∧ ((moves false false).moveIn (moving false false)).2 = true ∧
    (moves true false).wrong = [] := by
  refine ⟨?_, ?_, rfl, ?_, ?_, rfl⟩ <;> decide +kernel

/-- A stream whose blocks are not blocks of the codec ends with a fault. -/
theorem test_transfer_fails : (({ tiled with transfers := [moving false true] } : State).moveIn (moving false true)).2 = false := by
  decide +kernel

/-- Each completion adds 1 to the counter, which stood at 7. -/
theorem test_transfer_counts :
    counted (((moves true false).moveOut (moving true false) []).1.stashRead (moving true false)) = 8 ∧
    counted (((moves false false).moveIn (moving false false)).1.stashRead (moving false false)) = 8 := by
  rw [moveOut_one _ _ rfl rfl, guardWork_off _ _ _ (by decide +kernel)]
  refine ⟨?_, ?_⟩ <;> decide +kernel

theorem test_reread_forms : (moving false true).toMem = false ∧ (moving false true).comp = true ∧ 0 < ceilDiv (moving false true).bytes blockSize ∧
    (((moves false true).readStream (moving false true)).decodeStream (moving false true) 1 0 0x1000 []).fail = none := by
  refine ⟨rfl, rfl, ?_, ?_⟩ <;> decide +kernel

/-- A set of one keep line and one other, under each hint; a slot not present, and one present. -/
theorem test_cache_forms :
    let l : List CacheLine := [⟨5, true, true⟩, ⟨7, false, false⟩]
    l.length ≤ cacheWays ∧ (l.map (·.line)).Nodup ∧ l.countP (·.keep) ≤ 12 ∧ touchSet 1 true false 0 7 l = [⟨7, true, false⟩, ⟨5, true, true⟩] ∧
    touchSet 1 false false 1 7 l = l ∧ touchSet 1 true false 1 9 l = l ∧ touchSet 1 true true 1 9 l = [⟨9, true, false⟩, ⟨5, true, true⟩, ⟨7, false, false⟩] ∧
    touchSet 1 false false 2 7 l = [⟨7, false, true⟩] ∧ touchSet 1 false false 3 5 l = [⟨7, false, false⟩, ⟨5, true, false⟩] ∧
    touchSet 2 false false 2 9 l = [⟨9, false, true⟩, ⟨5, true, true⟩, ⟨7, false, false⟩] ∧ touchSet 8 false false 3 9 l = l := by decide +kernel

/-- A codeword of a cached line, clean or dirty: the caches hold the slot of address 0x1000. -/
def cachedState (dirty : Bool) : State :=
  { tiled with cache := [(cacheKey (tiled.memKey 0x1000 / 256), [⟨tiled.memKey 0x1000 / 256, dirty, false⟩])] }

theorem cached_of (s : State) (a : Nat) (d : Bool) :
    State.cached? { s with cache := [(cacheKey (s.memKey a / 256), [⟨s.memKey a / 256, d, false⟩])] } a =
      some ⟨s.memKey a / 256, d, false⟩ := by
  have hk (c : NMap (List CacheLine)) : State.memKey { s with cache := c } a = s.memKey a := rfl
  simp [State.cached?, hk, NMap.getD, NMap.get?]

theorem test_cached_forms (dirty : Bool) : (cachedState dirty).addrKind 0x1000 = .memory ∧
    (cachedState dirty).cached? 0x1000 = some ⟨tiled.memKey 0x1000 / 256, dirty, false⟩ ∧ lineStack (tiled.memKey 0x1000 / 256) < 12 := by
  refine ⟨?_, cached_of tiled 0x1000 dirty, by decide +kernel⟩
  show tiled.addrKind 0x1000 = .memory
  decide +kernel

/-- A ring of devices 0 and 1 as group 0, and the descriptor of a collective of 16 FP32 elements in the tile store. -/
def ringHead : List Byte := [0, 0, 1, 0, 0, 0, 0, 0, 2, 1, 1, 0, 2, 0, 0, 0] ++ List.replicate 12 0
def ringTable : List Byte := [0, 0, 1, 0] ++ List.replicate 28 0
def collDesc (op : Nat) : List Byte :=
  leBytes 1 op ++ [0, 0, 1, 0, 0, 0, 0] ++ leBytes 8 0x1000 ++ leBytes 8 0x2000 ++ leBytes 8 16 ++ leBytes 4 1 ++ leBytes 4 0 ++
    leBytes 4 0xFFFFFFFF ++ leBytes 4 0 ++ List.replicate 16 0
def ringed (op : Nat) : State :=
  (((({ tiled with objs := [(1, counterObj)] }.setFld F.FAB_GRP_COUNT_COUNT 0 1).setFld F.FAB_GRP_BASE_ADDR 0 512).devBytes 0x1000
    (leBytes 8 0x1040)).devBytes 0x1040 (ringHead ++ leBytes 4 (crc32c (ringHead ++ ringTable)) ++ ringTable)).storeWrite 0 64 (collDesc op)

/-- The descriptor and the group as read back. -/
def descOf (op : Nat) : CollDesc := ⟨op, 0, 0, 1, 0, 0x1000, 0x2000, 16, 1, 0, 0xFFFFFFFF, 0⟩
def ringGroup : Group := ⟨0x1040, 1, 2, 1, 1, [0, 1]⟩

/-- Each operation's descriptor is read, and may be posted over the ring. -/
def collOk (op : Nat) : Bool :=
  let s := ringed op
  let r := ringGroup.rankOf s.deviceId
  let rs := (descOf op).ranges ringGroup r
  decide (CollDesc.ofBytes (s.storeRead 0 64 64) = some (descOf op)) && leNat (s.storeRead 0 64 1) == op &&
    decide (s.group? 0 0 = some ringGroup) && decide (r < ringGroup.size) &&
    !overlap 0x1000 64 0x2000 64 && decide (rs.all fun x => x.2 ≤ 64 ∧ (x.1 = 0x1000 ∨ x.1 = 0x2000)) &&
    decide (s.rangesCheck 0 rs = .fine) && rs.all (fun x => s.addrKind x.1 == .memory) && decide (s.inFlight 0 < 32) &&
    (storeHole 0 64 64).isNone && !s.rangeLocked 0 64 64 && (s.firstBeyond (s.groupReads 0 0 0)).isNone

theorem test_coll_forms : (∀ op ∈ [1, 2, 3, 4, 5, 6], collOk op = true) ∧ (ringed 1).openSlot (hdr .l) = .go (seen (ringed 1) (hdr .l)) ∧
    (seen (ringed 1) (hdr .l)).on = true := ⟨by decide +kernel, rfl, rfl⟩

/-- A collective of an operation and flags that has been posted; a broadcast from this device completes at once, and its counter stands at 7. -/
def postedOp (op flags : Nat) : Coll :=
  ⟨3, 0, 0, 0, 1, 0, 64, 1, { descOf op with flags := flags }, 0, 0, false, 0, false, false, false, false⟩

def postedState (op flags : Nat) : State := { ringed op with colls := [postedOp op flags] }

/-- How far it runs with the streams that have come. -/
def flowFor (op flags : Nat) (parts : List (List Byte)) : Flow :=
  (((postedState op flags).collReads (postedOp op flags) run0 ringGroup).1.runColl (postedOp op flags) run0 ringGroup parts).1

/-- A stream that is missing, a damaged one, and all that it needs. -/
theorem test_coll_flow :
    (∀ op ∈ [5, 6], (postedState op 1).collReady (postedOp op 1) = true ∧ ((postedState op 1).collReads (postedOp op 1) run0 ringGroup).2 = none) ∧
    (flowFor 6 0 []).wait = true ∧ (flowFor 6 0 []).harm = none ∧ (flowFor 6 0 []).sends.length = 1 ∧
    (flowFor 6 1 [List.replicate 64 0xFF]).harm = some ⟨1, 0, 1, 0, []⟩ ∧
    (flowFor 5 0 []).wait = false ∧ (flowFor 5 0 []).harm = none ∧ (flowFor 5 0 []).parts = [] := by
  decide +kernel

theorem test_coll_done : (postedOp 5 0).odd = false ∧ (postedOp 5 0).desc.odd [] = none ∧
    ((postedState 5 0).colls.find? fun y => y.id == 3) = some (postedOp 5 0) ∧ (postedState 5 0).launch? 0 1 = some run0 ∧
    (postedState 5 0).groupAt 0 0 0 = some ringGroup ∧
    (let x := postedOp 5 0
     let s0 := ((postedState 5 0).collReads x run0 ringGroup).1
     let run := s0.runColl x run0 ringGroup []
     let sent := s0.sendStreams x ringGroup run.1.sends []
     sent.2 = none ∧ (match (((run.2 sent.1).countCmp 0 0 0).collDone x).increment 0 1 1 ⟨5, 0⟩ (.launch 0 1 0 0) with
       | (_, .applied v) => v | _ => 0) = 8) := by
  refine ⟨rfl, rfl, ?_, ?_, ?_, ?_⟩ <;> decide +kernel

-- # Witnesses: engines, host accesses, queues and commands

/-- At stage S6 with a driver, context 0 is enabled for function 0 with 16 queues, 256 MiB, sorus 0 and 16 virtual ids. -/
def served : State :=
  let s := (({ State.reset with now := 1000 }.setFld F.BOOT_STAGE_STAGE 0 6).setFld F.HIF_STATUS_STAGE 0 6).setFld F.HIF_STATUS_DRIVER 0 0
  let s := ((s.setFld F.QUE_CTX_CFG_EN 0 1).setFld F.QUE_CTX_CFG_Q_COUNT 0 16).setFld F.QUE_CTX_SORI_MASK 0 1
  (s.setFld F.QUE_CTX_MEM_SIZE 0 1).setFld F.QUE_CTX_SYN_IDS 0 16

/-- Queue 0 of it, idle, with 16 entries on both sides. -/
def queued : State :=
  (((((served.setFld F.QUE_CFG_EN 0 1).setFld F.QUE_CFG_SQ_LOG2 0 4).setFld F.QUE_CFG_CQ_LOG2 0 4).setFld F.QUE_STATE_STATE 0 1).setQueue 0
    ⟨0, 0, 0, 1, 0, [], [], [], []⟩)

theorem test_host_forms : queued.fnThere 0 = true ∧ 3 ≤ queued.stage ∧ queued.ctxOf 0 = some 0 ∧ queued.ctxOn 0 = true ∧ queued.ctxFn 0 = 0 ∧
    queued.queueRuns 0 = true ∧ queued.sqSize 0 = 16 ∧ queued.cqSize 0 = 16 ∧ consumed 16 0 0 = 0 ∧
    queued.unmasked.contains (2048 * 0 + 5) = false ∧ queued.reach 0 .HIF_BLOCKED 0 = .go ∧ queued.reach 0 .EXC_EVQ_HEAD 0 = .go ∧
    0 < queued.ringSize 0 ∧ queued.addrKind 0x10000 = .memory ∧ queued.fld F.HIF_BAR4_BASE_BASE 0 = 0 ∧ queued.wrong = [] := by
  refine ⟨?_, ?_, ?_, ?_, ?_, ?_, ?_, ?_, ?_, ?_, ?_, ?_, ?_, ?_, ?_, rfl⟩ <;> decide +kernel

/-- QUE_CFG as a host writes it: enabled with 16 entries on both sides, the largest sizes, and cleared. -/
def cfgOf (log : Nat) : Word := BitVec.ofNat 64 (2 ^ 63 + log * 2 ^ 48 + log * 2 ^ 40)

theorem test_queue_forms : served.reach 0 .QUE_CFG 3 = .go ∧ served.ctxOf 3 = some 0 ∧ served.ctxOn 0 = true ∧ served.flag F.QUE_CFG_EN 3 = false ∧
    served.queueState 3 = 0 ∧ F.QUE_CFG_EN.of (RegName.QUE_CFG.written .whole (served.reg .QUE_CFG 3) (cfgOf 4)) = 1 ∧
    F.QUE_CFG_SQ_LOG2.of (RegName.QUE_CFG.written .whole (served.reg .QUE_CFG 3) (cfgOf 16)) = 16 ∧
    F.QUE_CFG_CQ_LOG2.of (RegName.QUE_CFG.written .whole (served.reg .QUE_CFG 3) (cfgOf 4)) = 4 ∧ served.fld F.QUE_SQ_BASE_SPACE 3 = 0 ∧
    served.fld F.QUE_CQ_BASE_SPACE 3 = 0 ∧ queued.fld F.QUE_CFG_EN 0 = 1 ∧ queued.queueState 0 ≠ 4 ∧
    F.QUE_CFG_EN.of (RegName.QUE_CFG.written .whole (queued.reg .QUE_CFG 0) 0#64) = 0 := by
  refine ⟨?_, ?_, ?_, ?_, ?_, ?_, ?_, ?_, ?_, ?_, ?_, ?_, ?_⟩ <;> decide +kernel

/-- A queue that drains with nothing left, one with an entry to fetch, and one with a record to write. -/
def entryOf (op w3 w4 : Nat) : Sqe := ⟨op, 0, 0, w3, w4, 0, 0, 0⟩
def rec0 : Rec := ⟨0, 0, 0, 0, false, 0⟩

theorem test_fetch_forms : (queued.setFld F.QUE_STATE_STATE 0 4).queueState 0 = 4 ∧
    (queued.modQueue 0 fun u => { u with sqTail := 1 }).dispatches = true ∧ (queued.modQueue 0 fun u => { u with sqTail := 1 }).pickQueue = some 0 ∧
    ((queued.modQueue 0 fun u => { u with waiting := [rec0] }).queue 0).waiting = [rec0] ∧ queued.queueState 0 ≠ 0 ∧
    ((queued.modQueue 0 fun u => { u with waiting := [rec0] }).queue 0).used < queued.cqSize 0 := by
  refine ⟨?_, ?_, ?_, ?_, ?_, ?_⟩ <;> decide +kernel

/-- Command 0 of queue 0 with an opcode, fetched or running. -/
def cmdOf (e : Sqe) (run begun : Bool) (stop : Option Nat) : Cmd := ⟨0, e, 1, if run then .running else .fetched, begun, stop, false, 0, none, false⟩
def commanded (x : Cmd) : State := { queued with objs := [(0, counterObj)] }.modQueue 0 fun u => { u with cmds := [x] }

theorem test_start_forms : let x := cmdOf (entryOf 0x00 0 0) false false none
    ((commanded x).queue 0).cmds = [x] ∧ (commanded x).dispatches = true ∧ (commanded x).stepWait 0 x.entry = false ∧
    ((commanded x).setFld F.QUE_STATE_STATE 0 1).turned 0 x.entry = none ∧ (classesOf 0).all (fun c => decide (0 ≤ (commanded x).classEpoch c)) = true := by
  refine ⟨?_, ?_, ?_, ?_, ?_⟩ <;> decide +kernel

theorem test_stop_forms : let x := cmdOf ⟨0, 0, 500, 0, 0, 0, 0, 0⟩ true false none
    (commanded x).cmd? 0 0 = some x ∧ x.entry.w2 < (commanded x).now ∧
    (commanded { x with stop := some 3 }).cmd? 0 0 = some { x with stop := some 3 } ∧ (commanded { x with stop := some 3 }).launch? 0 0 = none := by
  refine ⟨?_, ?_, ?_, ?_⟩ <;> decide +kernel

/-- Each opcode of Table 2-3 begins. -/
theorem test_command_forms : ∀ op ∈ [0x00, 0x10, 0x11, 0x20, 0x30, 0x31, 0x40, 0x41, 0x50],
    (commanded (cmdOf (entryOf op 0 7) true false none)).toBegin 0 0 op = some (cmdOf (entryOf op 0 7) true false none, 0) := by decide +kernel

/-- A loaded program of one tile, a launch of it that is over, a signal, a wait that is satisfied and one that is held, and an ABORT. -/
def prog0 : Program := ⟨true, 0, [], 1, false, false, 0, false, false, 8, [], [], 0, [], [], (0, 0, 0)⟩
def ranOut : Launch := ⟨0, 0, 0, 1, 0, 0, 0, [0], false, false, true, false, 8, 0, 0, 0, 0, [], [], none, [], [], [], 0, false⟩

def launched : State := { queued with launches := [ranOut], tiles := [(0, { Tile.idle with launch := some (0, 0), ended := true })] }

theorem test_launch_forms :
    ({ queued with programs := [(2 ^ 32 * 0 + 1, prog0)] } : State).program? 0 1 = some prog0 ∧ queued.launches = [] ∧
    launched.launch? 0 0 = some ranOut ∧ launched.launchQuiet ranOut = true ∧ launched.updatesDone ranOut = true ∧
    (launched.tile 0).finished false = true ∧ (launched.tile 0).flights = [] := by
  refine ⟨?_, ?_, ?_, ?_, ?_, ?_, ?_⟩ <;> decide +kernel

def copying : Cmd := cmdOf ⟨0x30, 0, 0, 0, 0, 64, 4, 0⟩ true true none

/-- A coded copy of 64 bytes is under way; and one bit of the CRC of its block turns between the coding and the check. -/
theorem test_going_forms :
    (commanded copying).cmd? 0 0 = some copying ∧ (commanded copying).ctxOf 0 = some 0 ∧ copying.goesOn = true ∧
    copying.entry.w6.testBit 0 = false ∧ ((commanded copying).dmaBytes { copying.entry with w6 := 0 } 64 []).fail = none := by
  refine ⟨?_, ?_, rfl, rfl, rfl⟩ <;> decide +kernel

theorem test_coding_fails : ((commanded copying).dmaBytes copying.entry 64 [(0, 32)]).fail.isSome = true := by decide +kernel

theorem test_sync_commands : let s := commanded (cmdOf (entryOf 0x40 0 7) true false none)
    (match s.increment 0 0 7 ⟨1, 0⟩ (.cmd 0 0) with | (_, .applied v) => v | _ => 0) = 14 ∧
    (match s.waitOn 0 0 7 ⟨1, 0⟩ (.cmd 0 0) with | (_, .satisfied v) => v | _ => 0) = 7 ∧
    (match s.waitOn 0 0 8 ⟨1, 0⟩ (.cmd 0 0) with | (_, .held) => true | _ => false) = true := by
  refine ⟨?_, ?_, ?_⟩ <;> decide +kernel

/-- An ABORT in queue 1 of the command with CMD_ID 0 of queue 0. -/
theorem test_abort_forms : let x := cmdOf (entryOf 0x40 0 7) true false none
    ((commanded x).queue 0).cmds.find? (fun y => y.entry.cmdId == 0) = some x ∧ x.entry.opcode ≠ 0x50 := by
  refine ⟨?_, ?_⟩ <;> decide +kernel

-- # Witnesses: registers, contexts, epochs and rings

/-- A plain register, a staged one, and SEC_ALARM. -/
theorem test_register_forms : regAt 0 (RegName.SEC_ALARM.offset 0) = some (.SEC_ALARM, 0) ∧ served.reach 0 .SEC_ALARM 0 = .go ∧
    regAt 0 (RegName.MEM_SCRUB_CFG.offset 0) = some (.MEM_SCRUB_CFG, 0) ∧ inRequest (RegName.MEM_SCRUB_CFG.offset 0) = false ∧
    served.reach 0 .MEM_SCRUB_CFG 0 = .go ∧ RegName.MEM_SCRUB_CFG ∈ plainRegs ∧ regAt 0 (RegName.MEM_CAL_CFG.offset 0) = some (.MEM_CAL_CFG, 0) ∧
    RegName.MEM_CAL_CFG.stagedIn.isSome = true ∧ RegName.MEM_SCRUB_CFG.offset 0 % 8 = 0 ∧ RegName.MEM_SCRUB_CFG.offset 0 < 2 ^ 26 := by
  refine ⟨?_, ?_, ?_, ?_, ?_, ?_, ?_, ?_, ?_, ?_⟩ <;> decide +kernel

/-- QUE_CTX_CFG for context 1: enabled with queues 16 to 31. -/
def ctxWord : Word := BitVec.ofNat 64 (2 ^ 63 + 16 * 2 ^ 16 + 16)
def ctxReady : State := (((served.setFld F.QUE_CTX_SYN_IDS 1 65536).setFld F.QUE_CTX_MEM_SIZE 1 1).setFld F.QUE_CTX_MEM_BASE 1 1).setFld F.QUE_CTX_SORI_MASK 1 2

theorem test_context_forms : ctxReady.reach 0 .QUE_CTX_CFG 1 = .go ∧ ctxReady.fld F.QUE_CTX_CFG_EN 1 = 0 ∧ ctxReady.ctxResetting 1 = false ∧
    F.QUE_CTX_CFG_EN.of (RegName.QUE_CTX_CFG.written .whole (ctxReady.reg .QUE_CTX_CFG 1) ctxWord) = 1 ∧
    ctxReady.enableError 1 (RegName.QUE_CTX_CFG.written .whole (ctxReady.reg .QUE_CTX_CFG 1) ctxWord) = 0 ∧
    served.fld F.QUE_CTX_CFG_EN 0 = 1 ∧ served.reach 0 .QUE_CTX_CFG 0 = .go ∧ served.fnThere 63 = true := by
  refine ⟨?_, ?_, ?_, ?_, ?_, ?_, ?_, ?_⟩ <;> decide +kernel

theorem test_reset_done_forms : let s : State := { served with resetting := [(5, 7)] }
    NMap.get? s.resetting 5 = some 7 ∧ (s.engines.any fun e => e.2.ctx == 5) = false ∧ ((s.endCtxCmds 5).flushCtx 5).ctxRecorded 5 = true ∧
    s.firmware.shut = none := by
  refine ⟨?_, ?_, ?_, ?_⟩ <;> decide +kernel

theorem test_epoch_forms : served.reach 0 .HIF_EPOCH_COMMIT 0 = .go ∧ served.committed + 1 < 2 ^ 32 ∧ served.staging = [] ∧
    (({ served with frozen := [(1, [])] } : State).setFld F.HIF_EPOCH_STATUS_COMMITTED 0 1).committed = 1 ∧
    (({ served with frozen := [(1, [])] } : State).setFld F.HIF_EPOCH_STATUS_COMMITTED 0 1).atBoundary .base 11 = true ∧
    served.adoptedBy .base 11 < 1 ∧ served.reach 5 .EXC_EVQ_CFG 5 = .go ∧ served.fld F.EXC_EVQ_CFG_EN 5 = 0 ∧
    F.EXC_EVQ_CFG_LOG2.of (RegName.EXC_EVQ_CFG.written .whole (served.reg .EXC_EVQ_CFG 5) (BitVec.ofNat 64 (2 ^ 63 + 6 * 2 ^ 16))) = 6 ∧
    F.EXC_EVQ_CFG_EN.of (RegName.EXC_EVQ_CFG.written .whole (served.reg .EXC_EVQ_CFG 5) (BitVec.ofNat 64 (2 ^ 63 + 16 * 2 ^ 16))) = 1 ∧
    served.reach 0 .HIF_HEARTBEAT 0 = .go ∧ served.driver = 0 ∧ served.now ≤ served.firmware.session.beat + 2 * sec := by
  refine ⟨?_, ?_, ?_, ?_, ?_, ?_, ?_, ?_, ?_, ?_, ?_, ?_, ?_⟩ <;> decide +kernel

-- # Witnesses: engines, steps and checkpoints

/-- Shard 1 of device 0, of 4 elements, which takes part in outer rounds. -/
def entry1 : List Byte :=
  leBytes 4 1 ++ leBytes 4 0 ++ leBytes 8 0 ++ leBytes 4 4 ++ leBytes 2 0 ++ leBytes 2 0xFFFF ++ [0, 0] ++ leBytes 2 0x1703 ++ leBytes 4 0 ++
    leBytes 4 2 ++ leBytes 4 0 ++ leBytes 8 0x4000 ++ leBytes 8 0x40000 ++ leBytes 4 0
def shard1 : Shard := ⟨0x2000, 1, 0, 0, 4, 0, 0xFFFF, 0, 0, 0x1703, 0, 2, 0, 0x4000, 0x40000⟩
def step0 : Step :=
  { queue := 0, cmd := 0, handle := 1, index := 3, jobSeed := 0, epoch := 0, shardBase := 0x2000, shardCount := 1, limit := 0, clip := 0,
    skipLimit := 0, croz := none, beta1 := 0, beta2 := 0, opened := 0, locals := [], finalised := [], handed := [1], received := [],
    intakes := [], waiting := [], decision := some ⟨0, 0, 0, 0, []⟩, mirror := none, started := [], updated := [], digests := [],
    activity := [], coldBlocks := 0, intervened := false, adopted := true, scales := [], layout := 0, argDigest := 0, samples := [],
    replay := none, inputs := [], finals := [], lost := [], tied := [], broken := false }
def engine0 (k : PassKind) : Engine := ⟨0, 1, k, 0, 0, [(1, 0x3F800000#32)], [(0, 0x3F80000000#48)], [], 0, 0, 0, none, [], false⟩

/-- Context 0 has a step open, and engine 0 runs over shard 1. -/
def stepping (p : Step) (es : NMap Engine) : State := { served with steps := [(0, p)], engines := es }.devBytes 0x2000 entry1
def working : State := stepping step0 [(0, engine0 .program)]

theorem test_engine_forms : working.engineRuns 0 (engine0 .program) shard1 ∧ (Instr.add ⟨0, 2, 1, 57, 0, 0⟩).wellFormed = true ∧
    (Instr.st ⟨0, 0, 4, 1, 0, 0⟩).wellFormed = true ∧ (Instr.stm ⟨0, 0, 48, 0, 0, 0⟩).wellFormed = true ∧
    (Instr.wtof ⟨0, 2, 48, 0, 0, 0⟩).wellFormed = true ∧ (Instr.wadd ⟨0, 49, 48, 1, 0, 0⟩).wellFormed = true ∧
    (fp32.decode (working.source (engine0 .program) shard1 1)).finite = true ∧ shard1.width 4 ≠ 2 ∧
    (match (engine0 .program).wide 48, working.wideSource (engine0 .program) shard1 1 with
      | some u, some v => u.finite && (roundMaster u).isSome && (u.add v).1.finite && (u.mul v).1.finite
      | _, _ => false) = true := by
  refine ⟨⟨?_, ?_, ?_, ?_⟩, ?_, ?_, ?_, ?_, ?_, ?_, ?_, ?_⟩ <;> decide +kernel

/-- A step program of one tile, and its launch, not yet open. -/
def stepRun : Launch := ⟨0, 0, 0, 1, 0, 0, 3, [0], false, true, false, false, 8, 0, 0, 0, 0, [], [], none, [], [], [], 0, false⟩
def opening : State := { queued with launches := [stepRun], programs := [(1, { prog0 with isStep := true })] }

theorem test_open_forms : opening.launch? 0 0 = some stepRun ∧ stepRun.isStep = true ∧ stepRun.opened = false ∧ opening.opensNone 0 = false ∧
    NMap.get? opening.steps 0 = none ∧ opening.program? 0 1 = some { prog0 with isStep := true } ∧ opening.flag F.EXC_REPLAY_CTL_ARM 0 = false ∧
    opening.tableFault 0 prog0 = none ∧ opening.applyPending 0 3 = false ∧ opening.staleShards 0 3 = [] := by
  refine ⟨?_, rfl, rfl, ?_, rfl, ?_, ?_, ?_, ?_, ?_⟩ <;> decide +kernel

/-- Tensor 0 of context 0, in use, of a conversion to FP8 with one block. -/
def tensored : State :=
  (((served.setFld F.NUM_TENSOR_COUNT_COUNT 0 1).setFld F.NUM_TENSOR_BASE_ADDR 0 0x40).setFld F.NUM_REG_STATUS_BUSY 0 1).devBytes 0x1000
    ([128, 5, 0, 0] ++ List.replicate 188 0)

theorem test_record_forms : served.reach 0 .EXC_NUM_STATE 0 = .go ∧ served.reach 0 .NUM_TENSOR_REG 0 = .go ∧
    served.flag F.NUM_REG_STATUS_BUSY 0 = false ∧ served.reach 0 .EXC_REPLAY_CTL 0 = .go ∧ tensored.flag F.NUM_REG_STATUS_BUSY 0 = true ∧
    (tensored.setFld F.NUM_REG_STATUS_BUSY 0 0).regError 0 (tensored.fld F.NUM_REG_STATUS_TID 0) = 0 := by
  refine ⟨?_, ?_, ?_, ?_, ?_, ?_⟩ <;> decide +kernel

def steady (d : Nat) : Step := { step0 with decision := some ⟨0, 0, 0, d, []⟩ }
def formState : State :=
  ((stepping (steady 1) []).setFld F.XCH_CFG_EN 0 1).setFld F.XCH_STATE_MODE 0 1 |>.setFld F.XCH_CFG_H 0 4

theorem test_step_forms : NMap.get? (stepping step0 []).steps 0 = some step0 ∧ step0.index < 2 ^ 64 ∧ (stepping step0 []).shard? 0 1 = some shard1 ∧
    step0.decisionFor ((stepping step0 []).mirrors shard1) (stepping step0 []).twinFailed = some ⟨0, 0, 0, 0, []⟩ ∧
    (stepping step0 []).owns shard1 = true ∧ step0.gradReady true 1 = true ∧ step0.started.contains 1 = false ∧
    (stepping step0 []).comparing 0 1 = false ∧ ((stepping step0 []).passEngines shard1 (some 8)).isSome = true ∧ (stepping step0 []).ckptDue = [] ∧
    (stepping step0 []).quiesce = false := by
  refine ⟨rfl, ?_, ?_, ?_, ?_, rfl, rfl, rfl, ?_, rfl, ?_⟩ <;> decide +kernel

theorem test_pass_forms (k : PassKind) : NMap.get? (stepping step0 [(8, engine0 k)]).engines 8 = some (engine0 k) ∧
    (stepping step0 [(8, engine0 k)]).shard? 0 1 = some shard1 ∧ (engine0 k).kind = k ∧ (engine0 k).done = false ∧
    (((stepping step0 [(8, engine0 k)]).partDone 8 (engine0 k) shard1).passOf 0 1).all (·.2.done) = true ∧
    (k ≠ .copy → k ≠ .restore →
      (((stepping step0 [(8, engine0 k), (12, engine0 k)]).partDone 8 (engine0 k) shard1).passOf 0 1).all (·.2.done) = false) := by
  refine ⟨rfl, ?_, rfl, rfl, ?_, ?_⟩ <;> cases k <;> decide +kernel

theorem test_form_forms : NMap.get? formState.steps 0 = some (steady 1) ∧ formState.shard? 0 1 = some shard1 ∧ formState.lastOf 0 3 = some 0 ∧
    shard1.exchanged = true ∧ formState.owns shard1 = true ∧ (steady 1).updateOver 1 = true ∧ (formState.xchOf 0).round? 0 formState.deviceId = none ∧
    (formState.xchOf 0).fresh ≠ some 0 ∧ formState.xmode 0 ≠ 3 ∧ formState.comparing 0 1 = false ∧ formState.fld F.HIF_STATUS_DRIVER 0 ≠ 2 ∧
    (formState.passEngines shard1 (some 8)).isSome = true ∧ formState.ckptDue = [] ∧ formState.quiesce = false := by
  refine ⟨rfl, ?_, ?_, rfl, ?_, rfl, ?_, ?_, ?_, rfl, ?_, ?_, rfl, ?_⟩ <;> decide +kernel

/-- An image without shards and with an empty schedule, where the restore looks for it. -/
def image0 : List Byte :=
  let parts : List (Nat × List Byte) := [(2, withCrc64 [])]
  withCrc64 (leBytes 4 0x4B345843 ++ leBytes 2 1 ++ List.replicate 42 0 ++ leBytes 8 136 ++ partTable 4 128 parts) ++ parts.flatMap (·.2)
def imaged : State := { served with host := memWrite [] 0 image0 }

theorem test_ckpt_forms : served.reach 0 .UPD_CKPT_CTL 0 = .go ∧ served.ckptBusy 0 = false ∧ served.fld F.HIF_STATUS_DRIVER 0 ≠ 2 ∧
    NMap.get? served.steps 0 = none ∧ (NMap.get? working.steps 0).isSome = true := by
  refine ⟨?_, ?_, ?_, ?_, ?_⟩ <;> decide +kernel

theorem test_restore_forms :
    (imaged.setFld F.UPD_CKPT_CTL_LEN_MIB 0 0).restoreError 0 ((imaged.setFld F.UPD_CKPT_CTL_LEN_MIB 0 0).storedImage 0) = 0 := by
  decide +kernel

def imaging (due : List Nat) : State :=
  { (served.setFld F.UPD_CKPT_STATUS_STATE 0 2).setFld F.UPD_CKPT_CTL_LEN_MIB 0 1 with ckptDue := due, ckptImages := [(0, image0)] }

theorem test_ckpt_steps : (imaging [0]).fld F.UPD_CKPT_STATUS_STATE 0 = 2 ∧ (imaging [0]).ckptDue.contains 0 = true ∧
    ((imaging [0]).xchOf 0).applying = none ∧ (((imaging [0]).modXch 0 fun x => { x with applying := some 3 }).xchOf 0).applying = some 3 ∧
    image0.length ≤ 1048576 * (imaging [0]).fld F.UPD_CKPT_CTL_LEN_MIB 0 ∧ (imaging []).ckptDue.contains 0 = false ∧
    (imaging []).fld F.UPD_CKPT_STATUS_REASON 0 = 0 ∧ (served.setFld F.UPD_CKPT_STATUS_STATE 0 5).fld F.UPD_CKPT_STATUS_STATE 0 = 5 := by
  refine ⟨?_, ?_, ?_, ?_, ?_, ?_, ?_, ?_⟩ <;> decide +kernel

-- # Witnesses: the command window, memory, power, links and the fabric

def watched : State :=
  let o := { counterObj with watches := [watchOf 2 false 9 (2 ^ 32 * 5 + 1) 0] }
  ((((({ served with objs := [(0, counterObj), (2, o), (4, barrierObj 4)], synOps := [(0, ⟨0, 0, 1, 2⟩)] }.setFld F.SYN_DBG_CTL_OBSERVE 0 1).setFld
    F.SYN_DBG_CTL_INTERVENE 0 1).setFld F.SYN_DBG_STATUS_SCOPE 0 1).setFld F.SYN_WATCH_FREE_FREE 0 100).setFld F.SYN_FREE_FREE 0 50)

/-- The window's arguments are set. -/
def asked (a0 a1 : Nat) : State := ((watched.setFld F.SYN_ARG0_ARG0 0 a0).setFld F.SYN_ARG1_ARG1 0 a1).window 0

theorem test_window_forms : watched.windowTakes 0 0 8 ∧ (watched.window 0).named 0 0 = .object 0 false counterObj ∧
    (watched.window 0).mapped 0 8 = false ∧ (watched.window 0).mapped 0 9 = false ∧ (watched.window 0).mayIntervene 0 ∧
    (watched.window 0).flag F.SYN_DBG_CTL_OBSERVE 0 = true ∧ (watched.window 0).watchesLeft 0 ≠ 0 ∧
    (∃ o, (watched.window 0).named 0 4 = .object 4 false o ∧ o.kind = .barrier) := by
  refine ⟨⟨?_, ?_, ?_, ?_⟩, ?_, ?_, ?_, ⟨?_, ?_⟩, ?_, ?_, barrierObj 4, ?_, rfl⟩ <;> decide +kernel

/-- The three kinds that CREATE makes, each with an argument in its range. -/
theorem test_create_forms : ∀ x ∈ [(0, 7, ObjKind.counter), (1, 4, .bounded), (2, 512, .barrier)],
    kindOf ((asked x.1 x.2.1).synArg 0 0 % 4) = some x.2.2 ∧ (asked x.1 x.2.1).synArg 0 0 < 32 ∧
    x.2.2.argOk 8 ((asked x.1 x.2.1).fld F.QUE_CTX_SYN_IDS 0) ((asked x.1 x.2.1).synArg 0 1) = true ∧
    x.2.2.counters ≤ (asked x.1 x.2.1).freeCounters (bitsOf ((asked x.1 x.2.1).synArg 0 0) 2 2) := by decide +kernel

theorem test_watch_forms : let b := asked 9 (2 ^ 32 * 5 + 1)
    let w := watchOf 2 false (b.synArg 0 0) (b.synArg 0 1) (b.synArg 0 2)
    bitsOf (b.synArg 0 1) 3 13 = 0 ∧ w.notify = true ∧ w.repeats = false ∧ b.badTarget 0 w = false ∧
    (∃ o, b.named 0 2 = .object 2 false o ∧ (o.watches.find? fun x => x.vid == 2 && x.tag == bitsOf (b.synArg 0 1) 32 32) = some w) := by
  refine ⟨?_, ?_, ?_, ?_, { counterObj with watches := [watchOf 2 false 9 (2 ^ 32 * 5 + 1) 0] }, ?_, ?_⟩ <;> decide +kernel

def cfgNq (log : Nat) : Word := F.SYN_NQ_CFG_EN.put (F.SYN_NQ_CFG_LOG2.put 0 log) 1

theorem test_control_writes : watched.reach 0 .SYN_DBG_CTL 0 = .go ∧ watched.flag F.SYN_DBG_STATUS_SCOPE 0 = true ∧
    watched.reach 0 .SYN_NQ_CFG 0 = .go ∧ watched.fld F.SYN_NQ_CFG_EN 0 = 0 ∧ watched.fld F.SYN_NQ_BASE_SPACE 0 = 0 ∧
    (∀ log ∈ [6, 16], F.SYN_NQ_CFG_LOG2.of (RegName.SYN_NQ_CFG.written .whole 0 (cfgNq log)) = log ∧
      F.SYN_NQ_CFG_EN.of (RegName.SYN_NQ_CFG.written .whole 0 (cfgNq log)) = 1) ∧
    watched.reach 0 .SYN_NQ_HEAD 0 = .go ∧
    (let s := (watched.setFld F.SYN_NQ_CFG_LOG2 0 6).setNring 0 ⟨3, 1, []⟩
     63 < s.nringSize 0 ∧ consumed (s.nringSize 0) (s.fld F.SYN_NQ_HEAD_HEAD 0) 3 ≤ (s.nring 0).used) ∧
    (match (watched.incrementOnce 0 0 1 ⟨3, 0⟩ (.core 0)).2 with | .applied v => v | _ => 0) = 8 := by
  refine ⟨?_, ?_, ?_, ?_, ?_, ?_, ?_, ⟨?_, ?_⟩, ?_⟩ <;> decide +kernel

/-- A device whose memory runs: channel 0 is in a slice since 500 ns ago, stack 1 migrates. -/
def memory : State :=
  ({ served with slices := [(0, 1, 500)] }.setFld F.MEM_CH_STATE_STATE 0 1).setFld F.MEM_SPARE_STATE 1 1 |>.setFld F.MEM_SCRUB_CFG_HOURS 0 24

theorem test_memory_forms : let s := State.setFld served F.QUE_CTX_CFG_EN 0 0
    s.reach 0 .MEM_REGION_CFG 0 = .go ∧ ((List.range 256).any s.ctxOn) = false ∧
    (let new := RegName.MEM_REGION_CFG.written .whole (s.reg .MEM_REGION_CFG 0) 0
     4 * (0x30000000 * F.MEM_REGION_CFG_LOCAL_768M.of new) + 0xC0000000 * F.MEM_REGION_CFG_AFF_3G.of new ≤ s.visibleEnd) ∧
    memory.memRuns = true ∧ memory.sliceOpen 64 = true ∧ memory.fld F.MEM_CH_STATE_STATE 1 ≠ 4 ∧ memory.fld F.MEM_SCRUB_CFG_HOURS 0 ≠ 0 ∧
    memory.fld F.MEM_CH_STATE_STATE 1 < 2 ∧ memory.poison = [] := by
  refine ⟨?_, ?_, ?_, ?_, ?_, ?_, ?_, ?_, rfl⟩ <;> decide +kernel

/-- The codeword of word 0 of slot 0 of channel 1 with no wrong symbol, with one, and with two. -/
def scrubKey : Nat := (slotsPerChannel * (memory.nominal 1 0).1 + (memory.nominal 1 0).2) * 8

theorem test_fate_forms : (memory.spoil scrubKey []).fate scrubKey = .clean ∧ (memory.spoil scrubKey [(3, 1)]).fate scrubKey = .corrected ∧
    (memory.spoil scrubKey [(3, 1), (9, 5)]).fate scrubKey = .bad := by
  refine ⟨?_, ?_, ?_⟩ <;> decide +kernel

theorem test_memory_steps : NMap.get? memory.slices 0 = some (1, 500) ∧ memory.fld F.MEM_CH_STATE_STATE 0 = 1 ∧
    (memory.setFld F.MEM_CH_STATE_STATE 0 0).fld F.MEM_CH_STATE_STATE 0 ≠ 4 ∧
    memory.reach 0 .MEM_CH_CMD 0 = .go ∧ memory.flag F.MEM_CMD_STATUS_BUSY 0 = false ∧ memory.retireErr 1 = 0 ∧
    memory.fld F.MEM_SPARE_STATE 1 = 1 ∧ memory.beganAt slotTimer 1 = none ∧ memory.fld F.MEM_SPARE_WATERMARK 1 + 1 < 2 ^ F.MEM_SPARE_WATERMARK.width ∧
    memory.inReset = false ∧ memory.beganAt throttleTimer 0 = none := by
  refine ⟨?_, ?_, ?_, ?_, ?_, ?_, ?_, ?_, ?_, ?_, ?_⟩ <;> decide +kernel

theorem test_power_forms : let s := { served with now := 5 * ms }
    s.inReset = false ∧ 3 ≤ s.stage ∧ s.now % ms = 0 ∧ s.power.period ≤ s.now / ms ∧ s.power.sampled = none := by
  refine ⟨?_, ?_, ?_, ?_, ?_⟩ <;> decide +kernel

/-- Port 0 of a 4 × 1 × 1 torus in a state, and port 6 DISABLED. -/
def linked (st : Nat) : State := ((served.setFld F.FAB_DIMS_DX_M1 0 3).setFld F.FAB_PORT_STATE_STATE 0 st).setFld F.FAB_BYP_STATE_OPEN 0 7

theorem test_flit_forms : (linked 3).portLive 0 = true ∧ (((linked 3).heard 0 ⟨0, 0xFFF, false⟩).port 0).expect = 0 ∧
    (linked 2).portState 0 = 2 ∧ ((linked 2).heldWhy 0 1 1 (4, 1, 1)).1 = 0 := by
  refine ⟨?_, ?_, ?_, ?_⟩ <;> decide +kernel

theorem test_link_forms : let s := { linked 0 with now := 100 * ms }
    (linked 1).portState 0 = 1 ∧ (decide (5 ≤ (linked 1).stage) && decide (0 ≤ (linked 1).fld F.FAB_LINK_CFG_FULL_BUDGET 0)) = true ∧
    s.portState 0 = 0 ∧ s.portMay 0 = true ∧ (s.port 0).tried + 100 * ms ≤ s.now ∧ ((linked 3).port 0).timed = none ∧
    ((linked 3).port 0).buffer.length < 1023 ∧ ((linked 3).port 0).good + 2000 ≤ s.now ∧ (linked 0).reach 0 .FAB_PORT_CTL 0 = .go ∧
    (linked 0).flag F.FAB_PORT_CTL_DISABLE 0 = false ∧ ((linked 5).setFld F.FAB_PORT_CTL_DISABLE 0 1).reach 0 .FAB_PORT_CTL 0 = .go ∧
    ((linked 5).setFld F.FAB_PORT_CTL_DISABLE 0 1).flag F.FAB_PORT_CTL_DISABLE 0 = true := by
  refine ⟨?_, ?_, ?_, ?_, ?_, ?_, ?_, ?_, ?_, ?_, ?_, ?_⟩ <;> decide +kernel

/-- The time master is another device, no port leads to it, and the backup is a third. -/
def backed : State := { (served.setFld F.FAB_TIME_STATE_MASTER_NOW 0 5).setFld F.FAB_TIME_CFG_BACKUP 0 6 with now := 3 * sec }

theorem test_fabric_forms : backed.fld F.FAB_TIME_STATE_MASTER_NOW 0 ≠ backed.deviceId ∧
    (∀ p, backed.route 5 = some p → (backed.port p).time.elim (backed.port p).upAt (·.2) + ms ≤ backed.now) ∧
    backed.fld F.FAB_TIME_STATE_MASTER_NOW 0 ≠ backed.fld F.FAB_TIME_CFG_BACKUP 0 ∧ backed.fld F.FAB_PPS_TIME_TIME 0 + 2 * sec ≤ backed.now ∧
    served.reach 0 .FAB_BYP_CTL 0 = .go ∧ 4 ≤ served.stage := by
  refine ⟨?_, fun p _ => ?_, ?_, ?_, ?_, ?_⟩
  · decide +kernel
  · show 0 + ms ≤ 3 * sec
    decide
  all_goals decide +kernel

theorem test_stall_forms : let s : State := { ringed 5 with colls := [postedOp 5 0], now := 10 * sec }
    (s.colls.find? fun x => x.ctx == 0 && x.desc.tag == (postedOp 5 0).desc.tag && !x.stalled && decide (x.since + ms * s.fld F.FAB_COLL_CFG_STALL_MS 0 ≤ s.now)) =
      some (postedOp 5 0) ∧ (ringed 5).group? 0 0 = some ringGroup ∧ ringGroup.members.getD 1 0 ≠ 7 := by
  refine ⟨?_, ?_, ?_⟩ <;> decide +kernel

-- # Witnesses: outer rounds, the ledger, snapshots and the far side

/-- Round 0 of this device, formed. -/
def round0 (coded : Bool) : Round := ⟨0, 0, 4, 4, 2, 0, 0, 0, false, false, [1], [], coded, [⟨1, 0, [1, 2]⟩], [], 4, 0, false, true, [0], [], [], false, []⟩

/-- Context 0 of three sites takes part in outer rounds as site 0, whose ledger device this is; shard 1 is exchanged. -/
def rounding (x : Xch) : State :=
  let s := { stepping step0 [] with xch := [(0, x)], now := 100000 * sec }
  let s := (((s.setFld F.XCH_CFG_EN 0 1).setFld F.XCH_STATE_MODE 0 1).setFld F.XCH_CFG_H 0 4).setFld F.XCH_CFG_LAG 0 2
  let s := ((s.setFld F.XCH_CFG_SITES_M1 0 2).setFld F.XCH_CFG_WIDTH 0 4).setFld F.XCH_ROUND_LAST_FORMED 0 0
  (s.setFld F.XCH_ROUND_LAST_APPLIED 0 0xFFFFFFFF).setFld F.XCH_STORE_SIZE_IN_MIB 0 1
def rounds (coded : Bool) : Xch := { Xch.none with rounds := [round0 coded] }

/-- Site 1 is reached through gateway 7. -/
def gatewayed (x : Xch) : State := ((rounding x).setFld F.FAR_RTAB_BASE_ADDR 0 0x180).devBytes 0x6008 (leBytes 2 7 ++ leBytes 2 0xFFFF)

theorem test_enable_forms : let v := F.XCH_CFG_EN.put (F.XCH_CFG_WIDTH.put (F.XCH_CFG_H.put (F.XCH_CFG_LAG.put 0 2) 4) 4) 1
    let new := RegName.XCH_CFG.written .whole (F.XCH_CFG_EN.put (served.stagingValue .XCH_CFG 0) 0) v
    let t := (served.stageReg .XCH_CFG 0 .whole v).setFld F.XCH_CFG_ERR 0 0
    served.reach 0 .XCH_CFG 0 = .go ∧ served.flag F.XCH_CFG_EN 0 = false ∧ xchCfgOk new = true ∧ F.XCH_CFG_EN.of new = 1 ∧
      ((List.range 256).filter fun n => t.flag F.XCH_CFG_EN n).length < 4 := by
  refine ⟨?_, ?_, ?_, ?_, ?_⟩ <;> decide +kernel

theorem test_round_forms : let s := rounding (rounds false)
    ((s.xchOf 0).rounds.find? fun q => q.src == s.deviceId && !q.coded && s.xOn 0 && !s.flag F.HIF_STATUS_FATAL 0 &&
      (roundField (s.fld F.XCH_ROUND_LAST_FORMED 0)).any fun f => decide (q.round ≤ f)) = some (round0 false) ∧
    ((rounding (rounds true)).xchOf 0).round? 0 0 = some (round0 true) ∧ (round0 true).refused = false ∧
    ((rounding (rounds true)).otherSites 0).contains 1 = true ∧ (round0 true).sealedTo = [] ∧
    ((rounding (rounds true)).xchOf 0).waits 1 0 0 = false := by
  refine ⟨?_, ?_, rfl, ?_, rfl, ?_⟩ <;> decide +kernel

def waitingItem : OutItem := ⟨1, false, .msg 1 0 0xFFFF [0], none⟩
def seal1 : Seal := ⟨1, 3, 0, false, [], [⟨1, 0, 2, 0, 0⟩], 0, none⟩

theorem test_exchange_forms : let s := gatewayed { Xch.none with outQueue := [waitingItem] }
    let z := rounding { Xch.none with seals := [seal1] }
    s.firstFor 0 7 = some (0, waitingItem) ∧ NMap.getD (s.xchOf 0).credits 7 0 + 1 = waitingItem.item.segments ∧
    z.xOn 0 = true ∧ z.contribGone 0 1 0 false = false ∧ s.flag F.HIF_STATUS_FATAL 0 = false ∧
    ((z.xchOf 0).seals.find? fun z => z.site == 1 && z.src == 3 && z.round == 0) = some seal1 ∧
    seal1.came + ms * z.fld F.FAR_AXT_CFG_REFETCH_MS 0 ≤ z.now ∧
    (let mine := (z.ownExchanged 0).map (·.num)
     ((seal1.recs.filter fun q => mine.contains q.shard).flatMap fun q =>
        (runsOf (((z.xchOf 0).missing seal1 q).filter fun n => decide ((z.xchOf 0).tries 1 3 0 n < 2))).map fun p => (q.shard, p.1, p.2)) = [(1, 0, 2)]) := by
  refine ⟨?_, ?_, ?_, ?_, ?_, ?_, ?_, ?_⟩ <;> decide +kernel

/-- A REFETCH of one soredium that the device holds, and the same body as a GONE. -/
def refetchBody : List Byte := [0, 0, 0, 0] ++ List.replicate 12 0 ++ beBytes 4 1 ++ beBytes 4 0 ++ beBytes 4 1 ++ beBytes 4 0

theorem test_refetch_forms : let s := rounding (rounds true)
    let out := (((s.xchOf 0).round? (beAt refetchBody 8 8) (beAt refetchBody 2 2)).map (·.out)).getD []
    refetchRecs refetchBody = [(1, 0, 1)] ∧
    (∀ p ∈ (refetchRecs refetchBody).flatMap fun p => (List.range p.2.2).map fun i => (p.1, p.2.1 + i),
      (out.any fun y => y.shard == p.1 && y.seq == p.2) = true) := by
  refine ⟨?_, ?_⟩ <;> decide +kernel

def entry0 (prov : Bool) : Entry := ⟨0, 0, 0, 0, prov, 0, 0, [⟨0, 0, 0, 0, 4, 0⟩]⟩

theorem test_ledger_forms : let s := rounding (rounds true)
    s.xOn 0 = true ∧ s.isLedger 0 = true ∧ s.nextClose 0 = some (round0 true) ∧ s.closes 0 = true ∧
    (round0 true).time + ms * (s.roundCfg F.XCH_TIMING_DEADLINE_MS 0 0 + s.roundCfg F.XCH_TIMING_GRACE_MS 0 0) ≤ s.now ∧ s.xmode 0 = 1 ∧
    s.flag F.XCH_STATE_HOLDER 0 = false ∧ (s.setFld F.XCH_LEDGER_LEDGER_ID 0 9).isLedger 0 = false ∧
    (s.setFld F.XCH_LEDGER_LEDGER_ID 0 9).nextClose 0 = some (round0 true) ∧ readEntry (entry0 false).bytes = some (entry0 false) ∧
    readEntry (entry0 true).bytes = some (entry0 true) := by
  refine ⟨?_, ?_, ?_, ?_, ?_, ?_, ?_, ?_, ?_, ?_, ?_⟩ <;> decide +kernel

/-- The launch whose step 6 applies round 0, and the apply that waits since the start. -/
def applyRun : Launch := { stepRun with step := 6 }
def applying (x : Xch) : State := { rounding x with launches := [applyRun] }
def applyXch : Xch := { rounds true with waitSince := some 0, entries := [entry0 false] }
def wholeSnap : Snap := ⟨1, some 0, some (0, 0, [0]), none, [(0, [])], []⟩

theorem test_apply_forms : (applying applyXch).openingLaunch 0 = some applyRun ∧ (applying applyXch).appliedAt 0 6 = some 0 ∧
    (roundField ((applying applyXch).fld F.XCH_ROUND_LAST_APPLIED 0)).any (fun a => decide (0 ≤ a)) = false ∧ (applying applyXch).quiesce = false ∧
    (((applying applyXch).xchOf 0).entries.find? fun e => e.round == 0) = some (entry0 false) ∧
    (entry0 false).recs.all ((applying applyXch).haveContrib 0) = true ∧ ((applying applyXch).xchOf 0).holding 1 (applying applyXch).now = false ∧
    [wholeSnap].all Snap.whole = true ∧ (applying { applyXch with snapFor := some 3, snaps := [wholeSnap] }).appliedAt 0 6 = some 0 ∧
    (applying applyXch).ckptDue = [] := by
  refine ⟨?_, ?_, ?_, ?_, ?_, ?_, ?_, ?_, ?_, rfl⟩ <;> decide +kernel

/-- A SNAP_REQ of shard 1 for its manifest, or for its first chunk as the last attempt. -/
def snapReq (k : Nat) : List Byte := beBytes 4 1 ++ beBytes 4 k ++ beBytes 4 1 ++ beBytes 4 0
def joining : Snap := ⟨1, some 0, some (5, 0, [crc64 [1, 2]]), none, [], []⟩
def chunkBody : List Byte := beBytes 4 1 ++ beBytes 4 0 ++ beBytes 4 0 ++ beBytes 4 0 ++ [1, 2]

theorem test_snap_forms : let s := rounding (rounds true)
    (s.myExchanged 0).find? (fun h => h.num == beAt (snapReq 0) 0 4) = some shard1 ∧ beAt (snapReq 0xFFFFFFFF) 4 4 = 0xFFFFFFFF ∧
    beAt (snapReq 0) 4 4 < shard1.chunks ∧ beAt (snapReq 0) 8 4 = 1 ∧
    ([{ joining with round := none }].any fun y => y.shard == beAt (snapReq 0) 0 4 && y.round.isNone) = true ∧
    ([joining].find? fun y => y.shard == beAt chunkBody 0 4) = some joining ∧ beAt chunkBody 4 4 = 0 ∧ beAt chunkBody 8 4 < [crc64 [1, 2]].length ∧
    crc64 (chunkBody.drop 16) = [crc64 [1, 2]].getD (beAt chunkBody 8 4) 0 := by
  refine ⟨?_, ?_, ?_, ?_, ?_, ?_, ?_, ?_, ?_⟩ <;> decide +kernel

theorem test_token_forms : let s := rounding (rounds true)
    let off := (s.setFld F.XCH_STATE_MODE 0 0).setFld F.XCH_ROUND_LAST_APPLIED 0 0
    s.reach 0 .XCH_CMD 0 = .go ∧ s.flag F.XCH_CFG_EN 0 = true ∧ (s.setFld F.XCH_STATE_HOLDER 0 1).flag F.XCH_STATE_HOLDER 0 = true ∧
    s.xmode 0 = 1 ∧ (s.setFld F.XCH_STATE_HOLDER 0 1).isLedger 0 = true ∧ s.fld F.XCH_STATE_EPOCH 0 + 1 < 2 ^ F.XCH_STATE_EPOCH.width ∧
    off.xmode 0 = 0 ∧ off.fld F.XCH_ROUND_LAST_FORMED 0 = off.fld F.XCH_ROUND_LAST_APPLIED 0 := by
  refine ⟨?_, ?_, ?_, ?_, ?_, ?_, ?_, ?_⟩ <;> decide +kernel

/-- A port's key, and path 0 of context 0: site 1, gateway 7, port 0, key slot 5. -/
def farKey : List Byte := List.replicate 32 1
def pathBytes : List Byte := [1, 1, 7, 0, 0, 0, 10, 0] ++ [2, 0, 0, 0, 0, 9, 0, 0] ++ List.replicate 12 0 ++ [10, 0, 0, 9, 5, 0, 255, 255] ++ List.replicate 24 0
def path0 : PathEntry := ⟨1, 1, 7, 0, 0, 10, [2, 0, 0, 0, 0, 9], List.replicate 12 0 ++ [10, 0, 0, 9], 5, 0xFFFF, true⟩
def seg0 (lost : Bool) : Seg := ⟨1, 3, false, 0, none, [0], 0, 0, lost⟩
def item0 : GateItem := ⟨1, 0, false, 3, none, [0]⟩

/-- Far port 0 is up at 10.0.0.1, with its path's entry and its forward table (shard 0 to device 0, mirrored nowhere). -/
def farBase : State :=
  let s := { rounding Xch.none with keys := [(5, ⟨1, 0, 1, farKey⟩)] }
  let s := (((s.setFld F.FAR_PATH_BASE_ADDR 0 0x1C0).setFld F.FAR_PATH_COUNT_COUNT 0 1).setFld F.FAR_PORT_STATE_UP 0 1).setFld F.FAR_PORT_MAC_MAC 0 0x020000000001
  let s := ((s.setFld F.FAR_PORT_ADDR_LO_ADDR 0 0x0A000001).setFld F.FAR_FWD_BASE_ADDR 0 0x1D0).setFld F.FAR_FWD_COUNT_COUNT 0 1
  let s := (s.setFld F.FAR_PORT_BUF_BASE 0 8).setFld F.FAR_PORT_CFG_IPV6 0 0
  (s.devBytes 0x7000 (pathBytes ++ leBytes 4 (crc32c pathBytes))).devBytes 0x7400 (leBytes 4 0 ++ leBytes 2 0 ++ leBytes 2 0xFFFF)

/-- The same with what the path and the gate hold. -/
def far (p : Path) (g : Gate) : State := { farBase with paths := [(0, p)], gates := [(0, g)] }
def downPath : Path := { Path.fresh with ends := path0.endsAt }
def upPath : Path := { downPath with up := true, rate := 1 }
def farUp (l : List Seg) : State := far { upPath with segs := l } Gate.none

/-- The paths of these states follow their entry, whatever the path and the gate hold. -/
theorem far_watched (p : Path) (g : Gate) (h : p.ends = path0.endsAt) : (far p g).watchPath 0 0 = far p g :=
  watchPath_same (e := path0) (p := p)
    ((pathOn?_gates farBase _ _ 0 0).trans (by decide +kernel)) rfl h

theorem test_send_forms : let s := far upPath { Gate.none with queue := [item0] }
    s.pathOn? 0 0 = some path0 ∧ upPath.paceAt ≤ s.now ∧ [seg0 true].find? (·.lost) = some (seg0 true) ∧
    ((farUp [seg0 true]).transmit 0 0 path0 3 1 1 [0]).isSome = true ∧ s.nextItem 0 0 = some (0, item0) ∧ s.fits path0 1 = true ∧
    0 + 1000 * s.fld F.FAR_AXT_CFG_ACK_US 0 ≤ s.now ∧ (s.transmit 0 0 path0 2 0 0 (upPath.ackPayload s.now)).isSome = true := by
  refine ⟨?_, ?_, rfl, ?_, ?_, ?_, ?_, ?_⟩ <;> decide +kernel

theorem test_timer_forms : let s := far downPath Gate.none
    (seg0 false).sentAt + upPath.timeout < s.now ∧ downPath.probed + 100 * ms ≤ s.now ∧ (s.transmit 0 0 path0 4 4 0 []).isSome = true ∧
    0 + ms * s.fld F.FAR_AXT_CFG_DEAD_MS 0 ≤ s.now ∧ upPath.interval + max 1000000 upPath.srtt ≤ s.now ∧
    { upPath with loss := true }.loss = true ∧ (farUp [seg0 false]).dropsSeg 0 (seg0 false) = true := by
  refine ⟨?_, ?_, ?_, ?_, ?_, rfl, ?_⟩ <;> decide +kernel

def assembly0 : Assembly := ⟨1, 7, 3, 0, 1, 0, 0, 2, 0, [], (0, 0)⟩

theorem test_port_forms : let s := far upPath { Gate.none with asm := [assembly0] }
    let v := F.FAR_PORT_CFG_EN.put 0 1
    let t := s.setReg .FAR_PORT_CFG 0 (RegName.FAR_PORT_CFG.written .whole (s.reg .FAR_PORT_CFG 0) v)
    let w := F.FAR_PATH_SEL_OP.put (F.FAR_PATH_SEL_CTX.put (F.FAR_PATH_SEL_PATH.put 0#64 0) 0) 1
    ({ s with began := [(2 ^ 32 * 30, 0)] } : State).beganAt 30 0 = some 0 ∧ s.reach 0 .FAR_PORT_CFG 0 = .go ∧ s.fld F.FAR_PORT_CFG_EN 0 = 0 ∧
    6 ≤ s.stage ∧ s.fld F.SEC_STATE_BOOTS 0 ≠ 0xFFFF ∧ t.fld F.FAR_PORT_CFG_EN 0 = 1 ∧ t.bufPlaced 0 = true ∧
    (s.setFld F.FAR_PORT_CFG_EN 1 1).flag F.FAR_PORT_CFG_EN 1 = true ∧ s.fld F.FAR_PORT_CFG_ERR 1 = 0 ∧ s.portUp 1 = false ∧
    (s.setFld F.FAR_PORT_BUF_BASE 1 16).bufPlaced 1 = true ∧ (s.setFld F.FAR_PORT_BUF_BASE 1 0xFFF).bufPlaced 1 = false ∧
    s.reach 0 .FAR_PATH_SEL 0 = .go ∧
    ((s.setReg .FAR_PATH_SEL 0 (RegName.FAR_PATH_SEL.written .whole (s.reg .FAR_PATH_SEL 0) w)).pathOn? 0 0).isSome = true ∧
    ((s.gate 0).asm.find? fun a => a.site == 1 && a.gw == 7 && a.id == 3) = some assembly0 ∧
    assembly0.since + sec * s.fld F.FAR_AXT_CFG_MSG_TTL_S 0 ≤ s.now := by
  refine ⟨?_, ?_, ?_, ?_, ?_, ?_, ?_, ?_, ?_, ?_, ?_, ?_, ?_, ?_, ?_, ?_⟩ <;> decide +kernel

/-- The path that a write selects follows its entry. -/
theorem test_switch_watched : let s := far upPath Gate.none
    let t := s.setReg .FAR_PATH_SEL 0 (RegName.FAR_PATH_SEL.written .whole (s.reg .FAR_PATH_SEL 0)
      (F.FAR_PATH_SEL_OP.put (F.FAR_PATH_SEL_CTX.put (F.FAR_PATH_SEL_PATH.put 0#64 0) 0) 1))
    t.watchPath 0 0 = t :=
  watchPath_same (e := path0) (p := upPath) (by decide +kernel) rfl rfl

/-- A gate whose first item, for site 1, is longer than a buffer: the buffer of the path's port holds no room for it. -/
theorem full_of_long (b : State) (pl : List Byte) (h : 2 ^ 35 ≤ pl.length)
    (h0 : ({ b with paths := [(0, upPath)] } : State).pathFor 0 1 0 = some (0, path0)) (h1 : 0 ∈ b.farCtxs) (h2 : (0, path0) ∈ b.pathsOn 0) :
    ({ b with paths := [(0, upPath)], gates := [(0, { Gate.none with queue := [{ item0 with payload := pl }] })] } : State).bufFull 0 = true := by
  generalize hs : ({ b with paths := [(0, upPath)], gates := [(0, { Gate.none with queue := [{ item0 with payload := pl }] })] } : State) = s
  have hq : s.pathFor 0 1 0 = some (0, path0) := by rw [← hs]; exact h0
  have hn : s.nextItem 0 0 = some (0, { item0 with payload := pl }) := by
    have hg : (s.gate 0).queue = [{ item0 with payload := pl }] := by rw [← hs]; rfl
    have hx : item0.site = 1 ∧ item0.dev = 0 := ⟨rfl, rfl⟩
    simp [State.nextItem, hg, List.findIdx?_cons, hx.1, hx.2, hq]
  have hf : s.fits path0 pl.length = false := by
    have hl (n : Nat) : s.frameLen path0 n = s.frameLen path0 0 + n := by simp only [State.frameLen]; omega
    simp only [State.fits, decide_eq_false_iff_not, ceilDiv, bufSize, hl pl.length]
    omega
  refine List.any_eq_true.mpr ⟨0, by rw [← hs]; exact h1, List.any_eq_true.mpr ⟨(0, path0), by rw [← hs]; exact h2, ?_⟩⟩
  show (path0.port == 0 && (s.nextItem 0 0).any fun k => !s.fits path0 k.2.payload.length) = true
  rw [hn]
  show (path0.port == 0 && !s.fits path0 pl.length) = true
  rw [hf]
  rfl

theorem test_full_forms (pl : List Byte) (h : 2 ^ 35 ≤ pl.length) :
    (far upPath { Gate.none with queue := [{ item0 with payload := pl }] }).bufFull 0 = true :=
  full_of_long farBase pl h (by decide +kernel) (by decide +kernel) (by decide +kernel)

-- # Witnesses: segments that arrive

theorem sum16_le : ∀ bs : List Byte, sum16 bs ≤ 65535 * bs.length
  | [] => by simp [sum16]
  | [a] => by have := a.isLt; simp [sum16]; omega
  | a :: b :: rest => by
    have := sum16_le rest
    have := a.isLt
    have := b.isLt
    simp only [sum16, List.length_cons]
    omega

/-- The Internet checksum of a sum makes it check. -/
theorem inetSum_checks (n : Nat) (h : n < 2 ^ 32) (hn : 0 < n) : inetSum (n + (if inetSum n = 0 then 0xFFFF else inetSum n)) = 0 := by
  have key (r : Nat) (hr : r = (n % 65536 + n / 65536) % 65536 + (n % 65536 + n / 65536) / 65536) :
      inetSum (n + (if 65535 - (r % 65536 + r / 65536) = 0 then 0xFFFF else 65535 - (r % 65536 + r / 65536))) = 0 := by
    have : r ≤ 65536 ∧ r % 65535 = n % 65535 ∧ 0 < r := by omega
    generalize hc : (if 65535 - (r % 65536 + r / 65536) = 0 then 0xFFFF else 65535 - (r % 65536 + r / 65536)) = c
    have : c ≤ 65535 ∧ (n + c) % 65535 = 0 := by split at hc <;> omega
    simp only [inetSum]
    generalize hm : n + c = m
    omega
  exact key _ rfl

/-- The far port at rest, and a segment of a type for its path, without payload. -/
def farRest : State := far upPath Gate.none
def segAt (typ : Nat) : List Byte :=
  let head := segHeader typ (if typ = 4 then 4 else 0) 1 0 7 0 0 0 (if typ = 1 ∨ typ = 3 then 1 else 0) 1 0 9
  head ++ gcmTagOf farKey (segIv 7 1 0 9) head []

/-- The frame of such a segment on its way to the port. -/
def datagram (c : Nat) (seg : List Byte) : List Byte := beBytes 2 0xC001 ++ beBytes 2 (farRest.fld F.FAR_NET_CFG_UDP_PORT 0) ++ beBytes 2 56 ++ beBytes 2 c ++ seg
def sumOf (seg : List Byte) : Nat := pseudoSum [10, 0, 0, 9] [10, 0, 0, 1] 56 + sum16 (datagram 0 seg)
def ipHead (c : Nat) : List Byte := [0x45, 2, 0, 76, 0, 0, 0x40, 0, 64, 17] ++ beBytes 2 c ++ [10, 0, 0, 9, 10, 0, 0, 1]
def packet (seg : List Byte) : List Byte :=
  ipHead (inetSum (sum16 (ipHead 0))) ++ datagram (if inetSum (sumOf seg) = 0 then 0xFFFF else inetSum (sumOf seg)) seg
def wired (seg : List Byte) : List Byte := [2, 0, 0, 0, 0, 1, 2, 0, 0, 0, 0, 9, 8, 0] ++ packet seg
def frameTo (seg : List Byte) : List Byte := wired seg ++ fcsOf (wired seg)

theorem be2 (c : Nat) : beBytes 2 c = [BitVec.ofNat 8 (c / 256), BitVec.ofNat 8 c] := rfl

theorem datagram_eq (c : Nat) (seg : List Byte) : datagram c seg =
    BitVec.ofNat 8 (0xC001 / 256) :: BitVec.ofNat 8 0xC001 :: BitVec.ofNat 8 (farRest.fld F.FAR_NET_CFG_UDP_PORT 0 / 256) ::
    BitVec.ofNat 8 (farRest.fld F.FAR_NET_CFG_UDP_PORT 0) :: BitVec.ofNat 8 (56 / 256) :: BitVec.ofNat 8 56 ::
    BitVec.ofNat 8 (c / 256) :: BitVec.ofNat 8 c :: seg := rfl

/-- The checksum stands in its field. -/
theorem datagram_sum (c : Nat) (hc : c < 65536) (seg : List Byte) : sum16 (datagram c seg) = sum16 (datagram 0 seg) + c := by
  simp only [datagram_eq, sum16, BitVec.toNat_ofNat]
  omega

theorem datagram_checks (seg : List Byte) (h : seg.length = 48) (c : Nat)
    (hc : c = if inetSum (sumOf seg) = 0 then 0xFFFF else inetSum (sumOf seg)) :
    inetSum (pseudoSum [10, 0, 0, 9] [10, 0, 0, 1] 56 + sum16 (datagram c seg)) = 0 := by
  have hb := sum16_le (datagram 0 seg)
  have hl : (datagram 0 seg).length = 56 := by simp [datagram_eq, h]
  have hp : pseudoSum [10, 0, 0, 9] [10, 0, 0, 1] 56 = 5203 := by decide +kernel
  have hi : inetSum (sumOf seg) ≤ 65535 := Nat.sub_le ..
  rw [datagram_sum c (by split at hc <;> omega), ← Nat.add_assoc, hc]
  exact inetSum_checks _ (by rw [hp]; omega) (by rw [hp]; omega)

theorem frame_arrives (seg : List Byte) (h : seg.length = 48) : farRest.rxFrame 0 (frameTo seg) = some ⟨seg, false, 0⟩ := by
  have hp : (packet seg).length = 76 := by simp [packet, ipHead, datagram_eq, be2, h]
  have hl : (wired seg).length = 90 := by simp [wired, hp]
  have hf : (fcsOf (wired seg)).length = 4 := by simp [fcsOf, leBytes]
  have hn : (frameTo seg).length = 94 := by simp [frameTo, hl, hf]
  have ht : (frameTo seg).take 90 = wired seg := by rw [frameTo, List.take_left' hl]
  have hd : (frameTo seg).drop 90 = fcsOf (wired seg) := by rw [frameTo, List.drop_left' hl]
  have e0 : beAt (frameTo seg) 0 6 = 0x020000000001 := rfl
  have e12 : beAt (frameTo seg) 12 2 = 0x0800 := rfl
  have m : farRest.fld F.FAR_PORT_MAC_MAC 0 = 0x020000000001 := by decide +kernel
  have v : farRest.flag F.FAR_PORT_CFG_VLAN 0 = false := by decide +kernel
  have w : farRest.flag F.FAR_PORT_CFG_IPV6 0 = false := by decide +kernel
  have hi : farRest.ipData 0 (packet seg) = some (seg, 2) := by
    have a : farRest.portAddr 0 = List.replicate 12 0 ++ [10, 0, 0, 1] := by decide +kernel
    have b0 : beAt (packet seg) 0 1 = 0x45 := rfl
    have b1 : beAt (packet seg) 1 1 = 2 := rfl
    have b2 : beAt (packet seg) 2 2 = 76 := rfl
    have b6 : beAt (packet seg) 6 2 = 0x4000 := rfl
    have b9 : beAt (packet seg) 9 1 = 17 := rfl
    have bs : ((packet seg).drop 12).take 4 = [10, 0, 0, 9] := rfl
    have bd : ((packet seg).drop 16).take 4 = [10, 0, 0, 1] := rfl
    have bh : inetSum (sum16 ((packet seg).take 20)) = 0 := by
      have hl (c : Nat) : (ipHead c).length = 20 := rfl
      rw [packet, List.take_left' (hl _)]; decide +kernel
    have bu : ((packet seg).take 76).drop 20 =
        datagram (if inetSum (sumOf seg) = 0 then 0xFFFF else inetSum (sumOf seg)) seg := by
      rw [List.take_of_length_le (by omega)]; rfl
    simp [State.ipData, w, a, b0, b1, b2, b6, b9, bs, bd, bh, bu, hp]
    generalize hc : (if inetSum (sumOf seg) = 0 then 0xFFFF else inetSum (sumOf seg)) = c
    have k := datagram_checks seg h c hc.symm
    have c4 : beAt (datagram c seg) 4 2 = 56 := rfl
    have c2 : beAt (datagram c seg) 2 2 = farRest.fld F.FAR_NET_CFG_UDP_PORT 0 :=
      (show beAt (datagram c seg) 2 2 = beAt (datagram 0 []) 2 2 from rfl).trans (by decide +kernel)
    have hi : inetSum (sumOf seg) ≤ 65535 := Nat.sub_le ..
    have c6 : beAt (datagram c seg) 6 2 = c := by
      show (BitVec.ofNat 8 c).toNat + 256 * ((BitVec.ofNat 8 (c / 256)).toNat + 256 * 0) = c
      simp only [BitVec.toNat_ofNat]
      split at hc <;> omega
    refine ⟨⟨by rw [c4]; omega, by rw [c4]; simp [datagram_eq, h], c2, by rw [c6]; split at hc <;> omega, by rw [c4]; exact k⟩, rfl⟩
  have hw : (wired seg).drop 14 = packet seg := rfl
  have hz : (packet seg).length - beAt (packet seg) 2 2 = 0 := by rw [hp]; rfl
  simp [State.rxFrame, hn, ht, hd, e0, e12, m, v, w, hw, hi, hz]

theorem open_empty (key iv aad : List Byte) : gcmOpen key iv aad (gcmTagOf key iv aad []) = some [] := by
  have h : (gcmTagOf key iv aad []).length = 16 := rfl
  simp [gcmOpen, h, gcmMask]

def headAt (typ : Nat) : SegHead := ⟨typ, if typ = 4 then 4 else 0, 1, 0, 7, 0, 0, 0, if typ = 1 ∨ typ = 3 then 1 else 0, 1, 0, 9, 1⟩

/-- A segment of each of the four types passes every check, and its payload is empty. -/
theorem test_receive_forms : ∀ typ ∈ [1, 2, 3, 4], farRest.takesSegment 0 typ (frameTo (segAt typ)) 0 0 path0 ⟨segAt typ, false, 0⟩ [] := by
  have hk : farRest.pathKey path0 false = some farKey := by decide +kernel
  have hr : ∀ typ ∈ [1, 2, 3, 4], farRest.rxPath 0 (headAt typ) = some (0, 0, path0) ∧ (headAt typ).phase = false ∧
      farRest.segOk (headAt typ) 48 = true ∧ (headAt typ).typ = typ := by decide +kernel
  have hs : ∀ typ ∈ [1, 2, 3, 4], segHead (segAt typ) = headAt typ ∧ openSegment farKey (headAt typ) (segAt typ) = some [] := by
    intro typ ht
    simp only [List.mem_cons, List.not_mem_nil, or_false] at ht
    rcases ht with rfl | rfl | rfl | rfl
    · exact ⟨rfl, congrArg (Option.map fun _ => []) (open_empty _ _ _)⟩
    all_goals exact ⟨rfl, open_empty _ _ _⟩
  intro typ ht
  obtain ⟨h1, h2⟩ := hs typ ht
  obtain ⟨r1, r2, r3, r4⟩ := hr typ ht
  refine ⟨by decide +kernel, frame_arrives _ rfl, ?_⟩
  show (segHead (segAt typ)).typ = typ ∧ farRest.rxPath 0 (segHead (segAt typ)) = some (0, 0, path0) ∧
    ((farRest.pathKey path0 (segHead (segAt typ)).phase).bind fun k => openSegment k (segHead (segAt typ)) (segAt typ)) = some [] ∧
    farRest.segOk (segHead (segAt typ)) 48 = true ∧ farRest.watchPath 0 0 = farRest
  rw [h1, r2, hk]
  exact ⟨r4, r1, h2, r3, far_watched _ _ rfl⟩

/-- What such a segment meets at its path: its number is new there, and shard 0 is forwarded. -/
theorem test_deliver_forms : (Path.close upPath 1).takes 1 ∧ farRest.forwardOf 0 (soredHead []).shard = some (0, 0xFFFF) ∧
    (farRest.closedBy 0 0 ⟨segAt 1, false, 0⟩).path 0 0 = Path.close upPath 1 := by
  refine ⟨⟨by decide +kernel, by decide +kernel⟩, by decide +kernel, ?_⟩
  show (farRest.modPath 0 0 fun p => p.close (segHead (segAt 1)).floor).path 0 0 = _
  rw [show segHead (segAt 1) = headAt 1 from rfl]
  decide +kernel

theorem test_discard_forms : farRest.portUp 0 = true ∧ farRest.rxFrame 0 [] = none := by
  refine ⟨?_, ?_⟩ <;> decide +kernel

/-- A soredium of four symbols of shard 1 in the clear: its header and its sections with the CRC. -/
def clearHead : List Byte := [17, 4, 1, 1, 0, 3, 0, 6, 0, 0, 0, 0, 0, 0, 0, 0, 0, 0, 0, 1, 0, 0, 0, 0, 0, 0, 0, 0, 0, 0, 0, 0, 0, 0, 0, 4, 0, 1, 0, 16]
def clearRest : List Byte :=
  [0x18, 0, 0, 3, 0, 0, 0x80, 0, 0x40, 1, 0, 0, 0x60, 4, 0, 0, 0x40, 1, 0, 0, 0x40, 1, 0, 0xCB, 0xB7, 0x8C, 0x8C]
def sealedSored : List Byte := clearHead ++ gcmSeal farKey (soredIv 1 3 0 0) clearHead clearRest
def receiving : State :=
  ((({ rounding Xch.none with keys := [(5, ⟨2, 0, 1, farKey⟩)] } : State).setFld F.CIP_PAGE_CFG_EN 0 1).setFld F.CIP_PAGE_CFG_SLOT_A 0 5)

theorem sored_opens : gcmOpen farKey (soredIv 1 3 0 0) (sealedSored.take 40) (sealedSored.drop 40) = some clearRest := by
  have hc : clearHead.length = 40 := rfl
  have ht : sealedSored.take 40 = clearHead := by rw [sealedSored, List.take_left' hc]
  have hd : sealedSored.drop 40 = gcmSeal farKey (soredIv 1 3 0 0) clearHead clearRest := by rw [sealedSored, List.drop_left' hc]
  have hm (l : List Byte) : gcmMask farKey (soredIv 1 3 0 0) (gcmMask farKey (soredIv 1 3 0 0) l) = l := by
    apply List.ext_getElem <;> simp [gcmMask]
  have hl : (gcmTagOf farKey (soredIv 1 3 0 0) clearHead (gcmMask farKey (soredIv 1 3 0 0) clearRest)).length = 16 := rfl
  rw [ht, hd]
  simp [gcmOpen, gcmSeal, hl, hm]

theorem test_sored_forms : soredHead sealedSored = ⟨4, 1, 1, 3, 0, 1, 0, 0, 0, 4⟩ ∧ receiving.xOn 0 = true ∧ receiving.contribGone 0 1 0 false = false ∧
    (receiving.xchOf 0).holds 1 3 0 0 1 = none ∧ (receiving.xchOf 0).tries 1 3 0 0 < 2 ∧ receiving.pageKey 0 0 = some ⟨2, 0, 1, farKey⟩ ∧
    (receiving.ownExchanged 0).find? (fun y => y.num == 1) = some shard1 ∧
    (readSored (clearHead ++ clearRest) 4).map (·.syms) = some [3, 4, 3, 3] ∧
    (receiving.xchOf 0).inBytes + (clearHead ++ clearRest).length ≤ 1048576 * receiving.fld F.XCH_STORE_SIZE_IN_MIB 0 := by
  refine ⟨rfl, ?_, ?_, ?_, ?_, ?_, ?_, ?_, ?_⟩ <;> decide +kernel

-- # Witnesses: the twin, the mailboxes, the firmware and security

/-- A device of a pair in a state, with MIR up, its shard 1 owned by itself. -/
def paired (st : Nat) : State :=
  ((({ stepping step0 [] with now := 100 * sec }.setFld F.PAIR_CFG_EN 0 1).setFld F.PAIR_STATE_STATE 0 st).setFld F.PAIR_STATE_MIR_RATE 0 2)

/-- Shard 1 as a mirror of device 5 holds it. -/
def mirrored : State := (paired 4).devBytes 0x2014 (leBytes 2 5 ++ leBytes 2 0)
def shard1m : Shard := { shard1 with owner := 5, twin := 0 }

theorem test_pair_forms : (paired 0).pairLive = true ∧ (paired 0).fld F.PAIR_STATE_MIR_RATE 0 ≠ 0 ∧ (paired 0).beganAt helloTimer 0 = none ∧
    (paired 0).pairState = 0 ∧ (paired 0).pair.late = false ∧ (paired 0).fld F.BOOT_STAGE_T_TIME 6 + 60 * sec ≤ (paired 0).now ∧
    (paired 2).pairBeats = true ∧ (paired 2).beganAt beatTimer 0 = none ∧ (paired 2).fld F.PAIR_LAST_HB_TIME 0 + 20000 ≤ (paired 2).now ∧
    (paired 2).quiesce = false ∧ mirrored.pairState = 4 ∧ mirrored.pairBeats = true := by
  refine ⟨?_, ?_, ?_, ?_, ?_, ?_, ?_, ?_, ?_, ?_, ?_, ?_⟩ <;> decide +kernel

theorem test_twin_forms : mirrored.fromTwin.shard? 0 1 = some shard1m ∧ mirrored.fromTwin.mirrors shard1m = true ∧ 0 < shard1m.digestBlocks ∧
    (mirrored.fromTwin.blockBytes shard1m 0).length ≠ 0 ∧
    (paired 1).reach 0 .PAIR_CTL 0 = .go ∧ (paired 1).pairState = 1 ∧ (paired 4).pair.receiver = false ∧ (paired 4).allCopied = true ∧
    (paired 2).fld F.PAIR_CFG_POS 0 = 0 ∧ ((paired 2).setFld F.PAIR_STATE_DRIVING 0 1).flag F.PAIR_STATE_DRIVING 0 = true := by
  refine ⟨?_, ?_, ?_, ?_, ?_, ?_, ?_, ?_, ?_, ?_⟩ <;> decide +kernel

/-- A request of function 0: its header with id and body length, its token, its body. -/
def request (id : Nat) (body : List Byte) : List Byte :=
  List.replicate 6 0 ++ leBytes 2 id ++ List.replicate 4 0 ++ leBytes 4 (40 + body.length) ++ List.replicate 16 0 ++ leBytes 8 77 ++ body
def posting (s : State) (id : Nat) (body : List Byte) : State := ({ s with serving := [(0, request id body)] }.setFld F.MBX_STATUS_BUSY 0 1)
def session (driver : Nat) : State := ({ served with now := 100 * sec }.setFld F.HIF_STATUS_DRIVER 0 driver).modSession fun x => { x with token := some 77, orphan := 60 }

theorem test_message_forms : ∀ x ∈ [(0x0001, 3, leBytes 4 0), (0x0002, 3, leBytes 4 0), (0x0022, 3, leBytes 4 0), (0x0010, 3, leBytes 8 0), (0x0011, 3, leBytes 8 0),
      (0x0012, 3, leBytes 8 10), (0x0020, 3, leBytes 8 4096 ++ leBytes 8 1000), (0x0021, 6, leBytes 8 0), (0x0030, 3, leBytes 4 3 ++ leBytes 4 6)],
    let s := posting (session 0) x.1 x.2.2
    s.mbxBusy 0 = true ∧ s.headField 0 6 2 = x.1 ∧ x.2.1 ≤ s.stage ∧ s.headBad 0 = none ∧ s.restarting = false ∧ s.secure.scanned = false ∧
    s.tokenGood 0 = true ∧ s.driver = 0 := by decide +kernel

theorem test_request_forms : (posting (session 0) 0x0010 (leBytes 8 1)).reservedBad 0 41 7 = none ∧
    (posting (session 0) 0x0012 (leBytes 8 10)).reservedBad 0 44 4 = none ∧
    (posting (session 0) 0x0020 (leBytes 8 4096 ++ leBytes 8 1)).reservedBad 0 52 4 = none ∧
    (posting (session 0) 0x0010 (leBytes 8 1)).reqField 0 40 4 = 1 ∧ (posting (session 1) 0x0010 (leBytes 8 1)).driver = 1 ∧
    (posting (session 2) 0x0010 (leBytes 8 1)).driver = 2 ∧ (posting (session 2) 0x0010 (leBytes 8 1)).tokenGood 0 = true ∧
    (posting ((session 0).modSession fun x => { x with token := none }) 0x0010 (leBytes 8 1)).tokenGood 0 = false ∧
    (posting (session 0) 0x0012 (leBytes 8 10)).reqField 0 40 4 = 10 ∧ (posting (session 0) 0x0012 (leBytes 8 86400)).reqField 0 40 4 = 86400 ∧
    (posting (session 0) 0x0020 (leBytes 8 4096 ++ leBytes 8 1)).reqField 0 48 4 = 1 ∧ (session 0).firmware.staging = none ∧
    (session 0).firmware.act = none ∧ (session 0).firmware.diag = none ∧
    ((posting ((session 0).writeDirectory ⟨0, 3, 2⟩) 0x0021 (leBytes 8 1)).activatable 1) = true ∧
    ((posting (session 0) 0x0030 (leBytes 4 4 ++ leBytes 4 11)).setFld F.QUE_CTX_CFG_EN 0 0).anyCtxOn = false := by
  refine ⟨?_, ?_, ?_, ?_, ?_, ?_, ?_, ?_, ?_, ?_, ?_, rfl, rfl, rfl, ?_, ?_⟩ <;> decide +kernel

def act0 (step : Nat) : Activation := ⟨1, 600, 10000, 0, step, 0, 99 * sec, 0, 0⟩
def activating (step : Nat) : State := (session 0).setAct (some (act0 step))

theorem test_firmware_forms : (activating 1).firmware.act = some (act0 1) ∧ (activating 1).causes = 0 ∧ (activating 1).beganAt clearTimer 0 = none ∧
    (activating 2).quiet = true ∧ (act0 2).quiesced + (act0 2).wait ≤ (activating 2).now ∧ (act0 1).accepted + (act0 1).maxDefer ≤ (activating 1).now ∧
    (activating 5).now ≤ (act0 5).released + 3 * sec / 2 ∧ (act0 5).released + sec ≤ (activating 5).now ∧
    (session 0).firmware.session.token.isSome = true ∧ (session 0).firmware.session.beat + 2 * sec < (session 0).now ∧
    (session 2).firmware.session.held + sec * (session 2).firmware.session.orphan ≤ (session 2).now ∧ (session 0).bmcServed = true := by
  refine ⟨rfl, ?_, ?_, ?_, ?_, ?_, ?_, ?_, rfl, ?_, ?_, ?_⟩ <;> decide +kernel

def spdm0 (phase : Nat) (l : List (Nat × Bool)) : State := served.modSpdm fun _ => ⟨phase, l⟩

theorem test_spdm_forms : (spdm0 3 [(0, false), (1, true)]).spdmOn = true ∧ (spdm0 3 [(0, false), (1, true)]).secure.spdm.phase = 3 ∧
    ((List.range 5).find? fun k => !([(0, false), (1, true)] : List (Nat × Bool)).any fun x => x.1 == k) = some 2 ∧
    (spdm0 3 [(0, false), (1, true)]).spdmSession 0 false = true ∧ (spdm0 3 [(0, false), (1, true)]).spdmSession 1 true = true ∧
    served.inReset = false ∧ served.secure.insecure = [] ∧ served.keyIn 4032 3 0 = none := by
  refine ⟨?_, rfl, ?_, ?_, ?_, ?_, rfl, ?_⟩ <;> decide +kernel

/-- A TLP of stream 0 without bytes, under the key of its set. -/
def tlpState : State := { served with keys := [(4032, ⟨3, 0, 0, farKey⟩)] }

theorem test_tlp_forms (iv aad : List Byte) : tlpState.keyIn 4032 3 0 = some ⟨3, 0, 0, farKey⟩ ∧
    gcmOpen farKey iv aad (gcmTagOf farKey iv aad []) = some [] := ⟨by decide +kernel, open_empty farKey iv aad⟩

def keyed : State := (served.modSecure fun x => { x with keyDue := some (7, some ⟨1, 0, 0, farKey⟩), scopes := [(2, 50)] }).setFld F.SEC_FA_STATE_PENDING 0 1

theorem test_key_forms : served.reach 0 .SEC_KEY_CMD 0 = .go ∧ served.flag F.SEC_KEY_STATUS_BUSY 0 = false ∧
    served.checkBlob (served.spaceRead (served.fld F.SEC_KEY_ADDR_SPACE 0) (served.fld F.SEC_KEY_ADDR_ADDR 0 * 64) 160) = .error 1 ∧
    keyed.secure.keyDue = some (7, some ⟨1, 0, 0, farKey⟩) ∧ served.reach 0 .SEC_FA_CTL 0 = .go ∧ served.flag F.SEC_FA_STATE_LOCKED 0 = false ∧
    keyed.flag F.SEC_FA_STATE_PENDING 0 = true ∧ keyed.now < keyed.secure.drawn + 60 * sec ∧
    (keyed.fld F.SEC_STATE_FA_REVOKED 0).testBit (keyed.fld F.SEC_FA_REQ_KEY_IDX 0) = false ∧
    (keyed.fld F.SEC_FA_REQ_SCOPES 0 % 16).testBit 3 = false ∧ keyed.secure.drawn + 60 * sec ≤ ({ keyed with now := 60 * sec } : State).now ∧ NMap.get? keyed.secure.scopes 2 = some 50 ∧
    50 ≤ keyed.now := by
  refine ⟨?_, ?_, ?_, rfl, ?_, ?_, ?_, ?_, ?_, ?_, ?_, rfl, ?_⟩ <;> decide +kernel

-- # Witnesses: resets, bring-up and the rest

def held (kind : Nat) : State := { served with boot := { served.boot with kind := kind } }

theorem test_reset_forms : served.boot.kind = 0 ∧ served.boot.pwrLow = false ∧ served.boot.coldN = false ∧ served.pair.holdN = false ∧
    served.reach 0 .BOOT_CTL 0 = .go ∧ (held 1).boot.kind ≠ 0 ∧ (held 1).boot.warmN = false ∧ (held 1).boot.perstN = false ∧
    (held 1).boot.linkOff = false ∧ (held 1).inReset = true := by
  refine ⟨?_, ?_, ?_, ?_, ?_, ?_, ?_, ?_, ?_, ?_⟩ <;> decide +kernel

/-- A device whose PWR_GOOD is low. -/
def unpowered : State := let s := held 3; { s with boot := { s.boot with pwrLow := true } }

theorem test_unpowered_forms : unpowered.boot.kind ≠ 0 ∧ unpowered.boot.pwrLow = true ∧ unpowered.boot.coldN = false ∧
    unpowered.boot.warmN = false ∧ unpowered.boot.perstN = false ∧ unpowered.boot.linkOff = false ∧ unpowered.pair.holdN = false := by
  refine ⟨?_, ?_, ?_, ?_, ?_, ?_, ?_⟩ <;> decide +kernel

/-- A device with some emergency causes active. -/
def emergent (causes : Nat) : State := State.reset.setFld F.PWR_EMERG_CAUSES 0 causes

/-- R348, Table 15-6: a brake clamps every stack to half its rate, and 1.9 × 0.5 GHz is left to the sori beside it. -/
theorem test_brake_clamps_stacks : ((emergent 0).stackRate 3, (emergent 0).stackLimit 3, (emergent 1).stackRate 3) = (100, 1900, 50) ∧
    (emergent 1).stackLimit 3 = 950 ∧ (emergent 2).stackRate 3 = 100 := by
  refine ⟨?_, ?_, ?_⟩ <;> decide +kernel

/-- A device that has reached a stage. -/
def reached (k : Nat) : State := { State.reset with now := 60 * sec }.setFld F.BOOT_STAGE_STAGE 0 k

theorem test_stage_forms : (∀ k ∈ [0, 1, 2, 3, 4, 5], (reached k).at_ k = true ∧ (reached k).stage = k) ∧
    (reached 1).flag F.BOOT_STRAPS_BOOT_SRC 0 = false ∧ (reached 5).settled = true ∧ (reached 0).stageBound = some 50 ∧
    (reached 0).boot.t0 + ms * 50 < (reached 0).now := by
  refine ⟨?_, ?_, ?_, ?_, ?_⟩ <;> decide +kernel

/-- The device waits for a recovery bundle, and fetches one. -/
def recovering : State := ((reached 1).setFld F.BOOT_STAGE_FAULT 0 1).setFld F.BOOT_STAGE_CODE 0 1

theorem test_recovery_forms : recovering.reach 0 .BOOT_CTL 0 = .go ∧ recovering.awaitsRecovery = true ∧
    recovering.fld F.BOOT_RECOV_STATUS_STATE 0 ≠ 2 ∧ (recovering.setFld F.BOOT_RECOV_STATUS_STATE 0 2).fld F.BOOT_RECOV_STATUS_STATE 0 = 2 := by
  refine ⟨?_, ?_, ?_, ?_⟩ <;> decide +kernel

theorem test_canonical_reset : State.reset.memoriesCanonical := by refine ⟨?_, ?_, ?_⟩ <;> decide +kernel

theorem test_map_forms : served.mapOk ∧ (∀ i, i < [1#8].length → served.addrKind (0x1000 + i) = .memory ∨ served.addrKind (0x1000 + i) = .store) := by
  refine ⟨⟨?_, ?_⟩, ?_⟩ <;> decide +kernel

theorem test_access_forms : (⟨62, 2, .rws, 0⟩ : FieldRow) ∈ RegName.PAIR_FAIL.rows ∧ RegName.PAIR_FAIL ≠ .SEC_STATE := by
  refine ⟨?_, ?_⟩ <;> decide +kernel

/-- An operation whose guard is off; and a bundle in which a register has been named. -/
def offHdr : SlotHdr := { hdr .c with pneg := true }
def lateOff : SlotHdr := { offHdr with first := false }
def later : SlotHdr := { hdr .c with first := false }
def named : State := tiledAs { tile0 with wrote := [keyS 1], used := [.v0] }

theorem test_guard_forms : guardedOp (.sadd offHdr 1 1 1) = some (offHdr, offHdr.slot, [keyS 1]) ∧
    soleWriter (.sadd (hdr .c) 1 1 1) = some (hdr .c, keyS 1) ∧ tiled.openSlot offHdr = .go (seen tiled offHdr) ∧ (seen tiled offHdr).on = false ∧
    (seen tiled offHdr).mayWrite (keyS 1) ∧ named.openSlot lateOff = .go (seen named lateOff) ∧ (seen named lateOff).on = false ∧
    (seen named lateOff).x.wrote.contains (keyS 1) = true ∧ named.openSlot later = .go (seen named later) ∧
    (seen named later).x.wrote.contains (keyS 1) = true := by
  refine ⟨rfl, rfl, rfl, ?_, rfl, rfl, ?_, ?_, rfl, ?_⟩ <;> decide +kernel

theorem test_increment_forms : waiting.named 0 0 = .object 0 false counterObj ∧ counterObj.hold = false ∧ counterObj.err = none ∧
    2 ^ 64 ≤ counterObj.value false + (2 ^ 64 - 7) ∧ counterObj.value false + 1 < 2 ^ 64 := by
  refine ⟨?_, rfl, rfl, ?_, ?_⟩ <;> decide +kernel

def loading : State := { commanded { cmdOf (entryOf 0x10 0 0) true true none with value := 1 } with programs := [(1, prog0)] }

theorem test_load_completes : (loading.cmd? 0 0).map (·.goesOn) = some true ∧ loading.ctxOf 0 = some 0 ∧ NMap.get? loading.programs 1 = some prog0 ∧
    prog0.isStep = false := by
  refine ⟨?_, ?_, rfl, rfl⟩ <;> decide +kernel

theorem test_codec_forms : (List.replicate 64 (0 : Byte)).length % 64 = 0 ∧ 0 < (List.replicate 64 (0 : Byte)).length ∧
    (List.replicate 64 (0 : Byte)).length ≤ blockSize ∧ 32 * 128 ≤ 4096 := by decide +kernel

/-- A tag that is not the right one. -/
theorem test_tag_forms (key iv aad ct : List Byte) :
    ((gcmTagOf key iv aad ct).map (~~~ ·)).length = 16 ∧ (gcmTagOf key iv aad ct).map (~~~ ·) ≠ gcmTagOf key iv aad ct := by
  refine ⟨rfl, fun h => ?_⟩
  have hb (b : Byte) : ~~~b ≠ b := fun e => by
    have := congrArg (fun x : Byte => x.getLsbD 0) e
    simp at this
  have e := congrArg (List.map (~~~ ·)) h
  have n : gcmTagOf key iv aad ct ≠ [] := by intro e; have := congrArg List.length e; exact absurd this (by rw [show (gcmTagOf key iv aad ct).length = 16 from rfl]; decide)
  cases hg : gcmTagOf key iv aad ct with
  | nil => exact n hg
  | cons b l => rw [hg, List.map_cons, List.cons.injEq] at h; exact hb _ h.1

/-- A bundle of one store as it ends. -/
theorem test_frame_forms : tiled.openSlot { hdr .l with last := true } = .go (seen tiled { hdr .l with last := true }) ∧
    (let x : Tile := { tile0 with effects := [.store 64 [1, 2]] }
     x.launch = (tiled.tile 0).launch ∧ x.body = none ∧ x.ending = false ∧ x.effects = [.store 64 [1, 2]]) := by
  refine ⟨rfl, ?_, rfl, rfl, rfl⟩
  decide +kernel

-- # Terms that are not well formed

def vops : VOps := ⟨0, 1, 2, 3, 4, 0⟩

/-- An operation outside the slot that holds it. -/
theorem test_wrong_slot :
    ([.mma (hdr .c) (bfOps true 0), .mmax (hdr .l) (bfOps true 0), .mmin (hdr .v0) (bfOps true 0), .aclr (hdr .c) true, .acst (hdr .c) ⟨true, false, 1, 0, 0⟩,
      .acld (hdr .c) ⟨true, false, 1, 0, 0⟩, .acrv (hdr .v0) true 1 1, .vrac (hdr .v1) true 1 1, .vadd (hdr .m) vops, .vsub (hdr .l) vops,
      .vmul (hdr .c) vops, .vfma (hdr .m) vops, .vfms (hdr .m) vops, .vmax (hdr .m) vops, .vmin (hdr .m) vops, .vabs (hdr .m) vops,
      .vneg (hdr .m) vops, .vrcp (hdr .m) vops, .vrsq (hdr .m) vops, .vexp2 (hdr .m) vops, .vlog2 (hdr .m) vops, .vsqrt (hdr .m) vops,
      .vscal (hdr .m) vops, .vand (hdr .m) vops, .vor (hdr .m) vops, .vxor (hdr .m) vops, .vshl (hdr .m) vops, .vshr (hdr .m) vops,
      .vsra (hdr .m) vops, .viadd (hdr .m) vops, .visub (hdr .m) vops, .vcmp (hdr .m) vops, .vsel (hdr .m) vops, .vred (hdr .m) vops,
      .vbc (hdr .m) vops, .vext (hdr .m) vops, .vperm (hdr .m) vops, .vcvt (hdr .m) ⟨0, 0, 1, 0, 1, 0, 0, 0, false⟩, .vld (hdr .c) 1 1 0,
      .vst (hdr .c) 1 1 0, .sld (hdr .c) 1 1 0, .sst (hdr .c) 1 1 0, .dma (hdr .c) (dmaOps 2), .dma2 (hdr .c) (dmaOps 2),
      .reduceScatter (hdr .c) 1 1, .allGather (hdr .c) 1 1, .allReduce (hdr .c) 1 1, .norm (hdr .c) 1 1, .broadcast (hdr .c) 1 1,
      .shift (hdr .c) 1 1, .sadd (hdr .l) 1 1 1, .ssub (hdr .l) 1 1 1, .smul (hdr .l) 1 1 1, .sand (hdr .l) 1 1 1, .sor (hdr .l) 1 1 1,
      .sxor (hdr .l) 1 1 1, .sshl (hdr .l) 1 1 1, .sshr (hdr .l) 1 1 1, .ssra (hdr .l) 1 1 1, .slt (hdr .l) 1 1 1, .sltu (hdr .l) 1 1 1,
      .smin (hdr .l) 1 1 1, .smax (hdr .l) 1 1 1, .saddi (hdr .l) 1 1 0, .sins (hdr .l) 1 0 0, .scmp (hdr .l) 1 0 1 1, .plog (hdr .l) 1 1 1 0,
      .srd (hdr .l) 1 0, .br (hdr .l) 0, .loop (hdr .l) 1 0, .call (hdr .l) 0, .jr (hdr .l) 1, .endTile (hdr .l), .sig (hdr .l) 1 1,
      .wait (hdr .l) 1 1, .waitt (hdr .l) 1 1 1 1, .bar (hdr .l) 1 1, .defq (hdr .l) 1 1] : List Instr).all (fun i => !i.wellFormed) = true := by
  decide +kernel

/-- An engine instruction that names the wrong kind of register: the result 63, or the source 63. -/
theorem test_wrong_register :
    let d : EngOps := ⟨0, 63, 1, 1, 52, 0⟩
    let a : EngOps := ⟨0, 1, 63, 1, 52, 0⟩
    ([.ld d, .ld a, .st a, .st ⟨0, 0, 4, 63, 0, 0⟩, .ldm d, .stm a, .ldv d, .wadd ⟨0, 63, 48, 1, 0, 0⟩, .wadd ⟨0, 48, 1, 1, 0, 0⟩,
      .wmul ⟨0, 48, 48, 63, 0, 0⟩, .wtof d, .wtof a, .add d, .add a, .sub d, .sub a, .mul d, .mul a, .fma ⟨0, 1, 1, 1, 63, 0⟩, .fms d, .div d,
      .max d, .min d, .abs d, .abs a, .neg d, .neg a, .sqrt d, .sqrt a, .rsq d, .rsq a, .rcp d, .rcp a, .exp2 d, .exp2 a, .log2 d, .log2 a,
      .csgn d, .csgn a, .cmp ⟨0, 1, 1, 1, 0, 0⟩, .cmp ⟨0, 52, 63, 1, 0, 0⟩, .sel d, .sel ⟨0, 1, 1, 1, 1, 0⟩] : List Instr).all
      (fun i => !i.wellFormed) = true := by
  decide +kernel

/-- An enabling write whose value does not enable, and a disabling one that does. -/
theorem test_wrong_value :
    ([.contextEnable 0 1 0, .queueEnable 0 1 0, .queueDisable 0 1 (2 ^ 63), .eventRingEnable 0 0, .notifyRingEnable 0 1 0, .xchEnable 0 1 0] :
      List Instr).all (fun i => !i.wellFormed) = true := by
  decide +kernel

-- # Values worked out from the spec

/-- The registers stand in the list in the order of their keys. -/
theorem test_register_keys : RegName.all.map (fun r => r.key 0) = (List.range RegName.all.length).map (1048576 * ·) := by decide +kernel

def digits : List Byte := [0x31, 0x32, 0x33, 0x34, 0x35, 0x36, 0x37, 0x38, 0x39]

/-- The example of FIPS 197 (C.3), the tag of the empty message under a zero key (SP 800-38D's test case 13), and SHA-384 of "abc" (FIPS 180-4). -/
theorem test_ciphers :
    aesBlock (aesKeys (beBytes 32 0x000102030405060708090a0b0c0d0e0f101112131415161718191a1b1c1d1e1f))
        ((beBytes 16 0x00112233445566778899aabbccddeeff).map (·.toNat)) = (beBytes 16 0x8ea2b7ca516745bfeafc49904b496089).map (·.toNat) ∧
    gcmTag (List.replicate 32 0) (List.replicate 12 0) [] [] = 0x530f8afbc74536b9a963b4f1c4cb738b ∧
    beNat (sha384 [0x61, 0x62, 0x63]) =
      0xcb00753f45a35e8bb5a03d699ac65007272c32ab0eded1631a8b605a43ff5bed8086072ba1e7cc2358baeca134c825a7 := by
  refine ⟨?_, ?_, ?_⟩ <;> decide +kernel

/-- The check values of R368 and R499. -/
theorem test_check_codes : crc32c digits = 0xE3069283 ∧ crc64 digits = 0x6C40DF5F0B497347 := by decide +kernel

/-- The example after R141: a bundle of an MMA and a SADDI, as four 64-bit words. -/
theorem test_bundle_example :
    let b := 0x0413448535008800 + 2 ^ 192 * 0x4008400010000000
    bundleCommands 0 b (fun _ => 0) [] =
      some [.saddi (hdr .c) 4 4 4096, .mma { hdr .m with first := false, last := true } ⟨false, true, 3, 4, false, true, 4, 5, 6, 2, 2⟩] ∧
    bundleCommands 0 (b + 1) (fun _ => 0) [.c] =
      some [.mma { hdr .m with first := false, last := true, rsv := true } ⟨false, true, 3, 4, false, true, 4, 5, 6, 2, 2⟩] ∧
    bundleCommands 0 (b - 0x8000) (fun _ => 0) [] = none := by decide +kernel

/-- The generator of R332 multiplied out: x^4 + 15x^3 + 54x^2 + 120x + 64, which is what a data byte 31 of 1 leaves. -/
theorem test_check_bytes : generator = [1, 15, 54, 120, 64] ∧ checkBytes (List.replicate 31 0 ++ [1]) = [15, 54, 120, 64] := by decide +kernel

/-- No row of the table gives a bit. -/
theorem test_no_word (nbits w : Nat) : decodeTableWord nbits w = none ∧ State.reset.withFetchWord nbits w = State.reset := ⟨rfl, rfl⟩

/-- The example after R49: byte 0x12340 of tile 345's store. -/
theorem test_store_address : 0xE00000000000 + 345 * 0x400000 + 0x12340 = 0xE00056412340 ∧ served.addrKind 0xE00056412340 = .store ∧
    ((served.storeWrite 345 0x12340 [7]).devRead 0xE00056412340 1) = [7] := by
  refine ⟨?_, ?_, ?_⟩ <;> decide +kernel

/-- The example after R324: three granules of a row of a device without local or affine regions. -/
theorem test_hash : served.locate 0x12345600 = (44, 3106) ∧ served.locate 0x12345700 = (45, 3106) ∧ served.locate 0x12345800 = (46, 3106) := by
  decide +kernel

/-- The example after R227: an MXFP8 block whose largest magnitude is 5.3. -/
theorem test_mx_example :
    let vals := [fp32.decode 0x40A9999A, fp32.decode 0x3BE00000, fp32.decode 0x37800000]
    mxScale 5 vals = 121 ∧
    vals.map (fun v => (cvtFloat 5 e4m3 .nearest (v.scale2 6)).bits) = [0x7B, 0x2E, 0] ∧
    (cvtFloat 5 e4m3 (.stoch 0x99999F 24) ((fp32.decode 0x40A9999A).scale2 6)).bits = 0x7B ∧
    (cvtFloat 5 e4m3 (.stoch 0x9999A0 24) ((fp32.decode 0x40A9999A).scale2 6)).bits = 0x7A := by
  decide +kernel

/-- The example after R281: 1 − 1.5 × 2^−32 on the master grid, and the update after it. -/
theorem test_master_example :
    let a := (roundMaster (.fin false (2 ^ 33 - 3) (-33))).getD 0
    a = masterOf 0x3F7FFFFF 0xFE ∧ workBits 1 (masterFmt.decode a) = 0x3F80 ∧
    (roundMaster ((masterFmt.decode a).add (.fin true 3 (-33))).1).map masterFmt.decode = some (.fin false (2 ^ 32 - 4) (-32)) := by
  decide +kernel

/-- The example after R401: a line of four ranks, here all on one device; the same four numbers are summed in two orders. -/
theorem test_reduce_example :
    let line : Group := ⟨0, 0, 4, 1, 1, [0, 0, 0, 0]⟩
    let held : Held := [(0, 0, List.replicate 10 0x3F800000), (1, 0, List.replicate 10 0x33800000), (2, 0, List.replicate 10 0x33800000),
      (3, 0, List.replicate 10 0)]
    let r := reduceFlow f32Add false line 1 (Flow.start []) held
    r.1 = Flow.start [] ∧ r.2.map (fun y => (y.2.1, y.2.2.length)) = [(0, 2), (2, 3), (5, 2), (7, 3)] ∧
    (r.2.vals 1).headD 0 = 0x3F800000 ∧ (r.2.vals 0).headD 0 = 0x3F800001 := by
  decide +kernel

/-- Rank 1 of that line alone sends half a segment each way in each hop, and its own half first (R401). -/
theorem test_ring_sends :
    let line : Group := ⟨0, 0, 4, 1, 1, [0, 1, 2, 3]⟩
    (reduceFlow f32Add false line 1 (Flow.start [leBytes 4 0x33800000]) [(1, 0, List.replicate 10 0x3F800000)]).1.sends =
      [(2, 0, [0x3F800000]), (0, 0, [0x3F800000])] := by
  decide +kernel

/-- The example after R417: a block of round 900 at w = 4 with amax 0.75 × 2^−10. -/
theorem test_scale_example : scaleByte 7 [0x3A400000, 0xB8200000] = 114 ∧ quantise 7 0x3A400000 (-13) 0 = 6 ∧
    quantise 7 0xB8200000 (-13) 0x4FFFFF = -1 ∧ quantise 7 0xB8200000 (-13) 0x500000 = 0 := by
  decide +kernel

/-- The example of the digest stream: shard 0x2A1 has 208 blocks, and GRAD takes no part. -/
theorem test_digest_example :
    let x : Shard := ⟨0, 0x2A1, 0, 0, 16777216, 0, 1, 0, 1, 0x37, 0, 0, 0, 0, 0⟩
    x.digestBlocks = 208 ∧ (x.blockParts 99).map (·.2) = [2 ^ 20] := by
  decide +kernel

/-- The worked example of R141: the operations that a TMMA binds to, written in the order of their tables, are the words the spec gives. -/
theorem test_bound_example :
    let fields (pop : Nat) (l : List Nat) := placeFields (((nativeFields pop).zip l).map fun x => (x.1.1, x.1.2.width, x.2))
    oneSlot false .m 1 noGuard (fields 0x001 [0, 1, 3, 4, 0, 1, 4, 5, 6, 2, 2]) = 0x0413448535008000 ∧
    oneSlot false .c 0x10 noGuard (fields 0x310 [4, 4, 4096]) / 2 ^ 192 = 0x4008400010000000 := by
  decide +kernel

/-- The example after R198: three chunks, the last of 18,928 values, and two levels of the tree. -/
theorem test_chunks_example : cutK 150000 = [(0, 65536), (65536, 65536), (131072, 18928)] ∧ treeLevels 3 = 2 := by
  decide +kernel

end Sys2Proof.Tests
end

section
/-! SUPPORT. The bits of a register: what a field holds of them, what a field table leaves of a value that is put together row by row, and what a host
write stores (R24, R26, Table 0-4). -/

namespace Sys2Proof.Machine

-- # The bits of a field

/-- Taking from a number the bits that it shares with another one clears just those bits: no borrow runs. -/
theorem testBit_sub_land (n m j : Nat) : (n - Nat.land n m).testBit j = (n.testBit j && !m.testBit j) := by
  change (n - (n &&& m)).testBit j = _
  induction j generalizing n m with
  | zero =>
    have hbit := Nat.and_mod_two_eq_one (a := n) (b := m)
    have hle := Nat.and_le_left (n := n) (m := m)
    simp only [Nat.testBit_zero]
    grind
  | succ j ih =>
    have hbit := Nat.and_mod_two_eq_one (a := n) (b := m)
    have hle := Nat.and_le_left (n := n) (m := m)
    have half : (n - (n &&& m)) / 2 = n / 2 - (n / 2 &&& m / 2) := by
      rw [← Nat.and_div_two]; omega
    rw [Nat.testBit_succ, half, ih, Nat.testBit_succ, Nat.testBit_succ]

/-- Putting a value into a field replaces the field's bits and no other. -/
theorem Field.getLsbD_put (f : Field) (hf : f.lo + f.width ≤ 64) (w : Word) (v k : Nat) :
    (f.put w v).getLsbD k = if f.lo ≤ k ∧ k < f.lo + f.width then v.testBit (k - f.lo) else w.getLsbD k := by
  have hx : w.toNat % 2 ^ f.lo < 2 ^ f.lo := Nat.mod_lt _ (Nat.two_pow_pos _)
  rw [BitVec.getLsbD, Field.put_toNat f hf, Nat.pow_add, Nat.mul_assoc, ← Nat.mul_add, Nat.testBit_two_pow_mul_add _ hx,
    Nat.testBit_two_pow_mul_add _ (Nat.mod_lt _ (Nat.two_pow_pos _)), ← Nat.pow_add, Nat.testBit_mod_two_pow, Nat.testBit_mod_two_pow,
    Nat.testBit_div_two_pow, BitVec.getLsbD]
  rcases Nat.lt_or_ge k f.lo with below | notBelow
  · simp [below, Nat.not_le.mpr below]
  · rcases Nat.lt_or_ge k (f.lo + f.width) with inside | above
    · simp [notBelow, inside, Nat.not_lt.mpr notBelow, show k - f.lo < f.width by omega]
    · simp [notBelow, Nat.not_lt.mpr notBelow, Nat.not_lt.mpr above, show ¬ k - f.lo < f.width by omega,
        show k - f.lo - f.width + (f.lo + f.width) = k by omega]

theorem Field.getLsbD_putIf (f : Field) (hf : f.lo + f.width ≤ 64) (c : Bool) (w : Word) (v k : Nat) :
    (if c then f.put w v else w).getLsbD k = if c ∧ f.lo ≤ k ∧ k < f.lo + f.width then v.testBit (k - f.lo) else w.getLsbD k := by
  cases c with
  | true => simpa using Field.getLsbD_put f hf w v k
  | false => simp

theorem Field.testBit_of (f : Field) (w : Word) (j : Nat) : (f.of w).testBit j = (decide (j < f.width) && w.getLsbD (f.lo + j)) := by
  rw [Field.of, bitsOf, Nat.testBit_mod_two_pow, Nat.testBit_div_two_pow, BitVec.getLsbD, Nat.add_comm]

theorem Field.testBit_of_sub {f : Field} (w : Word) {k : Nat} (hlo : f.lo ≤ k) (hhi : k < f.lo + f.width) :
    (f.of w).testBit (k - f.lo) = w.getLsbD k := by
  rw [Field.testBit_of, Nat.add_sub_cancel' hlo, decide_eq_true (by omega), Bool.true_and]

/-- What a field reads is settled by its bits. -/
theorem Field.of_congr {f : Field} {w w' : Word} (h : ∀ k, f.lo ≤ k → k < f.lo + f.width → w.getLsbD k = w'.getLsbD k) : f.of w = f.of w' := by
  refine Nat.eq_of_testBit_eq fun j => ?_
  rw [Field.testBit_of, Field.testBit_of]
  by_cases hj : j < f.width
  · rw [h (f.lo + j) (Nat.le_add_right ..) (Nat.add_lt_add_left hj _)]
  · simp [hj]

-- # Rows

/-- The rows of a field table lie within the register, and stand from high bit to low. -/
def rowsInOrder (rows : List FieldRow) : Prop :=
  (∀ row ∈ rows, row.lo + row.width ≤ 64) ∧ rows.Pairwise fun a b => b.lo + b.width ≤ a.lo

theorem RegName.all_getElem? (r : RegName) : RegName.all[r.ctorIdx]? = some r := by cases r <;> rfl

theorem RegName.mem_all (r : RegName) : r ∈ RegName.all := List.mem_of_getElem? r.all_getElem?

theorem RegName.rows_inOrder (r : RegName) : rowsInOrder r.rows := by
  have checked : ∀ r ∈ RegName.all, rowsInOrder r.rows := by unfold rowsInOrder; decide +kernel
  exact checked r r.mem_all

/-- Values put into the fields of those rows that a test takes. Both a host write and a reset build a register so. -/
def putRows (r : RegName) (takes : FieldRow → Bool) (value : FieldRow → Nat) (rows : List FieldRow) (w : Word) : Word :=
  rows.foldl (fun w row => if takes row then (row.field r).put w (value row) else w) w

section
variable {r : RegName} {takes : FieldRow → Bool} {value : FieldRow → Nat}

theorem putRows_cons (row : FieldRow) (rest : List FieldRow) (w : Word) : putRows r takes value (row :: rest) w =
    putRows r takes value rest (if takes row then (row.field r).put w (value row) else w) := rfl

/-- A bit that lies in no row stays. -/
theorem putRows_getLsbD_outside {rows : List FieldRow} {k : Nat} (hfit : ∀ row ∈ rows, row.lo + row.width ≤ 64)
    (hk : ∀ row ∈ rows, k < row.lo ∨ row.lo + row.width ≤ k) (w : Word) : (putRows r takes value rows w).getLsbD k = w.getLsbD k := by
  induction rows generalizing w with
  | nil => rfl
  | cons row rest ih =>
    obtain ⟨hrow, hrest⟩ := List.forall_mem_cons.mp hk
    obtain ⟨hfitRow, hfitRest⟩ := List.forall_mem_cons.mp hfit
    rw [putRows_cons, ih hfitRest hrest, Field.getLsbD_putIf _ hfitRow, if_neg]
    rintro ⟨-, hlo, hhi⟩
    exact hrow.elim (Nat.not_lt.mpr hlo) (Nat.not_le.mpr hhi)

/-- A bit of a row is that of the row's value: the rows before it lie above the bit, and the rows after it below. -/
theorem putRows_getLsbD_inside {rows : List FieldRow} (hrows : rowsInOrder rows) {row : FieldRow} (hrow : row ∈ rows) {k : Nat}
    (hlo : row.lo ≤ k) (hhi : k < row.lo + row.width) (w : Word) :
    (putRows r takes value rows w).getLsbD k = if takes row then (value row).testBit (k - row.lo) else w.getLsbD k := by
  obtain ⟨hfit, horder⟩ := hrows
  induction rows generalizing w with
  | nil => cases hrow
  | cons first rest ih =>
    obtain ⟨hbelow, hordered⟩ := List.pairwise_cons.mp horder
    obtain ⟨hfitFirst, hfitRest⟩ := List.forall_mem_cons.mp hfit
    rw [putRows_cons]
    rcases List.mem_cons.mp hrow with rfl | hrest
    · have habove : ∀ x ∈ rest, k < x.lo ∨ x.lo + x.width ≤ k := fun x hx => .inr (Nat.le_trans (hbelow x hx) hlo)
      rw [putRows_getLsbD_outside hfitRest habove, Field.getLsbD_putIf _ hfitFirst]
      simp [FieldRow.field, hlo, hhi]
    · have hunder : k < first.lo := Nat.lt_of_lt_of_le hhi (hbelow row hrest)
      rw [ih hrest _ hfitRest hordered, Field.getLsbD_putIf _ hfitFirst, if_neg (c := takes first = true ∧ _)]
      exact fun h => Nat.not_lt.mpr h.2.1 hunder

theorem putRows_of {rows : List FieldRow} (hrows : rowsInOrder rows) {row : FieldRow} (hrow : row ∈ rows) (w src : Word)
    (hvalue : value row = (row.field r).of src) :
    (row.field r).of (putRows r takes value rows w) = if takes row then (row.field r).of src else (row.field r).of w := by
  have hbits := fun k hlo hhi => putRows_getLsbD_inside (r := r) (takes := takes) (value := value) hrows hrow (k := k) hlo hhi w
  split
  case isTrue ht =>
    refine Field.of_congr fun k hlo hhi => (hbits k hlo hhi).trans ?_
    rw [if_pos ht, hvalue]
    exact Field.testBit_of_sub src hlo hhi
  case isFalse ht => exact Field.of_congr fun k hlo hhi => (hbits k hlo hhi).trans (if_neg ht)

end

-- # What a host write stores

/-- The bit that an access type lets a write store over an old bit (Table 0-4). -/
def Access.stores (acc : Access) (old written : Bool) : Bool :=
  match acc with
  | .rw | .rws => written
  | .w1c => old && !written
  | .w1s => old || written
  | .ro | .wo => old

theorem RegName.written_eq_putRows (r : RegName) (h : Half) (old v : Word) :
    r.written h old v = putRows r (fun _ => true) (fun row => row.write r h old v) r.rows old := rfl

theorem Half.getLsbD_merge (h : Half) (old v : Word) (k : Nat) :
    (h.merge old v).getLsbD k = if h.mask.getLsbD k then v.getLsbD k else old.getLsbD k := by
  simp only [Half.merge, BitVec.getLsbD_or, BitVec.getLsbD_and, BitVec.getLsbD_not]
  cases hm : h.mask.getLsbD k with
  | true => simp
  | false =>
    by_cases hk : k < 64
    · simp [hk]
    · simp [BitVec.getLsbD_of_ge, Nat.not_lt.mp hk]

theorem Half.getLsbD_part (h : Half) (v : Word) (k : Nat) : (h.part v).getLsbD k = (v.getLsbD k && h.mask.getLsbD k) := by
  rw [Half.part, BitVec.getLsbD_and]

/-- Table 0-4, bit by bit. -/
theorem FieldRow.testBit_write (row : FieldRow) (r : RegName) (h : Half) (old v : Word) {j : Nat} (hj : j < row.width) :
    (row.write r h old v).testBit j =
      if h.mask.getLsbD (row.lo + j) then row.acc.stores (old.getLsbD (row.lo + j)) (v.getLsbD (row.lo + j)) else old.getLsbD (row.lo + j) := by
  have hof (w : Word) : ((row.field r).of w).testBit j = w.getLsbD (row.lo + j) := by
    rw [Field.testBit_of]; simp [FieldRow.field, hj]
  unfold FieldRow.write Access.stores
  cases row.acc with
  | rw | rws => simp only [hof, Half.getLsbD_merge]
  | w1c => simp only [testBit_sub_land, hof, Half.getLsbD_part]; cases h.mask.getLsbD (row.lo + j) <;> simp
  | w1s =>
    refine (Nat.testBit_or ..).trans ?_
    simp only [hof, Half.getLsbD_part]; cases h.mask.getLsbD (row.lo + j) <;> simp
  | ro | wo => simp only [hof, ite_self]

theorem RegName.getLsbD_written (r : RegName) (h : Half) (old v : Word) {row : FieldRow} (hrow : row ∈ r.rows) {k : Nat} (hlo : row.lo ≤ k)
    (hhi : k < row.lo + row.width) : (r.written h old v).getLsbD k =
      if h.mask.getLsbD k then row.acc.stores (old.getLsbD k) (v.getLsbD k) else old.getLsbD k := by
  rw [r.written_eq_putRows, putRows_getLsbD_inside r.rows_inOrder hrow hlo hhi, if_pos rfl, FieldRow.testBit_write row r h old v (by omega),
    Nat.add_sub_cancel' hlo]

/-- A reserved bit stays (R26). -/
theorem RegName.getLsbD_written_reserved (r : RegName) (h : Half) (old v : Word) {k : Nat}
    (hk : ∀ row ∈ r.rows, k < row.lo ∨ row.lo + row.width ≤ k) : (r.written h old v).getLsbD k = old.getLsbD k := by
  rw [r.written_eq_putRows, putRows_getLsbD_outside r.rows_inOrder.1 hk]

/-- A write of a part of a register leaves every bit of the other part (R24). -/
theorem RegName.getLsbD_written_unmasked (r : RegName) {h : Half} (old v : Word) {k : Nat} (hmask : h.mask.getLsbD k = false) :
    (r.written h old v).getLsbD k = old.getLsbD k := by
  by_cases hk : ∀ row ∈ r.rows, k < row.lo ∨ row.lo + row.width ≤ k
  · exact r.getLsbD_written_reserved h old v hk
  · push Not at hk
    obtain ⟨row, hrow, hlo, hhi⟩ := hk
    rw [r.getLsbD_written h old v hrow hlo hhi, hmask]; rfl

theorem Half.getLsbD_mask_low {k : Nat} (hk : 32 ≤ k) : Half.low.mask.getLsbD k = false :=
  Nat.testBit_lt_two_pow (Nat.lt_of_lt_of_le (by decide) (Nat.pow_le_pow_right (n := 2) (by decide) hk))

theorem Half.getLsbD_mask_high {k : Nat} (hk : k < 32) : Half.high.mask.getLsbD k = false := by
  have checked : ∀ k < 32, Half.high.mask.getLsbD k = false := by decide
  exact checked k hk

/-- Settles O51: a register is written row by row, so each bit is that of its own row, and a bit of the other half or of no row stays. -/
theorem writeAccess : Obligations.WriteAccess := by
  unfold Obligations.WriteAccess
  intro r h old v
  refine ⟨fun row hrow k hlo hhi => ?_, fun k hk => r.getLsbD_written_reserved h old v hk,
    fun k hk => r.getLsbD_written_unmasked old v (Half.getLsbD_mask_high hk),
    fun k hk => r.getLsbD_written_unmasked old v (Half.getLsbD_mask_low hk)⟩
  rw [r.getLsbD_written h old v hrow hlo hhi]
  cases row.acc <;> rfl

end Sys2Proof.Machine
end

section
/-! SUPPORT. The registers after a reset (R28, R42, Table 17-8): which are listed, what each field reads, and which memories are kept. -/

namespace Sys2Proof.Machine

-- # The register file after a reset

theorem RegName.key_div (r : RegName) {i : Nat} (hi : i < 1048576) : r.key i / 1048576 = r.ctorIdx := by
  unfold RegName.key; omega

theorem RegName.key_mod (r : RegName) {i : Nat} (hi : i < 1048576) : r.key i % 1048576 = i := by
  unfold RegName.key; omega

theorem RegName.key_ne {r q : RegName} {i j : Nat} (hi : i < 1048576) (hj : j < 1048576) (h : r ≠ q) : r.key i ≠ q.key j :=
  fun e => h ((RegName.key_inj hi hj).mp e).1

theorem reg_setFld_other (s : State) {f : Field} {q : RegName} {i j : Nat} (v : Nat) (h : q.key j ≠ f.reg.key i) :
    (s.setFld f i v).reg q j = s.reg q j := reg_setReg_other s _ h

/-- What a reset makes of one listed register. -/
def State.keepReg (s : State) (kind : Nat) (m : NMap Word) (p : Nat × Word) : NMap Word :=
  match RegName.all[p.1 / 1048576]? with
  | none => m
  | some r => if r.rows.any (keptField kind r) then NMap.set m p.1 (s.keptValue kind r (p.1 % 1048576)) else m

theorem State.keptRegs_eq_foldl (s : State) (kind : Nat) : s.keptRegs kind = s.regs.foldl (s.keepReg kind) [] := rfl

theorem get?_keepReg_self (s : State) (kind : Nat) (m : NMap Word) (r : RegName) {i : Nat} (hi : i < 1048576) (w : Word) :
    NMap.get? (s.keepReg kind m (r.key i, w)) (r.key i) =
      if r.rows.any (keptField kind r) then some (s.keptValue kind r i) else NMap.get? m (r.key i) := by
  simp only [State.keepReg, r.key_div hi, r.key_mod hi, r.all_getElem?]
  split <;> simp

theorem get?_keepReg_other (s : State) (kind : Nat) (m : NMap Word) (p : Nat × Word) {k : Nat} (hk : k ≠ p.1) :
    NMap.get? (s.keepReg kind m p) k = NMap.get? m k := by
  unfold State.keepReg
  split
  · rfl
  · split
    · exact NMap.get?_set_other m _ hk
    · rfl

theorem get?_foldl_keepReg (s : State) (kind : Nat) (r : RegName) {i : Nat} (hi : i < 1048576) (l m : NMap Word) :
    NMap.get? (l.foldl (s.keepReg kind) m) (r.key i) =
      if r.rows.any (keptField kind r) ∧ (NMap.get? l (r.key i)).isSome then some (s.keptValue kind r i) else NMap.get? m (r.key i) := by
  induction l generalizing m with
  | nil => simp [NMap.get?]
  | cons p rest ih =>
    obtain ⟨k, w⟩ := p
    rw [List.foldl_cons, ih, NMap.get?]
    by_cases hk : k = r.key i
    · subst hk
      rw [get?_keepReg_self s kind m r hi, if_pos rfl]
      cases r.rows.any (keptField kind r) <;> simp
    · rw [get?_keepReg_other s kind m _ (Ne.symm hk), if_neg hk]

/-- A register is listed after a reset where it was listed before and has a field that is kept. -/
theorem State.get?_keptRegs (s : State) (kind : Nat) (r : RegName) {i : Nat} (hi : i < 1048576) : NMap.get? (s.keptRegs kind) (r.key i) =
    if r.rows.any (keptField kind r) ∧ (NMap.get? s.regs (r.key i)).isSome then some (s.keptValue kind r i) else none :=
  s.keptRegs_eq_foldl kind ▸ get?_foldl_keepReg s kind r hi s.regs []

theorem State.keptValue_eq_putRows (s : State) (kind : Nat) (r : RegName) (i : Nat) : s.keptValue kind r i =
    putRows r (keptField kind r) (fun row => (row.field r).of (s.reg r i)) r.rows (r.resetValue i) := rfl

theorem State.reg_unlisted {s : State} {r : RegName} {i : Nat} (h : NMap.get? s.regs (r.key i) = none) : s.reg r i = r.resetValue i := by
  rw [State.reg, NMap.getD, h]; rfl

theorem State.of_keptValue (s : State) (kind : Nat) {r : RegName} {row : FieldRow} (hrow : row ∈ r.rows) (i : Nat) :
    (row.field r).of (s.keptValue kind r i) =
      if keptField kind r row then s.fld (row.field r) i else (row.field r).of (r.resetValue i) := by
  rw [s.keptValue_eq_putRows, putRows_of r.rows_inOrder hrow _ (s.reg r i) rfl]
  rfl

/-- In the register file after a reset a field reads as before where it is kept, and as its reset value where it is not. A register that was
not listed holds its reset value in both. -/
theorem State.of_keptRegs (s : State) (kind : Nat) {r : RegName} {row : FieldRow} (hrow : row ∈ r.rows) {i : Nat} (hi : i < 1048576) :
    (row.field r).of (NMap.getD (s.keptRegs kind) (r.key i) (r.resetValue i)) =
      if keptField kind r row then s.fld (row.field r) i else (row.field r).of (r.resetValue i) := by
  rw [NMap.getD, s.get?_keptRegs kind r hi]
  split
  case isTrue => exact s.of_keptValue kind hrow i
  case isFalse hnot =>
    split
    case isTrue hkept =>
      have hany : r.rows.any (keptField kind r) = true := List.any_eq_true.mpr ⟨row, hrow, hkept⟩
      have hunlisted : NMap.get? s.regs (r.key i) = none := by simpa [hany] using hnot
      exact congrArg (row.field r).of (State.reg_unlisted hunlisted).symm
    case isFalse => rfl

/-- The fuses touch SEC_STATE alone (R548, R551). -/
theorem State.reg_keepFuses (s old : State) {r : RegName} {i : Nat} (hi : i < 1048576) (hr : r ≠ .SEC_STATE) :
    (s.keepFuses old).reg r i = s.reg r i := by
  have hkey : r.key i ≠ RegName.key .SEC_STATE 0 := RegName.key_ne hi (by decide) hr
  unfold State.keepFuses
  rw [reg_setFld_other _ _ hkey, reg_setFld_other _ _ hkey, reg_setFld_other _ _ hkey]

theorem State.reg_afterReset_cold (s : State) {r : RegName} {i : Nat} (hi : i < 1048576) (hr : r ≠ .SEC_STATE) :
    (s.afterReset 3).reg r i = NMap.getD (s.keptRegs 3) (r.key i) (r.resetValue i) := by
  unfold State.afterReset
  rw [if_pos rfl, State.reg_keepFuses _ _ hi hr]
  rfl

theorem State.reg_afterReset (s : State) (kind : Nat) {r : RegName} {i : Nat} (hi : i < 1048576) (hr : r ≠ .SEC_STATE)
    (hkey : r ≠ .SEC_KEY_STATUS) : (s.afterReset kind).reg r i = NMap.getD (s.keptRegs kind) (r.key i) (r.resetValue i) := by
  by_cases hcold : kind = 3
  · subst hcold; exact s.reg_afterReset_cold hi hr
  · unfold State.afterReset
    rw [if_neg hcold, State.reg_keepFuses _ _ hi hr, reg_setFld_other _ _ (RegName.key_ne hi (by decide) hkey)]
    rfl

theorem State.fld_afterReset (s : State) (kind : Nat) {r : RegName} {i : Nat} (hi : i < 1048576) (hr : r ≠ .SEC_STATE)
    (hkey : r ≠ .SEC_KEY_STATUS) {row : FieldRow} (hrow : row ∈ r.rows) : (s.afterReset kind).fld (row.field r) i =
      if keptField kind r row then s.fld (row.field r) i else (row.field r).of (r.resetValue i) := by
  rw [← s.of_keptRegs kind hrow hi, ← s.reg_afterReset kind hi hr hkey]
  rfl

-- # What is kept

/-- The part's identity survives every reset (R1, R4). -/
theorem keptField_identity (kind : Nat) {r : RegName} (hr : r = .HIF_ID ∨ r = .HIF_SERIAL) (row : FieldRow) : keptField kind r row = true := by
  rcases hr with rfl | rfl <;> rfl

/-- A cold reset keeps nothing but the identity (R28). -/
theorem keptField_cold {r : RegName} (hid : r ≠ .HIF_ID) (hserial : r ≠ .HIF_SERIAL) (row : FieldRow) : keptField 3 r row = false := by
  simp [keptField, hid, hserial]

theorem keptField_rws {kind : Nat} (hkind : kind ≠ 3) (r : RegName) {row : FieldRow} (hrow : row.acc = .rws) : keptField kind r row = true := by
  simp [keptField, keptField.keptWarm, hkind, hrow]

theorem State.reg_afterReset_cold_eq_resetValue (s : State) {r : RegName} {i : Nat} (hi : i < 1048576) (hr : r ≠ .SEC_STATE)
    (hid : r ≠ .HIF_ID) (hserial : r ≠ .HIF_SERIAL) : (s.afterReset 3).reg r i = r.resetValue i := by
  rw [s.reg_afterReset_cold hi hr, NMap.getD, s.get?_keptRegs 3 r hi, if_neg]
  · rfl
  · rintro ⟨hany, -⟩
    obtain ⟨row, -, hrow⟩ := List.any_eq_true.mp hany
    exact absurd hrow (by simp [keptField_cold hid hserial row])

/-- Resets that are not cold keep device memory and let device time run on; tile stores and keys are lost (R28, R42, Table 17-8). -/
theorem State.afterReset_memories (s : State) {kind : Nat} (hkind : kind ≠ 3) : (s.afterReset kind).mem = s.mem ∧
    (s.afterReset kind).now = s.now ∧ (s.afterReset kind).store = [] ∧ (s.afterReset kind).keys = [] := by
  unfold State.afterReset
  rw [if_neg hkind]
  exact ⟨rfl, rfl, rfl, rfl⟩

/-- Settles O52, by what the register file of a reset lists and what its fields read. Which fields a warm reset keeps beside the RWS ones
(log 55), that memory is empty after a cold reset (logs 4 and 55) and that LOAD_SEQ is kept (log 90) are the model's choices. -/
theorem resetsKeep : Obligations.ResetsKeep := by
  unfold Obligations.ResetsKeep
  intro s r i hi hr
  refine ⟨s.reg_afterReset_cold_eq_resetValue hi hr, ?identity, rfl, rfl, ?other⟩
  case identity =>
    intro hid kind row hrow
    have hkey : r ≠ .SEC_KEY_STATUS := by rcases hid with rfl | rfl <;> decide
    rw [s.fld_afterReset kind hi hr hkey hrow, keptField_identity kind hid row]
    rfl
  case other =>
    intro kind hkind
    have hwarm : kind ≠ 3 := by omega
    obtain ⟨hmem, hnow, hstore, hkeys⟩ := s.afterReset_memories hwarm
    exact ⟨hmem, hnow, hstore, hkeys, fun row _ hrws => keptField_rws hwarm r hrws,
      fun hkey row hrow => s.fld_afterReset kind hi hr hkey hrow⟩

end Sys2Proof.Machine
end

section
/-! SUPPORT. A host write at an offset of BAR0 (R24, R26, R27, R86): where it goes, and what it does to a plain and to a staged register. -/

namespace Sys2Proof.Machine

-- # A host write at an offset

theorem State.reaching_go {s : State} {fn i : Nat} {r : RegName} (hgo : s.reach fn r i = .go) (f : State → State) :
    s.reaching fn r i f = f s := by
  rw [State.reaching, hgo]

/-- A write at an offset outside the request buffer goes to the register there, of function 0 or of a block that every function sees (R27). -/
theorem State.writeOffset_register (s : State) {fn : Fin 64} {off : Nat} {r : RegName} {i : Nat} (hreg : regAt fn (off - off % 8) = some (r, i))
    (hbuf : inRequest off = false) (hseen : fn = 0 ∨ off < 0x1000000) (h : Half) (v : Word) : s.writeOffset fn off h v = s.writeAt fn r i h v := by
  have hhidden : s.hidden fn off = false := by
    rcases hseen with rfl | hlow
    · simp [State.hidden]
    · simp [State.hidden, Nat.not_le.mpr hlow]
  simp only [State.writeOffset, hhidden, hbuf, hreg, Bool.false_eq_true, if_false]

theorem State.writeAt_plain (s : State) (fn : Fin 64) {r : RegName} (hr : r ∈ plainRegs) (i : Nat) (h : Half) (v : Word) :
    s.writeAt fn r i h v = s.reaching fn r i fun s => s.writeReg r i h v := by
  unfold plainRegs at hr
  fin_cases hr <;> rfl

/-- The registers whose every field is staged and whose write does nothing else (R86). -/
def stagedRegs : List RegName :=
  [.UPD_SHARD_BASE, .UPD_SHARD_COUNT, .UPD_NORM_CFG, .UPD_SKIP_CFG, .UPD_CROZ_BASE, .UPD_CROZ_BETA, .MEM_CACHE_CFG, .MEM_CAL_CFG, .PAIR_CTX,
    .PAIR_SAMP_BASE, .PAIR_SAMP_COUNT, .FAB_GRP_BASE, .FAB_GRP_COUNT, .XCH_TIMING, .XCH_STALE, .XCH_OUTER, .XCH_LEDGER, .CIP_PAGE_CFG, .FAR_JOB,
    .FAR_PATH_BASE, .FAR_PATH_COUNT, .FAR_RTAB_BASE, .FAR_FWD_BASE, .FAR_FWD_COUNT]

theorem mem_stagedRegs {r : RegName} (hstaged : r.stagedIn.isSome = true) (hstep : r ≠ .EXC_STEP_CFG) (hxch : r ≠ .XCH_CFG)
    (hcap : r ≠ .PWR_CAP) : r ∈ stagedRegs := by
  have checked : ∀ r ∈ RegName.all, r.stagedIn.isSome = true → r ≠ .EXC_STEP_CFG → r ≠ .XCH_CFG → r ≠ .PWR_CAP → r ∈ stagedRegs := by
    decide +kernel
  exact checked r r.mem_all hstaged hstep hxch hcap

theorem State.writeAt_staged (s : State) (fn : Fin 64) {r : RegName} (hr : r ∈ stagedRegs) (i : Nat) (h : Half) (v : Word) :
    s.writeAt fn r i h v = s.reaching fn r i fun s => s.stageReg r i h v := by
  unfold stagedRegs at hr
  fin_cases hr <;> rfl

theorem State.writeAlarm_go {s : State} {fn : Nat} (hgo : s.reach fn .SEC_ALARM 0 = .go) (h : Half) (v : Word) : s.writeAlarm fn h v =
    let new := RegName.SEC_ALARM.written h (s.reg .SEC_ALARM 0) v
    s.setReg .SEC_ALARM 0 (if F.SEC_ALARM_CAUSES.of new = 0 then new else F.SEC_ALARM_CAUSES.put new (s.fld F.SEC_ALARM_CAUSES 0)) :=
  State.reaching_go hgo _

/-- Settles O23: the write reaches its register, and the three kinds of register each have their arm of `State.writeAt`. -/
theorem registerWrites : Obligations.RegisterWrites := by
  unfold Obligations.RegisterWrites
  intro s fn off h v r i hreg hbuf hseen hgo
  have hexec : exec (.registerWrite fn off h v) s = .next (s.writeAt fn r i h v) :=
    congrArg Host.Outcome.next (s.writeOffset_register hreg hbuf hseen h v)
  rw [hexec]
  refine ⟨fun hplain => ?plain, fun hstaged hstep hxch hcap => ?staged, ?alarm⟩
  case plain => rw [s.writeAt_plain fn hplain, State.reaching_go hgo, State.writeReg]
  case staged => rw [s.writeAt_staged fn (mem_stagedRegs hstaged hstep hxch hcap), State.reaching_go hgo, State.stageReg]
  case alarm =>
    rintro rfl rfl
    exact congrArg Host.Outcome.next (State.writeAlarm_go hgo h v)

end Sys2Proof.Machine
end

section
/-! SUPPORT. The machine right after reset (R28, R584). -/

namespace Sys2Proof.Machine

/-- Memory and tile stores list nothing, and an unbacked address reads 0 anyway (R50). -/
theorem reset_devByte (a : Nat) : State.reset.devByte a = 0 := by
  unfold State.devByte
  cases State.reset.addrKind a <;> rfl

theorem reset_stage : State.reset.stage = 0 := by decide +kernel

/-- Settles O47. That an unwritten byte reads 0 (log 4) and the reset values that the part or the straps give (log 2) are the model's choices. -/
theorem resetState : Obligations.ResetState := by
  unfold Obligations.ResetState
  exact ⟨reset_canonical, rfl, rfl, reset_stage, fun _ _ => State.reg_unlisted rfl, fun a => ⟨reset_devByte a, rfl⟩, fun _ => rfl, rfl⟩

end Sys2Proof.Machine
end

section
/-! SUPPORT. The tile stores in the address map (R49, R50). -/

namespace Sys2Proof.Machine

/-- Program-visible memory ends below the tile-store window: the register gives it at most 255 times 3 GiB (R320). -/
theorem State.visibleEnd_lt_storeBase (s : State) : s.visibleEnd < storeBase := by
  have hfield : s.fld F.MEM_MAP_V_3G 0 < 2 ^ 8 := Nat.mod_lt _ (by decide)
  unfold State.visibleEnd storeBase
  omega

/-- The address of a byte of a tile's slot in the tile-store window. -/
def tileByteAddr (n off : Nat) : Nat := storeBase + n * 0x400000 + off

/-- A byte of a slot lies in `State.store` where the tile's own accesses look for it. -/
theorem storeOff_tileByteAddr {n off : Nat} (hn : n < 512) (hoff : off < 0x400000) : storeOff (tileByteAddr n off) = 0x400000 * n + off := by
  unfold storeOff tileByteAddr storeBase
  omega

/-- A slot of the window is backed in its first 2.5 MiB alone (R49). -/
theorem State.addrKind_tileByteAddr (s : State) {n off : Nat} (hn : n < 512) (hoff : off < 0x400000) :
    s.addrKind (tileByteAddr n off) = if off < storeSize then .store else .unbacked := by
  have hvisible := s.visibleEnd_lt_storeBase
  have habove : ¬ tileByteAddr n off < s.visibleEnd := by unfold tileByteAddr; omega
  have hwindow : storeBase ≤ tileByteAddr n off ∧ tileByteAddr n off < storeBase + 512 * 0x400000 := by unfold tileByteAddr; omega
  have hplace : storeOff (tileByteAddr n off) % 0x400000 = off := by rw [storeOff_tileByteAddr hn hoff]; omega
  rw [State.addrKind, if_neg habove, if_pos hwindow, hplace]

/-- A byte that the map calls a tile store's is read from the stores. -/
theorem State.devByte_store {s : State} {a : Nat} (h : s.addrKind a = .store) : s.devByte a = memGet s.store (storeOff a) := by
  rw [State.devByte, h]

/-- Settles O56, by the kind of the address of a byte of a slot. -/
theorem tileStoreMap : Obligations.TileStoreMap := by
  unfold Obligations.TileStoreMap
  intro s n off hoff
  have hkind := s.addrKind_tileByteAddr n.isLt hoff
  refine ⟨fun hbacked => ?backed, fun hbeyond => ?beyond⟩
  case backed =>
    have hstore : s.addrKind (tileByteAddr n off) = .store := by rw [hkind, if_pos (by unfold storeSize; omega)]
    refine ⟨hstore, ?_⟩
    change [s.devByte (tileByteAddr n off)] = [memGet s.store (0x400000 * n.val + off)]
    rw [State.devByte_store hstore, storeOff_tileByteAddr n.isLt hoff]
  case beyond => exact hkind.trans (if_neg (by unfold storeSize; omega))

end Sys2Proof.Machine
end

section
/-! SUPPORT. Host accesses of doorbells, masks, heads and memory (R50, R51, R70, R76, R80, R93). -/

namespace Sys2Proof.Machine

-- # Changes that have nothing to do

@[simp] theorem State.when_true (s : State) (f : State → State) : s.when true f = f s := rfl

@[simp] theorem State.when_false (s : State) (f : State → State) : s.when false f = s := rfl

@[simp] theorem State.each_nil {α : Type} (s : State) (f : α → State → State) : s.each [] f = s := rfl

@[simp] theorem State.each_cons {α : Type} (s : State) (x : α) (l : List α) (f : α → State → State) : s.each (x :: l) f = (f x s).each l f := rfl

/-- A pass over a list, none of whose elements changes the state, leaves it. -/
theorem State.each_of_fixed {α : Type} (s : State) (l : List α) {f : α → State → State} (h : ∀ x ∈ l, f x s = s) : s.each l f = s := by
  induction l with
  | nil => rfl
  | cons x rest ih =>
    obtain ⟨hx, hrest⟩ := List.forall_mem_cons.mp h
    rw [State.each_cons, hx]
    exact ih hrest

/-- An access that meets no error of a cached codeword leaves the caches. -/
theorem State.cacheErrors_nil (s : State) : s.cacheErrors [] = s := by
  have hcache : (s.cache.map fun q : Nat × List CacheLine => (q.1, q.2.filter fun y => !([] : List Nat).contains y.line)) = s.cache := by
    simp
  simp only [State.cacheErrors, List.filterMap_nil, List.filter_nil, List.map_nil, hcache, State.each_nil, List.countP_nil, bne_self_eq_false,
    State.when_false]
  rw [State.each_of_fixed _ _ fun _ _ => rfl]

/-- An access on whose way nothing goes wrong meets nothing. -/
theorem State.meets_nil (s : State) : s.meets [] = s := by
  simp only [State.meets, List.filterMap_nil, s.cacheErrors_nil, State.each_nil]

-- # Doorbells (R70, R76, R613)

/-- A doorbell of a function that owns the queue's enabled context is taken. -/
theorem State.doorbell_taken {s : State} {fn q n : Nat} (hthere : s.fnThere fn = true) (hstage : 3 ≤ s.stage) (hctx : s.ctxOf q = some n)
    (hon : s.ctxOn n = true) (hfn : s.ctxFn n = fn) (f : State → State) : s.doorbell fn q f = f s := by
  simp [State.doorbell, hthere, Nat.not_lt.mpr hstage, hctx, hon, hfn]

/-- A tail inside the ring of a running queue is taken over. -/
theorem execSqTailWrite_taken {s : State} {fn : Fin 64} {q : Fin 65536} {tail : BitVec 16}
    (hbell : ∀ f, s.doorbell fn q f = f s) (hruns : s.queueRuns q = true) (htail : tail.toNat < s.sqSize q) :
    execSqTailWrite fn q tail s = .next (s.setQueue q { s.queue q with sqTail := tail.toNat }) := by
  simp only [execSqTailWrite, hbell, hruns, Bool.not_true, Bool.false_eq_true, if_false, Nat.not_le.mpr htail]
  rfl

/-- A head that consumes no more than the written records of a running or draining queue frees their slots. -/
theorem execCqHeadWrite_taken {s : State} {fn : Fin 64} {q : Fin 65536} {head : BitVec 16}
    (hbell : ∀ f, s.doorbell fn q f = f s) (htakes : s.queueRuns q = true ∨ s.queueState q = 4) (hhead : head.toNat < s.cqSize q)
    (hused : consumed (s.cqSize q) (s.queue q).cqHead head.toNat ≤ (s.queue q).used) :
    execCqHeadWrite fn q head s = .next (s.setQueue q { s.queue q with
      cqHead := head.toNat, used := (s.queue q).used - consumed (s.cqSize q) (s.queue q).cqHead head.toNat }) := by
  have hopen : (!s.queueRuns q && s.queueState q != 4) = false := by
    rcases htakes with hruns | hdrains
    · simp [hruns]
    · simp [hdrains]
  simp only [execCqHeadWrite, hbell, hopen, Bool.false_eq_true, if_false, Nat.not_le.mpr hhead, Nat.not_lt.mpr hused]

-- # Message vectors and event rings (R80, R93)

theorem State.msix_unmasked {s : State} {fn vector : Nat} (h : s.unmasked.contains (2048 * fn + vector) = true) :
    s.msix fn vector = s.emit (.msix fn vector) := by
  rw [State.msix, if_pos h]

/-- Unmasking a masked vector sends one message where records are unconsumed. -/
theorem execMsixUnmask_masked {s : State} {fn : Fin 64} {vector : Fin 2048} (hthere : s.fnThere fn = true)
    (hmasked : s.unmasked.contains (2048 * fn.val + vector.val) = false) :
    let t : State := { s with unmasked := (2048 * fn.val + vector.val) :: s.unmasked }
    execMsixUnmask fn vector s = .next (if t.vectorDue fn vector then t.emit (.msix fn vector) else t) := by
  intro t
  have hsent : t.msix fn vector = t.emit (.msix fn vector) := State.msix_unmasked (by simp [t])
  rw [← hsent]
  simp only [execMsixUnmask, hmasked, hthere, Bool.not_true, Bool.or_false, Bool.false_eq_true, if_false]
  rfl

/-- A head that consumes no more than the written records of an event ring frees their slots; an enabled ring then tells of lost events. -/
theorem State.writeEvqHead_taken {s : State} {fn : Fin 64} {head : Nat} (hgo : s.reach fn .EXC_EVQ_HEAD fn = .go) (hhead : head < s.ringSize fn)
    (hused : consumed (s.ringSize fn) (s.fld F.EXC_EVQ_HEAD_HEAD fn) head ≤ (s.ring fn).used) :
    let t := (s.setFld F.EXC_EVQ_HEAD_HEAD fn head).setRing fn
      { s.ring fn with used := (s.ring fn).used - consumed (s.ringSize fn) (s.fld F.EXC_EVQ_HEAD_HEAD fn) head }
    s.writeEvqHead fn head = if s.flag F.EXC_EVQ_CFG_EN fn then t.ringLost fn else t := by
  intro t
  have hfits : ¬ (s.ringSize fn ≤ head ∨ (s.ring fn).used < consumed (s.ringSize fn) (s.fld F.EXC_EVQ_HEAD_HEAD fn) head) := by omega
  have henabled : t.flag F.EXC_EVQ_CFG_EN fn = s.flag F.EXC_EVQ_CFG_EN fn := by
    have hfn : fn.val < 1048576 := by omega
    have hkey : F.EXC_EVQ_CFG_EN.reg.key fn ≠ F.EXC_EVQ_HEAD_HEAD.reg.key fn := RegName.key_ne hfn hfn (by decide)
    exact congrArg (· != 0) (fld_setFld_reg s head hkey)
  rw [State.writeEvqHead, State.reaching_go hgo]
  simp only [hfits, if_false]
  rw [← henabled]
  rfl

-- # BAR4 (R51)

/-- An access whose every byte is reached is one run. -/
theorem openRuns_consecutive {p : Nat → Bool} {a n : Nat} (h : ∀ i, i < n → p (a + i) = true) :
    openRuns p ((List.range n).map fun i => a + i) = if n = 0 then [] else [(a, n)] := by
  induction n generalizing a with
  | zero => rfl
  | succ n ih =>
    have hrest := ih (a := a + 1) fun i hi => by rw [Nat.add_assoc, Nat.add_comm 1]; exact h (i + 1) (by omega)
    have hlist : ((List.range (n + 1)).map fun i => a + i) = a :: (List.range n).map fun i => a + 1 + i := by
      rw [List.range_succ_eq_map]
      simp [Function.comp_def, Nat.add_assoc, Nat.add_comm 1]
    have hfirst : p a = true := h 0 (by omega)
    rw [hlist, openRuns, hfirst, hrest, if_neg (Nat.succ_ne_zero n)]
    cases n <;> simp

/-- With no wrong symbol in memory a read reports the poisoned codewords alone. -/
theorem State.readReport_of_wrong_nil {s : State} (h : s.wrong = []) (agent : Nat) (ctx : Option Nat) (a n : Nat) :
    s.readReport agent ctx a n = ((s.each (s.poisonedWords a n) fun x s => s.uncorrectable agent ctx x).cacheAccess false 0 a n,
      (s.poisonedWords a n).head?.map fun x => (s.place x).1) := by
  have hdecode : s.decodeRange a n = s := by
    have hnone : s.wrongWords a n = [] := by simp [State.wrongWords, h]
    rw [State.decodeRange, hnone, State.each_nil]
  rw [State.readReport, State.readHinted, hdecode]

/-- The caches hide nothing: a byte reads the same after an access. -/
theorem State.devByte_cacheAccess (s : State) (write : Bool) (hint a n b : Nat) : (s.cacheAccess write hint a n).devByte b = s.devByte b := rfl

/-- What an access of the physical function through BAR4 does where all its bytes are memory. -/
def State.bar4Memory (s : State) (a : Nat) : Bar4Op → Answer
  | .read n =>
    let r := if n = 0 then (s, none) else s.readReport 1 none a n
    .next { r.1 with bar4Data := (List.range n).map fun i => r.1.devByte (a + i), bar4Poison := r.2.isSome }
  | .write bs => .next (if bs = [] then s else (s.devWrite a bs).guardWork a bs.length)

/-- The bytes of an access through BAR4. -/
def bar4Length : Bar4Op → Nat
  | .read n => n
  | .write bs => bs.length

/-- The physical function is barred from no byte of memory (R51). -/
theorem execHostBar4Access_memory {s : State} {offset : BitVec 39} {a : Nat} {op : Bar4Op} (hthere : s.fnThere 0 = true) (hstage : 4 ≤ s.stage)
    (ha : 0x10000000 * s.fld F.HIF_BAR4_BASE_BASE 0 + offset.toNat = a) (hmem : ∀ i, i < bar4Length op → s.addrKind (a + i) = .memory) :
    execHostBar4Access 0 offset op [] s = s.bar4Memory a op := by
  have hin : (!s.fnThere 0 || decide (s.stage < 4)) = false := by simp [hthere, Nat.not_lt.mpr hstage]
  have hphysical : (0 : Fin 64).val = 0 := rfl
  have hinside : ((List.range (bar4Length op)).map fun i => a + i).find? (fun x => s.addrKind x != .memory) = none := by simpa using hmem
  have hunbarred : (((List.range (bar4Length op)).map fun i => a + i).any fun _ => false) = false := by simp
  have hruns := openRuns_consecutive (p := fun x => s.addrKind x == .memory) (a := a) (n := bar4Length op) fun i hi => beq_iff_eq.mpr (hmem i hi)
  cases op
  all_goals
    simp only [bar4Length] at hmem hinside hunbarred hruns
    simp only [execHostBar4Access, hphysical, hin, ha, hinside, hunbarred, hruns, State.meets_nil, Bool.false_eq_true, if_false, List.filter_nil,
      bne_self_eq_false, Bool.and_false, Bool.false_and, State.when_false, BEq.rfl, Bool.true_or, Bool.and_true]
  case read n =>
    have hbytes : ∀ t : State, (((List.range n).map fun i => a + i).map fun x => if (s.addrKind x == .memory) = true then t.devByte x else 0) =
        (List.range n).map fun i => t.devByte (a + i) := fun t => by
      simp only [List.map_map, List.map_inj_left, Function.comp_apply, List.mem_range]
      exact fun i hi => if_pos (beq_iff_eq.mpr (hmem i hi))
    rw [hbytes]
    cases n <;> rfl
  case write bs =>
    cases bs with
    | nil => rfl
    | cons b rest =>
      simp [State.bar4Memory]

/-- A read with no wrong symbol in memory answers with poison just where a codeword of the range is poisoned, and else with the bytes. -/
theorem bar4Memory_read {s : State} (hwrong : s.wrong = []) (a n : Nat) : ∃ t, s.bar4Memory a (.read n) = .next t ∧
    t.bar4Poison = (s.poisonedWords a n).any (fun _ => true) ∧
    (s.poisonedWords a n = [] → t.bar4Data = (List.range n).map fun i => s.devByte (a + i)) := by
  refine ⟨_, rfl, ?poison, fun hclean => ?bytes⟩
  case poison =>
    cases n with
    | zero => simp [State.poisonedWords, codewords]
    | succ n =>
      simp only [Nat.succ_ne_zero, if_false, State.readReport_of_wrong_nil hwrong]
      cases s.poisonedWords a (n + 1) <;> rfl
  case bytes =>
    cases n with
    | zero => rfl
    | succ n =>
      simp only [Nat.succ_ne_zero, if_false, State.readReport_of_wrong_nil hwrong, hclean, State.each_nil, State.devByte_cacheAccess]

/-- Settles O20, each access by the lemma about its meaning. -/
theorem hostAccesses : Obligations.HostAccesses := by
  unfold Obligations.HostAccesses
  refine ⟨?doorbells, ?masks, ?blocked, ?heads, ?reads, ?writes⟩
  case doorbells =>
    intro s fn q n hthere hstage hctx hon hfn
    have hbell := State.doorbell_taken hthere hstage hctx hon hfn
    exact ⟨fun hruns tail htail => execSqTailWrite_taken hbell hruns htail,
      fun htakes head hhead hused => execCqHeadWrite_taken hbell htakes hhead hused⟩
  case masks => exact fun s fn vector hthere hmasked => execMsixUnmask_masked hthere hmasked
  case blocked => exact fun s fn hgo => congrArg Host.Outcome.next (State.reaching_go hgo _)
  case heads => exact fun s fn head hgo hhead hused => congrArg Host.Outcome.next (State.writeEvqHead_taken hgo hhead hused)
  case reads =>
    intro s offset n hthere hstage a hmem hwrong
    obtain ⟨t, ht, hread⟩ := bar4Memory_read hwrong a n
    exact ⟨t, (execHostBar4Access_memory (op := .read n) hthere hstage rfl hmem).trans ht, hread⟩
  case writes =>
    intro s offset b hthere hstage a hmem
    have hbytes : ∀ i, i < bar4Length (.write [b]) → s.addrKind (a + i) = .memory := fun i hi => by
      rwa [Nat.lt_one_iff.mp hi, Nat.add_zero]
    exact execHostBar4Access_memory hthere hstage rfl hbytes

end Sys2Proof.Machine
end

section
/-! SUPPORT. Device time through the operations that a reset performs (R42): each leaves it as it was, one lemma an operation. -/

namespace Sys2Proof.Machine

-- # Changes under a condition and along a list

/-- What a change keeps, it keeps where it is made under a condition. -/
theorem State.when_keeps {β : Type} (s : State) {c : Bool} {f : State → State} (g : State → β) (h : ∀ t, g (f t) = g t) :
    g (s.when c f) = g s := by
  unfold State.when
  split
  · exact h s
  · rfl

/-- What each change of a pass keeps, the pass keeps. -/
theorem State.each_keeps {α β : Type} (s : State) {l : List α} {f : α → State → State} (g : State → β) (h : ∀ x t, g (f x t) = g t) :
    g (s.each l f) = g s := by
  induction l generalizing s with
  | nil => rfl
  | cons x rest ih => exact (ih (f x s)).trans (h x s)

@[simp] theorem when_now {s : State} {c : Bool} {f : State → State} (h : ∀ t, (f t).now = t.now) : (s.when c f).now = s.now :=
  s.when_keeps State.now h

@[simp] theorem each_now {α : Type} {s : State} {l : List α} {f : α → State → State} (h : ∀ x t, (f x t).now = t.now) :
    (s.each l f).now = s.now :=
  s.each_keeps State.now h

@[simp] theorem ite_now (c : Prop) [Decidable c] (s t : State) : (if c then s else t).now = if c then s.now else t.now := apply_ite ..

/-- A pass that carries something beside the state, as `each_now` has it. -/
@[simp] theorem foldl_fst_now {α β : Type} {p : State × α} {l : List β} {f : State × α → β → State × α}
    (h : ∀ q x, (f q x).1.now = q.1.now) : (l.foldl f p).1.now = p.1.now := by
  induction l generalizing p with
  | nil => rfl
  | cons x rest ih => exact (ih (p := f p x)).trans (h p x)

-- # Registers, memories, events, queues and tiles

@[simp] theorem draw_now (s : State) (n : Nat) : (s.draw n).2.now = s.now := by simp [State.draw]

@[simp] theorem setDevByte_now (s : State) (a : Nat) (b : Byte) : (s.setDevByte a b).now = s.now := by simp [State.setDevByte]

@[simp] theorem devBytes_now (s : State) (a : Nat) (bs : List Byte) : (s.devBytes a bs).now = s.now := by
  induction bs generalizing s a with
  | nil => rfl
  | cons b rest ih => exact ih (s.setDevByte a b) (a + 1)

@[simp] theorem cacheAccess_now (s : State) (write : Bool) (hint a n : Nat) : (s.cacheAccess write hint a n).now = s.now := by
  simp [State.cacheAccess]

@[simp] theorem touch_now (s : State) (a n : Nat) : (s.touch a n).now = s.now := by simp [State.touch]

@[simp] theorem devStore_now (s : State) (hint a : Nat) (bs : List Byte) : (s.devStore hint a bs).now = s.now :=
  devBytes_now s a bs

@[simp] theorem devWrite_now (s : State) (a : Nat) (bs : List Byte) : (s.devWrite a bs).now = s.now := by simp [State.devWrite]

@[simp] theorem spaceWrite_now (s : State) (space a : Nat) (bs : List Byte) : (s.spaceWrite space a bs).now = s.now := by simp [State.spaceWrite]

@[simp] theorem msix_now (s : State) (fn vector : Nat) : (s.msix fn vector).now = s.now := by simp [State.msix]

@[simp] theorem ringWrite_now (s : State) (fn : Nat) (e : Event) : (s.ringWrite fn e).now = s.now := by simp [State.ringWrite]

@[simp] theorem deliver_now (s : State) (fn : Nat) (e : Event) : (s.deliver fn e).now = s.now := by simp [State.deliver]

@[simp] theorem raise_now (s : State) (sc : Scope) (code sev source detail : Nat) : (s.raise sc code sev source detail).now = s.now := by
  unfold State.raise
  split <;> simp

@[simp] theorem raiseLimited_now (s : State) (key interval : Nat) (sc : Scope) (code sev source detail : Nat) :
    (s.raiseLimited key interval sc code sev source detail).now = s.now := by
  simp [State.raiseLimited]

@[simp] theorem blocked_now (s : State) (fn bar offset : Nat) : (s.blocked fn bar offset).now = s.now := by simp [State.blocked]

@[simp] theorem outside_now (s : State) (agent : Nat) (ctx : Option Nat) (a : Nat) : (s.outside agent ctx a).now = s.now := by
  unfold State.outside
  exact (raiseLimited_now ..).trans (when_now fun _ => rfl)

@[simp] theorem reachMemory_now (s : State) (agent : Nat) (ctx : Option Nat) (a n : Nat) : (s.reachMemory agent ctx a n).now = s.now := by
  simp [State.reachMemory]

@[simp] theorem pushRec_now (s : State) (q : Nat) (x : Cmd) (status detail result : Nat) : (s.pushRec q x status detail result).now = s.now := by
  simp [State.pushRec]

@[simp] theorem finish_now (s : State) (q c status detail result : Nat) : (s.finish q c status detail result).now = s.now := by
  unfold State.finish
  split <;> simp

@[simp] theorem finishFree_now (s : State) (q c status detail : Nat) : (s.finishFree q c status detail).now = s.now := by simp [State.finishFree]

@[simp] theorem markNx_now (s : State) (q c : Nat) : (s.markNx q c).now = s.now := by simp [State.markNx]

@[simp] theorem loseShard_now (s : State) (q c shard : Nat) : (s.loseShard q c shard).now = s.now := by simp [State.loseShard]

@[simp] theorem discardQueue_now (s : State) (q c t : Nat) : (s.discardQueue q c t).now = s.now := by
  unfold State.discardQueue
  exact (modTile_now ..).trans (each_now fun k u => loseShard_now u q c k)

@[simp] theorem launchFault_now (s : State) (q c status detail tile bundle : Nat) : (s.launchFault q c status detail tile bundle).now = s.now := by
  unfold State.launchFault
  split <;> simp

@[simp] theorem tileFault_now (s : State) (t status detail : Nat) : (s.tileFault t status detail).now = s.now := by
  unfold State.tileFault
  dsimp only
  repeat' split
  all_goals simp

@[simp] theorem modStep_now (s : State) (ctx : Nat) (f : Step → Step) : (s.modStep ctx f).now = s.now := by
  unfold State.modStep
  split <;> simp

@[simp] theorem showReplay_now (s : State) (ctx result point shard : Nat) : (s.showReplay ctx result point shard).now = s.now := by
  simp [State.showReplay]

@[simp] theorem activityIn_now (s : State) (ctx k : Nat) : (s.activityIn ctx k).now = s.now := by simp [State.activityIn]

-- # Numerical exceptions

@[simp] theorem recordNum_now (s : State) (ctx : Nat) (e : NumEntry) : (s.recordNum ctx e).2.now = s.now := by
  unfold State.recordNum
  dsimp only
  repeat' split
  all_goals simp

@[simp] theorem numException_now (s : State) (l : Launch) (e : NumEntry) : (s.numException l e).now = s.now := by
  have hrecord := recordNum_now s l.ctx e
  unfold State.numException
  generalize s.recordNum l.ctx e = r at hrecord ⊢
  obtain ⟨i, t⟩ := r
  split
  · rfl
  · dsimp only
    split
    · split
      · rw [loseShard_now, launchFault_now, modTile_now, when_now fun u => modLaunch_now .., markNx_now, hrecord]
      · rw [launchFault_now, modTile_now, when_now fun u => modLaunch_now .., markNx_now, hrecord]
    · rw [when_now fun u => modLaunch_now .., markNx_now, hrecord]

-- # The links of the fabric

@[simp] theorem modPort_now (s : State) (p : Nat) (f : Port → Port) : (s.modPort p f).now = s.now := by simp [State.modPort]

@[simp] theorem putFlit_now (s : State) (p : Nat) (f : Flit) (lseq : Nat) (nak : Bool) : (s.putFlit p f lseq nak).now = s.now := by
  simp [State.putFlit]

@[simp] theorem sendFlit_now (s : State) (p : Nat) (f : Flit) : (s.sendFlit p f).now = s.now := by simp [State.sendFlit]

@[simp] theorem giveBack_now (s : State) (came : Option (Nat × Nat)) : (s.giveBack came).now = s.now := by
  unfold State.giveBack
  split <;> simp

@[simp] theorem drain_now (n : Nat) (s : State) (p : Nat) : (State.drain n s p).now = s.now := by
  induction n generalizing s with
  | zero => rfl
  | succ n ih =>
    unfold State.drain
    dsimp only
    split
    · rfl
    · split
      · rfl
      · rw [ih, giveBack_now, sendFlit_now, modPort_now]

@[simp] theorem drainPort_now (s : State) (p : Nat) : (s.drainPort p).now = s.now := drain_now _ s p

@[simp] theorem unreachable_now (s : State) (p dst : Nat) : (s.unreachable p dst).now = s.now := by simp [State.unreachable]

@[simp] theorem enqueue_now (s : State) (p : Nat) (f : Flit) (came : Option (Nat × Nat)) : (s.enqueue p f came).now = s.now := by simp [State.enqueue]

@[simp] theorem sendOn_now (s : State) (f : Flit) (came : Option (Nat × Nat)) : (s.sendOn f came).now = s.now := by
  unfold State.sendOn
  dsimp only
  repeat' split
  all_goals simp

@[simp] theorem carry_now (s : State) (dsts : List Nat) (o : Out) : (s.carry dsts o).now = s.now := by
  unfold State.carry
  split <;> simp

@[simp] theorem post_now (s : State) (dsts : List Nat) (o : Out) : (s.post dsts o).now = s.now := by simp [State.post]

@[simp] theorem carryMir_now (s : State) (o : Out) : (s.carryMir o).now = s.now := by
  unfold State.carryMir
  split <;> simp

@[simp] theorem postMir_now (s : State) (o : Out) : (s.postMir o).now = s.now := by simp [State.postMir]

-- # Tracked tensors

@[simp] theorem setDesc_now (s : State) (ctx t off n v : Nat) : (s.setDesc ctx t off n v).now = s.now := by simp [State.setDesc]

@[simp] theorem setScale_now (s : State) (ctx t b off n v : Nat) : (s.setScale ctx t b off n v).now = s.now := by simp [State.setScale]

@[simp] theorem chill_now (s : State) (ctx t b : Nat) : (s.chill ctx t b).now = s.now := by simp [State.chill]

@[simp] theorem rollBlock_now (ctx t st last : Nat) (clear : Nat → Bool) (b : Nat) (s : State) :
    (State.rollBlock ctx t st last clear b s).now = s.now := by
  simp [State.rollBlock]

@[simp] theorem underflowWatch_now (s : State) (ctx t st : Nat) (fresh zero : Bool) (n : Nat) :
    (s.underflowWatch ctx t st fresh zero n).now = s.now := by
  simp [State.underflowWatch]

@[simp] theorem coldUnused_now (s : State) (ctx : Nat) (v : Conv) : (s.coldUnused ctx v).now = s.now := by simp [State.coldUnused]

@[simp] theorem roll_now (s : State) (ctx st : Nat) (nonzero : List Nat) (v : Conv) : (s.roll ctx st nonzero v).now = s.now := by simp [State.roll]

-- # Shards

@[simp] theorem setShardFlags_now (s : State) (x : Shard) (flags : Nat) : (s.setShardFlags x flags).now = s.now := by simp [State.setShardFlags]

@[simp] theorem setShardOwner_now (s : State) (x : Shard) (owner twin flags : Nat) : (s.setShardOwner x owner twin flags).now = s.now := by
  simp [State.setShardOwner]

@[simp] theorem deriveElem_now (s : State) (x : Shard) (i : Nat) : (s.deriveElem x i).now = s.now := by simp [State.deriveElem]

-- # Deferred work and the end of a tile

@[simp] theorem flightDone_now (s : State) (t : Nat) (f : MFlight) : (s.flightDone t f).now = s.now := by
  unfold State.flightDone
  split <;> simp

@[simp] theorem drainFlights_now (s : State) (t : Nat) : (s.drainFlights t).now = s.now := by simp [State.drainFlights]

@[simp] theorem startBody_now (s : State) (t : Nat) (d : Deferred) (forced : Bool) : (s.startBody t d forced).now = s.now := by
  unfold State.startBody
  dsimp only
  split
  · exact drainFlights_now s t
  · rw [setPhase_now, setTile_now, storeWrite_now, drainFlights_now]

@[simp] theorem beginGathers_now (s : State) (l : Launch) : (s.beginGathers l).now = s.now := by simp [State.beginGathers]

@[simp] theorem sendUses_now (s : State) (l : Launch) : (s.sendUses l).now = s.now := by
  unfold State.sendUses
  split
  · rfl
  · dsimp only
    split
    · rfl
    · refine (modStep_now ..).trans (each_now fun g t => each_now fun u t => ?_)
      split
      · exact (post_now ..).trans (touch_now ..)
      · rfl

@[simp] theorem tiePoint_now (s : State) (t : Nat) : (s.tiePoint t).now = s.now := by
  unfold State.tiePoint
  split <;> simp

@[simp] theorem tryEnd_now (s : State) (t : Nat) : (s.tryEnd t).now = s.now := by
  unfold State.tryEnd
  dsimp only
  split
  · rfl
  · split
    · split
      · rfl
      · exact startBody_now ..
    · exact (tiePoint_now ..).trans (when_now fun _ => rfl)

@[simp] theorem forceShard_now (s : State) (t : Nat) : (s.forceShard t).now = s.now := by
  unfold State.forceShard
  dsimp only
  repeat' split
  all_goals simp

@[simp] theorem endBody_now (s : State) (t : Nat) : (s.endBody t).now = s.now := by
  unfold State.endBody
  dsimp only
  repeat' split
  all_goals simp

@[simp] theorem releaseTile_now (s : State) (t : Nat) (reached : Bool) : (s.releaseTile t reached).now = s.now := by simp [State.releaseTile]

@[simp] theorem releaseBody_now (s : State) (t : Nat) (reached : Bool) : (s.releaseBody t reached).now = s.now := by
  unfold State.releaseBody
  dsimp only
  repeat' split
  all_goals simp

@[simp] theorem failTile_now (s : State) (t status detail : Nat) : (s.failTile t status detail).now = s.now := by
  unfold State.failTile
  dsimp only
  repeat' split
  all_goals simp

-- # Synchronisation objects

@[simp] theorem modObj_now (s : State) (k : Nat) (f : SyncObj → SyncObj) : (s.modObj k f).now = s.now := by
  unfold State.modObj
  split <;> simp

@[simp] theorem nringWrite_now (s : State) (ctx : Nat) (e : NRec) : (s.nringWrite ctx e).now = s.now := by simp [State.nringWrite]

@[simp] theorem notify_now (s : State) (ctx : Nat) (e : NRec) : (s.notify ctx e).now = s.now := by simp [State.notify]

@[simp] theorem traceRec_now (s : State) (ctx vid : Nat) (o : SyncObj) (event : Nat) (src : Origin) (value : Nat) :
    (s.traceRec ctx vid o event src value).now = s.now := by
  simp [State.traceRec]

@[simp] theorem protoError_now (s : State) (ctx vid code : Nat) (src : Origin) (value : Nat) : (s.protoError ctx vid code src value).now = s.now := by
  unfold State.protoError
  dsimp only
  split
  · exact (notify_now ..).trans (when_now fun _ => rfl)
  · exact (bumpFld_now ..).trans (when_now fun _ => rfl)

@[simp] theorem releaseWaiter_now (s : State) (who : WaiterRef) (value : Nat) : (s.releaseWaiter who value).now = s.now := by
  unfold State.releaseWaiter
  split <;> simp

@[simp] theorem failWaiter_now (s : State) (who : WaiterRef) (status detail : Nat) : (s.failWaiter who status detail).now = s.now := by
  unfold State.failWaiter
  split <;> simp

@[simp] theorem traceRelease_now (s : State) (k : Nat) (o : SyncObj) (w : WaiterRef × Bool) : (s.traceRelease k o w).now = s.now := by
  simp [State.traceRelease]

@[simp] theorem failAll_now (s : State) (k : Nat) (o : SyncObj) (status detail : Nat) : (s.failAll k o status detail).now = s.now := by
  simp [State.failAll]

@[simp] theorem enterError_now (s : State) (k vid code : Nat) : (s.enterError k vid code).now = s.now := by
  unfold State.enterError
  split <;> simp

@[simp] theorem wake_now (s : State) (ctx k : Nat) (side : Bool) : (s.wake ctx k side).now = s.now := by
  unfold State.wake
  split <;> simp

@[simp] theorem dropWatch_now (s : State) (ctx k : Nat) (w : Watch) : (s.dropWatch ctx k w).now = s.now := by simp [State.dropWatch]

/-- A change that the signal of a watch makes leaves device time. -/
def Act.keepsTime (f : Act) : Prop := ∀ s target inc tag, (f s target inc tag).now = s.now

@[simp] theorem fire_now (act : Option Act) (hact : ∀ f ∈ act, f.keepsTime) (ctx k v : Nat) (w : Watch) (s : State) :
    (State.fire act ctx k v w s).now = s.now := by
  unfold State.fire
  extract_lets n passed told
  have hpassed : passed.now = s.now := by
    unfold passed
    split
    · exact modObj_now ..
    · exact dropWatch_now ..
  have htold : told.now = s.now := (when_now fun t => notify_now ..).trans hpassed
  split
  · split
    · exact (hact _ rfl ..).trans htold
    · exact (protoError_now ..).trans htold
  · exact htold

@[simp] theorem fireList_now (act : List Watch → Option Act) (hact : ∀ l, ∀ f ∈ act l, f.keepsTime) (ctx k : Nat) (side : Bool) (l : List Watch)
    (s : State) : (State.fireList act ctx k side l s).now = s.now := by
  induction l generalizing s with
  | nil => rfl
  | cons w rest ih =>
    unfold State.fireList
    refine (ih _).trans ?_
    split
    · rfl
    · split
      · exact fire_now _ (hact rest) ..
      · rfl

@[simp] theorem fireAll_now (act : Later → Option Act) (hact : ∀ l, ∀ f ∈ act l, f.keepsTime) (later : Later) (ctx k : Nat) (side : Bool) (s : State) :
    (State.fireAll act later ctx k side s).now = s.now := by
  unfold State.fireAll
  split
  · rfl
  · exact fireList_now _ (fun _ => hact _) ..

/-- An increment leaves device time where those that its watches signal do. -/
theorem applyInc_now_of_chain (fuel : Nat) (hchain : ∀ n, fuel = n + 1 → ∀ later (s : State) ctx vid inc src,
      (State.applyInc n true later s ctx vid inc src .none).1.now = s.now) (park : Bool) (later : Later) (s : State) (ctx vid inc : Nat) (src : Origin)
    (reply : IncReply) : (State.applyInc fuel park later s ctx vid inc src reply).1.now = s.now := by
  unfold State.applyInc
  split
  · rfl
  · exact protoError_now ..
  · dsimp only
    split
    · split
      · rfl
      · split <;> rfl
    · split
      · exact protoError_now ..
      · split
        · rfl
        · split
          · dsimp only
            split
            · exact (enterError_now ..).trans (protoError_now ..)
            · exact protoError_now ..
          · refine (fireAll_now _ (fun l f hf => ?_) ..).trans ((wake_now ..).trans (traceRec_now ..))
            cases fuel with
            | zero => cases hf
            | succ n =>
              cases hf
              exact fun t target i tag => hchain n rfl ..

@[simp] theorem applyInc_now (fuel : Nat) (park : Bool) (later : Later) (s : State) (ctx vid inc : Nat) (src : Origin) (reply : IncReply) :
    (State.applyInc fuel park later s ctx vid inc src reply).1.now = s.now := by
  induction fuel generalizing park later s ctx vid inc src reply with
  | zero => exact applyInc_now_of_chain 0 (fun n h => by omega) ..
  | succ n ih => exact applyInc_now_of_chain (n + 1) (fun m h => by cases h; exact fun _ _ _ _ _ _ => ih ..) ..

@[simp] theorem replyInc_now (s : State) (r : IncReply) (a : IncAns) : (s.replyInc r a).now = s.now := by
  unfold State.replyInc
  split <;> simp

@[simp] theorem applyHeld_now (s : State) (ctx : Nat) (l : List HeldInc) : (s.applyHeld ctx l).1.now = s.now := by
  induction l generalizing s with
  | nil => rfl
  | cons h rest ih =>
    have hinc := applyInc_now h.chain true [] s ctx h.vid h.inc h.origin h.reply
    unfold State.applyHeld
    exact (ih _).trans ((replyInc_now ..).trans hinc)

@[simp] theorem cancelWaits_now (s : State) (who : WaiterRef) : (s.cancelWaits who).now = s.now := by simp [State.cancelWaits]

@[simp] theorem abandon_now (s : State) (ctx : Nat) (tiles : List Nat) : (s.abandon ctx tiles).now = s.now := by simp [State.abandon]

@[simp] theorem cancelWatch_now (s : State) (ctx k : Nat) (w : Watch) (report : Bool) : (s.cancelWatch ctx k w report).now = s.now := by
  simp [State.cancelWatch]

@[simp] theorem unmakeObj_now (s : State) (k status : Nat) (report : Bool) : (s.unmakeObj k status report).now = s.now := by
  unfold State.unmakeObj
  split
  · rfl
  · refine (when_now fun t => applyHeld_now ..).trans ((failAll_now ..).trans ?_)
    refine (each_now fun p t => ?_).trans (each_now fun w t => cancelWatch_now ..)
    split
    · exact each_now fun w t => cancelWatch_now ..
    · rfl

-- # The boot flash

@[simp] theorem writeRecord_now (s : State) (r : FlashRec) (body : List Byte) : (s.writeRecord r body).now = s.now := by simp [State.writeRecord]

@[simp] theorem writeRepairs_now (s : State) (l : List Repair) : (s.writeRepairs l).now = s.now := by simp [State.writeRepairs]

@[simp] theorem addRepair_now (s : State) (e : Repair) : (s.addRepair e).now = s.now := by simp [State.addRepair]

@[simp] theorem noteRetired_now (s : State) (ch trigger : Nat) : (s.noteRetired ch trigger).now = s.now := by simp [State.noteRetired]

-- # The symbol code

@[simp] theorem mend_now (s : State) (key : Nat) : (s.mend key).now = s.now := by simp [State.mend]

@[simp] theorem leaveStored_now (s : State) (key : Nat) : (s.leaveStored key).now = s.now := by simp [State.leaveStored]

@[simp] theorem garble_now (s : State) (key : Nat) : (s.garble key).now = s.now :=
  each_now (s := s.mend key) (f := fun i t => { (t.draw 256).2 with mem := memSet (t.draw 256).2.mem (32 * key + i) (BitVec.ofNat 8 (t.draw 256).1) })
    fun _ _ => rfl

-- # Memory errors

@[simp] theorem retire_now (s : State) (ch trigger : Nat) : (s.retire ch trigger).now = s.now := by
  unfold State.retire
  dsimp only
  repeat' split
  all_goals simp

@[simp] theorem retireIn_now (s : State) (ch trigger : Nat) : (s.retireIn ch trigger).now = s.now := by simp [State.retireIn]

@[simp] theorem retireAuto_now (s : State) (ch trigger : Nat) : (s.retireAuto ch trigger).now = s.now := by simp [State.retireAuto]

@[simp] theorem countUe_now (s : State) (ch : Nat) : (s.countUe ch).now = s.now := by
  unfold State.countUe
  dsimp only
  repeat' split
  all_goals simp

@[simp] theorem countCe_now (s : State) (ch : Nat) : (s.countCe ch).now = s.now := by
  unfold State.countCe
  dsimp only
  repeat' split
  all_goals simp

@[simp] theorem poisonKey_now (s : State) (k : Nat) : (s.poisonKey k).now = s.now := by simp [State.poisonKey]

@[simp] theorem poisonWord_now (s : State) (a : Nat) : (s.poisonWord a).now = s.now := by simp [State.poisonWord]

@[simp] theorem decodeWord_now (s : State) (k : Nat) : (s.decodeWord k).now = s.now := by
  unfold State.decodeWord
  split <;> simp

@[simp] theorem decodeRange_now (s : State) (a n : Nat) : (s.decodeRange a n).now = s.now := by simp [State.decodeRange]

@[simp] theorem uncorrectable_now (s : State) (agent : Nat) (ctx : Option Nat) (a : Nat) : (s.uncorrectable agent ctx a).now = s.now := by
  simp [State.uncorrectable]

@[simp] theorem readHinted_now (s : State) (hint agent : Nat) (ctx : Option Nat) (a n : Nat) : (s.readHinted hint agent ctx a n).1.now = s.now := by
  simp [State.readHinted]

@[simp] theorem readReport_now (s : State) (agent : Nat) (ctx : Option Nat) (a n : Nat) : (s.readReport agent ctx a n).1.now = s.now := by
  simp [State.readReport]

-- # Engine passes

@[simp] theorem showBase_now (s : State) (st : Nat) : (s.showBase st).now = s.now := by
  unfold State.showBase
  dsimp only
  repeat' split
  all_goals simp

@[simp] theorem startPass_now (s : State) (k ctx : Nat) (x : Shard) (kind : PassKind) : (s.startPass k ctx x kind).now = s.now := by
  simp [State.startPass]

@[simp] theorem checkPlanes_now (s : State) (ctx : Nat) (x : Shard) (l : List Nat) : (s.checkPlanes ctx x l).now = s.now := by
  simp [State.checkPlanes]

@[simp] theorem startPasses_now (s : State) (ks : List Nat) (ctx : Nat) (x : Shard) (kind : PassKind) :
    (s.startPasses ks ctx x kind).now = s.now := by
  simp [State.startPasses]

@[simp] theorem tryIntake_now (s : State) (ctx shard : Nat) : (s.tryIntake ctx shard).now = s.now := by
  unfold State.tryIntake
  split
  · rfl
  · split
    · exact (startPasses_now ..).trans (modStep_now ..)
    · rfl

@[simp] theorem startIntakes_now (s : State) : s.startIntakes.now = s.now := by simp [State.startIntakes]

@[simp] theorem endPass_now (s : State) (k : Nat) : (s.endPass k).now = s.now := by simp [State.endPass]

-- # Comparisons of a twin pair

@[simp] theorem unmark_now (s : State) (x : Shard) (b : Nat) : (s.unmark x b).now = s.now := by simp [State.unmark]

@[simp] theorem writeParts_now (s : State) (l : List (Nat × Nat)) (bs : List Byte) : (s.writeParts l bs).now = s.now := by
  induction l generalizing s bs with
  | nil => rfl
  | cons p rest ih => exact (ih ..).trans (devWrite_now ..)

@[simp] theorem deriveBlock_now (s : State) (x : Shard) (b : Nat) : (s.deriveBlock x b).now = s.now := by simp [State.deriveBlock]

@[simp] theorem dropCmp_now (s : State) (ctx shard : Nat) : (s.dropCmp ctx shard).now = s.now := by simp [State.dropCmp]

@[simp] theorem endCmp_now (s : State) (c : PairCmp) : (s.endCmp c).now = s.now := by simp [State.endCmp]

@[simp] theorem setCmp_now (s : State) (c : PairCmp) : (s.setCmp c).now = s.now := by simp [State.setCmp]

@[simp] theorem settleMirror_now (s : State) (ctx : Nat) (x : Shard) : (s.settleMirror ctx x).now = s.now := by
  unfold State.settleMirror
  split <;> simp

@[simp] theorem countDiv_now (s : State) (kind : Nat) : (s.countDiv kind).now = s.now := by
  unfold State.countDiv
  split <;> simp

@[simp] theorem diverge_now (s : State) (c : PairCmp) (x : Shard) (b kind : Nat) (mirror : Bool) : (s.diverge c x b kind mirror).now = s.now := by
  unfold State.diverge
  refine (when_now fun t => setFld_now t ..).trans ?_
  split
  · simp only [raise_now, setFld_now, countDiv_now]
  · simp only [raise_now, setFld_now, countDiv_now]

@[simp] theorem unmended_now (s : State) (ctx shard b : Nat) : (s.unmended ctx shard b).now = s.now := by simp [State.unmended]

@[simp] theorem askBlock_now (s : State) (c : PairCmp) (x : Shard) (b : Nat) : (s.askBlock c x b).now = s.now := by simp [State.askBlock]

@[simp] theorem readBlock_now (s : State) (ctx : Nat) (x : Shard) (b : Nat) : (s.readBlock ctx x b).now = s.now := by simp [State.readBlock]

@[simp] theorem sendRepair_now (s : State) (ctx : Nat) (x : Shard) (b : Nat) : (s.sendRepair ctx x b).now = s.now := by simp [State.sendRepair]

@[simp] theorem compareBlock_now (x : Shard) (a : State × PairCmp) (b : Nat) : (State.compareBlock x a b).1.now = a.1.now := by
  obtain ⟨s, c⟩ := a
  unfold State.compareBlock
  dsimp only
  repeat' split
  all_goals simp

@[simp] theorem confirmCopy_now (s : State) (ctx shard : Nat) : (s.confirmCopy ctx shard).now = s.now := by simp [State.confirmCopy]

@[simp] theorem compare_now (s : State) (c : PairCmp) (x : Shard) (blocks : List Nat) : (s.compare c x blocks).now = s.now := by
  have hblocks : (blocks.foldl (State.compareBlock x) (s, c)).1.now = s.now := foldl_fst_now fun a b => compareBlock_now x a b
  unfold State.compare
  generalize blocks.foldl (State.compareBlock x) (s, c) = r at hblocks ⊢
  obtain ⟨t, d⟩ := r
  dsimp only
  split
  · rw [confirmCopy_now, endCmp_now, hblocks]
  · rw [setCmp_now, hblocks]

@[simp] theorem takeDigests_now (s : State) (ctx : Nat) (x : Shard) (pass : DigestPass) (step first : Nat) (digests marks : List Nat) :
    (s.takeDigests ctx x pass step first digests marks).now = s.now := by
  unfold State.takeDigests
  dsimp only
  split
  · exact each_now fun b t => sendRepair_now ..
  · split
    · split
      · rfl
      · exact compare_now ..
    · rfl

@[simp] theorem takeRepair_now (s : State) (ctx : Nat) (x : Shard) (b : Nat) (bytes : List Byte) : (s.takeRepair ctx x b bytes).now = s.now := by
  unfold State.takeRepair
  dsimp only
  repeat' split
  all_goals simp

-- # Rounds of the exchange

@[simp] theorem modXch_now (s : State) (ctx : Nat) (f : Xch → Xch) : (s.modXch ctx f).now = s.now := by simp [State.modXch]

@[simp] theorem modGate_now (s : State) (ctx : Nat) (f : Gate → Gate) : (s.modGate ctx f).now = s.now := by simp [State.modGate]

@[simp] theorem openRound_now (s : State) (ctx r : Nat) : (s.openRound ctx r).now = s.now := by simp [State.openRound]

@[simp] theorem noteFormed_now (s : State) (ctx r : Nat) : (s.noteFormed ctx r).now = s.now := by simp [State.noteFormed]

-- # Checkpoints

@[simp] theorem startCopies_now (s : State) (ctx : Nat) (kind : PassKind) (l : List Shard) : (s.startCopies ctx kind l).now = s.now := by
  unfold State.startCopies
  refine each_now fun st t => ?_
  split
  · exact startPass_now ..
  · rfl

@[simp] theorem endCopies_now (s : State) (ctx : Nat) (kind : PassKind) : (s.endCopies ctx kind).now = s.now := by simp [State.endCopies]

@[simp] theorem readForImage_now (s : State) (ctx : Nat) : (s.readForImage ctx).now = s.now := by simp [State.readForImage]

@[simp] theorem ckptPoint_now (s : State) (ctx : Nat) : (s.ckptPoint ctx).now = s.now := by simp [State.ckptPoint]

@[simp] theorem failCkpt_now (s : State) (ctx why : Nat) : (s.failCkpt ctx why).now = s.now := by simp [State.failCkpt]

-- # Register accesses

@[simp] theorem blockedReg_now (s : State) (fn : Nat) (r : RegName) (i : Nat) : (s.blockedReg fn r i).now = s.now := by simp [State.blockedReg]

@[simp] theorem reaching_now {s : State} {fn : Nat} {r : RegName} {i : Nat} {f : State → State} (h : (f s).now = s.now) :
    (s.reaching fn r i f).now = s.now := by
  unfold State.reaching
  split
  · exact h
  · rfl
  · exact blockedReg_now ..

-- # Apply passes

@[simp] theorem startApply_now (s : State) (ctx r : Nat) (x : Shard) : (s.startApply ctx r x).now = s.now := by
  unfold State.startApply
  split
  · rfl
  · split
    · rfl
    · exact (startPasses_now ..).trans ((when_now fun t => postMir_now ..).trans (modXch_now ..))

@[simp] theorem startApplies_now (s : State) (ctx r : Nat) : (s.startApplies ctx r).now = s.now := by
  unfold State.startApplies
  refine each_now fun n t => ?_
  split
  · exact startApply_now ..
  · rfl

-- # Far buffers

@[simp] theorem showBuf_now (s : State) (port : Nat) : (s.showBuf port).now = s.now := by simp [State.showBuf]

-- # Adoption

@[simp] theorem setMember_now (s : State) (g : Group) (r dev : Nat) : (s.setMember g r dev).now = s.now := by simp [State.setMember]

@[simp] theorem restartColls_now (s : State) (ctx : Nat) (hit : Coll → Bool) : (s.restartColls ctx hit).now = s.now := by simp [State.restartColls]

@[simp] theorem rewriteGroup_now (s : State) (ctx gn dev : Nat) (g : Group) (ranks : List Nat) : (s.rewriteGroup ctx gn dev g ranks).now = s.now := by
  simp [State.rewriteGroup]

@[simp] theorem rewriteForward_now (s : State) (ctx failed adopter : Nat) (back : Bool) :
    (s.rewriteForward ctx failed adopter back).1.now = s.now := by
  simp [State.rewriteForward]

@[simp] theorem resendSeals_now (s : State) (ctx adopter : Nat) (shards : List Nat) (ledger : Bool) :
    (s.resendSeals ctx adopter shards ledger).now = s.now := by
  simp [State.resendSeals]

@[simp] theorem untrackGrads_now (s : State) (ctx : Nat) : (s.untrackGrads ctx).now = s.now := by
  unfold State.untrackGrads
  exact each_now fun l t => (modLaunch_now ..).trans (each_now fun v t => each_now fun b t => (setScale_now ..).trans (setScale_now ..))

@[simp] theorem reviveFinals_now (s : State) (ctx : Nat) : (s.reviveFinals ctx).now = s.now := by
  unfold State.reviveFinals
  split <;> simp

@[simp] theorem releaseHolds_now (s : State) (ctx : Nat) : (s.releaseHolds ctx).now = s.now := by
  unfold State.releaseHolds
  exact each_now fun l u => each_now fun t u => (when_now fun v => (releaseBody_now ..).trans (cancelWaits_now ..)).trans
    (when_now fun v => (releaseTile_now ..).trans (cancelWaits_now v (.tile t)))

@[simp] theorem dropReplica_now (s : State) (ctx replica : Nat) : (s.dropReplica ctx replica).now = s.now := by
  unfold State.dropReplica
  split <;> simp

@[simp] theorem rebalance_now (s : State) (ctx a b : Nat) : (s.rebalance ctx a b).now = s.now := by simp [State.rebalance]

@[simp] theorem restoreSamples_now (s : State) (ctx : Nat) : (s.restoreSamples ctx).now = s.now := by simp [State.restoreSamples]

@[simp] theorem rebalanceDue_now (s : State) (ctx : Nat) : (s.rebalanceDue ctx).now = s.now := by simp [State.rebalanceDue]

@[simp] theorem showAdopted_now (s : State) (ctx : Nat) : (s.showAdopted ctx).now = s.now := by simp [State.showAdopted]

@[simp] theorem handbackEnd_now (s : State) : s.handbackEnd.now = s.now := by simp [State.handbackEnd]

@[simp] theorem returnShards_now (s : State) (ctx owner twin : Nat) : (s.returnShards ctx owner twin).now = s.now := by simp [State.returnShards]

@[simp] theorem takeAdoption_now (s : State) (ctx failed adopter replica other : Nat) (drop back : Bool) :
    (s.takeAdoption ctx failed adopter replica other drop back).now = s.now := by
  simp [State.takeAdoption]

@[simp] theorem handbackAt_now (s : State) (ctx : Nat) : (s.handbackAt ctx).now = s.now := by simp [State.handbackAt]

@[simp] theorem sendCopies_now (s : State) (ctx : Nat) : (s.sendCopies ctx).now = s.now := by simp [State.sendCopies]

@[simp] theorem stepBoundary_now (s : State) (ctx : Nat) : (s.stepBoundary ctx).now = s.now := by simp [State.stepBoundary]

-- # The end of a launch

@[simp] theorem writePhases_now (s : State) (ctx : Nat) (p : Step) (tiles : List Nat) : (s.writePhases ctx p tiles).now = s.now := by
  simp [State.writePhases]

@[simp] theorem writeCounts_now (s : State) (ctx : Nat) (tiles : List Nat) : (s.writeCounts ctx tiles).now = s.now := by
  unfold State.writeCounts
  exact each_now fun _ _ => rfl

@[simp] theorem writeCapsule_now (s : State) (l : Launch) (p : Step) (status : Nat) : (s.writeCapsule l p status).now = s.now := by
  simp [State.writeCapsule]

@[simp] theorem endReplay_now (s : State) (ctx : Nat) (p : Step) : (s.endReplay ctx p).now = s.now := by
  unfold State.endReplay
  split
  · rfl
  · refine (each_now fun x t => devWrite_now ..).trans ?_
    split
    · exact showReplay_now ..
    · exact showReplay_now ..

@[simp] theorem closeRound_now (s : State) (ctx : Nat) (p : Step) : (s.closeRound ctx p).now = s.now := by
  unfold State.closeRound
  dsimp only
  split
  · rfl
  · split
    · split
      · exact (noteFormed_now ..).trans ((openRound_now ..).trans (modXch_now ..))
      · exact modXch_now ..
    · exact modXch_now ..

@[simp] theorem closeStep_now (s : State) (l : Launch) (status : Nat) : (s.closeStep l status).now = s.now := by
  unfold State.closeStep
  split
  · rfl
  · split
    · rfl
    · refine (when_now fun t => ckptPoint_now ..).trans ((stepBoundary_now ..).trans ?_)
      refine (closeRound_now ..).trans ((endReplay_now ..).trans ((writeCapsule_now ..).trans ?_))
      exact (writeCounts_now ..).trans ((writePhases_now ..).trans (each_now fun t u => setPhase_now ..))

@[simp] theorem rollAll_now (s : State) (l : Launch) : (s.rollAll l).now = s.now := by simp [State.rollAll]

@[simp] theorem reportLost_now (s : State) (l : Launch) : (s.reportLost l).now = s.now := by
  unfold State.reportLost
  split <;> simp

@[simp] theorem closeLaunch_now (s : State) (l : Launch) (status : Nat) : (s.closeLaunch l status).now = s.now := by simp [State.closeLaunch]

-- # Commands and contexts

@[simp] theorem cleanCmd_now (s : State) (q : Nat) (x : Cmd) (status : Nat) : (s.cleanCmd q x status).now = s.now := by
  have hcancelled : (s.cancelWaits (.cmd q x.num)).now = s.now := cancelWaits_now ..
  unfold State.cleanCmd
  extract_lets cancelled quiet quieted
  split
  · exact (closeLaunch_now ..).trans hcancelled
  · split
    · split
      · exact hcancelled
      · exact hcancelled
    · exact hcancelled

@[simp] theorem writeRec_now (s : State) (q : Nat) (r : Rec) : (s.writeRec q r).now = s.now := by
  unfold State.writeRec
  refine (when_now fun t => ?_).trans ((spaceWrite_now ..).trans (spaceWrite_now ..))
  split
  · exact msix_now ..
  · rfl

@[simp] theorem startCtxReset_now (s : State) (n : Nat) : (s.startCtxReset n).now = s.now := by simp [State.startCtxReset]

@[simp] theorem writeCtxCfg_now (s : State) (fn n : Nat) (h : Half) (v : Word) : (s.writeCtxCfg fn n h v).now = s.now := by
  unfold State.writeCtxCfg
  refine reaching_now ?_
  dsimp only
  split
  · split
    · exact blockedReg_now ..
    · exact startCtxReset_now ..
  · split
    · split
      · exact blockedReg_now ..
      · split
        · rfl
        · exact raise_now ..
    · rfl

-- # The mailbox

@[simp] theorem mbxDone_now (s : State) (fn : Nat) : (s.mbxDone fn).now = s.now := by simp [State.mbxDone]

@[simp] theorem respond_now (s : State) (fn status detail : Nat) (fields : List Byte) : (s.respond fn status detail fields).now = s.now := by
  simp [State.respond]

-- # Messages of the twin

@[simp] theorem sayHello_now (s : State) : s.sayHello.now = s.now := by simp [State.sayHello]

@[simp] theorem answerHello_now (s : State) (pst : Nat) : (s.answerHello pst).now = s.now := by simp [State.answerHello]

@[simp] theorem serveHello_now (s : State) (order stepping dev pos pst : Nat) : (s.serveHello order stepping dev pos pst).now = s.now := by
  unfold State.serveHello
  split <;> simp

@[simp] theorem serveGradient_now (s : State) (ctx : Nat) (x : Shard) (grad gexp : List Byte) : (s.serveGradient ctx x grad gexp).now = s.now := by
  simp [State.serveGradient]

@[simp] theorem serveDelta_now (s : State) (ctx : Nat) (x : Shard) (round : Nat) (dlt : List Nat) : (s.serveDelta ctx x round dlt).now = s.now := by
  simp [State.serveDelta]

/-- The meaning of a copied block without its local names. It is an equation of states on purpose: to compare the device times of the two
sides, Lean's kernel would first evaluate the conditions, and those divide by the size of a digest block. -/
theorem State.serveCopy_eq (s : State) (ctx : Nat) (x : Shard) (block : Nat) (bytes : List Byte) : s.serveCopy ctx x block bytes =
    if s.pairState == 4 && s.mirrors x && decide (block < x.digestBlocks) && bytes.length == (s.blockBytes x block).length then
      (if x.planeOf block ≤ 1 then ((s.writeParts (x.blockParts block) bytes).unmark x block).deriveBlock x block
        else (s.writeParts (x.blockParts block) bytes).unmark x block).when (block + 1 == x.digestBlocks) fun s =>
          { s with copied := (ctx, x.num) :: s.copied }
    else s := rfl

@[simp] theorem serveCopy_now (s : State) (ctx : Nat) (x : Shard) (block : Nat) (bytes : List Byte) :
    (s.serveCopy ctx x block bytes).now = s.now := by
  rw [State.serveCopy_eq]
  split
  · rw [when_now, ite_now, deriveBlock_now, ite_self, unmark_now, writeParts_now]
    exact fun _ => rfl
  · rfl

/-- What a message about a shard does where the twin is heard and the shard is known. -/
def State.forShard (s : State) (ctx shard : Nat) (f : Shard → State) : State := if s.pairBeats then (s.shard? ctx shard).elim s f else s

theorem forShard_now {s : State} {ctx shard : Nat} {f : Shard → State} (h : ∀ x, (f x).now = s.now) : (s.forShard ctx shard f).now = s.now := by
  unfold State.forShard
  split
  · cases s.shard? ctx shard with
    | none => rfl
    | some x => exact h x
  · rfl

theorem forShard_ite_now {s : State} {ctx shard : Nat} {p : Shard → Prop} [DecidablePred p] {f : Shard → State} (h : ∀ x, (f x).now = s.now) :
    (s.forShard ctx shard fun x => if p x then f x else s).now = s.now :=
  forShard_now fun x => (ite_now ..).trans (by rw [h x, ite_self])

/-- A message is brought into the form of `State.forShard` by an equation of states, for the reason given at `State.serveCopy_eq`. -/
@[simp] theorem servePair_now (s : State) (m : PairMsg) : (s.servePair m).now = s.now := by
  cases m with
  | hello order stepping dev pos pst =>
    have heq : s.servePair (.hello order stepping dev pos pst) = if s.pairLive then s.serveHello order stepping dev pos pst else s := rfl
    rw [heq, ite_now, serveHello_now, ite_self]
  | gradient ctx shard grad gexp =>
    have heq : s.servePair (.gradient ctx shard grad gexp) = s.forShard ctx shard fun x => s.serveGradient ctx x grad gexp := rfl
    rw [heq]
    exact forShard_now fun x => serveGradient_now ..
  | decision ctx step d =>
    unfold State.servePair
    dsimp only
    split
    · exact modStep_now ..
    · rfl
  | delta ctx shard round dlt =>
    have heq : s.servePair (.delta ctx shard round dlt) = s.forShard ctx shard fun x => s.serveDelta ctx x round dlt := rfl
    rw [heq]
    exact forShard_now fun x => serveDelta_now ..
  | digest ctx shard pass step first digests marks =>
    have heq : s.servePair (.digest ctx shard pass step first digests marks) =
        s.forShard ctx shard fun x => s.takeDigests ctx x pass step first digests marks := rfl
    rw [heq]
    exact forShard_now fun x => takeDigests_now ..
  | repair ctx shard block bytes =>
    have heq : s.servePair (.repair ctx shard block bytes) = s.forShard ctx shard fun x =>
        if block < x.digestBlocks ∧ bytes.length = (s.blockBytes x block).length then s.takeRepair ctx x block bytes else s := rfl
    rw [heq]
    exact forShard_ite_now fun x => takeRepair_now ..
  | copy ctx shard block bytes =>
    have heq : s.servePair (.copy ctx shard block bytes) = s.forShard ctx shard fun x => s.serveCopy ctx x block bytes := rfl
    rw [heq]
    exact forShard_now fun x => serveCopy_now ..

@[simp] theorem resumeDispatch_now (s : State) : s.resumeDispatch.now = s.now := by simp [State.resumeDispatch]

-- # Power

@[simp] theorem showBound_now (s : State) : s.showBound.now = s.now := by simp [State.showBound]

@[simp] theorem abandonAct_now (s : State) (a : Activation) (why : Nat) : (s.abandonAct a why).now = s.now := by simp [State.abandonAct]

@[simp] theorem deferActivation_now (s : State) : s.deferActivation.now = s.now := by
  unfold State.deferActivation
  split <;> simp

@[simp] theorem setCause_now (s : State) (bit : Nat) (on : Bool) : (s.setCause bit on).now = s.now := by simp [State.setCause]

@[simp] theorem vrFault_now (s : State) : s.vrFault.now = s.now := by simp [State.vrFault]

-- # Sessions

@[simp] theorem modSession_now (s : State) (f : Session → Session) : (s.modSession f).now = s.now := by simp [State.modSession]

@[simp] theorem openSession_now (s : State) : s.openSession.now = s.now := by simp [State.openSession]

@[simp] theorem attached_now (s : State) (fn : Nat) : (s.attached fn).now = s.now := by simp [State.attached]

@[simp] theorem shutNext_now (n : Nat) (s : State) : (State.shutNext n s).now = s.now := by
  induction n generalizing s with
  | zero => rfl
  | succ n ih =>
    unfold State.shutNext
    split
    · rfl
    · split
      · exact startCtxReset_now ..
      · exact ih _
    · exact (when_now fun t => (attached_now ..).trans (openSession_now t)).trans (raise_now ..)

@[simp] theorem shutDone_now (s : State) (n : Nat) : (s.shutDone n).now = s.now := by
  unfold State.shutDone
  split
  · split
    · exact shutNext_now ..
    · rfl
  · rfl

-- # The reset of a context

@[simp] theorem clearCtxRegs_now (s : State) (n : Nat) : (s.clearCtxRegs n).now = s.now := by simp [State.clearCtxRegs]

@[simp] theorem clearCtxState_now (s : State) (n : Nat) : (s.clearCtxState n).now = s.now := by simp [State.clearCtxState]

@[simp] theorem releaseCtx_now (s : State) (n : Nat) : (s.releaseCtx n).now = s.now := by simp [State.releaseCtx]

@[simp] theorem endCtxCmds_now (s : State) (n : Nat) : (s.endCtxCmds n).now = s.now := by simp [State.endCtxCmds]

@[simp] theorem flushRecs_now (n : Nat) (s : State) (q : Nat) : (State.flushRecs n s q).now = s.now := by
  induction n generalizing s with
  | zero => rfl
  | succ n ih =>
    unfold State.flushRecs
    split
    · rfl
    · split
      · exact (ih _).trans (writeRec_now ..)
      · rfl

@[simp] theorem flushCtx_now (s : State) (n : Nat) : (s.flushCtx n).now = s.now := by
  unfold State.flushCtx
  exact each_now fun p t => flushRecs_now ..

-- # Straps and the TAP

@[simp] theorem takeStraps_now (s : State) : s.takeStraps.now = s.now := by
  unfold State.takeStraps
  extract_lets v bit straps pos small size sized
  refine (each_now fun st t => setFld_now ..).trans ?_
  rw [setFld_now, setFld_now, setFld_now, setFld_now, setFld_now, setFld_now, setFld_now, setFld_now]

@[simp] theorem tapAfterReset_now (s : State) : s.tapAfterReset.now = s.now := by simp [State.tapAfterReset]

-- # Recovery

@[simp] theorem setRecov_now (s : State) (st why : Nat) : (s.setRecov st why).now = s.now := by simp [State.setRecov]

@[simp] theorem recover_now (s : State) : s.recover.now = s.now := by
  unfold State.recover
  extract_lets len
  split
  · rfl
  · split
    · exact setRecov_now ..
    · rw [setFld_now, setRecov_now]

end Sys2Proof.Machine
end

section
/-! SUPPORT. Device time through a reset (R42, R494, R570, R585). -/

namespace Sys2Proof.Machine

-- # The state of the boot through an event

@[simp] theorem when_boot {s : State} {c : Bool} {f : State → State} (h : ∀ t, (f t).boot = t.boot) : (s.when c f).boot = s.boot :=
  s.when_keeps State.boot h

@[simp] theorem devWrite_boot (s : State) (a : Nat) (bs : List Byte) : (s.devWrite a bs).boot = s.boot := by
  have hbytes : (s.devBytes a bs).boot = s.boot := by
    induction bs generalizing s a with
    | nil => rfl
    | cons b rest ih => exact ih (s.setDevByte a b) (a + 1)
  exact hbytes

@[simp] theorem spaceWrite_boot (s : State) (space a : Nat) (bs : List Byte) : (s.spaceWrite space a bs).boot = s.boot := by
  unfold State.spaceWrite
  split
  · rfl
  · exact devWrite_boot ..

@[simp] theorem msix_boot (s : State) (fn vector : Nat) : (s.msix fn vector).boot = s.boot := by
  unfold State.msix
  split <;> rfl

@[simp] theorem ringWrite_boot (s : State) (fn : Nat) (e : Event) : (s.ringWrite fn e).boot = s.boot := by
  simp [State.ringWrite]

@[simp] theorem deliver_boot (s : State) (fn : Nat) (e : Event) : (s.deliver fn e).boot = s.boot := by
  unfold State.deliver
  split
  · split <;> simp
  · split <;> simp

@[simp] theorem raise_boot (s : State) (sc : Scope) (code sev source detail : Nat) : (s.raise sc code sev source detail).boot = s.boot := by
  cases sc <;> simp [State.raise]

-- # Entering and leaving a reset (R494, R570)

theorem afterReset_now (s : State) (kind : Nat) : (s.afterReset kind).now = if kind = 3 then 0 else s.now := by
  split
  case isTrue hcold => subst hcold; rfl
  case isFalse hwarm =>
    obtain ⟨-, hnow, -, -⟩ := s.afterReset_memories hwarm
    exact hnow

@[simp] theorem bypassesShut_now (s : State) (was : Nat) : (s.bypassesShut was).now = s.now := each_now fun _ _ => raise_now ..

@[simp] theorem bypassesShut_boot (s : State) (was : Nat) : (s.bypassesShut was).boot = s.boot :=
  s.each_keeps State.boot fun _ _ => raise_boot ..

/-- A cold reset sets device time to zero; it runs on through the entry of any other (R42). -/
theorem enterReset_now (s : State) (kind cause : Nat) : (s.enterReset kind cause).now = if max kind s.boot.kind = 3 then 0 else s.now := by
  unfold State.enterReset
  exact (when_now fun t => raise_now ..).trans ((bypassesShut_now ..).trans (afterReset_now ..))

theorem enterReset_kind (s : State) (kind cause : Nat) : (s.enterReset kind cause).boot.kind = max kind s.boot.kind := by
  unfold State.enterReset
  exact congrArg Boot.kind ((when_boot fun t => raise_boot ..).trans (bypassesShut_boot ..))

/-- Leaving a reset other than a cold one changes no device time. -/
theorem tryLeave_now {s : State} (hkind : s.boot.kind ≠ 3) : s.tryLeave.now = s.now := by
  unfold State.tryLeave
  split
  · simp only [hkind, if_false]
    rw [vrFault_now, when_now fun t => setCause_now .., bumpFld_now, setFld_now, setFld_now, tapAfterReset_now]
  · rfl

theorem resetWanted_of_cold {s : State} (h : s.boot.pwrLow = true ∨ s.boot.coldN = true) : s.resetWanted = 3 := by
  unfold State.resetWanted
  simp [h]

theorem resetWanted_lt_of_not_cold {s : State} (hpower : s.boot.pwrLow = false) (hcold : s.boot.coldN = false) : s.resetWanted < 3 := by
  simp only [State.resetWanted, hpower, hcold, Bool.or_self, Bool.false_eq_true, if_false]
  split
  · omega
  · split <;> omega

/-- An input that calls for a cold reset enters it. -/
theorem inputChanged_now_of_cold {s : State} {b : Boot} (hkind : b.kind < 3) (hcold : b.pwrLow = true ∨ b.coldN = true) (cause : Nat) :
    (({ s with boot := b } : State).inputChanged cause).now = 0 := by
  have hwanted : ({ s with boot := b } : State).resetWanted = 3 := resetWanted_of_cold hcold
  simp only [State.inputChanged, hwanted, hkind, if_true, OfNat.ofNat_ne_zero, if_false, enterReset_now]
  rw [if_pos (by omega)]

/-- Outside a cold reset an input that calls for none changes no device time. -/
theorem inputChanged_now {s : State} (hkind : s.boot.kind ≤ 2) (hpower : s.boot.pwrLow = false) (hcold : s.boot.coldN = false) (cause : Nat) :
    (s.inputChanged cause).now = s.now := by
  have hwanted : s.resetWanted < 3 := resetWanted_lt_of_not_cold hpower hcold
  unfold State.inputChanged
  dsimp only
  split
  · exact tryLeave_now (by omega)
  · split
    · rw [enterReset_now, if_neg (by omega)]
    · rfl

theorem inputChanged_now_of_boot {s : State} {b : Boot} (hkind : b.kind ≤ 2) (hpower : b.pwrLow = false) (hcold : b.coldN = false)
    (cause : Nat) : (({ s with boot := b } : State).inputChanged cause).now = s.now :=
  inputChanged_now (s := { s with boot := b }) hkind hpower hcold cause

/-- Holding the device by its twin, or ignoring that, changes no device time (R494). -/
theorem execPairHold_now {s : State} (hkind : s.boot.kind ≤ 2) (hpower : s.boot.pwrLow = false) (hcold : s.boot.coldN = false) :
    ∃ t, execPairHold s = .next t ∧ t.now = s.now := by
  unfold execPairHold
  dsimp only
  split
  · exact ⟨_, rfl, rfl⟩
  · exact ⟨_, rfl, inputChanged_now (s := { s with pair := { s.pair with holdN := true } }) hkind hpower hcold 7⟩

theorem execPairHoldRelease_now {s : State} (hkind : s.boot.kind ≤ 2) (hpower : s.boot.pwrLow = false) (hcold : s.boot.coldN = false) :
    ∃ t, execPairHoldRelease s = .next t ∧ t.now = s.now :=
  ⟨_, rfl, inputChanged_now (s := ({ s with pair := { s.pair with holdN := false } } : State).setFld F.PAIR_STATE_HOLD 0 0) hkind hpower hcold 7⟩

theorem writeBootCtl_now {s : State} (hkind : s.boot.kind ≤ 2) (fn : Nat) (h : Half) (v : Word) : (s.writeBootCtl fn h v).now = s.now := by
  refine reaching_now ?_
  split
  · have hentered : (s.enterReset 1 6).boot.kind ≠ 3 := by rw [enterReset_kind]; omega
    rw [tryLeave_now hentered, enterReset_now, if_neg (by omega)]
  · exact when_now recover_now

-- # Resets of contexts (R60, R585)

/-- The end of a context's reset leaves device time, whichever commands it ends. -/
theorem execContextResetDone_now (s : State) (ctx : Fin 256) : ∃ t, execContextResetDone ctx s = .next t ∧ t.now = s.now := by
  have hflushed : ((s.endCtxCmds ctx).flushCtx ctx).now = s.now := by rw [flushCtx_now, endCtxCmds_now]
  have hcleared : (((s.endCtxCmds ctx).flushCtx ctx).clearCtxState ctx).now = s.now := by rw [clearCtxState_now, hflushed]
  unfold execContextResetDone
  split
  · exact ⟨s, rfl, rfl⟩
  · split
    · exact ⟨s, rfl, rfl⟩
    · dsimp only
      split
      · exact ⟨_, rfl, hflushed⟩
      · exact ⟨_, rfl, (shutDone_now ..).trans ((raise_now ..).trans ((when_now fun t => setFld_now t ..).trans hcleared))⟩

/-- Settles O58, by the kind of reset that each input calls for: entering a cold one sets device time to zero (`enterReset_now`), and the
operations that enter, leave and end the others keep it. -/
theorem deviceTime : Obligations.DeviceTime := by
  unfold Obligations.DeviceTime
  intro s
  refine ⟨fun hkind => ?cold, fun hkind => ?power, fun fn hkind => ?warm, fun hkind hpower hcold => ?inputs, fun fn ctx => ?contexts⟩
  case cold => exact ⟨_, rfl, inputChanged_now_of_cold (s := s) (b := { s.boot with coldN := true }) hkind (.inr rfl) 2⟩
  case power => exact ⟨_, rfl, inputChanged_now_of_cold (s := s) (b := { s.boot with pwrLow := true }) hkind (.inl rfl) 1⟩
  case warm => exact ⟨_, rfl, writeBootCtl_now hkind ..⟩
  case inputs =>
    exact ⟨⟨_, rfl, inputChanged_now_of_boot (b := { s.boot with warmN := true }) hkind hpower hcold 3⟩,
      ⟨_, rfl, inputChanged_now_of_boot (b := { s.boot with perstN := true }) hkind hpower hcold 4⟩,
      ⟨_, rfl, inputChanged_now_of_boot (b := { s.boot with linkOff := true }) hkind hpower hcold 5⟩,
      execPairHold_now hkind hpower hcold, execPairHoldRelease_now hkind hpower hcold,
      ⟨_, rfl, inputChanged_now_of_boot (b := { s.boot with coldN := false, warmN := false, perstN := false, linkOff := false })
        hkind hpower rfl 0⟩⟩
  case contexts => exact ⟨⟨_, rfl, writeCtxCfg_now ..⟩, execContextResetDone_now s ctx⟩

end Sys2Proof.Machine
end

section
/-! SUPPORT. Two statements about host queues that fail (R65, R85, R251). -/

namespace Sys2Proof.Machine

-- # A deadline that passes while a launch has queued descriptors (R85, R251)

/-- A running command whose deadline has passed is asked to end at its next abort point, as an ABORT would ask it. -/
theorem execDeadlineExpiry_running {s : State} {q : Fin 65536} {x : Cmd} (hcmd : s.cmd? q x.num = some x) (hrun : x.phase = .running)
    (hset : x.entry.w2 ≠ 0) (hpassed : x.entry.w2 < s.now) : execDeadlineExpiry q x.num s = .next (s.stopCmd q x St.timeout) := by
  have hdue : ¬ (x.entry.w2 = 0 ∨ s.now ≤ x.entry.w2) := by omega
  simp [execDeadlineExpiry, hcmd, hdue, hrun, State.askEnd]

/-- A command that is asked to end discards the queued descriptors of its launch's tiles. -/
theorem stopCmd_launch {s : State} {q status : Nat} {x : Cmd} {l : Launch} (hgoes : x.stop = none)
    (hlaunch : s.launch? q x.num = some l) : s.stopCmd q x status =
      (s.modCmd q x.num fun y => { y with stop := some status }).each l.tiles fun t s => s.discardQueue q x.num t := by
  have hkept : (s.modCmd q x.num fun y => { y with stop := some status }).launch? q x.num = some l := hlaunch
  simp [State.stopCmd, hgoes, hkept]

/-- A LAUNCH that has begun on tile 0 and whose deadline is nanosecond 1. -/
def overdueCmd : Cmd := ⟨0, ⟨0x20, 0, 1, 1, 0, 0, 0, 0⟩, 1, .running, true, none, false, 0, none, false⟩

/-- Its launch. -/
def overdueLaunch : Launch := ⟨0, 0, 0, 1, 0, 0, 0, [0], false, false, true, false, 8, 0, 0, 0, 0, [], [], none, [], [], [], 0, false⟩

/-- Nanosecond 2: the tile has one deferred descriptor queued. -/
def overdue : State :=
  { State.reset with
    now := 2
    queues := [(0, ⟨0, 0, 0, 1, 1, [overdueCmd], [], [], []⟩)]
    launches := [overdueLaunch]
    tiles := [(0, { Tile.idle with launch := some (0, 0), deferred := [⟨4, 8, 0, false, 0, 0, 7⟩] })] }

/-- Refutes O21: its deadline clause says that a deadline sets the command's status and changes nothing else, but where the command runs a
launch the queued descriptors of its tiles are discarded too (R251), as those of `overdue` are. -/
theorem not_queueLife : ¬ Obligations.QueueLife := by
  unfold Obligations.QueueLife
  rintro ⟨-, -, -, -, -, -, hdeadline, -⟩
  have hcmd : overdue.cmd? (0 : Fin 65536) overdueCmd.num = some overdueCmd := by decide +kernel
  have hpassed : overdueCmd.entry.w2 < overdue.now := by decide
  have hset : overdueCmd.entry.w2 ≠ 0 := by decide
  have hclaimed := hdeadline overdue 0 overdueCmd hcmd rfl rfl hset hpassed
  have hactual : exec (.deadlineExpiry 0 overdueCmd.num) overdue = .next (overdue.stopCmd (0 : Fin 65536) overdueCmd St.timeout) :=
    execDeadlineExpiry_running hcmd rfl hset hpassed
  rw [hclaimed, stopCmd_launch (l := overdueLaunch) rfl (by decide +kernel)] at hactual
  injection hactual with hsame
  exact absurd (congrArg (fun s : State => (s.tile 0).deferred) hsame) (by decide +kernel)

-- # An UNLOAD_PROGRAM while a LAUNCH of its handle has started and has not begun (R65)

/-- UNLOAD_PROGRAM waits for every LAUNCH of its handle that has started. -/
theorem execUnloadProgram_launching {s : State} {q : Fin 65536} {c n : Nat} {x : Cmd} (hbegins : s.toBegin q c 0x11 = some (x, n))
    (hlaunching : s.launching n x.entry.w3 = true) : execUnloadProgram q c s = .next s := by
  simp [execUnloadProgram, hbegins, hlaunching]

/-- UNLOAD_PROGRAM of handle 1, and a LAUNCH of it that has started and has not begun: it has no launch yet. -/
def unloadCmd : Cmd := ⟨0, ⟨0x11, 0, 0, 1, 0, 0, 0, 0⟩, 1, .running, false, none, false, 0, none, false⟩
def startedLaunch : Cmd := ⟨1, ⟨0x20, 0, 0, 1, 0, 0, 0, 0⟩, 2, .running, false, none, false, 0, none, false⟩

/-- The program of that handle. -/
def unloadedProgram : Program := ⟨true, 0, [], 1, false, false, 0, false, false, 8, [], [], 0, [], [], (0, 0, 0)⟩

/-- Context 0 is enabled with 16 queues, and queue 0 runs both commands. -/
def unloading : State :=
  (({ State.reset with
      queues := [(0, ⟨0, 0, 0, 1, 2, [unloadCmd, startedLaunch], [], [], []⟩)]
      programs := [(1, unloadedProgram)] } : State).setFld F.QUE_CTX_CFG_EN 0 1).setFld F.QUE_CTX_CFG_Q_COUNT 0 16

/-- Refutes O22: its UNLOAD_PROGRAM clause asks only that no launch of the handle runs, but the command waits also for a LAUNCH that has
started and has not begun (R65), and so leaves `unloading` as it is. -/
theorem not_hostCommands : ¬ Obligations.HostCommands := by
  unfold Obligations.HostCommands
  intro h
  obtain ⟨-, -, -, hunload, -⟩ := h unloading 0 0 unloadCmd 0
  have hbegins : unloading.toBegin (0 : Fin 65536) 0 0x11 = some (unloadCmd, 0) := by decide +kernel
  have hclaimed := hunload unloadedProgram hbegins (by decide +kernel) (by decide +kernel)
  have hwaits : exec (.unloadProgram 0 0) unloading = .next unloading := execUnloadProgram_launching hbegins (by decide +kernel)
  rw [hwaits] at hclaimed
  injection hclaimed with hsame
  exact absurd (congrArg (fun s : State => (s.queue 0).cmds) hsame) (by decide +kernel)

end Sys2Proof.Machine
end

section
/-! SUPPORT. What an event changes (R92 to R95), and what a host write of a whole register stores. -/

namespace Sys2Proof.Machine

-- # Events

/-- The second state differs from the first in registers, the host's memory, event rings and messages alone. -/
def State.told (s t : State) : Prop := t = { s with regs := t.regs, host := t.host, rings := t.rings, sent := t.sent }

theorem State.told.refl (s : State) : s.told s := rfl

theorem State.told.trans {s t u : State} (h : s.told t) (h' : t.told u) : s.told u :=
  Eq.trans h' (congrArg (fun x : State => { x with regs := u.regs, host := u.host, rings := u.rings, sent := u.sent }) h)

theorem when_told {s : State} {c : Bool} {f : State → State} (h : s.told (f s)) : s.told (s.when c f) := by
  cases c with
  | false => exact .refl s
  | true => exact h

theorem setFld_told (s : State) (f : Field) (i v : Nat) : s.told (s.setFld f i v) := rfl

theorem setRing_told (s : State) (fn : Nat) (r : Ring) : s.told (s.setRing fn r) := rfl

theorem hostWrite_told (s : State) (a : Nat) (bs : List Byte) : s.told (s.spaceWrite 0 a bs) := rfl

theorem msix_told (s : State) (fn vector : Nat) : s.told (s.msix fn vector) := by
  unfold State.msix
  split <;> rfl

theorem ringWrite_told (s : State) (fn : Nat) (e : Event) : s.told (s.ringWrite fn e) := by
  unfold State.ringWrite
  refine State.told.trans ?_ (when_told (msix_told ..))
  exact (((hostWrite_told ..).trans (setFld_told ..)).trans (setFld_told ..)).trans (setRing_told ..)

theorem deliver_told (s : State) (fn : Nat) (e : Event) : s.told (s.deliver fn e) := by
  unfold State.deliver
  split
  · split
    · exact ringWrite_told ..
    · exact setFld_told ..
  · split
    · exact setRing_told ..
    · exact setFld_told ..

theorem raise_told (s : State) (sc : Scope) (code sev source detail : Nat) : s.told (s.raise sc code sev source detail) := by
  unfold State.raise
  cases sc with
  | device => exact deliver_told ..
  | context n => exact (deliver_told ..).trans (when_told (deliver_told ..))
  | function fn copy => exact (deliver_told ..).trans (when_told (deliver_told ..))

theorem reg_msix (s : State) (fn vector : Nat) (r : RegName) (i : Nat) : (s.msix fn vector).reg r i = s.reg r i := by
  unfold State.msix
  split <;> rfl

/-- An event changes no register but its ring's EXC_EVQ_STATE. -/
theorem reg_deliver {r : RegName} (hr : r ≠ .EXC_EVQ_STATE) {i fn : Nat} (hi : i < 1048576) (hfn : fn < 1048576) (s : State) (e : Event) :
    (s.deliver fn e).reg r i = s.reg r i := by
  have hset (t : State) (f : Field) (hf : f.reg = .EXC_EVQ_STATE) (v : Nat) : (t.setFld f fn v).reg r i = t.reg r i :=
    reg_setFld_other t v (by rw [hf]; exact RegName.key_ne hi hfn hr)
  have hwrite : (s.ringWrite fn e).reg r i = s.reg r i := by
    unfold State.ringWrite
    exact (State.when_keeps _ (fun t : State => t.reg r i) fun t => reg_msix ..).trans ((hset _ _ rfl _).trans (hset _ _ rfl _))
  unfold State.deliver
  repeat' split
  · exact hwrite
  · exact hset _ _ rfl _
  · rfl
  · exact hset _ _ rfl _

-- # Host writes

/-- A write of a whole register stores a plain field as written. -/
theorem RegName.of_written_rw {r : RegName} {row : FieldRow} (hrow : row ∈ r.rows) (hrw : row.acc = .rw) (old v : Word) :
    (row.field r).of (r.written .whole old v) = (row.field r).of v := by
  refine Field.of_congr fun k hlo hhi => ?_
  have hk : k < 64 := Nat.lt_of_lt_of_le hhi (r.rows_inOrder.1 row hrow)
  have hmask : Half.whole.mask.getLsbD k = true := by rw [Half.mask, BitVec.getLsbD_allOnes, decide_eq_true hk]
  rw [r.getLsbD_written .whole old v hrow hlo hhi, hrw, hmask, if_pos rfl, Access.stores]

end Sys2Proof.Machine
end

section
/-! SUPPORT. The frame of what ends commands, tells of events and sends on the fabric: none of it changes the firmware (R530 to R538) or the
epochs that units have adopted (R88). One lemma an operation. -/

namespace Sys2Proof.Machine

/-- The firmware and the adopted epochs are the same in both states. -/
@[simp, reducible] def State.frame (s t : State) : Prop := t.firmware = s.firmware ∧ t.adopted = s.adopted

theorem State.frame.trans {s t u : State} (h : s.frame t) (h' : t.frame u) : s.frame u := ⟨h'.1.trans h.1, h'.2.trans h.2⟩

-- # Changes under a condition and along a list

@[simp] theorem ite_frame (c : Prop) [Decidable c] (s t : State) : (if c then s else t).firmware = (if c then s.firmware else t.firmware) ∧
    (if c then s else t).adopted = if c then s.adopted else t.adopted := ⟨apply_ite .., apply_ite ..⟩

@[simp] theorem when_frame {s : State} {c : Bool} {f : State → State} (h : ∀ t : State, t.frame (f t)) : s.frame (s.when c f) :=
  ⟨s.when_keeps State.firmware fun t => (h t).1, s.when_keeps State.adopted fun t => (h t).2⟩

@[simp] theorem each_frame {α : Type} {s : State} {l : List α} {f : α → State → State} (h : ∀ x (t : State), t.frame (f x t)) : s.frame (s.each l f) :=
  ⟨s.each_keeps State.firmware fun x t => (h x t).1, s.each_keeps State.adopted fun x t => (h x t).2⟩

-- # Memories, events and records

@[simp] theorem draw_frame (s : State) (n : Nat) : s.frame (s.draw n).2 := by simp [State.draw]

@[simp] theorem cacheAccess_frame (s : State) (write : Bool) (hint a n : Nat) : s.frame (s.cacheAccess write hint a n) := by
  simp [State.cacheAccess]

@[simp] theorem devBytes_frame (s : State) (a : Nat) (bs : List Byte) : s.frame (s.devBytes a bs) := by
  induction bs generalizing s a with
  | nil => simp [State.devBytes]
  | cons b rest ih => exact ih (s.setDevByte a b) (a + 1)

@[simp] theorem devWrite_frame (s : State) (a : Nat) (bs : List Byte) : s.frame (s.devWrite a bs) := by simp [State.devWrite, State.devStore]

@[simp] theorem spaceWrite_frame (s : State) (space a : Nat) (bs : List Byte) : s.frame (s.spaceWrite space a bs) := by simp [State.spaceWrite]

/-- An event changes neither. -/
theorem State.told.frame {s t : State} (h : s.told t) : s.frame t := by
  rw [h]
  exact ⟨rfl, rfl⟩

@[simp] theorem msix_frame (s : State) (fn vector : Nat) : s.frame (s.msix fn vector) := (msix_told ..).frame

@[simp] theorem raise_frame (s : State) (sc : Scope) (code sev source detail : Nat) : s.frame (s.raise sc code sev source detail) :=
  (raise_told ..).frame

@[simp] theorem raiseLimited_frame (s : State) (key interval : Nat) (sc : Scope) (code sev source detail : Nat) :
    s.frame (s.raiseLimited key interval sc code sev source detail) := by simp [State.raiseLimited]

@[simp] theorem finish_frame (s : State) (q c status detail result : Nat) : s.frame (s.finish q c status detail result) := by
  unfold State.finish
  split <;> simp [State.pushRec]

@[simp] theorem finishFree_frame (s : State) (q c status detail : Nat) : s.frame (s.finishFree q c status detail) := by simp [State.finishFree]

@[simp] theorem notify_frame (s : State) (ctx : Nat) (e : NRec) : s.frame (s.notify ctx e) := by simp [State.notify, State.nringWrite]

@[simp] theorem traceRec_frame (s : State) (ctx vid : Nat) (o : SyncObj) (event : Nat) (src : Origin) (value : Nat) :
    s.frame (s.traceRec ctx vid o event src value) := by
  simp [State.traceRec]

@[simp] theorem protoError_frame (s : State) (ctx vid code : Nat) (src : Origin) (value : Nat) : s.frame (s.protoError ctx vid code src value) := by
  simp [State.protoError]

-- # Tiles and their launches

@[simp] theorem loseShard_frame (s : State) (q c shard : Nat) : s.frame (s.loseShard q c shard) := by simp [State.loseShard]

@[simp] theorem discardQueue_frame (s : State) (q c t : Nat) : s.frame (s.discardQueue q c t) := by
  have hlost : s.frame (s.each ((s.tile t).deferred.map (·.shard) ++ ((s.tile t).body.map (·.desc.shard)).toList) fun k s => s.loseShard q c k) :=
    each_frame fun k u => loseShard_frame u q c k
  exact hlost

@[simp] theorem launchFault_frame (s : State) (q c status detail tile bundle : Nat) : s.frame (s.launchFault q c status detail tile bundle) := by
  unfold State.launchFault
  split <;> simp

@[simp] theorem tileFault_frame (s : State) (t status detail : Nat) : s.frame (s.tileFault t status detail) := by
  unfold State.tileFault
  dsimp only
  repeat' split
  all_goals simp

@[simp] theorem failTile_frame (s : State) (t status detail : Nat) : s.frame (s.failTile t status detail) := by
  unfold State.failTile
  dsimp only
  split <;> simp

@[simp] theorem modStep_frame (s : State) (ctx : Nat) (f : Step → Step) : s.frame (s.modStep ctx f) := by
  unfold State.modStep
  split <;> simp

@[simp] theorem activityIn_frame (s : State) (ctx k : Nat) : s.frame (s.activityIn ctx k) := by simp [State.activityIn]

-- # Numerical exceptions

@[simp] theorem recordNum_frame (s : State) (ctx : Nat) (e : NumEntry) : s.frame (s.recordNum ctx e).2 := by
  unfold State.recordNum
  dsimp only
  split <;> simp

@[simp] theorem numException_frame (s : State) (l : Launch) (e : NumEntry) : s.frame (s.numException l e) := by
  unfold State.numException
  dsimp only
  repeat' split
  all_goals simp [State.markNx]

-- # Links of the fabric

@[simp] theorem putFlit_frame (s : State) (p : Nat) (f : Flit) (lseq : Nat) (nak : Bool) : s.frame (s.putFlit p f lseq nak) := by
  simp [State.putFlit]

@[simp] theorem giveBack_frame (s : State) (came : Option (Nat × Nat)) : s.frame (s.giveBack came) := by
  unfold State.giveBack
  split <;> simp

@[simp] theorem modPort_frame (s : State) (p : Nat) (f : Port → Port) : s.frame (s.modPort p f) := by simp [State.modPort]

@[simp] theorem drain_frame (n : Nat) (s : State) (p : Nat) : s.frame (State.drain n s p) := by
  induction n generalizing s with
  | zero => simp [State.drain]
  | succ n ih =>
    unfold State.drain
    dsimp only
    repeat' split
    all_goals simp [ih, State.sendFlit]

@[simp] theorem drainPort_frame (s : State) (p : Nat) : s.frame (s.drainPort p) := drain_frame _ s p

@[simp] theorem enqueue_frame (s : State) (p : Nat) (f : Flit) (came : Option (Nat × Nat)) : s.frame (s.enqueue p f came) := by
  simp [State.enqueue]

@[simp] theorem sendOn_frame (s : State) (f : Flit) (came : Option (Nat × Nat)) : s.frame (s.sendOn f came) := by
  unfold State.sendOn
  dsimp only
  repeat' split
  all_goals simp [State.unreachable]

@[simp] theorem carry_frame (s : State) (dsts : List Nat) (o : Out) : s.frame (s.carry dsts o) := by
  unfold State.carry
  split <;> simp

@[simp] theorem post_frame (s : State) (dsts : List Nat) (o : Out) : s.frame (s.post dsts o) := by simp [State.post]

@[simp] theorem postMir_frame (s : State) (o : Out) : s.frame (s.postMir o) := by
  unfold State.postMir State.carryMir
  repeat' split
  all_goals simp

-- # Tracked tensors

@[simp] theorem setDesc_frame (s : State) (ctx t off n v : Nat) : s.frame (s.setDesc ctx t off n v) := by simp [State.setDesc]

@[simp] theorem setScale_frame (s : State) (ctx t b off n v : Nat) : s.frame (s.setScale ctx t b off n v) := by simp [State.setScale]

@[simp] theorem rollBlock_frame (ctx t st last : Nat) (clear : Nat → Bool) (b : Nat) (s : State) :
    s.frame (State.rollBlock ctx t st last clear b s) := by
  simp [State.rollBlock]

@[simp] theorem underflowWatch_frame (s : State) (ctx t st : Nat) (fresh zero : Bool) (n : Nat) :
    s.frame (s.underflowWatch ctx t st fresh zero n) := by
  simp [State.underflowWatch]

@[simp] theorem roll_frame (s : State) (ctx st : Nat) (nonzero : List Nat) (v : Conv) : s.frame (s.roll ctx st nonzero v) := by
  simp [State.roll, State.coldUnused, State.chill]

-- # Deferred work and the end of a tile

@[simp] theorem drainFlights_frame (s : State) (t : Nat) : s.frame (s.drainFlights t) := by
  have hdone : ∀ (f : MFlight) (u : State), u.frame (u.flightDone t f) := fun f u => by
    unfold State.flightDone
    split <;> simp
  simp [State.drainFlights, hdone]

@[simp] theorem startBody_frame (s : State) (t : Nat) (d : Deferred) (forced : Bool) : s.frame (s.startBody t d forced) := by
  unfold State.startBody
  dsimp only
  split
  · exact drainFlights_frame s t
  · rw [State.frame, setPhase_firmware, setPhase_adopted, setTile_firmware, setTile_adopted, storeWrite_firmware, storeWrite_adopted]
    exact drainFlights_frame s t

@[simp] theorem sendUses_frame (s : State) (l : Launch) : s.frame (s.sendUses l) := by
  unfold State.sendUses
  split
  · simp
  · dsimp only
    split
    · simp
    · refine (each_frame fun g t => each_frame fun u t => ?_).trans (modStep_frame ..)
      split <;> simp [State.touch]

@[simp] theorem tiePoint_frame (s : State) (t : Nat) : s.frame (s.tiePoint t) := by
  unfold State.tiePoint
  split <;> simp [State.beginGathers]

@[simp] theorem tryEnd_frame (s : State) (t : Nat) : s.frame (s.tryEnd t) := by
  unfold State.tryEnd
  dsimp only
  repeat' split
  all_goals simp

@[simp] theorem forceShard_frame (s : State) (t : Nat) : s.frame (s.forceShard t) := by
  unfold State.forceShard
  dsimp only
  repeat' split
  all_goals simp

@[simp] theorem endBody_frame (s : State) (t : Nat) : s.frame (s.endBody t) := by
  unfold State.endBody
  dsimp only
  repeat' split
  all_goals simp

@[simp] theorem releaseTile_frame (s : State) (t : Nat) (reached : Bool) : s.frame (s.releaseTile t reached) := by simp [State.releaseTile]

@[simp] theorem releaseBody_frame (s : State) (t : Nat) (reached : Bool) : s.frame (s.releaseBody t reached) := by
  unfold State.releaseBody
  dsimp only
  split <;> simp

-- # Synchronisation objects

@[simp] theorem modObj_frame (s : State) (k : Nat) (f : SyncObj → SyncObj) : s.frame (s.modObj k f) := by
  unfold State.modObj
  split <;> simp

@[simp] theorem releaseWaiter_frame (s : State) (who : WaiterRef) (value : Nat) : s.frame (s.releaseWaiter who value) := by
  unfold State.releaseWaiter
  split <;> simp

@[simp] theorem failWaiter_frame (s : State) (who : WaiterRef) (status detail : Nat) : s.frame (s.failWaiter who status detail) := by
  unfold State.failWaiter
  split <;> simp

@[simp] theorem failAll_frame (s : State) (k : Nat) (o : SyncObj) (status detail : Nat) : s.frame (s.failAll k o status detail) := by
  simp [State.failAll, State.traceRelease]

@[simp] theorem enterError_frame (s : State) (k vid code : Nat) : s.frame (s.enterError k vid code) := by
  unfold State.enterError
  split <;> simp

@[simp] theorem wake_frame (s : State) (ctx k : Nat) (side : Bool) : s.frame (s.wake ctx k side) := by
  unfold State.wake
  split <;> simp

@[simp] theorem dropWatch_frame (s : State) (ctx k : Nat) (w : Watch) : s.frame (s.dropWatch ctx k w) := by simp [State.dropWatch]

@[simp] theorem cancelWatch_frame (s : State) (ctx k : Nat) (w : Watch) (report : Bool) : s.frame (s.cancelWatch ctx k w report) := by
  simp [State.cancelWatch]

/-- What the signal of a watch does has the frame. -/
def Act.hasFrame (f : Act) : Prop := ∀ (s : State) target inc tag, s.frame (f s target inc tag)

theorem fire_frame {act : Option Act} (hact : ∀ f ∈ act, f.hasFrame) (ctx k v : Nat) (w : Watch) (s : State) :
    s.frame (State.fire act ctx k v w s) := by
  unfold State.fire
  extract_lets n passed told
  have hpassed : s.frame passed := by
    unfold passed
    split
    · exact modObj_frame ..
    · exact dropWatch_frame ..
  have htold : s.frame told := hpassed.trans (when_frame fun t => notify_frame ..)
  split
  · split
    · exact htold.trans (hact _ rfl ..)
    · exact htold.trans (protoError_frame ..)
  · exact htold

theorem fireList_frame {act : List Watch → Option Act} (hact : ∀ l, ∀ f ∈ act l, f.hasFrame) (ctx k : Nat) (side : Bool) (l : List Watch)
    (s : State) : s.frame (State.fireList act ctx k side l s) := by
  induction l generalizing s with
  | nil => simp [State.fireList]
  | cons w rest ih =>
    unfold State.fireList
    refine State.frame.trans ?_ (ih _)
    split
    · simp
    · split
      · exact fire_frame (hact rest) ..
      · simp

theorem fireAll_frame {act : Later → Option Act} (hact : ∀ l, ∀ f ∈ act l, f.hasFrame) (later : Later) (ctx k : Nat) (side : Bool) (s : State) :
    s.frame (State.fireAll act later ctx k side s) := by
  unfold State.fireAll
  split
  · simp
  · exact fireList_frame (fun _ => hact _) ..

/-- An increment has the frame where those that its watches signal have it. -/
theorem applyInc_frame_of_chain {fuel : Nat} (hchain : ∀ n, fuel = n + 1 → ∀ later (s : State) ctx vid inc src,
      s.frame (State.applyInc n true later s ctx vid inc src .none).1) (park : Bool) (later : Later) (s : State) (ctx vid inc : Nat) (src : Origin)
    (reply : IncReply) : s.frame (State.applyInc fuel park later s ctx vid inc src reply).1 := by
  unfold State.applyInc
  split
  · simp
  · exact protoError_frame ..
  · dsimp only
    split
    · repeat' split
      all_goals simp
    · split
      · exact protoError_frame ..
      · split
        · simp
        · split
          · dsimp only
            split <;> simp
          · refine State.frame.trans (by simp) (fireAll_frame (fun l f hf => ?_) ..)
            cases fuel with
            | zero => cases hf
            | succ n =>
              cases hf
              exact fun t target i tag => hchain n rfl ..

theorem applyInc_frame (fuel : Nat) (park : Bool) (later : Later) (s : State) (ctx vid inc : Nat) (src : Origin) (reply : IncReply) :
    s.frame (State.applyInc fuel park later s ctx vid inc src reply).1 := by
  induction fuel generalizing park later s ctx vid inc src reply with
  | zero => exact applyInc_frame_of_chain (fun n h => by omega) ..
  | succ n ih => exact applyInc_frame_of_chain (fun m h => by cases h; exact fun _ _ _ _ _ _ => ih ..) ..

@[simp] theorem replyInc_frame (s : State) (r : IncReply) (a : IncAns) : s.frame (s.replyInc r a) := by
  unfold State.replyInc
  split <;> simp

@[simp] theorem applyHeld_frame (s : State) (ctx : Nat) (l : List HeldInc) : s.frame (s.applyHeld ctx l).1 := by
  induction l generalizing s with
  | nil => simp [State.applyHeld]
  | cons h rest ih =>
    have hinc := applyInc_frame h.chain true [] s ctx h.vid h.inc h.origin h.reply
    unfold State.applyHeld
    exact hinc.trans ((replyInc_frame ..).trans (ih _))

@[simp] theorem cancelWaits_frame (s : State) (who : WaiterRef) : s.frame (s.cancelWaits who) := by simp [State.cancelWaits]

@[simp] theorem abandon_frame (s : State) (ctx : Nat) (tiles : List Nat) : s.frame (s.abandon ctx tiles) := by simp [State.abandon]

@[simp] theorem unmakeObj_frame (s : State) (k status : Nat) (report : Bool) : s.frame (s.unmakeObj k status report) := by
  unfold State.unmakeObj
  split <;> simp

-- # Memory errors and engine passes

@[simp] theorem writeRepairs_frame (s : State) (l : List Repair) : s.frame (s.writeRepairs l) := by simp [State.writeRepairs, State.writeRecord]

@[simp] theorem retireAuto_frame (s : State) (ch trigger : Nat) : s.frame (s.retireAuto ch trigger) := by
  have hretire : s.frame (s.retire ch trigger) := by
    unfold State.retire
    dsimp only
    split <;> simp [State.noteRetired, State.addRepair]
  simp [State.retireAuto, State.retireIn, hretire]

@[simp] theorem countCe_frame (s : State) (ch : Nat) : s.frame (s.countCe ch) := by
  unfold State.countCe
  dsimp only
  repeat' split
  all_goals simp

@[simp] theorem countUe_frame (s : State) (ch : Nat) : s.frame (s.countUe ch) := by
  unfold State.countUe
  dsimp only
  repeat' split
  all_goals simp

@[simp] theorem garble_frame (s : State) (key : Nat) : s.frame (s.garble key) :=
  each_frame (s := s.mend key) (f := fun i t => { (t.draw 256).2 with mem := memSet (t.draw 256).2.mem (32 * key + i) (BitVec.ofNat 8 (t.draw 256).1) })
    fun _ _ => ⟨rfl, rfl⟩

@[simp] theorem decodeWord_frame (s : State) (k : Nat) : s.frame (s.decodeWord k) := by
  unfold State.decodeWord
  split <;> simp [State.leaveStored, State.mend, State.poisonKey]

@[simp] theorem readReport_frame (s : State) (agent : Nat) (ctx : Option Nat) (a n : Nat) : s.frame (s.readReport agent ctx a n).1 := by
  simp [State.readReport, State.readHinted, State.decodeRange, State.uncorrectable, State.poisonWord, State.poisonKey]

@[simp] theorem touch_frame (s : State) (a n : Nat) : s.frame (s.touch a n) := by simp [State.touch]

@[simp] theorem showBase_frame (s : State) (st : Nat) : s.frame (s.showBase st) := by
  unfold State.showBase
  dsimp only
  split <;> simp

@[simp] theorem endPass_frame (s : State) (k : Nat) : s.frame (s.endPass k) := by simp [State.endPass]

@[simp] theorem startCopies_frame (s : State) (ctx : Nat) (kind : PassKind) (l : List Shard) : s.frame (s.startCopies ctx kind l) := by
  unfold State.startCopies
  refine each_frame fun st t => ?_
  split <;> simp [State.startPass]

@[simp] theorem outside_frame (s : State) (agent : Nat) (ctx : Option Nat) (a : Nat) : s.frame (s.outside agent ctx a) := by
  simp [State.outside]

@[simp] theorem checkPlanes_frame (s : State) (ctx : Nat) (x : Shard) (l : List Nat) : s.frame (s.checkPlanes ctx x l) := by
  simp [State.checkPlanes, State.reachMemory]

@[simp] theorem ckptPoint_frame (s : State) (ctx : Nat) : s.frame (s.ckptPoint ctx) := by simp [State.ckptPoint, State.readForImage]

-- # Step boundaries and adoption

@[simp] theorem modXch_frame (s : State) (ctx : Nat) (f : Xch → Xch) : s.frame (s.modXch ctx f) := by simp [State.modXch]

@[simp] theorem setShardFlags_frame (s : State) (x : Shard) (flags : Nat) : s.frame (s.setShardFlags x flags) := by simp [State.setShardFlags]

@[simp] theorem returnShards_frame (s : State) (ctx owner twin : Nat) : s.frame (s.returnShards ctx owner twin) := by
  simp [State.returnShards, State.setShardOwner, State.showAdopted]

@[simp] theorem handbackEnd_frame (s : State) : s.frame s.handbackEnd := by simp [State.handbackEnd]

@[simp] theorem rebalanceDue_frame (s : State) (ctx : Nat) : s.frame (s.rebalanceDue ctx) := by simp [State.rebalanceDue, State.rebalance]

@[simp] theorem untrackGrads_frame (s : State) (ctx : Nat) : s.frame (s.untrackGrads ctx) := by
  unfold State.untrackGrads
  exact each_frame fun l t => by simp

@[simp] theorem reviveFinals_frame (s : State) (ctx : Nat) : s.frame (s.reviveFinals ctx) := by
  unfold State.reviveFinals
  split <;> simp

@[simp] theorem releaseHolds_frame (s : State) (ctx : Nat) : s.frame (s.releaseHolds ctx) := by
  unfold State.releaseHolds
  exact each_frame fun l t => each_frame fun n t => by simp

@[simp] theorem dropReplica_frame (s : State) (ctx replica : Nat) : s.frame (s.dropReplica ctx replica) := by
  unfold State.dropReplica
  split <;> simp

@[simp] theorem rewriteGroup_frame (s : State) (ctx gn dev : Nat) (g : Group) (ranks : List Nat) : s.frame (s.rewriteGroup ctx gn dev g ranks) := by
  simp [State.rewriteGroup, State.setMember]

@[simp] theorem restartColls_frame (s : State) (ctx : Nat) (hit : Coll → Bool) : s.frame (s.restartColls ctx hit) := by
  simp [State.restartColls]

@[simp] theorem rewriteForward_frame (s : State) (ctx failed adopter : Nat) (back : Bool) :
    s.frame (s.rewriteForward ctx failed adopter back).1 := by
  simp [State.rewriteForward]

@[simp] theorem takeAdoption_frame (s : State) (ctx failed adopter replica other : Nat) (drop back : Bool) :
    s.frame (s.takeAdoption ctx failed adopter replica other drop back) := by
  simp [State.takeAdoption, State.modGate, State.resendSeals, State.restoreSamples]

@[simp] theorem handbackAt_frame (s : State) (ctx : Nat) : s.frame (s.handbackAt ctx) := by simp [State.handbackAt]

@[simp] theorem sendCopies_frame (s : State) (ctx : Nat) : s.frame (s.sendCopies ctx) := by simp [State.sendCopies, State.readBlock]

@[simp] theorem stepBoundary_frame (s : State) (ctx : Nat) : s.frame (s.stepBoundary ctx) := by simp [State.stepBoundary]

-- # The end of a launch

@[simp] theorem writePhases_frame (s : State) (ctx : Nat) (p : Step) (tiles : List Nat) : s.frame (s.writePhases ctx p tiles) := by
  simp [State.writePhases]

@[simp] theorem writeCounts_frame (s : State) (ctx : Nat) (tiles : List Nat) : s.frame (s.writeCounts ctx tiles) := by
  simp [State.writeCounts]

@[simp] theorem writeCapsule_frame (s : State) (l : Launch) (p : Step) (status : Nat) : s.frame (s.writeCapsule l p status) := by
  simp [State.writeCapsule]

@[simp] theorem endReplay_frame (s : State) (ctx : Nat) (p : Step) : s.frame (s.endReplay ctx p) := by
  unfold State.endReplay
  dsimp only
  repeat' split
  all_goals simp [State.showReplay]

@[simp] theorem closeRound_frame (s : State) (ctx : Nat) (p : Step) : s.frame (s.closeRound ctx p) := by
  unfold State.closeRound
  dsimp only
  repeat' split
  all_goals simp [State.noteFormed, State.openRound]

@[simp] theorem closeStep_frame (s : State) (l : Launch) (status : Nat) : s.frame (s.closeStep l status) := by
  unfold State.closeStep
  dsimp only
  repeat' split
  all_goals simp

@[simp] theorem reportLost_frame (s : State) (l : Launch) : s.frame (s.reportLost l) := by
  unfold State.reportLost
  split <;> simp

@[simp] theorem closeLaunch_frame (s : State) (l : Launch) (status : Nat) : s.frame (s.closeLaunch l status) := by
  simp [State.closeLaunch, State.rollAll]

-- # The end of a context's commands

@[simp] theorem cleanCmd_frame (s : State) (q : Nat) (x : Cmd) (status : Nat) : s.frame (s.cleanCmd q x status) := by
  unfold State.cleanCmd
  dsimp only
  repeat' split
  all_goals simp

@[simp] theorem endCtxCmds_frame (s : State) (n : Nat) : s.frame (s.endCtxCmds n) := by simp [State.endCtxCmds, State.releaseCtx]

@[simp] theorem writeRec_frame (s : State) (q : Nat) (r : Rec) : s.frame (s.writeRec q r) := by
  unfold State.writeRec
  refine State.frame.trans ?_ (when_frame fun t => ?_)
  · simp
  · split <;> simp

@[simp] theorem flushRecs_frame (n : Nat) (s : State) (q : Nat) : s.frame (State.flushRecs n s q) := by
  induction n generalizing s with
  | zero => simp [State.flushRecs]
  | succ n ih =>
    unfold State.flushRecs
    repeat' split
    all_goals simp [ih]

@[simp] theorem flushCtx_frame (s : State) (n : Nat) : s.frame (s.flushCtx n) := by simp [State.flushCtx]

@[simp] theorem clearCtxState_frame (s : State) (n : Nat) : s.frame (s.clearCtxState n) := by
  simp [State.clearCtxState, State.clearCtxRegs, State.showBuf]

end Sys2Proof.Machine
end

section
/-! SUPPORT. The life of a context (R59, R60, R585, Table 17-8). -/

namespace Sys2Proof.Machine

-- # Enabling

theorem State.writeCtxCfg_enables {s : State} {fn n : Nat} {h : Half} {v : Word} (hgo : s.reach fn .QUE_CTX_CFG n = .go)
    (hoff : s.fld F.QUE_CTX_CFG_EN n = 0) (hidle : s.ctxResetting n = false) :
    let new := RegName.QUE_CTX_CFG.written h (s.reg .QUE_CTX_CFG n) v
    F.QUE_CTX_CFG_EN.of new = 1 → s.enableError n new = 0 → s.writeCtxCfg fn n h v = s.setReg .QUE_CTX_CFG n (F.QUE_CTX_CFG_ERR.put new 0) := by
  intro new hsets hfits
  have hold : ¬ F.QUE_CTX_CFG_EN.of (s.reg .QUE_CTX_CFG n) = 1 := by
    change ¬ s.fld F.QUE_CTX_CFG_EN n = 1
    omega
  rw [State.writeCtxCfg, State.reaching_go hgo]
  simp only [hold, hsets, hidle, hfits, new, if_true, if_false, Bool.false_eq_true]

-- # The start of a reset

/-- The start of a reset takes the context out of use. -/
theorem ctxOn_startCtxReset (s : State) (n : Nat) : (s.startCtxReset n).ctxOn n = false := by
  have hoff : (s.startCtxReset n).fld F.QUE_CTX_CFG_EN n = 0 := fld_setFld_self (s.failCkpt n 8) F.QUE_CTX_CFG_EN (by decide) n 0
  simp [State.ctxOn, State.flag, hoff]

theorem startCtxReset_resetting (s : State) (n : Nat) : (s.startCtxReset n).resetting = NMap.set s.resetting n s.now := rfl

/-- A write that clears EN starts the context's reset. -/
theorem State.writeCtxCfg_clears {s : State} {fn n : Nat} (hgo : s.reach fn .QUE_CTX_CFG n = .go) (hon : s.fld F.QUE_CTX_CFG_EN n = 1) :
    s.writeCtxCfg fn n .whole (F.QUE_CTX_CFG_EN.put (s.reg .QUE_CTX_CFG n) 0) = s.startCtxReset n := by
  have hold : F.QUE_CTX_CFG_EN.of (s.reg .QUE_CTX_CFG n) = 1 := hon
  have hclears : F.QUE_CTX_CFG_EN.of (RegName.QUE_CTX_CFG.written .whole (s.reg .QUE_CTX_CFG n) (F.QUE_CTX_CFG_EN.put (s.reg .QUE_CTX_CFG n) 0)) = 0 :=
    (RegName.of_written_rw (row := ⟨63, 1, .rw, 0⟩) (by decide) rfl ..).trans (Field.of_put _ (by decide) _ _)
  rw [State.writeCtxCfg, State.reaching_go hgo]
  simp [hold, hclears]

-- # Function level resets

/-- Start the reset of a context whose reset does not run. -/
def State.ensureCtxReset (n : Nat) (s : State) : State := if s.ctxResetting n then s else s.startCtxReset n

theorem ctxResetting_startCtxReset_self (s : State) (n : Nat) : (s.startCtxReset n).ctxResetting n = true := by
  simp [State.ctxResetting, startCtxReset_resetting]

theorem ctxResetting_startCtxReset {s : State} {m : Nat} (h : s.ctxResetting m = true) (n : Nat) : (s.startCtxReset n).ctxResetting m = true := by
  by_cases hmn : m = n
  · exact hmn ▸ ctxResetting_startCtxReset_self s m
  · simpa [State.ctxResetting, startCtxReset_resetting, NMap.get?_set_other _ _ hmn] using h

theorem ctxResetting_ensureCtxReset_self (s : State) (n : Nat) : (s.ensureCtxReset n).ctxResetting n = true := by
  unfold State.ensureCtxReset
  split
  case isTrue h => exact h
  case isFalse => exact ctxResetting_startCtxReset_self s n

theorem ctxResetting_ensureCtxReset {s : State} {m : Nat} (h : s.ctxResetting m = true) (n : Nat) : (s.ensureCtxReset n).ctxResetting m = true := by
  unfold State.ensureCtxReset
  split
  · exact h
  · exact ctxResetting_startCtxReset h n

/-- A pass over contexts starts the reset of each, and ends none that runs. -/
theorem ctxResetting_each_ensureCtxReset {s : State} {l : List Nat} {m : Nat} (h : m ∈ l ∨ s.ctxResetting m = true) :
    (s.each l State.ensureCtxReset).ctxResetting m = true := by
  induction l generalizing s with
  | nil => simpa using h
  | cons n rest ih =>
    rw [State.each_cons]
    refine ih ?_
    rcases h with hmem | hruns
    · rcases List.mem_cons.mp hmem with rfl | hrest
      · exact .inr (ctxResetting_ensureCtxReset_self s m)
      · exact .inl hrest
    · exact .inr (ctxResetting_ensureCtxReset hruns n)

/-- Every context of the function begins its reset, and the function's message vectors are masked. -/
def State.resetFunction (s : State) (fn : Nat) : State :=
  let t := s.each ((List.range 256).filter fun n => fn == 0 || s.ctxFn n == fn) State.ensureCtxReset
  { t with unmasked := t.unmasked.filter fun k => k / 2048 != fn }

theorem ctxResetting_resetFunction {s : State} {fn n : Nat} (hn : n < 256) (hown : fn = 0 ∨ s.ctxFn n = fn) :
    (s.resetFunction fn).ctxResetting n = true := by
  have hmem : n ∈ (List.range 256).filter fun n => fn == 0 || s.ctxFn n == fn := by simpa using ⟨hn, hown⟩
  exact ctxResetting_each_ensureCtxReset (.inl hmem)

theorem unmasked_resetFunction {s : State} {fn k : Nat} (hk : k ∈ (s.resetFunction fn).unmasked) : k / 2048 ≠ fn := by
  simpa using (List.mem_filter.mp hk).2

/-- The physical function's registers and rings begin anew; the resets that run and the masked vectors stay. -/
theorem clearPf_keeps (s : State) : s.clearPf.resetting = s.resetting ∧ s.clearPf.unmasked = s.unmasked := by
  simp [State.clearPf, State.clearReg]

theorem execFunctionLevelReset_there {s : State} {fn : Fin 64} (hthere : s.fnThere fn = true) :
    execFunctionLevelReset fn s = .next ((s.resetFunction fn).when (fn.val == 0) State.clearPf) := by
  simp only [execFunctionLevelReset, hthere, Bool.not_true, Bool.false_eq_true, if_false]
  rfl

-- # The end of a reset

/-- The context's commands have ended, their records are written, its state is gone, and its reset is over. -/
def State.ctxOver (s : State) (n : Nat) : State :=
  let t := ((s.endCtxCmds n).flushCtx n).clearCtxState n
  { t with resetting := NMap.erase t.resetting n }

/-- The end of the reset is told: event 0x0816, and the debugger's scope again where field access stands open. -/
def State.tellCtxOver (s : State) (n : Nat) (began : Nat) : State :=
  let t := s.when ((s.fld F.SEC_FA_STATE_OPEN 0).testBit 0) fun s => s.setFld F.SYN_DBG_STATUS_SCOPE n 1
  t.raise (.function (t.ctxFn n) true) 0x0816 0 n ((t.now - began) / 1000)

/-- The context's step, collectives and programs are gone, and no reset of it runs. -/
def State.ctxEmpty (s : State) (n : Nat) : Prop :=
  NMap.get? s.resetting n = none ∧ NMap.get? s.steps n = none ∧ (∀ x ∈ s.colls, x.ctx ≠ n) ∧ ∀ p ∈ s.programs, p.1 / 2 ^ 32 ≠ n

theorem ctxOver_ctxEmpty (s : State) (n : Nat) : (s.ctxOver n).ctxEmpty n := by
  refine ⟨NMap.get?_erase_self .., NMap.get?_erase_self .., fun x hx => ?_, fun p hp => ?_⟩
  · simpa using (List.mem_filter.mp hx).2
  · simpa using (List.mem_filter.mp hp).2

theorem ctxOver_frame (s : State) (n : Nat) : s.frame (s.ctxOver n) := by simp [State.ctxOver]

theorem tellCtxOver_told (s : State) (n began : Nat) : s.told (s.tellCtxOver n began) := by
  unfold State.tellCtxOver
  exact (when_told (setFld_told ..)).trans (raise_told ..)

theorem ctxEmpty_of_told {s t : State} {n : Nat} (h : s.told t) (hempty : s.ctxEmpty n) : t.ctxEmpty n := by
  rw [h]
  exact hempty

/-- With no shutdown of contexts under way the end of a reset goes on to none. -/
theorem shutDone_of_none {s : State} (h : s.firmware.shut = none) (n : Nat) : s.shutDone n = s := by
  rw [State.shutDone, h]

/-- A reset whose passes are over and whose records are written ends. -/
theorem execContextResetDone_over {s : State} {ctx : Fin 256} {began : Nat} (hruns : NMap.get? s.resetting ctx = some began)
    (hpasses : (s.engines.any fun e => e.2.ctx == ctx.val) = false) (hwritten : ((s.endCtxCmds ctx).flushCtx ctx).ctxRecorded ctx = true)
    (hshut : s.firmware.shut = none) : execContextResetDone ctx s = .next ((s.ctxOver ctx).tellCtxOver ctx began) := by
  have hfirmware : ((s.ctxOver ctx).tellCtxOver ctx began).firmware = s.firmware :=
    (congrArg State.firmware (tellCtxOver_told ..)).trans (ctxOver_frame s ctx).1
  rw [← shutDone_of_none (s := (s.ctxOver ctx).tellCtxOver ctx began) (by rw [hfirmware, hshut]) ctx]
  simp only [execContextResetDone, hruns, hpasses, hwritten, Bool.not_true, Bool.false_eq_true, if_false]
  rfl

/-- Settles O24: the two writes of QUE_CTX_CFG, the pass of a function level reset over its contexts, and the end of a reset, whose frame keeps
the firmware's shutdown off (`ctxOver_frame`). That a function level reset masks the function's vectors is the model's choice of log 6. -/
theorem contextLife : Obligations.ContextLife := by
  unfold Obligations.ContextLife
  refine ⟨?enables, ?clears, ?function, ?ends⟩
  case enables =>
    intro s fn ctx v hgo hoff hidle new hsets hfits
    exact congrArg Host.Outcome.next (State.writeCtxCfg_enables hgo hoff hidle hsets hfits)
  case clears =>
    intro s fn ctx hgo hon
    exact ⟨s.startCtxReset ctx, congrArg Host.Outcome.next (State.writeCtxCfg_clears hgo hon), ctxOn_startCtxReset s ctx,
      by rw [startCtxReset_resetting, NMap.get?_set_self]⟩
  case function =>
    intro s fn hthere
    have hresets : ((s.resetFunction fn).when (fn.val == 0) State.clearPf).resetting = (s.resetFunction fn).resetting :=
      State.when_keeps _ State.resetting fun t => (clearPf_keeps t).1
    have hvectors : ((s.resetFunction fn).when (fn.val == 0) State.clearPf).unmasked = (s.resetFunction fn).unmasked :=
      State.when_keeps _ State.unmasked fun t => (clearPf_keeps t).2
    refine ⟨_, execFunctionLevelReset_there hthere, fun n hn hown => ?_, fun k hk => unmasked_resetFunction (hvectors ▸ hk)⟩
    rw [State.ctxResetting, hresets]
    exact ctxResetting_resetFunction hn (hown.imp_left (congrArg Fin.val))
  case ends =>
    intro s ctx began hruns hpasses hwritten hshut
    exact ⟨_, execContextResetDone_over hruns hpasses hwritten hshut, ctxEmpty_of_told (tellCtxOver_told ..) (ctxOver_ctxEmpty s ctx)⟩

end Sys2Proof.Machine
end

section
/-! SUPPORT. Epochs, event rings and the heartbeat of a session (R86 to R89, R95, R536, R582). -/

namespace Sys2Proof.Machine

-- # What an adoption shows (R89)

theorem showEpochs_told (s : State) : s.told s.showEpochs := by
  unfold State.showEpochs
  exact ((setFld_told ..).trans (setFld_told ..)).trans (when_told (raise_told ..))

theorem committed_showEpochs (s : State) : s.showEpochs.committed = s.committed := by
  have hraise (t : State) (code sev source detail : Nat) : (t.raise .device code sev source detail).committed = t.committed :=
    congrArg F.HIF_EPOCH_STATUS_COMMITTED.of (reg_deliver (by decide) (by decide) (by decide) ..)
  have hmin (t : State) (v : Nat) : (t.setFld F.HIF_EPOCH_STATUS_ADOPTED_MIN 0 v).committed = t.committed :=
    fld_setFld_apart t (f := F.HIF_EPOCH_STATUS_ADOPTED_MIN) (g := F.HIF_EPOCH_STATUS_COMMITTED) (by decide) (.inr (by decide)) rfl 0 v
  have hpending (t : State) (v : Nat) : (t.setFld F.HIF_EPOCH_PENDING_UNITS 0 v).committed = t.committed :=
    fld_setFld_reg t v (by decide)
  unfold State.showEpochs
  exact (State.when_keeps _ State.committed fun t => hraise ..).trans ((hpending ..).trans (hmin ..))

-- # The commit (R87)

/-- With no base of a schedule table staged there is no table to validate. -/
theorem validateTables_of_unstaged {staged : NMap Word} (h : ∀ n, NMap.get? staged (RegName.key .UPD_CROZ_BASE n) = none) (s : State) :
    s.validateTables staged = s :=
  s.each_of_fixed _ fun n _ => by rw [h n]

/-- The committed epoch rises, the staging copies freeze into it, and HOST adopts it. -/
def State.commitEpoch (s : State) : State :=
  let t := s.setFld F.HIF_EPOCH_STATUS_COMMITTED 0 (s.committed + 1)
  let t : State := { t with frozen := (t.committed, s.staging) :: s.frozen, staging := [] }
  let t := (t.adoptEpoch .host 0).beginAt commitTimer 0
  t.setFld F.HIF_EPOCH_PENDING_UNITS 0 t.pendingMask

theorem execEpochCommit_commits {s : State} (hgo : s.reach 0 .HIF_EPOCH_COMMIT 0 = .go)
    (hbases : ∀ n, NMap.get? s.staging (RegName.key .UPD_CROZ_BASE n) = none) : execEpochCommit 0 s = .next s.commitEpoch.showEpochs := by
  rw [← validateTables_of_unstaged hbases s.commitEpoch]
  exact congrArg Host.Outcome.next (State.reaching_go hgo _)

section
variable {s : State} (hfits : s.committed + 1 < 2 ^ 32)
include hfits

/-- The epoch number that a commit writes. -/
theorem committed_raised : (s.setFld F.HIF_EPOCH_STATUS_COMMITTED 0 (s.committed + 1)).committed = s.committed + 1 :=
  (fld_setFld_self s _ (by decide) 0 _).trans (Nat.mod_eq_of_lt hfits)

theorem commitEpoch_committed : s.commitEpoch.committed = s.committed + 1 := by
  unfold State.commitEpoch
  exact (fld_setFld_reg _ _ (by decide)).trans (committed_raised hfits)

theorem commitEpoch_frozen : s.commitEpoch.frozen = (s.committed + 1, s.staging) :: s.frozen :=
  congrArg (fun e => (e, s.staging) :: s.frozen) (committed_raised hfits)

theorem commitEpoch_adoptedBy_host : s.commitEpoch.adoptedBy .host 0 = s.committed + 1 :=
  (NMap.getD_set_self ..).trans (committed_raised hfits)

end

-- # Adoption (R88)

@[simp] theorem enablePages_frame (before s : State) : s.frame (State.enablePages before s) := by simp [State.enablePages]

@[simp] theorem announceFrom_frame (s : State) (ctx site : Nat) (was : Bool) : s.frame (s.announceFrom ctx site was) := by
  simp [State.announceFrom]

@[simp] theorem showPath_frame (s : State) : s.frame s.showPath := by simp [State.showPath]

@[simp] theorem watchPath_frame (s : State) (ctx i : Nat) : s.frame (s.watchPath ctx i) := by
  unfold State.watchPath
  dsimp only
  repeat' split
  all_goals simp [State.setPath]

@[simp] theorem grantCredits_frame (s : State) (ctx : Nat) : s.frame (s.grantCredits ctx) := by simp [State.grantCredits, State.modGate]

@[simp] theorem startPaths_frame (before s : State) : s.frame (State.startPaths before s) := by
  unfold State.startPaths
  exact each_frame fun c t => by simp

/-- A unit that stands at a boundary behind the committed epoch adopts it. -/
theorem execEpochAdopt_adopts {s : State} {unit : EpochClass} {inst : Fin 32} (hinst : inst.val < classCount unit)
    (hboundary : s.atBoundary unit inst = true) (hbehind : s.adoptedBy unit inst < s.committed) :
    ∃ t, execEpochAdopt unit inst s = .next t ∧ t.adoptedBy unit inst = s.committed := by
  refine ⟨_, if_pos ⟨hinst, hboundary, hbehind⟩, ?_⟩
  have hpages : (s.adoptEpoch unit inst).frame ((s.adoptEpoch unit inst).when (unit == .exchange) fun t => State.enablePages s t) :=
    when_frame fun t => enablePages_frame s t
  obtain ⟨-, hadopted⟩ := hpages.trans (when_frame (c := unit == .far) fun t => startPaths_frame s t)
  have hshown := (congrArg State.adopted (showEpochs_told _)).trans hadopted
  rw [State.adoptedBy, hshown]
  exact NMap.getD_set_self ..

-- # Event rings (R95, R582)

/-- An event ring that is enabled is empty, and takes the events held for it and then EVENTS_LOST. -/
theorem State.writeEvqCfg_enables {s : State} {fn : Nat} {h : Half} {v : Word} (hgo : s.reach fn .EXC_EVQ_CFG fn = .go)
    (hoff : s.fld F.EXC_EVQ_CFG_EN fn = 0) :
    let new := RegName.EXC_EVQ_CFG.written h (s.reg .EXC_EVQ_CFG fn) v
    6 ≤ F.EXC_EVQ_CFG_LOG2.of new → F.EXC_EVQ_CFG_LOG2.of new ≤ 16 → F.EXC_EVQ_CFG_EN.of new = 1 →
    let t := (s.setReg .EXC_EVQ_CFG fn new).setFld F.EXC_EVQ_HEAD_HEAD fn 0
    let t := ((t.setFld F.EXC_EVQ_STATE_TAIL fn 0).setFld F.EXC_EVQ_STATE_PHASE fn 1).setRing fn ⟨0, 1, true, []⟩
    s.writeEvqCfg fn h v = (t.each (s.ring fn).held fun e t => t.ringWrite fn e).ringLost fn := by
  intro new hlow hhigh hsets
  have hold : ¬ F.EXC_EVQ_CFG_EN.of (s.reg .EXC_EVQ_CFG fn) = 1 := by
    change ¬ s.fld F.EXC_EVQ_CFG_EN fn = 1
    omega
  have hsize : (!sizeOk (F.EXC_EVQ_CFG_LOG2.of new) 6) = false := by simp [sizeOk, hlow, hhigh]
  rw [State.writeEvqCfg, State.reaching_go hgo]
  simp only [hold, hsize, hsets, new, if_false, Bool.false_eq_true, one_ne_zero]
  rfl

-- # The heartbeat (R536)

/-- A heartbeat of the session before its deadline is noted. -/
theorem State.writeHeartbeat_noted {s : State} (hgo : s.reach 0 .HIF_HEARTBEAT 0 = .go) (hsession : s.driver = 0)
    (htime : s.now ≤ s.firmware.session.beat + 2 * sec) : s.writeHeartbeat 0 = s.modSession fun x => { x with beat := s.now } := by
  rw [State.writeHeartbeat, State.reaching_go hgo]
  exact if_pos ⟨rfl, hsession, htime⟩

/-- Settles O25: a commit and an adoption write the epochs they name, which the events that follow leave (`showEpochs_told`). -/
theorem epochsAndRings : Obligations.EpochsAndRings := by
  unfold Obligations.EpochsAndRings
  refine ⟨?commits, ?adopts, ?rings, ?beats⟩
  case commits =>
    intro s hgo hfits hbases
    have htold := showEpochs_told s.commitEpoch
    exact ⟨_, execEpochCommit_commits hgo hbases, (committed_showEpochs _).trans (commitEpoch_committed hfits),
      congrArg State.staging htold, (congrArg State.frozen htold).trans (commitEpoch_frozen hfits),
      (congrArg (fun t : State => t.adoptedBy .host 0) htold).trans (commitEpoch_adoptedBy_host hfits)⟩
  case adopts => exact fun s unit inst hinst hboundary hbehind => execEpochAdopt_adopts hinst hboundary hbehind
  case rings =>
    intro s fn v hgo hoff new hlow hhigh hsets
    exact congrArg Host.Outcome.next (State.writeEvqCfg_enables hgo hoff hlow hhigh hsets)
  case beats =>
    rintro s fn hgo rfl hsession htime
    exact congrArg Host.Outcome.next (State.writeHeartbeat_noted hgo hsession htime)

end Sys2Proof.Machine
end

section
/-! SUPPORT. Operations of the control slot (Table 3-15, R102, R104, R128 to R133): what an admitted one answers. -/

namespace Sys2Proof.Machine

-- # An admitted operation

/-- An admitted operation that stands in its slot and writes registers which no other operation of its bundle has written issues. -/
theorem runSlot_issues {s : State} {h : SlotHdr} {c : SlotCtx} (hgo : s.openSlot h = .go c) {need : Bool} (hneed : need = true)
    {f : SlotCtx → SlotRes} {x : Tile} {keys : List Nat} {effs : List SlotEffect} (hf : f c = .write x keys effs)
    (hkeys : ∀ k ∈ keys, c.mayWrite k) : s.runSlot h need f = .next (s.issued h c (x.gathers keys effs)) := by
  subst hneed
  exact runSlot_write hgo hf hkeys

/-- An admitted operation that has nothing to do issues. -/
theorem runSlot_passes {s : State} {h : SlotHdr} {c : SlotCtx} (hgo : s.openSlot h = .go c) {need : Bool} (hneed : need = true)
    {f : SlotCtx → SlotRes} (hf : f c = .skip) : s.runSlot h need f = .next (s.issued h c c.x) := by
  subst hneed
  exact runSlot_skip hgo hf

/-- An admitted operation that is a decode fault stops its tile (R133). -/
theorem runSlot_decode {s : State} {h : SlotHdr} {c : SlotCtx} (hgo : s.openSlot h = .go c) {need : Bool} (hneed : need = true)
    {f : SlotCtx → SlotRes} (hf : f c = .decode) : s.runSlot h need f = .next (s.tileFault h.tile St.badCommand 3) := by
  subst hneed
  obtain ⟨htile, -⟩ := admit_go hgo
  rw [runSlot_go hgo, hf, ← htile]
  rfl

theorem mayWrite_one {c : SlotCtx} {key : Nat} (hmay : c.mayWrite key) : ∀ k ∈ [key], c.mayWrite k := by
  simpa using hmay

theorem mayWrite_none {c : SlotCtx} : ∀ k ∈ ([] : List Nat), c.mayWrite k := by simp

/-- To gather nothing changes nothing. -/
@[simp] theorem Tile.gathers_nil (x : Tile) : x.gathers [] [] = x := by simp [Tile.gathers]

section
variable {s : State} {h : SlotHdr} {c : SlotCtx}

/-- An operation whose guard is on, and which then writes one scalar register. -/
theorem runSlot_putS (hopen : s.opens h c) {slot : SlotName} (hslot : h.slot = slot) {sd : Nat} (hmay : c.mayWrite (keyS sd)) {v : BitVec 64}
    {f : SlotCtx → SlotRes} (hf : f c = if c.on then c.putS sd v else c.off [keyS sd]) :
    s.runSlot h (h.slot == slot) f = .next (s.issued h c (c.withS sd v)) :=
  runSlot_issues hopen.1 (beq_iff_eq.mpr hslot) (hf.trans (if_pos hopen.2)) (mayWrite_one hmay)

/-- An operation whose guard is on, and which then writes one predicate register. -/
theorem runSlot_putP (hopen : s.opens h c) {slot : SlotName} (hslot : h.slot = slot) {pd : Nat} (hmay : c.mayWrite (keyP pd)) {v : BitVec 256}
    {f : SlotCtx → SlotRes} (hf : f c = if c.on then c.putP pd v [] else c.off [keyP pd]) :
    s.runSlot h (h.slot == slot) f = .next (s.issued h c (c.withP pd v [])) :=
  runSlot_issues hopen.1 (beq_iff_eq.mpr hslot) (hf.trans (if_pos hopen.2)) (mayWrite_one hmay)

-- # Scalar arithmetic (R128, R129)

theorem scalarOp_done (hopen : s.opens h c) (hslot : h.slot = .c) {sd : Fin 32} (hmay : c.mayWrite (keyS sd))
    (f : BitVec 64 → BitVec 64 → BitVec 64) (sa sb : Fin 32) :
    scalarOp f h sd sa sb s = .next (s.issued h c (c.withS sd (f (c.src.sreg sa) (c.src.sreg sb)))) :=
  runSlot_putS hopen hslot hmay rfl

/-- SINS writes the scalar whose quarter is the immediate and whose other bits are those of the register. -/
theorem execSins_done (hopen : s.opens h c) (hslot : h.slot = .c) {sd : Fin 32} (hmay : c.mayWrite (keyS sd)) {quarter : Fin 4}
    {imm : BitVec 16} {v : BitVec 64} (hv : ∀ k : Nat, k < 64 → v.getLsbD k =
      if 16 * quarter.val ≤ k ∧ k < 16 * quarter.val + 16 then imm.getLsbD (k - 16 * quarter.val) else (c.src.sreg sd).getLsbD k) :
    execSins h sd quarter imm s = .next (s.issued h c (c.withS sd v)) := by
  let f : Field := ⟨.HIF_ID, 16 * quarter.val, 16⟩
  have hfit : f.lo + f.width ≤ 64 := by have := quarter.isLt; change 16 * quarter.val + 16 ≤ 64; omega
  have hput : f.put (c.src.sreg sd) imm.toNat = v := by
    refine BitVec.eq_of_getLsbD_eq fun k hk => ?_
    rw [f.getLsbD_put hfit, hv k hk]
    rfl
  refine runSlot_putS hopen hslot hmay ?_
  rw [← hput, Field.put, Nat.mod_eq_of_lt imm.isLt]

theorem execSrd_done (hopen : s.opens h c) (hslot : h.slot = .c) {sd : Fin 32} (hmay : c.mayWrite (keyS sd)) {idx : BitVec 8} {v : Nat}
    (hv : specialValue s c idx.toNat = some v) : execSrd h sd idx s = .next (s.issued h c (c.withS sd (BitVec.ofNat 64 v))) :=
  runSlot_putS hopen hslot hmay (by rw [hv])

theorem specialValue_unlisted (s : State) (c : SlotCtx) {idx : Nat} (hidx : 0x0A < idx) : specialValue s c idx = none := by
  obtain ⟨n, rfl⟩ : ∃ n, idx = n + 11 := ⟨idx - 11, by omega⟩
  rfl

-- # Branches (R109)

theorem goto_inCode {x : Tile} {keys : List Nat} {target : Int} (hin : c.inCode target) :
    c.goto x keys target = .write { x with target := some target.toNat } keys [] := if_pos hin

/-- A branch whose guard is on, and whose target lies in the bound code. -/
theorem runSlot_goto (hopen : s.opens h c) (hslot : h.slot = .c) {x : Tile} {keys : List Nat} {target : Int} (hin : c.inCode target)
    (hmay : ∀ k ∈ keys, c.mayWrite k) {f : SlotCtx → SlotRes} {off : SlotRes} (hf : f c = if c.on then c.goto x keys target else off) :
    s.runSlot h (h.slot == .c) f = .next (s.issued h c (SlotCtx.goes x keys target)) :=
  runSlot_issues hopen.1 (beq_iff_eq.mpr hslot) (hf.trans ((if_pos hopen.2).trans (goto_inCode hin))) hmay

theorem execLoop_done (hopen : s.opens h c) (hslot : h.slot = .c) {sc : Fin 32} {off : BitVec 24} (hmay : c.mayWrite (keyS sc))
    (hzero : c.src.sreg sc - 1 = 0) : execLoop h sc off s = .next (s.issued h c (c.withS sc (c.src.sreg sc - 1))) :=
  runSlot_putS hopen hslot hmay (by simp only [hzero, if_true]; rfl)

theorem execLoop_again (hopen : s.opens h c) (hslot : h.slot = .c) {sc : Fin 32} {off : BitVec 24} (hmay : c.mayWrite (keyS sc))
    (hleft : c.src.sreg sc - 1 ≠ 0) (hin : c.inCode (c.branch off)) : execLoop h sc off s = .next (s.issued h c
      (SlotCtx.goes { c.x with core := c.x.core.setS sc (c.src.sreg sc - 1) } [keyS sc] (c.branch off))) :=
  runSlot_goto (off := c.off [keyS sc]) hopen hslot hin (mayWrite_one hmay) (by simp only [hleft, if_false])

end

/-- Settles O2: the thirteen are `scalarOp` of thirteen functions. -/
theorem scalarResults : Obligations.ScalarResults := by
  unfold Obligations.ScalarResults
  intro s h c sd sa sb hopen hslot hmay
  have hdone := fun f => scalarOp_done hopen hslot hmay f sa sb
  exact ⟨hdone (· + ·), hdone (· - ·), hdone (· * ·), hdone (· &&& ·), hdone (· ||| ·), hdone (· ^^^ ·), hdone fun a b => a <<< shamt b,
    hdone fun a b => a >>> shamt b, hdone fun a b => a.sshiftRight (shamt b), hdone fun a b => if a.slt b then 1 else 0,
    hdone fun a b => if a.ult b then 1 else 0, hdone fun a b => if a.slt b then a else b, hdone fun a b => if a.slt b then b else a⟩

/-- Settles O3: SINS by the bits of its result, SRD by the special value that its index names. -/
theorem scalarImmediates : Obligations.ScalarImmediates := by
  unfold Obligations.ScalarImmediates
  intro s h c sd sa hopen hslot hmay
  have hspecial (idx : BitVec 8) {v : Nat} (hv : specialValue s c idx.toNat = some v) := execSrd_done hopen hslot hmay hv
  obtain ⟨htile, -⟩ := admit_go hopen.1
  rw [← htile]
  refine ⟨fun imm => runSlot_putS hopen hslot hmay rfl, fun quarter imm v hv => execSins_done hopen hslot hmay hv, hspecial 0x00 rfl,
    hspecial 0x01 rfl, hspecial 0x02 rfl, hspecial 0x03 rfl, hspecial 0x04 rfl, hspecial 0x05 rfl, hspecial 0x06 rfl, hspecial 0x07 rfl,
    hspecial 0x08 rfl, hspecial 0x09 rfl, hspecial 0x0A rfl,
    fun idx hidx => ?_⟩
  rw [htile]
  refine runSlot_decode hopen.1 (beq_iff_eq.mpr hslot) ?_
  rw [specialValue_unlisted s c hidx]

/-- Settles O4: the conditions of SCMP are those of `scalarCompare`, which compares words as Table 3-15 compares their values. -/
theorem predicateResults : Obligations.PredicateResults := by
  unfold Obligations.PredicateResults
  intro s h c pd hopen hslot hmay
  refine ⟨fun sa sb => ?scmp, fun pa pb => ?plog⟩
  case scmp =>
    have hdone (cnd : Fin 8) : exec (.scmp h pd cnd sa sb) s = .next (s.issued h c (c.withP pd
        (if scalarCompare cnd (c.src.sreg sa) (c.src.sreg sb) then BitVec.allOnes 256 else 0#256) [])) := runSlot_putP hopen hslot hmay rfl
    exact ⟨hdone 0, hdone 1, hdone 2, hdone 3, hdone 4, hdone 5, hdone 6, hdone 7⟩
  case plog =>
    exact ⟨runSlot_putP hopen hslot hmay rfl, runSlot_putP hopen hslot hmay rfl, runSlot_putP hopen hslot hmay rfl,
      runSlot_putP hopen hslot hmay rfl⟩

/-- Settles O5. That LOOP branches on the value it computes, also where SC is s0, is the model's choice (log 14). -/
theorem controlFlow : Obligations.ControlFlow := by
  unfold Obligations.ControlFlow
  intro s h c hopen hslot
  have hneed : (h.slot == SlotName.c) = true := beq_iff_eq.mpr hslot
  refine ⟨fun off hin => runSlot_goto hopen hslot hin mayWrite_none rfl,
    fun sc off hmay => ⟨execLoop_done hopen hslot hmay, execLoop_again hopen hslot hmay⟩,
    fun off hmay hin => runSlot_goto hopen hslot hin (mayWrite_one hmay) rfl,
    fun sa hin => runSlot_goto hopen hslot hin mayWrite_none rfl,
    fun hmain => runSlot_issues hopen.1 hneed ?_ mayWrite_none,
    fun si sn => runSlot_issues hopen.1 hneed (if_pos hopen.2) mayWrite_none,
    runSlot_passes (f := fun _ => .skip) hopen.1 rfl rfl⟩
  simp [hmain, hopen.2]

end Sys2Proof.Machine
end

section
/-! SUPPORT. Waits, barriers and the deferred queue (R130, R131, R135, R161, R165, R245 to R248): what an operation of a slot answers, and what
happens later to a held tile. -/

namespace Sys2Proof.Machine

-- # Waits and barriers (R130, R165)

/-- The bundle of an operation is held at issue. -/
def State.heldBy (s : State) (h : SlotHdr) (c : SlotCtx) (k : Hold) : State := (s.setTile h.tile (c.x.holdBy k)).noteHeld h.tile

section
variable {s t : State} {h : SlotHdr} {c : SlotCtx}

/-- A wait that stands first in its bundle and whose guard is on: what it comes to is what the wait at the object meets. -/
theorem waitSlot_open (hopen : s.opens h c) (hslot : h.slot = .c) (hfirst : (s.tile h.tile).used = []) (hthere : s.dropped c.l = false)
    (kind : HoldKind) (pd si sn : Nat) (timeout : Option Nat) :
    let since := (s.tile h.tile).stall.getD s.now
    let vid := (c.src.sreg si).toNat % 65536
    let target := (c.src.sreg sn).toNat
    let k : Hold := ⟨kind, vid, target, pd, since + timeout.getD 0, since, h.last⟩
    let wrote := if kind = .waitt then [keyP pd] else []
    let decided (t : State) (b : Bool) : Answer := .next (t.issued h c { c.x with met := some (metBy kind pd b), wrote := wrote })
    waitSlot h kind pd si sn timeout s =
      match s.waitOn c.l.ctx vid target ⟨0, h.tile⟩ (c.x.waiter h.tile) with
      | (t, .failed st d) => .next (t.tileFault h.tile st d)
      | (t, .satisfied _) => decided t (timeout == some 0 || k.decides true s.now)
      | (t, .held) =>
        if kind = .waitt ∧ k.deadline ≤ s.now then decided (t.cancelWaits (c.x.waiter h.tile)) false else .next (t.heldBy h c k) := by
  obtain ⟨htile, -⟩ := admit_go hopen.1
  simp only [waitSlot, hslot, hfirst, hopen.1, hopen.2, hthere, htile, ne_eq, not_true_eq_false, if_false, Bool.not_true, Bool.false_eq_true]
  rfl

theorem execWaitt_eq (hopen : s.opens h c) (pd : Fin 8) (si sn sto : Fin 32) :
    execWaitt h pd si sn sto s = waitSlot h .waitt pd si sn (some ((c.src.sreg sto).toNat % 2 ^ 48)) s := by
  obtain ⟨-, hsrc, -⟩ := admit_go hopen.1
  rw [hsrc]
  rfl

/-- A barrier arrival that is taken holds its bundle. -/
theorem execBar_taken (hopen : s.opens h c) (hslot : h.slot = .c) (hfirst : (s.tile h.tile).used = []) (hthere : s.dropped c.l = false)
    (hmain : c.x.body = none) {si se : Fin 32}
    (harrive : (s.heldBy h c ⟨.bar, (c.src.sreg si).toNat % 65536, (c.src.sreg se).toNat, 0, 0, (s.tile h.tile).stall.getD s.now, h.last⟩).arrive
      c.l.ctx ((c.src.sreg si).toNat % 65536) (c.src.sreg se).toNat h.tile = (t, none)) : execBar h si se s = .next t := by
  obtain ⟨htile, -⟩ := admit_go hopen.1
  rw [State.heldBy] at harrive
  simp [execBar, hslot, hfirst, hopen.1, hopen.2, hthere, hmain, htile, harrive]

end

/-- Settles O6. That a wait stands first in its bundle (log 12), that its timeout counts from when the bundle was first held (log 85) and what a
timeout of 0 finds (log 112) are the model's choices. -/
theorem waitsAndBarriers : Obligations.WaitsAndBarriers := by
  unfold Obligations.WaitsAndBarriers
  intro s h c hopen hslot hfirst hthere
  have hwait := waitSlot_open hopen hslot hfirst hthere
  refine ⟨fun si sn => ⟨fun t v hmet => ⟨?wait, fun pd sto => ?waitt⟩, fun t hmet => ⟨?waitHeld, fun pd sto => ⟨fun hearly => ?waittHeld, fun hover => ?waittOver⟩⟩⟩,
    fun si se hmain t harrive => execBar_taken hopen hslot hfirst hthere hmain harrive⟩
  case wait =>
    refine (hwait .wait 0 si sn none).trans ?_
    rw [hmet]
    rfl
  case waitt =>
    refine (execWaitt_eq hopen pd si sn sto).trans ((hwait .waitt pd si sn _).trans ?_)
    rw [hmet]
    rfl
  case waitHeld =>
    refine (hwait .wait 0 si sn none).trans ?_
    rw [hmet]
    rfl
  case waittHeld =>
    refine (execWaitt_eq hopen pd si sn sto).trans ((hwait .waitt pd si sn _).trans ?_)
    rw [hmet]
    exact if_neg fun hover => Nat.not_le.mpr hearly hover.2
  case waittOver =>
    refine (execWaitt_eq hopen pd si sn sto).trans ((hwait .waitt pd si sn _).trans ?_)
    rw [hmet]
    exact if_pos ⟨rfl, hover⟩

-- # A held tile (R130, R161, R247)

theorem Hold.expired_iff {k : Hold} {now : Nat} : k.expired now = true ↔ k.kind = .waitt ∧ k.deadline ≤ now := by
  simp [Hold.expired]

/-- The timeout of a WAITT of the main stream, where no body holds one whose timeout is over. -/
theorem execWaittTimeout_main {s : State} {tile : Fin 512} {k : Hold} (hmain : (s.tile tile).mainHeld = some k) (hover : k.expired s.now = true)
    (hbody : (s.tile tile).bodyHeld = none) :
    execWaittTimeout tile s = .next ((s.cancelWaits (.tile tile)).releaseTile tile false) := by
  simp [execWaittTimeout, hmain, hbody, hover]

/-- The timeout of a WAITT of a body, whose main stream is not held. -/
theorem execWaittTimeout_body {s : State} {tile : Fin 512} {k : Hold} (hmain : (s.tile tile).mainHeld = none)
    (hbody : (s.tile tile).bodyHeld = some k) (hover : k.expired s.now = true) :
    execWaittTimeout tile s = .next ((s.cancelWaits (.body tile)).releaseBody tile false) := by
  simp [execWaittTimeout, hmain, hbody, hover]

/-- Settles O7, by whose hold the tile's is: its main stream's or its body's. -/
theorem heldTiles : Obligations.HeldTiles := by
  unfold Obligations.HeldTiles
  intro s tile
  refine ⟨fun k hbody hhold hkind hdue => ?alone, fun b k hbody hhold hmain hrel hkind hdue => ?beside, fun b k hbody hhold hmain hkind hdue => ?inBody,
    fun ctx vid => rfl⟩
  case alone =>
    exact execWaittTimeout_main (by simpa [Tile.mainHeld, hbody] using hhold) (Hold.expired_iff.mpr ⟨hkind, hdue⟩) (by simp [Tile.bodyHeld, hbody])
  case beside =>
    exact execWaittTimeout_main (by simpa [Tile.mainHeld, hbody, hrel] using hmain) (Hold.expired_iff.mpr ⟨hkind, hdue⟩)
      (by simp [Tile.bodyHeld, hbody, hhold])
  case inBody =>
    have hdecided : (s.tile tile).mainHeld = none := by rcases hmain with hnone | hrel <;> simp [Tile.mainHeld, *]
    exact execWaittTimeout_body hdecided (by simpa [Tile.bodyHeld, hbody] using hhold) (Hold.expired_iff.mpr ⟨hkind, hdue⟩)

-- # The deferred queue (R131, R245 to R248)

/-- The first of a tile's descriptors is its oldest. -/
theorem Tile.oldest_cons {x : Tile} {d : Deferred} {rest : List Deferred} (hqueue : x.deferred = d :: rest) : x.oldest none = some d := by
  simp [Tile.oldest, hqueue]

section
variable {s : State} {h : SlotHdr} {c : SlotCtx}

/-- DEFQ posts its descriptor where the queue has room. -/
theorem execDefq_posts (hopen : s.opens h c) (hslot : h.slot = .c) (hmain : c.x.body = none) (hroom : c.x.deferred.length < 64) {sd sh : Fin 32}
    {d : Deferred} (halign : (c.src.sreg sd).toNat % 32 = 0) (hread : s.canRead c (c.src.sreg sd).toNat 32)
    (hspells : Deferred.ofBytes (s.storeRead h.tile (c.src.sreg sd).toNat 32) ((c.src.sreg sh).toNat % 2 ^ 32) = some d) :
    execDefq h sd sh s = .next (s.issued h c (c.x.gathers [] [.defq d])) := by
  obtain ⟨htile, -⟩ := admit_go hopen.1
  obtain ⟨hbacked, hfree⟩ := hread
  have hinside : ¬ storeSize < (c.src.sreg sd).toNat + 32 := fun hbeyond => by simp [storeHole, hbeyond] at hbacked
  have hnotFull : (c.x.deferred.length == 64) = false := by simp; omega
  simp only [execDefq, hopen.1, hnotFull, Bool.and_false, Bool.false_eq_true, if_false]
  refine runSlot_issues hopen.1 (beq_iff_eq.mpr hslot) ?_ mayWrite_none
  rw [← htile] at hspells
  simp only [hmain, hopen.2, halign, hinside, hfree, hspells, Option.isSome_none, Bool.not_true, Bool.false_eq_true, ne_eq, not_true_eq_false,
    if_false]

/-- DEFQ at a full queue runs the oldest descriptor, and holds its bundle meanwhile. -/
theorem execDefq_full (hopen : s.opens h c) (hslot : h.slot = .c) (hmain : (s.tile h.tile).body = none) {sd sh : Fin 32} {d : Deferred}
    {rest : List Deferred} (hqueue : (s.tile h.tile).deferred = d :: rest) (hfull : rest.length = 63) :
    execDefq h sd sh s = .next (s.startBody h.tile d true) := by
  obtain ⟨-, -, -, -, -, -, -, hx⟩ := admit_go hopen.1
  have hbody : c.x.body = none := by rw [hx]; exact hmain
  have hlength : c.x.deferred.length = 64 := by
    rw [hx]
    change (s.tile h.tile).deferred.length = 64
    rw [hqueue, List.length_cons, hfull]
  simp [execDefq, hopen.1, hopen.2, hslot, hbody, hlength, Tile.oldest_cons hqueue]

end

/-- A main stream that has been held for YIELD_NS yields to the oldest deferred body (R248). -/
theorem execDeferredYield_yields {s : State} {tile : Fin 512} {l : Launch} {d : Deferred} {rest : List Deferred} {since : Nat}
    (hlaunch : s.tileLaunch tile = some l) (hfault : l.fault = none) (hbody : (s.tile tile).body = none)
    (hqueue : (s.tile tile).deferred = d :: rest)
    (hheld : (∃ k, (s.tile tile).hold = some k ∧ k.since = since) ∨ ((s.tile tile).hold = none ∧ (s.tile tile).stall = some since))
    (hruns : (s.tile tile).stopped = false) (hends : (s.tile tile).ended = false) (hfatal : s.flag F.HIF_STATUS_FATAL 0 = false)
    (hyields : F.EXC_STEP_CFG_YIELD_NS.of (s.staged .EXC_STEP_CFG l.ctx .sori (tile / 16)) ≠ 0)
    (hdue : since + F.EXC_STEP_CFG_YIELD_NS.of (s.staged .EXC_STEP_CFG l.ctx .sori (tile / 16)) ≤ s.now) :
    execDeferredYield tile s = .next (s.startBody tile d false) := by
  rcases hheld with ⟨k, hhold, rfl⟩ | ⟨hhold, hstall⟩
  · simp [execDeferredYield, hlaunch, hbody, Tile.oldest_cons hqueue, hhold, hyields, hdue, hfault, hruns, hends, hfatal]
  · simp [execDeferredYield, hlaunch, hbody, Tile.oldest_cons hqueue, hhold, hstall, hyields, hdue, hfault, hruns, hends, hfatal]

/-- Settles O8. -/
theorem deferredQueue : Obligations.DeferredQueue := by
  unfold Obligations.DeferredQueue
  refine ⟨?posts, ?full, ?yields, fun s tile l hlaunch => ⟨fun hfirst => ?refetch, fun hagain => ?faults⟩⟩
  case posts =>
    intro s h c sd sh d hopen hslot hmain hroom halign hread hspells
    exact execDefq_posts hopen hslot hmain hroom halign hread hspells
  case full =>
    intro s h c sd sh d rest hopen hslot hmain hqueue hfull
    exact execDefq_full hopen hslot hmain hqueue hfull
  case yields =>
    intro s tile l d rest since hlaunch hfault hbody hqueue hheld hruns hends hfatal y hyields hdue
    exact execDeferredYield_yields hlaunch hfault hbody hqueue hheld hruns hends hfatal hyields hdue
  case refetch =>
    change execCodePageRefetch tile s = _
    simp [execCodePageRefetch, hlaunch, hfirst]
  case faults =>
    change execCodePageRefetch tile s = _
    simp [execCodePageRefetch, hlaunch, hagain]

end Sys2Proof.Machine
end

section
/-! SUPPORT. Operations whose guard is off or whose destination is named twice (R102, R104, R133), and loads and stores (R107, R123). -/

namespace Sys2Proof.Machine

-- # The guard and the destinations of an operation (R102, R104)

/-- The operations of `guardedOp` run in their slot, and with their guard off do nothing but name their destinations. -/
theorem guardedOp_runs {i : Instr} {h : SlotHdr} {slot : SlotName} {keys : List Nat} (hop : guardedOp i = some (h, slot, keys)) (s : State) :
    ∃ f : SlotCtx → SlotRes, exec i s = s.runSlot h (h.slot == slot) f ∧
      ∀ c : SlotCtx, c.on = false → f c = c.off keys ∨ keys = [] ∧ f c = .skip := by
  unfold guardedOp at hop
  split at hop
  case h_28 => cases hop
  all_goals
    cases hop
    refine ⟨_, rfl, fun c hoff => ?_⟩
    simp [hoff]

/-- An answer that writes the register of a key alone, or is a decode fault. -/
def SlotRes.writesOrFaults (r : SlotRes) (key : Nat) : Prop := (∃ x effs, r = .write x [key] effs) ∨ r = .decode

theorem writesOrFaults_write (x : Tile) (key : Nat) (effs : List SlotEffect) : (SlotRes.write x [key] effs).writesOrFaults key := .inl ⟨x, effs, rfl⟩

theorem writesOrFaults_ite {p : Prop} [Decidable p] {a b : SlotRes} {key : Nat} (ha : a.writesOrFaults key) (hb : b.writesOrFaults key) :
    (if p then a else b).writesOrFaults key := by
  split
  · exact ha
  · exact hb

theorem writesOrFaults_goto (c : SlotCtx) (x : Tile) (key : Nat) (target : Int) : (c.goto x [key] target).writesOrFaults key :=
  writesOrFaults_ite (writesOrFaults_write ..) (.inr rfl)

/-- The operations of `soleWriter` run in the control slot, and write their register or are a decode fault. -/
theorem soleWriter_runs {i : Instr} {h : SlotHdr} {key : Nat} (hop : soleWriter i = some (h, key)) (s : State) :
    ∃ f : SlotCtx → SlotRes, exec i s = s.runSlot h (h.slot == .c) f ∧ ∀ c : SlotCtx, (f c).writesOrFaults key := by
  unfold soleWriter at hop
  split at hop
  case h_21 => cases hop
  all_goals
    cases hop
    refine ⟨_, rfl, fun c => ?_⟩
  case h_16 =>
    split
    · exact .inr rfl
    · exact writesOrFaults_ite (writesOrFaults_write ..) (writesOrFaults_write ..)
  case h_17 => exact writesOrFaults_ite (writesOrFaults_ite (writesOrFaults_write ..) (writesOrFaults_goto ..)) (writesOrFaults_write ..)
  case h_18 => exact writesOrFaults_ite (writesOrFaults_goto ..) (writesOrFaults_write ..)
  all_goals exact writesOrFaults_ite (writesOrFaults_write ..) (writesOrFaults_write ..)

/-- Settles O54. That an operation whose guard is off still names its destinations is the model's choice (log 14). -/
theorem slotChecks : Obligations.SlotChecks := by
  unfold Obligations.SlotChecks
  intro s i h c hgo
  refine ⟨fun keys hop hoff => ?guard, fun key hop hslot htwice => ?sole⟩
  case guard =>
    obtain ⟨f, hrun, hf⟩ := guardedOp_runs hop s
    rw [hrun, beq_self_eq_true]
    refine ⟨fun hfree => ?_, fun key hkey htwice => ?_⟩
    · rcases hf c hoff with hnames | ⟨rfl, hskip⟩
      · exact runSlot_write hgo hnames hfree
      · rw [Tile.gathers_nil]
        exact runSlot_skip hgo hskip
    · rcases hf c hoff with hnames | ⟨rfl, -⟩
      · exact runSlot_twice hgo hnames hkey htwice
      · cases hkey
  case sole =>
    obtain ⟨f, hrun, hf⟩ := soleWriter_runs hop s
    rw [hrun, hslot, beq_self_eq_true]
    rcases hf c with ⟨x, effs, hwrites⟩ | hfaults
    · exact runSlot_twice hgo hwrites (List.mem_singleton_self key) htwice
    · exact runSlot_decode hgo rfl hfaults

-- # Loads and stores (R107, R123)

theorem readCheck_of_canRead {s : State} {c : SlotCtx} {off n : Nat} (hread : s.canRead c off n) (ok : SlotRes) :
    s.readCheck c (storeHole c.t off n) off n ok = ok := by
  obtain ⟨hbacked, hfree⟩ := hread
  simp [State.readCheck, hbacked, hfree]

theorem writeCheck_of_canStore {s : State} {c : SlotCtx} {off n : Nat} (hstore : s.canStore c off n) (ok : SlotRes) :
    s.writeCheck c off n ok = ok := by
  obtain ⟨⟨hbacked, hfree⟩, hopen⟩ := hstore
  simp [State.writeCheck, hbacked, hfree, hopen]

section
variable {s : State} {h : SlotHdr} {c : SlotCtx}

/-- A load whose guard is on, at an offset that is aligned, backed and unlocked. -/
theorem runSlot_loads (hopen : s.opens h c) (hslot : h.slot = .l) {a n m : Nat} (halign : a % m = 0) (hread : s.canRead c a n) {x : Tile}
    {key : Nat} (hmay : c.mayWrite key) {f : SlotCtx → SlotRes}
    (hf : f c = if !c.on then c.off [key] else if a % m ≠ 0 then .decode else s.readCheck c (storeHole c.t a n) a n (.write x [key] [])) :
    s.runSlot h (h.slot == .l) f = .next (s.issued h c (x.gathers [key] [])) := by
  refine runSlot_issues hopen.1 (beq_iff_eq.mpr hslot) ?_ (mayWrite_one hmay)
  simp [hf, hopen.2, halign, readCheck_of_canRead hread]

/-- A store whose guard is on, at an offset that is aligned, backed and unlocked. -/
theorem runSlot_stores (hopen : s.opens h c) (hslot : h.slot = .l) {a n m : Nat} (halign : a % m = 0) (hstore : s.canStore c a n)
    {bs : List Byte} {f : SlotCtx → SlotRes}
    (hf : f c = if !c.on then .skip else if a % m ≠ 0 then .decode else s.writeCheck c a n (.write c.x [] [.store a bs])) :
    s.runSlot h (h.slot == .l) f = .next (s.issued h c (c.x.gathers [] [.store a bs])) := by
  refine runSlot_issues hopen.1 (beq_iff_eq.mpr hslot) ?_ mayWrite_none
  simp [hf, hopen.2, halign, writeCheck_of_canStore hstore]

end

/-- Settles O15. That the offset is unsigned and the sum is what must be aligned (log 30), and that it wraps modulo 2^64 (log 84), are the
model's choices. -/
theorem loadsAndStores : Obligations.LoadsAndStores := by
  unfold Obligations.LoadsAndStores
  intro s h c sb off hopen hslot
  obtain ⟨htile, -⟩ := admit_go hopen.1
  rw [← htile]
  exact ⟨fun r halign => ⟨fun hread hmay => runSlot_loads hopen hslot halign hread hmay rfl, fun hstore => runSlot_stores hopen hslot halign hstore rfl⟩,
    fun r halign => ⟨fun hread hmay => runSlot_loads hopen hslot halign hread hmay rfl, fun hstore => runSlot_stores hopen hslot halign hstore rfl⟩⟩

end Sys2Proof.Machine
end

section
/-! SUPPORT. Lane-wise operations of the vector slots (Table 3-11, R116, R117, R230, R231, R241). -/

namespace Sys2Proof.Machine

section
variable {s : State} {h : SlotHdr} {c : SlotCtx} {o : VOps}

/-- An admitted lane-wise operation gives every active lane its result. -/
theorem runSlot_lanewise (hgo : s.openSlot h = .go c) (hvec : vecSlot h = true) (hmay : c.mayWrite (keyV o.vd)) {opcode : Nat}
    {r : Nat → Nat × Bool} {f : SlotCtx → SlotRes} (hf : f c = c.lanewise h o opcode r) :
    s.runSlot h (vecSlot h) f = .next (s.issued h c (c.withLanes h o opcode r)) := runSlot_issues hgo hvec hf (mayWrite_one hmay)

-- # Float lanes (R116, R230, R231, R241)

theorem floatOp_done (hgo : s.openSlot h = .go c) (hvec : vecSlot h = true) {ft : FFmt} (hfmt : widthFmt o.w = some ft) (hmod : o.mod = 0)
    (hmay : c.mayWrite (keyV o.vd)) (opcode : Nat) (f : FFmt → Bool → Nat → Nat → Nat × Bool) : floatOp opcode f h o s =
      .next (s.issued h c (c.withLanes h o opcode fun i => f ft c.her (c.floatLane o ft o.va i) (c.floatLane o ft o.vb i))) :=
  runSlot_lanewise hgo hvec hmay (by simp only [hfmt, hmod]; rfl)

theorem fmaOp_done (hgo : s.openSlot h = .go c) (hvec : vecSlot h = true) {ft : FFmt} (hfmt : widthFmt o.w = some ft) (hmod : o.mod = 0)
    (hmay : c.mayWrite (keyV o.vd)) (opcode : Nat) (neg : Bool) : fmaOp opcode neg h o s = .next (s.issued h c (c.withLanes h o opcode fun i =>
      fFma ft c.her neg (c.floatLane o ft o.va i) (c.floatLane o ft o.vb i) (c.floatLane o ft o.vc i))) :=
  runSlot_lanewise hgo hvec hmay (by simp only [hfmt, hmod]; rfl)

-- # Integer lanes (R116)

theorem intOp_done (hgo : s.openSlot h = .go c) (hvec : vecSlot h = true) (hint : o.w = 3) (hmod : o.mod = 0) (hmay : c.mayWrite (keyV o.vd))
    (opcode : Nat) (f : BitVec 32 → BitVec 32 → BitVec 32) : intOp opcode f h o s =
      .next (s.issued h c (c.withLanes h o opcode fun i => ((f (c.intLane o.va i) (c.intLane o.vb i)).toNat, false))) :=
  runSlot_lanewise hgo hvec hmay (if_neg (by simp [hint, hmod]))

/-- What VSCAL makes of a lane (Table 3-11). -/
def SlotCtx.scaled (c : SlotCtx) (o : VOps) (i : Nat) : Nat × Bool :=
  match fp32.decode (flushed c.her fp32 (lane (c.src.vreg o.va) 32 i)) with
  | .nan q => (0x7FC00000, q)
  | .inf g => (fp32.withSign g 0x7F800000, false)
  | .fin g m e => (flushed c.her fp32 (fp32.encode .nearest (.fin g m (max (-4096) (min 4096 (e + signedOf 32 (lane (c.src.vreg o.vb) 32 i)))))), false)

theorem execVscal_done (hgo : s.openSlot h = .go c) (hvec : vecSlot h = true) (hwide : o.w = 0) (hmod : o.mod = 0)
    (hmay : c.mayWrite (keyV o.vd)) : execVscal h o s = .next (s.issued h c (c.withLanes h o 0x0F (c.scaled o))) :=
  runSlot_lanewise hgo hvec hmay (if_neg (by simp [hwide, hmod]))

theorem signedOf_eq_toInt (v : Nat) : signedOf 32 v = (BitVec.ofNat 32 v).toInt := by
  rw [BitVec.toInt_eq_toNat_cond, BitVec.toNat_ofNat, signedOf]
  split <;> split <;> omega

/-- A finite product whose exponent lies within 4096 of 0 is rounded from its exact value. -/
theorem scaled_of_fin (hwide : o.w = 0) {i : Nat} {g : Bool} {m : Nat} {e : Int} (hfin : fp32.decode (c.floatLane o fp32 o.va i) = .fin g m e)
    (hlow : -4096 ≤ e + (c.intLane o.vb i).toInt) (hhigh : e + (c.intLane o.vb i).toInt ≤ 4096) :
    c.scaled o i = (flushed c.her fp32 (fp32.encode .nearest (.fin g m (e + (c.intLane o.vb i).toInt))), false) := by
  rw [SlotCtx.floatLane, hwide] at hfin
  have hdecode : fp32.decode (flushed c.her fp32 (lane (c.src.vreg o.va) 32 i)) = .fin g m e := hfin
  rw [SlotCtx.scaled, hdecode]
  simp only [signedOf_eq_toInt]
  change (flushed c.her fp32 (fp32.encode .nearest (.fin g m (max (-4096) (min 4096 (e + (c.intLane o.vb i).toInt))))), false) = _
  rw [min_eq_right hhigh, max_eq_right hlow]

-- # Selection and movement (R117)

/-- Bits 11:9 of a MOD field. -/
theorem modField_high (m : Fin 4096) : bitsOf m.val 9 3 = m.val / 512 := by
  have := m.isLt
  unfold bitsOf
  omega

/-- Bits 11:7 of a MOD field. -/
theorem modField_scalar (m : Fin 4096) : bitsOf m.val 7 5 = m.val / 128 := by
  have := m.isLt
  unfold bitsOf
  omega

end

/-- Settles O9. That VEXP2 and VLOG2 are correctly rounded (log 26), and that VABS and VNEG are flushed in heritage mode (log 27), are the model's
choices. -/
theorem floatResults : Obligations.FloatResults := by
  unfold Obligations.FloatResults
  intro s h c o f hgo hvec hfmt hmod hmay
  have htwo := floatOp_done hgo hvec hfmt hmod hmay
  have hthree := fmaOp_done hgo hvec hfmt hmod hmay
  have hone (opcode : Nat) (g : FFmt → Nat → Nat × Bool) := htwo opcode fun ft her a _ => (flushed her ft (g ft a).1, (g ft a).2)
  exact ⟨htwo 0x01 fAdd, htwo 0x02 fSub, htwo 0x03 fMul, hthree 0x04 false, hthree 0x05 true, htwo 0x06 (fExt true), htwo 0x07 (fExt false),
    hone 0x08 fAbs, hone 0x09 fNeg, hone 0x0A fRcp, hone 0x0B fRsq, hone 0x0C fExp2, hone 0x0D fLog2, hone 0x0E fSqrt⟩

/-- Settles O10. -/
theorem integerResults : Obligations.IntegerResults := by
  unfold Obligations.IntegerResults
  intro s h c o hgo hvec hmod hmay
  refine ⟨fun hint => ?ints, fun hwide => ⟨c.scaled o, execVscal_done hgo hvec hwide hmod hmay, fun i g m e => scaled_of_fin hwide⟩⟩
  case ints =>
    have hdone := intOp_done hgo hvec hint hmod hmay
    exact ⟨hdone 0x10 (· &&& ·), hdone 0x11 (· ||| ·), hdone 0x12 (· ^^^ ·), hdone 0x13 fun a b => a <<< (b.toNat % 32),
      hdone 0x14 fun a b => a >>> (b.toNat % 32), hdone 0x15 fun a b => a.sshiftRight (b.toNat % 32), hdone 0x16 (· + ·), hdone 0x17 (· - ·)⟩

/-- Settles O11. -/
theorem vectorMoves : Obligations.VectorMoves := by
  unfold Obligations.VectorMoves
  intro s h c o hgo hvec
  refine ⟨fun hmay => ⟨fun hmod => ?vsel, fun hmod => ?vbc, fun hmod => ?vperm⟩, fun hon hmay => ?vext⟩
  case vsel =>
    refine runSlot_lanewise hgo hvec hmay ?_
    simp only [hmod, modField_high]
    rfl
  case vbc => exact runSlot_lanewise hgo hvec hmay (if_neg (Nat.not_le.mpr hmod))
  case vperm => exact runSlot_lanewise hgo hvec hmay (if_neg (by simp [hmod]))
  case vext =>
    refine runSlot_issues hgo hvec ((if_pos hon).trans ?_) (mayWrite_one hmay)
    rw [modField_scalar]
    rfl

end Sys2Proof.Machine
end

section
/-! SUPPORT. The registers of a tile and the lanes of a vector: what is read after a write (R100 to R102, R180). -/

namespace Sys2Proof.Machine

-- # Registers (R100)

section
variable (core : TileCore) {i j : Nat}

@[simp] theorem TileCore.sreg_zero : core.sreg 0 = 0 := rfl
@[simp] theorem TileCore.preg_zero : core.preg 0 = BitVec.allOnes 256 := rfl
@[simp] theorem TileCore.setS_zero (v : BitVec 64) : core.setS 0 v = core := rfl
@[simp] theorem TileCore.setP_zero (p : BitVec 256) : core.setP 0 p = core := rfl

theorem TileCore.setS_of_ne_zero (hi : i ≠ 0) (v : BitVec 64) : core.setS i v = { core with s := NMap.set core.s i v } := if_neg hi

theorem TileCore.setP_of_ne_zero (hi : i ≠ 0) (p : BitVec 256) : core.setP i p = { core with p := NMap.set core.p i p } := if_neg hi

theorem TileCore.sreg_setS_self (hi : i ≠ 0) (v : BitVec 64) : (core.setS i v).sreg i = v := by
  simp [core.setS_of_ne_zero hi, TileCore.sreg, hi]

theorem TileCore.preg_setP_self (hi : i ≠ 0) (p : BitVec 256) : (core.setP i p).preg i = p := by
  simp [core.setP_of_ne_zero hi, TileCore.preg, hi]

@[simp] theorem TileCore.vreg_setV_self (x : BitVec 4096) : (core.setV i x).vreg i = x := NMap.getD_set_self ..

theorem TileCore.sreg_setS_other (hj : j ≠ i) (v : BitVec 64) : (core.setS i v).sreg j = core.sreg j := by
  unfold TileCore.setS
  split
  · rfl
  · simp [TileCore.sreg, NMap.getD_set_other _ _ _ hj]

theorem TileCore.preg_setP_other (hj : j ≠ i) (p : BitVec 256) : (core.setP i p).preg j = core.preg j := by
  unfold TileCore.setP
  split
  · rfl
  · simp [TileCore.preg, NMap.getD_set_other _ _ _ hj]

theorem TileCore.vreg_setV_other (hj : j ≠ i) (x : BitVec 4096) : (core.setV i x).vreg j = core.vreg j := NMap.getD_set_other _ _ _ hj

/-- A write of a scalar register leaves the other files. -/
theorem TileCore.setS_files (i : Nat) (v : BitVec 64) : (core.setS i v).v = core.v ∧ (core.setS i v).p = core.p ∧ (core.setS i v).cells = core.cells := by
  unfold TileCore.setS
  split <;> exact ⟨rfl, rfl, rfl⟩

/-- A write of a predicate register leaves the other files. -/
theorem TileCore.setP_files (i : Nat) (p : BitVec 256) : (core.setP i p).s = core.s ∧ (core.setP i p).v = core.v ∧ (core.setP i p).cells = core.cells := by
  unfold TileCore.setP
  split <;> exact ⟨rfl, rfl, rfl⟩

-- # Accumulator cells (R180)

theorem b2n_inj {a b : Bool} : b2n a = b2n b ↔ a = b := by
  cases a <;> cases b <;> decide

theorem b2n_le_one (a : Bool) : b2n a ≤ 1 := by
  cases a <;> decide

theorem cellKey_inj {set set' : Bool} {row col row' col' : Nat} (hrow : row < 64) (hcol : col < 64) (hrow' : row' < 64) (hcol' : col' < 64) :
    cellKey set' row' col' = cellKey set row col ↔ set' = set ∧ row' = row ∧ col' = col := by
  have hset := b2n_le_one set
  have hset' := b2n_le_one set'
  rw [← b2n_inj, cellKey, cellKey]
  omega

theorem TileCore.cell_setCell {set set' : Bool} {row col row' col' : Nat} (v : Nat) (hrow : row < 64) (hcol : col < 64) (hrow' : row' < 64)
    (hcol' : col' < 64) : (core.setCell set row col v).cell set' row' col' =
      if set' = set ∧ row' = row ∧ col' = col then v % 2 ^ 32 else core.cell set' row' col' := by
  unfold TileCore.cell TileCore.setCell
  split
  case isTrue hsame =>
    rw [(cellKey_inj hrow hcol hrow' hcol').mpr hsame, NMap.getD_set_self, BitVec.toNat_ofNat]
  case isFalse hother =>
    rw [NMap.getD_set_other _ _ _ fun hkey => hother ((cellKey_inj hrow hcol hrow' hcol').mp hkey)]

end

-- # Lanes (R101, R102)

theorem testBit_bitsOf (v lo n j : Nat) : (bitsOf v lo n).testBit j = (decide (j < n) && v.testBit (lo + j)) := by
  rw [bitsOf, Nat.testBit_mod_two_pow, Nat.testBit_div_two_pow, Nat.add_comm]

/-- A lane is settled by its bits. -/
theorem lane_eq_of_bits {v : BitVec 4096} {w i x : Nat} (h : ∀ j, j < w → v.getLsbD (w * i + j) = x.testBit j) : lane v w i = x % 2 ^ w := by
  refine Nat.eq_of_testBit_eq fun j => ?_
  rw [lane, testBit_bitsOf, Nat.testBit_mod_two_pow]
  by_cases hj : j < w
  · rw [decide_eq_true hj]
    exact congrArg (true && ·) (h j hj)
  · simp [hj]

theorem testBit_lane {w j : Nat} (hj : j < w) (v : BitVec 4096) (i : Nat) : (lane v w i).testBit j = v.getLsbD (w * i + j) := by
  rw [lane, testBit_bitsOf, decide_eq_true hj, Bool.true_and, BitVec.getLsbD]

theorem lane_mod (v : BitVec 4096) (w i : Nat) : lane v w i % 2 ^ w = lane v w i := Nat.mod_mod ..

/-- The number that a list of lanes spells, lane 0 first. -/
def packed (w : Nat) (l : List Nat) : Nat := l.foldr (fun x acc => acc * 2 ^ w + x % 2 ^ w) 0

theorem ofLanes_eq_packed (w : Nat) (l : List Nat) : ofLanes w l = BitVec.ofNat 4096 (packed w l) := rfl

theorem packed_cons (w x : Nat) (l : List Nat) : packed w (x :: l) = 2 ^ w * packed w l + x % 2 ^ w := by
  rw [Nat.mul_comm]
  rfl

theorem packed_lt (w : Nat) (l : List Nat) : packed w l < 2 ^ (w * l.length) := by
  induction l with
  | nil => simp [packed]
  | cons x l ih =>
    have hx := Nat.mod_lt x (Nat.two_pow_pos w)
    rw [packed_cons, List.length_cons, Nat.mul_succ, Nat.pow_add, Nat.mul_comm (2 ^ (w * l.length))]
    calc 2 ^ w * packed w l + x % 2 ^ w < 2 ^ w * (packed w l + 1) := by rw [Nat.mul_succ]; omega
      _ ≤ 2 ^ w * 2 ^ (w * l.length) := Nat.mul_le_mul_left _ ih

theorem testBit_packed {w : Nat} (l : List Nat) {i j : Nat} (hi : i < l.length) (hj : j < w) : (packed w l).testBit (w * i + j) = l[i].testBit j := by
  induction l generalizing i with
  | nil => cases hi
  | cons x l ih =>
    rw [packed_cons, Nat.testBit_two_pow_mul_add _ (Nat.mod_lt _ (Nat.two_pow_pos w))]
    cases i with
    | zero => simp [hj]
    | succ i =>
      have hover : ¬ w * (i + 1) + j < w := by rw [Nat.mul_succ]; omega
      have hback : w * (i + 1) + j - w = w * i + j := by rw [Nat.mul_succ]; omega
      rw [if_neg hover, hback]
      exact ih (by simpa using hi)

/-- A number that fits into a bit vector stays. -/
theorem toNat_ofNat_packed {m w : Nat} {l : List Nat} (hfit : w * l.length ≤ m) : (BitVec.ofNat m (packed w l)).toNat = packed w l := by
  rw [BitVec.toNat_ofNat, Nat.mod_eq_of_lt (Nat.lt_of_lt_of_le (packed_lt w l) (Nat.pow_le_pow_right Nat.two_pos hfit))]

/-- Lanes that fit into a vector are all there. -/
theorem ofLanes_toNat {w : Nat} {l : List Nat} (hfit : w * l.length ≤ 4096) : (ofLanes w l).toNat = packed w l := toNat_ofNat_packed hfit

/-- The lanes that `mergeLanes` puts together: the results of active lanes, and what the others held. -/
def mergedLanes (old : BitVec 4096) (guard : BitVec 256) (w n : Nat) (f : Nat → Nat) : List Nat :=
  (List.range n).map fun i => if guard.toNat.testBit i then f i else lane old w i

/-- A vector after a lane-wise write, bit by bit: those of the lanes below, and above them the old ones. -/
theorem getLsbD_mergeLanes (old : BitVec 4096) (guard : BitVec 256) {w n : Nat} (f : Nat → Nat) (hfit : w * n ≤ 4096) (k : Nat) :
    (mergeLanes old guard w n f).getLsbD k = if k < w * n then (packed w (mergedLanes old guard w n f)).testBit k else old.getLsbD k := by
  have hlength : (mergedLanes old guard w n f).length = n := by simp [mergedLanes]
  have hlt : packed w (mergedLanes old guard w n f) < 2 ^ (w * n) := by
    simpa only [hlength] using packed_lt w (mergedLanes old guard w n f)
  have hmerge : mergeLanes old guard w n f = BitVec.ofNat 4096 (2 ^ (w * n) * (old.toNat / 2 ^ (w * n)) + packed w (mergedLanes old guard w n f)) := by
    rw [mergeLanes, ← mergedLanes, ofLanes_toNat (hlength.symm ▸ hfit)]
  rw [hmerge, BitVec.getLsbD_ofNat, Nat.testBit_two_pow_mul_add _ hlt]
  split
  case isTrue hk => rw [decide_eq_true (Nat.lt_of_lt_of_le hk hfit), Bool.true_and]
  case isFalse hk =>
    rw [Nat.testBit_div_two_pow, Nat.sub_add_cancel (Nat.not_lt.mp hk), ← BitVec.getLsbD]
    by_cases hin : k < 4096
    · simp [hin]
    · simp [hin, BitVec.getLsbD_of_ge _ _ (Nat.not_lt.mp hin)]

theorem bitIndex_lt {w n i j : Nat} (hi : i < n) (hj : j < w) : w * i + j < w * n :=
  calc w * i + j < w * (i + 1) := by rw [Nat.mul_succ]; omega
    _ ≤ w * n := Nat.mul_le_mul_left _ hi

theorem lane_mergeLanes (old : BitVec 4096) (guard : BitVec 256) {w n : Nat} (f : Nat → Nat) (hfit : w * n ≤ 4096) {i : Nat} (hi : i < n) :
    lane (mergeLanes old guard w n f) w i = if guard.getLsbD i then f i % 2 ^ w else lane old w i := by
  have hbits : ∀ j, j < w → (mergeLanes old guard w n f).getLsbD (w * i + j) = (if guard.getLsbD i then f i else lane old w i).testBit j := by
    intro j hj
    rw [getLsbD_mergeLanes old guard f hfit, if_pos (bitIndex_lt hi hj), testBit_packed _ (by simpa [mergedLanes] using hi) hj]
    simp [mergedLanes, BitVec.getLsbD]
  rw [lane_eq_of_bits hbits]
  split
  · rfl
  · exact lane_mod ..

/-- Settles O53. -/
theorem tileRegisters : Obligations.TileRegisters := by
  unfold Obligations.TileRegisters
  refine ⟨fun core i j v p x => ?registers, fun core set set' row col row' col' v => core.cell_setCell v,
    fun old guard w n f hfit => ⟨fun i hi => lane_mergeLanes old guard f hfit hi, fun k hk => ?above⟩⟩
  case registers =>
    obtain ⟨hsv, hsp, hsc⟩ := core.setS_files i v
    obtain ⟨hps, hpv, hpc⟩ := core.setP_files i p
    exact ⟨core.sreg_zero, core.preg_zero, core.setS_zero v, core.setP_zero p, fun hi => ⟨core.sreg_setS_self hi v, core.preg_setP_self hi p⟩,
      core.vreg_setV_self x, fun hj => ⟨core.sreg_setS_other hj v, core.preg_setP_other hj p, core.vreg_setV_other hj x⟩,
      hsv, hsp, hsc, hps, hpv, hpc, rfl, rfl, rfl⟩
  case above => rw [getLsbD_mergeLanes old guard f hfit, if_neg (Nat.not_lt.mpr hk)]

end Sys2Proof.Machine
end

section
/-! SUPPORT. Comparison, reduction and conversion in the vector slots (R117 to R122): what VCMP, VRED and VCVT write. -/

namespace Sys2Proof.Machine

-- # Predicates from their bits (R117)

theorem ofBits_eq_packed (l : List Bool) : ofBits l = BitVec.ofNat 256 (packed 1 (l.map b2n)) := by
  have hbit (b : Bool) : b2n b % 2 = b2n b := by cases b <;> rfl
  have hfold : l.foldr (fun b acc => 2 * acc + b2n b) 0 = packed 1 (l.map b2n) := by
    induction l with
    | nil => rfl
    | cons b l ih => rw [List.foldr_cons, ih, List.map_cons, packed_cons, Nat.pow_one, hbit]
  rw [ofBits, hfold]

theorem getLsbD_ofBits {l : List Bool} (hfit : l.length ≤ 256) {i : Nat} (hi : i < l.length) : (ofBits l).getLsbD i = l[i] := by
  have hbit := testBit_packed (w := 1) (l.map b2n) (i := i) (j := 0) (by simpa using hi) Nat.one_pos
  rw [Nat.one_mul, Nat.add_zero] at hbit
  rw [ofBits_eq_packed, BitVec.getLsbD_ofNat, decide_eq_true (by omega), Bool.true_and, hbit, List.getElem_map]
  cases l[i] <;> rfl

section
variable {s : State} {h : SlotHdr} {c : SlotCtx}

-- # Flushing (R241)

/-- Without heritage nothing is flushed. -/
@[simp] theorem flushed_plain (f : FFmt) (b : Nat) : flushed false f b = b := rfl

-- # Comparison (R117)

/-- What VCMP compares to in a lane (Table 3-11). -/
def SlotCtx.compares (c : SlotCtx) (o : VOps) (f : FFmt) (i : Nat) : Bool × Bool :=
  numCompare (o.mod.val / 64 % 8) (f.decode (c.floatLane o f o.va i)) (f.decode (c.floatLane o f o.vb i))

/-- The bits of VCMP's predicate: the comparison in an active lane, and its old bit in every other place. -/
def SlotCtx.comparedBits (c : SlotCtx) (o : VOps) (f : FFmt) : List Bool :=
  (List.range 256).map fun i =>
    if i < laneCount o.w && c.guard.toNat.testBit i then (c.compares o f i).1 else (c.x.core.preg (o.mod.val / 512)).toNat.testBit i

theorem execVcmp_done (hgo : s.openSlot h = .go c) (hvec : vecSlot h = true) {o : VOps} {f : FFmt} (hfmt : widthFmt o.w = some f)
    (hmod : o.mod.val % 64 = 0) (hmay : c.mayWrite (keyP (o.mod.val / 512))) :
    ∃ effs, execVcmp h o s = .next (s.issued h c (c.withP (o.mod.val / 512) (ofBits (c.comparedBits o f)) effs)) := by
  have hfloat : ¬ o.w.val = 3 := fun hint => by simp [widthFmt, hint] at hfmt
  have hcnd : bitsOf o.mod.val 6 3 = o.mod.val / 64 % 8 := rfl
  refine ⟨vecEntry h c 0x18 1 ((activeLanes c.guard (laneCount o.w)).filter fun i => (c.compares o f i).2) (fun _ => 0) 0,
    runSlot_issues hgo hvec ?_ (mayWrite_one hmay)⟩
  simp only [hmod, hfloat, hfmt, hcnd, modField_high, ne_eq, not_true_eq_false, false_and, or_self, if_false]
  rfl

theorem getLsbD_comparedBits (o : VOps) (f : FFmt) {i : Nat} (hi : i < 256) : (ofBits (c.comparedBits o f)).getLsbD i =
    if i < laneCount o.w ∧ c.guard.getLsbD i = true then (c.compares o f i).1 else (c.x.core.preg (o.mod.val / 512)).getLsbD i := by
  have hlength : (c.comparedBits o f).length = 256 := by simp [SlotCtx.comparedBits]
  rw [getLsbD_ofBits (Nat.le_of_eq hlength) (by omega)]
  simp [SlotCtx.comparedBits, BitVec.getLsbD]

-- # Reduction (R118)

theorem treeFold_congr (g : Nat → Nat → Nat) {k : Nat} {a b : Nat → Nat} (h : ∀ i, i < 2 ^ k → a i = b i) : treeFold g k a = treeFold g k b := by
  induction k generalizing a b with
  | zero => exact h 0 Nat.one_pos
  | succ k ih =>
    have hdouble : 2 ^ (k + 1) = 2 ^ k + 2 ^ k := by rw [Nat.pow_succ]; omega
    exact ih fun i hi => congrArg₂ g (h i (by omega)) (h (i + 2 ^ k) (by omega))

theorem redRound_length (kind : Nat) (f : FFmt) (her : Bool) {stride : Nat} {l : List (Nat × Bool)} (hlength : l.length = 2 * stride) :
    (redRound kind f her stride l).length = stride := by
  simp [redRound, hlength]; omega

/-- A round of the tree combines each lane below the stride with its partner. -/
theorem redRound_getD (kind : Nat) (f : FFmt) (her : Bool) {stride : Nat} {l : List (Nat × Bool)} (hlength : l.length = 2 * stride) {i : Nat}
    (hi : i < stride) : ((redRound kind f her stride l).getD i (0, false)).1 =
      (redCombine kind f her (l.getD i (0, false)).1 (l.getD (i + stride) (0, false)).1).1 := by
  have hround : i < (redRound kind f her stride l).length := by rw [redRound_length kind f her hlength]; exact hi
  rw [List.getD_eq_getElem _ _ hround, List.getD_eq_getElem _ _ (by omega), List.getD_eq_getElem _ _ (by omega)]
  simp [redRound, Nat.add_comm i]

/-- The tree of R118 folds its lanes as `treeFold` does. -/
theorem redTree_eq_treeFold (kind : Nat) (f : FFmt) (her : Bool) {k : Nat} {l : List (Nat × Bool)} (hlength : l.length = 2 ^ k) (bad : List Nat) :
    (redTree kind f her k (2 ^ k / 2) l bad).1 =
      treeFold (fun x y => (redCombine kind f her x y).1) k fun i => (l.getD i (0, false)).1 := by
  induction k generalizing l bad with
  | zero => cases l <;> rfl
  | succ k ih =>
    have hstride : 2 ^ (k + 1) / 2 = 2 ^ k := by rw [Nat.pow_succ]; omega
    have hmapped : (l.map fun p => (p.1, false)).length = 2 * 2 ^ k := by rw [List.length_map, hlength, Nat.pow_succ, Nat.mul_comm]
    rw [redTree, hstride]
    refine (ih (redRound_length kind f her hmapped) _).trans (treeFold_congr _ fun i hi => ?_)
    rw [redRound_getD kind f her hmapped hi]
    have hfst (j : Nat) : ((l.map fun p => (p.1, false)).getD j (0, false)).1 = (l.getD j (0, false)).1 := by
      rw [List.getD_eq_getElem?_getD, List.getD_eq_getElem?_getD, List.getElem?_map]
      cases l[j]? <;> rfl
    rw [hfst, hfst]

/-- The value of a lane that a reduction has nothing to take from (R118). -/
def redIdentity (kind : Nat) (f : FFmt) : Nat := match kind with | 1 => f.withSign true (f.inf.getD 0) | 2 => f.inf.getD 0 | _ => 0

/-- What a lane enters into a reduction, and whether invalid belongs to it (R118, R241). -/
def SlotCtx.enters (c : SlotCtx) (o : VOps) (f : FFmt) (i : Nat) : Nat × Bool :=
  if c.guard.toNat.testBit i then
    let a := flushed c.her f (lane (c.src.vreg o.va) (laneBits o.w) i)
    let snan := (f.decode a).isSnan
    if o.mod.val % 4 = 3 then ((fMul f c.her a a).1, snan) else (if snan then f.encode .nearest (.nan false) else a, snan)
  else (redIdentity (o.mod.val % 4) f, false)

/-- The lanes that enter a reduction. -/
def SlotCtx.entries (c : SlotCtx) (o : VOps) (f : FFmt) : List (Nat × Bool) := (List.range (laneCount o.w)).map (c.enters o f)

/-- The result of a reduction, and the lanes to which invalid belongs. -/
def SlotCtx.reduced (c : SlotCtx) (o : VOps) (f : FFmt) : Nat × List Nat :=
  let l := c.entries o f
  let bad := (List.range (laneCount o.w)).filter fun i => (c.enters o f i).2
  if c.her then
    let q := redChain (o.mod.val % 4) f ((l.map (·.1)).drop 1) (l.headD (0, false)).1 false
    (q.1, if q.2 then bad ++ [0] else bad)
  else redTree (o.mod.val % 4) f false (Nat.log2 (laneCount o.w)) (laneCount o.w / 2) l bad

theorem execVred_done (hgo : s.openSlot h = .go c) (hvec : vecSlot h = true) {o : VOps} {f : FFmt} (hfmt : widthFmt o.w = some f)
    (hmod : o.mod.val < 4) (hmay : c.mayWrite (keyV o.vd)) : execVred h o s = .next (s.issued h c (c.withV o.vd
      (mergeLanes (c.x.core.vreg o.vd) c.guard (laneBits o.w) (laneCount o.w) fun i => if i = 0 then (c.reduced o f).1 else 0)
      (vecEntry h c 0x1A 1 (c.reduced o f).2 (fun _ => 0) 0))) := by
  refine runSlot_issues hgo hvec ?_ (mayWrite_one hmay)
  simp only [hfmt, Nat.not_le.mpr hmod, if_false]
  rfl

theorem laneCount_eq_two_pow (w : Fin 4) : 2 ^ Nat.log2 (laneCount w) = laneCount w := by
  fin_cases w <;> rfl

/-- Without heritage a lane enters a reduction other than SUMSQ as it is, unless it is a signalling NaN. -/
theorem enters_fst (hher : c.her = false) {o : VOps} {f : FFmt} (hmod : o.mod.val < 3) {i : Nat}
    (hquiet : c.guard.getLsbD i = true → (f.decode (lane (c.src.vreg o.va) (laneBits o.w) i)).isSnan = false) :
    (c.enters o f i).1 = if c.guard.getLsbD i then lane (c.src.vreg o.va) (laneBits o.w) i
      else if o.mod.val = 1 then f.withSign true (f.inf.getD 0) else if o.mod.val = 2 then f.inf.getD 0 else 0 := by
  have hkind : o.mod.val % 4 = o.mod.val := by omega
  simp only [SlotCtx.enters, hher, flushed_plain, hkind]
  rw [← BitVec.getLsbD]
  cases hon : c.guard.getLsbD i with
  | true => simp [hquiet hon, show o.mod.val ≠ 3 by omega]
  | false =>
    simp only [Bool.false_eq_true, if_false, redIdentity]
    split
    · simp [*]
    · simp [*]
    · rw [if_neg ‹_›, if_neg ‹_›]

/-- Without heritage a reduction is the fold of its lanes in the fixed tree of R118. -/
theorem reduced_fst (hher : c.her = false) {o : VOps} {f : FFmt} (hmod : o.mod.val < 3)
    (hquiet : ∀ i, i < laneCount o.w → c.guard.getLsbD i = true → (f.decode (lane (c.src.vreg o.va) (laneBits o.w) i)).isSnan = false) :
    (c.reduced o f).1 = treeFold (fun x y => (redCombine o.mod.val f false x y).1) (Nat.log2 (laneCount o.w)) fun i =>
      if c.guard.getLsbD i then lane (c.src.vreg o.va) (laneBits o.w) i
      else if o.mod.val = 1 then f.withSign true (f.inf.getD 0) else if o.mod.val = 2 then f.inf.getD 0 else 0 := by
  have hkind : o.mod.val % 4 = o.mod.val := by omega
  have hcount := laneCount_eq_two_pow o.w
  have hlength : (c.entries o f).length = 2 ^ Nat.log2 (laneCount o.w) := by simp [SlotCtx.entries, hcount]
  have hhalf : laneCount o.w / 2 = 2 ^ Nat.log2 (laneCount o.w) / 2 := by rw [hcount]
  simp only [SlotCtx.reduced, hher, Bool.false_eq_true, if_false, hkind, hhalf]
  refine (redTree_eq_treeFold _ f false hlength _).trans (treeFold_congr _ fun i hi => ?_)
  have hin : i < laneCount o.w := hcount ▸ hi
  rw [← enters_fst hher hmod (hquiet i hin), List.getD_eq_getElem _ _ (by omega)]
  simp [SlotCtx.entries]

-- # Conversion (R119 to R122, R221 to R227)

theorem fmtBits_mul_cvtCount_le (sfmt dfmt : Nat) : fmtBits dfmt * cvtCount sfmt dfmt ≤ 4096 :=
  calc fmtBits dfmt * cvtCount sfmt dfmt ≤ fmtBits dfmt * (4096 / fmtBits dfmt) := Nat.mul_le_mul_left _ (Nat.min_le_right ..)
    _ ≤ 4096 := Nat.mul_div_le ..

/-- What VCVT makes of a lane without heritage, where the destination has no MX scales. -/
def SlotCtx.converted (c : SlotCtx) (o : CvtOps) (i : Nat) : Nat :=
  let x := (cvtSource (c.src.vreg o.va) o.sfmt.val (cvtCount o.sfmt.val o.dfmt.val) i).scale2 (-signedOf 8 (c.src.sreg o.ss).toNat)
  let rm := cvtMode o.rm.val false c.l ((c.src.sreg o.st).toNat % 2 ^ 32) ((c.src.sreg o.se).toNat % 2 ^ 48 + i)
  ((codeFmt o.dfmt.val).elim (cvtInt (fmtBits o.dfmt.val) o.sat rm x) fun g => cvtFloat o.dfmt.val g rm x).bits

/-- The vector that a VCVT writes: its elements, and the scales above them. -/
def cvtVector (old : BitVec 4096) (guard : BitVec 256) (w n : Nat) (bits : Nat → Nat) (scales : Nat) : BitVec 4096 :=
  BitVec.ofNat 4096 ((ofLanes w (mergedLanes old guard w n bits)).toNat % 2 ^ (w * n) + scales)

theorem getLsbD_cvtVector (old : BitVec 4096) (guard : BitVec 256) {w n : Nat} (bits : Nat → Nat) (hfit : w * n ≤ 4096) (k : Nat) :
    (cvtVector old guard w n bits 0).getLsbD k = if k < w * n then (packed w (mergedLanes old guard w n bits)).testBit k else false := by
  have hlength : (mergedLanes old guard w n bits).length = n := by simp [mergedLanes]
  rw [cvtVector, ofLanes_toNat (hlength.symm ▸ hfit), Nat.add_zero, BitVec.getLsbD_ofNat, Nat.testBit_mod_two_pow]
  split
  case isTrue hk => simp [hk, Nat.lt_of_lt_of_le hk hfit]
  case isFalse hk => simp [hk]

theorem lane_cvtVector (old : BitVec 4096) (guard : BitVec 256) {w n : Nat} (bits : Nat → Nat) (hfit : w * n ≤ 4096) {i : Nat} (hi : i < n) :
    lane (cvtVector old guard w n bits 0) w i = if guard.getLsbD i then bits i % 2 ^ w else lane old w i := by
  have hbits : ∀ j, j < w → (cvtVector old guard w n bits 0).getLsbD (w * i + j) = (mergeLanes old guard w n bits).getLsbD (w * i + j) := by
    intro j hj
    rw [getLsbD_cvtVector old guard bits hfit, getLsbD_mergeLanes old guard bits hfit, if_pos (bitIndex_lt hi hj), if_pos (bitIndex_lt hi hj)]
  rw [← lane_mergeLanes old guard bits hfit hi, ← lane_mod (mergeLanes old guard w n bits)]
  exact lane_eq_of_bits fun j hj => (hbits j hj).trans (testBit_lane hj _ i).symm

/-- A VCVT writes the elements that some conversion gives, with scales above them. Where the destination has no MX scales there are none, and
the conversion without heritage is `SlotCtx.converted`. -/
theorem execVcvt_done (hgo : s.openSlot h = .go c) (hvec : vecSlot h = true) {o : CvtOps} (hfields : cvtFields c.her o = true)
    (hmay : c.mayWrite (keyV o.vd)) : ∃ (conv : Nat → CvtLane) (scales : Nat) (effs : List SlotEffect),
      execVcvt h o s = .next (s.issued h c (c.withV o.vd (cvtVector (c.x.core.vreg o.vd) c.guard (fmtBits o.dfmt.val)
        (cvtCount o.sfmt.val o.dfmt.val) (fun i => (conv i).bits) scales) effs)) ∧
      (isMx o.dfmt.val = false → scales = 0 ∧ (c.her = false → ∀ i, (conv i).bits = c.converted o i)) := by
  refine ⟨_, _, _, runSlot_issues hgo hvec (if_neg (by simp [hfields])) (mayWrite_one hmay), fun hplain => ⟨?scales, fun hher i => ?bits⟩⟩
  case scales => simp [hplain]
  case bits =>
    simp only [hplain, hher, Bool.false_eq_true, if_false, Bool.false_and, flushed_plain, ite_self, SlotCtx.converted]
    cases codeFmt o.dfmt.val with
    | none => cases codeFmt o.sfmt.val <;> rfl
    | some g => cases codeFmt o.sfmt.val <;> rfl

end

/-- Settles O12: VCMP bit by bit, VRED by the fold of its tree, VCVT by what it converts a lane to. -/
theorem vectorSummaries : Obligations.VectorSummaries := by
  unfold Obligations.VectorSummaries
  intro s h c hgo hvec
  refine ⟨fun o f hfmt hmod hmay => ?vcmp, fun o f hfmt hmod hmay => ?vred, fun o hfields hmay => ?vcvt⟩
  case vcmp =>
    obtain ⟨effs, hdone⟩ := execVcmp_done hgo hvec hfmt hmod hmay
    exact ⟨_, effs, hdone, fun i hi => getLsbD_comparedBits o f hi⟩
  case vred =>
    exact ⟨_, _, execVred_done hgo hvec hfmt hmod hmay, fun hkind hher hquiet => reduced_fst hher hkind hquiet⟩
  case vcvt =>
    have hfit := fmtBits_mul_cvtCount_le o.sfmt.val o.dfmt.val
    obtain ⟨conv, scales, effs, hdone, hplain⟩ := execVcvt_done hgo hvec hfields hmay
    refine ⟨_, effs, hdone, fun hher hmx i hi => ?_, fun hmx k hk => ?_⟩
    · obtain ⟨rfl, hbits⟩ := hplain hmx
      rw [lane_cvtVector _ _ _ hfit hi, hbits hher i]
      rfl
    · obtain ⟨rfl, -⟩ := hplain hmx
      rw [getLsbD_cvtVector _ _ _ hfit, if_neg (Nat.not_lt.mpr hk)]

end Sys2Proof.Machine
end

section
/-! SUPPORT. Collectives (R125, R127, R366, R371, R397 to R404): how one is posted, and what one that is ready comes to. -/

namespace Sys2Proof.Machine

-- # Posting (R127, R397, R398)

/-- What a posted collective leaves for its bundle: what it has read of its group, and itself. -/
def State.posts (s : State) (c : SlotCtx) (d : CollDesc) (off sv : Nat) : List SlotEffect :=
  (s.groupReads c.t c.l.ctx d.groupNum).map (fun a => .reads a.1 a.2) ++
    [.coll ⟨0, c.t, c.l.ctx, c.l.queue, c.l.cmd, c.x.bundle, off, sv, d, 0, s.now, false, 0, false, false, false, false⟩]

section
variable {s : State} {h : SlotHdr} {c : SlotCtx}

/-- A collective is posted where its descriptor can be read, spells one of the operation of its row, and can be performed. -/
theorem collSlot_posts (hopen : s.opens h c) (hslot : h.slot = .l) {sd sv : Fin 32} {d : CollDesc}
    (hread : s.canRead c (c.src.sreg sd).toNat 64) (hspells : CollDesc.ofBytes (s.storeRead h.tile (c.src.sreg sd).toNat 64) = some d)
    (hop : leNat (s.storeRead h.tile (c.src.sreg sd).toNat 1) = d.op) (hcan : s.canCollect c d) : collSlot d.op h sd sv s =
      .next (s.issued h c (c.x.gathers [] (s.posts c d (c.src.sreg sd).toNat ((c.src.sreg sv).toNat % 65536)))) := by
  obtain ⟨htile, hsrc, -⟩ := admit_go hopen.1
  obtain ⟨g, hbeyond, hgroup, hmember, hapart, hfits, hring, hroot, hgranted, hmemory, hroom⟩ := hcan
  rw [hsrc] at hop
  refine runSlot_issues hopen.1 (by simp [hslot, hop]) ?_ mayWrite_none
  have hoverlap : (match d.ranges g (g.rankOf s.deviceId) with | [a, b] => overlap a.1 a.2 b.1 b.2 | _ => false) = false := by
    split
    · next a b h2 => exact hapart a b h2
    · rfl
  have hfinal : (d.flags.testBit 1 && !s.finalFits c.l.ctx d g (g.rankOf s.deviceId)) = false := by
    cases hflag : d.flags.testBit 1 with
    | false => rfl
    | true => simp [hfits hflag]
  have hshift : (d.op == 6 && !g.flags.testBit 0) = false := by
    rcases eq_or_ne d.op 6 with h6 | h6 <;> simp [h6, hring]
  have hfrom : (d.op == 5 && decide (g.size ≤ d.root)) = false := by
    rcases eq_or_ne d.op 5 with h5 | h5 <;> simp [h5, hroot]
  have hkinds : (d.ranges g (g.rankOf s.deviceId)).any (fun x => s.addrKind x.1 != .memory) = false := by simpa using hmemory
  simp only [hopen.2, readCheck_of_canRead hread, htile ▸ hspells, hbeyond, hgroup, hfinal, hshift, hfrom, hgranted, hkinds,
    Nat.not_le.mpr hmember, Nat.not_le.mpr hroom, decide_false, Bool.or_false, Bool.not_true, Bool.false_eq_true, if_false]
  exact if_neg (ne_true_of_eq_false hoverlap)

/-- Whatever the row, it is the one of its descriptor's operation. -/
theorem collSlot_posts_op {op : Nat} (hopen : s.opens h c) (hslot : h.slot = .l) {sd sv : Fin 32} {d : CollDesc}
    (hread : s.canRead c (c.src.sreg sd).toNat 64) (hspells : CollDesc.ofBytes (s.storeRead h.tile (c.src.sreg sd).toNat 64) = some d)
    (hop : leNat (s.storeRead h.tile (c.src.sreg sd).toNat 1) = d.op) (hcan : s.canCollect c d) (hrow : d.op = op) : collSlot op h sd sv s =
      .next (s.issued h c (c.x.gathers [] (s.posts c d (c.src.sreg sd).toNat ((c.src.sreg sv).toNat % 65536)))) :=
  hrow ▸ collSlot_posts hopen hslot hread hspells hop hcan

end

-- # Completion (R125, R366, R371, R399 to R404)

section
variable {s : State} {x : Coll} {l : Launch} {g : Group} {e : CollParts}

/-- A collective that is ready, whose input has no uncorrectable codeword and whose own codec gets no block wrong takes the streams that have come
and sends its own. What it comes to depends on a damaged block, a missing stream, and its counter. -/
theorem execCollComplete_ready (hfind : (s.colls.find? fun y => y.id == x.id) = some x) (hlaunch : s.launch? x.queue x.cmd = some l)
    (hgroup : s.groupAt x.tile x.ctx x.desc.groupNum = some g) (hready : s.collReady x = true) (heven : x.odd = false)
    (hposts : x.desc.odd e.posts = none) (hreads : (s.collReads x l g).2 = none) :
    let s0 := (s.collReads x l g).1
    let run := s0.runColl x l g e.parts
    let sent := s0.sendStreams x g run.1.sends e.faults
    sent.2 = none → execCollComplete x.id e s =
      match run.1.harm with
      | some h => .next (sent.1.collHarmed x g run.1 h)
      | none =>
        if run.1.wait || !run.1.parts.isEmpty then .next sent.1
        else
          let t := ((run.2 sent.1).countCmp x.ctx run.1.plain run.1.stored).collDone x
          if x.again then .next { t with colls := t.colls.filter fun y => y.id != x.id }
          else match t.increment x.ctx x.sv 1 ⟨5, x.tile⟩ (.launch x.queue x.cmd x.tile x.bundle) with
          | (_, .stalled) => .next s
          | (u, .failed st d) => .next (u.collFault x st d)
          | (u, _) => .next { u with colls := u.colls.filter fun y => y.id != x.id } := by
  simp only [execCollComplete, hfind, hlaunch, hgroup, hready, heven, hposts, hreads, Bool.not_true, Bool.false_eq_true, if_false]
  generalize (s.collReads x l g).1.runColl x l g e.parts = run
  intro hsent
  rw [hsent]
  cases run.1.harm <;> rfl

end

/-- Settles O18: what a collective reads of its group goes ahead of it, and one that is ready sends what it can before it waits, ends or completes.
That the parts at hand are sent while others are missing, in the order in which they are listed, is the model's reading (log 115), and so is what a
member knows of the other ranks (log 33); a block that a codec gets wrong and a damaged one end it as R366 and R371 (spec/10) say. -/
theorem collectives : Obligations.Collectives := by
  unfold Obligations.Collectives
  refine ⟨?posted, ?ready⟩
  case posted =>
    intro s h c sd sv d hopen hslot off hread hspells hop hcan
    have hposts {op : Nat} (hrow : d.op = op) := collSlot_posts_op (sv := sv) hopen hslot hread hspells hop hcan hrow
    obtain ⟨htile, -⟩ := admit_go hopen.1
    rw [State.posts, htile] at hposts
    exact ⟨hposts, hposts, hposts, hposts, hposts, hposts⟩
  case ready =>
    intro s x l g e hfind hlaunch hgroup hready heven hposts hreads s0 run sent hsent
    have hexec : exec (.collComplete x.id e) s = _ := execCollComplete_ready hfind hlaunch hgroup hready heven hposts hreads hsent
    refine ⟨fun hharm hwait => ?waits, fun harm hharm => ?harmed, fun u v hharm hwait hparts hagain hinc => ?completes⟩
    case waits => rw [hexec, hharm, hwait]; rfl
    case harmed => rw [hexec, hharm]
    case completes =>
      simp only [sent, run, s0] at hinc
      rw [hexec, hharm, hwait, hparts, hagain]
      simp only [List.isEmpty_nil, Bool.not_true, Bool.or_false, Bool.false_eq_true, if_false, hinc]

end Sys2Proof.Machine
end

section
/-! SUPPORT. The sets of the stack caches (Table 9-3, R330, R338): what an access makes of its set. -/

namespace Sys2Proof.Machine

-- # Displacing a line

/-- Where a line has the property, one that has it goes, and the others keep their order. -/
theorem displace_split {p : CacheLine → Bool} {l : List CacheLine} (h : ∃ a ∈ l, p a = true) :
    ∃ l₁ a l₂, p a = true ∧ l = l₁ ++ a :: l₂ ∧ displace p l = l₁ ++ l₂ := by
  obtain ⟨a, hmem, ha⟩ := h
  obtain ⟨b, r₁, r₂, -, hb, hsplit, herase⟩ := List.exists_of_eraseP (List.mem_reverse.mpr hmem) ha
  refine ⟨r₂.reverse, b, r₁.reverse, hb, ?_, ?_⟩
  · simpa using congrArg List.reverse hsplit
  · simp [displace, herase]

theorem displace_sublist (p : CacheLine → Bool) (l : List CacheLine) : (displace p l).Sublist l := by
  simpa [displace] using (List.eraseP_sublist (p := p) (l := l.reverse)).reverse

theorem mem_displace_of_not {p : CacheLine → Bool} {l : List CacheLine} {y : CacheLine} (hy : y ∈ l) (hp : p y = false) : y ∈ displace p l := by
  by_cases h : ∃ a ∈ l, p a = true
  · obtain ⟨l₁, a, l₂, ha, rfl, hd⟩ := displace_split h
    have hne : y ≠ a := fun e => by simp [e, ha] at hp
    simpa [hd, hne] using hy
  · have hnone (a) (ha : a ∈ l.reverse) : ¬ p a := fun hpa => h ⟨a, List.mem_reverse.mp ha, hpa⟩
    rwa [displace, List.eraseP_of_forall_not hnone, List.reverse_reverse]

/-- Displacing a line that has a property leaves one line less that has it. -/
theorem countP_displace {p : CacheLine → Bool} {l : List CacheLine} (h : 0 < l.countP p) : (displace p l).countP p + 1 = l.countP p := by
  obtain ⟨l₁, a, l₂, ha, hl, hd⟩ := displace_split (List.countP_pos_iff.mp h)
  rw [hd, hl, List.countP_append, List.countP_append, List.countP_cons_of_pos ha]
  omega

theorem length_displace {p : CacheLine → Bool} {l : List CacheLine} (h : ∃ a ∈ l, p a = true) : (displace p l).length + 1 = l.length := by
  obtain ⟨l₁, a, l₂, -, hl, hd⟩ := displace_split h
  rw [hd, hl, List.length_append, List.length_append, List.length_cons]
  omega

-- # Room for a keep line, and for any line

section
variable {ways : Nat} {l : List CacheLine}

theorem keepRoom_sublist : (keepRoom ways l).Sublist l := by
  unfold keepRoom
  split
  · exact displace_sublist ..
  · exact .refl l

/-- There is room for one more keep line. -/
theorem countP_keepRoom (hways : 0 < ways) : (keepRoom ways l).countP (·.keep) + 1 ≤ max ways (l.countP (·.keep)) := by
  unfold keepRoom
  split
  · next h =>
    have := countP_displace (p := (·.keep)) (Nat.lt_of_lt_of_le hways h)
    omega
  · omega

theorem mem_keepRoom {y : CacheLine} (hy : y ∈ l) (h : y.keep = false ∨ l.countP (·.keep) < ways) : y ∈ keepRoom ways l := by
  unfold keepRoom
  split
  · next hfull => exact mem_displace_of_not hy (h.resolve_right (Nat.not_lt.mpr hfull))
  · exact hy

/-- The lines of a set that a line of such a mark lets stay. -/
def staying (ways : Nat) (keep : Bool) (l : List CacheLine) : List CacheLine := if keep then keepRoom ways l else l

/-- A set with a way free. -/
def wayFree (l : List CacheLine) : List CacheLine := if l.length < cacheWays then l else displace (fun y => !y.keep) l

theorem allocate_eq (x : CacheLine) : allocate ways x l = x :: wayFree (staying ways x.keep l) := rfl

theorem staying_sublist (keep : Bool) : (staying ways keep l).Sublist l := by
  cases keep with
  | false => exact .refl l
  | true => exact keepRoom_sublist

theorem countP_staying {keep : Bool} (hways : keep = true → 0 < ways) :
    (staying ways keep l).countP (·.keep) + keep.toNat ≤ max ways (l.countP (·.keep)) := by
  cases keep with
  | false => exact Nat.le_max_right ..
  | true => exact countP_keepRoom (hways rfl)

theorem mem_staying {keep : Bool} {y : CacheLine} (hy : y ∈ l) (h : keep = false ∨ y.keep = false ∨ l.countP (·.keep) < ways) :
    y ∈ staying ways keep l := by
  cases keep with
  | false => exact hy
  | true => exact mem_keepRoom hy (h.resolve_left (by simp))

theorem wayFree_sublist : (wayFree l).Sublist l := by
  unfold wayFree
  split
  · exact .refl l
  · exact displace_sublist ..

theorem mem_wayFree {y : CacheLine} (hy : y ∈ l) (hkeep : y.keep = true) : y ∈ wayFree l := by
  unfold wayFree
  split
  · exact hy
  · exact mem_displace_of_not hy (by simp [hkeep])

/-- As no more than 12 lines are keep lines, a way can be freed. -/
theorem length_wayFree (hlen : l.length ≤ cacheWays) (hkeep : l.countP (·.keep) ≤ 12) : (wayFree l).length < cacheWays := by
  unfold wayFree
  split
  · assumption
  · next hfull =>
    have hother : ∃ y ∈ l, (!y.keep) = true := by
      by_contra! hnone
      have hall : l.countP (·.keep) = l.length := List.countP_eq_length.mpr fun y hy => by simpa using hnone y hy
      have : cacheWays = 16 := rfl
      omega
    have := length_displace hother
    omega

end

-- # A line of a set and the others

/-- The other lines of a set. -/
def others (k : Nat) (l : List CacheLine) : List CacheLine := l.filter fun y => y.line != k

section
variable {k : Nat} {l : List CacheLine}

theorem others_sublist : (others k l).Sublist l := List.filter_sublist

theorem mem_others {y : CacheLine} : y ∈ others k l ↔ y ∈ l ∧ y.line ≠ k := by simp [others]

theorem others_of_absent (h : ∀ y ∈ l, y.line ≠ k) : others k l = l := List.filter_eq_self.mpr fun y hy => by simpa using h y hy

/-- A set holds a line once. -/
theorem perm_cons_others {x : CacheLine} (hnodup : (l.map (·.line)).Nodup) (hx : x ∈ l) (hk : x.line = k) : l.Perm (x :: others k l) := by
  obtain ⟨l₁, l₂, rfl⟩ := List.append_of_mem hx
  have hperm : (l₁ ++ x :: l₂).Perm (x :: (l₁ ++ l₂)) := List.perm_middle
  obtain ⟨hnew, -⟩ := List.nodup_cons.mp ((hperm.map CacheLine.line).nodup_iff.mp hnodup)
  have habsent (y) (hy : y ∈ l₁ ++ l₂) : y.line ≠ k := fun e => hnew (List.mem_map.mpr ⟨y, hy, e.trans hk.symm⟩)
  refine hperm.trans (.cons x (.of_eq ?_))
  rw [others, List.filter_append, List.filter_cons_of_neg (by simp [hk]), ← List.filter_append]
  exact (others_of_absent habsent).symm

theorem eq_of_line {x y : CacheLine} (hnodup : (l.map (·.line)).Nodup) (hx : x ∈ l) (hy : y ∈ l) (h : x.line = y.line) : x = y :=
  List.inj_on_of_nodup_map hnodup hx hy h

/-- A line changes in its place. -/
theorem map_line_perm {x z : CacheLine} (hnodup : (l.map (·.line)).Nodup) (hx : x ∈ l) (hk : x.line = k) :
    (l.map fun y => if y.line = k then z else y).Perm (z :: others k l) := by
  refine ((perm_cons_others hnodup hx hk).map _).trans (.of_eq ?_)
  rw [List.map_cons, if_pos hk]
  exact congrArg _ ((List.map_congr_left fun y hy => if_neg (mem_others.mp hy).2).trans (List.map_id _))

end

-- # An access to a set (Table 9-3)

/-- The access marks its line keep: with KEEP_WAYS 0 it does not (R330). -/
def marksKeep (ways hint : Nat) : Bool := hint == 2 && ways != 0

/-- A line as a hit leaves it. -/
def CacheLine.hit (x : CacheLine) (write keep : Bool) : CacheLine := { x with dirty := x.dirty || write, keep := x.keep || keep }

section
variable {ways hint k : Nat} {write slice : Bool} {l : List CacheLine}

theorem marksKeep_ne {hint : Nat} (h : hint ≠ 2) : marksKeep ways hint = false := by simp [marksKeep, h]

theorem ways_of_marksKeep (h : marksKeep ways hint = true) : 0 < ways := by
  simp only [marksKeep, Bool.and_eq_true, bne_iff_ne] at h
  omega

theorem touchSet_hit {x : CacheLine} (hfind : (l.find? fun y => y.line == k) = some x) :
    let r := staying ways (marksKeep ways hint && !x.keep) l
    let z := x.hit write (marksKeep ways hint)
    touchSet ways write slice hint k l =
      if hint = 1 ∨ (marksKeep ways hint = true ∧ write = false) then r.map fun y => if y.line = k then z else y
      else if hint = 3 ∧ write = false then others k r ++ [{ z with keep := false }]
      else z :: others k r := by
  simp only [touchSet, hfind]
  rfl

/-- A miss that allocates no line (Table 9-3, R338). -/
def passesBy (hint : Nat) (write slice : Bool) : Prop := (hint = 1 ∧ ¬ (write = true ∧ slice = true)) ∨ (hint = 3 ∧ write = false)

theorem touchSet_passed (hmiss : ∀ y ∈ l, y.line ≠ k) (h : passesBy hint write slice) : touchSet ways write slice hint k l = l := by
  have hfind : (l.find? fun y => y.line == k) = none := by simpa using hmiss
  simp only [touchSet, hfind]
  exact if_pos h

theorem touchSet_allocated (hmiss : ∀ y ∈ l, y.line ≠ k) (h : ¬ passesBy hint write slice) :
    touchSet ways write slice hint k l = ⟨k, write, marksKeep ways hint⟩ :: wayFree (staying ways (marksKeep ways hint) l) := by
  have hfind : (l.find? fun y => y.line == k) = none := by simpa using hmiss
  simp only [touchSet, hfind]
  exact (if_neg h).trans (allocate_eq _)

/-- The accessed line lies in its set with the mark and the change of its row, and what else is there was there. -/
structure Placed (ways hint k : Nat) (write : Bool) (l m : List CacheLine) (z : CacheLine) (r : List CacheLine) : Prop where
  perm : m.Perm (z :: r)
  line : z.line = k
  old : r.Sublist l
  apart : ∀ y ∈ r, y.line ≠ k
  room : r.length < cacheWays
  few : r.countP (·.keep) + z.keep.toNat ≤ max ways (l.countP (·.keep))
  dirty : write = true → z.dirty = true
  keep : marksKeep ways hint = true → z.keep = true
  stay : marksKeep ways hint = false ∨ l.countP (·.keep) < ways → ∀ y ∈ l, y.keep = true → y.line ≠ k → y ∈ r

theorem touchSet_hit_placed (hlen : l.length ≤ cacheWays) (hnodup : (l.map (·.line)).Nodup) {x : CacheLine}
    (hfind : (l.find? fun y => y.line == k) = some x) :
    ∃ z, Placed ways hint k write l (touchSet ways write slice hint k l) z (others k (staying ways (marksKeep ways hint && !x.keep) l)) := by
  have hk : x.line = k := by simpa using List.find?_some hfind
  have hsub := staying_sublist (ways := ways) (l := l) (marksKeep ways hint && !x.keep)
  have hx : x ∈ staying ways (marksKeep ways hint && !x.keep) l :=
    mem_staying (List.mem_of_find?_eq_some hfind) (by cases x.keep <;> simp)
  have hcount := countP_staying (ways := ways) (l := l) (keep := marksKeep ways hint && !x.keep)
    fun h => ways_of_marksKeep (Bool.and_eq_true_iff.mp h).1
  have hstay (y) (hy : y ∈ l) (hmark : y.keep = true) (hne : y.line ≠ k) (h : marksKeep ways hint = false ∨ l.countP (·.keep) < ways) :
      y ∈ others k (staying ways (marksKeep ways hint && !x.keep) l) :=
    mem_others.mpr ⟨mem_staying hy (h.elim (fun h => .inl (by simp [h])) fun h => .inr (.inr h)), hne⟩
  have hperm := perm_cons_others (hnodup.sublist (hsub.map _)) hx hk
  rw [hperm.countP_eq, List.countP_cons] at hcount
  have hlength := hperm.length_eq ▸ hsub.length_le
  have hall (z : CacheLine) (hm : (touchSet ways write slice hint k l).Perm (z :: others k (staying ways (marksKeep ways hint && !x.keep) l)))
      (hline : z.line = k) (hdirty : z.dirty = (x.dirty || write)) (hkeep : z.keep = (x.keep || marksKeep ways hint) ∨ (hint ≠ 2 ∧ z.keep = false)) :
      Placed ways hint k write l (touchSet ways write slice hint k l) z (others k (staying ways (marksKeep ways hint && !x.keep) l)) :=
    { perm := hm, line := hline, old := others_sublist.trans hsub, apart := fun y hy => (mem_others.mp hy).2
      room := Nat.lt_of_lt_of_le (Nat.lt_succ_self _) (hlength.trans hlen)
      few := by
        refine le_trans ?_ hcount
        rcases hkeep with h | ⟨-, h⟩
        · cases hxk : x.keep <;> cases hmk : marksKeep ways hint <;> simp [h, hxk, hmk]
        · simp only [h, Bool.toNat_false, Nat.add_zero]
          omega
      dirty := fun h => by simp [hdirty, h]
      keep := fun h => hkeep.elim (fun hk => by simp [hk, h]) fun hk => by simp [marksKeep_ne hk.1] at h
      stay := fun h y hy hmark hne => hstay y hy hmark hne h }
  rw [touchSet_hit hfind] at hall ⊢
  split at hall
  · next h =>
    rw [if_pos h]
    exact ⟨_, hall _ (map_line_perm (hnodup.sublist (hsub.map _)) hx hk) hk rfl (.inl rfl)⟩
  · next h =>
    rw [if_neg h]
    split at hall
    · next hlast =>
      rw [if_pos hlast]
      exact ⟨_, hall _ (List.perm_append_singleton ..) hk rfl (.inr ⟨by omega, rfl⟩)⟩
    · next hlast =>
      rw [if_neg hlast]
      exact ⟨_, hall _ (.refl _) hk rfl (.inl rfl)⟩

theorem touchSet_miss_placed (hlen : l.length ≤ cacheWays) (hkeep : l.countP (·.keep) ≤ 12) (hmiss : ∀ y ∈ l, y.line ≠ k)
    (h : ¬ passesBy hint write slice) :
    Placed ways hint k write l (touchSet ways write slice hint k l) ⟨k, write, marksKeep ways hint⟩
      (wayFree (staying ways (marksKeep ways hint) l)) := by
  have hsub := staying_sublist (ways := ways) (l := l) (marksKeep ways hint)
  have hold := wayFree_sublist.trans hsub
  exact {
    perm := .of_eq (touchSet_allocated hmiss h), line := rfl, old := hold, apart := fun y hy => hmiss y (hold.subset hy)
    room := length_wayFree (hsub.length_le.trans hlen) (hsub.countP_le.trans hkeep)
    few := le_trans (Nat.add_le_add_right wayFree_sublist.countP_le _) (countP_staying ways_of_marksKeep)
    dirty := id, keep := id
    stay := fun h y hy hmark _ => mem_wayFree (mem_staying hy (h.imp_right .inr)) hmark }

/-- An access leaves its set as it is, or places its line. -/
theorem touchSet_placed (hlen : l.length ≤ cacheWays) (hnodup : (l.map (·.line)).Nodup) (hkeep : l.countP (·.keep) ≤ 12) :
    (passesBy hint write slice ∧ touchSet ways write slice hint k l = l) ∨
      ∃ z r, Placed ways hint k write l (touchSet ways write slice hint k l) z r := by
  cases hfind : l.find? fun y => y.line == k with
  | some x =>
    obtain ⟨z, hz⟩ := touchSet_hit_placed (ways := ways) (hint := hint) (write := write) (slice := slice) hlen hnodup hfind
    exact .inr ⟨z, _, hz⟩
  | none =>
    have hmiss : ∀ y ∈ l, y.line ≠ k := by simpa using hfind
    by_cases hpass : passesBy hint write slice
    · exact .inl ⟨hpass, touchSet_passed hmiss hpass⟩
    · exact .inr ⟨_, _, touchSet_miss_placed hlen hkeep hmiss hpass⟩

section
variable {m r : List CacheLine} {z : CacheLine}

theorem Placed.length_le (h : Placed ways hint k write l m z r) : m.length ≤ cacheWays := by
  rw [h.perm.length_eq, List.length_cons]
  exact h.room

theorem Placed.nodup (h : Placed ways hint k write l m z r) (hnodup : (l.map (·.line)).Nodup) : (m.map (·.line)).Nodup := by
  rw [(h.perm.map _).nodup_iff, List.map_cons, List.nodup_cons]
  refine ⟨fun hmem => ?_, hnodup.sublist (h.old.map _)⟩
  obtain ⟨y, hy, hline⟩ := List.mem_map.mp hmem
  exact h.apart y hy (hline.trans h.line)

theorem Placed.countP_le (h : Placed ways hint k write l m z r) : m.countP (·.keep) ≤ max ways (l.countP (·.keep)) := by
  have hfew := h.few
  rw [h.perm.countP_eq, List.countP_cons]
  cases hz : z.keep <;> simpa [hz] using hfew

theorem Placed.mem_old (h : Placed ways hint k write l m z r) {y : CacheLine} (hy : y ∈ m) (hne : y.line ≠ k) : y ∈ l := by
  rcases List.mem_cons.mp (h.perm.mem_iff.mp hy) with rfl | hr
  · exact absurd h.line hne
  · exact h.old.subset hr

theorem Placed.mem_self (h : Placed ways hint k write l m z r) : z ∈ m := h.perm.mem_iff.mpr List.mem_cons_self

theorem Placed.mem_of_stay (h : Placed ways hint k write l m z r) (hmark : marksKeep ways hint = false ∨ l.countP (·.keep) < ways) {y : CacheLine}
    (hy : y ∈ l) (hkeep : y.keep = true) (hne : y.line ≠ k) : y ∈ m :=
  h.perm.mem_iff.mpr (List.mem_cons_of_mem _ (h.stay hmark y hy hkeep hne))

end

-- # The rows of Table 9-3

/-- With KEEP_WAYS 0, keep is treated as normal (R330). -/
theorem touchSet_no_ways : touchSet 0 write slice 2 k l = touchSet 0 write slice 0 k l := by simp [touchSet]

/-- A normal access makes its line the most recent. -/
theorem touchSet_normal : ∃ x rest, touchSet ways write slice 0 k l = x :: rest ∧ x.line = k ∧ (write = true → x.dirty = true) := by
  cases hfind : l.find? fun y => y.line == k with
  | some x =>
    have hk : x.line = k := by simpa using List.find?_some hfind
    rw [touchSet_hit hfind, if_neg (by simp [marksKeep]), if_neg (by simp)]
    exact ⟨_, _, rfl, hk, fun h => by simp [CacheLine.hit, h]⟩
  | none =>
    rw [touchSet_allocated (by simpa using hfind) (by simp [passesBy])]
    exact ⟨_, _, rfl, rfl, id⟩

/-- A stream access leaves the lines of its set where they are, and a read of it all that they hold. -/
theorem touchSet_stream (hnodup : (l.map (·.line)).Nodup) (hcalm : slice = false ∨ write = false) :
    (touchSet ways write slice 1 k l).map (·.line) = l.map (·.line) ∧ (write = false → touchSet ways write slice 1 k l = l) := by
  cases hfind : l.find? fun y => y.line == k with
  | some x =>
    have hk : x.line = k := by simpa using List.find?_some hfind
    rw [touchSet_hit hfind, if_pos (.inl rfl)]
    refine ⟨?_, fun hread => ?_⟩
    · rw [List.map_map]
      refine List.map_congr_left fun y _ => ?_
      by_cases hy : y.line = k
      · exact (congrArg CacheLine.line (if_pos hy)).trans (hk.trans hy.symm)
      · exact congrArg CacheLine.line (if_neg hy)
    · refine (List.map_congr_left fun y hy => ?_).trans (List.map_id l)
      by_cases hline : y.line = k
      · have hyx := eq_of_line hnodup hy (List.mem_of_find?_eq_some hfind) (hline.trans hk.symm)
        rw [if_pos hline, hyx, hread]
        simp [CacheLine.hit, marksKeep]
      · exact if_neg hline
  | none =>
    have hpass := touchSet_passed (ways := ways) (by simpa using hfind : ∀ y ∈ l, y.line ≠ k)
      (.inl ⟨rfl, fun h => by rcases hcalm with hc | hc <;> simp [hc] at h⟩ : passesBy 1 write slice)
    exact ⟨congrArg _ hpass, fun _ => hpass⟩

/-- A last-use read leaves its line the least recent of its set, without its mark, and allocates none. -/
theorem touchSet_last_use (hnodup : (l.map (·.line)).Nodup) :
    (∀ x ∈ l, x.line = k → ∃ rest, touchSet ways false slice 3 k l = rest ++ [{ x with keep := false }]) ∧
      ((∀ x ∈ l, x.line ≠ k) → touchSet ways false slice 3 k l = l) := by
  refine ⟨fun x hx hk => ?_, fun hmiss => touchSet_passed hmiss (.inr ⟨rfl, rfl⟩)⟩
  obtain ⟨x', hfind⟩ : ∃ x', (l.find? fun y => y.line == k) = some x' :=
    Option.isSome_iff_exists.mp (List.find?_isSome.mpr ⟨x, hx, by simpa using hk⟩)
  have hk' : x'.line = k := by simpa using List.find?_some hfind
  obtain rfl := eq_of_line hnodup (List.mem_of_find?_eq_some hfind) hx (hk'.trans hk.symm)
  rw [touchSet_hit hfind, if_neg (by simp [marksKeep]), if_pos ⟨rfl, rfl⟩]
  exact ⟨_, congrArg _ (by simp only [CacheLine.hit, Bool.or_false])⟩

end

end Sys2Proof.Machine
end

section
/-! SUPPORT. What the stack caches hold decides nothing of what memory holds while no codeword is wrong (R329, R330): states that differ in their
caches alone stay so, whatever hint an access has. -/

namespace Sys2Proof.Machine

-- # States that differ in their caches alone

/-- A state with other caches, in which no codeword is wrong. -/
def State.recached (s : State) (c : NMap (List CacheLine)) (hits misses : NMap Nat) : State :=
  { s with cache := c, cacheHits := hits, cacheMisses := misses, wrong := [] }

/-- Two states differ in their caches alone, and no codeword is wrong in them. -/
inductive State.Alike : State → State → Prop
  | intro (s : State) (c c' : NMap (List CacheLine)) (hits hits' misses misses' : NMap Nat) :
    State.Alike (s.recached c hits misses) (s.recached c' hits' misses')

/-- A change that neither looks at the caches and the wrong symbols nor touches them. -/
def Blind (f : State → State) : Prop := ∀ s c hits misses, f (State.recached s c hits misses) = (f s).recached c hits misses

theorem State.Alike.refl {s : State} (h : s.wrong = []) : s.Alike s := by
  have hs : s = s.recached s.cache s.cacheHits s.cacheMisses := by rw [State.recached, ← h]
  rw [hs]
  exact .intro ..

theorem State.Alike.wrong {s t : State} (h : s.Alike t) : s.wrong = [] := by
  cases h
  rfl

theorem State.Alike.of_blind {f : State → State} (hf : Blind f) {s t : State} (h : s.Alike t) : (f s).Alike (f t) := by
  cases h
  rw [hf, hf]
  exact .intro ..

theorem State.Alike.each {α : Type} {l : List α} {f g : α → State → State} (hf : ∀ x s t, State.Alike s t → (f x s).Alike (g x t)) {s t : State}
    (h : s.Alike t) : (s.each l f).Alike (t.each l g) := by
  induction l generalizing s t with
  | nil => exact h
  | cons x rest ih => exact ih (hf x s t h)

theorem State.Alike.when {b : Bool} {f g : State → State} {s t : State} (hf : (f s).Alike (g t)) (h : s.Alike t) : (s.when b f).Alike (t.when b g) := by
  cases b with
  | false => exact h
  | true => exact hf

/-- An access to the caches, under any hints. -/
theorem State.Alike.cacheAccess {s t : State} (h : s.Alike t) (write : Bool) (hint hint' a n : Nat) :
    (s.cacheAccess write hint a n).Alike (t.cacheAccess write hint' a n) := by
  cases h
  exact .intro ..

-- # Blind changes

theorem blind_ite {p : State → Prop} [∀ s, Decidable (p s)] {f g : State → State} (hp : ∀ s c hits misses, p (State.recached s c hits misses) ↔ p s)
    (hf : Blind f) (hg : Blind g) : Blind fun s => if p s then f s else g s := by
  intro s c hits misses
  by_cases h : p s
  · simp only [if_pos h, if_pos ((hp s c hits misses).mpr h), hf s c hits misses]
  · simp only [if_neg h, if_neg (mt (hp s c hits misses).mp h), hg s c hits misses]

theorem Blind.comp {f g : State → State} (hf : Blind f) (hg : Blind g) : Blind fun s => f (g s) := fun s c hits misses =>
  (congrArg f (hg s c hits misses)).trans (hf (g s) c hits misses)

theorem blind_msix (fn vector : Nat) : Blind fun s => s.msix fn vector :=
  blind_ite (fun _ _ _ _ => .rfl) (fun _ _ _ _ => rfl) fun _ _ _ _ => rfl

-- Proved as `(rfl)`, not `rfl`: simp then rewrites with them step by step, and the kernel never compares two whole changed states.

section
variable (s : State) (c : NMap (List CacheLine)) (hits misses : NMap Nat)

theorem recached_fld (f : Field) (i : Nat) : (s.recached c hits misses).fld f i = s.fld f i := (rfl)
theorem recached_flag (f : Field) (i : Nat) : (s.recached c hits misses).flag f i = s.flag f i := (rfl)
theorem recached_ring (fn : Nat) : (s.recached c hits misses).ring fn = s.ring fn := (rfl)
theorem recached_ringSize (fn : Nat) : (s.recached c hits misses).ringSize fn = s.ringSize fn := (rfl)
theorem recached_setFld (f : Field) (i v : Nat) : (s.recached c hits misses).setFld f i v = (s.setFld f i v).recached c hits misses := (rfl)
theorem recached_setRing (fn : Nat) (r : Ring) : (s.recached c hits misses).setRing fn r = (s.setRing fn r).recached c hits misses := (rfl)
theorem recached_hostWrite (a : Nat) (bs : List Byte) :
    (s.recached c hits misses).spaceWrite 0 a bs = (s.spaceWrite 0 a bs).recached c hits misses := (rfl)

end

theorem blind_ringWrite (fn : Nat) (e : Event) : Blind fun s => s.ringWrite fn e := by
  have hmessage : Blind fun s => s.when (s.flag F.EXC_EVQ_CFG_IRQ_EN fn) fun s => s.msix fn (s.fld F.EXC_EVQ_CFG_VECTOR fn) :=
    blind_ite (fun _ _ _ _ => .rfl) (blind_ite (fun _ _ _ _ => .rfl) (fun _ _ _ _ => rfl) fun _ _ _ _ => rfl) fun _ _ _ _ => rfl
  intro s c hits misses
  simp only [State.ringWrite, recached_fld, recached_ring, recached_ringSize, recached_hostWrite, recached_setFld, recached_setRing]
  exact hmessage _ c hits misses

theorem blind_deliver (fn : Nat) (e : Event) : Blind fun s => s.deliver fn e :=
  blind_ite (fun _ _ _ _ => .rfl) (blind_ite (fun _ _ _ _ => .rfl) (blind_ringWrite fn e) fun _ _ _ _ => rfl)
    (blind_ite (fun _ _ _ _ => .rfl) (fun _ _ _ _ => rfl) fun _ _ _ _ => rfl)

/-- An event goes to its function's ring, and where it is copied to the physical function's. -/
theorem blind_deliver_copy (fn : Nat) (e : Event) (copy : Bool) : Blind fun s => (s.deliver fn e).when copy fun s => s.deliver 0 e := by
  cases copy with
  | false => exact blind_deliver fn e
  | true => exact (blind_deliver 0 e).comp (blind_deliver fn e)

theorem blind_raise (sc : Scope) (code sev source detail : Nat) : Blind fun s => s.raise sc code sev source detail := by
  intro s c hits misses
  cases sc with
  | device => exact blind_deliver 0 ⟨s.now, code, sev, none, source, detail⟩ s c hits misses
  | context n => exact blind_deliver_copy (s.ctxFn n) ⟨s.now, code, sev, some n, source, detail⟩ (decide (2 ≤ sev) && s.ctxFn n != 0) s c hits misses
  | function fn copy => exact blind_deliver_copy fn ⟨s.now, code, sev, none, source, detail⟩ (copy && fn != 0) s c hits misses

-- # What an uncorrectable codeword leaves (R334, R342)

theorem blind_writeRepairs (l : List Repair) : Blind fun s => s.writeRepairs l := fun _ _ _ _ => rfl

theorem blind_noteRetired (ch trigger : Nat) : Blind fun s => s.noteRetired ch trigger := by
  intro s c hits misses
  simp only [State.noteRetired, State.addRepair, apply_ite (State.recached · c hits misses), ← blind_writeRepairs _ s c hits misses]
  rfl

theorem blind_retire (ch trigger : Nat) : Blind fun s => s.retire ch trigger := by
  have hspare : Blind fun s =>
      (((((s.setFld F.MEM_SPARE_STATE (ch / 32) 1).setFld F.MEM_SPARE_CHANNEL (ch / 32) (ch % 32)).setFld F.MEM_SPARE_TRIGGER (ch / 32) trigger).setFld
        F.MEM_SPARE_WATERMARK (ch / 32) 0).setFld F.MEM_CH_STATE_STATE ch 2) := fun s c hits misses => by simp only [recached_setFld]
  have hbegin : Blind fun s => s.beginAt migration (ch / 32) := fun _ _ _ _ => rfl
  have hspared := (blind_raise .device 0x0106 1 ch trigger).comp (hbegin.comp ((blind_noteRetired ch trigger).comp hspare))
  intro s c hits misses
  simp only [State.retire, recached_fld]
  split
  · exact hspared s c hits misses
  · exact blind_raise .device 0x0109 2 ch 1 s c hits misses
  · exact blind_raise .device 0x0109 2 ch 2 s c hits misses

theorem blind_retireAuto (ch trigger : Nat) : Blind fun s => s.retireAuto ch trigger :=
  blind_ite (fun _ _ _ _ => .rfl) (blind_ite (fun _ _ _ _ => .rfl) (fun _ _ _ _ => rfl) (blind_retire ch trigger))
    (blind_raise .device 0x0105 1 ch trigger)

/-- The times at which uncorrectable codewords of a channel were found in the last 24 hours, with now. -/
def State.ueList (s : State) (ch : Nat) : List Nat := s.now :: s.within (NMap.getD s.ueTimes ch []) day

/-- A codeword of a channel is counted as uncorrectable, in the last 24 hours too. -/
def State.ueCounted (s : State) (ch : Nat) : State :=
  { s.bumpFld F.MEM_CH_ECC_UNCORRECTABLE ch 1 with ueTimes := NMap.set s.ueTimes ch (s.ueList ch) }.setFld F.MEM_CH_WINDOW_UE_DAY ch
    (min (s.ueList ch).length 0xFFFFFFFF)

theorem countUe_eq (s : State) (ch : Nat) : s.countUe ch =
    if (s.ueCounted ch).fld F.MEM_SPARE_CFG_UE_LIMIT 0 ≤ (s.ueList ch).length then (s.ueCounted ch).retireAuto ch 3 else s.ueCounted ch := (rfl)

theorem blind_ueCounted (ch : Nat) : Blind fun s => s.ueCounted ch := fun _ _ _ _ => rfl

theorem blind_countUe (ch : Nat) : Blind fun s => s.countUe ch := by
  simp only [countUe_eq]
  exact blind_ite (fun _ _ _ _ => .rfl) ((blind_retireAuto ch 3).comp (blind_ueCounted ch)) (blind_ueCounted ch)

theorem blind_poisonWord (a : Nat) : Blind fun s => s.poisonWord a :=
  blind_ite (fun _ _ _ _ => .rfl) (fun _ _ _ _ => rfl) fun _ _ _ _ => rfl

theorem blind_uncorrectable (agent : Nat) (ctx : Option Nat) (a : Nat) : Blind fun s => s.uncorrectable agent ctx a := by
  intro s c hits misses
  have hmark : Blind fun t => if t.memErrs.contains (t.codeKey a) then t else { t with memErrs := t.codeKey a :: t.memErrs } :=
    blind_ite (fun _ _ _ _ => .rfl) (fun _ _ _ _ => rfl) fun _ _ _ _ => rfl
  exact (blind_raise (match ctx with | some n => .context n | none => .device) 0x0103 2 (s.place a).1 (2 ^ 56 * agent + a % 2 ^ 48)).comp
    (hmark.comp ((blind_countUe (s.place a).1).comp (blind_poisonWord a))) s c hits misses

-- # Transfers

theorem decodeRange_of_wrong_nil {s : State} (h : s.wrong = []) (a n : Nat) : s.decodeRange a n = s := by
  rw [State.decodeRange, State.wrongWords, h]
  rfl

theorem poisonedWords_recached (s : State) (c : NMap (List CacheLine)) (hits misses : NMap Nat) (a n : Nat) :
    (s.recached c hits misses).poisonedWords a n = s.poisonedWords a n := rfl

/-- A read under a hint, of states that differ in their caches alone, finds the same and leaves such states. -/
theorem State.Alike.readHinted {s t : State} (h : s.Alike t) (hint hint' agent : Nat) (ctx : Option Nat) (a n : Nat) :
    (s.readHinted hint agent ctx a n).1.Alike (t.readHinted hint' agent ctx a n).1 ∧
      (s.readHinted hint agent ctx a n).2 = (t.readHinted hint' agent ctx a n).2 := by
  cases h with
  | intro x c c' hits hits' misses misses' =>
    have hdecode (c hits misses) : (x.recached c hits misses).decodeRange a n = x.recached c hits misses := decodeRange_of_wrong_nil rfl a n
    simp only [State.readHinted, hdecode, poisonedWords_recached]
    refine ⟨.cacheAccess (.each (fun y _ _ h => h.of_blind (blind_uncorrectable agent ctx y)) (.intro ..)) .., rfl⟩

theorem blind_integrity (ctx path kind source block addr : Nat) : Blind fun s => s.integrity ctx path kind source block addr := by
  have hfirst : Blind fun s => s.when (!s.flag F.EXC_INT_REC_VALID ctx) fun s =>
      (((((s.setFld F.EXC_INT_REC_VALID ctx 1).setFld F.EXC_INT_REC_PATH ctx path).setFld F.EXC_INT_REC_KIND ctx kind).setFld
        F.EXC_INT_REC_SOURCE ctx source).setFld F.EXC_INT_REC_BLOCK ctx block).setFld F.EXC_INT_ADDR_ADDR ctx addr :=
    blind_ite (fun _ _ _ _ => .rfl) (fun s c hits misses => by simp only [recached_setFld]) fun _ _ _ _ => rfl
  have hcount : Blind fun s => s.bumpFld F.EXC_INT_CNT_DAMAGED ctx 1 := fun _ _ _ _ => rfl
  exact hfirst.comp hcount

theorem blind_each {α : Type} (l : List α) {f : α → State → State} (hf : ∀ x, Blind (f x)) : Blind fun s => s.each l f := by
  intro s c hits misses
  induction l generalizing s with
  | nil => rfl
  | cons x rest ih => exact (congrArg (State.each · rest f) (hf x s c hits misses)).trans (ih (f x s))

theorem blind_discardQueue (q c t : Nat) : Blind fun s => s.discardQueue q c t := by
  have hlose (k : Nat) : Blind fun s => s.loseShard q c k := fun _ _ _ _ => rfl
  have hclear : Blind fun s => s.modTile t fun x => { x with deferred := [] } := fun _ _ _ _ => rfl
  intro s
  exact hclear.comp (blind_each ((s.tile t).deferred.map (·.shard) ++ ((s.tile t).body.map (·.desc.shard)).toList) hlose) s

theorem blind_launchFault (q c status detail tile bundle : Nat) : Blind fun s => s.launchFault q c status detail tile bundle := by
  intro s sets hits misses
  have hlaunch : (s.recached sets hits misses).launch? q c = s.launch? q c := rfl
  simp only [State.launchFault, hlaunch]
  split
  · rfl
  · next l _ =>
    split
    · rfl
    · have hfault : Blind fun s => s.modLaunch q c fun l => { l with fault := some ⟨status, detail, tile, bundle⟩ } := fun _ _ _ _ => rfl
      exact (blind_each l.tiles (f := fun t s => s.discardQueue q c t) (blind_discardQueue q c)).comp hfault s sets hits misses

theorem blind_countCmp (ctx plain stored : Nat) : Blind fun s => s.countCmp ctx plain stored := by
  have hcounts (p t : Nat) : Blind fun s => { s with plain := NMap.set s.plain ctx p, stored := NMap.set s.stored ctx t } := fun _ _ _ _ => rfl
  have hshown (f : Field) (n : Nat) : Blind fun s => s.setFld f ctx n := fun _ _ _ _ => rfl
  intro s
  exact ((hshown F.EXC_CMP_STAT_STREAM_MIB ((NMap.getD s.stored ctx 0 + stored) / 2 ^ 20)).comp
    ((hshown F.EXC_CMP_STAT_PLAIN_MIB ((NMap.getD s.plain ctx 0 + plain) / 2 ^ 20)).comp
      (hcounts (NMap.getD s.plain ctx 0 + plain) (NMap.getD s.stored ctx 0 + stored)))) s

theorem blind_storeWrite (tile off : Nat) (bs : List Byte) : Blind fun s => s.storeWrite tile off bs := fun _ _ _ _ => rfl

section
variable {s t : State} (x : Transfer) (hint : Nat)

theorem decodeStream_hint (n b a : Nat) (acc : List Byte) : s.decodeStream { x with hint := hint } n b a acc = s.decodeStream x n b a acc := by
  induction n generalizing b a acc with
  | zero => rfl
  | succ n ih =>
    simp only [State.decodeStream, ih]
    rfl

theorem readStream_hint : s.readStream { x with hint := hint } = s.readStream x := by
  simp only [State.readStream, decodeStream_hint]
  rfl

/-- With no wrong codeword, a stream is read as it is stored. -/
theorem readStream_of_wrong_nil (h : s.wrong = []) : s.readStream x = s := decodeRange_of_wrong_nil h ..

/-- How a transfer that decodes its stream ends, under a hint. -/
def State.streamIn (s : State) (x : Transfer) (hint : Nat) (r : StreamEnd) : State × Bool :=
  let s := ((s.storeWrite x.tile x.toff r.plain).countCmp x.ctx r.plain.length r.stored).cacheAccess false hint x.maddr r.stored
  match r.fail with
  | none => (s, true)
  | some (st, d, k, a) =>
    if s.stopAsked x.queue x.cmd then (s, false)
    else
      let s := if st = St.integrity then s.integrity x.ctx 0 k x.tile d a
               else (s.readHinted hint 0 (some x.ctx) a (blockExtent (s.devRead a 4160))).1
      (s.transferFault x st d, false)

theorem moveIn_comp (hcomp : x.comp = true) :
    s.moveIn x = (s.readStream x).streamIn x x.hint ((s.readStream x).decodeStream x (ceilDiv x.bytes blockSize) 0 x.maddr []) :=
  if_pos hcomp

/-- The ranges of a transfer, read one after the other under a hint. -/
def State.readRanges (s : State) (x : Transfer) (hint : Nat) : State × Option Nat :=
  x.ranges.foldl (fun acc r =>
    let (t, ch) := acc.1.readHinted hint 0 (some x.ctx) r.1 r.2
    (t, acc.2.orElse fun _ => ch)) (s, none)

/-- How a transfer that reads memory as it is stored ends. -/
def State.rangesIn (s : State) (x : Transfer) (bad : Option Nat) : State × Bool :=
  let s := s.storeWrite x.tile x.toff (x.ranges.flatMap fun r => s.devRead r.1 r.2)
  match bad with
  | some ch => (s.transferFault x St.memUncorrectable ch, false)
  | none => (s, true)

theorem moveIn_dense (hcomp : x.comp = false) : s.moveIn x = (s.readRanges x x.hint).1.rangesIn x (s.readRanges x x.hint).2 :=
  if_neg (ne_true_of_eq_false hcomp)

end

section
variable {s t : State} (x : Transfer) (hint hint' : Nat)

theorem State.Alike.transferFault (h : s.Alike t) (status detail : Nat) : (s.transferFault x status detail).Alike (t.transferFault x status detail) :=
  h.of_blind (blind_launchFault x.queue x.cmd status detail x.tile x.bundle)

theorem State.Alike.stopAsked (h : s.Alike t) (q c : Nat) : s.stopAsked q c = t.stopAsked q c := by
  cases h
  rfl

theorem State.Alike.devRead (h : s.Alike t) (a n : Nat) : s.devRead a n = t.devRead a n := by
  cases h
  rfl

theorem State.Alike.streamIn (h : s.Alike t) (r : StreamEnd) : (s.streamIn x hint r).1.Alike (t.streamIn x hint' r).1 := by
  have hwritten := ((h.of_blind (blind_storeWrite x.tile x.toff r.plain)).of_blind
    (blind_countCmp x.ctx r.plain.length r.stored)).cacheAccess false hint hint' x.maddr r.stored
  unfold State.streamIn
  cases r.fail with
  | none => exact hwritten
  | some f =>
    obtain ⟨st, d, k, a⟩ := f
    dsimp only
    rw [hwritten.stopAsked, hwritten.devRead]
    split
    · exact hwritten
    · split
      · exact (hwritten.of_blind (blind_integrity x.ctx 0 k x.tile d a)).transferFault x st d
      · exact (hwritten.readHinted ..).1.transferFault x st d

theorem State.Alike.readRanges (h : s.Alike t) :
    (s.readRanges x hint).1.Alike (t.readRanges x hint').1 ∧ (s.readRanges x hint).2 = (t.readRanges x hint').2 := by
  unfold State.readRanges
  generalize (none : Option Nat) = ch
  induction x.ranges generalizing s t ch with
  | nil => exact ⟨h, rfl⟩
  | cons r rest ih =>
    obtain ⟨hread, hch⟩ := h.readHinted hint hint' 0 (some x.ctx) r.1 r.2
    simp only [List.foldl_cons, hch]
    exact ih hread _

theorem State.Alike.rangesIn (h : s.Alike t) (bad : Option Nat) : (s.rangesIn x bad).1.Alike (t.rangesIn x bad).1 := by
  unfold State.rangesIn
  simp only [h.devRead]
  have hwritten := h.of_blind (blind_storeWrite x.tile x.toff (x.ranges.flatMap fun r => t.devRead r.1 r.2))
  cases bad with
  | none => exact hwritten
  | some ch => exact hwritten.transferFault x St.memUncorrectable ch

/-- A transfer that reads memory, under any hint. -/
theorem moveIn_alike (h : s.wrong = []) : (s.moveIn { x with hint := hint }).1.Alike (s.moveIn x).1 := by
  have hself := State.Alike.refl h
  rcases Bool.eq_false_or_eq_true x.comp with hcomp | hcomp
  · rw [moveIn_comp x hcomp, moveIn_comp { x with hint := hint } hcomp, readStream_hint, decodeStream_hint, readStream_of_wrong_nil x h]
    exact hself.streamIn x hint x.hint _
  · rw [moveIn_dense x hcomp, moveIn_dense { x with hint := hint } hcomp]
    obtain ⟨hread, hbad⟩ := hself.readRanges x hint x.hint
    exact hbad ▸ hread.rangesIn x _

theorem blind_devBytes (a : Nat) (bs : List Byte) : Blind fun s => s.devBytes a bs := by
  intro s c hits misses
  induction bs generalizing s a with
  | nil => rfl
  | cons b rest ih => exact ih (a + 1) (s.setDevByte a b)

/-- The codewords that a store covers lose their poison. -/
def State.freshened (s : State) (a n : Nat) : State :=
  let keys := if s.poison.isEmpty then [] else ((coveredCodewords a n).filter fun x => s.addrKind x == .memory).map s.codeKey
  { s with poison := s.poison.filter fun k => !keys.contains k }

theorem devStore_recached (s : State) (c : NMap (List CacheLine)) (hits misses : NMap Nat) (a : Nat) (bs : List Byte) :
    (s.recached c hits misses).devStore hint a bs =
      (((s.devBytes a bs).freshened a bs.length).recached c hits misses).cacheAccess true hint a bs.length := by
  have hbytes := blind_devBytes a bs s c hits misses
  have hwrong (u : State) : (u.recached c hits misses).wrong = [] := rfl
  simp only [State.devStore, hbytes, hwrong, List.isEmpty_nil, Bool.and_true, List.filter_nil, State.freshened]
  rfl

/-- A store under any hint. -/
theorem State.Alike.devStore (h : s.Alike t) (a : Nat) (bs : List Byte) : (s.devStore hint a bs).Alike (t.devStore hint' a bs) := by
  cases h
  rw [devStore_recached, devStore_recached]
  exact .cacheAccess (.intro ..) ..

theorem State.Alike.devWrite (h : s.Alike t) (a : Nat) (bs : List Byte) : (s.devWrite a bs).Alike (t.devWrite a bs) := h.devStore 0 0 a bs

theorem State.Alike.setShardFlags (h : s.Alike t) (y : Shard) (flags : Nat) : (s.setShardFlags y flags).Alike (t.setShardFlags y flags) := by
  have hflags := h.devWrite (y.addr + 28) (leBytes 1 flags)
  unfold State.setShardFlags
  dsimp only
  rw [hflags.devRead]
  exact hflags.devWrite _ _

theorem State.Alike.guardWork (h : s.Alike t) (a n : Nat) : (s.guardWork a n).Alike (t.guardWork a n) := by
  refine .each (fun ctx s t h => ?_) h
  have hon : s.ctxOn ctx = t.ctxOn ctx := by
    cases h
    rfl
  have hshards : s.shards ctx = t.shards ctx := by
    cases h
    rfl
  rw [hon]
  refine .when ?_ h
  rw [hshards]
  refine .each (fun y s t h => ?_) h
  exact .when (f := fun s => s.setShardFlags y (y.flags ||| 4)) (g := fun s => s.setShardFlags y (y.flags ||| 4)) (h.setShardFlags y _) h

theorem State.Alike.storeRead (h : s.Alike t) (tile off n : Nat) : s.storeRead tile off n = t.storeRead tile off n := by
  cases h
  rfl

/-- How a transfer that stores a coded stream ends, under a hint. -/
def State.streamOut (s : State) (x : Transfer) (hint : Nat) (r : Coded) : State × Bool :=
  let s := ((s.devStore hint x.maddr r.bytes).guardWork x.maddr r.bytes.length).countCmp x.ctx r.plain r.bytes.length
  match r.fail with
  | none => (s, true)
  | some (b, k) =>
    if s.stopAsked x.queue x.cmd then (s, false) else ((s.integrity x.ctx 1 k x.tile b 0).transferFault x St.integrity b, false)

theorem moveOut_comp (hcomp : x.comp = true) (faults : List (Nat × Nat)) : s.moveOut x faults =
    s.streamOut x x.hint (codeStream faults (ceilDiv x.bytes blockSize) 0 (s.storeRead x.tile x.toff x.bytes) []) := if_pos hcomp

/-- The ranges of a transfer, stored one after the other under a hint. -/
def State.rangesOut (s : State) (x : Transfer) (hint : Nat) : State :=
  x.ranges.zipIdx.foldl (fun s p =>
    (s.devStore hint p.1.1 (s.storeRead x.tile (x.toff + p.2 * x.rowLen) x.rowLen)).guardWork p.1.1 p.1.2) s

theorem moveOut_dense (hcomp : x.comp = false) (faults : List (Nat × Nat)) : s.moveOut x faults = (s.rangesOut x x.hint, true) :=
  if_neg (ne_true_of_eq_false hcomp)

theorem State.Alike.streamOut (h : s.Alike t) (r : Coded) : (s.streamOut x hint r).1.Alike (t.streamOut x hint' r).1 := by
  have hstored := ((h.devStore hint hint' x.maddr r.bytes).guardWork x.maddr r.bytes.length).of_blind (blind_countCmp x.ctx r.plain r.bytes.length)
  unfold State.streamOut
  cases r.fail with
  | none => exact hstored
  | some f =>
    obtain ⟨b, k⟩ := f
    dsimp only
    rw [hstored.stopAsked]
    split
    · exact hstored
    · exact (hstored.of_blind (blind_integrity x.ctx 1 k x.tile b 0)).transferFault x St.integrity b

theorem State.Alike.rangesOut (h : s.Alike t) : (s.rangesOut x hint).Alike (t.rangesOut x hint') := by
  unfold State.rangesOut
  induction x.ranges.zipIdx generalizing s t with
  | nil => exact h
  | cons p rest ih =>
    refine ih ?_
    dsimp only
    rw [h.storeRead]
    exact (h.devStore hint hint' p.1.1 _).guardWork p.1.1 p.1.2

/-- A transfer that writes memory, under any hint. -/
theorem moveOut_alike (h : s.wrong = []) (faults : List (Nat × Nat)) :
    (s.moveOut { x with hint := hint } faults).1.Alike (s.moveOut x faults).1 := by
  have hself := State.Alike.refl h
  rcases Bool.eq_false_or_eq_true x.comp with hcomp | hcomp
  · rw [moveOut_comp x hcomp, moveOut_comp { x with hint := hint } hcomp]
    exact hself.streamOut x hint x.hint _
  · rw [moveOut_dense x hcomp, moveOut_dense { x with hint := hint } hcomp]
    exact hself.rangesOut x hint x.hint

theorem State.Alike.mem (h : s.Alike t) : s.mem = t.mem := by
  cases h
  rfl

theorem State.Alike.store (h : s.Alike t) : s.store = t.store := by
  cases h
  rfl

end

end Sys2Proof.Machine
end

section
/-! SUPPORT. One error in a cached codeword (R331): a clean line is dropped, a dirty one is lost and its codeword poisoned. -/

namespace Sys2Proof.Machine

-- # Lines leave the caches

theorem NMap.getD_mapValues {α : Type} (m : NMap (List α)) (f : List α → List α) (hf : f [] = []) (i : Nat) :
    NMap.getD (m.map fun q : Nat × List α => (q.1, f q.2)) i [] = f (NMap.getD m i []) := by
  induction m with
  | nil => exact hf.symm
  | cons p rest ih =>
    obtain ⟨k, v⟩ := p
    by_cases hk : k = i
    · simp [NMap.getD, NMap.get?, hk]
    · simpa [NMap.getD, NMap.get?, hk] using ih

/-- The caches without some lines. -/
def State.without (s : State) (gone : List Nat) : State :=
  { s with cache := s.cache.map fun q : Nat × List CacheLine => (q.1, q.2.filter fun y => !gone.contains y.line) }

/-- A line that the caches hold is the line of its address. -/
theorem cached?_line {s : State} {a : Nat} {x : CacheLine} (h : s.cached? a = some x) : x.line = s.memKey a / 256 := by
  simpa using List.find?_some h

theorem cached?_without {s : State} {a : Nat} {x : CacheLine} (h : s.cached? a = some x) : (s.without [x.line]).cached? a = none := by
  have hset := NMap.getD_mapValues s.cache (fun l => l.filter fun y => !([x.line].contains y.line)) rfl (cacheKey (s.memKey a / 256))
  have hkey : (s.without [x.line]).memKey a = s.memKey a := rfl
  rw [State.cached?, hkey]
  refine (congrArg (List.find? fun y : CacheLine => y.line == s.memKey a / 256) hset).trans (List.find?_eq_none.mpr fun y hy hline => ?_)
  have hne : y.line ≠ x.line := by simpa using (List.mem_filter.mp hy).2
  exact hne ((beq_iff_eq.mp hline).trans (cached?_line h).symm)

-- # Counting an error leaves the map of memory

theorem memKey_of_map {s t : State} (hend : t.visibleEnd = s.visibleEnd) (hlocal : t.localSize = s.localSize) (haff : t.affineSize = s.affineSize)
    (a : Nat) : t.memKey a = s.memKey a := by
  simp only [State.memKey, State.locate, hend, hlocal, haff]

theorem memKey_bumpFld (s : State) {f : Field} (hf : f.reg = .MEM_CACHE_ERR) {i : Nat} (hi : i < 12) (v a : Nat) :
    (s.bumpFld f i v).memKey a = s.memKey a := by
  have hother (g : Field) (hg : g.reg ≠ .MEM_CACHE_ERR) : (s.bumpFld f i v).fld g 0 = s.fld g 0 :=
    fld_setFld_reg s _ (RegName.key_ne (by omega) (by omega) (hf ▸ hg))
  exact memKey_of_map (congrArg (0xC0000000 * ·) (hother F.MEM_MAP_V_3G (by decide)))
    (congrArg (0x30000000 * ·) (hother F.MEM_REGION_CFG_LOCAL_768M (by decide))) (congrArg (0xC0000000 * ·) (hother F.MEM_REGION_CFG_AFF_3G (by decide))) a

theorem cached?_bumpFld (s : State) {f : Field} (hf : f.reg = .MEM_CACHE_ERR) {i : Nat} (hi : i < 12) (v a : Nat) :
    (s.bumpFld f i v).cached? a = s.cached? a := by
  rw [State.cached?, memKey_bumpFld s hf hi]
  rfl

/-- A counting field of 32 bits counts one more, up to its largest value. -/
theorem fld_bumpFld_32 (s : State) {f : Field} (hlo : f.lo + f.width ≤ 64) (hwidth : f.width = 32) (i : Nat) :
    (s.bumpFld f i 1).fld f i = min (s.fld f i + 1) 0xFFFFFFFF := by
  rw [State.bumpFld, fld_setFld_self s f hlo, hwidth, satAdd]
  split <;> omega

theorem codeKey_mem_poisonWord (s : State) (a : Nat) : s.codeKey a ∈ (s.poisonWord a).poison := by
  unfold State.poisonWord State.poisonKey
  split
  · next h => simpa using h
  · exact List.mem_cons_self

/-- Poisoning a codeword changes nothing but the list of poisoned codewords. -/
theorem poisonWord_keeps {β : Type} (g : State → β) (hg : ∀ t l, g { t with poison := l } = g t) (s : State) (a : Nat) : g (s.poisonWord a) = g s := by
  unfold State.poisonWord State.poisonKey
  split
  · rfl
  · exact hg s _

-- # One error (R331)

/-- What the errors do that an access has met, each with its line and whether the code corrects it. -/
def State.errorsMet (s : State) (met : List (Nat × CacheLine × Bool)) : State :=
  let gone := (met.filter fun p => p.2.2).map fun p => p.2.1.line
  let lost := met.filter fun p => p.2.2 && p.2.1.dirty
  let s := (s.without gone).each met fun p s =>
    if p.2.2 && p.2.1.dirty then
      ((s.poisonWord p.1).mend (s.codeKey p.1)).bumpFld F.MEM_CACHE_ERR_DIRTY_LOST (lineStack p.2.1.line) 1
    else s.bumpFld F.MEM_CACHE_ERR_CORRECTED (lineStack p.2.1.line) 1
  s.each (List.range 12) fun st s =>
    s.when (lost.countP (fun p => lineStack p.2.1.line == st) != 0) fun s =>
      s.raise .device 0x010E 2 st (lost.countP fun p => lineStack p.2.1.line == st)

theorem cacheErrors_one {s : State} {e : CacheErr} {x : CacheLine} (hmem : s.addrKind (e.addr.toNat / 32 * 32) = .memory)
    (hcached : s.cached? (e.addr.toNat / 32 * 32) = some x) : s.cacheErrors [e] = s.errorsMet [(e.addr.toNat / 32 * 32, x, e.hard)] := by
  have hmet : ([e].filterMap fun e => if s.addrKind (e.addr.toNat / 32 * 32) = .memory then
      (s.cached? (e.addr.toNat / 32 * 32)).map fun x => (e.addr.toNat / 32 * 32, x, e.hard) else none) =
      [(e.addr.toNat / 32 * 32, x, e.hard)] := by
    simp only [List.filterMap_cons, List.filterMap_nil, hmem, if_true, hcached, Option.map_some]
  exact congrArg s.errorsMet hmet

/-- A pass over the numbers below a bound that changes something at one of them alone. -/
theorem each_range_at {n k : Nat} (hk : k < n) {f : Nat → State → State} (s : State) (h : ∀ i t, i ≠ k → f i t = t) :
    s.each (List.range n) f = f k s := by
  induction n with
  | zero => exact absurd hk (Nat.not_lt_zero k)
  | succ n ih =>
    have hlast : s.each (List.range (n + 1)) f = f n (s.each (List.range n) f) := by
      simp only [State.each, List.range_succ, List.foldl_append, List.foldl_cons, List.foldl_nil]
    rw [hlast]
    rcases Nat.lt_succ_iff_lt_or_eq.mp hk with hlt | rfl
    · rw [ih hlt, h n _ (Nat.ne_of_gt hlt)]
    · rw [State.each_of_fixed s _ fun i hi => h i s (Nat.ne_of_lt (List.mem_range.mp hi))]

section
variable {s : State} {a : Nat} {x : CacheLine}

/-- An error that the code corrects, or in a clean line, is counted as corrected, and an uncorrectable one drops its line. -/
theorem errorsMet_corrected {hard : Bool} (hlight : hard = false ∨ x.dirty = false) :
    s.errorsMet [(a, x, hard)] = (s.without (if hard then [x.line] else [])).bumpFld F.MEM_CACHE_ERR_CORRECTED (lineStack x.line) 1 := by
  have hnot : (hard && x.dirty) = false := by rcases hlight with h | h <;> simp [h]
  have hlost : ([(a, x, hard)].filter fun p => p.2.2 && p.2.1.dirty) = [] := List.filter_cons_of_neg (ne_true_of_eq_false hnot)
  have hgone : ([(a, x, hard)].filter fun p => p.2.2).map (fun p => p.2.1.line) = if hard then [x.line] else [] := by cases hard <;> rfl
  rw [State.errorsMet, hlost, hgone]
  refine (State.each_of_fixed _ _ fun _ _ => rfl).trans ?_
  exact if_neg (ne_true_of_eq_false hnot)

/-- What an uncorrectable error in a dirty line leaves, before its event. -/
def State.lineLost (s : State) (a : Nat) (x : CacheLine) : State :=
  (((s.without [x.line]).poisonWord a).mend (s.codeKey a)).bumpFld F.MEM_CACHE_ERR_DIRTY_LOST (lineStack x.line) 1

/-- An uncorrectable error in a dirty line loses the line, and event 0x010E tells of it. -/
theorem errorsMet_lost (hdirty : x.dirty = true) (hstack : lineStack x.line < 12) :
    s.errorsMet [(a, x, true)] = (s.lineLost a x).raise .device 0x010E 2 (lineStack x.line) 1 := by
  have hlost : ([(a, x, true)].filter fun p => p.2.2 && p.2.1.dirty) = [(a, x, true)] := List.filter_cons_of_pos hdirty
  have hcount (st : Nat) : [(a, x, true)].countP (fun p => lineStack p.2.1.line == st) = if lineStack x.line = st then 1 else 0 := by
    simp [List.countP_cons]
  rw [State.errorsMet, hlost]
  refine (each_range_at hstack _ fun st t hst => ?_).trans ?_
  · rw [hcount, if_neg hst.symm]
    rfl
  · rw [hcount, if_pos rfl]
    exact congrArg (fun u : State => u.raise .device 0x010E 2 (lineStack x.line) 1) (if_pos hdirty)

theorem cached?_lineLost (hcached : s.cached? a = some x) (hstack : lineStack x.line < 12) : (s.lineLost a x).cached? a = none :=
  calc (s.lineLost a x).cached? a
    _ = ((s.without [x.line]).poisonWord a).cached? a := cached?_bumpFld _ rfl hstack 1 a
    _ = (s.without [x.line]).cached? a := poisonWord_keeps (State.cached? · a) (fun _ _ => rfl) _ a
    _ = none := cached?_without hcached

theorem codeKey_mem_lineLost : s.codeKey a ∈ (s.lineLost a x).poison := codeKey_mem_poisonWord (s.without [x.line]) a

theorem fld_lineLost : (s.lineLost a x).fld F.MEM_CACHE_ERR_DIRTY_LOST (lineStack x.line) =
    min (s.fld F.MEM_CACHE_ERR_DIRTY_LOST (lineStack x.line) + 1) 0xFFFFFFFF := by
  have hkeep := poisonWord_keeps (State.fld · F.MEM_CACHE_ERR_DIRTY_LOST (lineStack x.line)) (fun _ _ => rfl) (s.without [x.line]) a
  exact (fld_bumpFld_32 _ (by decide) rfl _).trans (congrArg (fun n => min (n + 1) 0xFFFFFFFF) hkeep)

end

end Sys2Proof.Machine
end

section
namespace Sys2Proof.Machine

/-- Settles O17: an access leaves its set or places its line in it, and a hint reaches nothing but the caches, so states that differ in their caches
alone stay so. How the hits and the misses are counted is open (log 38). -/
theorem stackCache : Obligations.StackCache := by
  unfold Obligations.StackCache
  refine ⟨?sets, fun s x hint faults h => ⟨(moveIn_alike x hint h).store, fun _ => (moveOut_alike x hint h faults).mem⟩, ?errors⟩
  case sets =>
    intro ways hint k write slice l _ hlen hnodup hkeep m
    have hplaced := touchSet_placed (ways := ways) (hint := hint) (k := k) (write := write) (slice := slice) hlen hnodup hkeep
    have hnormal : hint = 0 → ∃ x rest, m = x :: rest ∧ x.line = k ∧ (write = true → x.dirty = true) := by
      rintro rfl
      exact touchSet_normal
    have hstream : hint = 1 → slice = false ∨ write = false → m.map (·.line) = l.map (·.line) ∧ (write = false → m = l) := by
      rintro rfl
      exact touchSet_stream hnodup
    have hlast : hint = 3 → write = false →
        (∀ x ∈ l, x.line = k → ∃ rest, m = rest ++ [{ x with keep := false }]) ∧ ((∀ x ∈ l, x.line ≠ k) → m = l) := by
      rintro rfl rfl
      exact touchSet_last_use hnodup
    rcases hplaced with ⟨hpass, hm⟩ | ⟨z, r, hz⟩
    · change m = l at hm
      refine ⟨hm ▸ hlen, hm.symm ▸ hnodup, ?_, fun y hy _ => hm ▸ hy, touchSet_no_ways, fun hs hw => ?_, hnormal, hstream, fun h _ => ?_, hlast,
        fun _ y hy _ _ => hm.symm ▸ hy⟩
      · exact (congrArg _ hm).trans_le (Nat.le_max_right ..)
      · simp [passesBy, hs, hw] at hpass
      · simp [passesBy, h] at hpass
    · refine ⟨hz.length_le, hz.nodup hnodup, hz.countP_le, fun y => hz.mem_old, touchSet_no_ways, fun _ hw => ⟨z, hz.mem_self, hz.line, hz.dirty hw⟩,
        hnormal, hstream, fun h hways => ⟨z, hz.mem_self, hz.line, hz.keep (by simp [marksKeep, h]; omega)⟩, hlast, fun h y => hz.mem_of_stay ?_⟩
      exact h.elim (fun h => .inl (marksKeep_ne (by omega))) (Or.imp_left fun h => marksKeep_ne (by omega))
  case errors =>
    intro s e x a st t hmem hcached hstack
    have hmet : t = s.errorsMet [(a, x, e.hard)] := cacheErrors_one hmem hcached
    have hlight (h : e.hard = false ∨ x.dirty = false) := hmet.trans (errorsMet_corrected h)
    refine ⟨fun hhard hclean => ?dropped, fun h => ?corrected, fun hhard hdirty => ?lost, fun h => ?kept⟩
    case dropped =>
      rw [hlight (.inr hclean), hhard, cached?_bumpFld _ rfl hstack]
      exact cached?_without hcached
    case corrected =>
      rw [hlight h]
      exact ⟨rfl, rfl, fld_bumpFld_32 _ (by decide) rfl st⟩
    case lost =>
      rw [hhard, errorsMet_lost hdirty hstack] at hmet
      exact ⟨s.lineLost a x, hmet, cached?_lineLost hcached hstack, codeKey_mem_lineLost, fld_lineLost,
        poisonWord_keeps State.sent (fun _ _ => rfl) _ a, poisonWord_keeps State.mem (fun _ _ => rfl) _ a,
        poisonWord_keeps State.store (fun _ _ => rfl) _ a⟩
    case kept =>
      rw [hlight h]
      exact ⟨rfl, rfl⟩

end Sys2Proof.Machine
end

section
/-! SUPPORT. Two statements about operations of a slot that fail: both leave out that a tile keeps what its mark bytes say (R260, R266). -/

namespace Sys2Proof.Machine

-- # The frame of an operation that leaves code that recomputes (R260, R266)

/-- A step program without stages: all of its code lies outside FWD and BWD. -/
def plainStep : Launch := ⟨0, 0, 0, 1, 0, 0, 0, [0], false, true, true, false, 8, 0, 0, 0, 0, [], [], none, [], [], [], 0, false⟩

/-- A tile of the launch that has read a mark byte of 1, and whose code counted as RECOMPUTE until now. -/
def recomputing : Tile := { Tile.idle with launch := some (0, 0), code := 3, marked := true }

/-- The launch runs on tile 0. -/
def recomputes : State := { State.reset with launches := [plainStep], tiles := [(0, recomputing)] }

/-- The first operation of the tile's bundle, which holds more. -/
def firstOfTwo : SlotHdr := ⟨0, .c, false, 0, true, false, false, false, false⟩

/-- The operation as it is admitted. -/
def firstAdmitted : SlotCtx :=
  ⟨0, recomputing.takes .c, recomputing.core, plainStep, guardOf recomputing.core firstOfTwo,
    (guardOf recomputing.core firstOfTwo).toNat.testBit 0, false⟩

theorem recomputes_not_fatal : recomputes.flag F.HIF_STATUS_FATAL 0 = false := by decide +kernel

theorem recomputes_admits : recomputes.openSlot firstOfTwo = .go firstAdmitted := by
  have hlaunch : recomputes.tileLaunch firstOfTwo.tile = some plainStep := by decide +kernel
  have htile : recomputes.tile firstOfTwo.tile = recomputing := by decide +kernel
  rw [State.openSlot, hlaunch, htile]
  simp [recomputes_not_fatal, recomputing, plainStep, firstOfTwo, Tile.idle, firstAdmitted]

/-- Refutes O55: its first clause lets an operation that issues change only the phase, its times and the code of its tile, but one that leaves
code that recomputes also takes back that the tile has read a mark byte of 1 (R260, R266), as `firstOfTwo` does on `recomputes`. -/
theorem not_slotFrame : ¬ Obligations.SlotFrame := by
  unfold Obligations.SlotFrame
  intro h
  obtain ⟨hbefore, -⟩ := h recomputes firstOfTwo firstAdmitted firstAdmitted.x recomputes_admits
  obtain ⟨-, -, phase, since, phaseNs, code, hclaimed⟩ := hbefore rfl
  have hactual : ((recomputes.issued firstOfTwo firstAdmitted firstAdmitted.x).tile firstOfTwo.tile).marked = false := by decide +kernel
  have hkept : ((recomputes.issued firstOfTwo firstAdmitted firstAdmitted.x).tile firstOfTwo.tile).marked = true := by rw [hclaimed]; rfl
  exact absurd hkept (by simp [hactual])

-- # A transfer that shows its tile mark bytes (R260)

/-- A transfer of 64 bytes from address 0 to tile 0, which then adds 1 to counter 0. -/
def marksTransfer : Transfer := ⟨0, 0, 0, 0, 0, false, false, 0, false, 0, 0, 64, 1, 0, 0, 0⟩

/-- An arena of context 0 whose 64 mark bytes lie at address 0. -/
def marksArena : Arena := ⟨0, 0, 0, false, false, 0, 0, 1, 64, 0, 0, 0, 0, 0, 0, [], none, 0⟩

/-- A counter at 0. -/
def zeroCounter : SyncObj := ⟨.counter, 0, [], 0, 0, 0, none, false, false, [], [], false, [], [], [], [], [], false⟩

/-- The transfer is in flight for tile 0, whose last mark byte was 1. -/
def marksRead : State :=
  ({ State.reset with
      transfers := [marksTransfer]
      arenas := [marksArena]
      objs := [(0, zeroCounter)]
      tiles := [(0, { Tile.idle with marked := true })] } : State).setFld F.QUE_CTX_SYN_IDS 0 1

/-- Whether a tile has read a mark byte of 1, after a command. -/
def markedAfter (t : Nat) : Answer → Option Bool
  | .next s => some (s.tile t).marked
  | _ => none

/-- Refutes O16: its DMA_COMPLETE clause leaves out that a transfer which has read mark bytes shows them to its tile (R260): none of the 64 that
`marksTransfer` reads on `marksRead` is 1, and so its tile's last mark is no longer 1. -/
theorem not_transfers : ¬ Obligations.Transfers := by
  unfold Obligations.Transfers
  rintro ⟨-, h⟩
  obtain ⟨hcompletes, -, -⟩ := h marksRead marksTransfer [] (by decide +kernel) (by decide +kernel)
  have hclaimed := hcompletes (by decide +kernel) _ 1 (Prod.ext rfl (by decide +kernel))
  have hactual : markedAfter 0 (exec (.dmaComplete marksTransfer.id []) marksRead) = some false := by decide +kernel
  rw [hclaimed] at hactual
  exact absurd hactual (by decide +kernel)

end Sys2Proof.Machine
end

section
/-! SUPPORT. What leaves the synchronisation objects of a context as they are (R151, R172 to R175), and what an increment does (R158 to R161). -/

namespace Sys2Proof.Machine

-- # Operations that keep the objects

/-- Two copies of different registers at one index lie apart, whatever the index. -/
theorem RegName.key_ne_of_ne {r q : RegName} (h : r ≠ q) (i : Nat) : r.key i ≠ q.key i := by
  intro hkey
  have hctor : r.ctorIdx = q.ctorIdx := by
    unfold RegName.key at hkey
    omega
  exact h (by rw [← RegName.ofNat_ctorIdx r, ← RegName.ofNat_ctorIdx q, hctor])

/-- A field of another register at the same index is not touched, whatever the index. -/
theorem fld_setFld_of_reg_ne (s : State) {f g : Field} (h : g.reg ≠ f.reg) (i v : Nat) : (s.setFld f i v).fld g i = s.fld g i :=
  fld_setFld_reg s v (RegName.key_ne_of_ne h i)

/-- Both states hold the same objects and let the context name the same ids. -/
def State.sameObjs (ctx : Nat) (s t : State) : Prop := t.objs = s.objs ∧ t.fld F.QUE_CTX_SYN_IDS ctx = s.fld F.QUE_CTX_SYN_IDS ctx

section
variable {ctx : Nat} {s t u : State}

theorem State.sameObjs.refl : s.sameObjs ctx s := ⟨rfl, rfl⟩

theorem State.sameObjs.trans (h : State.sameObjs ctx s t) (h' : State.sameObjs ctx t u) : State.sameObjs ctx s u :=
  ⟨h'.1.trans h.1, h'.2.trans h.2⟩

/-- What an id names depends on nothing else. -/
theorem State.sameObjs.named (h : State.sameObjs ctx s t) (vid : Nat) : t.named ctx vid = s.named ctx vid := by
  rw [State.named, State.named, h.1, h.2]

theorem State.sameObjs.valueOf (h : State.sameObjs ctx s t) (vid : Nat) : t.valueOf ctx vid = s.valueOf ctx vid := by
  rw [State.valueOf, State.valueOf, h.named]

theorem when_sameObjs {c : Bool} {f : State → State} (h : State.sameObjs ctx s (f s)) : State.sameObjs ctx s (s.when c f) := by
  cases c with
  | false => exact .refl
  | true => exact h

theorem each_sameObjs {α : Type} {l : List α} {f : α → State → State} (h : ∀ x ∈ l, ∀ t, State.sameObjs ctx t (f x t)) :
    State.sameObjs ctx s (s.each l f) := by
  induction l generalizing s with
  | nil => exact .refl
  | cons x rest ih =>
    obtain ⟨hx, hrest⟩ := List.forall_mem_cons.mp h
    exact (hx s).trans (ih hrest)

end

section
variable (ctx : Nat) (s : State)

theorem setFld_sameObjs {f : Field} (hf : f.reg ≠ .QUE_CTX_SYN) (v : Nat) : State.sameObjs ctx s (s.setFld f ctx v) :=
  ⟨rfl, fld_setFld_of_reg_ne s hf.symm ctx v⟩

theorem bumpFld_sameObjs {f : Field} (hf : f.reg ≠ .QUE_CTX_SYN) (v : Nat) : State.sameObjs ctx s (s.bumpFld f ctx v) :=
  setFld_sameObjs ctx s hf _

theorem devBytes_sameObjs (a : Nat) (bs : List Byte) : State.sameObjs ctx s (s.devBytes a bs) := by
  induction bs generalizing s a with
  | nil => exact .refl
  | cons b rest ih =>
    refine State.sameObjs.trans ?_ (ih (s.setDevByte a b) (a + 1))
    unfold State.setDevByte
    split <;> exact ⟨rfl, rfl⟩

theorem spaceWrite_sameObjs (space a : Nat) (bs : List Byte) : State.sameObjs ctx s (s.spaceWrite space a bs) := by
  unfold State.spaceWrite
  split
  · exact ⟨rfl, rfl⟩
  · exact devBytes_sameObjs ctx s a bs

theorem msix_sameObjs (fn vector : Nat) : State.sameObjs ctx s (s.msix fn vector) := by
  unfold State.msix
  split <;> exact ⟨rfl, rfl⟩

theorem setNring_sameObjs (r : NRing) : State.sameObjs ctx s (s.setNring ctx r) := ⟨rfl, rfl⟩

theorem nringWrite_sameObjs (e : NRec) : State.sameObjs ctx s (s.nringWrite ctx e) := by
  unfold State.nringWrite
  refine State.sameObjs.trans ?_ (when_sameObjs (msix_sameObjs ..))
  exact (((spaceWrite_sameObjs ..).trans (setFld_sameObjs _ _ (by decide) _)).trans (setFld_sameObjs _ _ (by decide) _)).trans
    (setNring_sameObjs ..)

theorem notify_sameObjs (e : NRec) : State.sameObjs ctx s (s.notify ctx e) := by
  have hlost : State.sameObjs ctx s (s.bumpFld F.SYN_NQ_STATE_LOST ctx 1) := bumpFld_sameObjs ctx s (by decide) 1
  unfold State.notify
  dsimp only
  repeat' split
  · exact hlost
  · exact nringWrite_sameObjs ctx s e
  · exact setNring_sameObjs ..
  · exact setNring_sameObjs ..
  · exact setNring_sameObjs ..
  · exact hlost

theorem traceRec_sameObjs (vid : Nat) (o : SyncObj) (event : Nat) (src : Origin) (value : Nat) :
    State.sameObjs ctx s (s.traceRec ctx vid o event src value) := when_sameObjs (notify_sameObjs ..)

/-- A protocol error is recorded in SYN_ERR and in the notification ring, and nowhere else (R174). -/
theorem protoError_sameObjs (vid code : Nat) (src : Origin) (value : Nat) : State.sameObjs ctx s (s.protoError ctx vid code src value) := by
  unfold State.protoError
  extract_lets recorded
  have hset (t : State) {f : Field} (hf : f.reg = .SYN_ERR) (v : Nat) : State.sameObjs ctx t (t.setFld f ctx v) :=
    setFld_sameObjs ctx t (by rw [hf]; decide) v
  have hrecorded : State.sameObjs ctx s recorded :=
    when_sameObjs (((((hset _ rfl _).trans (hset _ rfl _)).trans (hset _ rfl _)).trans (hset _ rfl _)).trans (hset _ rfl _))
  refine hrecorded.trans ?_
  split
  · exact notify_sameObjs ..
  · exact bumpFld_sameObjs _ _ (by decide) _

theorem releaseTile_sameObjs (t : Nat) (reached : Bool) : State.sameObjs ctx s (s.releaseTile t reached) := ⟨rfl, rfl⟩

end

-- # What an id names (R150, R151, Table 4-1)

section
variable {s : State} {ctx vid k : Nat} {o : SyncObj}

/-- The first id of an object is one that the context may name, at the object's own key. -/
theorem named_first (h : s.named ctx vid = .object k false o) :
    vid < s.fld F.QUE_CTX_SYN_IDS ctx ∧ k = 65536 * ctx + vid ∧ NMap.get? s.objs k = some o := by
  unfold State.named at h
  dsimp only at h
  repeat' split at h
  all_goals cases h
  exact ⟨by omega, rfl, by assumption⟩

/-- Only a BOUNDED has a second id. -/
theorem kind_of_named_second (h : s.named ctx vid = .object k true o) : o.kind = .bounded := by
  unfold State.named at h
  dsimp only at h
  repeat' split at h
  all_goals cases h
  assumption

theorem named_of_get? (hid : vid < s.fld F.QUE_CTX_SYN_IDS ctx) (hobj : NMap.get? s.objs (65536 * ctx + vid) = some o) :
    s.named ctx vid = .object (65536 * ctx + vid) false o := by
  simp only [State.named, hobj, if_neg (Nat.not_le_of_lt hid)]

theorem valueOf_of_named {side : Bool} (h : s.named ctx vid = .object k side o) : s.valueOf ctx vid = o.value side := by
  rw [State.valueOf, h]

end

-- # What a value that has risen brings about (R161, R170)

/-- The waits of an object that a value satisfies go; tiles that waited issue, which leaves the objects. -/
theorem wake_tiles {s : State} {ctx k : Nat} {o : SyncObj} (side : Bool) (hobj : NMap.get? s.objs k = some o)
    (htiles : ∀ w ∈ o.waiters, ∃ t, w.who = .tile t) :
    State.sameObjs ctx (s.setObj k { o with waiters := o.waiters.filter fun w => !(w.side == side && decide (w.target ≤ o.value side)) })
      (s.wake ctx k side) := by
  unfold State.wake
  rw [hobj]
  refine each_sameObjs fun w hw t => ?_
  obtain ⟨n, hn⟩ := htiles w (List.mem_filter.mp hw).1
  rw [hn]
  exact (traceRec_sameObjs ..).trans (releaseTile_sameObjs ..)

/-- An object without watches fires none. -/
theorem fireAll_unwatched {s : State} {k : Nat} {o : SyncObj} (hobj : NMap.get? s.objs k = some o) (hwatches : o.watches = [])
    (act : Later → Option Act) (later : Later) (ctx : Nat) (side : Bool) : s.fireAll act later ctx k side = s := by
  have hdue : o.due side = [] := by simp [SyncObj.due, hwatches]
  simp only [State.fireAll, hobj, hdue, List.filter_nil, State.fireList]

-- # Increments (R158, R159)

section
variable {s : State} {ctx vid k : Nat} {side : Bool} {o : SyncObj} (hnamed : s.named ctx vid = .object k side o) (hhold : o.hold = false)
  (hkind : o.kind ≠ .barrier) (herr : o.err = none)
include hnamed hhold hkind herr

/-- An increment past 2^64 − 1 of an object that takes increments comes to the protocol error OVERFLOW alone. -/
theorem applyInc_overflow {inc : Nat} (hover : 2 ^ 64 ≤ o.value side + inc) (fuel : Nat) (park : Bool) (later : Later) (src : Origin)
    (reply : IncReply) : State.applyInc fuel park later s ctx vid inc src reply =
      (s.protoError ctx vid Proto.overflow src (o.value side), .failed St.protocol (protoDetail Proto.overflow vid)) := by
  have hcode : o.incError side inc = some Proto.overflow := by rw [SyncObj.incError, if_neg hkind, if_pos hover]
  unfold State.applyInc
  simp only [hnamed, hhold, hkind, herr, hcode, Bool.false_eq_true, if_false]
  rfl

/-- An increment that is no error sets the sum, wakes the waits and fires the watches. -/
theorem applyInc_applied {inc : Nat} (hok : o.incError side inc = none) (fuel : Nat) (park : Bool) (later : Later) (src : Origin) (reply : IncReply) :
    ∃ act : Later → Option Act, State.applyInc fuel park later s ctx vid inc src reply =
      (((((s.setObj k (o.setValue side (o.value side + inc))).traceRec ctx vid (o.setValue side (o.value side + inc)) 1 src
        (o.value side + inc)).wake ctx k side).fireAll act later ctx k side), .applied (o.value side + inc)) := by
  unfold State.applyInc
  simp only [hnamed, hhold, hkind, herr, hok, Bool.false_eq_true, if_false]
  exact ⟨_, rfl⟩

end

/-- Settles O60: an increment past 2^64 − 1 leaves every object (`protoError_sameObjs`), and one of a counter that nothing watches and on which
tiles alone wait changes that counter to the sum (`wake_tiles`, `fireAll_unwatched`). -/
theorem increments : Obligations.Increments := by
  unfold Obligations.Increments
  intro s ctx vid inc k side o src reply hnamed hhold hkind herr
  refine ⟨fun hover => ?overflow, fun hfits hcounter hwatches htiles => ?applied⟩
  case overflow =>
    have hinc : s.increment ctx vid inc src reply = _ := applyInc_overflow hnamed hhold hkind herr hover ..
    have hsame := protoError_sameObjs ctx s vid Proto.overflow src (o.value side)
    rw [hinc]
    exact ⟨rfl, hsame.1, (hsame.valueOf vid).trans (valueOf_of_named hnamed)⟩
  case applied =>
    obtain rfl : side = false := by
      cases side with
      | false => rfl
      | true => exact absurd ((kind_of_named_second hnamed).symm.trans hcounter) (by decide)
    have hok : o.incError false inc = none := by simpa [SyncObj.incError, hcounter] using hfits
    obtain ⟨act, hinc⟩ := applyInc_applied hnamed hhold hkind herr hok chainLimit false [] src reply
    obtain ⟨hid, rfl, -⟩ := named_first hnamed
    generalize hv : o.value false + inc = v at hinc
    have htraced := traceRec_sameObjs ctx (s.setObj (65536 * ctx + vid) (o.setValue false v)) vid (o.setValue false v) 1 src v
    have hobj := (congrArg (NMap.get? · (65536 * ctx + vid)) htraced.1).trans (NMap.get?_set_self ..)
    have hwoken := wake_tiles (ctx := ctx) false hobj htiles
    have hleft := (congrArg (NMap.get? · (65536 * ctx + vid)) hwoken.1).trans (NMap.get?_set_self ..)
    rw [fireAll_unwatched hleft hwatches] at hinc
    rw [State.increment, hinc]
    refine ⟨rfl, valueOf_of_named (named_of_get? ?_ hleft)⟩
    rw [hwoken.2]
    exact hid.trans_eq htraced.2.symm

end Sys2Proof.Machine
end

section
/-! SUPPORT. The operations of the command window (R152 to R156, R168, R175 to R178): what each leaves where the window takes it. -/

namespace Sys2Proof.Machine

-- # The window (R151, R153)

/-- A write that the window takes runs its operation and keeps what it answers. -/
theorem synOp_takes {s : State} {fn ctx vid : Nat} (htakes : s.windowTakes fn ctx vid) (run : State → State × SynAns) :
    s.synOp fn ctx vid run = (run (s.window fn)).1.synKeep fn (run (s.window fn)).2 := by
  obtain ⟨hgo, hidle, hmine, hid⟩ := htakes
  have hbusy : s.setFld F.SYN_OP_STATUS_BUSY fn 1 = s.window fn := rfl
  simp [State.synOp, State.reaching_go hgo, hidle, hbusy, hmine, Nat.not_le_of_lt hid]

/-- A register that is one field reads as that field. -/
theorem toNat_reg_of_whole (s : State) {f : Field} (hlo : f.lo = 0) (hwidth : f.width = 64) (i : Nat) : (s.reg f.reg i).toNat = s.fld f i := by
  rw [State.fld, Field.of, bitsOf, hlo, hwidth, Nat.pow_zero, Nat.div_one, Nat.mod_eq_of_lt (BitVec.isLt _)]

/-- A function's registers show what an operation has kept, and its window is not busy. -/
def State.synShown (s : State) (fn : Nat) (x : SynOp) : State :=
  ((((s.setFld F.SYN_RESULT0_RESULT0 fn x.r0).setFld F.SYN_RESULT1_RESULT1 fn x.r1).setFld F.SYN_OP_STATUS_DETAIL fn x.detail).setFld
    F.SYN_OP_STATUS_STATUS fn x.status).setFld F.SYN_OP_STATUS_BUSY fn 0

section
variable (s : State) (fn : Nat) (x : SynOp)

theorem synShown_result0 : ((s.synShown fn x).reg .SYN_RESULT0 fn).toNat = x.r0 % 2 ^ 64 := by
  refine (toNat_reg_of_whole _ (f := F.SYN_RESULT0_RESULT0) rfl rfl fn).trans ?_
  simp (disch := decide) only [State.synShown, fld_setFld_of_reg_ne]
  exact fld_setFld_self _ _ (by decide) ..

theorem synShown_result1 : ((s.synShown fn x).reg .SYN_RESULT1 fn).toNat = x.r1 % 2 ^ 64 := by
  refine (toNat_reg_of_whole _ (f := F.SYN_RESULT1_RESULT1) rfl rfl fn).trans ?_
  simp (disch := decide) only [State.synShown, fld_setFld_of_reg_ne]
  exact fld_setFld_self _ _ (by decide) ..

theorem synShown_status : (s.synShown fn x).fld F.SYN_OP_STATUS_STATUS fn = x.status % 2 ^ 16 := by
  unfold State.synShown
  rw [fld_setFld_apart (f := F.SYN_OP_STATUS_BUSY) (g := F.SYN_OP_STATUS_STATUS) _ (by decide) (.inl (by decide)) rfl]
  exact fld_setFld_self _ _ (by decide) ..

theorem synShown_detail : (s.synShown fn x).fld F.SYN_OP_STATUS_DETAIL fn = x.detail % 2 ^ 32 := by
  unfold State.synShown
  rw [fld_setFld_apart (f := F.SYN_OP_STATUS_BUSY) (g := F.SYN_OP_STATUS_DETAIL) _ (by decide) (.inr (by decide)) rfl,
    fld_setFld_apart (f := F.SYN_OP_STATUS_STATUS) (g := F.SYN_OP_STATUS_DETAIL) _ (by decide) (.inr (by decide)) rfl]
  exact fld_setFld_self _ _ (by decide) ..

@[simp] theorem synShown_synOps : (s.synShown fn x).synOps = s.synOps := rfl

theorem synShown_idle : (s.synShown fn x).flag F.SYN_OP_STATUS_BUSY fn = false := by
  rw [State.flag, State.synShown, fld_setFld_self _ _ (by decide)]
  rfl

end

/-- The completion shows what the operation has kept (R153). -/
theorem execSynOpComplete_kept {s : State} {fn : Fin 64} {x : SynOp} (hkept : NMap.get? s.synOps fn = some x) :
    exec (.synOpComplete fn) s = .next (State.synShown { s with synOps := NMap.erase s.synOps fn } fn x) := by
  change execSynOpComplete fn s = _
  rw [execSynOpComplete, hkept]
  rfl

-- # The object that an operation acts on (R151, R176, R178)

section
variable {s : State} {ctx vid k : Nat} {side : Bool} {o : SyncObj} (hnamed : s.named ctx vid = .object k side o)
include hnamed

theorem onObject_object (src : Origin) (f : Nat → Bool → SyncObj → State × SynAns) : s.onObject ctx vid src f = f k side o := by
  rw [State.onObject, hnamed]

/-- In intervene mode a debugger's operation that ends with OK is counted and recorded. -/
theorem intervene_object (hmay : s.mayIntervene ctx) {op : Nat} {f : Nat → Bool → SyncObj → State × SynAns} {t : State} {a : SynAns}
    (hf : f k side o = (t, a)) (hok : a.status = St.ok) : s.intervene ctx vid op f = (t.intervened ctx vid op, a) := by
  obtain ⟨hmode, hscope⟩ := hmay
  simp [State.intervene, hmode, hscope, onObject_object hnamed, hf, hok]

end

-- # CREATE (R149, R154)

theorem takeIds_length (s : State) (d : Nat) (kind : ObjKind) : (s.takeIds d kind.counters).length = kind.counters := by
  cases kind <;> rfl

theorem makeObj_get? (s : State) (ctx vid : Nat) (kind : ObjKind) (die arg : Nat) (binder : Bool) :
    NMap.get? (s.makeObj ctx vid kind die arg binder).objs (65536 * ctx + vid) =
      some ⟨kind, die, s.takeIds die kind.counters, if kind = .counter then arg else 0, 0, arg, none, binder, false, [], [],
        false, [], [], [], [], [], false⟩ := NMap.get?_set_self ..

/-- CREATE of a kind whose arguments lie in their ranges, on free ids of a die that has the counters, makes the object. -/
theorem synCreate_makes {s : State} {fn ctx vid : Nat} {kind : ObjKind} {die : Nat} (hkind : kindOf (s.synArg fn 0 % 4) = some kind)
    (hrsv : s.synArg fn 0 < 32) (harg : kind.argOk vid (s.fld F.QUE_CTX_SYN_IDS ctx) (s.synArg fn 1) = true) (hfree : s.mapped ctx vid = false)
    (hpair : kind = .bounded → s.mapped ctx (vid + 1) = false)
    (hdie : (if (s.synArg fn 0).testBit 4 then s.bestDie else bitsOf (s.synArg fn 0) 2 2) = die)
    (hroom : kind.counters ≤ s.freeCounters die) :
    s.synCreate fn ctx vid = (s.makeObj ctx vid kind die (s.synArg fn 1) false,
      SynAns.one ((s.takeIds die kind.counters).headD 0)) := by
  have hvalid : ¬ (32 ≤ s.synArg fn 0 ∨ kind.argOk vid (s.fld F.QUE_CTX_SYN_IDS ctx) (s.synArg fn 1) = false) := by
    simp [harg, hrsv]
  have hunmapped : ¬ (s.mapped ctx vid = true ∨ (kind = .bounded ∧ s.mapped ctx (vid + 1) = true)) := by
    rw [hfree]
    rintro (h | ⟨hbounded, hmapped⟩)
    · cases h
    · rw [hpair hbounded] at hmapped
      cases hmapped
  unfold State.synCreate
  dsimp only
  rw [hkind]
  dsimp only
  rw [if_neg hvalid, if_neg hunmapped, hdie, if_neg (Nat.not_lt_of_le hroom), makeObj_get?]

-- # WATCH (R168, R169)

theorem State.when_decide (s : State) (p : Prop) [Decidable p] (f : State → State) : s.when (decide p) f = if p then f s else s := by
  simp [State.when]

/-- WATCH of a well formed watch adds it, and fires it where its threshold has been reached. -/
theorem synWatch_adds {s : State} {ctx vid k : Nat} {side : Bool} {o : SyncObj} {a0 a1 a2 : Nat} {w : Watch} (hw : watchOf vid side a0 a1 a2 = w)
    (hrsv : bitsOf a1 3 13 = 0) (hnew : (o.watches.any fun x => x.vid == vid && x.tag == w.tag) = false)
    (hacts : w.notify = true ∨ w.signal = true) (hperiod : w.repeats = true → w.period ≠ 0) (htarget : s.badTarget ctx w = false)
    (hroom : s.watchesLeft ctx ≠ 0) (hctx : ctx < 1048576) :
    let t := (s.setObj k { o with watches := o.watches ++ [w] }).setFld F.SYN_CTX_USE_WATCHES ctx (s.fld F.SYN_CTX_USE_WATCHES ctx + 1)
    let t := t.setFld F.SYN_WATCH_FREE_FREE 0 (s.fld F.SYN_WATCH_FREE_FREE 0 - 1)
    s.synWatch ctx vid k side o a0 a1 a2 =
      (if w.thresh ≤ o.value side then t.fire (firstAct ctx []) ctx k (o.value side) w else t, SynAns.done) := by
  have hbad : ¬ (bitsOf a1 3 13 ≠ 0 ∨ (o.watches.any fun x => x.vid == vid && x.tag == w.tag) = true ∨ (!w.notify && !w.signal) = true ∨
      (w.repeats && w.period == 0) = true ∨ s.badTarget ctx w = true) := by
    have hidle : (!w.notify && !w.signal) = false := by rcases hacts with h | h <;> simp [h]
    have hstill : (w.repeats && w.period == 0) = false := by
      cases hrep : w.repeats with
      | false => rfl
      | true => simpa using hperiod hrep
    simp [hrsv, hnew, hidle, hstill, htarget]
  unfold State.synWatch
  dsimp only
  have hfree (x : SyncObj) (n : Nat) :
      ((s.setObj k x).setFld F.SYN_CTX_USE_WATCHES ctx n).fld F.SYN_WATCH_FREE_FREE 0 = s.fld F.SYN_WATCH_FREE_FREE 0 :=
    fld_setFld_reg (s.setObj k x) n (RegName.key_ne (by decide) hctx (by decide))
  rw [hw, if_neg hbad, if_neg hroom, hfree, State.when_decide]
  rfl

-- # What each operation leaves

section
variable {s : State} {fn : Fin 64} {ctx : Fin 256} {vid : Fin 65536} (rsv : Bool) (htakes : s.windowTakes fn ctx vid)
include htakes

theorem execCreate_makes {kind : ObjKind} {die : Nat} (hkind : kindOf ((s.window fn).synArg fn 0 % 4) = some kind)
    (hrsv : (s.window fn).synArg fn 0 < 32)
    (harg : kind.argOk vid ((s.window fn).fld F.QUE_CTX_SYN_IDS ctx) ((s.window fn).synArg fn 1) = true)
    (hfree : (s.window fn).mapped ctx vid = false) (hpair : kind = .bounded → (s.window fn).mapped ctx (vid + 1) = false)
    (hdie : (if ((s.window fn).synArg fn 0).testBit 4 then (s.window fn).bestDie else bitsOf ((s.window fn).synArg fn 0) 2 2) = die)
    (hroom : kind.counters ≤ (s.window fn).freeCounters die) : exec (.create fn ctx vid rsv) s =
      .next (((s.window fn).makeObj ctx vid kind die ((s.window fn).synArg fn 1) false).synKeep fn
        (SynAns.one (((s.window fn).takeIds die kind.counters).headD 0))) := by
  change Host.Outcome.next (State.synOp _ _ _ _ _) = _
  rw [synOp_takes htakes, synCreate_makes hkind hrsv harg hfree hpair hdie hroom]

variable {k : Nat} {side : Bool} {o : SyncObj} (hnamed : (s.window fn).named ctx vid = .object k side o)
include hnamed

/-- An operation on an id that names an object leaves and answers what its effect on that object does. -/
theorem synOp_object {src : Origin} {f : State → Nat → Bool → SyncObj → State × SynAns} {t : State} {a : SynAns}
    (hf : f (s.window fn) k side o = (t, a)) : s.synOp fn ctx vid (fun b => b.onObject ctx vid src (f b)) = t.synKeep fn a := by
  rw [synOp_takes htakes, onObject_object hnamed, hf]

theorem execDestroy_unmakes (hside : side = false) (hbinder : o.binder = false) :
    exec (.destroy fn ctx vid rsv) s = .next (((s.window fn).unmakeObj k St.protocol true).synKeep fn SynAns.done) := by
  refine congrArg Host.Outcome.next (synOp_object htakes hnamed ?_)
  rw [hside, hbinder]
  rfl

theorem execRead_reads : exec (.read fn ctx vid rsv) s =
    .next ((s.window fn).synKeep fn ⟨St.ok, some 0, some (o.value side), some (o.stateWord side)⟩) :=
  congrArg Host.Outcome.next (synOp_object htakes hnamed rfl)

/-- WATCH leaves and answers what `State.synWatch` does, with the arguments that stand in the window. -/
theorem execWatch_answers {t : State} {a : SynAns} (hwatch : (s.window fn).synWatch ctx vid k side o ((s.window fn).synArg fn 0)
      ((s.window fn).synArg fn 1) ((s.window fn).synArg fn 2) = (t, a)) :
    exec (.watch fn ctx vid rsv) s = .next (t.synKeep fn a) :=
  congrArg Host.Outcome.next (synOp_object htakes hnamed hwatch)

theorem execUnwatch_drops {w : Watch}
    (hfind : (o.watches.find? fun x => x.vid == vid.val && x.tag == bitsOf ((s.window fn).synArg fn 1) 32 32) = some w) :
    exec (.unwatch fn ctx vid rsv) s = .next (((s.window fn).dropWatch ctx k w).synKeep fn SynAns.done) := by
  refine congrArg Host.Outcome.next (synOp_object htakes hnamed ?_)
  rw [hfind]

theorem execTrace_sets (hobserve : (s.window fn).flag F.SYN_DBG_CTL_OBSERVE ctx = true) (harg : (s.window fn).synArg fn 0 < 2) :
    exec (.trace fn ctx vid rsv) s =
      .next (((s.window fn).setObj k { o with trace := (s.window fn).synArg fn 0 == 1 }).synKeep fn SynAns.done) := by
  change Host.Outcome.next (State.synOp _ _ _ _ _) = _
  rw [synOp_takes htakes, hobserve, if_neg (by decide), if_neg (Nat.not_le_of_lt harg), onObject_object hnamed]

variable (hmay : (s.window fn).mayIntervene ctx)
include hmay

/-- A debugger's operation that ends with OK leaves its effect, counted and recorded. -/
theorem synOp_intervene {op : Nat} {f : State → Nat → Bool → SyncObj → State × SynAns} {t : State} {a : SynAns}
    (hf : f (s.window fn) k side o = (t, a)) (hok : a.status = St.ok) :
    s.synOp fn ctx vid (fun b => b.intervene ctx vid op (f b)) = (t.intervened ctx vid op).synKeep fn a := by
  rw [synOp_takes htakes, intervene_object hnamed hmay hf hok]

theorem execDbgSet_sets : exec (.dbgSet fn ctx vid rsv) s =
    .next (((((s.window fn).setObj k (o.setValue side ((s.window fn).synArg fn 0))).settle ctx k side).intervened ctx vid 0x10).synKeep fn
      (SynAns.one (o.value side))) :=
  congrArg Host.Outcome.next (synOp_intervene htakes hnamed hmay rfl rfl)

theorem execDbgRelease_releases : exec (.dbgRelease fn ctx vid rsv) s =
    .next ((((s.window fn).releaseAll k o).intervened ctx vid 0x11).synKeep fn (SynAns.one o.everyone.length)) :=
  congrArg Host.Outcome.next (synOp_intervene htakes hnamed hmay rfl rfl)

theorem execDbgEpoch_opens (hkind : o.kind = .barrier) : exec (.dbgEpoch fn ctx vid rsv) s =
    .next ((((s.window fn).openEpoch ctx k o ((s.window fn).synArg fn 0)).intervened ctx vid 0x12).synKeep fn SynAns.done) :=
  congrArg Host.Outcome.next (synOp_intervene htakes hnamed hmay (if_neg (not_not_intro hkind)) rfl)

theorem execDbgClear_clears : exec (.dbgClear fn ctx vid rsv) s =
    .next ((((s.window fn).setObj k { o with err := none }).intervened ctx vid 0x13).synKeep fn SynAns.done) :=
  congrArg Host.Outcome.next (synOp_intervene htakes hnamed hmay rfl rfl)

theorem execDbgHold_holds (harg : (s.window fn).synArg fn 0 = 1) : exec (.dbgHold fn ctx vid rsv) s =
    .next ((((s.window fn).setObj k { o with hold := true }).intervened ctx vid 0x14).synKeep fn (SynAns.one 0)) := by
  refine congrArg Host.Outcome.next (synOp_intervene htakes hnamed hmay ?_ rfl)
  rw [harg]
  rfl

theorem execDbgHold_applies (harg : (s.window fn).synArg fn 0 = 0) :
    let r := ((s.window fn).setObj k { o with hold := false, heldIncs := [], stalled := [] }).applyHeld ctx o.heldIncs
    exec (.dbgHold fn ctx vid rsv) s = .next (((r.1.applyHeld ctx o.stalled).1.intervened ctx vid 0x14).synKeep fn (SynAns.one r.2)) := by
  refine congrArg Host.Outcome.next (synOp_intervene htakes hnamed hmay ?_ rfl)
  rw [harg]
  rfl

end

/-- Settles O26: each operation leaves its effect on the object of its id and keeps its answer (`synOp_object`, `synOp_intervene`), which the
completion shows (`execSynOpComplete_kept`). -/
theorem syncWindow : Obligations.SyncWindow := by
  unfold Obligations.SyncWindow
  refine ⟨fun s fn ctx vid rsv htakes => ⟨?creates, fun k side o hnamed => ⟨?destroys, ?reads, ?watches, ?unwatches, ?traces,
    fun hmay => ⟨?sets, ?releases, ?opens, ?clears, ?holds, ?applies⟩⟩⟩, fun s fn x hkept => ?shows⟩
  case creates =>
    intro kind hkind hrsv harg hfree hpair die hroom
    exact ⟨_, _, execCreate_makes rsv htakes hkind hrsv harg hfree hpair rfl hroom, makeObj_get? .., rfl, rfl, rfl, rfl, rfl, takeIds_length ..,
      rfl, rfl, rfl⟩
  case destroys => exact execDestroy_unmakes rsv htakes hnamed
  case reads => exact execRead_reads rsv htakes hnamed
  case watches =>
    intro w hrsv hnew hacts hperiod htarget hroom
    exact execWatch_answers rsv htakes hnamed (synWatch_adds rfl hrsv hnew hacts hperiod htarget hroom (by omega))
  case unwatches => exact fun w hfind => execUnwatch_drops rsv htakes hnamed hfind
  case traces => exact execTrace_sets rsv htakes hnamed
  case sets => exact execDbgSet_sets rsv htakes hnamed hmay
  case releases => exact execDbgRelease_releases rsv htakes hnamed hmay
  case opens => exact execDbgEpoch_opens rsv htakes hnamed hmay
  case clears => exact execDbgClear_clears rsv htakes hnamed hmay
  case holds => exact execDbgHold_holds rsv htakes hnamed hmay
  case applies => exact execDbgHold_applies rsv htakes hnamed hmay
  case shows =>
    exact ⟨_, execSynOpComplete_kept hkept, synShown_result0 .., synShown_result1 .., synShown_status .., synShown_detail .., synShown_idle ..,
      (congrArg (NMap.get? · _) (synShown_synOps ..)).trans (NMap.get?_erase_self ..)⟩

end Sys2Proof.Machine
end

section
/-! SUPPORT. A core's increment, the debugger's control and the notification ring (R158, R172, R173, R176). -/

namespace Sys2Proof.Machine

theorem Half.part_whole (v : Word) : Half.whole.part v = v := BitVec.and_allOnes

/-- An increment of a core that is applied is reported with the value after it (Table 4-4). -/
theorem execCoreIncrement_applied {s t : State} {core : Fin 21} {ctx : Fin 256} {vid : Fin 65536} {inc : BitVec 64} {v : Nat}
    (hinc : s.incrementOnce ctx vid inc.toNat ⟨3, core⟩ (.core core) = (t, .applied v)) :
    exec (.coreIncrement core ctx vid inc) s = .next (t.emit (.coreReply core St.ok 0 (some v))) := by
  change execCoreIncrement core ctx vid inc s = _
  rw [execCoreIncrement, hinc]
  rfl

/-- A write to SYN_DBG_CTL that leaves INTERVENE clear, or that the open scope allows, is stored. -/
theorem State.writeDbgCtl_stored {s : State} {fn ctx : Nat} (hgo : s.reach fn .SYN_DBG_CTL ctx = .go) {v : Word}
    (hallowed : F.SYN_DBG_CTL_INTERVENE.of v = 0 ∨ s.flag F.SYN_DBG_STATUS_SCOPE ctx = true) :
    s.writeDbgCtl fn ctx .whole v = s.writeReg .SYN_DBG_CTL ctx .whole v := by
  have hpass : (F.SYN_DBG_CTL_INTERVENE.hit .whole v && !s.flag F.SYN_DBG_STATUS_SCOPE ctx) = false := by
    rcases hallowed with h | h <;> simp [Field.hit, Half.part_whole, h]
  rw [State.writeDbgCtl, State.reaching_go hgo, hpass]
  rfl

/-- A write that enables a notification ring in the host's memory starts it afresh: its LOST record comes first, then the records held. -/
theorem State.writeNqCfg_enables {s : State} {fn ctx : Nat} {v : Word} (hgo : s.reach fn .SYN_NQ_CFG ctx = .go)
    (hoff : s.fld F.SYN_NQ_CFG_EN ctx = 0) :
    let new := RegName.SYN_NQ_CFG.written .whole (s.reg .SYN_NQ_CFG ctx) v
    6 ≤ F.SYN_NQ_CFG_LOG2.of new → F.SYN_NQ_CFG_LOG2.of new ≤ 16 → F.SYN_NQ_CFG_EN.of new = 1 → s.fld F.SYN_NQ_BASE_SPACE ctx = 0 →
    let t := (s.setReg .SYN_NQ_CFG ctx new).setFld F.SYN_NQ_HEAD_HEAD ctx 0
    let t := (((t.setFld F.SYN_NQ_STATE_TAIL ctx 0).setFld F.SYN_NQ_STATE_PHASE ctx 1).setNring ctx ⟨0, 1, []⟩).nringFlush 1 ctx
    let held := (s.nring ctx).held
    s.writeNqCfg fn ctx .whole v = (t.setNring ctx { t.nring ctx with held := held }).nringFlush held.length ctx := by
  intro new hlow hhigh hsets hhost
  have hold : ¬ F.SYN_NQ_CFG_EN.of (s.reg .SYN_NQ_CFG ctx) = 1 := by
    change ¬ s.fld F.SYN_NQ_CFG_EN ctx = 1
    omega
  rw [State.writeNqCfg, State.reaching_go hgo]
  simp only [hold, hlow, hhigh, hsets, hhost, new, if_false]
  rfl

/-- A valid write to SYN_NQ_HEAD frees the slots that it passes, which held records and LOST then take. -/
theorem State.writeNqHead_frees {s : State} {fn ctx head : Nat} (hgo : s.reach fn .SYN_NQ_HEAD ctx = .go) :
    let n := consumed (s.nringSize ctx) (s.fld F.SYN_NQ_HEAD_HEAD ctx) head
    head < s.nringSize ctx → n ≤ (s.nring ctx).used →
    let t := (s.setFld F.SYN_NQ_HEAD_HEAD ctx head).setNring ctx { s.nring ctx with used := (s.nring ctx).used - n }
    s.writeNqHead fn ctx head = if s.flag F.SYN_NQ_CFG_EN ctx then t.nringFlush ((s.nring ctx).held.length + 1) ctx else t := by
  intro n hsize hused t
  have hvalid : ¬ (s.nringSize ctx ≤ head ∨ (s.nring ctx).used < n) := by omega
  have henabled : t.flag F.SYN_NQ_CFG_EN ctx = s.flag F.SYN_NQ_CFG_EN ctx :=
    congrArg (· != 0) (fld_setFld_of_reg_ne s (f := F.SYN_NQ_HEAD_HEAD) (g := F.SYN_NQ_CFG_EN) (by decide) ctx head)
  rw [State.writeNqHead, State.reaching_go hgo]
  change (if s.nringSize ctx ≤ head ∨ (s.nring ctx).used < n then _ else t.when (t.flag F.SYN_NQ_CFG_EN ctx) _) = _
  rw [if_neg hvalid, henabled]
  rfl

/-- Settles O27: an applied increment is reported (`execCoreIncrement_applied`), and each valid write passes the checks of its register
(`State.writeDbgCtl_stored`, `State.writeNqCfg_enables`, `State.writeNqHead_frees`). -/
theorem syncControl : Obligations.SyncControl := by
  unfold Obligations.SyncControl
  refine ⟨fun s core ctx vid inc t v hinc => execCoreIncrement_applied hinc, ?control, ?enables, ?head⟩
  case control =>
    intro s fn ctx v hgo hallowed
    exact congrArg Host.Outcome.next (State.writeDbgCtl_stored hgo hallowed)
  case enables =>
    intro s fn ctx v hgo hoff new hlow hhigh hsets hhost
    exact congrArg Host.Outcome.next (State.writeNqCfg_enables hgo hoff hlow hhigh hsets hhost)
  case head =>
    intro s fn ctx head hgo n hsize hused
    exact congrArg Host.Outcome.next (State.writeNqHead_frees hgo hsize hused)

end Sys2Proof.Machine
end

section
/-! SUPPORT. The matrix slot (Tables 3-6 to 3-9, R105, R111 to R115, R201 to R205, R210 to R212): what a sweep over accumulator cells leaves, what
an admitted product, run or move answers, and how a product's flight ends. -/

namespace Sys2Proof.Machine

-- # Sweeps

section
variable {α β : Type} {n : Nat} {f : Nat → α → α} {g : α → β}

theorem foldRange_succ (n : Nat) (f : Nat → α → α) (a : α) : foldRange (n + 1) f a = f n (foldRange n f a) := by
  simp [foldRange, List.range_succ]

/-- What no step changes stays. -/
theorem foldRange_keeps (hkeep : ∀ k, k < n → ∀ a, g (f k a) = g a) (a : α) : g (foldRange n f a) = g a := by
  induction n with
  | zero => rfl
  | succ n ih => rw [foldRange_succ, hkeep n (Nat.lt_succ_self n), ih fun k hk => hkeep k (Nat.lt_succ_of_lt hk)]

/-- What one step settles and no other changes is as that step left it. -/
theorem foldRange_at {k : Nat} (hk : k < n) {v : β} (hset : ∀ a, g (f k a) = v) (hkeep : ∀ l, l < n → l ≠ k → ∀ a, g (f l a) = g a) (a : α) :
    g (foldRange n f a) = v := by
  induction n with
  | zero => cases hk
  | succ n ih =>
    rw [foldRange_succ]
    rcases Nat.lt_succ_iff_lt_or_eq.mp hk with hbefore | rfl
    · rw [hkeep n (Nat.lt_succ_self n) (Nat.ne_of_gt hbefore), ih hbefore fun l hl => hkeep l (Nat.lt_succ_of_lt hl)]
    · exact hset _

end

/-- A table of `m` rows and `n` columns as the instructions of the array hold it while they run, and what it reads outside. -/
def tableAt {α : Type} (m n : Nat) (f : Nat → Nat → α) (outside : α) (i j : Nat) : α :=
  (((List.range m).map fun i => (List.range n).map fun j => f i j).getD i []).getD j outside

theorem tableAt_eq {α : Type} {m n i j : Nat} (hi : i < m) (hj : j < n) (f : Nat → Nat → α) (outside : α) : tableAt m n f outside i j = f i j := by
  simp [tableAt, List.getD_eq_getElem?_getD, hi, hj]

-- # Accumulator cells (R180)

theorem TileCore.cell_mod (core : TileCore) (set : Bool) (row col : Nat) : core.cell set row col % 2 ^ 32 = core.cell set row col :=
  Nat.mod_eq_of_lt (BitVec.isLt _)

theorem TileCore.cell_setCell_self (core : TileCore) (set : Bool) (row col v : Nat) : (core.setCell set row col v).cell set row col = v % 2 ^ 32 := by
  simp [TileCore.cell, TileCore.setCell]

section
variable {core : TileCore} {set set' : Bool} {m n i j row col : Nat}

/-- A write to another place leaves a cell. -/
theorem TileCore.cell_setCell_other (v : Nat) (hrow : row < 64) (hcol : col < 64) (hi : i < 64) (hj : j < 64)
    (hother : set' ≠ set ∨ i ≠ row ∨ j ≠ col) : (core.setCell set row col v).cell set' i j = core.cell set' i j := by
  rw [TileCore.cell_setCell _ v hrow hcol hi hj, if_neg]
  rintro ⟨hset, hi, hj⟩
  exact hother.elim (· hset) (Or.elim · (· hi) (· hj))

/-- A block write is a sweep of cell writes: what none of them changes stays. -/
theorem TileCore.setBlock_keeps {β : Type} {g : TileCore → β} {f : Nat → Nat → Nat}
    (hkeep : ∀ i, i < m → ∀ j, j < n → ∀ c : TileCore, g (c.setCell set i j (f i j)) = g c) : g (core.setBlock set m n f) = g core :=
  foldRange_keeps (fun i hi => foldRange_keeps (hkeep i hi)) core

/-- Each cell of a block takes its own value. -/
theorem TileCore.cell_setBlock (hm : m ≤ 64) (hn : n ≤ 64) (hi : i < m) (hj : j < n) (f : Nat → Nat → Nat) :
    (core.setBlock set m n f).cell set i j = f i j % 2 ^ 32 := by
  have hi64 : i < 64 := Nat.lt_of_lt_of_le hi hm
  have hj64 : j < 64 := Nat.lt_of_lt_of_le hj hn
  refine foldRange_at (g := fun c : TileCore => c.cell set i j) hi (foldRange_at (g := fun c : TileCore => c.cell set i j) hj ?cell ?column) ?row core
  case cell => exact fun c => c.cell_setCell_self set i j _
  case column =>
    exact fun l hl hne c => TileCore.cell_setCell_other _ hi64 (Nat.lt_of_lt_of_le hl hn) hi64 hj64 (.inr (.inr hne.symm))
  case row =>
    exact fun k hk hne => foldRange_keeps (g := fun c : TileCore => c.cell set i j) fun l hl c =>
      TileCore.cell_setCell_other _ (Nat.lt_of_lt_of_le hk hm) (Nat.lt_of_lt_of_le hl hn) hi64 hj64 (.inr (.inl hne.symm))

/-- A cell of the other set, or outside the block, stays. -/
theorem TileCore.cell_setBlock_outside (hm : m ≤ 64) (hn : n ≤ 64) (hi : i < 64) (hj : j < 64) (hout : set' ≠ set ∨ m ≤ i ∨ n ≤ j)
    (f : Nat → Nat → Nat) : (core.setBlock set m n f).cell set' i j = core.cell set' i j := by
  refine TileCore.setBlock_keeps (g := (·.cell set' i j)) fun k hk l hl c =>
    TileCore.cell_setCell_other _ (Nat.lt_of_lt_of_le hk hm) (Nat.lt_of_lt_of_le hl hn) hi hj ?_
  exact hout.imp_right (Or.imp (fun h => Nat.ne_of_gt (Nat.lt_of_lt_of_le hk h)) fun h => Nat.ne_of_gt (Nat.lt_of_lt_of_le hl h))

theorem TileCore.onlyBlock_setBlock (hm : m ≤ 64) (hn : n ≤ 64) (f : Nat → Nat → Nat) : TileCore.onlyBlock core (core.setBlock set m n f) set m n :=
  ⟨TileCore.setBlock_keeps (g := (·.s)) fun _ _ _ _ _ => rfl, TileCore.setBlock_keeps (g := (·.v)) fun _ _ _ _ _ => rfl,
    TileCore.setBlock_keeps (g := (·.p)) fun _ _ _ _ _ => rfl, TileCore.setBlock_keeps (g := (·.seed)) fun _ _ _ _ _ => rfl,
    fun _ _ _ hi hj hout => TileCore.cell_setBlock_outside hm hn hi hj hout f⟩

end

-- # Shapes and checks (R111 to R113, R123)

theorem shapeOf_le {c : Fin 4} (hc : c ≠ 3) : shapeOf c ≤ 64 := by
  revert c
  decide

/-- The shape code 3 is reserved (Table 3-7). -/
theorem not_reservedShape {m n : Fin 4} (hm : m ≠ 3) (hn : n ≠ 3) : ¬ (m.val = 3 ∨ n.val = 3) :=
  fun h => h.elim (fun h => hm (Fin.ext h)) fun h => hn (Fin.ext h)

theorem shapes_of_mmaFields {her : Bool} {o : MmaOps} (hfields : mmaFields her o = true) : shapeOf o.msh ≤ 64 ∧ shapeOf o.nsh ≤ 64 := by
  simp only [mmaFields, Bool.and_eq_true, bne_iff_ne] at hfields
  obtain ⟨⟨⟨⟨hm, hn⟩, -⟩, -⟩, -⟩ := hfields
  exact ⟨shapeOf_le fun h => hm (congrArg Fin.val h), shapeOf_le fun h => hn (congrArg Fin.val h)⟩

section
variable {s : State} {h : SlotHdr} {c : SlotCtx} {o : MmaOps} {wide : Bool}

/-- A product whose checks let it issue runs over its cells. -/
theorem mmaBody_of_canMultiply (hcan : s.canMultiply c o wide) (ok : MmaRun → SlotRes) : s.mmaBody c o ok wide = ok (c.mmaRun o) := by
  obtain ⟨-, hpos, hmax, hholeA, hholeB, hfreeA, hfreeB, hset, hother⟩ := hcan
  have hk : ¬ ((c.mmaRun o).k = 0 ∨ 65536 < (c.mmaRun o).k) := by omega
  have hidle : (c.x.setBusy o.acc || (wide && c.x.setBusy (!o.acc))) = false := by
    cases wide with
    | false => simp [hset]
    | true => simp [hset, hother rfl]
  simp [State.mmaBody, State.readCheck, hk, hholeA, hholeB, hfreeA, hfreeB, hidle]

-- # MMA (R191, R199 to R202)

/-- The registers that an MMA leaves. -/
def State.mmaCore (s : State) (c : SlotCtx) (o : MmaOps) : TileCore :=
  c.x.core.setBlock o.acc (shapeOf o.msh) (shapeOf o.nsh) fun i j =>
    (tableAt (shapeOf o.msh) (shapeOf o.nsh) (s.mmaCells c o (c.mmaRun o)) (0, none) i j).1

theorem execMma_issues (hopen : s.opens h c) (hslot : h.slot = .m) (hmay : c.mayWrite (keyA o.acc)) (hcan : s.canMultiply c o false) :
    ∃ entry, exec (.mma h o) s = .next (s.issued h c
      (({ c.x with core := s.mmaCore c o, run := none } : Tile).gathers [keyA o.acc] [.mflight ⟨[o.acc], entry⟩])) := by
  have hfields : ¬ (!mmaFields c.her o) = true := by simp [hcan.1]
  have hon : ¬ (!c.on) = true := by simp [hopen.2]
  exact ⟨_, runSlot_issues hopen.1 (beq_iff_eq.mpr hslot) ((if_neg hfields).trans ((if_neg hon).trans (mmaBody_of_canMultiply hcan _)))
    (mayWrite_one hmay)⟩

theorem mmaCore_cell (hfields : mmaFields c.her o = true) {i j : Nat} (hi : i < shapeOf o.msh) (hj : j < shapeOf o.nsh) :
    (s.mmaCore c o).cell o.acc i j = (s.mmaCells c o (c.mmaRun o) i j).1 % 2 ^ 32 := by
  obtain ⟨hm, hn⟩ := shapes_of_mmaFields hfields
  rw [State.mmaCore, TileCore.cell_setBlock hm hn hi hj, tableAt_eq hi hj]

-- # MMAX and MMIN (R203 to R206)

/-- The open run that an MMAX or MMIN goes on with, if there is one (R203). -/
def SlotCtx.goingRun (c : SlotCtx) (o : MmaOps) (isMax : Bool) : Option MaxRun :=
  c.x.run.filter fun u => u.isMax == isMax && u.acc == o.acc && u.msh == o.msh.val && u.nsh == o.nsh.val

/-- The winner of a cell, and the k that raised invalid in it. -/
def State.winnerCell (s : State) (c : SlotCtx) (o : MmaOps) (isMax : Bool) (i j : Nat) : Winner × Option Nat :=
  winnerOf isMax (o.fmta.val == 0xB) c.her (s.productAt c (c.mmaRun o) i j) (c.mmaRun o).k
    (match c.goingRun o isMax with | some u => u.ksum | none => 0)
    ⟨c.src.cell o.acc i j, c.src.cell (!o.acc) i j, (c.goingRun o isMax).isSome⟩

theorem winnerCell_fst (isMax : Bool) (i j : Nat) : (s.winnerCell c o isMax i j).1 = s.winnerAt c o isMax i j := by
  rw [State.winnerCell, State.winnerAt, ← SlotCtx.goingRun]
  cases c.goingRun o isMax <;> rfl

/-- The registers that an MMAX or MMIN leaves. -/
def State.maxCore (s : State) (c : SlotCtx) (o : MmaOps) (isMax : Bool) : TileCore :=
  let won := tableAt (shapeOf o.msh) (shapeOf o.nsh) (s.winnerCell c o isMax) (⟨0, 0, false⟩, none)
  (c.x.core.setBlock o.acc (shapeOf o.msh) (shapeOf o.nsh) fun i j => (won i j).1.bits).setBlock (!o.acc) (shapeOf o.msh) (shapeOf o.nsh)
    fun i j => (won i j).1.index

theorem maxOp_issues (hopen : s.opens h c) (hslot : h.slot = .m) (hmay : c.mayWrite (keyA o.acc)) (hcan : s.canMultiply c o true)
    (hz : o.z = false) (hmain : c.x.body = none) (hmayOther : c.mayWrite (keyA (!o.acc))) (isMax : Bool) (opcode : Nat) :
    ∃ run entry, maxOp isMax opcode h o s = .next (s.issued h c (({ c.x with core := s.maxCore c o isMax, run := some run } : Tile).gathers
      [keyA o.acc, keyA (!o.acc)] [.mflight ⟨[o.acc, !o.acc], entry⟩])) := by
  have hfields : ¬ (!mmaFields c.her o || o.z || c.x.body.isSome) = true := by simp [hcan.1, hz, hmain]
  have hon : ¬ (!c.on) = true := by simp [hopen.2]
  exact ⟨_, _, runSlot_issues hopen.1 (beq_iff_eq.mpr hslot) ((if_neg hfields).trans ((if_neg hon).trans (mmaBody_of_canMultiply hcan _)))
    (List.forall_mem_cons.mpr ⟨hmay, mayWrite_one hmayOther⟩)⟩

/-- What a write of a cell leaves, such as the other files of registers, stays. -/
theorem maxCore_keeps {β : Type} {g : TileCore → β} (hkeep : ∀ (core : TileCore) set i j v, g (core.setCell set i j v) = g core) (isMax : Bool) :
    g (s.maxCore c o isMax) = g c.x.core :=
  (TileCore.setBlock_keeps fun _ _ _ _ core => hkeep core ..).trans (TileCore.setBlock_keeps fun _ _ _ _ core => hkeep core ..)

/-- The winning values stand in set ACC and their indices in the other set (R205); all else stays. -/
theorem maxCore_winners (hfields : mmaFields c.her o = true) (isMax : Bool) :
    let core := s.maxCore c o isMax
    core.s = c.x.core.s ∧ core.v = c.x.core.v ∧ core.p = c.x.core.p ∧
    (∀ set i j, i < 64 → j < 64 → shapeOf o.msh ≤ i ∨ shapeOf o.nsh ≤ j → core.cell set i j = c.x.core.cell set i j) ∧
    ∀ i j, i < shapeOf o.msh → j < shapeOf o.nsh → core.cell o.acc i j = (s.winnerAt c o isMax i j).bits % 2 ^ 32 ∧
      core.cell (!o.acc) i j = (s.winnerAt c o isMax i j).index % 2 ^ 32 := by
  obtain ⟨hm, hn⟩ := shapes_of_mmaFields hfields
  have hsets : o.acc ≠ !o.acc := by simp
  refine ⟨maxCore_keeps (fun _ _ _ _ _ => rfl) isMax, maxCore_keeps (fun _ _ _ _ _ => rfl) isMax, maxCore_keeps (fun _ _ _ _ _ => rfl) isMax,
    fun set i j hi hj hout => ?outside, fun i j hi hj => ?inside⟩
  case outside => rw [State.maxCore, TileCore.cell_setBlock_outside hm hn hi hj (.inr hout), TileCore.cell_setBlock_outside hm hn hi hj (.inr hout)]
  case inside =>
    rw [State.maxCore, TileCore.cell_setBlock_outside hm hn (Nat.lt_of_lt_of_le hi hm) (Nat.lt_of_lt_of_le hj hn) (.inl hsets),
      TileCore.cell_setBlock hm hn hi hj, TileCore.cell_setBlock hm hn hi hj, tableAt_eq hi hj, winnerCell_fst]
    exact ⟨rfl, rfl⟩

end

-- # The end of a flight (R201, R202, R239)

/-- A tile keeps its launch when its flights change. -/
theorem tileLaunch_setTile_flights (s : State) (t : Nat) (rest : List MFlight) :
    (s.setTile t { s.tile t with flights := rest }).tileLaunch t = s.tileLaunch t := by
  have htile : (s.setTile t { s.tile t with flights := rest }).tile t = { s.tile t with flights := rest } := NMap.getD_set_self ..
  rw [State.tileLaunch, htile]
  rfl

theorem flightDone_eq {s : State} {t : Nat} {l : Launch} (hlaunch : s.tileLaunch t = some l) (acc : Bool) (sets : List Bool) (e : Option NumEntry) :
    s.flightDone t ⟨acc :: sets, e⟩ = e.elim s fun x => (s.setInv l.ctx t acc true).numException l x := by
  cases e with
  | none => rfl
  | some x => simp [State.flightDone, hlaunch]

/-- The first flight of a tile ends. -/
theorem execMatrixOpComplete_first {s : State} {tile : Fin 512} {acc : Bool} {sets : List Bool} {e : Option NumEntry} {rest : List MFlight}
    (hflights : (s.tile tile).flights = ⟨acc :: sets, e⟩ :: rest) : exec (.matrixOpComplete tile acc) s =
      .next ((s.setTile tile { s.tile tile with flights := rest }).flightDone tile ⟨acc :: sets, e⟩) := by
  have hrun : exec (.matrixOpComplete tile acc) s = execMatrixOpComplete tile acc s := rfl
  simp [hrun, execMatrixOpComplete, hflights]

/-- Settles O13: each cell of a block takes its own value from one sweep, and the first flight that ends is the first of the list. -/
theorem matrixProducts : Obligations.MatrixProducts := by
  unfold Obligations.MatrixProducts
  refine ⟨fun s h c o hopen hslot hmay => ⟨fun hcan => ?mma, fun hcan hz hmain hmayOther => ?run⟩,
    fun s tile acc sets rest l hlaunch e hflights => ?flight⟩
  case mma =>
    obtain ⟨hm, hn⟩ := shapes_of_mmaFields hcan.1
    obtain ⟨entry, hissues⟩ := execMma_issues hopen hslot hmay hcan
    exact ⟨_, entry, hissues, TileCore.onlyBlock_setBlock hm hn _, fun i j hi hj => mmaCore_cell hcan.1 hi hj⟩
  case run =>
    have hissues := maxOp_issues hopen hslot hmay hcan hz hmain hmayOther
    obtain ⟨runMax, entryMax, hmax⟩ := hissues true 0x02
    obtain ⟨runMin, entryMin, hmin⟩ := hissues false 0x03
    exact ⟨⟨_, runMax, entryMax, hmax, maxCore_winners hcan.1 true⟩, ⟨_, runMin, entryMin, hmin, maxCore_winners hcan.1 false⟩⟩
  case flight =>
    have hstill := (tileLaunch_setTile_flights s tile rest).trans hlaunch
    exact (execMatrixOpComplete_first hflights).trans (congrArg Host.Outcome.next (flightDone_eq hstill acc sets e))

-- # Accumulators as tiles (R210 to R212)

/-- A map cut down to some keys reads the same at those and nothing at the others. -/
theorem NMap.get?_filter {α : Type} (m : NMap α) (keep : Nat → Bool) (i : Nat) :
    NMap.get? (m.filter fun p => keep p.1) i = if keep i then NMap.get? m i else none := by
  induction m with
  | nil => simp [NMap.get?]
  | cons p rest ih =>
    obtain ⟨k, v⟩ := p
    by_cases hki : k = i
    · subst hki
      cases hkeep : keep k <;> simp [NMap.get?, hkeep, ih]
    · cases hkeep : keep k <;> simp [NMap.get?, hkeep, ih, hki]

theorem cellKey_div {row col : Nat} (hrow : row < 64) (hcol : col < 64) (set : Bool) : cellKey set row col / 4096 = b2n set := by
  unfold cellKey
  omega

/-- The registers that an ACLR leaves. -/
def TileCore.clearSet (core : TileCore) (acc : Bool) : TileCore := { core with cells := core.cells.filter fun p => p.1 / 4096 != b2n acc }

theorem TileCore.cell_clearSet (core : TileCore) (acc set : Bool) {i j : Nat} (hi : i < 64) (hj : j < 64) :
    (core.clearSet acc).cell set i j = if set = acc then 0 else core.cell set i j := by
  have hkey : (cellKey set i j / 4096 != b2n acc) = decide (set ≠ acc) := by
    rw [cellKey_div hi hj]
    cases set <;> cases acc <;> rfl
  rw [TileCore.cell, TileCore.clearSet, NMap.getD, NMap.get?_filter core.cells (fun k => k / 4096 != b2n acc), hkey]
  by_cases hset : set = acc <;> simp [hset, TileCore.cell, NMap.getD]

/-- Bytes spell a number of eight bits each. -/
theorem leNat_lt (bs : List Byte) : leNat bs < 2 ^ (8 * bs.length) := by
  induction bs with
  | nil => simp [leNat]
  | cons b rest ih =>
    have hb := b.isLt
    rw [leNat, List.length_cons, Nat.mul_succ, Nat.pow_add]
    omega

theorem lane_ofLanes {w : Nat} {l : List Nat} (hfit : w * l.length ≤ 4096) {i : Nat} (hi : i < l.length) :
    lane (ofLanes w l) w i = l[i] % 2 ^ w := by
  refine lane_eq_of_bits fun j hj => ?_
  rw [BitVec.getLsbD, ofLanes_toNat hfit, testBit_packed l hi hj]

/-- The registers that a VRAC leaves. -/
def TileCore.setRows (core : TileCore) (acc : Bool) (row : Nat) (v : BitVec 4096) : TileCore :=
  foldRange 128 (fun i core => core.setCell acc (row + i / 64) (i % 64) (lane v 32 i)) core

section
variable {acc : Bool} {row : Nat} {v : BitVec 4096}

/-- What a write of a cell leaves, such as the other files of registers, stays. -/
theorem TileCore.setRows_keeps {β : Type} {g : TileCore → β} (hkeep : ∀ (core : TileCore) set i j v, g (core.setCell set i j v) = g core)
    (core : TileCore) : g (core.setRows acc row v) = g core :=
  foldRange_keeps (fun _ _ core => hkeep core ..) core

theorem TileCore.cell_setRows (core : TileCore) (hrow : row + 1 < 64) {i : Nat} (hi : i < 128) :
    (core.setRows acc row v).cell acc (row + i / 64) (i % 64) = lane v 32 i := by
  refine foldRange_at (g := fun c : TileCore => c.cell acc (row + i / 64) (i % 64)) hi (fun c => ?own) (fun k hk hne c => ?others) core
  case own =>
    rw [TileCore.cell_setCell_self]
    exact lane_mod ..
  case others => exact TileCore.cell_setCell_other _ (by omega) (by omega) (by omega) (by omega) (.inr (by omega))

theorem TileCore.cell_setRows_outside (core : TileCore) (hrow : row + 1 < 64) {set : Bool} {i j : Nat} (hi : i < 64) (hj : j < 64)
    (hout : set ≠ acc ∨ (i ≠ row ∧ i ≠ row + 1)) : (core.setRows acc row v).cell set i j = core.cell set i j := by
  refine foldRange_keeps (g := fun c : TileCore => c.cell set i j) (fun k hk c => ?_) core
  exact TileCore.cell_setCell_other _ (by omega) (by omega) hi hj (hout.imp_right fun h => .inl (by omega))

end

section
variable {s : State} {h : SlotHdr} {c : SlotCtx} {o : AccOps} {acc : Bool}

theorem execAclr_issues (hopen : s.opens h c) (hslot : h.slot = .m) (hidle : c.x.setBusy acc = false) (hmay : c.mayWrite (keyA acc)) :
    exec (.aclr h acc) s =
      .next (s.issued h c (({ c.x with core := c.x.core.clearSet acc, run := none } : Tile).gathers [keyA acc] [.clearInv acc])) := by
  refine runSlot_issues hopen.1 (beq_iff_eq.mpr hslot) ?_ (mayWrite_one hmay)
  simp only [hopen.2, hidle]
  rfl

theorem execAcst_issues (hopen : s.opens h c) (hslot : h.slot = .m) (hm : o.msh ≠ 3) (hn : o.nsh ≠ 3) (hidle : c.x.setBusy o.acc = false)
    (halign : (c.src.sreg o.sa).toNat % 4 = 0) (hstore : s.canStore c (c.src.sreg o.sa).toNat (4 * shapeOf o.msh * shapeOf o.nsh)) :
    exec (.acst h o) s = .next (s.issued h c (({ c.x with run := none } : Tile).gathers []
      [.store (c.src.sreg o.sa).toNat (c.src.blockBytes o.acc (shapeOf o.msh) (shapeOf o.nsh))])) := by
  refine runSlot_issues hopen.1 (beq_iff_eq.mpr hslot) ?_ mayWrite_none
  simp [not_reservedShape hm hn, hopen.2, halign, writeCheck_of_canStore hstore, hidle]

/-- The registers that an ACLD leaves. -/
def TileCore.loadBlock (core : TileCore) (acc : Bool) (m n : Nat) (bs : List Byte) : TileCore :=
  core.setBlock acc m n fun i j => leNat ((bs.drop (4 * (i * n + j))).take 4)

/-- Four bytes spell a cell whole. -/
theorem TileCore.cell_loadBlock (core : TileCore) (acc : Bool) {m n i j : Nat} (hm : m ≤ 64) (hn : n ≤ 64) (hi : i < m) (hj : j < n)
    (bs : List Byte) : (core.loadBlock acc m n bs).cell acc i j = leNat ((bs.drop (4 * (i * n + j))).take 4) := by
  rw [TileCore.loadBlock, TileCore.cell_setBlock hm hn hi hj]
  refine Nat.mod_eq_of_lt (Nat.lt_of_lt_of_le (leNat_lt _) (Nat.pow_le_pow_right Nat.two_pos ?_))
  have := List.length_take_le 4 (bs.drop (4 * (i * n + j)))
  omega

theorem execAcld_issues (hopen : s.opens h c) (hslot : h.slot = .m) (hm : o.msh ≠ 3) (hn : o.nsh ≠ 3) (hidle : c.x.setBusy o.acc = false)
    (halign : (c.src.sreg o.sa).toNat % 4 = 0) (hread : s.canRead c (c.src.sreg o.sa).toNat (4 * shapeOf o.msh * shapeOf o.nsh))
    (hmay : c.mayWrite (keyA o.acc)) : exec (.acld h o) s = .next (s.issued h c (({ c.x with
      core := c.x.core.loadBlock o.acc (shapeOf o.msh) (shapeOf o.nsh)
        (s.storeRead h.tile (c.src.sreg o.sa).toNat (4 * shapeOf o.msh * shapeOf o.nsh)), run := none } : Tile).gathers [keyA o.acc] [])) := by
  obtain ⟨htile, -⟩ := admit_go hopen.1
  refine runSlot_issues hopen.1 (beq_iff_eq.mpr hslot) ?_ (mayWrite_one hmay)
  simp [not_reservedShape hm hn, hopen.2, halign, readCheck_of_canRead hread, hidle, ← htile, TileCore.loadBlock]

/-- The vector that an ACRV reads. -/
def TileCore.rowsOf (core : TileCore) (acc : Bool) (row : Nat) : BitVec 4096 :=
  ofLanes 32 ((List.range 128).map fun i => core.cell acc (row + i / 64) (i % 64))

theorem TileCore.lane_rowsOf (core : TileCore) (acc : Bool) (row : Nat) {i : Nat} (hi : i < 128) :
    lane (core.rowsOf acc row) 32 i = core.cell acc (row + i / 64) (i % 64) := by
  rw [TileCore.rowsOf, lane_ofLanes (by simp) (by simpa using hi), List.getElem_map, List.getElem_range, TileCore.cell_mod]

theorem execAcrv_issues (hopen : s.opens h c) (hslot : h.slot = .m) {r row : Fin 64} (heven : row.val % 2 = 0)
    (hidle : c.x.setBusy acc = false) (hmay : c.mayWrite (keyV r)) : exec (.acrv h acc r row) s =
      .next (s.issued h c (({ c.x with core := c.x.core.setV r (c.src.rowsOf acc row), run := none } : Tile).gathers [keyV r] [])) := by
  refine runSlot_issues hopen.1 (beq_iff_eq.mpr hslot) ?_ (mayWrite_one hmay)
  simp [heven, hopen.2, hidle, TileCore.rowsOf]

theorem execVrac_issues (hopen : s.opens h c) (hslot : h.slot = .m) {r row : Fin 64} (heven : row.val % 2 = 0)
    (hidle : c.x.setBusy acc = false) (hmay : c.mayWrite (keyA acc)) : exec (.vrac h acc r row) s =
      .next (s.issued h c (({ c.x with core := c.x.core.setRows acc row (c.src.vreg r), run := none } : Tile).gathers [keyA acc] [])) := by
  refine runSlot_issues hopen.1 (beq_iff_eq.mpr hslot) ?_ (mayWrite_one hmay)
  simp [heven, hopen.2, hidle, TileCore.setRows]

end

/-- Settles O14: a block and two rows are sweeps of cell writes, ACLR drops the entries of its set, and what moves fits a cell or a lane whole. -/
theorem accumulatorMoves : Obligations.AccumulatorMoves := by
  unfold Obligations.AccumulatorMoves
  refine fun s h c hopen hslot => ⟨fun acc hidle hmay => ?aclr, fun o hm hn hidle halign => ⟨fun hstore => ?acst, fun hread hmay => ?acld⟩,
    fun acc r row heven hidle => ⟨fun hmay => ?acrv, fun hmay => ?vrac⟩⟩
  case aclr =>
    refine ⟨_, execAclr_issues hopen hslot hidle hmay, ⟨rfl, rfl, rfl, rfl, fun set i j hi hj hout => ?other⟩, fun i j hi hj => ?own⟩
    case other =>
      have hset : set ≠ acc := hout.resolve_right (by omega)
      rw [TileCore.cell_clearSet _ _ _ hi hj, if_neg hset]
    case own => rw [TileCore.cell_clearSet _ _ _ hi hj, if_pos rfl]
  case acst => exact execAcst_issues hopen hslot hm hn hidle halign hstore
  case acld =>
    exact ⟨_, execAcld_issues hopen hslot hm hn hidle halign hread hmay, TileCore.onlyBlock_setBlock (shapeOf_le hm) (shapeOf_le hn) _,
      fun i j hi hj => TileCore.cell_loadBlock _ _ (shapeOf_le hm) (shapeOf_le hn) hi hj _⟩
  case acrv => exact ⟨_, execAcrv_issues hopen hslot heven hidle hmay, fun i hi => TileCore.lane_rowsOf _ _ _ hi⟩
  case vrac =>
    have hrow : row.val + 1 < 64 := by omega
    exact ⟨_, execVrac_issues hopen hslot heven hidle hmay, TileCore.setRows_keeps (fun _ _ _ _ _ => rfl) _,
      TileCore.setRows_keeps (fun _ _ _ _ _ => rfl) _, TileCore.setRows_keeps (fun _ _ _ _ _ => rfl) _,
      fun set i j hi hj hout => TileCore.cell_setRows_outside _ hrow hi hj hout, fun i hi => TileCore.cell_setRows _ hrow hi⟩

end Sys2Proof.Machine
end

section
/-! SUPPORT. A training step's own commands (R236, R240, R242, R270, R287, R298, R299, R316, R410): what each write leaves in its registers, and
what each command answers where its conditions hold. -/

namespace Sys2Proof.Machine

-- # The record, registrations and a replay's arm

section
variable {α : Type} {s : State} {l : List α} {f : α → State → State} {P : State → Prop}

/-- What each change of a pass preserves holds after the pass. -/
theorem State.each_preserves (h : P s) (hkeep : ∀ x ∈ l, ∀ t, P t → P (f x t)) : P (s.each l f) := by
  induction l generalizing s with
  | nil => exact h
  | cons x rest ih =>
    obtain ⟨hfirst, hrest⟩ := List.forall_mem_cons.mp hkeep
    exact ih (hfirst s h) hrest

/-- What one change of a pass brings about and every change preserves holds after the pass. -/
theorem State.each_achieves {x : α} (hx : x ∈ l) (hset : ∀ t, P (f x t)) (hkeep : ∀ y ∈ l, ∀ t, P t → P (f y t)) : P (s.each l f) := by
  obtain ⟨before, after, rfl⟩ := List.append_of_mem hx
  have hafter : ∀ y ∈ after, ∀ t, P t → P (f y t) := fun y hy => hkeep y (by simp [hy])
  rw [State.each, List.foldl_append, List.foldl_cons]
  exact State.each_preserves (hset _) hafter

end

section
variable (s : State) {f : Field} (hf : f.lo + f.width ≤ 64)
include hf

theorem flag_setFld_zero (i : Nat) : (s.setFld f i 0).flag f i = false := by
  rw [State.flag, fld_setFld_self s f hf, Nat.zero_mod]; rfl

theorem flag_setFld_one (hwidth : f.width = 1) (i : Nat) : (s.setFld f i 1).flag f i = true := by
  rw [State.flag, fld_setFld_self s f hf, hwidth]; rfl

/-- Clearing a flag in any copy of its register sets it in none. -/
theorem flag_setFld_zero_of_clear {j : Nat} (hclear : s.flag f j = false) (i : Nat) : (s.setFld f i 0).flag f j = false := by
  by_cases h : f.reg.key j = f.reg.key i
  · obtain rfl : j = i := Nat.add_left_cancel h
    exact flag_setFld_zero s hf j
  · rw [State.flag, fld_setFld_reg s 0 h]
    exact hclear

end

section
variable {s : State} {fn ctx : Nat}

/-- A clear empties the record: its counts are 0, and none of its entries is valid (R240). -/
theorem State.writeNumState_clears (hgo : s.reach fn .EXC_NUM_STATE ctx = .go) (hctx : ctx < 256) :
    let t := s.writeNumState fn ctx .whole (F.EXC_NUM_STATE_CLEAR.put 0#64 1)
    t.fld F.EXC_NUM_STATE_COUNT ctx = 0 ∧ t.fld F.EXC_NUM_STATE_LOST ctx = 0 ∧
      ∀ i, i < 64 → t.flag F.EXC_NUM_E3_VALID (64 * ctx + i) = false := by
  intro t
  have hhit : F.EXC_NUM_STATE_CLEAR.hit .whole (F.EXC_NUM_STATE_CLEAR.put 0#64 1) = true := by decide
  have ht : t = ((s.setFld F.EXC_NUM_STATE_COUNT ctx 0).setFld F.EXC_NUM_STATE_LOST ctx 0).each (List.range 64)
      fun i s => s.setFld F.EXC_NUM_E3_VALID (ctx * 64 + i) 0 := by
    simp only [t, State.writeNumState, State.reaching_go hgo, hhit, if_true]
  have hentry {i : Nat} (hi : i ∈ List.range 64) : RegName.EXC_NUM_STATE.key ctx ≠ RegName.EXC_NUM_E3.key (ctx * 64 + i) := by
    have := List.mem_range.mp hi
    exact RegName.key_ne (by omega) (by omega) (by decide)
  rw [ht]
  refine ⟨State.each_preserves (P := fun u => u.fld F.EXC_NUM_STATE_COUNT ctx = 0) ?count
      fun i hi u h => by rw [fld_setFld_reg _ _ (hentry hi), h],
    State.each_preserves (P := fun u => u.fld F.EXC_NUM_STATE_LOST ctx = 0) ?lost
      fun i hi u h => by rw [fld_setFld_reg _ _ (hentry hi), h],
    fun i hi => State.each_achieves (P := fun u => u.flag F.EXC_NUM_E3_VALID (64 * ctx + i) = false) (List.mem_range.mpr hi) (fun u => ?valid)
      fun j _ u h => flag_setFld_zero_of_clear u (by decide) h _⟩
  case count =>
    rw [fld_setFld_apart _ (f := F.EXC_NUM_STATE_LOST) (g := F.EXC_NUM_STATE_COUNT) (by decide) (.inr (by decide)) rfl,
      fld_setFld_self _ _ (by decide), Nat.zero_mod]
  case lost => rw [fld_setFld_self _ _ (by decide), Nat.zero_mod]
  case valid =>
    rw [Nat.mul_comm]
    exact flag_setFld_zero u (by decide) _

/-- What a registration shows while it runs: it is busy with its tensor, and no error stands (R316). -/
theorem State.writeTensorReg_starts (hgo : s.reach fn .NUM_TENSOR_REG ctx = .go) (hidle : s.flag F.NUM_REG_STATUS_BUSY ctx = false) (tid : Nat) :
    let t := s.writeTensorReg fn ctx .whole (F.NUM_TENSOR_REG_TID.put (F.NUM_TENSOR_REG_GO.put 0#64 1) tid)
    t.flag F.NUM_REG_STATUS_BUSY ctx = true ∧ t.fld F.NUM_REG_STATUS_TID ctx = tid % 2 ^ F.NUM_REG_STATUS_TID.width ∧
      t.fld F.NUM_REG_STATUS_ERR ctx = 0 := by
  intro t
  have hhit : F.NUM_TENSOR_REG_GO.hit .whole (F.NUM_TENSOR_REG_TID.put (F.NUM_TENSOR_REG_GO.put 0#64 1) tid) = true := by
    rw [Field.hit, Half.part_whole, Field.of_put_other (by decide) (.inr (by decide)), Field.of_put _ (by decide)]
    rfl
  have ht : t = (((s.setFld F.NUM_REG_STATUS_BUSY ctx 1).setFld F.NUM_REG_STATUS_ERR ctx 0).setFld F.NUM_REG_STATUS_TID ctx
      (tid % 2 ^ F.NUM_REG_STATUS_TID.width)) := by
    simp only [t, State.writeTensorReg, State.reaching_go hgo, hhit, hidle, Half.part_whole, Field.of_put F.NUM_TENSOR_REG_TID (by decide),
      Bool.not_false, Bool.and_true, if_true]
    rfl
  rw [ht]
  refine ⟨?busy, ?tid, ?err⟩
  case busy =>
    rw [State.flag, fld_setFld_apart (f := F.NUM_REG_STATUS_TID) (g := F.NUM_REG_STATUS_BUSY) _ (by decide) (.inr (by decide)) rfl,
      fld_setFld_apart (f := F.NUM_REG_STATUS_ERR) (g := F.NUM_REG_STATUS_BUSY) _ (by decide) (.inr (by decide)) rfl]
    exact flag_setFld_one s (by decide) rfl ctx
  case tid => rw [fld_setFld_self _ _ (by decide), Nat.mod_mod]
  case err =>
    rw [fld_setFld_apart (f := F.NUM_REG_STATUS_TID) (g := F.NUM_REG_STATUS_ERR) _ (by decide) (.inr (by decide)) rfl,
      fld_setFld_self _ _ (by decide), Nat.zero_mod]

/-- A write that sets ARM arms the replay: the register is plain, so it reads as written (R270). -/
theorem State.writeReplayCtl_arms (hgo : s.reach fn .EXC_REPLAY_CTL ctx = .go) :
    (s.writeReplayCtl fn ctx .whole (F.EXC_REPLAY_CTL_ARM.put (s.reg .EXC_REPLAY_CTL ctx) 1)).flag F.EXC_REPLAY_CTL_ARM ctx = true := by
  rw [State.writeReplayCtl, State.reaching_go hgo, State.writeReg, State.flag, bne_iff_ne, State.fld]
  set old := s.reg .EXC_REPLAY_CTL ctx
  have hreads := calc
    F.EXC_REPLAY_CTL_ARM.of (RegName.EXC_REPLAY_CTL.written .whole old (F.EXC_REPLAY_CTL_ARM.put old 1))
      = F.EXC_REPLAY_CTL_ARM.of (F.EXC_REPLAY_CTL_ARM.put old 1) :=
        RegName.of_written_rw (r := .EXC_REPLAY_CTL) (row := ⟨63, 1, .rw, 0⟩) (List.mem_singleton.mpr rfl) rfl old _
    _ = 1 := Field.of_put _ (by decide) old 1
  rw [show F.EXC_REPLAY_CTL_ARM.reg = .EXC_REPLAY_CTL from rfl, reg_setReg_self, hreads]
  exact Nat.one_ne_zero

end

/-- A registration whose descriptor passes the checks resets the tensor's history (R236). -/
theorem execTensorRegisterDone_registers {s : State} {ctx : Fin 256} (hbusy : s.flag F.NUM_REG_STATUS_BUSY ctx = true) :
    let t := s.setFld F.NUM_REG_STATUS_BUSY ctx 0
    let id := s.fld F.NUM_REG_STATUS_TID ctx
    t.regError ctx id = 0 → exec (.tensorRegisterDone ctx) s = .next (t.registerTensor ctx id) := by
  intro t id hok
  change execTensorRegisterDone ctx s = _
  rw [execTensorRegisterDone, hbusy]
  exact if_neg (not_not.mpr hok)

-- # The open, the decision and the starts of passes

/-- A launch whose step waits for nothing, whose table passes the checks and whose stale working copies are all of shards that the device
holds opens its step (R242, R275, R285). -/
theorem execStepOpen_opens {s : State} {q : Fin 65536} {c : Nat} {fetched : List (BitVec 24 × List Byte)} {l : Launch} {p : Program}
    (hlaunch : s.launch? q c = some l) (hstep : l.isStep = true) (hopened : l.opened = false) (hopens : s.opensNone l.ctx = false)
    (hnone : NMap.get? s.steps l.ctx = none) (hprogram : s.program? l.ctx l.handle = some p)
    (hreplay : s.flag F.EXC_REPLAY_CTL_ARM l.ctx = false ∨ s.replayRefused l = false) (htable : s.tableFault l.ctx p = none)
    (happly : s.applyPending l.ctx l.step = false) (hstale : ∀ x ∈ s.staleShards l.ctx l.step, s.owns x = true ∨ s.mirrors x = true) :
    exec (.stepOpen q c fetched) s =
      .next (s.openStep l p (fetched.map fun f => (f.1.toNat, f.2)) (s.flag F.EXC_REPLAY_CTL_ARM l.ctx)) := by
  have hwaits : (!l.isStep || l.opened || s.opensNone l.ctx || (NMap.get? s.steps l.ctx).isSome) = false := by
    simp only [hstep, hopened, hopens, hnone, Bool.not_true, Option.isSome_none, Bool.or_self]
  have htakes : (s.flag F.EXC_REPLAY_CTL_ARM l.ctx && s.replayRefused l) = false := Bool.and_eq_false_iff.mpr hreplay
  have hfresh : ((s.staleShards l.ctx l.step).all fun x => s.owns x || s.mirrors x ||
      (fetched.map fun f => (f.1.toNat, f.2)).any fun f => f.1 == x.num && decide (x.elems * x.workWidth ≤ f.2.length)) = true :=
    List.all_eq_true.mpr fun x hx => by rw [Bool.or_eq_true_iff.mpr (hstale x hx), Bool.true_or]
  change execStepOpen q c fetched s = _
  simp only [execStepOpen, hlaunch, hwaits, hprogram, htakes, htable, happly, hfresh, Bool.false_eq_true, if_false, if_true]

/-- The root's record is adopted where it names the open step, and its number is one of 64 bits (R287). -/
theorem execDecisionRecord_adopts {s : State} {ctx : Fin 256} {p : Step} (hstep : NMap.get? s.steps ctx = some p) (hindex : p.index < 2 ^ 64)
    (sum norm kappa : BitVec 32) (reason : Fin 4) : exec (.decisionRecord ctx (BitVec.ofNat 64 p.index) sum norm kappa reason) s =
      .next (s.adopt ctx ⟨sum.toNat, norm.toNat, kappa.toNat, reason, []⟩) := by
  have hnamed : p.index = (BitVec.ofNat 64 p.index).toNat := by rw [BitVec.toNat_ofNat, Nat.mod_eq_of_lt hindex]
  change execDecisionRecord ctx (BitVec.ofNat 64 p.index) sum norm kappa reason s = _
  simp only [execDecisionRecord, hstep]
  exact if_pos hnamed

/-- A shard that nothing compares has nothing to settle. -/
theorem State.settle_idle {s : State} {ctx : Nat} {x : Shard} (hcompared : s.comparing ctx x.num = false) :
    (s.when (s.mirrors x) fun s => s.settleMirror ctx x) = s := by
  have hnone : s.cmp? ctx x.num = none := Option.not_isSome_iff_eq_none.mp (Bool.eq_false_iff.mp hcompared)
  have hsettle : s.settleMirror ctx x = s := by rw [State.settleMirror, hnone]
  rw [State.when, hsettle, ite_self]

section
variable {s : State} {eng : Fin 48} {ctx : Fin 256} {shard : BitVec 24} {p : Step} {x : Shard} {ks : List Nat}
variable (hstep : NMap.get? s.steps ctx = some p) (hshard : s.shard? ctx shard.toNat = some x) (hholds : s.owns x = true ∨ s.mirrors x = true)
variable (hdue : s.ckptDue.contains ctx.val = false) (hquiesce : s.quiesce = false) (hks : s.passEngines x (some eng.val) = some ks)
include hstep hshard hholds hdue hquiesce hks

/-- A shard that the device holds begins its update once the decision applies, its gradient is ready and nothing holds it (R298, R299). -/
theorem execUpdateStart_starts {d : Decision} (hdecision : p.decisionFor (s.mirrors x) s.twinFailed = some d) (hreason : d.reason = 0)
    (hready : p.gradReady (s.owns x) x.num = true) (hstarted : p.started.contains x.num = false)
    (hcompared : (s.owns x && s.comparing ctx x.num) = false) : exec (.updateStart eng ctx shard) s =
      .next (((s.startPasses ks ctx x (if x.sketch then .sketch else .program)).modStep ctx fun p =>
        { p with started := x.num :: p.started }).activityIn ctx 7) := by
  change execUpdateStart eng ctx shard s = _
  simp only [execUpdateStart, hstep, hshard, hdecision, Bool.or_eq_true_iff.mpr hholds, hreason, hready, hstarted, hcompared, hdue, hquiesce, hks,
    beq_self_eq_true, Bool.not_false, Bool.and_true, if_true]

/-- A shard that the device holds begins its form pass once its update is over in a round's last step and nothing holds it (R410). -/
theorem execFormPass_starts {r : Nat} (hlast : s.lastOf ctx p.index = some r) (hexchanged : x.exchanged = true)
    (hover : p.updateOver x.num = true) (hformed : ((s.xchOf ctx).round? r s.deviceId).any (fun v => v.formed.contains x.num) = false)
    (hruns : (s.engines.any fun e => e.2.ctx == ctx.val && e.2.shard == x.num) = false) (hfresh : (s.xchOf ctx).fresh ≠ some r)
    (hmode : s.xmode ctx ≠ 3) (hcompared : s.comparing ctx x.num = false)
    (hdriver : s.fld F.HIF_STATUS_DRIVER 0 ≠ 2 ∨ ((s.xchOf ctx).round? r s.deviceId).isSome = true) : exec (.formPass eng ctx shard) s =
      .next (((s.openRound ctx r).startPasses ks ctx x .form).activityIn ctx 7) := by
  have hmay : (s.fld F.HIF_STATUS_DRIVER 0 != 2 || ((s.xchOf ctx).round? r s.deviceId).isSome) = true :=
    Bool.or_eq_true_iff.mpr (hdriver.imp_left bne_iff_ne.mpr)
  change execFormPass eng ctx shard s = _
  simp only [execFormPass, hstep, hshard, hlast, hexchanged, Bool.or_eq_true_iff.mpr hholds, hover, hformed, hruns, bne_iff_ne.mpr hfresh,
    bne_iff_ne.mpr hmode, hcompared, hdue, hquiesce, hmay, hks, State.settle_idle hcompared, Bool.and_false, Bool.not_false, Bool.and_true, if_true]

end

-- # The end of a pass

section
variable {s : State} {eng : Fin 48} {en : Engine} {x : Shard}
variable (hengine : NMap.get? s.engines eng = some en) (hshard : s.shard? en.ctx en.shard = some x) (hdone : en.done = false)
include hengine hshard hdone

theorem execEnginePassComplete_copy (hkind : en.kind = .copy ∨ en.kind = .restore) :
    exec (.enginePassComplete eng) s = .next ((s.endPass eng).startIntakes) := by
  change execEnginePassComplete eng s = _
  simp only [execEnginePassComplete, hengine, hshard, hdone, hkind, Bool.false_eq_true, if_false, if_true]

/-- An engine's part of a shard's pass is done; the pass ends with the last of them (R299). -/
theorem execEnginePassComplete_part (hcopy : en.kind ≠ .copy) (hrestore : en.kind ≠ .restore) :
    let t := s.partDone eng en x
    exec (.enginePassComplete eng) s = .next (if (t.passOf en.ctx x.num).all (·.2.done) = true then t.endShard en x else t) := by
  intro t
  change execEnginePassComplete eng s = _
  simp only [execEnginePassComplete, hengine, hshard, hdone, not_or.mpr ⟨hcopy, hrestore⟩, Bool.false_eq_true, if_false, t]
  split <;> rfl

theorem execEnginePassComplete_last (hcopy : en.kind ≠ .copy) (hrestore : en.kind ≠ .restore)
    (hall : ((s.partDone eng en x).passOf en.ctx x.num).all (·.2.done) = true) :
    exec (.enginePassComplete eng) s = .next ((s.partDone eng en x).endShard en x) := by
  rw [execEnginePassComplete_part hengine hshard hdone hcopy hrestore, if_pos hall]

end

/-- Settles O28: the writes leave in their registers what the record, a registration and a replay need (`State.writeNumState_clears`,
`State.writeTensorReg_starts`, `State.writeReplayCtl_arms`), each start passes its checks, and the last engine ends its shard's pass by its kind
(`execEnginePassComplete_last`). -/
theorem stepCommands : Obligations.StepCommands := by
  unfold Obligations.StepCommands
  refine ⟨fun s fn ctx hgo => ⟨_, rfl, State.writeNumState_clears hgo ctx.isLt⟩,
    fun s fn ctx tid hgo hidle => ⟨_, rfl, State.writeTensorReg_starts hgo hidle tid.toNat⟩,
    fun s ctx hbusy => execTensorRegisterDone_registers hbusy, ?opens, fun s fn ctx hgo => ⟨_, rfl, State.writeReplayCtl_arms hgo⟩,
    fun s ctx sum norm kappa reason p hstep hindex => execDecisionRecord_adopts hstep hindex sum norm kappa reason, ?update, ?passEnds, ?form⟩
  case opens =>
    intro s q c fetched l p hlaunch hstep hopened hopens hnone hprogram hreplay htable happly hstale
    exact execStepOpen_opens hlaunch hstep hopened hopens hnone hprogram hreplay htable happly hstale
  case update =>
    intro s eng ctx shard p x d hstep hshard hdecision hholds hreason hready hstarted hcompared hdue hquiesce ks hks
    exact execUpdateStart_starts hstep hshard hholds hdue hquiesce hks hdecision hreason hready hstarted hcompared
  case passEnds =>
    intro s eng en x hengine hshard hdone t
    refine ⟨execEnginePassComplete_copy hengine hshard hdone, fun hcopy hrestore hsome => ?waits, fun hall => ?ends⟩
    case waits => rw [execEnginePassComplete_part hengine hshard hdone hcopy hrestore, if_neg (Bool.eq_false_iff.mp hsome)]
    case ends =>
      have hends (hcopy : en.kind ≠ .copy) (hrestore : en.kind ≠ .restore) : exec (.enginePassComplete eng) s = .next (t.endShard en x) :=
        execEnginePassComplete_last hengine hshard hdone hcopy hrestore hall
      refine ⟨?_, ?_, ?_, ?_, ?_⟩ <;>
      · intro hkind
        rw [hends (by simp [hkind]) (by simp [hkind]), State.endShard, hkind]
  case form =>
    intro s eng ctx shard p x r hstep hshard hlast hexchanged hholds hover hformed hruns hfresh hmode hcompared hdue hquiesce hdriver ks hks
    exact execFormPass_starts hstep hshard hholds hdue hquiesce hks hlast hexchanged hover hformed hruns hfresh hmode hcompared hdriver

end Sys2Proof.Machine
end

section
/-! SUPPORT. The instructions of the rhizoid engines (Table 8-6, R296 to R301): what one does on an element of a shard's update. -/

namespace Sys2Proof.Machine

section
variable {s : State} {o : EngOps} {en : Engine} {x : Shard} {fields : Bool}

/-- An instruction of a running engine leaves what its operation leaves, and the engine goes on (R298). -/
theorem engineOp_runs (hruns : s.engineRuns o.eng en x) (hfields : fields = true) (f : EngFn) {t : State} {e : Engine} (hf : f s en x o = (t, e)) :
    engineOp f o fields s =
      .next (t.setEngine o.eng (e.advance (s.micro en.ctx x).words.length (s.nextElem x (o.eng / 4) (en.elem + 1)))) := by
  obtain ⟨hengine, hshard, hkind, helem⟩ := hruns
  have hleft : ¬ (en.kind ≠ .program ∨ x.elems ≤ en.elem) := not_or.mpr ⟨not_not.mpr hkind, Nat.not_le.mpr helem⟩
  simp only [engineOp, hfields, hengine, hshard, if_neg hleft, hf, Bool.not_true, Bool.false_eq_true, if_false]

/-- WTOF rounds what the wide register holds. -/
theorem engWtof_of_some {v : Num} (hwide : en.wide o.a = some v) : engWtof s en x o = (s, en.setElem o.d (canon (fp32.encode .nearest v))) := by
  rw [engWtof, hwide]

/-- WTOF of a register that holds no result leaves a free value. -/
theorem engWtof_of_none (hwide : en.wide o.a = none) :
    engWtof s en x o = ((s.draw (2 ^ 32)).2, en.setElem o.d (s.draw (2 ^ 32)).1) := by
  rw [engWtof, hwide]

/-- A wide operation on two values whose exact result is finite rounds it to the master grid (R280). -/
theorem wideOp_of_finite {f : Num → Num → Num × Bool} {u v : Num} (hu : en.wide o.a = some u) (hv : s.wideSource en x o.b = some v)
    (hfinite : (f u v).1.finite = true) : wideOp f s en x o = (s, en.setWide o.d ((roundMaster (f u v).1).getD noResult)) := by
  simp only [wideOp, hu, hv, hfinite, if_true]

/-- ST stores the bits of a finite value in a plane of 4-byte elements (R297). -/
theorem engSt_wide (hfinite : (fp32.decode (s.source en x o.b)).finite = true) (hwidth : x.width o.a ≠ 2) :
    engSt s en x o = (s.devWrite (x.elemAddr o.a en.elem) (leBytes 4 (s.source en x o.b)), en) := by
  simp only [engSt, hfinite, hwidth, Bool.not_true, Bool.false_eq_true, if_false]

/-- ST stores a finite value in a plane of 2-byte elements as two bytes (R297). -/
theorem engSt_half (hfinite : (fp32.decode (s.source en x o.b)).finite = true) (hwidth : x.width o.a = 2) :
    ∃ v, engSt s en x o = (s.devWrite (x.elemAddr o.a en.elem) (leBytes 2 v), en) := by
  simp only [engSt, hfinite, hwidth, Bool.not_true, Bool.false_eq_true, if_false, if_true]
  exact ⟨_, rfl⟩

/-- ST of a value that is not finite keeps the plane (R300). -/
theorem engSt_keeps (hfinite : (fp32.decode (s.source en x o.b)).finite = false) : engSt s en x o = (s, en.keep en.elem) := by
  simp only [engSt, hfinite, Bool.not_false, if_true]

/-- STM stores a finite master and derives the working copy from it (R283). -/
theorem engStm_stores {v : Num} {m : Nat} (hwide : en.wide o.a = some v) (hfinite : v.finite = true) (hmaster : roundMaster v = some m) :
    engStm s en x o = ((s.storeMaster x en.elem m).deriveElem x en.elem, en) := by
  simp only [engStm, hwide, hfinite, hmaster, if_true]

end

/-- Settles O19: every instruction runs by `engineOp_runs`, and what it leaves is its operation's result. That WTOF of a register which holds no
result leaves a free value, and what LD gives of each plane, are the model's readings (log 36). -/
theorem engineResults : Obligations.EngineResults := by
  unfold Obligations.EngineResults
  intro s o en x hruns a b d ran elem r
  have runs {fields : Bool} (f : EngFn) {t : State} {e : Engine} (hf : f s en x o = (t, e)) (hfields : fields = true) :
      engineOp f o fields s = ran t e := engineOp_runs hruns hfields f hf
  refine ⟨runs engAdd rfl, runs engSub rfl, runs engMul rfl, runs engFma rfl, runs engFms rfl, runs engDiv rfl, runs engMax rfl, runs engMin rfl,
    runs engAbs rfl, runs engNeg rfl, runs engSqrt rfl, runs engRsq rfl, runs engRcp rfl, runs engExp2 rfl, runs engLog2 rfl, runs engCsgn rfl,
    runs engCmp rfl, runs engSel rfl, runs engNop rfl, runs engLdm rfl, runs engLdv rfl, runs engLd rfl,
    fun hfields => ⟨fun v hwide => ?some, fun hwide => ?none⟩,
    fun u v hu hv => ⟨fun hfields hfinite => ?wadd, fun hfields hfinite => ?wmul⟩,
    fun hfields => ⟨fun hfinite hwidth => ?four, fun hfinite hwidth => ?two, fun hfinite => ?keeps⟩,
    fun v m hfields hwide hfinite hmaster => ?stm⟩
  case some => exact runs engWtof (engWtof_of_some hwide) hfields
  case none => exact runs engWtof (engWtof_of_none hwide) hfields
  case wadd => exact runs engWadd (wideOp_of_finite hu hv hfinite) hfields
  case wmul => exact runs engWmul (wideOp_of_finite hu hv hfinite) hfields
  case four => exact runs engSt (engSt_wide hfinite hwidth) hfields
  case two =>
    obtain ⟨v, hst⟩ := engSt_half hfinite hwidth
    exact ⟨v, runs engSt hst hfields⟩
  case keeps => exact runs engSt (engSt_keeps hfinite) hfields
  case stm => exact runs engStm (engStm_stores hwide hfinite hmaster) hfields

end Sys2Proof.Machine
end

section
/-! SUPPORT. Checkpoints and restore (R309 to R313): the registers that show a checkpoint and the counts of the crozier, what leaves them as they
are, and what each command answers where its conditions hold. -/

namespace Sys2Proof.Machine

-- # What keeps a checkpoint's status and the counts of the crozier

/-- The status of a checkpoint, and the counts of the crozier: T, and P1 and P2. -/
def ckptRegs : List RegName := [.UPD_CROZ_T, .UPD_CROZ_P, .UPD_CKPT_STATUS]

/-- Both states show the same of every context's checkpoint and of the counts of its crozier. -/
structure State.ckptKept (s t : State) : Prop where
  reg : ∀ r ∈ ckptRegs, ∀ i, i < 256 → t.reg r i = s.reg r i

theorem ctorIdx_le_of_mem_ckptRegs {r : RegName} (hr : r ∈ ckptRegs) : r.ctorIdx ≤ RegName.UPD_CKPT_STATUS.ctorIdx := by
  have checked : ∀ r ∈ ckptRegs, r.ctorIdx ≤ RegName.UPD_CKPT_STATUS.ctorIdx := by decide
  exact checked r hr

/-- A field reads less than its width allows. -/
theorem State.fld_lt (s : State) (f : Field) (i : Nat) : s.fld f i < 2 ^ f.width := Nat.mod_lt _ (Nat.two_pow_pos _)

section
variable {s t u : State}

theorem State.ckptKept.refl : s.ckptKept s := ⟨fun _ _ _ _ => rfl⟩

theorem State.ckptKept.trans (h : s.ckptKept t) (h' : t.ckptKept u) : s.ckptKept u :=
  ⟨fun r hr i hi => (h'.reg r hr i hi).trans (h.reg r hr i hi)⟩

theorem State.ckptKept.fld (h : s.ckptKept t) {f : Field} (hf : f.reg ∈ ckptRegs) {i : Nat} (hi : i < 256) : t.fld f i = s.fld f i := by
  rw [State.fld, State.fld, h.reg f.reg hf i hi]

/-- A change that leaves the register file alone. -/
theorem State.ckptKept.of_regs (h : s.ckptKept t) (hregs : u.regs = t.regs) : s.ckptKept u := by
  refine ⟨fun r hr i hi => ?_⟩
  rw [← h.reg r hr i hi, State.reg, State.reg, hregs]

theorem State.ckptKept.when (h : s.ckptKept t) {c : Bool} {f : State → State} (hf : ∀ v, s.ckptKept v → s.ckptKept (f v)) : s.ckptKept (t.when c f) := by
  cases c with
  | false => exact h
  | true => exact hf t h

theorem State.ckptKept.each {α : Type} (h : s.ckptKept t) {l : List α} {f : α → State → State} (hf : ∀ x v, s.ckptKept v → s.ckptKept (f x v)) :
    s.ckptKept (t.each l f) := State.each_preserves h fun x _ v => hf x v

/-- A pass that carries something beside the state. -/
theorem State.ckptKept.foldl_fst {α β : Type} {p : State × α} (h : s.ckptKept p.1) {l : List β} {f : State × α → β → State × α}
    (hf : ∀ q x, s.ckptKept q.1 → s.ckptKept (f q x).1) : s.ckptKept (l.foldl f p).1 := by
  induction l generalizing p with
  | nil => exact h
  | cons x rest ih => exact ih (hf p x h)

variable (h : s.ckptKept t)
include h

-- # Registers and memory

/-- A write of another register, at an index that a register may have. -/
theorem State.ckptKept.setFld {f : Field} (hf : f.reg ∉ ckptRegs) {i : Nat} (hi : i < 1048576) (v : Nat) : s.ckptKept (t.setFld f i v) := by
  refine ⟨fun r hr j hj => ?_⟩
  have hne : r ≠ f.reg := fun heq => hf (heq ▸ hr)
  rw [reg_setFld_other t v (RegName.key_ne (by omega) hi hne), h.reg r hr j hj]

/-- A write of a register that stands after them in the register file, at any index. -/
theorem State.ckptKept.setFld_above {f : Field} (hf : RegName.UPD_CKPT_STATUS.ctorIdx < f.reg.ctorIdx) (i v : Nat) : s.ckptKept (t.setFld f i v) := by
  refine ⟨fun r hr j hj => ?_⟩
  have hkey : r.key j ≠ f.reg.key i := by
    have := ctorIdx_le_of_mem_ckptRegs hr
    unfold RegName.key
    omega
  rw [reg_setFld_other t v hkey, h.reg r hr j hj]

theorem State.ckptKept.devWrite (a : Nat) (bs : List Byte) : s.ckptKept (t.devWrite a bs) := by
  have hbytes : (t.devBytes a bs).regs = t.regs := by
    clear h
    induction bs generalizing t a with
    | nil => rfl
    | cons b rest ih => exact ih (t := t.setDevByte a b) (a + 1)
  exact h.of_regs hbytes

theorem State.ckptKept.touch (a n : Nat) : s.ckptKept (t.touch a n) := h.of_regs rfl

-- # Events

theorem State.ckptKept.deliver {fn : Nat} (hfn : fn < 1048576) (e : Event) : s.ckptKept (t.deliver fn e) := by
  refine ⟨fun r hr i hi => ?_⟩
  have hne : r ≠ .EXC_EVQ_STATE := by
    rintro rfl
    exact absurd hr (by decide)
  rw [reg_deliver hne (by omega) hfn, h.reg r hr i hi]

/-- An event of a context goes to the function that the context's register names. -/
theorem State.ckptKept.raise_context (n code sev source detail : Nat) : s.ckptKept (t.raise (.context n) code sev source detail) := by
  have hfn : t.ctxFn n < 1048576 := Nat.lt_of_lt_of_le (t.fld_lt F.QUE_CTX_CFG_FUNCTION n) (by decide)
  exact (h.deliver hfn _).when fun v hv => hv.deliver (by decide) _

theorem State.ckptKept.raise_device (code sev source detail : Nat) : s.ckptKept (t.raise .device code sev source detail) := h.deliver (by decide) _

theorem State.ckptKept.raise_agent {sc : Scope} (hsc : sc = .device ∨ ∃ n, sc = .context n) (code sev source detail : Nat) :
    s.ckptKept (t.raise sc code sev source detail) := by
  rcases hsc with rfl | ⟨n, rfl⟩
  · exact h.raise_device ..
  · exact h.raise_context ..

-- # Memory errors (R328, R334 to R343)

theorem State.ckptKept.noteRetired (ch trigger : Nat) : s.ckptKept (t.noteRetired ch trigger) := by
  have hrepairs (l : List Repair) : s.ckptKept (t.writeRepairs l) :=
    State.ckptKept.setFld_above (t := t.writeRecord .repair _) (h.of_regs rfl) (by decide) 0 l.length
  unfold State.noteRetired State.addRepair
  dsimp only
  repeat' split
  · exact hrepairs _
  · exact hrepairs _
  · exact h

theorem State.ckptKept.retire (ch trigger : Nat) : s.ckptKept (t.retire ch trigger) := by
  have hspare := ((((h.setFld_above (f := F.MEM_SPARE_STATE) (by decide) (ch / 32) 1).setFld_above (f := F.MEM_SPARE_CHANNEL) (by decide) (ch / 32)
    (ch % 32)).setFld_above (f := F.MEM_SPARE_TRIGGER) (by decide) (ch / 32) trigger).setFld_above (f := F.MEM_SPARE_WATERMARK) (by decide)
    (ch / 32) 0).setFld_above (f := F.MEM_CH_STATE_STATE) (by decide) ch 2
  unfold State.retire
  dsimp only
  split
  · refine State.ckptKept.raise_device ?_ ..
    exact (hspare.noteRetired ch trigger).of_regs rfl
  · exact h.raise_device ..
  · exact h.raise_device ..

theorem State.ckptKept.retireAuto (ch trigger : Nat) : s.ckptKept (t.retireAuto ch trigger) := by
  unfold State.retireAuto State.retireIn
  repeat' split
  · exact h
  · exact h.retire ch trigger
  · exact h.raise_device ..

theorem State.ckptKept.countUe (ch : Nat) : s.ckptKept (t.countUe ch) := by
  have hcounted : s.ckptKept (t.ueCounted ch) := by
    refine State.ckptKept.setFld_above (f := F.MEM_CH_WINDOW_UE_DAY) ?_ (by decide) ..
    exact (h.setFld_above (f := F.MEM_CH_ECC_UNCORRECTABLE) (by decide) ch _).of_regs rfl
  rw [countUe_eq]
  split
  · exact hcounted.retireAuto ch 3
  · exact hcounted

theorem State.ckptKept.countCe (ch : Nat) : s.ckptKept (t.countCe ch) := by
  unfold State.countCe
  extract_lets bumped l timed windowed k n told
  have hwindowed : s.ckptKept windowed := by
    refine State.ckptKept.setFld_above (f := F.MEM_CH_WINDOW_CE_HOUR) ?_ (by decide) ..
    exact (h.setFld_above (f := F.MEM_CH_ECC_CORRECTED) (by decide) ch _).of_regs rfl
  have htold : s.ckptKept told := by
    unfold told
    split
    · refine State.ckptKept.raise_device ?_ ..
      exact hwindowed.of_regs rfl
    · exact hwindowed.of_regs rfl
  split
  · exact htold.retireAuto ch 2
  · exact htold

theorem State.ckptKept.poisonKey (k : Nat) : s.ckptKept (t.poisonKey k) := by
  unfold State.poisonKey
  split
  · exact h
  · exact h.of_regs rfl

theorem State.ckptKept.garble (key : Nat) : s.ckptKept (t.garble key) :=
  State.ckptKept.each (t := t.mend key)
    (f := fun i v => { (v.draw 256).2 with mem := memSet (v.draw 256).2.mem (32 * key + i) (BitVec.ofNat 8 (v.draw 256).1) })
    (h.of_regs rfl) fun _ _ hv => hv.of_regs rfl

theorem State.ckptKept.decodeWord (k : Nat) : s.ckptKept (t.decodeWord k) := by
  have hleft (v : State) (hv : s.ckptKept v) : s.ckptKept ((v.leaveStored k).poisonKey k) := by
    refine State.ckptKept.poisonKey ?_ k
    exact hv.of_regs rfl
  have hdrawn : s.ckptKept (t.draw 2).2 := h.of_regs rfl
  unfold State.decodeWord
  split
  · exact h
  · exact h.countCe _
  · exact hleft t h
  · dsimp only
    split
    · exact hleft _ hdrawn
    · exact (hdrawn.garble k).countCe _

theorem State.ckptKept.uncorrectable (agent : Nat) (ctx : Option Nat) (a : Nat) : s.ckptKept (t.uncorrectable agent ctx a) := by
  have hcounted : s.ckptKept ((t.poisonWord a).countUe (t.place a).1) := (h.poisonKey _).countUe _
  unfold State.uncorrectable
  dsimp only
  refine State.ckptKept.raise_agent ?_ (by cases ctx <;> simp) ..
  split
  · exact hcounted
  · exact hcounted.of_regs rfl

/-- Reading memory shows its errors in the memory's own registers and in events. -/
theorem State.ckptKept.readReport (agent : Nat) (ctx : Option Nat) (a n : Nat) : s.ckptKept (t.readReport agent ctx a n).1 := by
  have hdecoded : s.ckptKept (t.decodeRange a n) := h.each fun k _ hv => hv.decodeWord k
  exact State.ckptKept.of_regs (hdecoded.each (l := (t.decodeRange a n).poisonedWords a n) fun x _ hv => hv.uncorrectable agent ctx x) rfl

theorem State.ckptKept.outside (agent : Nat) (ctx : Option Nat) (a : Nat) : s.ckptKept (t.outside agent ctx a) := by
  have hrecorded (v : State) (hv : s.ckptKept v) : s.ckptKept
      ((((v.setFld F.MEM_OUTSIDE_VALID 0 1).setFld F.MEM_OUTSIDE_AGENT 0 agent).setFld F.MEM_OUTSIDE_CTX 0 (ctx.getD 0)).setFld F.MEM_OUTSIDE_ADDR 0 a) :=
    (((hv.setFld_above (by decide) 0 1).setFld_above (by decide) 0 agent).setFld_above (by decide) 0 _).setFld_above (by decide) 0 a
  have hcounted := (h.when (c := !t.flag F.MEM_OUTSIDE_VALID 0) hrecorded).setFld_above (f := F.MEM_OUTSIDE_CNT_COUNT) (by decide) 0
  unfold State.outside State.raiseLimited
  dsimp only
  split
  · refine State.ckptKept.raise_agent ?_ (by cases ctx <;> simp) ..
    exact (hcounted _).of_regs rfl
  · exact hcounted _

-- # Engines and their passes

theorem State.ckptKept.checkPlanes (ctx : Nat) (x : Shard) (l : List Nat) : s.ckptKept (t.checkPlanes ctx x l) :=
  h.each fun _ _ hv => State.ckptKept.readReport (hv.when fun _ hw => hw.outside ..) ..

theorem State.ckptKept.showBase (st : Nat) : s.ckptKept (t.showBase st) := by
  have hbusy := h.setFld_above (f := F.UPD_BASE_STATUS_BUSY) (by decide) st
  have hshown (v n m : Nat) := ((hbusy v).setFld_above (f := F.UPD_BASE_STATUS_CTX) (by decide) st n).setFld_above (f := F.UPD_BASE_STATUS_PASS)
    (by decide) st m
  unfold State.showBase
  dsimp only
  split
  · exact hshown ..
  · exact hshown ..

theorem State.ckptKept.startPass (k ctx : Nat) (x : Shard) (kind : PassKind) : s.ckptKept (t.startPass k ctx x kind) :=
  State.ckptKept.showBase (t := t.setEngine k _) (h.of_regs rfl) _

theorem State.ckptKept.startPasses (ks : List Nat) (ctx : Nat) (x : Shard) (kind : PassKind) : s.ckptKept (t.startPasses ks ctx x kind) :=
  (h.checkPlanes ctx x _).each fun k _ hv => hv.startPass k ctx x kind

theorem State.ckptKept.startCopies (ctx : Nat) (kind : PassKind) (l : List Shard) : s.ckptKept (t.startCopies ctx kind l) := by
  refine h.each fun st v hv => ?_
  split
  · exact hv.startPass ..
  · exact hv

theorem State.ckptKept.modStep (ctx : Nat) (f : Step → Step) : s.ckptKept (t.modStep ctx f) := by
  unfold State.modStep
  split
  · exact h
  · exact h.of_regs rfl

theorem State.ckptKept.tryIntake (ctx shard : Nat) : s.ckptKept (t.tryIntake ctx shard) := by
  unfold State.tryIntake
  repeat' split
  · exact h
  · exact (h.modStep ..).startPasses ..
  · exact h

theorem State.ckptKept.endCopies (ctx : Nat) (kind : PassKind) : s.ckptKept (t.endCopies ctx kind) := by
  have hended : s.ckptKept (t.each (t.engines.filter fun e => e.2.ctx == ctx && e.2.kind == kind) fun e s => s.endPass e.1) :=
    h.each fun e v hv => State.ckptKept.showBase (t := { v with engines := NMap.erase v.engines e.1 }) (hv.of_regs rfl) _
  exact hended.each fun _ _ hv => hv.each fun _ _ hw => hw.tryIntake ..

-- # What a restore writes (R312, R313, R449)

theorem State.ckptKept.crozValidate {ctx : Nat} (hctx : ctx < 256) (base prev : Nat) : s.ckptKept (t.crozValidate ctx base prev) := by
  have hchecked := ((h.touch base 1088).setFld (f := F.UPD_CROZ_STATUS_ERR) (by decide) (i := ctx) (by omega)
    (crozCheck ((t.touch base 1088).devRead base 1088)).1).setFld (f := F.UPD_CROZ_STATUS_CHANNEL) (by decide) (i := ctx) (by omega)
    (crozCheck ((t.touch base 1088).devRead base 1088)).2
  unfold State.crozValidate
  dsimp only
  split
  · exact hchecked.of_regs rfl
  · refine State.ckptKept.raise_context ?_ ..
    exact hchecked.of_regs rfl

theorem State.ckptKept.chillAll (ctx n : Nat) : s.ckptKept (t.chillAll ctx n) := by
  have hset (v : State) (hv : s.ckptKept v) (b off m w : Nat) : s.ckptKept (v.setScale ctx n b off m w) := (hv.devWrite ..).devWrite ..
  exact State.ckptKept.raise_context (h.each fun b _ hv => hset _ (hset _ (hset _ hv ..) ..) ..) ..

theorem State.ckptKept.restoreScale (ctx : Nat) (img : List Byte) : s.ckptKept (t.restoreScale ctx img) := by
  have hchilled : s.ckptKept (t.each (t.trackedAll ctx) fun n s => s.chillAll ctx n) := h.each fun n _ hv => hv.chillAll ctx n
  unfold State.restoreScale
  dsimp only
  repeat' split
  · exact State.ckptKept.foldl_fst (p := (_, _)) (h.devWrite ..) fun _ _ hv => hv.devWrite ..
  · exact hchilled
  · exact hchilled

theorem State.ckptKept.restoreOuter (ctx : Nat) (img : List Byte) : s.ckptKept (t.restoreOuter ctx img) := by
  unfold State.restoreOuter
  dsimp only
  split
  · exact h
  · refine State.ckptKept.of_regs (t := State.setFld ..) ?_ rfl
    iterate 7 refine State.ckptKept.setFld_above ?_ (by decide) ..
    exact h

end
-- # GO and RESTORE (R309, R311)

/-- A write of the upper half of UPD_CKPT_CTL leaves LEN_MIB, which lies in the lower. -/
theorem lenMib_written_high (old v : Word) :
    F.UPD_CKPT_CTL_LEN_MIB.of (RegName.UPD_CKPT_CTL.written .high old v) = F.UPD_CKPT_CTL_LEN_MIB.of old :=
  Field.of_congr fun _ _ hhi => RegName.getLsbD_written_unmasked _ old v (Half.getLsbD_mask_high hhi)

section
variable {s : State} {fn ctx : Nat}

/-- What a command of UPD_CKPT_CTL finds: the register with its length as it was. -/
def State.lenStored (s : State) (ctx : Nat) : State := s.setFld F.UPD_CKPT_CTL_LEN_MIB ctx (s.fld F.UPD_CKPT_CTL_LEN_MIB ctx)

/-- A field of UPD_CKPT_CTL says nothing of what a checkpoint does. -/
theorem ckptBusy_setFld {f : Field} (hf : f.reg = .UPD_CKPT_CTL) (v : Nat) : (s.setFld f ctx v).ckptBusy ctx = s.ckptBusy ctx := by
  rw [State.ckptBusy, State.ckptBusy, fld_setFld_of_reg_ne s (by rw [hf]; decide)]

/-- GO acts while no orphan hold stands (Table 15-6a). -/
theorem State.writeCkptCtl_go (hgo : s.reach fn .UPD_CKPT_CTL ctx = .go) (hctx : ctx < 256) (hdriver : s.fld F.HIF_STATUS_DRIVER 0 ≠ 2) :
    s.writeCkptCtl fn ctx .high (F.UPD_CKPT_CTL_GO.put 0#64 1) = (s.lenStored ctx).ckptGo ctx := by
  have hset : F.UPD_CKPT_CTL_GO.hit .high (F.UPD_CKPT_CTL_GO.put 0#64 1) = true := by decide
  have hclear : F.UPD_CKPT_CTL_RESTORE.hit .high (F.UPD_CKPT_CTL_GO.put 0#64 1) = false := by decide
  have hheld : ((s.lenStored ctx).fld F.HIF_STATUS_DRIVER 0 != 2) = true := by
    rw [State.lenStored, fld_setFld_reg s _ (RegName.key_ne (by decide) (by omega) (by decide))]
    exact bne_iff_ne.mpr hdriver
  rw [State.writeCkptCtl, State.reaching_go hgo]
  simp only [lenMib_written_high, hset, hclear, Bool.true_and, State.when_false]
  exact (congrArg (State.when _ · _) hheld).trans (State.when_true ..)

theorem State.writeCkptCtl_restore (hgo : s.reach fn .UPD_CKPT_CTL ctx = .go) :
    s.writeCkptCtl fn ctx .high (F.UPD_CKPT_CTL_RESTORE.put 0#64 1) = (s.lenStored ctx).ckptRestore ctx := by
  have hset : F.UPD_CKPT_CTL_RESTORE.hit .high (F.UPD_CKPT_CTL_RESTORE.put 0#64 1) = true := by decide
  have hclear : F.UPD_CKPT_CTL_GO.hit .high (F.UPD_CKPT_CTL_RESTORE.put 0#64 1) = false := by decide
  rw [State.writeCkptCtl, State.reaching_go hgo]
  simp only [lenMib_written_high, hset, hclear, Bool.false_and, State.when_false, State.when_true]
  rfl

/-- The state and the reason that a status shows, once both are written. -/
theorem ckptStatus_written (t : State) (ctx v : Nat) :
    ((t.setFld F.UPD_CKPT_STATUS_STATE ctx v).setFld F.UPD_CKPT_STATUS_REASON ctx 0).fld F.UPD_CKPT_STATUS_STATE ctx = v % 8 ∧
      ((t.setFld F.UPD_CKPT_STATUS_STATE ctx v).setFld F.UPD_CKPT_STATUS_REASON ctx 0).fld F.UPD_CKPT_STATUS_REASON ctx = 0 := by
  refine ⟨?state, ?reason⟩
  case state =>
    rw [fld_setFld_apart _ (f := F.UPD_CKPT_STATUS_REASON) (g := F.UPD_CKPT_STATUS_STATE) (by decide) (.inr (by decide)) rfl,
      fld_setFld_self _ _ (by decide)]
    rfl
  case reason => rw [fld_setFld_self _ _ (by decide), Nat.zero_mod]

theorem showBase_told (t : State) (st : Nat) : t.told (t.showBase st) := by
  unfold State.showBase
  dsimp only
  split <;> exact ((setFld_told ..).trans (setFld_told ..)).trans (setFld_told ..)

/-- Copies that start leave what is to be written. -/
theorem startCopies_images (t : State) (ctx : Nat) (kind : PassKind) (l : List Shard) :
    (t.startCopies ctx kind l).ckptDue = t.ckptDue ∧ (t.startCopies ctx kind l).ckptImages = t.ckptImages := by
  have hpass (v : State) (k : Nat) (x : Shard) :
      (v.startPass k ctx x kind).ckptDue = v.ckptDue ∧ (v.startPass k ctx x kind).ckptImages = v.ckptImages := by
    unfold State.startPass
    rw [showBase_told (v.setEngine k _)]
    exact ⟨rfl, rfl⟩
  refine State.each_preserves (P := fun v => v.ckptDue = t.ckptDue ∧ v.ckptImages = t.ckptImages) ⟨rfl, rfl⟩ fun st _ v hv => ?_
  split
  · next x k _ _ => exact ⟨(hpass v k x).1.trans hv.1, (hpass v k x).2.trans hv.2⟩
  · exact hv

/-- What the logical point makes of the state whose image it takes, before copies start (R309). -/
def State.pointTaken (s : State) (ctx : Nat) : State :=
  { (s.setFld F.UPD_CKPT_STATUS_STATE ctx 2).setFld F.UPD_CKPT_STATUS_REASON ctx 0 with
    ckptDue := ctx :: s.ckptDue
    ckptImages := NMap.set s.ckptImages ctx (s.checkpointImage ctx) }

theorem ckptPoint_eq (t : State) (ctx : Nat) : t.ckptPoint ctx =
    ((t.readForImage ctx).pointTaken ctx).startCopies ctx .copy ((t.readForImage ctx).ownedShards ctx) := rfl

/-- The logical point: the status shows a checkpoint that is written, and the image of the state is due (R309, R310). -/
theorem State.ckptPoint_due (t : State) (hctx : ctx < 256) :
    (t.ckptPoint ctx).fld F.UPD_CKPT_STATUS_STATE ctx = 2 ∧ (t.ckptPoint ctx).fld F.UPD_CKPT_STATUS_REASON ctx = 0 ∧
      (t.ckptPoint ctx).ckptDue.contains ctx = true ∧
      NMap.get? (t.ckptPoint ctx).ckptImages ctx = some ((t.readForImage ctx).checkpointImage ctx) := by
  rw [ckptPoint_eq]
  generalize t.readForImage ctx = read
  have htaken : ((read.setFld F.UPD_CKPT_STATUS_STATE ctx 2).setFld F.UPD_CKPT_STATUS_REASON ctx 0).ckptKept (read.pointTaken ctx) :=
    State.ckptKept.refl.of_regs rfl
  have hkept := htaken.startCopies ctx .copy (read.ownedShards ctx)
  obtain ⟨hstate, hreason⟩ := ckptStatus_written read ctx 2
  obtain ⟨hdue, himages⟩ := startCopies_images (read.pointTaken ctx) ctx .copy (read.ownedShards ctx)
  refine ⟨(hkept.fld (by decide) hctx).trans hstate, (hkept.fld (by decide) hctx).trans hreason, ?_, ?_⟩
  · rw [hdue]
    exact List.elem_cons_self
  · rw [himages]
    exact NMap.get?_set_self ..

/-- GO with no checkpoint in progress waits for the close of an open step, and is the logical point itself where none is open (R309). -/
theorem State.ckptGo_arms (hidle : s.ckptBusy ctx = false) (hctx : ctx < 256) :
    (s.ckptGo ctx).fld F.UPD_CKPT_STATUS_STATE ctx = (if (NMap.get? s.steps ctx).isSome then 1 else 2) ∧
      (s.ckptGo ctx).fld F.UPD_CKPT_STATUS_REASON ctx = 0 ∧
      (NMap.get? s.steps ctx = none → (s.ckptGo ctx).ckptDue.contains ctx = true ∧
        NMap.get? (s.ckptGo ctx).ckptImages ctx =
          some (((s.setFld F.UPD_CKPT_CTL_GO ctx 1).readForImage ctx).checkpointImage ctx)) := by
  have hsteps : (s.setFld F.UPD_CKPT_CTL_GO ctx 1).steps = s.steps := rfl
  simp only [State.ckptGo, hidle, hsteps, Bool.false_eq_true, if_false]
  cases hstep : NMap.get? s.steps ctx with
  | none =>
    obtain ⟨hstate, hreason, hdue, himage⟩ := State.ckptPoint_due (s.setFld F.UPD_CKPT_CTL_GO ctx 1) hctx
    exact ⟨hstate, hreason, fun _ => ⟨hdue, himage⟩⟩
  | some p =>
    obtain ⟨hstate, hreason⟩ := ckptStatus_written (s.setFld F.UPD_CKPT_CTL_GO ctx 1) ctx 1
    exact ⟨hstate, hreason, fun h => by cases h⟩

/-- What the verification of an image reads is read (R311). -/
def State.imageRead (s : State) (ctx : Nat) : State :=
  s.spaceTouch (s.fld F.UPD_CKPT_ADDR_SPACE ctx) (4096 * s.fld F.UPD_CKPT_ADDR_ADDR ctx) (s.storedImage ctx).length

/-- RESTORE of an image that verifies, with no step open, begins (R311). -/
theorem State.ckptRestore_begins (hidle : s.ckptBusy ctx = false) (hnone : NMap.get? s.steps ctx = none)
    (hverified : (s.imageRead ctx).restoreError ctx ((s.imageRead ctx).storedImage ctx) = 0) (hctx : ctx < 256) :
    (s.ckptRestore ctx).fld F.UPD_CKPT_STATUS_STATE ctx = 5 ∧ (s.ckptRestore ctx).fld F.UPD_CKPT_STATUS_REASON ctx = 0 := by
  have hbegins : s.ckptRestore ctx =
      ((((s.imageRead ctx).setFld F.UPD_CKPT_CTL_RESTORE ctx 1).setFld F.UPD_CKPT_STATUS_REASON ctx 0).setFld F.UPD_CKPT_STATUS_STATE ctx 5).startCopies
        ctx .restore (((s.imageRead ctx).recsHere ctx ((s.imageRead ctx).storedImage ctx)).map (·.2)) := by
    rw [State.ckptRestore, hidle, hnone]
    exact if_neg (not_not.mpr hverified)
  have hkept := State.ckptKept.refl.startCopies (s := (((s.imageRead ctx).setFld F.UPD_CKPT_CTL_RESTORE ctx 1).setFld F.UPD_CKPT_STATUS_REASON ctx
    0).setFld F.UPD_CKPT_STATUS_STATE ctx 5) ctx .restore (((s.imageRead ctx).recsHere ctx ((s.imageRead ctx).storedImage ctx)).map (·.2))
  rw [hbegins, hkept.fld (by decide) hctx, hkept.fld (by decide) hctx]
  refine ⟨?state, ?reason⟩
  case state => rw [fld_setFld_self _ _ (by decide)]; rfl
  case reason =>
    rw [fld_setFld_apart _ (f := F.UPD_CKPT_STATUS_STATE) (g := F.UPD_CKPT_STATUS_REASON) (by decide) (.inl (by decide)) rfl,
      fld_setFld_self _ _ (by decide), Nat.zero_mod]

end

-- # The image is written, and its end is told (R310)

section
variable {s : State} {ctx : Fin 256} (hstate : s.fld F.UPD_CKPT_STATUS_STATE ctx = 2)
include hstate

/-- The image of the logical point is written where the length allows it, and the apply passes of a round that waited go on. -/
theorem execCheckpointWrite_due (hdue : s.ckptDue.contains ctx.val = true) :
    let img := NMap.getD s.ckptImages ctx []
    let t := { s with ckptDue := s.ckptDue.filter (· != ctx.val), ckptImages := NMap.erase s.ckptImages ctx }
    let t := (t.setFld F.UPD_CKPT_STATUS_MIB ctx (mibOf img.length)).endCopies ctx .copy
    let t := if img.length ≤ 1048576 * t.fld F.UPD_CKPT_CTL_LEN_MIB ctx then
        t.spaceWrite (t.fld F.UPD_CKPT_ADDR_SPACE ctx) (4096 * t.fld F.UPD_CKPT_ADDR_ADDR ctx) img
      else t.setFld F.UPD_CKPT_STATUS_REASON ctx 5
    exec (.checkpointWrite ctx) s = .next (t.goOnApplying ctx) := by
  intro img cleared ended t
  have ht : (if 1048576 * ended.fld F.UPD_CKPT_CTL_LEN_MIB ctx < img.length then ended.setFld F.UPD_CKPT_STATUS_REASON ctx 5
      else ended.spaceWrite (ended.fld F.UPD_CKPT_ADDR_SPACE ctx) (4096 * ended.fld F.UPD_CKPT_ADDR_ADDR ctx) img) = t := by
    simp only [t, ← Nat.not_lt, ite_not]
  rw [← ht]
  change execCheckpointWrite ctx s = _
  exact if_pos ⟨hstate, hdue⟩

/-- A checkpoint whose image is written ends well: GO is cleared, and event 0x0605 names its size. -/
theorem execCheckpointDone_written (hwritten : s.ckptDue.contains ctx.val = false) (hreason : s.fld F.UPD_CKPT_STATUS_REASON ctx = 0) :
    exec (.checkpointDone ctx) s = .next (((s.setFld F.UPD_CKPT_CTL_GO ctx 0).setFld F.UPD_CKPT_STATUS_STATE ctx 3).raise (.context ctx) 0x0605 0 0
      (s.fld F.UPD_CKPT_STATUS_MIB ctx)) := by
  have hkeeps {f : Field} (hf : f.reg ≠ .UPD_CKPT_CTL) : (s.setFld F.UPD_CKPT_CTL_GO ctx 0).fld f ctx = s.fld f ctx :=
    fld_setFld_of_reg_ne s hf ctx 0
  change execCheckpointDone ctx s = _
  rw [execCheckpointDone, if_pos ⟨hstate, by rw [hwritten]; exact Bool.false_ne_true⟩]
  dsimp only
  rw [hkeeps (f := F.UPD_CKPT_STATUS_REASON) (by decide), if_pos hreason, hkeeps (f := F.UPD_CKPT_STATUS_MIB) (by decide)]

end

-- # The end of a restore (R312, R313)

/-- The counts of an image's crozier are written to its registers. -/
def State.restoreCounts (s : State) (ctx : Nat) (img : List Byte) : State :=
  ((s.setFld F.UPD_CROZ_T_T ctx (leNat ((img.drop 24).take 8))).setFld F.UPD_CROZ_P_P1 ctx (leNat ((img.drop 32).take 4))).setFld
    F.UPD_CROZ_P_P2 ctx (leNat ((img.drop 36).take 4))

/-- So many bytes of an image spell no more than they can. -/
theorem leNat_slice_lt (img : List Byte) (o n : Nat) : leNat ((img.drop o).take n) < 2 ^ (8 * n) :=
  Nat.lt_of_lt_of_le (leNat_lt _) (Nat.pow_le_pow_right Nat.two_pos (Nat.mul_le_mul_left 8 (List.length_take_le ..)))

theorem restoreCounts_shown (s : State) (ctx : Nat) (img : List Byte) :
    (s.restoreCounts ctx img).fld F.UPD_CROZ_T_T ctx = leNat ((img.drop 24).take 8) ∧
      (s.restoreCounts ctx img).fld F.UPD_CROZ_P_P1 ctx = leNat ((img.drop 32).take 4) ∧
      (s.restoreCounts ctx img).fld F.UPD_CROZ_P_P2 ctx = leNat ((img.drop 36).take 4) := by
  unfold State.restoreCounts
  refine ⟨?t, ?p1, ?p2⟩
  case t =>
    rw [fld_setFld_of_reg_ne _ (f := F.UPD_CROZ_P_P2) (g := F.UPD_CROZ_T_T) (by decide),
      fld_setFld_of_reg_ne _ (f := F.UPD_CROZ_P_P1) (g := F.UPD_CROZ_T_T) (by decide), fld_setFld_self _ _ (by decide)]
    exact Nat.mod_eq_of_lt (leNat_slice_lt img 24 8)
  case p1 =>
    rw [fld_setFld_apart _ (f := F.UPD_CROZ_P_P2) (g := F.UPD_CROZ_P_P1) (by decide) (.inl (by decide)) rfl, fld_setFld_self _ _ (by decide)]
    exact Nat.mod_eq_of_lt (leNat_slice_lt img 32 4)
  case p2 =>
    rw [fld_setFld_self _ _ (by decide)]
    exact Nat.mod_eq_of_lt (leNat_slice_lt img 36 4)

/-- What a restore makes of the planes: each shard as its record has it, and those that another device holds marked stale (R312). -/
def State.restorePlanes (s : State) (ctx : Nat) (img : List Byte) : State :=
  (s.each (s.recsHere ctx img) fun r s => s.restoreShard ctx (leNat ((img.drop 8).take 8)) r.1 r.2).each
    ((s.each (s.recsHere ctx img) fun r s => s.restoreShard ctx (leNat ((img.drop 8).take 8)) r.1 r.2).shards ctx) fun x s =>
      s.when (!(s.owns x || s.mirrors x)) fun s => s.setShardFlags x (x.flags ||| 4)

/-- What a restore makes of the rest beside the counts: the schedule, the scales and the outer state (R313, R449), under a page guard (R563). -/
def State.restoreRest (s : State) (ctx : Nat) (img : List Byte) : State :=
  let base := s.crozBase ctx
  let s := (s.devWrite base (((imagePart img 2).getD []).take 1088)).crozValidate ctx base base
  let s := (s.restoreScale ctx img).restoreOuter ctx img
  (s.setFld F.CIP_PAGE_GUARD_SEQ ctx s.loadSeq).setFld F.CIP_PAGE_GUARD_ACTIVE ctx 1

/-- A restore that has written everything is over, and its engines are free. -/
def State.restoreOver (s : State) (ctx n : Nat) : State :=
  (((s.setFld F.UPD_CKPT_STATUS_STATE ctx 6).setFld F.UPD_CKPT_CTL_RESTORE ctx 0).endCopies ctx .restore).raise (.context ctx) 0x0607 0 0 n

theorem execRestoreDone_eq {s : State} {ctx : Fin 256} (hstate : s.fld F.UPD_CKPT_STATUS_STATE ctx = 5) :
    let u := s.imageRead ctx
    let img := u.storedImage ctx
    exec (.restoreDone ctx) s =
      .next ((((u.restorePlanes ctx img).restoreCounts ctx img).restoreRest ctx img).restoreOver ctx (u.recsHere ctx img).length) :=
  if_neg (not_not.mpr hstate)

/-- Nothing of the rest touches the counts. -/
theorem restoreRest_ckptKept (s : State) {ctx : Nat} (hctx : ctx < 256) (img : List Byte) : s.ckptKept (s.restoreRest ctx img) := by
  refine State.ckptKept.setFld_above (f := F.CIP_PAGE_GUARD_ACTIVE) ?_ (by decide) ..
  refine State.ckptKept.setFld_above (f := F.CIP_PAGE_GUARD_SEQ) ?_ (by decide) ..
  exact (((State.ckptKept.refl.devWrite ..).crozValidate hctx ..).restoreScale ..).restoreOuter ..

/-- The end of a restore shows as state 6, and leaves the counts. -/
theorem restoreOver_shown (s : State) {ctx : Nat} (hctx : ctx < 256) (n : Nat) :
    (s.restoreOver ctx n).fld F.UPD_CKPT_STATUS_STATE ctx = 6 ∧
      ∀ f : Field, f.reg ∈ ckptRegs → f.reg ≠ .UPD_CKPT_STATUS → (s.restoreOver ctx n).fld f ctx = s.fld f ctx := by
  have hkept : (s.setFld F.UPD_CKPT_STATUS_STATE ctx 6).ckptKept (s.restoreOver ctx n) :=
    ((State.ckptKept.refl.setFld (f := F.UPD_CKPT_CTL_RESTORE) (by decide) (by omega) 0).endCopies ..).raise_context ..
  refine ⟨?_, fun f hmem hne => ?_⟩
  · rw [hkept.fld (by decide) hctx, fld_setFld_self _ _ (by decide)]
    rfl
  · rw [hkept.fld hmem hctx, fld_setFld_of_reg_ne s hne]

/-- Settles O29: the writes act by `State.ckptGo_arms` and `State.ckptRestore_begins`, and what follows the counts of the crozier in a restore
leaves them (`restoreRest_ckptKept`, `restoreOver_shown`). That the image is written whole in one step at CHECKPOINT_WRITE is the model's choice
(log 39). -/
theorem checkpoints : Obligations.Checkpoints := by
  unfold Obligations.Checkpoints
  refine ⟨fun s fn ctx hgo hidle => ⟨fun hdriver => ?go, ?restore⟩, fun s ctx hstate => ⟨fun hdue => ?written, fun hwritten hreason => ?done⟩,
    fun s ctx hstate => ?restored⟩
  case go =>
    have hidle' : (s.lenStored ctx).ckptBusy ctx = false := (ckptBusy_setFld rfl _).trans hidle
    exact ⟨_, congrArg Host.Outcome.next (State.writeCkptCtl_go hgo ctx.isLt hdriver), State.ckptGo_arms hidle' ctx.isLt⟩
  case restore =>
    intro u v hnone hverified
    have hidle' : (s.lenStored ctx).ckptBusy ctx = false := (ckptBusy_setFld rfl _).trans hidle
    exact ⟨_, congrArg Host.Outcome.next (State.writeCkptCtl_restore hgo), State.ckptRestore_begins hidle' hnone hverified ctx.isLt⟩
  case written =>
    intro img t₁ t₂ t
    have hwrite : exec (.checkpointWrite ctx) s = .next (t.goOnApplying ctx) := execCheckpointWrite_due hstate hdue
    refine ⟨fun hnone => ?_, fun r happly => ?_⟩
    · rw [hwrite, State.goOnApplying, hnone]
    · rw [hwrite, State.goOnApplying, happly]
  case done => exact execCheckpointDone_written hstate hwritten hreason
  case restored =>
    intro u img
    obtain ⟨hsix, hcounts⟩ := restoreOver_shown (((u.restorePlanes ctx img).restoreCounts ctx img).restoreRest ctx img) ctx.isLt
      (u.recsHere ctx img).length
    obtain ⟨ht, hp1, hp2⟩ := restoreCounts_shown (u.restorePlanes ctx img) ctx img
    have hkept := restoreRest_ckptKept ((u.restorePlanes ctx img).restoreCounts ctx img) ctx.isLt img
    have hshown {f : Field} (hmem : f.reg ∈ ckptRegs) (hne : f.reg ≠ .UPD_CKPT_STATUS) :
        ((((u.restorePlanes ctx img).restoreCounts ctx img).restoreRest ctx img).restoreOver ctx (u.recsHere ctx img).length).fld f ctx =
          ((u.restorePlanes ctx img).restoreCounts ctx img).fld f ctx := (hcounts f hmem hne).trans (hkept.fld hmem ctx.isLt)
    exact ⟨_, execRestoreDone_eq hstate, hsix, (hshown (by decide) (by decide)).trans ht, (hshown (by decide) (by decide)).trans hp1,
      (hshown (by decide) (by decide)).trans hp2⟩

end Sys2Proof.Machine
end

section
/-! SUPPORT. What every step keeps (O48): the canonical form of the byte memories, through a choice, a list of changes, a pair and
the state's shared operations. -/

namespace Sys2Proof.Machine

/-- An answer leaves the byte memories in their canonical form, where it leaves a state. -/
def Answer.canonical (a : Answer) : Prop := ∀ t, a = .next t → t.memoriesCanonical

/-- What applies a watch's addition keeps the canonical form. -/
def Act.keepsForm (f : Act) : Prop := ∀ t target inc tag, t.memoriesCanonical → (f t target inc tag).memoriesCanonical

namespace Answer.canonical

theorem next {s : State} (h : s.memoriesCanonical) : Answer.canonical (.next s) := fun _ ht => Host.Outcome.next.inj ht ▸ h

theorem fault {r : Fault} : Answer.canonical (.fault r) := fun _ ht => nomatch ht

theorem refused {r : Refusal} : Answer.canonical (.refused r) := fun _ ht => nomatch ht

theorem ite {c : Prop} {_ : Decidable c} {a b : Answer} (ha : a.canonical) (hb : b.canonical) : Answer.canonical (if c then a else b) := by
  split
  · exact ha
  · exact hb

end Answer.canonical

namespace State.memoriesCanonical

-- # A choice, a list of changes, and a pair

theorem ite {c : Prop} {_ : Decidable c} {s t : State} (hs : s.memoriesCanonical) (ht : t.memoriesCanonical) :
    (if c then s else t).memoriesCanonical := by
  split
  · exact hs
  · exact ht

theorem ite_fst {α : Type} {c : Prop} {_ : Decidable c} {p q : State × α} (hp : p.1.memoriesCanonical) (hq : q.1.memoriesCanonical) :
    (if c then p else q).1.memoriesCanonical := by
  split
  · exact hp
  · exact hq

/-- A change of the other parts of the state. -/
theorem same {s t : State} (h : s.memoriesCanonical) (heq : (t.mem, t.host, t.store) = (s.mem, s.host, s.store)) : t.memoriesCanonical := by
  obtain ⟨hmem, hhost, hstore⟩ := by simpa only [Prod.mk.injEq] using heq
  exact ⟨hmem ▸ h.1, hhost ▸ h.2.1, hstore ▸ h.2.2⟩

theorem fst_of_eq {α : Type} {p : State × α} {t : State} {a : α} (h : p.1.memoriesCanonical) (heq : p = (t, a)) : t.memoriesCanonical := by
  rwa [heq] at h

theorem snd_fst_of_eq {α β : Type} {p : α × State × β} {t : State} {a : α} {b : β} (h : p.2.1.memoriesCanonical) (heq : p = (a, t, b)) :
    t.memoriesCanonical := by
  rwa [heq] at h

section
variable {s : State} (h : s.memoriesCanonical)
include h

theorem elim {α : Type} {o : Option α} {f : α → State} (hf : ∀ a, (f a).memoriesCanonical) : (o.elim s f).memoriesCanonical := by
  cases o with
  | none => exact h
  | some a => exact hf a

theorem foldl {α : Type} {l : List α} {f : State → α → State} (hf : ∀ {x t}, t.memoriesCanonical → (f t x).memoriesCanonical) :
    (l.foldl f s).memoriesCanonical := by
  induction l generalizing s with
  | nil => exact h
  | cons x rest ih => exact ih (hf h)

theorem foldl_fst {α β : Type} {b : β} {l : List α} {f : State × β → α → State × β}
    (hf : ∀ {x c t}, t.memoriesCanonical → (f (t, c) x).1.memoriesCanonical) : (l.foldl f (s, b)).1.memoriesCanonical := by
  induction l generalizing s b with
  | nil => exact h
  | cons x rest ih => exact ih (hf h)

-- # Machine/Ops.lean

theorem when {c} {f : State → State} (hf : ∀ {t}, t.memoriesCanonical → (f t).memoriesCanonical) : (s.when c f).memoriesCanonical :=
  .ite (hf h) h

theorem each {α : Type} {l : List α} {f : α → State → State} (hf : ∀ {x t}, t.memoriesCanonical → (f x t).memoriesCanonical) :
    (s.each l f).memoriesCanonical :=
  h.foldl hf

theorem draw {n} : (s.draw n).2.memoriesCanonical := h
theorem setReg {r i v} : (s.setReg r i v).memoriesCanonical := h
theorem setFld {f i v} : (s.setFld f i v).memoriesCanonical := h.setReg
theorem bumpFld {f i v} : (s.bumpFld f i v).memoriesCanonical := h.setFld
theorem clearReg {r i} : (s.clearReg r i).memoriesCanonical := h
theorem setDevByte {a b} : (s.setDevByte a b).memoriesCanonical := setDevByte_canonical h a b
theorem devBytes {a bs} : (s.devBytes a bs).memoriesCanonical := devBytes_canonical h a bs
theorem cacheAccess {write hint a n} : (s.cacheAccess write hint a n).memoriesCanonical := h
theorem touch {a n} : (s.touch a n).memoriesCanonical := h.cacheAccess
theorem devStore {hint a bs} : (s.devStore hint a bs).memoriesCanonical := devStore_canonical h hint a bs
theorem devWrite {a bs} : (s.devWrite a bs).memoriesCanonical := devWrite_canonical h a bs
theorem spaceWrite {space a bs} : (s.spaceWrite space a bs).memoriesCanonical := spaceWrite_canonical h space a bs
theorem spaceTouch {space a n} : (s.spaceTouch space a n).memoriesCanonical := .ite h h.touch
theorem storeWrite {tile off bs} : (s.storeWrite tile off bs).memoriesCanonical := storeWrite_canonical h tile off bs
theorem emit {o} : (s.emit o).memoriesCanonical := h
theorem msix {fn vector} : (s.msix fn vector).memoriesCanonical := .ite h.emit h
theorem noteLimit {key} : (s.noteLimit key).memoriesCanonical := h
theorem setRing {fn r} : (s.setRing fn r).memoriesCanonical := h

theorem ringWrite {fn e} : (s.ringWrite fn e).memoriesCanonical := by
  unfold State.ringWrite
  exact h.spaceWrite.setFld.setFld.setRing.when fun h => h.msix

theorem ringLost {fn} : (s.ringLost fn).memoriesCanonical := .ite h.ringWrite.setFld h
theorem deliver {fn e} : (s.deliver fn e).memoriesCanonical := .ite (.ite h.ringWrite h.bumpFld) (.ite h.setRing h.bumpFld)

theorem raise {sc code sev source detail} : (s.raise sc code sev source detail).memoriesCanonical := by
  unfold State.raise
  split
  · exact h.deliver
  · exact h.deliver.when fun h => h.deliver
  · exact h.deliver.when fun h => h.deliver

theorem raiseLimited {key interval sc code sev source detail} : (s.raiseLimited key interval sc code sev source detail).memoriesCanonical :=
  .ite h.noteLimit.raise h

theorem beginAt {kind i} : (s.beginAt kind i).memoriesCanonical := h
theorem endOf {kind i} : (s.endOf kind i).memoriesCanonical := h
theorem blocked {fn bar offset} : (s.blocked fn bar offset).memoriesCanonical := h.bumpFld.setFld.setFld.raiseLimited
theorem outside {agent ctx a} : (s.outside agent ctx a).memoriesCanonical := (h.when fun h => h.setFld.setFld.setFld.setFld).bumpFld.raiseLimited
theorem reachMemory {agent ctx a n} : (s.reachMemory agent ctx a n).memoriesCanonical := h.when fun h => h.outside
theorem failure {kind i} : (s.failure kind i).2.memoriesCanonical := h
theorem setQueue {q v} : (s.setQueue q v).memoriesCanonical := h
theorem modQueue {q f} : (s.modQueue q f).memoriesCanonical := h.setQueue
theorem modCmd {q c f} : (s.modCmd q c f).memoriesCanonical := h.modQueue
theorem pushRec {q x status detail result} : (s.pushRec q x status detail result).memoriesCanonical := h.modQueue

theorem finish {q c status detail result} : (s.finish q c status detail result).memoriesCanonical := by
  unfold State.finish
  split
  · exact h
  · exact h.pushRec.each fun h => h.pushRec

theorem finishFree {q c status detail} : (s.finishFree q c status detail).memoriesCanonical := (h.same (by rfl)).finish
theorem begin {q c} : (s.begin q c).memoriesCanonical := h.modCmd
theorem setTile {t x} : (s.setTile t x).memoriesCanonical := h
theorem modTile {t f} : (s.modTile t f).memoriesCanonical := h.setTile
theorem modLaunch {q c f} : (s.modLaunch q c f).memoriesCanonical := h
theorem markNx {q c} : (s.markNx q c).memoriesCanonical := h.modCmd.modLaunch
theorem loseShard {q c shard} : (s.loseShard q c shard).memoriesCanonical := h.modLaunch
theorem discardQueue {q c t} : (s.discardQueue q c t).memoriesCanonical := (h.foldl fun h => h.loseShard).modTile

theorem launchFault {q c status detail tile bundle} : (s.launchFault q c status detail tile bundle).memoriesCanonical := by
  unfold State.launchFault
  split
  · exact h
  · exact .ite h (h.modLaunch.each fun h => h.discardQueue)

theorem stopCmd {q x status} : (s.stopCmd q x status).memoriesCanonical := by
  unfold State.stopCmd
  refine .ite h ?_
  dsimp only
  split
  · exact h.modCmd
  · exact h.modCmd.each fun h => h.discardQueue

theorem setPhase {t k} : (s.setPhase t k).memoriesCanonical := h.modTile

theorem tileFault {t status detail} : (s.tileFault t status detail).memoriesCanonical := by
  unfold State.tileFault
  dsimp only
  split
  · exact h.setTile.setPhase
  · split
    · exact h.setTile.setPhase.launchFault.loseShard
    · exact h.setTile.setPhase.launchFault

theorem modStep {ctx f} : (s.modStep ctx f).memoriesCanonical := by
  unfold State.modStep
  split
  · exact h
  · exact h

theorem showReplay {ctx result point shard} : (s.showReplay ctx result point shard).memoriesCanonical := h.setFld.setFld.setFld
theorem activityIn {ctx k} : (s.activityIn ctx k).memoriesCanonical := h.modStep
theorem activityOut {ctx k} : (s.activityOut ctx k).memoriesCanonical := h.modStep

-- # Machine/Flags.lean

theorem setInv {ctx tile set v} : (s.setInv ctx tile set v).memoriesCanonical := h.setFld

theorem recordNum {ctx e} : (s.recordNum ctx e).2.memoriesCanonical := by
  unfold State.recordNum
  dsimp only
  split
  · exact h.setReg.setReg.setReg.setReg.setFld
  · exact h.bumpFld

theorem numException {l e} : (s.numException l e).memoriesCanonical := by
  unfold State.numException
  refine .ite h (.ite ?_ (h.recordNum.markNx.when fun h => h.modLaunch))
  dsimp only
  split
  · exact (h.recordNum.markNx.when fun h => h.modLaunch).modTile.launchFault.loseShard
  · exact (h.recordNum.markNx.when fun h => h.modLaunch).modTile.launchFault

-- # Machine/Link.lean

theorem modPort {p f} : (s.modPort p f).memoriesCanonical := h
theorem putFlit {p f lseq nak} : (s.putFlit p f lseq nak).memoriesCanonical := h.emit
theorem sendIdle {p nak} : (s.sendIdle p nak).memoriesCanonical := h.putFlit
theorem sendFlit {p f} : (s.sendFlit p f).memoriesCanonical := h.modPort.putFlit

theorem giveBack {came} : (s.giveBack came).memoriesCanonical := by
  unfold State.giveBack
  split
  · exact h.putFlit
  · exact h

theorem takeHeld {tag} : (s.takeHeld tag).memoriesCanonical := (h.same (by rfl)).each fun h => h.giveBack

theorem drain {n p} : (State.drain n s p).memoriesCanonical := by
  induction n generalizing s with
  | zero => exact h
  | succ n ih => exact .ite h (by split; exacts [h, ih h.modPort.sendFlit.giveBack])

theorem drainPort {p} : (s.drainPort p).memoriesCanonical := h.drain
theorem unreachable {p dst} : (s.unreachable p dst).memoriesCanonical := h.bumpFld.setFld.raiseLimited
theorem enqueue {p f came} : (s.enqueue p f came).memoriesCanonical := h.modPort

theorem sendOn {f came} : (s.sendOn f came).memoriesCanonical := by
  unfold State.sendOn
  dsimp only
  split
  · exact h.enqueue.drainPort
  · split
    · exact h.enqueue.drainPort
    · exact h.enqueue.drainPort
    · exact h.unreachable.giveBack
    · exact h

theorem rehome {p} : (s.rehome p).memoriesCanonical := .ite h (h.modPort.each fun h => h.sendOn)
theorem forgetCame {p} : (s.forgetCame p).memoriesCanonical := h

theorem carry {dsts o} : (s.carry dsts o).memoriesCanonical := by
  unfold State.carry
  split
  · exact h
  · exact (h.same (by rfl)).each fun h => h.each fun h => h.sendOn

theorem post {dsts o} : (s.post dsts o).memoriesCanonical := .ite h h.carry.emit

theorem carryMir {o} : (s.carryMir o).memoriesCanonical := by
  unfold State.carryMir
  split
  · exact h
  · exact .drainPort ((h.same (by rfl)).each fun h => h.enqueue)

theorem postMir {o} : (s.postMir o).memoriesCanonical := .ite h h.carryMir.emit

-- # Machine/Track.lean

theorem setDesc {ctx t off n v} : (s.setDesc ctx t off n v).memoriesCanonical := h.devWrite.devWrite
theorem setScale {ctx t b off n v} : (s.setScale ctx t b off n v).memoriesCanonical := h.devWrite.devWrite
theorem chill {ctx t b} : (s.chill ctx t b).memoriesCanonical := h.setScale.setScale.setScale
theorem chillAll {ctx t} : (s.chillAll ctx t).memoriesCanonical := (h.each fun h => h.chill).raise
theorem healDesc {ctx t} : (s.healDesc ctx t).memoriesCanonical := h.raise.devWrite.setDesc.setDesc.chillAll

theorem openConv {q c t} : (s.openConv q c t).memoriesCanonical := by
  unfold State.openConv
  split
  · exact h
  · exact .ite h (.ite h.modLaunch h.modLaunch.healDesc)

theorem useBlock {q c t b} : (s.useBlock q c t b).memoriesCanonical := by
  unfold State.useBlock
  split
  · exact h
  · exact .ite (h.modLaunch.when fun h => h.chill.raise) h

theorem trackLane {q c t k} : (s.trackLane q c t k).memoriesCanonical := by
  unfold State.trackLane
  split
  · exact h
  · refine .ite ?_ (((h.useBlock.modLaunch.when fun h => h.modLaunch).when fun h => h.setScale).when fun h => h.setScale)
    split
    · exact .ite h h.modLaunch.raise
    · exact h

theorem useElems {q c t xs} : (s.useElems q c t xs).memoriesCanonical := by
  unfold State.useElems
  refine .ite h ?_
  dsimp only
  split
  · exact h.openConv
  · exact h.openConv.each fun h => h.useBlock

theorem trackLanes {q c t ks} : (s.trackLanes q c t ks).memoriesCanonical := .ite h (h.openConv.each fun h => h.trackLane)

theorem rollBlock {ctx t st last clear b} : (s.rollBlock ctx t st last clear b).memoriesCanonical :=
  ((h.devWrite.setScale.when fun h => h.raise).when fun h => h.setScale).setScale.setScale

theorem underflowWatch {ctx t st fresh zero n} : (s.underflowWatch ctx t st fresh zero n).memoriesCanonical := by
  unfold State.underflowWatch
  refine .ite (.ite ?_ (.raise (.setDesc ?_))) (.when ?_ fun h => h.setDesc)
  all_goals exact h.setDesc.when fun h => h.raise

theorem coldUnused {ctx v} : (s.coldUnused ctx v).memoriesCanonical := by
  unfold State.coldUnused
  exact (h.each fun h => h.chill).when fun h => h.raise

theorem roll {ctx st nonzero v} : (s.roll ctx st nonzero v).memoriesCanonical := by
  unfold State.roll
  refine .ite h.raise (.underflowWatch (.when (.when (.setDesc ?_) fun h => h.raise) fun h => h.setDesc))
  exact (h.coldUnused.each fun h => h.when fun h => h.devWrite).devWrite.each fun h => h.rollBlock

-- # Machine/Shard.lean

theorem setShardFlags {x flags} : (s.setShardFlags x flags).memoriesCanonical := h.devWrite.devWrite
theorem setShardOwner {x owner twin flags} : (s.setShardOwner x owner twin flags).memoriesCanonical := h.devWrite.setShardFlags
theorem storeMaster {x i enc} : (s.storeMaster x i enc).memoriesCanonical := h.devWrite.when fun h => h.devWrite
theorem deriveElem {x i} : (s.deriveElem x i).memoriesCanonical := h.devWrite
theorem derive {x} : (s.derive x).memoriesCanonical := h.each fun h => h.deriveElem
theorem guardWork {a n} : (s.guardWork a n).memoriesCanonical := h.each fun h => h.when fun h => h.each fun h => h.when fun h => h.setShardFlags

-- # Machine/Bodies.lean

theorem flightDone {t f} : (s.flightDone t f).memoriesCanonical := by
  unfold State.flightDone
  split
  · exact h.setInv.numException
  · exact h

theorem drainFlights {t} : (s.drainFlights t).memoriesCanonical := h.modTile.each fun h => h.flightDone
theorem loadCode {t key} : (s.loadCode t key).memoriesCanonical := h.storeWrite
theorem refetchPage {t key bundle} : (s.refetchPage t key bundle).memoriesCanonical := h.storeWrite
theorem startBody {t d forced} : (s.startBody t d forced).memoriesCanonical := .ite h.drainFlights h.drainFlights.storeWrite.setTile.setPhase
theorem beginGathers {l} : (s.beginGathers l).memoriesCanonical := (h.same (by rfl)).each fun h => h.activityIn

theorem sendUses {l} : (s.sendUses l).memoriesCanonical := by
  unfold State.sendUses
  split
  · exact h
  · exact .ite h (h.each fun h => h.each fun h => (by split; exacts [h.touch.post, h])).modStep

theorem tiePoint {t} : (s.tiePoint t).memoriesCanonical := by
  unfold State.tiePoint
  split
  · exact h.when fun h => h.beginGathers.sendUses
  · exact h

theorem tryEnd {t} : (s.tryEnd t).memoriesCanonical := by
  unfold State.tryEnd
  dsimp only
  split
  · exact h
  · split
    · exact .ite h.setTile h.startBody
    · exact (h.setTile.setPhase.when fun h => h.modLaunch).tiePoint

theorem forceShard {t} : (s.forceShard t).memoriesCanonical := by
  unfold State.forceShard
  dsimp only
  split
  · exact h
  · refine .ite h ?_
    split
    · exact h.startBody
    · exact h

theorem endBody {t} : (s.endBody t).memoriesCanonical := by
  unfold State.endBody
  dsimp only
  split
  · exact h.drainFlights
  · refine .ite (.modTile (.setPhase (.setTile ?_))) (.ite (.tryEnd (.setPhase (.setTile ?_))) (.tiePoint (.forceShard (.setPhase (.setTile ?_)))))
    · split
      · exact h.drainFlights.setInv
      · exact h.drainFlights
    · split
      · exact h.drainFlights.setInv
      · exact h.drainFlights
    · split
      · exact h.drainFlights.setInv
      · exact h.drainFlights

theorem releaseTile {t reached} : (s.releaseTile t reached).memoriesCanonical := h.modTile

theorem releaseBody {t reached} : (s.releaseBody t reached).memoriesCanonical := by
  unfold State.releaseBody
  dsimp only
  split
  · exact .ite h.setTile.endBody h.setTile
  · exact h

theorem failTile {t status detail} : (s.failTile t status detail).memoriesCanonical := by
  unfold State.failTile
  dsimp only
  split
  · exact h.launchFault
  · exact h.tileFault

-- # Machine/Stash.lean

theorem showArena {x} : (s.showArena x).memoriesCanonical := h.setFld

theorem modArena {ctx place f} : (s.modArena ctx place f).memoriesCanonical := by
  unfold State.modArena
  split
  · exact h
  · exact (h.same (by rfl)).showArena

theorem stashDo {a} : (s.stashDo a).memoriesCanonical := by
  unfold State.stashDo
  split
  · exact h.modArena
  · exact h.modArena
  · split
    · exact h
    · split
      · exact h
      · exact h.devWrite.bumpFld.modArena

theorem stashRead {x} : (s.stashRead x).memoriesCanonical := by
  unfold State.stashRead
  refine .ite h ?_
  split
  · exact h
  · exact h.modArena

theorem seeMarks {x} : (s.seeMarks x).memoriesCanonical := by
  unfold State.seeMarks
  split
  · exact h
  · exact h.modTile

end
end State.memoriesCanonical
end Sys2Proof.Machine
end

section
/-! SUPPORT. The canonical form of the byte memories through synchronisation objects, the effects of a bundle, the decision, the flash and
the reports of memory. -/

namespace Sys2Proof.Machine
namespace State.memoriesCanonical
section
variable {s : State} (h : s.memoriesCanonical)
include h

-- # Machine/SyncOps.lean

theorem setObj {k o} : (s.setObj k o).memoriesCanonical := h

theorem modObj {k f} : (s.modObj k f).memoriesCanonical := by
  unfold State.modObj
  split
  · exact h
  · exact h.setObj

theorem setNring {ctx r} : (s.setNring ctx r).memoriesCanonical := h

theorem nringWrite {ctx e} : (s.nringWrite ctx e).memoriesCanonical := by
  unfold State.nringWrite
  exact h.spaceWrite.setFld.setFld.setNring.when fun h => h.msix

theorem notify {ctx e} : (s.notify ctx e).memoriesCanonical :=
  .ite h.bumpFld (.ite h.nringWrite (.ite (.ite h.setNring h.setNring) (.ite h.setNring h.bumpFld)))

theorem nringFlush {n ctx} : (State.nringFlush n s ctx).memoriesCanonical := by
  induction n generalizing s with
  | zero => exact h
  | succ n ih => exact .ite h (by split; exacts [ih h.setNring.nringWrite, .ite h h.nringWrite.setFld])

theorem traceRec {ctx vid o event src value} : (s.traceRec ctx vid o event src value).memoriesCanonical := h.when fun h => h.notify

theorem protoError {ctx vid code src value} : (s.protoError ctx vid code src value).memoriesCanonical :=
  .ite (h.when fun h => h.setFld.setFld.setFld.setFld.setFld).notify (h.when fun h => h.setFld.setFld.setFld.setFld.setFld).bumpFld

theorem releaseWaiter {who value} : (s.releaseWaiter who value).memoriesCanonical := by
  unfold State.releaseWaiter
  split
  · exact h.releaseTile
  · exact h.releaseBody
  · exact .ite h h.finish

theorem failWaiter {who status detail} : (s.failWaiter who status detail).memoriesCanonical := by
  unfold State.failWaiter
  split
  · exact h.failTile
  · exact h.tileFault
  · exact h.finishFree

theorem traceRelease {k o w} : (s.traceRelease k o w).memoriesCanonical := h.traceRec
theorem failAll {k o status detail} : (s.failAll k o status detail).memoriesCanonical := h.modObj.each fun h => h.traceRelease.failWaiter

theorem enterError {k vid code} : (s.enterError k vid code).memoriesCanonical := by
  unfold State.enterError
  split
  · exact h
  · exact h.setObj.failAll

theorem wake {ctx k side} : (s.wake ctx k side).memoriesCanonical := by
  unfold State.wake
  split
  · exact h
  · exact h.setObj.each fun h => h.traceRec.releaseWaiter

theorem dropWatch {ctx k w} : (s.dropWatch ctx k w).memoriesCanonical := h.modObj.setFld.setFld

theorem fire {act : Option Act} {ctx k v w} (hact : ∀ f ∈ act, f.keepsForm) : (s.fire act ctx k v w).memoriesCanonical := by
  unfold State.fire
  refine .ite ?_ (.when (.ite h.modObj h.dropWatch) fun h => h.notify)
  split
  · exact hact _ rfl _ _ _ _ (.when (.ite h.modObj h.dropWatch) fun h => h.notify)
  · exact .protoError (.when (.ite h.modObj h.dropWatch) fun h => h.notify)

theorem fireList {act : List Watch → Option Act} {ctx k side l} (hact : ∀ l, ∀ f ∈ act l, f.keepsForm) :
    (State.fireList act ctx k side l s).memoriesCanonical := by
  induction l generalizing s with
  | nil => exact h
  | cons w rest ih => exact ih (by split; exacts [h, .ite (h.fire (hact rest)) h])

theorem fireAll {act : Later → Option Act} {later ctx k side} (hact : ∀ l, ∀ f ∈ act l, f.keepsForm) :
    (s.fireAll act later ctx k side).memoriesCanonical := by
  unfold State.fireAll
  split
  · exact h
  · exact h.fireList fun _ => hact _

theorem applyInc {fuel park later ctx vid inc src reply} :
    (State.applyInc fuel park later s ctx vid inc src reply).1.memoriesCanonical := by
  induction fuel using Nat.strong_induction_on generalizing s park later ctx vid inc src reply with
  | _ fuel ih =>
    unfold State.applyInc
    split
    · exact h
    · exact h.protoError
    · refine ite_fst (ite_fst h.setObj (ite_fst h.setObj h)) (ite_fst h.protoError ?_)
      split
      · exact h
      · split
        · exact .ite h.protoError.enterError h.protoError
        · refine h.setObj.traceRec.wake.fireAll fun l f hf => ?_
          cases fuel with
          | zero => exact nomatch hf
          | succ n => exact fun _ _ _ _ h => Option.some_inj.mp hf ▸ ih n n.lt_succ_self h

theorem increment {ctx vid inc src reply} : (s.increment ctx vid inc src reply).1.memoriesCanonical := h.applyInc
theorem incrementOnce {ctx vid inc src reply} : (s.incrementOnce ctx vid inc src reply).1.memoriesCanonical := h.applyInc

theorem replyInc {r a} : (s.replyInc r a).memoriesCanonical := by
  unfold State.replyInc
  split
  · exact .ite h h.finish
  · exact h.finishFree
  · exact h.launchFault
  · exact h.emit
  · exact h.emit
  · exact h

theorem applyHeld {ctx l} : (s.applyHeld ctx l).1.memoriesCanonical := by
  induction l generalizing s with
  | nil => exact h
  | cons x rest ih => exact ih h.applyInc.replyInc

theorem waitOn {ctx vid target src who} : (s.waitOn ctx vid target src who).1.memoriesCanonical := by
  unfold State.waitOn
  split
  · exact h
  · exact h.protoError
  · split
    · exact h
    · split
      · exact h
      · exact h.setObj

theorem cancelWaits {who} : (s.cancelWaits who).memoriesCanonical := h

omit h in
/-- The first additions of watches keep the form. -/
theorem firstAct_keepsForm {ctx} : ∀ l, ∀ f ∈ firstAct ctx l, f.keepsForm := fun _ _ hf _ _ _ _ h => Option.some_inj.mp hf ▸ applyInc h

theorem completeEpoch {ctx k vid o} : (s.completeEpoch ctx k vid o).memoriesCanonical :=
  (h.setObj.each fun h => h.traceRec.releaseTile).wake.fireAll firstAct_keepsForm

theorem arrive {ctx vid se t} : (s.arrive ctx vid se t).1.memoriesCanonical := by
  unfold State.arrive
  dsimp only
  split
  · exact h
  · exact h.protoError
  · split
    · exact h
    · split
      · exact .ite h.protoError h.protoError.enterError
      · split
        · split
          · exact h.traceRec.completeEpoch
          · exact h.traceRec.setObj
        · exact h.traceRec.setObj

theorem leave {ctx vid t} : (s.leave ctx vid t).memoriesCanonical := by
  unfold State.leave
  split
  · exact .ite (.ite (.ite h.completeEpoch h.setObj) h.setObj) h
  · exact h

theorem abandon {ctx tiles} : (s.abandon ctx tiles).memoriesCanonical := h.each fun h => .ite h.protoError.enterError h
theorem makeObj {ctx vid kind die arg binder} : (s.makeObj ctx vid kind die arg binder).memoriesCanonical := h.setObj.setFld.setFld
theorem cancelWatch {ctx k w report} : (s.cancelWatch ctx k w report).memoriesCanonical := h.dropWatch.when fun h => h.notify

theorem unmakeObj {k status report} : (s.unmakeObj k status report).memoriesCanonical := by
  unfold State.unmakeObj
  split
  · exact h
  · refine .when (.setFld (.setFld (.same (.failAll (.each ?_ fun h => .ite ?_ h)) (by rfl)))) fun h => h.applyHeld
    all_goals exact h.each fun h => h.cancelWatch

-- # Machine/Operands.lean

theorem addTransfer {x} : (s.addTransfer x).memoriesCanonical := h

theorem stashStart {l x} : (s.stashStart l x).memoriesCanonical := by
  unfold State.stashStart
  split
  · exact (h.each fun h => h.stashDo).addTransfer
  · exact (h.each fun h => h.stashDo).incrementOnce.replyInc
  · exact h

theorem postDeferred {t l d} : (s.postDeferred t l d).memoriesCanonical := .ite h.loseShard h.modTile

protected theorem apply {t l e} : (Pass.apply t l s e).memoriesCanonical := by
  unfold Pass.apply
  split
  · exact h.storeWrite
  · exact h
  · exact h.addTransfer
  · exact .when (.when (.when ((h.same (by rfl)).takeHeld) fun h => h.activityIn) fun h => h.activityIn) fun h => h.activityIn
  · exact h.touch
  · exact h.stashStart
  · exact h.postDeferred
  · exact h.modTile
  · split
    · exact h.numException
    · exact h
  · exact h.setInv
  · exact h.modTile
  · exact h.trackLanes

theorem noteHeld {t} : (s.noteHeld t).memoriesCanonical := h.when fun h => h.setPhase
theorem noteStall {t} : (s.noteStall t).memoriesCanonical := (h.when fun h => h.modTile).noteHeld
theorem held {t} : (s.held t).memoriesCanonical := h.modTile.noteHeld
theorem stalled {t} : (s.stalled t).memoriesCanonical := h.modTile.noteStall

omit h in
/-- A signal of a bundle that passes keeps the form of what the bundle has left so far. -/
theorem signal {t l bundle vid inc} {p : Pass} (h : p.s.memoriesCanonical) : (Pass.signal t l bundle p vid inc).s.memoriesCanonical := by
  have hinc := h.increment (ctx := l.ctx) (vid := vid) (inc := inc) (src := ⟨0, t⟩) (reply := .launch l.queue l.cmd t bundle)
  unfold Pass.signal
  split <;> rename_i heq <;> exact hinc.fst_of_eq heq

omit h in
/-- The signals of a bundle, one after another. -/
theorem signals {t l bundle} {p : Pass} {sig : List (Nat × Nat)} (h : p.s.memoriesCanonical) :
    (sig.foldl (fun p v => Pass.signal t l bundle p v.1 v.2) p).s.memoriesCanonical := by
  induction sig generalizing p with
  | nil => exact h
  | cons v rest ih => exact ih (signal h)

theorem passBundle {t} : (s.passBundle t).memoriesCanonical := by
  have hpass {u : State} {l : Launch} {x : Tile} {forces : Bool} (h : u.memoriesCanonical) :
      (if forces = true then
        (((x.effects.foldl (fun s e => Pass.apply t l s e) u).modTile t Tile.advance).each l.tiles fun t s => s.forceShard t).tiePoint t
        else (x.effects.foldl (fun s e => Pass.apply t l s e) u).modTile t Tile.advance).memoriesCanonical :=
    .ite ((h.foldl fun h => h.apply).modTile.each fun h => h.forceShard).tiePoint (h.foldl fun h => h.apply).modTile
  unfold State.passBundle
  dsimp only
  split
  · exact h
  · split
    · exact h.tileFault
    · refine .ite h.held ?_
      split
      · exact (signals h).tileFault
      · split
        · exact .ite (hpass (signals h)).endBody (hpass (signals h))
        · exact .ite (hpass (signals h)).tryEnd (hpass (signals h))

theorem enterPhase {c} : (s.enterPhase c).memoriesCanonical := h.when fun h => (h.when fun h => h.setPhase).modTile
theorem issued {hd c x} : (s.issued hd c x).memoriesCanonical := .ite h.setTile.enterPhase.passBundle h.setTile.enterPhase

theorem runSlot {hd need f} : (s.runSlot hd need f).canonical := by
  unfold State.runSlot
  refine .ite .refused ?_
  split
  · exact .next h
  · exact .next h
  · exact .next h.noteStall
  · exact .next h.modTile
  · exact .next h.tileFault
  · split
    · exact .next h.tileFault
    · exact .next h.outside.tileFault
    · exact .next h.stalled
    · exact .next h.held
    · exact .next h.issued
    · exact .ite (.next h.tileFault) (.next h.issued)

-- # Machine/Vector.lean

protected theorem floatOp {opcode f hd o} : (floatOp opcode f hd o s).canonical := h.runSlot
protected theorem fmaOp {opcode neg hd o} : (fmaOp opcode neg hd o s).canonical := h.runSlot
protected theorem floatOp1 {opcode f hd o} : (floatOp1 opcode f hd o s).canonical := h.floatOp
protected theorem intOp {opcode f hd o} : (intOp opcode f hd o s).canonical := h.runSlot
protected theorem execVshl {hd o} : (execVshl hd o s).canonical := h.intOp
protected theorem execVshr {hd o} : (execVshr hd o s).canonical := h.intOp
protected theorem execVsra {hd o} : (execVsra hd o s).canonical := h.intOp
protected theorem execSlotNop {hd} : (execSlotNop hd s).canonical := h.runSlot

-- # Machine/Decision.lean

theorem crozValidate {ctx base prev} : (s.crozValidate ctx base prev).memoriesCanonical := by
  unfold State.crozValidate
  dsimp only
  exact .ite h ((h.same (by rfl)).raise)

theorem crozier {ctx p kappa} : (s.crozier ctx p kappa).2.memoriesCanonical := h.setFld.setFld.setFld.foldl fun h => h.setFld

theorem adopt {ctx d} : (s.adopt ctx d).memoriesCanonical := by
  unfold State.adopt
  dsimp only
  split
  · exact h
  · refine .ite h (.when (.ite (.setFld (.setFld (.when (.modStep ?_) fun h => h.activityOut))) (.when (.raise (.bumpFld (.bumpFld
      (.when (.modStep ?_) fun h => h.activityOut)))) fun h => h.raise)) fun h => h.postMir)
    all_goals
      split
      · exact h.setFld.setFld.setFld.setFld.setFld.setFld.crozier
      · exact h.setFld.setFld.setFld.setFld.setFld.setFld

protected theorem execDecisionRecord {ctx step sum norm kappa reason} : (execDecisionRecord ctx step sum norm kappa reason s).canonical := by
  unfold execDecisionRecord
  split
  · exact .next h
  · exact .ite (.next h.adopt) (.next h)

-- # Machine/Kept.lean

theorem keepFuses {old} : (s.keepFuses old).memoriesCanonical := h.setFld.setFld.setFld

theorem afterReset {kind} : (s.afterReset kind).memoriesCanonical := by
  obtain ⟨hmem, hhost, hstore⟩ := h
  have hcold : ∀ {t : State}, t.mem = [] → t.host = s.host → t.store = [] → t.memoriesCanonical := fun hm hh hs =>
    ⟨hm ▸ rfl, hh ▸ hhost, hs ▸ rfl⟩
  have hwarm : ∀ {t : State}, t.mem = s.mem → t.host = s.host → t.store = [] → t.memoriesCanonical := fun hm hh hs =>
    ⟨hm ▸ hmem, hh ▸ hhost, hs ▸ rfl⟩
  unfold State.afterReset
  refine .ite (keepFuses ?_) (keepFuses (setFld ?_))
  · exact hcold rfl rfl rfl
  · exact hwarm rfl rfl rfl

theorem bypassesShut {was} : (s.bypassesShut was).memoriesCanonical := h.each fun h => h.raise

theorem enterReset {kind cause} : (s.enterReset kind cause).memoriesCanonical :=
  .when (.bypassesShut (.setFld ((h.afterReset.same (by rfl)).setFld))) fun h => h.raise

theorem fatal : s.fatal.memoriesCanonical := .ite h ((h.when fun h => (h.postMir.same (by rfl))).setFld.setFld.when fun h => h.enterReset)

-- # Machine/Flash.lean

theorem writeRecord {r body} : (s.writeRecord r body).memoriesCanonical := h
theorem writeDirectory {d} : (s.writeDirectory d).memoriesCanonical := h.writeRecord
theorem writeRepairs {l} : (s.writeRepairs l).memoriesCanonical := h.writeRecord.setFld
theorem addRepair {e} : (s.addRepair e).memoriesCanonical := .ite h.writeRepairs h
theorem noteRetired {ch trigger} : (s.noteRetired ch trigger).memoriesCanonical := .ite h.writeRepairs h.addRepair
theorem writeBootCount {n} : (s.writeBootCount n).memoriesCanonical := h.writeRecord

-- # Machine/Symbol.lean

theorem spoil {key e} : (s.spoil key e).memoriesCanonical := .ite h h
theorem mend {key} : (s.mend key).memoriesCanonical := h
theorem leaveStored {key} : (s.leaveStored key).memoriesCanonical := ⟨memWrite_wf h.1 .., h.2.1, h.2.2⟩

theorem garble {key} : (s.garble key).memoriesCanonical :=
  h.mend.foldl fun h => ⟨memSet_wf h.1 .., h.2.1, h.2.2⟩

-- # Machine/MemFault.lean

theorem retire {ch trigger} : (s.retire ch trigger).memoriesCanonical := by
  unfold State.retire
  dsimp only
  split
  · exact h.setFld.setFld.setFld.setFld.setFld.noteRetired.beginAt.raise
  · exact h.raise
  · exact h.raise

theorem retireIn {ch trigger} : (s.retireIn ch trigger).memoriesCanonical := .ite h h.retire
theorem retireAuto {ch trigger} : (s.retireAuto ch trigger).memoriesCanonical := .ite h.retireIn h.raise
theorem loseChannel {ch why} : (s.loseChannel ch why).memoriesCanonical := h.setFld.noteRetired.raise.fatal
theorem countUe {ch} : (s.countUe ch).memoriesCanonical := .ite (.retireAuto ((h.same (by rfl)).setFld)) ((h.same (by rfl)).setFld)

theorem countCe {ch} : (s.countCe ch).memoriesCanonical := by
  unfold State.countCe
  dsimp only
  generalize hb : s.bumpFld F.MEM_CH_ECC_CORRECTED ch 1 = b
  have hb : b.memoriesCanonical := hb ▸ h.bumpFld
  refine .ite (.retireAuto ?_) ?_
  all_goals
    refine .ite (.raise (.noteLimit ?_)) ?_
    · exact hb
    · exact hb

theorem poisonKey {k} : (s.poisonKey k).memoriesCanonical := .ite h h
theorem poisonWord {a} : (s.poisonWord a).memoriesCanonical := h.poisonKey

theorem decodeWord {k} : (s.decodeWord k).memoriesCanonical := by
  unfold State.decodeWord
  split
  · exact h
  · exact h.countCe
  · exact h.leaveStored.poisonKey
  · exact .ite (.poisonKey ((h.same (by rfl)).leaveStored)) (.countCe ((h.same (by rfl)).garble))

theorem decodeRange {a n} : (s.decodeRange a n).memoriesCanonical := h.each fun h => h.decodeWord
theorem uncorrectable {agent ctx a} : (s.uncorrectable agent ctx a).memoriesCanonical :=
  .raise (.ite h.poisonWord.countUe (h.poisonWord.countUe.same (by rfl)))

theorem readHinted {hint agent ctx a n} : (s.readHinted hint agent ctx a n).1.memoriesCanonical :=
  (h.decodeRange.each fun h => h.uncorrectable).cacheAccess

theorem readReport {agent ctx a n} : (s.readReport agent ctx a n).1.memoriesCanonical := h.readHinted

theorem cacheErrors {errs} : (s.cacheErrors errs).memoriesCanonical :=
  .each ((h.same (by rfl)).each fun h => .ite h.poisonWord.mend.bumpFld h.bumpFld) fun h => h.when fun h => h.raise

theorem meets {errs} : (s.meets errs).memoriesCanonical := h.cacheErrors.each fun h => (by split; exacts [h.when fun h => h.spoil, h])

end
end State.memoriesCanonical
end Sys2Proof.Machine
end

section
/-! SUPPORT. The canonical form of the byte memories through the engines, digests, matrix products, transfers, collectives and the update. -/

namespace Sys2Proof.Machine
namespace State.memoriesCanonical
section
variable {s : State} (h : s.memoriesCanonical)
include h

-- # Machine/Engine.lean

protected theorem toElem {f en x o} : (toElem f s en x o).1.memoriesCanonical := h

protected theorem engSt {en x o} : (engSt s en x o).1.memoriesCanonical := by
  unfold engSt
  dsimp only
  split
  · exact h
  · split <;> exact h.devWrite

protected theorem engLdm {en x o} : (engLdm s en x o).1.memoriesCanonical := h

protected theorem engStm {en x o} : (engStm s en x o).1.memoriesCanonical := by
  unfold engStm
  split
  · split
    · split
      · exact h.storeMaster.deriveElem
      · exact h
    · exact h
  · exact h

protected theorem wideOp {f en x o} : (wideOp f s en x o).1.memoriesCanonical := h

protected theorem engWtof {en x o} : (engWtof s en x o).1.memoriesCanonical := by
  unfold engWtof
  split
  · exact h
  · exact h

protected theorem engCmp {en x o} : (engCmp s en x o).1.memoriesCanonical := h
protected theorem engNop {en x x'} : (engNop s en x x').1.memoriesCanonical := h

protected theorem engByOp {op en x o} : (engByOp op s en x o).1.memoriesCanonical := by
  unfold engByOp
  split
  case h_2 => exact h.engSt
  case h_4 => exact h.engStm
  case h_8 => exact h.engWtof
  all_goals exact h

theorem setEngine {k en} : (s.setEngine k en).memoriesCanonical := h

protected theorem engineOp {f : EngFn} {o fields} (hf : ∀ {en x}, (f s en x o).1.memoriesCanonical) : (engineOp f o fields s).canonical := by
  unfold engineOp
  exact .ite .refused (by split; exacts [.next h, by split; exacts [.next h, .ite (.next h) (.next hf.setEngine)]])

protected theorem execEngineNop {o} : (execEngineNop o s).canonical := h.engineOp (f := engNop) h

protected theorem runWords {k x l en} : (runWords k x l (s, en)).1.memoriesCanonical := by
  induction l generalizing s en with
  | nil => exact h
  | cons w rest ih => exact ih h.engByOp

protected theorem runElems {k x words n en} : (runElems k x words n (s, en)).1.memoriesCanonical := by
  induction n generalizing s en with
  | zero => exact h
  | succ n ih => exact .ite_fst h (ih h.runWords)

theorem storeF32s {a l} : (s.storeF32s a l).memoriesCanonical := h.devWrite
theorem sketchPass {ctx x en} : (s.sketchPass ctx x en).1.memoriesCanonical := h.storeF32s.storeF32s

theorem showBase {st} : (s.showBase st).memoriesCanonical := by
  unfold State.showBase
  dsimp only
  split <;> exact h.setFld.setFld.setFld

theorem countBlocks {x} : (s.countBlocks x).memoriesCanonical := h.each fun h => h.setFld
theorem startPass {k ctx x kind} : (s.startPass k ctx x kind).memoriesCanonical := h.setEngine.showBase
theorem checkPlanes {ctx x l} : (s.checkPlanes ctx x l).memoriesCanonical := h.each fun h => h.reachMemory.readReport
theorem startPasses {ks ctx x kind} : (s.startPasses ks ctx x kind).memoriesCanonical := h.checkPlanes.each fun h => h.startPass

theorem tryIntake {ctx shard} : (s.tryIntake ctx shard).memoriesCanonical := by
  unfold State.tryIntake
  split
  · exact h
  · split
    · exact h.modStep.startPasses
    · exact h

theorem startIntakes : s.startIntakes.memoriesCanonical := h.each fun h => h.each fun h => h.tryIntake
theorem startIntake {ctx shard} : (s.startIntake ctx shard).memoriesCanonical := h.modStep.startIntakes
theorem endPass {k} : (s.endPass k).memoriesCanonical := (h.same (by rfl)).showBase
theorem endPasses {ctx shard} : (s.endPasses ctx shard).memoriesCanonical := (h.each fun h => h.endPass).startIntakes

protected theorem execUpdateStart {eng ctx shard} : (execUpdateStart eng ctx shard s).canonical := by
  unfold execUpdateStart
  split
  · dsimp only
    split
    · refine .ite ?_ (.next h)
      split
      · exact .next h.startPasses.modStep.activityIn
      · exact .next h
    · exact .next h
  · exact .next h

-- # Machine/Digest.lean

theorem unmark {x b} : (s.unmark x b).memoriesCanonical := .ite h h

theorem writeParts {l bs} : (s.writeParts l bs).memoriesCanonical := by
  induction l generalizing s bs with
  | nil => exact h
  | cons p rest ih => exact ih h.devWrite

theorem deriveBlock {x b} : (s.deriveBlock x b).memoriesCanonical := h.each fun h => h.deriveElem
theorem dropCmp {ctx shard} : (s.dropCmp ctx shard).memoriesCanonical := h
theorem endCmp {c} : (s.endCmp c).memoriesCanonical := h
theorem setCmp {c} : (s.setCmp c).memoriesCanonical := h

theorem settleMirror {ctx x} : (s.settleMirror ctx x).memoriesCanonical := by
  unfold State.settleMirror
  split
  · exact h
  · exact (h.each fun h => h.unmark).dropCmp

theorem countDiv {kind} : (s.countDiv kind).memoriesCanonical := by
  unfold State.countDiv
  split <;> exact h.bumpFld

theorem diverge {c x b kind mirror} : (s.diverge c x b kind mirror).memoriesCanonical :=
  .when (.ite h.countDiv.setFld.setFld.setFld.setFld.setFld.setFld.raise h.countDiv.setFld.setFld.setFld.setFld.setFld.setFld.raise) fun h => h.setFld

theorem unmended {ctx shard b} : (s.unmended ctx shard b).memoriesCanonical := h.raise
theorem askBlock {c x b} : (s.askBlock c x b).memoriesCanonical := h.postMir
theorem readBlock {ctx x b} : (s.readBlock ctx x b).memoriesCanonical := h.each fun h => h.touch.readReport
theorem sendRepair {ctx x b} : (s.sendRepair ctx x b).memoriesCanonical := h.readBlock.postMir

theorem compareBlock {x c b} : (State.compareBlock x (s, c) b).1.memoriesCanonical := by
  unfold State.compareBlock
  dsimp only
  split
  · refine .ite_fst h (.ite_fst h.unmark ?_)
    split
    · exact h
    · exact .ite_fst h.sendRepair h.unmended
    · exact .ite_fst h.diverge.askBlock h.diverge.sendRepair
  · exact h

theorem confirmCopy {ctx shard} : (s.confirmCopy ctx shard).memoriesCanonical := .ite ((h.same (by rfl)).setFld) h

theorem compare {c x blocks} : (s.compare c x blocks).memoriesCanonical := by
  have hall : (blocks.foldl (State.compareBlock x) (s, c)).1.memoriesCanonical := h.foldl_fst fun h => h.compareBlock
  exact .ite hall.endCmp.confirmCopy hall.setCmp

theorem digested {ctx x pass step} : (s.digested ctx x pass step).memoriesCanonical := by
  unfold State.digested
  refine .ite (.postMir (.setCmp ?_)) (.ite (.compare ?_) ?_)
  all_goals exact h.when fun h => h.each fun h => h.touch

theorem takeDigests {ctx x pass step first digests marks} : (s.takeDigests ctx x pass step first digests marks).memoriesCanonical := by
  unfold State.takeDigests
  refine .ite (h.each fun h => h.sendRepair) (.ite ?_ h)
  split
  · exact h
  · exact h.compare

theorem takeRepair {ctx x b bytes} : (s.takeRepair ctx x b bytes).memoriesCanonical := by
  unfold State.takeRepair
  refine .ite h.writeParts.unmark.postMir ?_
  split
  · exact h.writeParts.unmark
  · split
    · exact h.writeParts.unmark
    · refine .ite (.compare ?_) (.ite (.setCmp (.askBlock ?_)) (.compare (.unmended ?_)))
      all_goals exact .ite h.writeParts.unmark.deriveBlock h.writeParts.unmark

-- # Machine/Outer.lean

theorem setXch {ctx x} : (s.setXch ctx x).memoriesCanonical := h
theorem modXch {ctx f} : (s.modXch ctx f).memoriesCanonical := h.setXch
theorem modGate {ctx f} : (s.modGate ctx f).memoriesCanonical := h
theorem openRound {ctx r} : (s.openRound ctx r).memoriesCanonical := .ite h h.setXch
theorem setPlane {x q i b} : (s.setPlane x q i b).memoriesCanonical := h.devWrite

theorem formBlock {ctx r w x y j} : (State.formBlock ctx r w x (s, y) j).1.memoriesCanonical :=
  .ite_fst (h.foldl_fst fun h => h.setPlane.setPlane) (h.each fun h => h.setPlane)

theorem formPass {ctx r step x} : (s.formPass ctx r step x).memoriesCanonical :=
  ((h.foldl_fst fun h => h.formBlock).when fun h => h.raise).modXch.digested

theorem noteFormed {ctx r} : (s.noteFormed ctx r).memoriesCanonical := .ite h.setFld.modXch h

theorem applyElem {mu eta x bad p} : (State.applyElem mu eta x (s, bad) p).1.memoriesCanonical := by
  unfold State.applyElem
  dsimp only
  split
  · exact h.storeMaster.deriveElem.setPlane.setPlane.setPlane
  · exact h

theorem applyPass {ctx r step x dlt} : (s.applyPass ctx r step x dlt).memoriesCanonical :=
  ((h.foldl_fst fun h => h.applyElem).when fun h => h.raise).digested

theorem touchChunk {ctx x k} : (s.touchChunk ctx x k).memoriesCanonical := h.each fun h => h.reachMemory.readReport
theorem putChunk {x k bs} : (s.putChunk x k bs).memoriesCanonical := h.devWrite.devWrite

theorem takeSnapshot {x y join} : (s.takeSnapshot x y join).memoriesCanonical :=
  (h.each fun h => h.putChunk).each fun h => h.setPlane.when fun h => h.setPlane.storeMaster.deriveElem

-- # Machine/Account.lean

theorem account {ctx q} : (s.account ctx q).memoriesCanonical :=
  h.setFld.setFld.setFld.setFld.setFld.setFld.setFld.setFld.setFld.setFld.setFld.setFld.setFld.when fun h => h.raise

theorem finalRnd {ctx r} : (s.finalRnd ctx r).memoriesCanonical := by
  unfold State.finalRnd
  split
  · exact h
  · exact h

theorem discardStale {ctx r m} : (s.discardStale ctx r m).memoriesCanonical := .ite h (h.each fun h => h.bumpFld.raise).modXch

theorem roundApplied {ctx r} : (s.roundApplied ctx r).memoriesCanonical := by
  unfold State.roundApplied
  refine .discardStale (.finalRnd (.modXch ?_))
  split
  · refine .each (.when ?_ fun h => h.bumpFld) fun h => h.bumpFld.raise
    split
    · exact h.setFld.account
    · exact h.setFld
  · split
    · exact h.setFld.account
    · exact h.setFld

-- # Machine/Ckpt.lean

theorem startCopies {ctx kind l} : (s.startCopies ctx kind l).memoriesCanonical := h.each fun h => (by split; exacts [h.startPass, h])
theorem endCopies {ctx kind} : (s.endCopies ctx kind).memoriesCanonical := (h.each fun h => h.endPass).startIntakes
theorem readForImage {ctx} : (s.readForImage ctx).memoriesCanonical := (h.each fun h => h.checkPlanes.touch).touch.touch.each fun h => h.touch
theorem ckptPoint {ctx} : (s.ckptPoint ctx).memoriesCanonical := (h.readForImage.same (by rfl)).startCopies

theorem failCkpt {ctx why} : (s.failCkpt ctx why).memoriesCanonical :=
  .ite (.raise (.setFld (.setFld (.setFld ((h.endCopies.endCopies.same (by rfl)).setFld))))) h

-- # Machine/Matrix.lean

protected theorem maxOp {isMax opcode hd o} : (maxOp isMax opcode hd o s).canonical := h.runSlot

protected theorem execMatrixOpComplete {tile acc} : (execMatrixOpComplete tile acc s).canonical := by
  unfold execMatrixOpComplete
  dsimp only
  split
  · exact .next h
  · exact .next h.setTile.flightDone

-- # Machine/LoadStore.lean

theorem transferFault {x status detail} : (s.transferFault x status detail).memoriesCanonical := h.launchFault
theorem countCmp {ctx plain stored} : (s.countCmp ctx plain stored).memoriesCanonical := .setFld ((h.same (by rfl)).setFld)

theorem integrity {ctx path kind source block addr} : (s.integrity ctx path kind source block addr).memoriesCanonical :=
  h.bumpFld.when fun h => h.setFld.setFld.setFld.setFld.setFld.setFld

theorem readStream {x} : (s.readStream x).memoriesCanonical := h.decodeRange

theorem moveIn {x} : (s.moveIn x).1.memoriesCanonical := by
  unfold State.moveIn
  split
  · dsimp only
    split
    · exact h.readStream.storeWrite.countCmp.cacheAccess
    · split
      · exact h.readStream.storeWrite.countCmp.cacheAccess
      · exact .transferFault (.ite h.readStream.storeWrite.countCmp.cacheAccess.integrity h.readStream.storeWrite.countCmp.cacheAccess.readHinted)
  · dsimp only
    split
    · exact (h.foldl_fst fun h => h.readHinted).storeWrite.transferFault
    · exact (h.foldl_fst fun h => h.readHinted).storeWrite

theorem moveOut {x faults} : (s.moveOut x faults).1.memoriesCanonical := by
  unfold State.moveOut
  split
  · dsimp only
    split
    · exact h.devStore.guardWork.countCmp
    · split
      · exact h.devStore.guardWork.countCmp
      · exact h.devStore.guardWork.countCmp.integrity.transferFault
  · exact h.foldl fun h => h.devStore.guardWork

protected theorem execDmaComplete {id errs} : (execDmaComplete id errs s).canonical := by
  unfold execDmaComplete
  split
  · exact .next h
  · next x _ =>
    have hmoved : (if x.toMem then (s.meets (x.met errs)).moveOut x (errs.filterMap mishapBlock)
        else (s.meets (x.met errs)).moveIn x).1.memoriesCanonical := .ite_fst h.meets.moveOut h.meets.moveIn
    refine .ite (.next h) (.ite (.next hmoved) ?_)
    dsimp only
    split
    · exact .next h
    · next heq => 
      have := hmoved.stashRead.seeMarks.increment.fst_of_eq heq
      exact .next (this.same (by rfl)).transferFault
    · next heq => 
      have := hmoved.stashRead.seeMarks.increment.fst_of_eq heq
      exact .next (this.same (by rfl))

protected theorem execBlockReread {id block} : (execBlockReread id block s).canonical := by
  unfold execBlockReread
  split
  · exact .next h
  · refine .ite (.next h) ?_
    dsimp only
    split
    · exact .next h.readStream.cacheAccess.bumpFld
    · exact .next (h.readStream.moveIn.same (by rfl))

-- # Machine/Collective.lean

protected theorem collSlot {op hd sd sv} : (collSlot op hd sd sv s).canonical := h.runSlot

theorem finaliseGrad {x hd l vals} : (s.finaliseGrad x hd l vals).memoriesCanonical := by
  unfold State.finaliseGrad
  refine .ite (.devWrite (h.when fun h => h.useElems)) (.ite (.each (.trackLanes ?_) fun h => h.when fun h => h.devWrite) (.trackLanes ?_))
  all_goals exact .each (.devWrite (h.when fun h => h.useElems)) fun h => h.devWrite

theorem noteLocal {x hd vals} : (s.noteLocal x hd vals).memoriesCanonical := h.modStep
theorem finalised {x hd} : (s.finalised x hd).memoriesCanonical := (h.modStep.when fun h => h.postMir).startIntake
theorem collFault {x status detail} : (s.collFault x status detail).memoriesCanonical := (h.same (by rfl)).launchFault
theorem collWrite {x bs} : (s.collWrite x bs).memoriesCanonical := h.devWrite.when fun h => h.guardWork

theorem collReads {x l g} : (s.collReads x l g).1.memoriesCanonical := by
  unfold State.collReads
  split
  · exact h
  · exact (h.foldl_fst fun h => h.readReport).same (by rfl)

theorem sendStreams {x g sends faults} : (s.sendStreams x g sends faults).1.memoriesCanonical := by
  have hsent {t : State} {l} (h : t.memoriesCanonical) : { t with colls := l }.memoriesCanonical := h
  unfold State.sendStreams
  refine hsent (h.foldl_fst fun {y c t} h => ?_)
  refine .ite_fst h ?_
  dsimp only
  refine .ite_fst h.post (.ite_fst ?_ h.post)
  split
  · exact h.countCmp.post
  · exact h.countCmp

theorem putElems {x fmt first vals} : (s.putElems x fmt first vals).memoriesCanonical := .ite h h.collWrite

theorem collHarmed {x g f hd} : (s.collHarmed x g f hd).memoriesCanonical :=
  .ite h (h.when fun h => (h.each fun h => h.putElems).putElems).modStep.integrity.collFault

theorem mismatched {x dev} : (s.mismatched x dev).memoriesCanonical := (h.same (by rfl)).raise

theorem collDone {x} : (s.collDone x).memoriesCanonical :=
  ((((h.when fun h => h.activityOut).when fun h => h.activityOut).when fun h => h.activityOut).when fun h => h.modStep).same (by rfl)

/-- What a collective leaves on the device when it is done keeps the form, whatever state decided it. -/
theorem runColl {u : State} {x l g parts} : ((u.runColl x l g parts).2 s).memoriesCanonical := by
  unfold State.runColl
  dsimp only
  split
  · exact h
  · split
    · split
      · exact h
      · split
        · dsimp only
          split
          · exact h
          · refine each (finalised (finaliseGrad (noteLocal h))) fun h => ?_
            split
            · exact h.finaliseGrad.finalised
            · exact h
        · exact h.collWrite
    · exact h.collWrite
    · split
      · exact h
      · exact h.collWrite
    · split
      · exact h
      · split
        · exact h.post.adopt
        · exact h
    · split
      · exact h
      · split
        · exact h.collWrite
        · exact h.collWrite
    · split
      · exact h
      · split
        · exact h.collWrite
        · exact h.collWrite

protected theorem execCollComplete {id e} : (execCollComplete id e s).canonical := by
  have hgone {t : State} {l} (h : t.memoriesCanonical) : { t with colls := l }.memoriesCanonical := h
  unfold execCollComplete
  split
  · exact .next h
  · split
    · refine .ite (.next h) ?_
      split
      · exact .next h.mismatched
      · refine .ite (.next h) ?_
        dsimp only
        split
        · exact .next (.ite h h.collReads.collFault)
        · split
          · exact .next h.collReads.sendStreams.collHarmed
          · exact .next h.collReads.sendStreams.collHarmed
          · refine .ite (.next h.collReads.sendStreams) (.ite (.next (hgone h.collReads.sendStreams.runColl.countCmp.collDone)) ?_)
            split
            · exact .next h
            · next heq => exact .next (h.collReads.sendStreams.runColl.countCmp.collDone.increment.fst_of_eq heq).collFault
            · next heq => exact .next (hgone (h.collReads.sendStreams.runColl.countCmp.collDone.increment.fst_of_eq heq))
    · exact .next h

-- # Machine/RegAccess.lean

theorem blockedReg {fn r i} : (s.blockedReg fn r i).memoriesCanonical := h.blocked

theorem reaching {fn r i} {f : State → State} (hf : ∀ {t}, t.memoriesCanonical → (f t).memoriesCanonical) :
    (s.reaching fn r i f).memoriesCanonical := by
  unfold State.reaching
  split
  · exact hf h
  · exact h
  · exact h.blockedReg

theorem writeReg {r i hd v} : (s.writeReg r i hd v).memoriesCanonical := h.setReg
theorem stageReg {r i hd v} : (s.stageReg r i hd v).memoriesCanonical := h

-- # Machine/Update.lean

theorem noteKept {ctx shard} : (s.noteKept ctx shard).memoriesCanonical := .ite h h.bumpFld.bumpFld.raise
theorem endIntake {ctx x} : (s.endIntake ctx x).memoriesCanonical := h.modStep.countBlocks.endPasses
theorem endSketch {en x} : (s.endSketch en x).memoriesCanonical := h.sketchPass.countBlocks.checkPlanes.each fun h => h.setEngine.showBase
theorem runRest {k en x} : (s.runRest k en x).1.memoriesCanonical := .ite_fst h.runElems h
theorem endProgram {ctx x} : (s.endProgram ctx x).memoriesCanonical := h.noteKept.modStep.activityOut.digested.countBlocks.endPasses

theorem endForm {ctx x} : (s.endForm ctx x).memoriesCanonical := by
  unfold State.endForm
  split
  · exact h.endPasses
  · split
    · exact h.endPasses
    · exact h.formPass.noteFormed.activityOut.countBlocks.endPasses

theorem startApply {ctx r x} : (s.startApply ctx r x).memoriesCanonical := by
  unfold State.startApply
  refine .ite h ?_
  split
  · exact h
  · exact (h.modXch.when fun h => h.postMir).startPasses

theorem startApplies {ctx r} : (s.startApplies ctx r).memoriesCanonical := h.each fun h => (by split; exacts [h.startApply, h])

theorem goOnApplying {ctx} : (s.goOnApplying ctx).memoriesCanonical := by
  unfold State.goOnApplying
  split
  · exact h.startApplies
  · exact h

theorem endApply {ctx x} : (s.endApply ctx x).memoriesCanonical := by
  unfold State.endApply
  split
  · exact h.endPasses
  · exact .ite h.applyPass.modXch.countBlocks.endPasses.startApplies.roundApplied h.applyPass.modXch.countBlocks.endPasses.startApplies

theorem endShard {en x} : (s.endShard en x).memoriesCanonical := by
  unfold State.endShard
  split
  · exact h.endIntake
  · exact h.endSketch
  · exact h.endProgram
  · exact h.endForm
  · exact h.endApply
  · exact h
  · exact h

theorem partDone {k en x} : (s.partDone k en x).memoriesCanonical := h.runRest.setEngine

protected theorem execEnginePassComplete {eng} : (execEnginePassComplete eng s).canonical := by
  unfold execEnginePassComplete
  split
  · exact .next h
  · split
    · exact .next h.endPass
    · exact .ite (.next h) (.ite (.next h.endPass.startIntakes) (.ite (.next h.partDone.endShard) (.next h.partDone)))

protected theorem execFormPass {eng ctx shard} : (execFormPass eng ctx shard s).canonical := by
  unfold execFormPass
  split
  · split
    · refine .ite ?_ (.next h)
      split
      · exact .next (h.when fun h => h.settleMirror).openRound.startPasses.activityIn
      · exact .next h
    · exact .next h
  · exact .next h

theorem ckptGo {ctx} : (s.ckptGo ctx).memoriesCanonical := .ite h.setFld (.ite h.setFld.setFld.setFld h.setFld.ckptPoint)

protected theorem execCheckpointWrite {ctx} : (execCheckpointWrite ctx s).canonical :=
  .ite (.next (.goOnApplying (.ite (.setFld (.endCopies ((h.same (by rfl)).setFld))) (.spaceWrite (.endCopies ((h.same (by rfl)).setFld))))))
    (.next h)

protected theorem execCheckpointDone {ctx} : (execCheckpointDone ctx s).canonical :=
  .ite (.ite (.next h.setFld.setFld.raise) (.next h.setFld.setFld.raise)) (.next h)

theorem restoreRefused {ctx why} : (s.restoreRefused ctx why).memoriesCanonical := h.setFld.setFld.raise

theorem ckptRestore {ctx} : (s.ckptRestore ctx).memoriesCanonical :=
  .ite h.setFld.raise (.ite h.restoreRefused (.ite h.spaceTouch.restoreRefused h.spaceTouch.setFld.setFld.setFld.startCopies))

theorem writeCkptCtl {fn ctx hd v} : (s.writeCkptCtl fn ctx hd v).memoriesCanonical :=
  h.reaching fun h => (h.setFld.when fun h => h.ckptGo).when fun h => h.ckptRestore

protected theorem execCheckpointGo {fn ctx} : (execCheckpointGo fn ctx s).canonical := .next h.writeCkptCtl
protected theorem execRestore {fn ctx} : (execRestore fn ctx s).canonical := .next h.writeCkptCtl

theorem restoreScale {ctx img} : (s.restoreScale ctx img).memoriesCanonical := by
  unfold State.restoreScale
  dsimp only
  split
  · exact .ite (h.devWrite.foldl_fst fun h => h.devWrite) (h.each fun h => h.chillAll)
  · exact h.each fun h => h.chillAll

theorem restoreOuter {ctx img} : (s.restoreOuter ctx img).memoriesCanonical := by
  unfold State.restoreOuter
  split
  · exact h
  · exact h.setFld.setFld.setFld.setFld.setFld.setFld.setFld.setXch

theorem restoreShard {ctx step r x} : (s.restoreShard ctx step r x).memoriesCanonical := (h.each fun h => h.devWrite).derive.digested

protected theorem execRestoreDone {ctx} : (execRestoreDone ctx s).canonical :=
  .ite (.next h) (.next ((h.spaceTouch.each fun h => h.restoreShard).each fun h => h.when fun h =>
    h.setShardFlags).setFld.setFld.setFld.devWrite.crozValidate.restoreScale.restoreOuter.setFld.setFld.setFld.setFld.endCopies.raise)

theorem writeReplayCtl {fn ctx hd v} : (s.writeReplayCtl fn ctx hd v).memoriesCanonical := h.reaching fun h => h.writeReg
protected theorem execReplayArm {fn ctx} : (execReplayArm fn ctx s).canonical := .next h.writeReplayCtl

end
end State.memoriesCanonical
end Sys2Proof.Machine
end

section
/-! SUPPORT. The canonical form of the byte memories through the exchange and the far links. -/

namespace Sys2Proof.Machine
namespace State.memoriesCanonical
section
variable {s : State} (h : s.memoriesCanonical)
include h

-- # Machine/Exchange.lean

theorem readRoute {ctx site} : (s.readRoute ctx site).memoriesCanonical := h.reachMemory.touch

theorem sendCredited {ctx gw n} : (s.sendCredited ctx gw n).memoriesCanonical := by
  induction n generalizing s with
  | zero => exact h
  | succ n ih =>
    unfold State.sendCredited
    split
    · exact h
    · exact .ite h (ih h.setXch.post)

theorem flushTo {ctx gw} : (s.flushTo ctx gw).memoriesCanonical := h.sendCredited

theorem queueItem {ctx x} : (s.queueItem ctx x).memoriesCanonical := by
  unfold State.queueItem
  dsimp only
  split
  · exact h.readRoute.modXch.flushTo
  · exact h.readRoute.modXch

theorem queueMsg {ctx site kind dst body} : (s.queueMsg ctx site kind dst body).memoriesCanonical := h.queueItem
protected theorem execGatewayCredit {ctx gw} : (execGatewayCredit ctx gw s).canonical := .next h.modXch.flushTo
protected theorem execPathAnnounce {ctx gw site up} : (execPathAnnounce ctx gw site up s).canonical := .next (h.modXch.each fun h => h.flushTo)
theorem fetchAll {ctx mode} : (s.fetchAll ctx mode).memoriesCanonical := h.modXch.each fun h => h.queueMsg
theorem heal {ctx holder} : (s.heal ctx holder).memoriesCanonical := .ite h.modXch.setFld.modXch.fetchAll h.modXch.raise.setFld.fetchAll
theorem setToken {ctx site} : (s.setToken ctx site).memoriesCanonical := h.setFld.setFld
theorem keepEntry {ctx e} : (s.keepEntry ctx e).memoriesCanonical := h.modXch.setFld.setFld.setFld.raise
theorem followToken {ctx e} : (s.followToken ctx e).memoriesCanonical := .ite (h.setFld.setToken.raise.when fun h => h.setFld) h
theorem takeNext {ctx e} : (s.takeNext ctx e).memoriesCanonical := .ite h h.setToken.raise
theorem healedBy {ctx e} : (s.healedBy ctx e).memoriesCanonical := .ite h.setFld.setFld.raise h

theorem adoptCanonical {ctx e} : (s.adoptCanonical ctx e).memoriesCanonical := by
  unfold State.adoptCanonical
  refine .ite h (.ite ?_ (.ite (.raise (.setFld ?_)) (.healedBy (.takeNext (.keepEntry ?_)))))
  all_goals exact .ite (.ite h.followToken.setFld h.followToken.heal) h.followToken

theorem adoptProvisional {ctx e} : (s.adoptProvisional ctx e).memoriesCanonical :=
  .ite (.ite (h.when fun h => h.modXch).setFld.raise (h.when fun h => h.modXch).keepEntry) (h.when fun h => h.modXch)

theorem takeEntry {ctx e bytes} : (s.takeEntry ctx e bytes).memoriesCanonical :=
  .ite h (.ite (h.when fun h => h.post).adoptProvisional (h.when fun h => h.post).adoptCanonical)

protected theorem execLedgerEntry {ctx body} : (execLedgerEntry ctx body s).canonical := by
  unfold execLedgerEntry
  split
  · exact .next h
  · exact .next h.takeEntry

theorem closeNow {ctx r} : (s.closeNow ctx r).memoriesCanonical := (h.each fun h => h.queueMsg).modXch.takeEntry

theorem tryClose {ctx} : (s.tryClose ctx).memoriesCanonical := by
  unfold State.tryClose
  split
  · exact .ite h.closeNow h
  · exact h

theorem sendReport {ctx} : (s.sendReport ctx).memoriesCanonical := .ite h.modXch.tryClose h.queueMsg
theorem reportIf {ctx site r} : (s.reportIf ctx site r).memoriesCanonical := h.when fun h => h.sendReport
theorem noteOwner {ctx dev site r} : (s.noteOwner ctx dev site r).memoriesCanonical := h.modXch.reportIf

protected theorem execContributionReport {ctx dev site round} : (execContributionReport ctx dev site round s).canonical :=
  .ite (.next h) (.next h.noteOwner)

protected theorem execSiteReport {ctx body} : (execSiteReport ctx body s).canonical := .ite (.next h) (.next h.modXch.tryClose)

protected theorem execLedgerDeadline {ctx} : (execLedgerDeadline ctx s).canonical := by
  unfold execLedgerDeadline
  split
  · exact .ite (.next h.closeNow) (.next h)
  · exact .next h

theorem goProvisional {ctx r} : (s.goProvisional ctx r).memoriesCanonical := h.setFld.modXch.raise

protected theorem execProvisionalTimeout {ctx told} : (execProvisionalTimeout ctx told s).canonical := by
  unfold execProvisionalTimeout
  refine .ite (.next h) (.ite ?_ (.ite (.next h.goProvisional) (.next h)))
  split
  · exact .ite (.next h.goProvisional.post.sendReport) (.next h)
  · exact .next h

theorem sealRefused {ctx r} : (s.sealRefused ctx r).memoriesCanonical := h.bumpFld.raise

theorem queueSoreds {ctx src r rep sites l} : (s.queueSoreds ctx src r rep sites l).memoriesCanonical :=
  h.each fun h => (by split; exacts [h.sealRefused, h.setFld.each fun h => h.queueItem])

theorem codeFor {ctx q shards} : (s.codeFor ctx q shards).1.memoriesCanonical := h.when fun h => h.raise
theorem contribDone {ctx site r} : (s.contribDone ctx site r).memoriesCanonical := .ite h (.ite h.modXch.noteOwner h.modXch.post)
theorem loseBlocks {ctx q lost} : (s.loseBlocks ctx q lost).1.memoriesCanonical := h.each fun h => (h.each fun h => h.uncorrectable).raise

protected theorem execRoundCode {ctx lost} : (execRoundCode ctx lost s).canonical := by
  unfold execRoundCode
  dsimp only
  split
  · exact .next h
  · refine .next (.when (.raise (.setFld ?_)) fun h => h.contribDone)
    exact .ite h.loseBlocks.codeFor.modXch.sealRefused h.loseBlocks.codeFor.modXch.queueSoreds

protected theorem execSealSend {ctx round site} : (execSealSend ctx round site s).canonical := by
  unfold execSealSend
  dsimp only
  split
  · exact .next h
  · exact .ite (.next h.modXch.queueItem) (.next h)

theorem askSoreds {ctx site src r l} : (s.askSoreds ctx site src r l).memoriesCanonical := h.queueMsg
theorem soredFailed {ctx hd} : (s.soredFailed ctx hd).memoriesCanonical := h.modXch.when fun h => h.askSoreds
theorem checkRec {ctx z r} : (s.checkRec ctx z r).memoriesCanonical := .ite h (.ite h.setXch.askSoreds h.setXch.raise)

theorem checkContrib {ctx site r} : (s.checkContrib ctx site r).memoriesCanonical :=
  (h.each fun h => h.each fun h => h.checkRec).when fun h => h.contribDone

theorem tagFailed {ctx hd} : (s.tagFailed ctx hd).memoriesCanonical := .soredFailed (.raise ((h.same (by rfl)).raiseLimited))

protected theorem execSorediumReceive {ctx bytes} : (execSorediumReceive ctx bytes s).canonical := by
  unfold execSorediumReceive
  refine .ite (.next h) ?_
  split
  · exact .next h.tagFailed
  · dsimp only
    split
    · exact .next (h.when fun h => h.raise).soredFailed
    · exact .ite (.next h.raise) (.next h.modXch.checkContrib)

protected theorem execSealReceive {ctx body} : (execSealReceive ctx body s).canonical := by
  unfold execSealReceive
  refine .ite (.next h) ?_
  split
  · exact .next (.ite h h.raise)
  · exact .next (h.modXch.checkContrib.when fun h => h.reportIf)

protected theorem execRefetchTimeout {ctx site src round} : (execRefetchTimeout ctx site src round s).canonical := by
  unfold execRefetchTimeout
  dsimp only
  split
  · exact .next h
  · exact .ite (.next h.setXch.askSoreds) (.next h)

protected theorem execRefetch {ctx frm dev body} : (execRefetch ctx frm dev body s).canonical := .next (h.queueSoreds.when fun h => h.queueMsg)

protected theorem execGone {ctx body} : (execGone ctx body s).canonical := by
  unfold execGone
  dsimp only
  split
  · exact .next h.modXch
  · exact .next h.modXch.raise

protected theorem execEfficiencyReport {ctx gw round first all} : (execEfficiencyReport ctx gw round first all s).canonical := .next h.modXch

protected theorem execSnapReq {ctx frm dev body} : (execSnapReq ctx frm dev body s).canonical := by
  unfold execSnapReq
  dsimp only
  split
  · exact .next h
  · exact .ite (.next (h.each fun h => h.touchChunk).setXch.queueMsg)
      (.next ((h.each fun h => h.touchChunk.queueMsg).when fun h => h.modXch.goOnApplying))

theorem restartSnap {ctx n} : (s.restartSnap ctx n).memoriesCanonical := h.modXch.queueMsg
theorem askChunks {ctx dev n k count} : (s.askChunks ctx dev n k count).memoriesCanonical := h.queueMsg

theorem weighManifest {ctx n alone} : (s.weighManifest ctx n alone).memoriesCanonical := by
  unfold State.weighManifest
  split
  · exact h
  · split
    · exact .ite h.modXch.askChunks h.restartSnap
    · exact .ite h.modXch.askChunks h
    · exact h

protected theorem execSnapManifest {ctx dev role body} : (execSnapManifest ctx dev role body s).canonical :=
  .ite (.next h.setXch.weighManifest) (.next h)

protected theorem execSnapChunk {ctx dev body} : (execSnapChunk ctx dev body s).canonical := by
  unfold execSnapChunk
  dsimp only
  split
  · exact .next h
  · split
    · exact .ite (.next h.restartSnap) (.ite (.next h) (.ite (.next h.modXch) (.ite (.next h.modXch.askChunks)
        (.next (h.modXch.when fun h => h.raise).askChunks))))
    · exact .next h

protected theorem execSnapshotHoldTimeout {ctx} : (execSnapshotHoldTimeout ctx s).canonical := .next h.goOnApplying
theorem xchErr {ctx e} : (s.xchErr ctx e).memoriesCanonical := h.setFld
theorem handover {ctx target} : (s.handover ctx target).memoriesCanonical := .ite h.xchErr (.ite h.xchErr h.xchErr.modXch)
theorem claim {ctx} : (s.claim ctx).memoriesCanonical := .ite h.xchErr (.ite h.xchErr h.xchErr.setFld.setToken.setFld.raise)
theorem joinLate {ctx} : (s.joinLate ctx).memoriesCanonical := .ite h.xchErr.setFld.fetchAll h.xchErr
theorem resume {ctx} : (s.resume ctx).memoriesCanonical := .ite h.xchErr (.ite h.xchErr h.xchErr.setFld.setToken)

theorem writeXchCmd {fn ctx hd v} : (s.writeXchCmd fn ctx hd v).memoriesCanonical :=
  h.reaching fun h => .ite (.ite h.xchErr (by split; exacts [h.handover, h.claim, h.joinLate, h.resume, h])) h

protected theorem execHandover {fn ctx target} : (execHandover fn ctx target s).canonical := .next h.writeXchCmd
protected theorem execClaim {fn ctx} : (execClaim fn ctx s).canonical := .next h.writeXchCmd
protected theorem execJoin {fn ctx} : (execJoin fn ctx s).canonical := .next h.writeXchCmd
protected theorem execResume {fn ctx} : (execResume fn ctx s).canonical := .next h.writeXchCmd
theorem startRounds {ctx} : (s.startRounds ctx).memoriesCanonical := .ite h.setFld.setFld.setFld.setFld.setToken h.setFld.setFld.setFld

theorem writeXchCfg {fn ctx hd v} : (s.writeXchCfg fn ctx hd v).memoriesCanonical := by
  refine h.reaching fun {t} h => ?_
  refine .ite (.setFld ?_) (.ite (.setFld (.setFld (.stageReg ?_))) (.ite (.setFld (.stageReg ?_)) (.ite (.setFld (.setFld (.stageReg ?_)))
    (.startRounds (.setFld (.stageReg ?_))))))
  all_goals exact h.when fun h => h.blockedReg

protected theorem execXchEnable {fn ctx value} : (execXchEnable fn ctx value s).canonical := .next h.writeXchCfg

theorem applySnapshots {ctx r step join} : (s.applySnapshots ctx r step join).memoriesCanonical :=
  (h.each fun h => (by split; exacts [h.takeSnapshot.digested, h])).modXch.roundApplied.when fun h => h.setFld.raise

theorem beginHold {ctx r} : (s.beginHold ctx r).memoriesCanonical := .ite h.setXch.raise h

protected theorem execRoundApply {ctx} : (execRoundApply ctx s).canonical := by
  unfold execRoundApply
  split
  · exact .next h
  · split
    · exact .next h
    · refine .ite (.next h) ?_
      split
      · exact .ite (.next h.applySnapshots) (.next h)
      · split
        · exact .next h
        · exact .ite (.next h) (.ite (.next h.setXch.roundApplied) (.next h.setXch.beginHold.startApplies))

protected theorem execApplyStallTimer {ctx} : (execApplyStallTimer ctx s).canonical := by
  unfold execApplyStallTimer
  dsimp only
  split
  · split
    · exact .ite (.next h.setXch.raise) (.next h)
    · exact .next h
  · exact .next h

-- # Machine/Far.lean

theorem showPath : s.showPath.memoriesCanonical := h.setFld.setFld.setFld.setFld.setFld.setFld.setFld.setFld.setFld.setFld.setFld
theorem setPath {ctx i p} : (s.setPath ctx i p).memoriesCanonical := (h.same (by rfl)).showPath
theorem modPath {ctx i f} : (s.modPath ctx i f).memoriesCanonical := h.setPath
theorem showBuf {port} : (s.showBuf port).memoriesCanonical := h.setFld
theorem announceFrom {ctx site was} : (s.announceFrom ctx site was).memoriesCanonical := .ite h h.post

theorem watchPath {ctx i} : (s.watchPath ctx i).memoriesCanonical := by
  unfold State.watchPath
  dsimp only
  split
  · exact h
  · exact .announceFrom ((h.same (by rfl)).showPath)
  · exact h.setPath
  · exact .ite h h.setPath.announceFrom

theorem grantCredits {ctx} : (s.grantCredits ctx).memoriesCanonical := (h.modGate.each fun h => h.post).each fun h => h.post

protected theorem execGatewayItemReceive {ctx dev site rep kind dst bytes} : (execGatewayItemReceive ctx dev site rep kind dst bytes s).canonical :=
  .next h.modGate.grantCredits

theorem countSent {ctx site x again bits} : (s.countSent ctx site x again bits).memoriesCanonical := by
  unfold State.countSent
  refine .ite h.modGate ?_
  dsimp only
  split
  · exact h.when fun h => h.modGate
  · exact (h.when fun h => h.modGate).modGate.post

theorem paced {ctx i port len} : (s.paced ctx i port len).memoriesCanonical := by
  unfold State.paced
  exact h.modPath

theorem transmit {ctx i e typ flags psn payload} : ∀ t ∈ s.transmit ctx i e typ flags psn payload, t.memoriesCanonical := by
  unfold State.transmit
  dsimp only
  split
  · exact fun _ ht => nomatch ht
  · split
    · exact fun _ ht => nomatch ht
    · exact fun _ ht => Option.some_inj.mp ht ▸ (h.setFld.when fun h => h.raise).emit

theorem resend {ctx i e x} : (s.resend ctx i e x).memoriesCanonical := by
  unfold State.resend
  split
  · exact h
  · next heq => exact (h.transmit _ heq).modPath.countSent.paced

theorem sendNew {ctx i e k it} : (s.sendNew ctx i e k it).memoriesCanonical := by
  unfold State.sendNew
  refine .ite (.ite h h.beginAt) ?_
  dsimp only
  split
  · exact h
  · next heq => exact (h.setPath.transmit _ heq).endOf.modGate.countSent.paced.showBuf

protected theorem execSegmentSend {ctx path} : (execSegmentSend ctx path s).canonical := by
  unfold execSegmentSend
  dsimp only
  split
  · exact .next h.watchPath
  · refine .ite (.next h.watchPath) ?_
    split
    · exact .next h.watchPath.resend
    · refine .ite (.next h.watchPath) ?_
      split
      · exact .next h.watchPath.sendNew
      · exact .next h.watchPath

theorem roomAgain {port} : (s.roomAgain port).memoriesCanonical := .ite h h.endOf

theorem sendAck {ctx i e} : (s.sendAck ctx i e).memoriesCanonical := by
  unfold State.sendAck
  dsimp only
  split
  · exact h
  · next heq => exact (h.transmit _ heq).modPath.modGate

protected theorem execAckDelayTimeout {ctx path} : (execAckDelayTimeout ctx path s).canonical := by
  unfold execAckDelayTimeout
  dsimp only
  split
  · exact .ite (.next h.watchPath.sendAck) (.next h.watchPath)
  · exact .next h.watchPath

theorem rxDiscard {port} : (s.rxDiscard port).memoriesCanonical := h.bumpFld
theorem segAuthFail {port ctx i} : (s.segAuthFail port ctx i).memoriesCanonical := (h.same (by rfl)).raiseLimited

theorem sequenced {port ctx i e hd ce closed} {deliver : State → State}
    (hf : ∀ {t}, t.memoriesCanonical → (deliver t).memoriesCanonical) :
    (s.sequenced port ctx i e hd ce closed deliver).memoriesCanonical :=
  .ite h.rxDiscard.sendAck (.ite (h.rxDiscard.when fun h => h.sendAck) ((hf h.setPath).when fun h => h.sendAck))

theorem received {port typ frame act}
    (hf : ∀ {t : State} {ctx i e hd ce closed payload}, t.memoriesCanonical → (act t ctx i e hd ce closed payload).memoriesCanonical) :
    (s.received port typ frame act).memoriesCanonical := by
  unfold State.received
  refine .ite h ?_
  split
  · exact h.rxDiscard
  · refine .ite h.rxDiscard (.ite h ?_)
    split
    · exact h.rxDiscard
    · dsimp only
      split
      · exact h.watchPath.segAuthFail
      · exact .ite h.watchPath.rxDiscard (hf h.watchPath.modPath)

protected theorem execFrameDiscard {port frame} : (execFrameDiscard port frame s).canonical := by
  unfold execFrameDiscard
  refine .ite (.next h) ?_
  split
  · exact .next h.rxDiscard
  · exact .ite (.next h.rxDiscard) (.next h)

theorem countForwarded {ctx r dst bits again} : (s.countForwarded ctx r dst bits again).memoriesCanonical := h.when fun h => h.modGate
theorem deliverSeal {ctx site src body} : (s.deliverSeal ctx site src body).memoriesCanonical := h.each fun h => h.post

theorem forwardMsg {ctx site kind src dst body} : (s.forwardMsg ctx site kind src dst body).memoriesCanonical := by
  unfold State.forwardMsg
  refine .ite (.deliverSeal (.ite h h.modGate)) (.ite h.post (.ite h.post (.ite ?_ h)))
  split
  · exact h.post.when fun h => h.post
  · exact h

protected theorem execDataSegment {port frame} : (execDataSegment port frame s).canonical :=
  .next (h.received fun h => h.sequenced fun h => (by dsimp only; split; exacts [h.raiseLimited, h.countForwarded.post]))

theorem countFragment {ctx a bits again} : (s.countFragment ctx a bits again).1.memoriesCanonical := by
  unfold State.countFragment
  dsimp only
  split
  · exact h
  · exact h.countForwarded.countForwarded

protected theorem execMsgSegment {port frame} : (execMsgSegment port frame s).canonical :=
  .next (h.received fun h => h.sequenced fun h => .ite h.countFragment.modGate.forwardMsg h.countFragment.modGate)

protected theorem execMsgTtlExpiry {ctx site gw id} : (execMsgTtlExpiry ctx site gw id s).canonical := by
  unfold execMsgTtlExpiry
  dsimp only
  split
  · exact .next h
  · exact .ite (.next h.modGate.raise) (.next h)

protected theorem execProbeSegment {port frame} : (execProbeSegment port frame s).canonical := .next (h.received fun h => h.sendAck)
theorem takeSample {ctx i sent v} : (s.takeSample ctx i sent v).memoriesCanonical := .ite h.setPath (.ite h.setPath h.setPath.raise)

protected theorem execRtoTimeout {ctx path} : (execRtoTimeout ctx path s).canonical := by
  unfold execRtoTimeout
  dsimp only
  split
  · exact .next h.watchPath
  · split
    · exact .next h.watchPath
    · exact .ite (.next h.watchPath.setPath) (.next h.watchPath)

theorem pathDown {ctx i e} : (s.pathDown ctx i e).memoriesCanonical := .ite h h.setPath.raise.announceFrom
theorem pathUp {ctx i e} : (s.pathUp ctx i e).memoriesCanonical := .ite h h.setPath.raise.announceFrom

theorem takeAck {ctx i e a} : (s.takeAck ctx i e a).memoriesCanonical :=
  .grantCredits (.roomAgain (.showBuf (.modPath (.ite (.ite h.setPath.pathUp.modPath.takeSample.modPath h.setPath.pathUp) h.setPath.pathUp))))

protected theorem execAckSegment {port frame} : (execAckSegment port frame s).canonical :=
  .next (h.received fun h => (h.when fun h => h.sendAck).takeAck)

protected theorem execProbeTimer {ctx path} : (execProbeTimer ctx path s).canonical := by
  unfold execProbeTimer
  dsimp only
  split
  · exact .next h.watchPath
  · refine .ite (.next h.watchPath) ?_
    split
    · exact .next h.watchPath
    · next heq => exact .next (h.watchPath.transmit _ heq).modPath

protected theorem execPathDeadTimeout {ctx path} : (execPathDeadTimeout ctx path s).canonical := by
  unfold execPathDeadTimeout
  dsimp only
  split
  · exact .ite (.next h.watchPath.pathDown) (.next h.watchPath)
  · exact .next h.watchPath

theorem startPaths {before} : (State.startPaths before s).memoriesCanonical := h.each fun h => (h.each fun h => h.watchPath).grantCredits

protected theorem execPaceInterval {ctx path} : (execPaceInterval ctx path s).canonical := by
  unfold execPaceInterval
  dsimp only
  split
  · exact .next h.watchPath
  · exact .ite (.next h.watchPath) (.next h.watchPath.setPath)

protected theorem execBufferFullTimer {port} : (execBufferFullTimer port s).canonical := by
  unfold execBufferFullTimer
  dsimp only
  split
  · exact .next h.roomAgain
  · exact .ite (.next h.roomAgain.endOf.raise) (.next h.roomAgain)

protected theorem execSegmentDrop {ctx path} : (execSegmentDrop ctx path s).canonical := by
  unfold execSegmentDrop
  dsimp only
  split
  · exact .next h.watchPath
  · exact .ite (.next h.watchPath) (.next h.watchPath.setPath.raise.showBuf.roomAgain.grantCredits)

theorem portDown {port why} : (s.portDown port why).memoriesCanonical := .ite h (h.setFld.raise.each fun h => h.each fun h => h.pathDown)

theorem writeFarPort {fn port hd v} : (s.writeFarPort fn port hd v).memoriesCanonical := by
  refine h.reaching fun {t} h => .ite (.setFld (.setReg ?_)) (.ite (.portDown (.setReg ?_)) (.setReg ?_))
  all_goals exact h.when fun h => h.blockedReg

theorem writeFarBuf {fn port hd v} : (s.writeFarBuf fn port hd v).memoriesCanonical := h.reaching fun h => .ite h h.writeReg
protected theorem execFarPortEnable {fn port value} : (execFarPortEnable fn port value s).canonical := .next h.writeFarPort

protected theorem execFarPortUp {port} : (execFarPortUp port s).canonical :=
  .ite (.next h.setFld) (.ite (.next h.setFld.setFld.setFld.bumpFld.raise) (.next h))

protected theorem execFarPortDown {port remote} : (execFarPortDown port remote s).canonical := .next h.setFld.portDown

theorem writePathSel {fn hd v} : (s.writePathSel fn hd v).memoriesCanonical :=
  h.reaching fun h => .ite h.writeReg.watchPath.modPath h.writeReg.watchPath.showPath

protected theorem execKeyPhaseSwitch {fn ctx path} : (execKeyPhaseSwitch fn ctx path s).canonical := .next h.writePathSel

end
end State.memoriesCanonical
end Sys2Proof.Machine
end

section
/-! SUPPORT. The canonical form of the byte memories through adoption, binding, launches, the host, the scalar slots and the twin. -/

namespace Sys2Proof.Machine
namespace State.memoriesCanonical
section
variable {s : State} (h : s.memoriesCanonical)
include h

-- # Machine/Adoption.lean

theorem setMember {g r dev} : (s.setMember g r dev).memoriesCanonical := h.devWrite.devWrite
theorem restartColls {ctx hit} : (s.restartColls ctx hit).memoriesCanonical := (h.same (by rfl)).each fun h => h.giveBack

theorem rewriteGroup {ctx gn dev g ranks} : (s.rewriteGroup ctx gn dev g ranks).memoriesCanonical :=
  h.each fun h => h.setMember.when fun h => h.post.raise

theorem rewriteForward {ctx failed adopter back} : (s.rewriteForward ctx failed adopter back).1.memoriesCanonical := h.each fun h => h.devWrite
theorem resendSeals {ctx adopter shards ledger} : (s.resendSeals ctx adopter shards ledger).memoriesCanonical := h.each fun h => h.post
theorem untrackGrads {ctx} : (s.untrackGrads ctx).memoriesCanonical := h.each fun h => (h.each fun h => h.each fun h => h.setScale.setScale).modLaunch

theorem reviveFinals {ctx} : (s.reviveFinals ctx).memoriesCanonical := by
  unfold State.reviveFinals
  split
  · exact h
  · exact .modStep (.each (.when ((h.untrackGrads.same (by rfl)).each fun h => h.activityIn) fun h => h.activityIn) fun h => h.endPass)

theorem releaseHolds {ctx} : (s.releaseHolds ctx).memoriesCanonical :=
  h.each fun h => h.each fun h => (h.when fun h => (h.same (by rfl)).releaseTile).when fun h => h.cancelWaits.releaseBody

theorem dropReplica {ctx replica} : (s.dropReplica ctx replica).memoriesCanonical := by
  unfold State.dropReplica
  split
  · exact h
  · exact h.modStep.when fun h => h.setFld.raise.releaseHolds

theorem rebalance {ctx a b} : (s.rebalance ctx a b).memoriesCanonical := (h.each fun h => h.devWrite).raise
theorem restoreSamples {ctx} : (s.restoreSamples ctx).memoriesCanonical := h.each fun h => h.devWrite
theorem rebalanceDue {ctx} : (s.rebalanceDue ctx).memoriesCanonical := (h.same (by rfl)).each fun h => h.rebalance
theorem showAdopted {ctx} : (s.showAdopted ctx).memoriesCanonical := h.setFld
theorem handbackEnd : s.handbackEnd.memoriesCanonical := .ite h (h.setFld.raise.same (by rfl))
theorem returnShards {ctx owner twin} : (s.returnShards ctx owner twin).memoriesCanonical := (h.each fun h => h.setShardOwner).same (by rfl)

theorem takeAdoption {ctx failed adopter replica other drop back} :
    (s.takeAdoption ctx failed adopter replica other drop back).memoriesCanonical := by
  unfold State.takeAdoption
  refine .ite (.ite (.handbackEnd (.returnShards (.restoreSamples (.when ?_ fun h => h.dropReplica))))
    (.restoreSamples (.when ?_ fun h => h.dropReplica))) (.ite (.rebalanceDue (.same (.when ?_ fun h => h.dropReplica) (by rfl)))
    (.same (.when ?_ fun h => h.dropReplica) (by rfl)))
  all_goals exact ((h.when fun h => h.reviveFinals).each fun h =>
    h.rewriteGroup).restartColls.modStep.rewriteForward.modGate.modXch.when fun h => h.resendSeals

theorem handbackAt {ctx} : (s.handbackAt ctx).memoriesCanonical := .ite h (h.returnShards.each fun h => h.setShardFlags).post.takeAdoption.handbackEnd

theorem sendCopies {ctx} : (s.sendCopies ctx).memoriesCanonical := by
  have hnote {t : State} {l} (h : t.memoriesCanonical) : { t with copying := l }.memoriesCanonical := h
  exact h.each fun h => hnote (h.each fun h => h.readBlock.postMir)

theorem stepBoundary {ctx} : (s.stepBoundary ctx).memoriesCanonical := (h.rebalanceDue.when fun h => h.sendCopies).when fun h => h.handbackAt

-- # Machine/Binder.lean

theorem makeNeeds {ctx l made t made'} (hmade : State.makeNeeds ctx l (s, made) = .ok (t, made')) : t.memoriesCanonical := by
  induction l generalizing s made with
  | nil => obtain ⟨rfl, -⟩ := Prod.mk.inj (Except.ok.inj hmade); exact h
  | cons x rest ih =>
    unfold State.makeNeeds at hmade
    dsimp only at hmade
    split at hmade
    · exact ih h hmade
    · split at hmade
      · exact nomatch hmade
      · exact ih h.makeObj hmade

theorem bind {ctx img key len handles} : (s.bind ctx img key len handles).2.1.memoriesCanonical := by
  unfold State.bind
  split
  · exact h
  · split
    · exact h
    · split
      · exact h
      · split
        · exact h
        · next heq => exact h.makeNeeds heq

theorem showStages {ctx img key} : (s.showStages ctx img key).memoriesCanonical :=
  h.each fun h => (by split; exacts [h.clearReg, h.setFld.setFld.setFld.setFld.setFld.setFld])

theorem openArenas {ctx img key} : (s.openArenas ctx img key).memoriesCanonical := .each ((h.same (by rfl)).showStages) fun h => h.showArena

-- # Machine/Launch.lean

theorem writePhases {ctx p tiles} : (s.writePhases ctx p tiles).memoriesCanonical :=
  h.each fun h => .ite h.setFld.setFld.setFld h.setFld.setFld.setFld

theorem writeCounts {ctx tiles} : (s.writeCounts ctx tiles).memoriesCanonical := h.setFld.setFld.setFld.setFld.each fun h => h.setFld.setFld
theorem writeCapsule {l p status} : (s.writeCapsule l p status).memoriesCanonical := .ite h.devWrite.setFld h

theorem endReplay {ctx p} : (s.endReplay ctx p).memoriesCanonical := by
  unfold State.endReplay
  split
  · exact h
  · refine .each ?_ fun h => h.devWrite
    split <;> exact h.showReplay

theorem closeRound {ctx p} : (s.closeRound ctx p).memoriesCanonical := by
  unfold State.closeRound
  refine .ite h ?_
  dsimp only
  split
  · exact .ite h.modXch.openRound.noteFormed h.modXch
  · exact h.modXch

theorem closeStep {l status} : (s.closeStep l status).memoriesCanonical := by
  unfold State.closeStep
  split
  · exact h
  · refine .ite h (.when ?_ fun h => h.ckptPoint)
    exact ((h.each fun h => h.setPhase).writePhases.writeCounts.setFld.setFld.writeCapsule.endReplay.closeRound.same (by rfl)).stepBoundary

theorem rollAll {l} : (s.rollAll l).memoriesCanonical := .ite h (h.each fun h => h.roll)

theorem reportLost {l} : (s.reportLost l).memoriesCanonical := by
  unfold State.reportLost
  split
  · exact h.when fun h => h.raise
  · exact h

theorem closeLaunch {l status} : (s.closeLaunch l status).memoriesCanonical := by
  have hstop {t : State} {x y} (h : t.memoriesCanonical) : { t with transfers := x, colls := y }.memoriesCanonical := h
  have htiles {t : State} {x} (h : t.memoriesCanonical) : { t with tiles := x }.memoriesCanonical := h
  have hgone {t : State} {x} (h : t.memoriesCanonical) : { t with launches := x }.memoriesCanonical := h
  unfold State.closeLaunch
  refine hgone (.each (.when (hstop (.each (.when (.rollAll (.reportLost (h.when fun h => ?_))) fun h => ?_) fun h => ?_)) fun h => ?_)
    fun h => htiles h)
  · exact h.modStep
  · exact h.abandon
  · exact h.cancelWaits.cancelWaits
  · exact h.closeStep

-- # Machine/Host.lean

protected theorem execHifBlockedClear {fn} : (execHifBlockedClear fn s).canonical := .next (h.reaching fun h => h.setReg)

protected theorem execHostBar4Access {fn offset op errs} : (execHostBar4Access fn offset op errs s).canonical := by
  have hread {t : State} {x y} (h : t.memoriesCanonical) : { t with bar4Data := x, bar4Poison := y }.memoriesCanonical := h
  have houtside {t : State} {o : Option Nat} (h : t.memoriesCanonical) :
      (match o with | some x => t.outside 1 none (x % 2 ^ 48) | none => t).memoriesCanonical := by
    split
    · exact h.outside
    · exact h
  unfold execHostBar4Access
  refine .ite (.next h) ?_
  dsimp only
  split
  · refine .next (hread (foldl_fst ?_ ?_))
    · exact (houtside (h.when fun h => h.blocked)).meets
    · exact fun h => h.readReport
  · exact .next ((houtside (h.when fun h => h.blocked)).meets.each fun h => h.devWrite.guardWork)

theorem cleanCmd {q x status} : (s.cleanCmd q x status).memoriesCanonical := by
  unfold State.cleanCmd
  dsimp only
  split
  · exact (h.same (by rfl)).closeLaunch
  · refine .ite ?_ h
    split
    · exact h
    · exact h

theorem queueError {q why} : (s.queueError q why).memoriesCanonical := by
  unfold State.queueError
  dsimp only
  split
  · exact (h.each fun h => .ite h.stopCmd h.cleanCmd).modQueue.setFld.raise
  · exact (h.each fun h => .ite h.stopCmd h.cleanCmd).modQueue.setFld

theorem doorbell {fn q} {f : State → State} (hf : ∀ {t}, t.memoriesCanonical → (f t).memoriesCanonical) :
    (s.doorbell fn q f).memoriesCanonical := by
  refine .ite h ?_
  split
  · exact .ite (hf h) h.blocked
  · exact h.blocked

protected theorem execSqTailWrite {fn q tail} : (execSqTailWrite fn q tail s).canonical :=
  .next (h.doorbell fun h => .ite h (.ite h.queueError h.modQueue))

protected theorem execCqHeadWrite {fn q head} : (execCqHeadWrite fn q head s).canonical :=
  .next (h.doorbell fun h => .ite h (.ite h.queueError (.ite h.queueError h.setQueue)))

theorem fetch {q} : (s.fetch q).memoriesCanonical :=
  .ite (.modQueue (.finish ((h.spaceTouch.same (by rfl)).setQueue))) ((h.spaceTouch.same (by rfl)).setQueue)

protected theorem execSubmissionFetch : (execSubmissionFetch s).canonical := by
  unfold execSubmissionFetch
  refine .ite (.next h) ?_
  split
  · exact .next h
  · exact .next h.fetch

theorem writeRec {q r} : (s.writeRec q r).memoriesCanonical :=
  h.spaceWrite.spaceWrite.setFld.setFld.setQueue.when fun h => (by split; exacts [h.msix, h])

protected theorem execCompletionRecordWrite {q} : (execCompletionRecordWrite q s).canonical := by
  unfold execCompletionRecordWrite
  split
  · exact .next h
  · exact .ite (.next h.writeRec) (.next h)

protected theorem execMsixUnmask {fn vector} : (execMsixUnmask fn vector s).canonical :=
  .ite (.next h) (.next ((h.same (by rfl)).when fun h => h.msix))
theorem startQueue {q} : (s.startQueue q).memoriesCanonical := h.setReg.setFld.setFld.setQueue
theorem drainQueue {q} : (s.drainQueue q).memoriesCanonical := h.setFld.modQueue.each fun h => h.stopCmd

theorem writeQueCfg {fn q hd v} : (s.writeQueCfg fn q hd v).memoriesCanonical := by
  refine h.reaching fun {t} h => .ite (.ite h.setReg h.setReg.drainQueue) (.ite h.blockedReg (.ite h.setReg ?_))
  split
  · exact h.blockedReg
  · exact .ite h.blockedReg (.ite h h.setReg.startQueue)

protected theorem execQueueEnable {fn q value} : (execQueueEnable fn q value s).canonical := .next h.writeQueCfg
protected theorem execQueueDisable {fn q value} : (execQueueDisable fn q value s).canonical := .next h.writeQueCfg
protected theorem execQueueDrainDone {q} : (execQueueDrainDone q s).canonical := .ite (.next h.setFld) (.next h)
theorem showEpochs : s.showEpochs.memoriesCanonical := h.setFld.setFld.when fun h => h.raise
theorem adoptEpoch {c i} : (s.adoptEpoch c i).memoriesCanonical := h
theorem validateTables {staged} : (s.validateTables staged).memoriesCanonical := h.each fun h => (by split; exacts [h.crozValidate, h])

theorem writeCommit {fn} : (s.writeCommit fn).memoriesCanonical :=
  h.reaching fun h => .ite h.blockedReg (.showEpochs (.validateTables (.setFld (.beginAt ((h.same (by rfl)).adoptEpoch)))))

protected theorem execEpochCommit {fn} : (execEpochCommit fn s).canonical := .next h.writeCommit

theorem writeEvqCfg {fn hd v} : (s.writeEvqCfg fn hd v).memoriesCanonical :=
  h.reaching fun h => .ite h.setReg (.ite h.blockedReg (.ite h.setReg (h.setReg.setFld.setFld.setFld.setRing.each fun h => h.ringWrite).ringLost))

protected theorem execEventRingEnable {fn value} : (execEventRingEnable fn value s).canonical := .next h.writeEvqCfg

theorem writeEvqHead {fn head} : (s.writeEvqHead fn head).memoriesCanonical :=
  h.reaching fun h => .ite h.blockedReg (h.setFld.setRing.when fun h => h.ringLost)

protected theorem execEventRingHeadWrite {fn head} : (execEventRingHeadWrite fn head s).canonical := .next h.writeEvqHead
theorem startCtxReset {n} : (s.startCtxReset n).memoriesCanonical := h.failCkpt.same (by rfl)

theorem writeCtxCfg {fn n hd v} : (s.writeCtxCfg fn n hd v).memoriesCanonical :=
  h.reaching fun h => .ite (.ite h.blockedReg h.startCtxReset) (.ite (.ite h.blockedReg (.ite h.setReg h.setReg.raise)) h.setReg)

protected theorem execContextEnable {fn ctx value} : (execContextEnable fn ctx value s).canonical := .next h.writeCtxCfg
protected theorem execContextReset {fn ctx} : (execContextReset fn ctx s).canonical := .next h.writeCtxCfg

-- # Machine/Bundle.lean

theorem setSlot {slot b} : (s.setSlot slot b).memoriesCanonical := h
theorem runBundle {b} : (s.runBundle b).memoriesCanonical := (h.same (by rfl)).each fun h => h.setFld

theorem raiseFloor {b} : (s.raiseFloor b).1.memoriesCanonical := by
  unfold State.raiseFloor
  dsimp only
  split
  · exact h.setFld.setFld.when fun h => h.writeDirectory
  · exact h

-- # Machine/Mailbox.lean

theorem mbxDone {fn} : (s.mbxDone fn).memoriesCanonical := by
  unfold State.mbxDone
  exact (h.same (by rfl)).when fun h => h.msix

theorem respond {fn status detail fields} : (s.respond fn status detail fields).memoriesCanonical := (h.same (by rfl)).mbxDone

theorem writeMbxCtl {fn hd v} : (s.writeMbxCtl fn hd v).memoriesCanonical :=
  h.reaching fun h => .ite h (.ite h.setFld (.ite (.mbxDone ((h.same (by rfl)).setFld)) (by split; exacts [.respond ((h.same (by rfl)).setFld),
    (h.same (by rfl)).setFld])))

theorem writeRequest {fn off bs} : (s.writeRequest fn off bs).memoriesCanonical := .ite h.setFld h

theorem message {fn id pf stage} {deny : Option (State → State)} {bad} {f : State → State}
    (hdeny : ∀ g ∈ deny, (g s).memoriesCanonical) (hf : ∀ {t}, t.memoriesCanonical → (f t).memoriesCanonical) :
    (s.message fn id pf stage deny bad f).memoriesCanonical := by
  unfold State.message
  refine .ite h (.ite h.respond (.ite h.respond ?_))
  split
  · exact (hdeny _ rfl).respond
  · split
    · exact h.respond
    · exact hf h

-- # Machine/Control.lean

protected theorem scalarOp {f hd sd sa sb} : (scalarOp f hd sd sa sb s).canonical := h.runSlot
protected theorem execSshl {hd sd sa sb} : (execSshl hd sd sa sb s).canonical := h.scalarOp
protected theorem execSshr {hd sd sa sb} : (execSshr hd sd sa sb s).canonical := h.scalarOp
protected theorem execSsra {hd sd sa sb} : (execSsra hd sd sa sb s).canonical := h.scalarOp
protected theorem execSlt {hd sd sa sb} : (execSlt hd sd sa sb s).canonical := h.scalarOp
protected theorem execSltu {hd sd sa sb} : (execSltu hd sd sa sb s).canonical := h.scalarOp
protected theorem execSmin {hd sd sa sb} : (execSmin hd sd sa sb s).canonical := h.scalarOp
protected theorem execSmax {hd sd sa sb} : (execSmax hd sd sa sb s).canonical := h.scalarOp

protected theorem waitSlot {hd kind pd si sn timeout} : (waitSlot hd kind pd si sn timeout s).canonical := by
  unfold waitSlot
  refine .ite .refused (.ite (.next h) ?_)
  split
  · exact .next h
  · exact .next h
  · exact .next h.noteStall
  · exact .next h.modTile
  · exact .next h.tileFault
  · refine .ite (.next h.issued) (.ite (.next h.issued) ?_)
    split
    · next heq => exact .next (h.waitOn.fst_of_eq heq).tileFault
    · next heq => exact .next (h.waitOn.fst_of_eq heq).issued
    · next heq =>
      have ht := h.waitOn.fst_of_eq heq
      exact .ite (.next ht.cancelWaits.issued) (.next ht.setTile.noteHeld)

protected theorem execWaittTimeout {tile} : (execWaittTimeout tile s).canonical :=
  .next ((h.when fun h => h.cancelWaits.releaseTile).when fun h => h.cancelWaits.releaseBody)

protected theorem execBar {hd si se} : (execBar hd si se s).canonical := by
  unfold execBar
  refine .ite .refused (.ite (.next h) ?_)
  split
  · exact .next h
  · exact .next h
  · exact .next h.noteStall
  · exact .next h.modTile
  · exact .next h.tileFault
  · refine .ite (.next h.tileFault) (.ite (.next h.issued) (.ite (.next h.issued) ?_))
    dsimp only
    split
    · next heq => exact .next (h.setTile.noteHeld.arrive.fst_of_eq heq)
    · next heq => exact .next (h.setTile.noteHeld.arrive.fst_of_eq heq).tileFault

protected theorem execBarrierLeave {tile ctx vid} : (execBarrierLeave tile ctx vid s).canonical := .next h.leave

protected theorem execDefq {hd sd sh} : (execDefq hd sd sh s).canonical := by
  unfold execDefq
  refine .ite ?_ h.runSlot
  split
  · exact .next h.startBody
  · exact .next h

protected theorem execDeferredYield {tile} : (execDeferredYield tile s).canonical := by
  unfold execDeferredYield
  dsimp only
  split
  · exact .next h
  · split
    · exact .ite (.next h.startBody) (.next h)
    · exact .next h

protected theorem execCodePageRefetch {tile} : (execCodePageRefetch tile s).canonical := by
  unfold execCodePageRefetch
  dsimp only
  split
  · exact .next h
  · exact .ite (.next h.tileFault) (.next h.refetchPage.setTile)

-- # Machine/Twin.lean

theorem fromTwin : s.fromTwin.memoriesCanonical := h.setFld
theorem sayHello : s.sayHello.memoriesCanonical := h.postMir
theorem answerHello {pst} : (s.answerHello pst).memoriesCanonical := h.when fun h => h.sayHello

theorem serveHello {order stepping dev pos pst} : (s.serveHello order stepping dev pos pst).memoriesCanonical := by
  unfold State.serveHello
  dsimp only
  split
  · exact .ite h.setFld.setFld.raise.answerHello (.ite h h.setFld.setFld.raise.answerHello)
  · exact .ite h (.ite (.ite h.answerHello (.answerHello ((h.same (by rfl)).raise))) (.answerHello ((h.same (by rfl)).raise)))
  · exact h.when fun h => h.answerHello
  · exact h

theorem serveGradient {ctx x grad gexp} : (s.serveGradient ctx x grad gexp).memoriesCanonical :=
  .ite (h.settleMirror.devWrite.when fun h => h.devWrite).modStep h

theorem serveDelta {ctx x round dlt} : (s.serveDelta ctx x round dlt).memoriesCanonical := .ite (h.settleMirror.modXch.when fun h => h.startApplies) h

theorem serveCopy {ctx x block bytes} : (s.serveCopy ctx x block bytes).memoriesCanonical :=
  .ite (.when (.ite h.writeParts.unmark.deriveBlock h.writeParts.unmark) fun h => h) h

theorem servePair {m} : (s.servePair m).memoriesCanonical := by
  unfold State.servePair
  dsimp only
  split
  · exact .ite h.serveHello h
  · exact .ite (.elim h (fun _ => h.serveGradient)) h
  · exact .ite h.modStep h
  · exact .ite (.elim h (fun _ => h.serveDelta)) h
  · exact .ite (.elim h (fun _ => h.takeDigests)) h
  · exact .ite (.elim h (fun _ => .ite h.takeRepair h)) h
  · exact .ite (.elim h (fun _ => h.serveCopy)) h

theorem pairMsg {m} : (s.pairMsg m).memoriesCanonical := .ite h (.ite h h.fromTwin.servePair)
theorem resumeDispatch : s.resumeDispatch.memoriesCanonical := (h.same (by rfl)).each fun h => h.servePair

end
end State.memoriesCanonical
end Sys2Proof.Machine
end

section
/-! SUPPORT. The canonical form of the byte memories through power, firmware, resets, the pair, the fabric, security and bring-up. -/

namespace Sys2Proof.Machine
namespace State.memoriesCanonical
section
variable {s : State} (h : s.memoriesCanonical)
include h

-- # Machine/Power.lean

theorem showBound : s.showBound.memoriesCanonical := h.setFld
theorem abandonAct {a why} : (s.abandonAct a why).memoriesCanonical := .raise ((h.same (by rfl)).resumeDispatch)

theorem deferActivation : s.deferActivation.memoriesCanonical := by
  unfold State.deferActivation
  split
  · exact h
  · exact .ite (.ite (.abandonAct (.raise ((h.same (by rfl)).resumeDispatch))) (.raise ((h.same (by rfl)).resumeDispatch))) h

theorem setCause {bit on} : (s.setCause bit on).memoriesCanonical :=
  .ite h (.showBound (.when (.ite (.raise ((h.same (by rfl)).bumpFld)) (.ite (.raise (.beginAt ((h.same (by rfl)).setFld))) h.setFld.setFld))
    fun h => h.deferActivation))

theorem thermTrip {source temp} : (s.thermTrip source temp).memoriesCanonical :=
  .ite h (.fatal (.raise (.setFld (.setFld ((h.same (by rfl)).setFld)))))
theorem dieHot : s.dieHot.memoriesCanonical := .ite h.setCause (.ite h.setCause h)
theorem memHot : s.memHot.memoriesCanonical := .ite h.setCause (.ite h.setCause h)
theorem vrFault : s.vrFault.memoriesCanonical := h.setCause
theorem setTj {d tj} : (s.setTj d tj).memoriesCanonical := .when (.dieHot ((h.same (by rfl)).setFld)) fun h => h.thermTrip

protected theorem execDieThrottleUpdate {d tj} : (execDieThrottleUpdate d tj s).canonical :=
  .ite (.next h) (.next (h.setFld.when fun h => h.raiseLimited).setTj.showBound)

protected theorem execHubJunctionTemperature {tj} : (execHubJunctionTemperature tj s).canonical := .ite (.next h) (.next h.setTj)
protected theorem execThermalTrip {source temp} : (execThermalTrip source temp s).canonical := .ite (.next h.thermTrip) (.next h)
theorem writePwrCap {fn hd v} : (s.writePwrCap fn hd v).memoriesCanonical := h.reaching fun h => .ite h.setFld h.setFld.stageReg

protected theorem execPowerControlPeriod {p1 p100} : (execPowerControlPeriod p1 p100 s).canonical := by
  unfold execPowerControlPeriod
  refine .ite (.next h) (.next (.showBound (.ite (.setCause (.when (.when ?_ fun h => h.raiseLimited) fun h => h.raise))
    (.ite (.setCause (.when (.when ?_ fun h => h.raiseLimited) fun h => h.raise)) (.when (.when ?_ fun h => h.raiseLimited) fun h => h.raise)))))
  all_goals exact .setFld (.setFld (.setFld (.setFld (h.same (by rfl)))))

protected theorem execPmbAlertSample {alert rails} : (execPmbAlertSample alert rails s).canonical :=
  .ite (.next h) (.next (.vrFault ((h.same (by rfl)).foldl fun h => h.setFld.setFld.setFld.setFld)))

protected theorem execPwrBrakeAssert : (execPwrBrakeAssert s).canonical := .ite (.next h) (.next ((h.same (by rfl)).setCause))
protected theorem execPwrBrakeRelease : (execPwrBrakeRelease s).canonical := .ite (.next h) (.next ((h.same (by rfl)).setCause))
protected theorem execVrHotAssert : (execVrHotAssert s).canonical := .ite (.next h) (.next ((h.same (by rfl)).vrFault))
protected theorem execVrHotRelease : (execVrHotRelease s).canonical := .ite (.next h) (.next ((h.same (by rfl)).vrFault))

-- # Machine/Firmware.lean

protected theorem execGetVersion {fn} : (execGetVersion fn s).canonical := .next (h.message nofun fun h => h.respond)
protected theorem execTelemetry {fn} : (execTelemetry fn s).canonical := .next (h.message nofun fun h => h.respond)
protected theorem execFwQuery {fn} : (execFwQuery fn s).canonical := .next (h.message nofun fun h => h.respond)
theorem modSession {f} : (s.modSession f).memoriesCanonical := h
theorem openSession : s.openSession.memoriesCanonical := .setFld ((h.same (by rfl)).modSession)
theorem attached {fn} : (s.attached fn).memoriesCanonical := h.respond

theorem shutNext {n} : (State.shutNext n s).memoriesCanonical := by
  induction n generalizing s with
  | zero => exact h
  | succ n ih =>
    unfold State.shutNext
    split
    · exact h
    · exact .ite h.startCtxReset (ih (by exact h))
    · exact (State.memoriesCanonical.setFld (by exact h)).raise.when fun h => h.openSession.attached

theorem shutdown {wait} : (s.shutdown wait).memoriesCanonical := by
  unfold State.shutdown
  dsimp only
  split
  · exact h
  · exact (h.same (by rfl)).shutNext

theorem shutDone {n} : (s.shutDone n).memoriesCanonical := by
  unfold State.shutDone
  split
  · exact .ite ((h.same (by rfl)).shutNext) h
  · exact h

protected theorem execDriverAttach {fn} : (execDriverAttach fn s).canonical := by
  unfold execDriverAttach
  refine .next (h.message (fun g hg => ?_) fun h => ?_)
  · split at hg
    · exact Option.some_inj.mp hg ▸ h.raise
    · exact nomatch hg
  · exact .ite h.openSession.attached (.ite h.shutdown (.ite h.raise.modSession.setFld.attached h.attached))

/-- A message without the session token, where it needs one, changes nothing before it is refused. -/
theorem needToken {fn} : ∀ g ∈ s.needToken fn, (g s).memoriesCanonical := by
  intro g hg
  unfold State.needToken at hg
  split at hg
  · exact nomatch hg
  · exact Option.some_inj.mp hg ▸ h

protected theorem execDriverDetach {fn} : (execDriverDetach fn s).canonical :=
  .next (h.message h.needToken fun h => h.modSession.setFld.respond)

protected theorem execSetOrphan {fn} : (execSetOrphan fn s).canonical := .next (h.message h.needToken fun h => h.modSession.respond)
theorem writeHeartbeat {fn} : (s.writeHeartbeat fn).memoriesCanonical := h.reaching fun h => .ite h.modSession h
protected theorem execDriverHeartbeat {fn} : (execDriverHeartbeat fn s).canonical := .next h.writeHeartbeat
protected theorem execDriverWatchdogExpiry : (execDriverWatchdogExpiry s).canonical := .ite (.next h.modSession.setFld.raise) (.next h)
protected theorem execOrphanTimeout : (execOrphanTimeout s).canonical := .ite (.next h.shutdown) (.next h)

theorem beginStage {addr len} : (s.beginStage addr len).memoriesCanonical := by
  have hstaging {t : State} {f} (h : t.memoriesCanonical) : { t with firmware := f }.memoriesCanonical := h
  exact hstaging h.writeDirectory.setSlot

theorem stageFails {slot why} : (s.stageFails slot why).memoriesCanonical := (h.same (by rfl)).raise

theorem finishStage {slot b} : (s.finishStage slot b).memoriesCanonical := by
  unfold State.finishStage
  dsimp only
  split
  · exact h.setSlot.stageFails
  · exact .raise ((h.same (by rfl)).writeDirectory)

protected theorem execFwStage {fn} : (execFwStage fn s).canonical :=
  .next (h.message h.needToken fun h => .ite h.respond h.beginStage.respond)

protected theorem execFwStageDone {readOk} : (execFwStageDone readOk s).canonical := by
  unfold execFwStageDone
  split
  · exact .next h
  · exact .ite (.next h.finishStage) (.next h.stageFails)

theorem setAct {a} : (s.setAct a).memoriesCanonical := h
theorem beginActivation {slot defer wait} : (s.beginActivation slot defer wait).memoriesCanonical := h.setAct

protected theorem execFwActivate {fn} : (execFwActivate fn s).canonical :=
  .next (h.message h.needToken fun h => .ite h.respond h.beginActivation.respond)

protected theorem execActivationClearWait : (execActivationClearWait s).canonical := by
  unfold execActivationClearWait
  split
  · exact .next h
  · exact .ite (.next h) (.next h)

protected theorem execActivationQuiesced : (execActivationQuiesced s).canonical := by
  unfold execActivationQuiesced
  split
  · exact .next h
  · exact .ite (.next h.setAct) (.next h)

protected theorem execActivationQuiesceTimeout : (execActivationQuiesceTimeout s).canonical := by
  unfold execActivationQuiesceTimeout
  split
  · exact .next h
  · exact .ite (.next h.abandonAct) (.next h)

protected theorem execActivationDeferTimeout : (execActivationDeferTimeout s).canonical := by
  unfold execActivationDeferTimeout
  split
  · exact .next h
  · exact .ite (.next h.abandonAct) (.next h)

protected theorem execActivationHealth : (execActivationHealth s).canonical := by
  unfold execActivationHealth
  split
  · exact .next h
  · refine .ite ?_ (.next h)
    dsimp only
    split
    · next heq => exact .next (h.setAct.writeDirectory.runBundle.raise.resumeDispatch.raiseFloor.fst_of_eq heq).raise
    · next heq => exact .next (h.setAct.writeDirectory.runBundle.raise.resumeDispatch.raiseFloor.fst_of_eq heq)

protected theorem execCoreHealthTimeout {core} : (execCoreHealthTimeout core s).canonical := by
  unfold execCoreHealthTimeout
  split
  · exact .next h
  · exact .ite (.ite (.next h.setAct.writeDirectory.raise.resumeDispatch) (.next h.setAct.writeDirectory.raise.fatal)) (.next h)

protected theorem execDiagRun {fn} : (execDiagRun fn s).canonical :=
  .next (h.message h.needToken fun h => .ite h.respond (.respond (h.same (by rfl))))

protected theorem execDiagDone {result} : (execDiagDone result s).canonical := by
  unfold execDiagDone
  split
  · exact .next h
  · exact .next ((h.same (by rfl)).raise)

protected theorem execPldmRequest {query} : (execPldmRequest query s).canonical := .ite (.next h.emit) (.next h)

protected theorem execPldmFirmwareUpdate {bundle} : (execPldmFirmwareUpdate bundle s).canonical := by
  unfold execPldmFirmwareUpdate
  exact .ite (.next h) (.next (h.beginStage.finishStage.when fun h => h.beginActivation))

-- # Machine/CtxReset.lean

theorem clearCtxRegs {n} : (s.clearCtxRegs n).memoriesCanonical := h
theorem clearCtxState {n} : (s.clearCtxState n).memoriesCanonical := .showBuf (.showBuf (((h.each fun h => h.unmakeObj).same (by rfl)).clearCtxRegs))
theorem releaseCtx {n} : (s.releaseCtx n).memoriesCanonical := h.each fun h => h.failAll
theorem endCtxCmds {n} : (s.endCtxCmds n).memoriesCanonical := h.releaseCtx.each fun h => h.each fun h => h.cleanCmd.finish

theorem flushRecs {n q} : (State.flushRecs n s q).memoriesCanonical := by
  induction n generalizing s with
  | zero => exact h
  | succ n ih =>
    unfold State.flushRecs
    split
    · exact h
    · exact .ite (ih h.writeRec) h

theorem flushCtx {n} : (s.flushCtx n).memoriesCanonical := h.each fun h => h.flushRecs

protected theorem execContextResetDone {ctx} : (execContextResetDone ctx s).canonical := by
  have hgone {t : State} {l} (h : t.memoriesCanonical) : { t with resetting := l }.memoriesCanonical := h
  unfold execContextResetDone
  split
  · exact .next h
  · refine .ite (.next h) (.ite (.next h.endCtxCmds.flushCtx) (.next (.shutDone (.raise (.when (hgone ?_) fun h => h.setFld)))))
    exact h.endCtxCmds.flushCtx.clearCtxState

theorem clearPf : s.clearPf.memoriesCanonical := ((h.foldl fun h => h.clearReg).same (by rfl)).setRing

protected theorem execFunctionLevelReset {fn} : (execFunctionLevelReset fn s).canonical :=
  .ite (.next h) (.next (((h.each fun h => .ite h h.startCtxReset).same (by rfl)).when fun h => h.clearPf))

-- # Machine/Reset.lean

theorem takeStraps : s.takeStraps.memoriesCanonical := h.setFld.setFld.setFld.setFld.setFld.setFld.setFld.setFld.each fun h => h.setFld
theorem tapAfterReset : s.tapAfterReset.memoriesCanonical := .ite h h

theorem tryLeave : s.tryLeave.memoriesCanonical := by
  have hnow : (if s.boot.kind = 3 then { s with now := 0 } else s).memoriesCanonical := .ite h h
  refine .ite (.vrFault (.when ?_ fun h => h.setCause)) h
  exact .ite (.setFld (.takeStraps (.setFld (.setFld (.tapAfterReset (hnow.same (by rfl))))))) (.bumpFld (.setFld (.setFld (.tapAfterReset
    (hnow.same (by rfl))))))

theorem inputChanged {cause} : (s.inputChanged cause).memoriesCanonical := .ite h.tryLeave (.ite h.enterReset h)

-- # Machine/Pair.lean

protected theorem execHello {order stepping serial dev pos pst} : (execHello order stepping serial dev pos pst s).canonical := .next h.pairMsg
protected theorem execHelloSend : (execHelloSend s).canonical := .ite (.next h.beginAt.sayHello) (.next h)
protected theorem execPairTimeout : (execPairTimeout s).canonical := .ite (.next ((h.same (by rfl)).raise)) (.next h)
protected theorem execHeartbeatSend : (execHeartbeatSend s).canonical := .ite (.next (h.beginAt.postMir.same (by rfl))) (.next h)
theorem twinFails {why} : (s.twinFails why).memoriesCanonical :=
  .ite (h.setFld.setFld.setFld.raise.same (by rfl)) (h.setFld.setFld.setFld.raise.same (by rfl))

protected theorem execHeartbeat {seq time pst fatal} : (execHeartbeat seq time pst fatal s).canonical :=
  .ite (.next (h.fromTwin.when fun h => h.twinFails)) (.next h)

protected theorem execTwinSilenceTimeout : (execTwinSilenceTimeout s).canonical := .ite (.next h.twinFails) (.next h)

theorem adoptShards {ctx failed} : (s.adoptShards ctx failed).1.memoriesCanonical := by
  refine .showAdopted (.each (h.each fun {x t} h => ?_) fun h => h.setShardOwner.dropCmp)
  dsimp only
  split
  · exact h.setShardOwner.dropCmp.raise
  · exact h.setShardOwner.dropCmp

theorem sendInName {ctx failed} : (s.sendInName ctx failed).memoriesCanonical :=
  h.each fun h => h.codeFor.modXch.queueSoreds.each fun h => h.queueItem

theorem adoptCtx {failed since ctx} : (s.adoptCtx failed since ctx).memoriesCanonical := .ite h.adoptShards.raise.post.takeAdoption.sendInName h

protected theorem execAdoption : (execAdoption s).canonical := by
  unfold execAdoption
  split
  · exact .next h
  · exact .next ((h.same (by rfl)).each fun h => h.adoptCtx)

protected theorem execAdoptionAnnounce {ctx failed adopter replica other drop back} :
    (execAdoptionAnnounce ctx failed adopter replica other drop back s).canonical := .next h.takeAdoption

protected theorem execGradient {ctx shard grad gexp} : (execGradient ctx shard grad gexp s).canonical := .next h.pairMsg
protected theorem execDecision {ctx step sum norm kappa reason k} : (execDecision ctx step sum norm kappa reason k s).canonical := .next h.pairMsg
protected theorem execDelta {ctx shard round dlt} : (execDelta ctx shard round dlt s).canonical := .next h.pairMsg
protected theorem execDigest {ctx shard of_ first digests marks} : (execDigest ctx shard of_ first digests marks s).canonical := .next h.pairMsg
protected theorem execRepair {ctx shard block bytes} : (execRepair ctx shard block bytes s).canonical := .next h.pairMsg
protected theorem execCopy {ctx shard block bytes} : (execCopy ctx shard block bytes s).canonical := .next h.pairMsg
theorem pairRelease : s.pairRelease.memoriesCanonical := .ite h.setFld.setFld.inputChanged h
theorem pairReintegrate : s.pairReintegrate.memoriesCanonical := .ite ((h.same (by rfl)).each fun h => h.stepBoundary) h
theorem pairHandback : s.pairHandback.memoriesCanonical := .ite (.handbackEnd ((h.same (by rfl)).each fun h => h.stepBoundary)) h

theorem writePairCtl {fn hd v} : (s.writePairCtl fn hd v).memoriesCanonical :=
  h.reaching fun h => (((h.when fun h => h.pairRelease).when fun h => h.pairReintegrate).when fun h => h.pairHandback).when fun h => h.setFld

protected theorem execRelease {fn} : (execRelease fn s).canonical := .next h.writePairCtl
protected theorem execReintegrate {fn} : (execReintegrate fn s).canonical := .next h.writePairCtl
protected theorem execHandback {fn} : (execHandback fn s).canonical := .next h.writePairCtl
protected theorem execContinueStep {fn ctx} : (execContinueStep fn ctx s).canonical := .next h.writePairCtl
protected theorem execPairHold : (execPairHold s).canonical := .ite (.next ((h.same (by rfl)).setFld)) (.next ((h.same (by rfl)).inputChanged))
protected theorem execPairHoldRelease : (execPairHoldRelease s).canonical := .next (.inputChanged ((h.same (by rfl)).setFld))

-- # Machine/Fabric.lean

theorem sendNak {p} : (s.sendNak p).memoriesCanonical := h.modPort.sendIdle
theorem showRole {held} : (s.showRole held).memoriesCanonical := h.setFld.when fun h => h.setFld
theorem showTime : s.showTime.memoriesCanonical := h.showRole
theorem takeMaster {m} : (s.takeMaster m).memoriesCanonical := h.setFld.showRole
theorem timeBack {seen} : (s.timeBack seen).memoriesCanonical := .ite h (.ite h.takeMaster (.ite h.takeMaster h))
theorem writeTimeCfg {fn hd v} : (s.writeTimeCfg fn hd v).memoriesCanonical := h.reaching fun h => h.writeReg.takeMaster

theorem portDead {p st} : (s.portDead p st).memoriesCanonical :=
  ((h.when fun h => h.modPort).setFld.setFld.setFld.setFld.setFld.forgetCame.when fun h => h.setFld).showTime.when fun h => h.rehome

theorem train {p} : (s.train p).memoriesCanonical := .ite h.portDead.modPort h.portDead
theorem linkDown {p why} : (s.linkDown p why).memoriesCanonical := .ite h (h.when fun h => h.raise).modPort.train
protected theorem execLinkSilenceTimeout {port} : (execLinkSilenceTimeout port s).canonical := .ite (.next h.linkDown) (.next h)

protected theorem execLinkTrainDone {port loss trains} : (execLinkTrainDone port loss trains s).canonical := by
  unfold execLinkTrainDone
  refine .ite (.next h) (.ite (.next h.setFld.portDead) ?_)
  dsimp only
  split
  · exact .next h.setFld.setFld.setFld.setFld.modPort.putFlit
  · exact .next h.setFld.setFld.setFld.setFld.modPort.sendFlit

protected theorem execLinkTrainRetry {port} : (execLinkTrainRetry port s).canonical := .ite (.next h.train) (.next h)

theorem writePortCtl {fn p hd v} : (s.writePortCtl fn p hd v).memoriesCanonical :=
  h.reaching fun h => .ite (.ite h.writeReg h.writeReg.portDead) (.ite h.writeReg.portDead.train (h.writeReg.when fun h => .ite h.train h.linkDown))

protected theorem execRetrain {fn port} : (execRetrain fn port s).canonical := .next h.writePortCtl
protected theorem execPortDisable {fn port on} : (execPortDisable fn port on s).canonical := .next h.writePortCtl
theorem replayPort {p} : (s.replayPort p).memoriesCanonical := .ite h.bumpFld (.ite h.bumpFld.linkDown (h.bumpFld.modPort.each fun h => h.putFlit))
theorem heard {p t} : (s.heard p t).memoriesCanonical := .drainPort (.ite h.modPort.replayPort h.modPort)

theorem inOrder {p t} {f : State → State} (hf : ∀ {t}, t.memoriesCanonical → (f t).memoriesCanonical) :
    (s.inOrder p t f).memoriesCanonical :=
  .ite h (.ite (hf (h.heard.modPort.sendIdle.when fun h => h.fromTwin)) (.ite h.heard h.heard.sendNak))

protected theorem execFlitIdle {port t} : (execFlitIdle port t s).canonical := .ite (.next h.heard) (.ite (.next h.modPort) (.next h))
protected theorem execFlitLink {port t vc n} : (execFlitLink port t vc n s).canonical := .ite (.next h) (.next h.modPort.heard)
protected theorem execFlitBadCrc {port} : (execFlitBadCrc port s).canonical := .ite (.next h.bumpFld.sendNak) (.next h)
theorem progress {tag} : (s.progress tag).memoriesCanonical := h
theorem takeFlit {p f} : (s.takeFlit p f).memoriesCanonical := .ite h.giveBack (.when ((h.same (by rfl)).progress) fun h => h.giveBack)
theorem passFlit {p f} : (s.passFlit p f).memoriesCanonical := .ite h.takeFlit h.sendOn
theorem dropHidden {p} : (s.dropHidden p).memoriesCanonical := h.modPort.each fun h => h.unreachable.giveBack
protected theorem execFlitData {port t hd payload} : (execFlitData port t hd payload s).canonical := .next (h.inOrder fun h => h.passFlit)
protected theorem execFlitCtrl {port t hd payload} : (execFlitCtrl port t hd payload s).canonical := .next (h.inOrder fun h => h.passFlit)

theorem linkUp {p id b fresh} : (s.linkUp p id b fresh).memoriesCanonical := by
  unfold State.linkUp
  refine .drainPort (.dropHidden (.when (.ite (.each ?_ fun h => h.sendFlit) (.each ?_ fun h => h.putFlit)) fun h =>
    (h.setFld.when fun h => h.raise).when fun h => h.sayHello))
  all_goals exact (h.setFld.setFld.setFld.bumpFld.raise.showTime.same (by rfl)).modPort

protected theorem execFlitDiscover {port t id peer dx dy dz} : (execFlitDiscover port t id peer dx dy dz s).canonical :=
  .ite (.next (h.inOrder fun h => h)) (.ite (.next h.modPort.setFld.setFld.setFld.rehome.raise) (.next (h.modPort.linkUp.when fun h => h.modPort)))

theorem releaseBypass {mask how} : (s.releaseBypass mask how).memoriesCanonical := .ite h (h.each fun h => h.setFld.setFld.raise.train.train)
theorem closeBypass {mask why} : (s.closeBypass mask why).memoriesCanonical := h.each fun h => h.setFld.bumpFld.raise.linkDown.linkDown

theorem writeBypCtl {fn hd v} : (s.writeBypCtl fn hd v).memoriesCanonical :=
  h.reaching fun h => .ite h.writeReg.closeBypass (h.writeReg.when fun h => h.releaseBypass)

protected theorem execBypassRelease {fn mask} : (execBypassRelease fn mask s).canonical := .next h.writeBypCtl
protected theorem execBypassClose {fn mask} : (execBypassClose fn mask s).canonical := .next h.writeBypCtl
protected theorem execVsbBypLoss : (execVsbBypLoss s).canonical := .next (.closeBypass ((h.same (by rfl)).setFld))
protected theorem execVsbBypPresent : (execVsbBypPresent s).canonical := .next ((h.same (by rfl)).setFld)

protected theorem execTimeFlitSend {port} : (execTimeFlitSend port s).canonical := by
  unfold execTimeFlitSend
  refine .ite (.next h) (.next (.sendFlit (.modPort ?_)))
  split
  · exact h
  · exact h

theorem correctTime {step d} : (s.correctTime step d).memoriesCanonical := .ite h h
theorem takeOffset {p o} : (s.takeOffset p o).memoriesCanonical := ((h.setFld.modPort.when fun h => h.raise).when fun h => h.beginAt).correctTime

protected theorem execFlitTime {port t replayed t1 t3 t4} : (execFlitTime port t replayed t1 t3 t4 s).canonical :=
  .next (h.inOrder fun h => .ite h (.ite h.modPort.timeBack.takeOffset h.modPort.timeBack))

protected theorem execTimeMasterTimeout : (execTimeMasterTimeout s).canonical := .ite (.next h) (.ite (.next h.takeMaster.raise) (.next h.setFld))

protected theorem execPpsEdge : (execPpsEdge s).canonical :=
  .ite (.next h) (.ite (.next h.setFld.setFld.endOf.correctTime) (.next h.setFld.setFld.endOf))

protected theorem execPpsTimeout : (execPpsTimeout s).canonical := .ite (.next h) (.ite (.next h.setFld.beginAt.raise) (.next h.setFld))

protected theorem execCollStallTimeout {ctx tag} : (execCollStallTimeout ctx tag s).canonical := by
  unfold execCollStallTimeout
  dsimp only
  split
  · exact .next h
  · exact .next ((h.same (by rfl)).raise)

protected theorem execMemberRewrite {ctx group rank dev} : (execMemberRewrite ctx group rank dev s).canonical := by
  unfold execMemberRewrite
  split
  · exact .next h
  · exact .ite (.next h) (.next h.setMember.restartColls)

-- # Machine/Security.lean

theorem modSecure {f} : (s.modSecure f).memoriesCanonical := h
theorem showSlot : s.showSlot.memoriesCanonical := h.setReg
theorem installKey {slot k} : (s.installKey slot k).memoriesCanonical := .showSlot ((h.same (by rfl)).setFld)
theorem emptySlot {slot} : (s.emptySlot slot).memoriesCanonical := (h.same (by rfl)).showSlot
theorem eraseSecrets : s.eraseSecrets.memoriesCanonical := .showSlot (.setFld ((h.same (by rfl)).modSecure))
theorem keyWaits {slot k} : (s.keyWaits slot k).memoriesCanonical := h.setFld.setFld.setFld.modSecure

theorem keyLoad : s.keyLoad.memoriesCanonical := by
  unfold State.keyLoad
  dsimp only
  split
  · exact h.spaceTouch.setFld.setFld.raise
  · exact h.spaceTouch.keyWaits

theorem keyErase {slot} : (s.keyErase slot).memoriesCanonical := .ite h.setFld.setFld h.keyWaits
theorem writeKeyCmd {fn hd v} : (s.writeKeyCmd fn hd v).memoriesCanonical := h.reaching fun h => .ite h (by split; exacts [h.keyLoad, h.keyErase, h])
protected theorem execKeyLoad {fn} : (execKeyLoad fn s).canonical := .next h.writeKeyCmd
protected theorem execKeyErase {fn slot} : (execKeyErase fn slot s).canonical := .next h.writeKeyCmd

protected theorem execKeySlotUpdate : (execKeySlotUpdate s).canonical := by
  unfold execKeySlotUpdate
  split
  · exact .next h
  · dsimp only
    split
    · exact .next h.modSecure.setFld.emptySlot
    · exact .next h.modSecure.setFld.installKey.raise

theorem writeSlotSel {fn hd v} : (s.writeSlotSel fn hd v).memoriesCanonical := h.reaching fun h => h.writeReg.showSlot
theorem setIntervene {on} : (s.setIntervene on).memoriesCanonical := h.each fun h => h.setFld.when fun h => h.setFld
theorem closeScopes {mask why} : (s.closeScopes mask why).memoriesCanonical := .ite h (h.setFld.modSecure.setFld.when fun h => h.setIntervene).raise
theorem faRefuse {counts why} : (s.faRefuse counts why).memoriesCanonical := ((h.when fun h => h.bumpFld).when fun h => h.setFld).raise
theorem faChallenge : s.faChallenge.memoriesCanonical := .ite h.faRefuse (h.each fun h => (h.same (by rfl)).setReg).setFld.modSecure

theorem openScopes {mask minutes} : (s.openScopes mask minutes).memoriesCanonical :=
  (h.setFld.modSecure.setFld.when fun h => h.setIntervene).raise.when fun h => h.eraseSecrets.modSecure

theorem faSubmit : s.faSubmit.memoriesCanonical :=
  .ite h.setFld.faRefuse (.ite h.setFld.faRefuse (.ite h.setFld.faRefuse (.ite h.setFld.faRefuse h.setFld.openScopes)))

theorem faCtl {hd v} : (s.faCtl hd v).memoriesCanonical := ((h.when fun h => h.faChallenge).when fun h => h.faSubmit).when fun h => h.closeScopes
theorem writeFaCtl {fn hd v} : (s.writeFaCtl fn hd v).memoriesCanonical := h.reaching fun h => h.faCtl
protected theorem execChallenge {fn} : (execChallenge fn s).canonical := .next h.writeFaCtl
protected theorem execSubmit {fn} : (execSubmit fn s).canonical := .next h.writeFaCtl
protected theorem execClose {fn} : (execClose fn s).canonical := .next h.writeFaCtl
protected theorem execNonceExpiry : (execNonceExpiry s).canonical := .ite (.next h.setFld) (.next h)
protected theorem execScopeExpiry {scope} : (execScopeExpiry scope s).canonical := .ite (.next h.closeScopes) (.next h)
theorem alarm {mask link} : (s.alarm mask link).memoriesCanonical := h.eraseSecrets.closeScopes.setFld.fatal.when fun h => h.raise
theorem writeAlarm {fn hd v} : (s.writeAlarm fn hd v).memoriesCanonical := h.reaching fun h => h.setReg

protected theorem execSecurityAlarm {mask corrected link} : (execSecurityAlarm mask corrected link s).canonical :=
  .next (h.bumpFld.when fun h => h.alarm)

theorem spdmReply {code own} : (s.spdmReply code own).memoriesCanonical := h.emit
theorem spdmError : s.spdmError.memoriesCanonical := h.emit

theorem spdmServe {phase} {f : State → State} (hf : ∀ {t}, t.memoriesCanonical → (f t).memoriesCanonical) :
    (s.spdmServe phase f).memoriesCanonical :=
  .ite h (.ite h.spdmError (hf h))

theorem modSpdm {f} : (s.modSpdm f).memoriesCanonical := h.modSecure
protected theorem execSpdmGetVersion : (execSpdmGetVersion s).canonical := .next (h.spdmServe fun h => h.modSpdm.spdmReply)
protected theorem execSpdmGetCapabilities : (execSpdmGetCapabilities s).canonical := .next (h.spdmServe fun h => h.modSpdm.spdmReply)

protected theorem execSpdmNegotiateAlgorithms {offered} : (execSpdmNegotiateAlgorithms offered s).canonical :=
  .next (h.spdmServe fun h => .ite h.modSpdm.spdmReply h.spdmError)

protected theorem execSpdmGetDigests : (execSpdmGetDigests s).canonical := .next (h.spdmServe fun h => h.spdmReply)

protected theorem execSpdmGetCertificate {slot offset length} : (execSpdmGetCertificate slot offset length s).canonical :=
  .next (h.spdmServe fun h => .ite h.spdmError h.spdmReply)

protected theorem execSpdmChallenge {slot nonce} : (execSpdmChallenge slot nonce s).canonical :=
  .next (h.spdmServe fun h => .ite h.spdmError h.spdmReply)

protected theorem execSpdmGetMeasurements {index signed nonce} : (execSpdmGetMeasurements index signed nonce s).canonical :=
  .next (h.spdmServe fun h => .ite h.spdmError h.spdmReply)

protected theorem execSpdmKeyExchange {slot exchange} : (execSpdmKeyExchange slot exchange s).canonical :=
  .next (h.spdmServe fun h => .ite h.spdmError h.modSpdm.spdmReply)

protected theorem execSpdmFinish {session verifies} : (execSpdmFinish session verifies s).canonical :=
  .next (h.spdmServe fun h => .ite h.spdmError (.ite h.modSpdm.spdmReply h.modSpdm.spdmError))

protected theorem execSpdmKeyUpdate {session} : (execSpdmKeyUpdate session s).canonical := .next (h.spdmServe fun h => .ite h.spdmReply h.spdmError)
protected theorem execSpdmHeartbeat {session} : (execSpdmHeartbeat session s).canonical := .next (h.spdmServe fun h => .ite h.spdmReply h.spdmError)

protected theorem execSpdmEndSession {session} : (execSpdmEndSession session s).canonical :=
  .next (h.spdmServe fun h => .ite h.modSpdm.spdmReply h.spdmError)

protected theorem execIdeKm {session stream tx sub set key} : (execIdeKm session stream tx sub set key s).canonical :=
  .ite (.next h.installKey) (.next h)

protected theorem execIdeTlpReceive {stream sub set iv aad sealed} : (execIdeTlpReceive stream sub set iv aad sealed s).canonical :=
  .ite (.next h) (.next h.modSecure.raise)

theorem tapTo {i} : (s.tapTo i).memoriesCanonical := h
protected theorem execIdcode : (execIdcode s).canonical := .next h.tapTo.emit
protected theorem execBypass : (execBypass s).canonical := .next h.tapTo
protected theorem execSamplePreload {cells} : (execSamplePreload cells s).canonical := .next h
theorem tapDrive {i} : (s.tapDrive i).memoriesCanonical := h.tapTo
protected theorem execExtest : (execExtest s).canonical := .next h.tapDrive
protected theorem execExtestPulse : (execExtestPulse s).canonical := .next h.tapDrive
protected theorem execExtestTrain : (execExtestTrain s).canonical := .next h.tapDrive

protected theorem execSecFa {reg value} : (execSecFa reg value s).canonical := by
  unfold execSecFa
  refine .next ?_
  split
  · exact h.tapTo.writeReg
  · exact h.tapTo.faCtl
  · exact h.tapTo.setReg

-- # Machine/Bringup.lean

protected theorem execPwrGoodRise {straps} : (execPwrGoodRise straps s).canonical := .ite (.next ((h.same (by rfl)).inputChanged)) (.next h)
protected theorem execPwrGoodFall : (execPwrGoodFall s).canonical := .next ((h.same (by rfl)).inputChanged)
protected theorem execColdResetAssert : (execColdResetAssert s).canonical := .next ((h.same (by rfl)).inputChanged)
protected theorem execWarmResetAssert : (execWarmResetAssert s).canonical := .next ((h.same (by rfl)).inputChanged)
protected theorem execPerstAssert : (execPerstAssert s).canonical := .next ((h.same (by rfl)).inputChanged)
protected theorem execPcieHotReset : (execPcieHotReset s).canonical := .next ((h.same (by rfl)).inputChanged)
protected theorem execResetRelease : (execResetRelease s).canonical := .next ((h.same (by rfl)).inputChanged)
theorem setRecov {st why} : (s.setRecov st why).memoriesCanonical := h.setFld.setFld
theorem recover : s.recover.memoriesCanonical := .ite h (.ite h.setRecov h.setRecov.setFld)

theorem writeBootCtl {fn hd v} : (s.writeBootCtl fn hd v).memoriesCanonical :=
  h.reaching fun h => .ite h.enterReset.tryLeave (h.when fun h => h.recover)

protected theorem execWarm {fn} : (execWarm fn s).canonical := .next h.writeBootCtl
protected theorem execRecover {fn} : (execRecover fn s).canonical := .next h.writeBootCtl
theorem enterStage {k} : (s.enterStage k).memoriesCanonical := h.setFld.setFld.setFld.when fun h => h.raise
theorem halt {code unit} : (s.halt code unit).memoriesCanonical := h.setFld.setFld.setFld
theorem later {code sev source detail} : (s.later code sev source detail).memoriesCanonical := h
theorem countBoot : s.countBoot.memoriesCanonical := (h.writeBootCount.setFld.each fun h => h.setFld).when fun h => h.later
theorem takeConfig : s.takeConfig.memoriesCanonical := (h.setFld.setFld.setFld.setFld.setFld.setFld.when fun h => h.later).showTime

theorem romStart {cap} : (s.romStart cap).memoriesCanonical :=
  .ite h.enterStage.setFld.halt (h.enterStage.setFld.setFld.setFld.countBoot.takeConfig.modSecure.when fun h => h.setRecov)

theorem bootSlot {slot} : (s.bootSlot slot).memoriesCanonical := by
  unfold State.bootSlot
  dsimp only
  split
  · next heq => exact (h.setFld.runBundle.enterStage.raiseFloor.fst_of_eq heq).later
  · next heq => exact h.setFld.runBundle.enterStage.raiseFloor.fst_of_eq heq

theorem activeFails : s.activeFails.memoriesCanonical := by
  unfold State.activeFails
  split
  · refine .ite ?_ h
    split
    · exact h.later
    · exact h
  · exact h

theorem bootFirmware : s.bootFirmware.memoriesCanonical := by
  unfold State.bootFirmware
  dsimp only
  split
  · exact h.activeFails.halt.setRecov
  · split
    · exact h.activeFails.bootSlot
    · exact h.activeFails.writeDirectory.later.bootSlot

theorem protonema : s.protonema.memoriesCanonical := .when ((h.enterStage.raise.same (by rfl)).each fun h => h.raise) fun h => h.releaseBypass
theorem spared {ch trigger} : (s.spared ch trigger).memoriesCanonical := h.setFld.setFld.setFld.setFld.setFld

theorem applyRepair {e} : (s.applyRepair e).memoriesCanonical := by
  unfold State.applyRepair
  dsimp only
  split
  · exact h.spared
  · exact h.bumpFld
  · exact h.bumpFld
  · exact h

theorem untrainable {ch} : (s.untrainable ch).memoriesCanonical := .ite h (.ite h.spared.noteRetired.raise h.halt)

theorem trainMemory {bad} : (s.trainMemory bad).memoriesCanonical := by
  unfold State.trainMemory
  split
  · exact h.halt
  · dsimp only
    split
    · exact h.halt
    · refine .ite (.each ?_ fun h => h.untrainable) (.enterStage (.each ?_ fun h => h.untrainable))
      all_goals exact .each (.same (h.each fun h => h.applyRepair) (by rfl)) fun h => h.when fun h => h.setFld

theorem fabricUp : s.fabricUp.memoriesCanonical := h.enterStage.each fun h => .ite h h.train
theorem fullService : s.fullService.memoriesCanonical := (h.enterStage.same (by rfl)).when fun h => h.setFld

protected theorem execStageReached {event} : (execStageReached event s).canonical := by
  unfold execStageReached
  refine .next ?_
  split
  · exact .ite h.romStart h
  · exact .ite h.bootFirmware h
  · refine .ite h ?_
    split
    · exact h.halt
    · exact h.protonema
  · exact .ite h.trainMemory h
  · exact .ite h.fabricUp h
  · exact .ite h.fullService h

protected theorem execStageBoundTimeout : (execStageBoundTimeout s).canonical := by
  unfold execStageBoundTimeout
  split
  · exact .ite (.next h.halt) (.next h)
  · exact .next h

protected theorem execRecoveryFetchDone {fault} : (execRecoveryFetchDone fault s).canonical := by
  unfold execRecoveryFetchDone
  refine .ite (.next h) ?_
  split
  · exact .next h.setRecov.setFld
  · refine .ite (.next h.setSlot.setFld.writeDirectory.setRecov) ?_
    dsimp only
    generalize hu : State.setFld _ F.BOOT_STAGE_UNIT 0 0 = u
    have hu : u.memoriesCanonical := hu ▸ h.setSlot.setFld.writeDirectory.setRecov.setFld.setFld.setFld
    exact .next (.bootSlot (hu.same (by rfl)))

protected theorem execRefclkLoss {clock} : (execRefclkLoss clock s).canonical := by
  unfold execRefclkLoss
  refine .ite (.next h) (.next ?_)
  split
  · exact h.each fun h => h.linkDown
  · exact h.each fun h => h.setFld.portDown
  · exact h
  · exact h.alarm

end
end State.memoriesCanonical
end Sys2Proof.Machine
end

section
/-! SUPPORT. The canonical form of the byte memories through commands, the memory's own commands, the operations on objects and register writes. -/

namespace Sys2Proof.Machine
namespace State.memoriesCanonical
section
variable {s : State} (h : s.memoriesCanonical)
include h

-- # Machine/Commands.lean

theorem leaveHead {q c} : (s.leaveHead q c).memoriesCanonical := h.when fun h => h.setFld

theorem startCmd {q n x} : (s.startCmd q n x).memoriesCanonical := by
  unfold State.startCmd
  dsimp only
  split
  · refine .finishFree ?_
    split
    · exact h.setFld.outside
    · exact h.setFld
  · exact h.setFld.modCmd

protected theorem execCommandStart {q} : (execCommandStart q s).canonical := by
  unfold execCommandStart
  split
  · exact .ite (.next h) (.ite (.next h) (.ite (.next h.setFld) (.ite (.next h.leaveHead) (.next h.startCmd))))
  · exact .next h

theorem askEnd {q x status detail} : (s.askEnd q x status detail).memoriesCanonical := by
  unfold State.askEnd
  split
  · exact h.leaveHead.finish
  · exact h.stopCmd

protected theorem execDeadlineExpiry {q c} : (execDeadlineExpiry q c s).canonical := by
  unfold execDeadlineExpiry
  split
  · exact .next h
  · exact .ite (.next h) (.ite (.next h.leaveHead.finishFree) (.next h.askEnd))

theorem dmaMove {n q e len faults} : (s.dmaMove n q e len faults).1.memoriesCanonical := by
  unfold State.dmaMove
  dsimp only
  split
  · exact (h.spaceWrite.when fun h => h.guardWork).when fun h => h.countCmp
  · exact ((h.spaceWrite.when fun h => h.guardWork).when fun h => h.countCmp).integrity

protected theorem execAbortPoint {q c units} : (execAbortPoint q c units s).canonical := by
  unfold execAbortPoint
  split
  · split
    · exact .next h
    · split
      · exact .ite (.next h.closeLaunch.finishFree) (.next h)
      · exact .ite (.ite (.next h.finish) (.ite (.next h.dmaMove.finish) (.next h))) (.ite (.next h) (.next h.cleanCmd.finishFree))
  · exact .next h

protected theorem execNop {q c} : (execNop q c s).canonical := by
  unfold execNop
  split
  · exact .next h
  · exact .next h.finish

protected theorem execLoadProgram {q c} : (execLoadProgram q c s).canonical := by
  unfold execLoadProgram
  split
  · exact .next h
  · exact .next ((h.spaceTouch.spaceTouch.same (by rfl)).modCmd)

protected theorem execLoadProgramComplete {q c} : (execLoadProgramComplete q c s).canonical := by
  have hprog {t : State} {l} (h : t.memoriesCanonical) : { t with programs := l }.memoriesCanonical := h
  unfold execLoadProgramComplete
  split
  · refine .ite (.next h) ?_
    split
    · exact .next h
    · dsimp only
      split
      · next heq => exact .next (finishFree (hprog (h.bind.snd_fst_of_eq heq)))
      · next heq => exact .next (finishFree (hprog (h.bind.snd_fst_of_eq heq)))
      · next heq => exact .next (finish (hprog (h.bind.snd_fst_of_eq heq)))
      · next heq => exact .next (finish (when (hprog (h.bind.snd_fst_of_eq heq)) fun h => h.showStages))
  · exact .next h

protected theorem execUnloadProgram {q c} : (execUnloadProgram q c s).canonical := by
  unfold execUnloadProgram
  split
  · exact .next h
  · refine .ite (.next h) ?_
    split
    · exact .next h.finishFree
    · exact .next (((h.each fun h => h.unmakeObj).same (by rfl)).finish)

protected theorem execLaunch {q c} : (execLaunch q c s).canonical := by
  unfold execLaunch
  split
  · exact .next h
  · split
    · exact .next h.finishFree
    · exact .ite (.next h) (.next ((h.same (by rfl)).each fun h => h.loadCode.setInv.setInv.setTile))

protected theorem execLaunchComplete {q c} : (execLaunchComplete q c s).canonical := by
  unfold execLaunchComplete
  split
  · exact .next h
  · refine .ite (.next h) ?_
    dsimp only
    split
    · exact .next h.closeLaunch.finish
    · exact .ite (.next h.closeLaunch.finishFree) (.next h.closeLaunch.finish)

protected theorem execDmaCopy {q c} : (execDmaCopy q c s).canonical := by
  unfold execDmaCopy
  split
  · exact .next h
  · exact .next h.begin

protected theorem execDmaFill {q c} : (execDmaFill q c s).canonical := by
  unfold execDmaFill
  split
  · exact .next h
  · exact .next h.begin

protected theorem execHostDmaComplete {q e} : (execHostDmaComplete q e s).canonical := by
  unfold execHostDmaComplete
  dsimp only
  split
  · refine .ite (.next h) ?_
    split
    · refine .next (.finishFree (.dmaMove ?_))
      split
      · exact h.meets.readReport
      · exact h.meets
    · refine .next (.finishFree (.dmaMove ?_))
      split
      · exact h.meets.readReport
      · exact h.meets
    · refine .next (.finish (.dmaMove ?_))
      split
      · exact h.meets.readReport
      · exact h.meets
  · exact .next h

protected theorem execSyncSignal {q c} : (execSyncSignal q c s).canonical := by
  unfold execSyncSignal
  split
  · exact .next h
  · split
    · next heq => exact .next (h.increment.fst_of_eq heq).finish
    · next heq => exact .next (h.increment.fst_of_eq heq).begin
    · exact .next h
    · next heq => exact .next (h.increment.fst_of_eq heq).finishFree

protected theorem execSyncWait {q c} : (execSyncWait q c s).canonical := by
  unfold execSyncWait
  split
  · exact .next h
  · split
    · next heq => exact .next (h.waitOn.fst_of_eq heq).finish
    · next heq => exact .next (h.waitOn.fst_of_eq heq).begin
    · next heq => exact .next (h.waitOn.fst_of_eq heq).finishFree

protected theorem execAbort {q c} : (execAbort q c s).canonical := by
  unfold execAbort
  dsimp only
  split
  · exact .next h
  · split
    · exact .ite (.next h.finishFree) (.ite (.next h.askEnd.begin.modCmd) (.next h.askEnd.finish))
    · split
      · exact .ite (.next h.spaceTouch.finishFree) (.ite (.next h.spaceTouch.modQueue.begin.modCmd) (.next h.spaceTouch.modQueue.finish))
      · exact .next h.spaceTouch.finishFree

-- # Machine/MemorySys.lean

theorem writeRegionCfg {fn hd v} : (s.writeRegionCfg fn hd v).memoriesCanonical :=
  h.reaching fun h => .ite h.blockedReg (.ite h.setFld h.setReg.setFld)

protected theorem execRegionConfig {fn value} : (execRegionConfig fn value s).canonical := .next h.writeRegionCfg

theorem scrubBad {ch key a} : (s.scrubBad ch key a).memoriesCanonical := by
  have hlost {t : State} {k : Nat} (h : t.memoriesCanonical) :
      (if t.memErrs.contains k then t else { t with memErrs := k :: t.memErrs }).memoriesCanonical := .ite h (h.same (by rfl))
  unfold State.scrubBad
  dsimp only
  exact .raise (.draw (.draw (hlost h.poisonKey.countUe)))

theorem readWord {ch key a} : (s.readWord ch key a).memoriesCanonical := by
  unfold State.readWord
  refine .ite h.scrubBad ?_
  split
  · exact h
  · exact h.mend.countCe
  · exact h.leaveStored.scrubBad
  · exact .ite (.scrubBad ((h.same (by rfl)).leaveStored)) (.countCe ((h.same (by rfl)).garble))

protected theorem execScrubRead {ch slot word errs} : (execScrubRead ch slot word errs s).canonical := .ite (.next h) (.next h.spoil.readWord)
protected theorem execCalSlice {ch pc} : (execCalSlice ch pc s).canonical := .ite (.next h) (.next h)

theorem weakPin {ch pc pin} : (s.weakPin ch pc pin).memoriesCanonical :=
  .ite h (.ite h.setFld.addRepair.raise (.ite (h.setFld.addRepair.raise.when fun h => h.retireAuto) h.loseChannel))

theorem noteMargin {ch margin} : (s.noteMargin ch margin).memoriesCanonical := .elim h (fun _ => h.setFld)

protected theorem execCalSliceDone {ch pins margin last} : (execCalSliceDone ch pins margin last s).canonical := by
  unfold execCalSliceDone
  split
  · exact .next h
  · exact .ite (.next h) (.next (((h.setFld.when fun h => .setFld ((h.same (by rfl)).noteMargin)).each fun h => h.weakPin).when
      fun h => h.loseChannel))

theorem extraPasses {st t} : (s.extraPasses st t).memoriesCanonical := h

theorem writeMemCmd {fn hd v} : (s.writeMemCmd fn hd v).memoriesCanonical :=
  h.reaching fun h => .ite h (.ite (.ite h.setFld.setFld h.setFld.setFld.retireIn) (.ite h h.setFld.setFld))

protected theorem execChannelRetire {fn ch} : (execChannelRetire fn ch s).canonical := .next h.writeMemCmd
protected theorem execClearCounts {fn ch} : (execClearCounts fn ch s).canonical := .next h.writeMemCmd

protected theorem execMigrationSlotMove {st errs} : (execMigrationSlotMove st errs s).canonical := by
  unfold execMigrationSlotMove
  refine .ite (.next h) (.ite (.next (.same ?_ (by rfl))) (.next (.endOf (.raise (.setFld (.setFld (.same ?_ (by rfl))))))))
  all_goals exact (h.each fun h => h.spoil).each fun h => h.readWord

protected theorem execChannelNoResponse {ch} : (execChannelNoResponse ch s).canonical := .ite (.next h) (.next h.loseChannel)

protected theorem execDieLinkRetry {l again} : (execDieLinkRetry l again s).canonical :=
  .ite (.next h) (.ite (.next (.fatal ((h.same (by rfl)).raise))) (.next (.ite ((h.same (by rfl)).raiseLimited) h)))

protected theorem execMemThrottleTick {st tMax tBase} : (execMemThrottleTick st tMax tBase s).canonical := by
  unfold execMemThrottleTick
  refine .ite (.next h) (.next (.when (.showBound (.memHot (.extraPasses (.ite (.endOf (.endOf ?_)) ?_)))) fun h => h.thermTrip))
  · exact h.beginAt.setFld.setFld.setFld.when fun h => h.raise
  · split
    · exact (h.beginAt.setFld.setFld.setFld.when fun h => h.raise).beginAt
    · exact (h.beginAt.setFld.setFld.setFld.when fun h => h.raise).when fun h => h.beginAt.raise

protected theorem execSupplyDroop {rail} : (execSupplyDroop rail s).canonical := .next h
protected theorem execRailUndervolt {rail} : (execRailUndervolt rail s).canonical := .ite (.next h) (.next h.fatal)

-- # Machine/Sync.lean

theorem orFree {v} : (s.orFree v).2.memoriesCanonical := by
  unfold State.orFree
  split
  · exact h
  · exact h

theorem synKeep {fn a} : (s.synKeep fn a).memoriesCanonical := h.orFree.orFree.orFree.same (by rfl)

theorem synOp {fn ctx vid} {run : State → State × SynAns} (hf : ∀ {t}, t.memoriesCanonical → (run t).1.memoriesCanonical) :
    (s.synOp fn ctx vid run).memoriesCanonical :=
  h.reaching fun h => .ite h.setFld (synKeep (.ite_fst h.setFld (.ite_fst h.setFld (hf h.setFld))))

protected theorem execSynOpComplete {fn} : (execSynOpComplete fn s).canonical := by
  unfold execSynOpComplete
  split
  · exact .next h
  · exact .next h

theorem onObject {ctx vid src} {f : Nat → Bool → SyncObj → State × SynAns} (hf : ∀ {k side o}, (f k side o).1.memoriesCanonical) :
    (s.onObject ctx vid src f).1.memoriesCanonical := by
  unfold State.onObject
  split
  · exact h
  · exact h.protoError
  · exact hf

theorem synCreate {fn ctx vid} : (s.synCreate fn ctx vid).1.memoriesCanonical := by
  unfold State.synCreate
  dsimp only
  split
  · exact h
  · exact .ite_fst h (.ite_fst h.protoError (.ite_fst h h.makeObj))

protected theorem execCreate {fn ctx vid rsv} : (execCreate fn ctx vid rsv s).canonical := .next (h.synOp fun h => h.synCreate)

protected theorem execDestroy {fn ctx vid rsv} : (execDestroy fn ctx vid rsv s).canonical := by
  refine .next (h.synOp fun h => h.onObject ?_)
  exact .ite_fst h (.ite_fst h h.unmakeObj)

protected theorem execRead {fn ctx vid rsv} : (execRead fn ctx vid rsv s).canonical := by
  refine .next (h.synOp fun h => h.onObject ?_)
  exact h

theorem synWatch {ctx vid k side o a0 a1 a2} : (s.synWatch ctx vid k side o a0 a1 a2).1.memoriesCanonical :=
  .ite_fst h (.ite_fst h (h.setObj.setFld.setFld.when fun h => h.fire (firstAct_keepsForm _)))

protected theorem execWatch {fn ctx vid rsv} : (execWatch fn ctx vid rsv s).canonical := by
  refine .next (h.synOp fun h => h.onObject ?_)
  exact h.synWatch

protected theorem execUnwatch {fn ctx vid rsv} : (execUnwatch fn ctx vid rsv s).canonical := by
  refine .next (h.synOp fun h => h.onObject fun {k side o} => ?_)
  split
  · exact h
  · exact h.dropWatch

protected theorem execTrace {fn ctx vid rsv} : (execTrace fn ctx vid rsv s).canonical := by
  refine .next (h.synOp fun h => .ite_fst h (.ite_fst h (h.onObject ?_)))
  exact h.setObj

theorem intervened {ctx vid op} : (s.intervened ctx vid op).memoriesCanonical := h.bumpFld.notify.modStep

theorem intervene {ctx vid op} {f : Nat → Bool → SyncObj → State × SynAns} (hf : ∀ {k side o}, (f k side o).1.memoriesCanonical) :
    (s.intervene ctx vid op f).1.memoriesCanonical :=
  .ite_fst h (h.onObject (hf.when fun h => h.intervened))

theorem settle {ctx k side} : (s.settle ctx k side).memoriesCanonical := h.wake.fireAll firstAct_keepsForm

protected theorem execDbgSet {fn ctx vid rsv} : (execDbgSet fn ctx vid rsv s).canonical := by
  refine .next (h.synOp fun h => h.intervene ?_)
  exact h.setObj.settle

theorem releaseAll {k o} : (s.releaseAll k o).memoriesCanonical :=
  h.modObj.each fun h => (by dsimp only; split; exacts [h.traceRelease.releaseTile, h.traceRelease.releaseBody, h.traceRelease.finishFree])

protected theorem execDbgRelease {fn ctx vid rsv} : (execDbgRelease fn ctx vid rsv s).canonical := by
  refine .next (h.synOp fun h => h.intervene ?_)
  exact h.releaseAll

theorem openEpoch {ctx k o e} : (s.openEpoch ctx k o e).memoriesCanonical :=
  (h.each fun h => (by split; exacts [h.traceRelease.releaseTile, h])).modObj.settle

protected theorem execDbgEpoch {fn ctx vid rsv} : (execDbgEpoch fn ctx vid rsv s).canonical := by
  refine .next (h.synOp fun h => h.intervene ?_)
  exact .ite_fst h.protoError h.openEpoch

protected theorem execDbgClear {fn ctx vid rsv} : (execDbgClear fn ctx vid rsv s).canonical := by
  refine .next (h.synOp fun h => h.intervene ?_)
  exact h.setObj

protected theorem execDbgHold {fn ctx vid rsv} : (execDbgHold fn ctx vid rsv s).canonical := by
  unfold execDbgHold
  dsimp only
  exact .next (h.synOp fun h => h.intervene (by split; exacts [h, (by split; exacts [h.setObj, h.setObj.applyHeld.applyHeld])]))

protected theorem execCoreIncrement {core ctx vid inc} : (execCoreIncrement core ctx vid inc s).canonical := .next h.incrementOnce.replyInc
theorem writeDbgCtl {fn ctx hd v} : (s.writeDbgCtl fn ctx hd v).memoriesCanonical := h.reaching fun h => .ite h.writeReg.blockedReg h.writeReg
protected theorem execSynDbgCtlWrite {fn ctx value} : (execSynDbgCtlWrite fn ctx value s).canonical := .next h.writeDbgCtl

theorem writeNqCfg {fn ctx hd v} : (s.writeNqCfg fn ctx hd v).memoriesCanonical :=
  h.reaching fun h => .ite h.setReg (.ite h.blockedReg (.ite h.setReg h.setReg.setFld.setFld.setFld.setNring.nringFlush.setNring.nringFlush))

protected theorem execNotifyRingEnable {fn ctx value} : (execNotifyRingEnable fn ctx value s).canonical := .next h.writeNqCfg

theorem writeNqHead {fn ctx head} : (s.writeNqHead fn ctx head).memoriesCanonical :=
  h.reaching fun h => .ite h.blockedReg (h.setFld.setNring.when fun h => h.nringFlush)

protected theorem execNotifyRingHeadWrite {fn ctx head} : (execNotifyRingHeadWrite fn ctx head s).canonical := .next h.writeNqHead

-- # Machine/Tensor.lean

theorem writeNumState {fn ctx hd v} : (s.writeNumState fn ctx hd v).memoriesCanonical :=
  h.reaching fun h => .ite (h.setFld.setFld.each fun h => h.setFld) h

protected theorem execNumRecordClear {fn ctx} : (execNumRecordClear fn ctx s).canonical := .next h.writeNumState
theorem writeTensorReg {fn ctx hd v} : (s.writeTensorReg fn ctx hd v).memoriesCanonical := h.reaching fun h => .ite h.setFld.setFld.setFld h
protected theorem execTensorRegister {fn ctx tid} : (execTensorRegister fn ctx tid s).canonical := .next h.writeTensorReg
theorem registerTensor {ctx t} : (s.registerTensor ctx t).memoriesCanonical := h.devWrite.setDesc.setDesc.setDesc.setDesc.chillAll

protected theorem execTensorRegisterDone {ctx} : (execTensorRegisterDone ctx s).canonical :=
  .ite (.next h) (.ite (.next h.setFld.setFld) (.next h.setFld.registerTensor))

-- # Machine/RegWrite.lean

theorem writeUnless {fn r i hd v c} : (s.writeUnless fn r i hd v c).memoriesCanonical := h.reaching fun h => .ite h h.writeReg
theorem writeOrBlock {fn r i hd v c} : (s.writeOrBlock fn r i hd v c).memoriesCanonical := h.reaching fun h => .ite h.blockedReg h.writeReg

theorem clearRecord {fn valid also i hd v} : (s.clearRecord fn valid also i hd v).memoriesCanonical :=
  h.reaching fun h => h.when fun h => h.each fun h => h.setReg

theorem writeStepCfg {fn ctx hd v} : (s.writeStepCfg fn ctx hd v).memoriesCanonical := h.reaching fun h => h.stageReg.writeReg.setFld
theorem writeFabId {fn r hd v} : (s.writeFabId fn r hd v).memoriesCanonical := h.writeOrBlock.showTime
theorem writeBlocked {fn hd v} : (s.writeBlocked fn hd v).memoriesCanonical := h.reaching fun h => h.when fun h => h.setReg

/-- What a meaning answers, as a state. -/
theorem state {a : Answer} (ha : a.canonical) : (Answer.state s a).memoriesCanonical := by
  unfold Answer.state
  split
  · exact ha _ rfl
  · exact h

protected theorem synOpOf {op fn ctx vid rsv} : (synOpOf op fn ctx vid rsv s).canonical := by
  unfold synOpOf
  split
  · exact h.execCreate
  · exact h.execDestroy
  · exact h.execRead
  · exact h.execWatch
  · exact h.execUnwatch
  · exact h.execTrace
  · exact h.execDbgSet
  · exact h.execDbgRelease
  · exact h.execDbgEpoch
  · exact h.execDbgClear
  · exact h.execDbgHold
  · exact .next (h.synOp fun h => h)

theorem writeSynOp {fn hf v} : (s.writeSynOp fn hf v).memoriesCanonical := h.state h.synOpOf

theorem writeAt {fn r i hd v} : (s.writeAt fn r i hd v).memoriesCanonical := by
  have hplain : (s.reaching fn r i fun s => s.writeReg r i hd v).memoriesCanonical := h.reaching fun h => h.writeReg
  have hstaged : (s.reaching fn r i fun s => s.stageReg r i hd v).memoriesCanonical := h.reaching fun h => h.stageReg
  unfold State.writeAt
  split
  exacts [h.when fun h => h.writeCommit, h.writeHeartbeat, h.writeBlocked, h.writeCtxCfg, h.writeOrBlock, h.writeOrBlock, h.writeOrBlock,
    h.writeUnless, h.writeUnless, h.writeQueCfg, h.writeUnless, h.writeEvqCfg, h.writeEvqHead, h.writeSynOp, h.writeUnless,
    h.writeNqCfg, h.writeNqHead, h.clearRecord, h.writeDbgCtl, h.writeNumState, h.writeStepCfg, h.writeUnless, h.writeReplayCtl,
    h.clearRecord, h.writeOrBlock, h.writeOrBlock, h.writeTensorReg, h.writeOrBlock, h.writeOrBlock, h.writeUnless, h.writeCkptCtl,
    h.writeRegionCfg, h.clearRecord, h.writeMemCmd, h.writeFabId, h.writeFabId, h.writeTimeCfg, h.writePortCtl, h.writeBypCtl, h.writeXchCfg,
    h.writeXchCmd, h.writeUnless, h.writeUnless, h.writeFarPort, h.writeFarBuf, h.writePathSel, h.writePairCtl, h.writeMbxCtl,
    h.writePwrCap, h.writeKeyCmd, h.writeAlarm, h.writeSlotSel, h.writeFaCtl, h.reaching fun h => h.setReg, h.writeBootCtl, hstaged,
    hstaged, hstaged, hstaged, hstaged, hstaged, hstaged, hstaged, hstaged, hstaged, hstaged, hstaged, hstaged, hstaged, hstaged,
    hstaged, hstaged, hstaged, hstaged, hstaged, hstaged, hstaged, hstaged, hstaged, hplain]

theorem writeOffset {fn off hd v} : (s.writeOffset fn off hd v).memoriesCanonical := by
  unfold State.writeOffset
  refine .ite h.blocked (.ite (.ite h.writeRequest h) ?_)
  split
  · exact h
  · exact h.writeAt

protected theorem execRegisterWrite {fn offset half value} : (execRegisterWrite fn offset half value s).canonical := .next h.writeOffset
theorem enablePages {before} : (State.enablePages before s).memoriesCanonical := h.each fun h => h.setFld

protected theorem execEpochAdopt {unit inst} : (execEpochAdopt unit inst s).canonical := by
  unfold execEpochAdopt
  refine .ite (.next (.showEpochs (.when ?_ fun h => h.startPaths))) (.next h)
  exact h.adoptEpoch.when fun h => h.enablePages

-- # Machine/StepOpen.lean

theorem replayScales {ctx} : (s.replayScales ctx).memoriesCanonical := h.foldl fun h => .devWrite (.ite h.devWrite h.devWrite)

theorem refresh {ctx l fetched} : (s.refresh ctx l fetched).memoriesCanonical :=
  (h.each fun h => .setShardFlags (.ite h.derive (by split; exacts [h.devWrite, h]))).setFld.when fun h => h.raise

theorem takeCroz {ctx} : (s.takeCroz ctx).memoriesCanonical := by
  unfold State.takeCroz
  dsimp only
  split
  · exact .same (.ite h.beginAt.crozValidate h) (by rfl)
  · exact .ite h.beginAt.crozValidate h

theorem readForOpen {l p} : (s.readForOpen l p).memoriesCanonical :=
  ((h.touch.touch.touch.each fun h => h.touch).each fun h => h.touch).when fun h => h.touch.each fun h => h.touch

theorem openStep {l p fetched replay} : (s.openStep l p fetched replay).memoriesCanonical := by
  unfold State.openStep
  refine .setFld (.setFld (.setFld (.when (.each (.modLaunch (.same ?_ (by rfl))) fun h => h.modTile) fun h => h.modXch)))
  exact h.readForOpen.refresh.takeCroz.openArenas.when fun h => h.replayScales.setFld

protected theorem execStepOpen {q c fetched} : (execStepOpen q c fetched s).canonical := by
  unfold execStepOpen
  split
  · exact .next h
  · refine .ite (.next h) ?_
    split
    · exact .next h
    · refine .ite (.next h.setFld.showReplay.closeLaunch.finishFree) ?_
      split
      · exact .next h.raise.closeLaunch.finishFree
      · exact .ite (.next h.modXch) (.ite (.next h.openStep) (.next h))

end
end State.memoriesCanonical
end Sys2Proof.Machine
end

section
/-! SUPPORT. The canonical form of the byte memories through one instruction of any kind, a fetch, and one step (O48). -/

namespace Sys2Proof.Machine
namespace State.memoriesCanonical
section
variable {s : State} (h : s.memoriesCanonical)
include h

-- # Machine/Dispatch.lean

protected theorem exec {i} : Answer.canonical (exec i s) := by
  cases i
  case mma | aclr | acst | acld | acrv | vrac | vscal | vcmp | vsel | vred | vbc | vext | vperm | vcvt | vld | vst | sld | sst | dma | dma2 | saddi |
    sins | scmp | plog | srd | br | loop | call | jr | endTile | sig => exact h.runSlot
  case mmax | mmin => exact h.maxOp
  case vadd | vsub | vmul | vmax | vmin => exact h.floatOp
  case vfma | vfms => exact h.fmaOp
  case vabs | vneg | vrcp | vrsq | vexp2 | vlog2 | vsqrt => exact h.floatOp1
  case vand | vor | vxor | viadd | visub => exact h.intOp
  case reduceScatter | allGather | allReduce | norm | broadcast | shift => exact h.collSlot
  case sadd | ssub | smul | sand | sor | sxor => exact h.scalarOp
  case wait | waitt => exact h.waitSlot
  case ld | ldm | ldv | wadd | wmul | add | sub | mul | fma | fms | div | max | min | abs | neg | sqrt | rsq | rcp | exp2 | log2 | csgn | cmp | sel =>
    exact h.engineOp h
  case st => exact h.engineOp h.engSt
  case stm => exact h.engineOp h.engStm
  case wtof => exact h.engineOp h.engWtof
  exacts [h.execRegisterWrite, h.execHifBlockedClear, h.execHostBar4Access, h.execSqTailWrite, h.execCqHeadWrite, h.execSubmissionFetch,
    h.execCommandStart, h.execCompletionRecordWrite, h.execMsixUnmask, h.execDeadlineExpiry, h.execAbortPoint, h.execNop, h.execLoadProgram,
    h.execLoadProgramComplete, h.execUnloadProgram, h.execLaunch, h.execLaunchComplete, h.execDmaCopy, h.execDmaFill, h.execHostDmaComplete,
    h.execSyncSignal, h.execSyncWait, h.execAbort, h.execContextEnable, h.execContextReset, h.execFunctionLevelReset, h.execContextResetDone,
    h.execQueueEnable, h.execQueueDisable, h.execQueueDrainDone, h.execEpochCommit, h.execEpochAdopt, h.execDriverHeartbeat, h.execEventRingEnable,
    h.execEventRingHeadWrite, h.execSlotNop, h.execMatrixOpComplete, h.execVshl, h.execVshr, h.execVsra, h.execDmaComplete, h.execBlockReread,
    h.execCollComplete, h.execSshl, h.execSshr, h.execSsra, h.execSlt, h.execSltu, h.execSmin, h.execSmax, h.execWaittTimeout, h.execBar,
    h.execBarrierLeave, h.execDefq, h.execDeferredYield, h.execCodePageRefetch, h.execEngineNop, h.execCreate (rsv := false),
    h.execDestroy (rsv := false), h.execRead (rsv := false), h.execWatch (rsv := false), h.execUnwatch (rsv := false), h.execTrace (rsv := false),
    h.execDbgSet (rsv := false), h.execDbgRelease (rsv := false), h.execDbgEpoch (rsv := false), h.execDbgClear (rsv := false),
    h.execDbgHold (rsv := false), h.execSynOpComplete, h.execCoreIncrement, h.execSynDbgCtlWrite, h.execNotifyRingEnable,
    h.execNotifyRingHeadWrite, h.execNumRecordClear, h.execTensorRegister, h.execTensorRegisterDone, h.execStepOpen, h.execReplayArm,
    h.execDecisionRecord, h.execUpdateStart, h.execEnginePassComplete, h.execFormPass, h.execCheckpointGo, h.execCheckpointWrite,
    h.execCheckpointDone, h.execRestore, h.execRestoreDone, h.execRegionConfig, h.execCalSlice, h.execCalSliceDone, h.execChannelRetire,
    h.execClearCounts, h.execMigrationSlotMove, h.execScrubRead, h.execChannelNoResponse, h.execDieLinkRetry, h.execMemThrottleTick,
    h.execDieThrottleUpdate, h.execSupplyDroop (rail := 0), h.execRailUndervolt (rail := 0), h.execFlitData, h.execFlitCtrl, h.execFlitTime,
    h.execFlitDiscover, h.execFlitLink, h.execFlitIdle, h.execLinkSilenceTimeout, h.execLinkTrainDone, h.execLinkTrainRetry, h.execTimeFlitSend,
    h.execTimeMasterTimeout, h.execPpsEdge, h.execPpsTimeout, h.execVsbBypLoss, h.execVsbBypPresent, h.execBypassRelease, h.execBypassClose,
    h.execRetrain, h.execPortDisable, h.execCollStallTimeout, h.execMemberRewrite, h.execXchEnable, h.execRoundCode, h.execSealSend,
    h.execGatewayItemReceive, h.execGatewayCredit, h.execPathAnnounce, h.execSorediumReceive, h.execSealReceive, h.execRefetchTimeout,
    h.execRefetch, h.execGone, h.execContributionReport, h.execSiteReport, h.execLedgerDeadline, h.execLedgerEntry, h.execProvisionalTimeout,
    h.execRoundApply, h.execApplyStallTimer, h.execEfficiencyReport, h.execSnapReq, h.execSnapManifest, h.execSnapChunk, h.execSnapshotHoldTimeout,
    h.execHandover, h.execClaim, h.execJoin, h.execResume, h.execFarPortEnable, h.execFarPortUp, h.execFarPortDown, h.execDataSegment,
    h.execAckSegment, h.execMsgSegment, h.execProbeSegment, h.execSegmentSend, h.execAckDelayTimeout, h.execRtoTimeout, h.execProbeTimer,
    h.execPathDeadTimeout, h.execPaceInterval, h.execBufferFullTimer, h.execSegmentDrop, h.execMsgTtlExpiry, h.execKeyPhaseSwitch,
    h.execHello (serial := 0), h.execHelloSend, h.execPairTimeout, h.execHeartbeatSend, h.execHeartbeat (seq := 0) (time := 0) (pst := 0),
    h.execTwinSilenceTimeout, h.execAdoption, h.execAdoptionAnnounce, h.execGradient, h.execDecision, h.execDelta, h.execDigest, h.execRepair,
    h.execCopy, h.execPairHold, h.execPairHoldRelease, h.execRelease, h.execReintegrate, h.execHandback, h.execContinueStep, h.execGetVersion,
    h.execTelemetry, h.execDriverAttach, h.execDriverDetach, h.execSetOrphan, h.execFwStage, h.execFwStageDone, h.execFwActivate,
    h.execActivationClearWait, h.execActivationQuiesced, h.execActivationQuiesceTimeout, h.execActivationDeferTimeout, h.execActivationHealth,
    h.execCoreHealthTimeout, h.execFwQuery, h.execDiagRun, h.execDiagDone, h.execDriverWatchdogExpiry, h.execOrphanTimeout, h.execPldmRequest,
    h.execPldmFirmwareUpdate, h.execPowerControlPeriod, h.execPmbAlertSample, h.execPwrBrakeAssert, h.execPwrBrakeRelease, h.execVrHotAssert,
    h.execVrHotRelease, h.execThermalTrip, h.execSpdmGetVersion, h.execSpdmGetCapabilities, h.execSpdmNegotiateAlgorithms, h.execSpdmGetDigests,
    h.execSpdmGetCertificate, h.execSpdmChallenge, h.execSpdmGetMeasurements, h.execSpdmKeyExchange, h.execSpdmFinish, h.execSpdmKeyUpdate,
    h.execSpdmHeartbeat, h.execSpdmEndSession, h.execIdeKm, h.execIdeTlpReceive, h.execKeyLoad, h.execKeyErase, h.execKeySlotUpdate,
    h.execSecurityAlarm, h.execChallenge, h.execSubmit, h.execClose, h.execNonceExpiry, h.execScopeExpiry, h.execIdcode, h.execBypass,
    h.execSamplePreload, h.execExtest, h.execExtestPulse, h.execExtestTrain, h.execSecFa, h.execPwrGoodRise, h.execPwrGoodFall,
    h.execColdResetAssert, h.execWarmResetAssert, h.execPerstAssert, h.execPcieHotReset, h.execWarm, h.execResetRelease, h.execStageReached,
    h.execStageBoundTimeout, h.execRecover, h.execRecoveryFetchDone, h.execRefclkLoss, h.execFlitBadCrc, h.execFrameDiscard,
    h.execHubJunctionTemperature]

-- # Machine/Fetch.lean

theorem fetchBundle {t} : (s.fetchBundle t).memoriesCanonical := by
  unfold State.fetchBundle
  dsimp only
  split
  · exact h
  · refine .ite h.tileFault ?_
    split
    · exact h.tileFault
    · exact h

theorem fetchNext : s.fetchNext.memoriesCanonical := by
  unfold State.fetchNext
  split
  · exact h
  · exact h.fetchBundle

-- # Machine/Step.lean

theorem advanceTime : s.advanceTime.memoriesCanonical := .ite h (.ite h (.ite (.ite h h) (.ite h h)))

protected theorem step : Answer.canonical (step s) := by
  unfold step
  split
  · exact .next h.advanceTime.fetchNext
  · exact State.memoriesCanonical.exec (h.same (by rfl))

end
end State.memoriesCanonical

/-- Settles O48: by cases on what a step does, an instruction's meaning or a fetch; each is built of operations that keep the form. -/
theorem stepKeepsMemoryForm : Obligations.StepKeepsMemoryForm := fun _ _ h hstep => h.step _ hstep

end Sys2Proof.Machine
end

section
/-! SUPPORT. The address map is one to one (R320 to R323): the regions of memory, the interleave within one, and the place of a byte. -/

namespace Sys2Proof.Machine

-- # Interleaving

/-- The channel and the slot of an address of a region from `base` that `n` channels from `cb` share, with slots from `sb` (R323). -/
def interleave (base n cb sb a : Nat) : Nat × Nat :=
  let q := (a - base) / 256 / n
  (cb + ((a - base) / 256 % n + 0x9E3779B9 * q % 2 ^ 32 / 256 % n) % n, sb + q)

/-- A region's channels. -/
theorem interleave_fst (base cb sb a : Nat) {n : Nat} (hn : 0 < n) :
    cb ≤ (interleave base n cb sb a).1 ∧ (interleave base n cb sb a).1 < cb + n :=
  ⟨Nat.le_add_right .., Nat.add_lt_add_left (Nat.mod_lt _ hn) _⟩

/-- A rotation of the channels takes no two of them to one. -/
theorem rotate_inj {n r r' f : Nat} (hr : r < n) (hr' : r' < n) (h : (r + f) % n = (r' + f) % n) : r = r' := by
  have hmod : r ≡ r' [MOD n] := Nat.ModEq.add_right_cancel' f h
  rwa [Nat.ModEq, Nat.mod_eq_of_lt hr, Nat.mod_eq_of_lt hr'] at hmod

/-- Two addresses of a region with one channel, one slot and one byte are one address. -/
theorem interleave_inj {base n cb sb a b : Nat} (hn : 0 < n) (hbase : base % 256 = 0) (ha : base ≤ a) (hb : base ≤ b)
    (h : interleave base n cb sb a = interleave base n cb sb b) (hbyte : a % 256 = b % 256) : a = b := by
  obtain ⟨hchan, hslot⟩ := Prod.mk.inj h
  have hq : (a - base) / 256 / n = (b - base) / 256 / n := Nat.add_left_cancel hslot
  rw [hq] at hchan
  have hr := rotate_inj (Nat.mod_lt _ hn) (Nat.mod_lt _ hn) (Nat.add_left_cancel hchan)
  have hgroup : (a - base) / 256 = (b - base) / 256 := by
    rw [← Nat.div_add_mod ((a - base) / 256) n, ← Nat.div_add_mod ((b - base) / 256) n, hq, hr]
  omega

-- # The regions (R322)

/-- The end of the interleaved region. -/
def State.spreadEnd (s : State) : Nat := s.visibleEnd - 4 * s.localSize - s.affineSize

/-- An address's region: its start, its channels' number and first, and its first slot. -/
def State.region (s : State) (a : Nat) : Nat × Nat × Nat × Nat :=
  let l := s.localSize
  let o := s.spreadEnd
  if a < o then (0, 384, 0, 0)
  else if a < o + 4 * l then (o + (a - o) / l * l, 96, 96 * ((a - o) / l), o / 98304)
  else
    let w := s.affineSize / 12
    let st := (a - o - 4 * l) / w
    (o + 4 * l + st * w, 32, 32 * st, o / 98304 + l / 24576)

theorem State.locate_of_region {s : State} {a base n cb sb : Nat} (h : s.region a = (base, n, cb, sb)) : s.locate a = interleave base n cb sb a := by
  have hlocate : s.locate a = interleave (s.region a).1 (s.region a).2.1 (s.region a).2.2.1 (s.region a).2.2.2 a := rfl
  rw [hlocate, h]

/-- The sizes of the regions, in units of one slot of each channel of the interleaved region (R320, R322). -/
def State.sizes (s : State) (o l u : Nat) : Prop :=
  s.spreadEnd = 98304 * o ∧ s.localSize = 98304 * l ∧ s.affineSize = 98304 * u ∧ s.visibleEnd = 98304 * (o + 4 * l + u) ∧
    o + 4 * l + u ≤ slotsPerChannel

theorem State.sizes_of_mapOk {s : State} (hmap : s.mapOk) : ∃ o l u, s.sizes o l u := by
  obtain ⟨hregions, hstacks⟩ := hmap
  refine ⟨s.spreadEnd / 98304, 8192 * s.fld F.MEM_REGION_CFG_LOCAL_768M 0, 32768 * s.fld F.MEM_REGION_CFG_AFF_3G 0, ?_⟩
  unfold State.sizes State.spreadEnd State.visibleEnd State.localSize State.affineSize at *
  omega

/-- The region in which a channel's slot lies: the slots tell the kinds of region apart, the channels the regions of one kind. -/
def regionAt (o l u : Nat) (p : Nat × Nat) : Nat × Nat × Nat × Nat :=
  if p.2 < o then (0, 384, 0, 0)
  else if p.2 < o + 4 * l then (98304 * o + p.1 / 96 * (98304 * l), 96, 96 * (p.1 / 96), o)
  else (98304 * o + 4 * (98304 * l) + p.1 / 32 * (8192 * u), 32, 32 * (p.1 / 32), o + 4 * l)

section
variable {s : State} {o l u a : Nat} (hsizes : s.sizes o l u)
include hsizes

/-- The interleaved region. -/
theorem region_spread (ha : a < 98304 * o) : s.region a = (0, 384, 0, 0) := if_pos (hsizes.1 ▸ ha)

/-- A die-local region. -/
theorem region_local (ha : 98304 * o ≤ a) (ha' : a < 98304 * o + 4 * (98304 * l)) : ∃ d,
    s.region a = (98304 * o + d * (98304 * l), 96, 96 * d, o) ∧
      98304 * o + d * (98304 * l) ≤ a ∧ a < 98304 * o + d * (98304 * l) + 98304 * l := by
  obtain ⟨ho, hl, -⟩ := hsizes
  have hlow := Nat.div_mul_le_self (a - 98304 * o) (98304 * l)
  have hhigh := Nat.lt_div_mul_add (a := a - 98304 * o) (b := 98304 * l) (by omega)
  refine ⟨(a - 98304 * o) / (98304 * l), ?_, by omega, by omega⟩
  have hslot : 98304 * o / 98304 = o := by omega
  simp only [State.region, ho, hl, if_neg (Nat.not_lt.mpr ha), if_pos ha', hslot]

/-- The update-affine region of a stack. -/
theorem region_affine (ha : 98304 * o + 4 * (98304 * l) ≤ a) (ha' : a < s.visibleEnd) : ∃ st,
    s.region a = (98304 * o + 4 * (98304 * l) + st * (8192 * u), 32, 32 * st, o + 4 * l) ∧
      98304 * o + 4 * (98304 * l) + st * (8192 * u) ≤ a ∧ a < 98304 * o + 4 * (98304 * l) + st * (8192 * u) + 8192 * u := by
  obtain ⟨ho, hl, hu, hend, -⟩ := hsizes
  have hlow := Nat.div_mul_le_self (a - 98304 * o - 4 * (98304 * l)) (8192 * u)
  have hhigh := Nat.lt_div_mul_add (a := a - 98304 * o - 4 * (98304 * l)) (b := 8192 * u) (by omega)
  refine ⟨(a - 98304 * o - 4 * (98304 * l)) / (8192 * u), ?_, by omega, by omega⟩
  have hstack : 98304 * u / 12 = 8192 * u := by omega
  have hslot : 98304 * o / 98304 + 98304 * l / 24576 = o + 4 * l := by omega
  simp only [State.region, ho, hl, hu, hstack, hslot, if_neg (show ¬ a < 98304 * o by omega), if_neg (Nat.not_lt.mpr ha)]

/-- An address's channel and slot tell its region, which starts at a slot's start at or below it. -/
theorem region_eq_regionAt (ha : a < s.visibleEnd) : ∃ base n cb sb, s.region a = (base, n, cb, sb) ∧
    regionAt o l u (s.locate a) = (base, n, cb, sb) ∧ base ≤ a ∧ base % 256 = 0 ∧ 0 < n ∧ (s.locate a).2 < slotsPerChannel := by
  obtain ⟨-, -, -, hend, hslots⟩ := id hsizes
  rcases Nat.lt_or_ge a (98304 * o) with hspread | hspread
  · have hregion := region_spread hsizes hspread
    have hslot : (interleave 0 384 0 0 a).2 < o := by simp only [interleave]; omega
    refine ⟨_, _, _, _, hregion, ?_, Nat.zero_le _, rfl, by decide, ?_⟩ <;> rw [State.locate_of_region hregion]
    · exact if_pos hslot
    · omega
  · rcases Nat.lt_or_ge a (98304 * o + 4 * (98304 * l)) with hlocal | hlocal
    · obtain ⟨d, hregion, hlow, hhigh⟩ := region_local hsizes hspread hlocal
      generalize hbase : 98304 * o + d * (98304 * l) = base at hregion hlow hhigh
      have hchan := interleave_fst base (96 * d) o a (n := 96) (by decide)
      have hslot : o ≤ (interleave base 96 (96 * d) o a).2 ∧ (interleave base 96 (96 * d) o a).2 < o + 4 * l := by
        simp only [interleave]; omega
      have hd : (interleave base 96 (96 * d) o a).1 / 96 = d := by omega
      have hgrain : d * (98304 * l) = 256 * (d * (384 * l)) := by ring
      refine ⟨_, _, _, _, hregion, ?_, hlow, by omega, by decide, ?_⟩ <;> rw [State.locate_of_region hregion]
      · rw [regionAt, if_neg (by omega), if_pos hslot.2, hd, hbase]
      · omega
    · obtain ⟨st, hregion, hlow, hhigh⟩ := region_affine hsizes hlocal ha
      generalize hbase : 98304 * o + 4 * (98304 * l) + st * (8192 * u) = base at hregion hlow hhigh
      have hchan := interleave_fst base (32 * st) (o + 4 * l) a (n := 32) (by decide)
      have hslot : o + 4 * l ≤ (interleave base 32 (32 * st) (o + 4 * l) a).2 ∧
          (interleave base 32 (32 * st) (o + 4 * l) a).2 < o + 4 * l + u := by simp only [interleave]; omega
      have hst : (interleave base 32 (32 * st) (o + 4 * l) a).1 / 32 = st := by omega
      have hgrain : st * (8192 * u) = 256 * (st * (32 * u)) := by ring
      refine ⟨_, _, _, _, hregion, ?_, hlow, by omega, by decide, ?_⟩ <;> rw [State.locate_of_region hregion]
      · rw [regionAt, if_neg (by omega), if_neg (by omega), hst, hbase]
      · omega

end

-- # The key of a byte (R323)

variable {s : State} {a b : Nat}

/-- A byte's key names its channel, its slot and its place in the slot. -/
theorem memKey_inj_parts (ha : (s.locate a).2 < slotsPerChannel) (hb : (s.locate b).2 < slotsPerChannel) (h : s.memKey a = s.memKey b) :
    s.locate a = s.locate b ∧ a % 256 = b % 256 := by
  unfold State.memKey slotsPerChannel at *
  dsimp only at h
  exact ⟨Prod.ext (by omega) (by omega), by omega⟩

/-- The address map is one to one. -/
theorem memKey_inj (hmap : s.mapOk) (ha : a < s.visibleEnd) (hb : b < s.visibleEnd) (h : s.memKey a = s.memKey b) : a = b := by
  obtain ⟨o, l, u, hsizes⟩ := State.sizes_of_mapOk hmap
  obtain ⟨base, n, cb, sb, hra, hata, hlea, hbase, hn, hslota⟩ := region_eq_regionAt hsizes ha
  obtain ⟨base', n', cb', sb', hrb, hatb, hleb, -, -, hslotb⟩ := region_eq_regionAt hsizes hb
  obtain ⟨hlocate, hbyte⟩ := memKey_inj_parts hslota hslotb h
  have hregions : (base', n', cb', sb') = (base, n, cb, sb) := by rw [← hata, ← hatb, hlocate]
  obtain ⟨rfl, rfl, rfl, rfl⟩ : base' = base ∧ n' = n ∧ cb' = cb ∧ sb' = sb := by simpa using hregions
  rw [State.locate_of_region hra, State.locate_of_region hrb] at hlocate
  exact interleave_inj hn hbase hlea hleb hlocate hbyte

end Sys2Proof.Machine
end

section
/-! SUPPORT. A byte of the device's memory after a write (R323, R334), and that the address map is one to one (O57). -/

namespace Sys2Proof.Machine

variable {s : State} {a b : Nat}

-- # Where a byte lies

theorem State.lt_visibleEnd_of_memory (h : s.addrKind a = .memory) : a < s.visibleEnd := by
  by_contra hbeyond
  rw [State.addrKind, if_neg hbeyond] at h
  split at h
  · split at h <;> exact nomatch h
  · split at h <;> exact nomatch h

theorem State.in_window_of_store (h : s.addrKind a = .store) : storeBase ≤ a ∧ a < storeBase + 512 * 0x400000 := by
  by_contra hout
  rw [State.addrKind, if_neg hout] at h
  split at h
  · exact nomatch h
  · split at h <;> exact nomatch h

/-- The window holds one address of each place in the stores. -/
theorem storeOff_inj (ha : s.addrKind a = .store) (hb : s.addrKind b = .store) (h : storeOff a = storeOff b) : a = b := by
  have hwa := State.in_window_of_store ha
  have hwb := State.in_window_of_store hb
  unfold storeOff storeBase at *
  omega

theorem State.devByte_memory (h : s.addrKind a = .memory) : s.devByte a = memGet s.mem (s.memKey a) := by
  rw [State.devByte, h]

-- # One byte

/-- The map of addresses is the registers', which a write leaves. -/
theorem addrKind_setDevByte (s : State) (a : Nat) (v : Byte) (b : Nat) : (s.setDevByte a v).addrKind b = s.addrKind b := rfl

theorem devByte_setDevByte_self (h : s.addrKind a = .memory ∨ s.addrKind a = .store) (v : Byte) : (s.setDevByte a v).devByte a = v := by
  rcases h with hkind | hkind
  · rw [State.devByte_memory ((addrKind_setDevByte ..).trans hkind), setDevByte_memory hkind]
    exact memGet_memSet_self ..
  · rw [State.devByte_store ((addrKind_setDevByte ..).trans hkind), setDevByte_store hkind]
    exact memGet_memSet_self ..

theorem memGet_setDevByte_mem (hmap : s.mapOk) (hb : s.addrKind b = .memory) (hne : b ≠ a) (v : Byte) :
    memGet (s.setDevByte a v).mem (s.memKey b) = memGet s.mem (s.memKey b) := by
  unfold State.setDevByte
  dsimp only
  split
  · next ha =>
    refine memGet_memSet_other _ _ fun h => hne ?_
    exact memKey_inj hmap (State.lt_visibleEnd_of_memory hb) (State.lt_visibleEnd_of_memory ha) h
  · rfl

theorem memGet_setDevByte_store (hb : s.addrKind b = .store) (hne : b ≠ a) (v : Byte) :
    memGet (s.setDevByte a v).store (storeOff b) = memGet s.store (storeOff b) := by
  unfold State.setDevByte
  dsimp only
  split
  · next ha => exact memGet_memSet_other _ _ fun h => hne (storeOff_inj hb ha h)
  · rfl

theorem devByte_setDevByte_other (hmap : s.mapOk) (hne : b ≠ a) (v : Byte) : (s.setDevByte a v).devByte b = s.devByte b := by
  rcases hb : s.addrKind b with _ | _ | _ | _
  · rw [State.devByte_memory ((addrKind_setDevByte ..).trans hb), State.devByte_memory hb]
    exact memGet_setDevByte_mem hmap hb hne v
  · rw [State.devByte_store ((addrKind_setDevByte ..).trans hb), State.devByte_store hb]
    exact memGet_setDevByte_store hb hne v
  all_goals rw [State.devByte, State.devByte, addrKind_setDevByte, hb]

-- # Consecutive bytes

theorem devByte_devBytes_other {bs : List Byte} (hmap : s.mapOk) (hout : b < a ∨ a + bs.length ≤ b) :
    (s.devBytes a bs).devByte b = s.devByte b := by
  induction bs generalizing s a with
  | nil => rfl
  | cons v rest ih =>
    have hlen : (v :: rest).length = rest.length + 1 := rfl
    have hmap' : (s.setDevByte a v).mapOk := hmap
    exact (ih hmap' (by omega)).trans (devByte_setDevByte_other hmap (by omega) v)

theorem devByte_devBytes_self {bs : List Byte} (hmap : s.mapOk)
    (hkind : ∀ i, i < bs.length → s.addrKind (a + i) = .memory ∨ s.addrKind (a + i) = .store) {i : Nat} (hi : i < bs.length) :
    (s.devBytes a bs).devByte (a + i) = bs[i] := by
  induction bs generalizing s a i with
  | nil => exact absurd hi (Nat.not_lt_zero i)
  | cons v rest ih =>
    have hlen : (v :: rest).length = rest.length + 1 := rfl
    have hmap' : (s.setDevByte a v).mapOk := hmap
    cases i with
    | zero => exact (devByte_devBytes_other hmap' (by omega)).trans (devByte_setDevByte_self (hkind 0 hi) v)
    | succ i =>
      have hshift (j : Nat) : a + (j + 1) = a + 1 + j := by omega
      have hrest (j : Nat) (hj : j < rest.length) : (s.setDevByte a v).addrKind (a + 1 + j) = .memory ∨
          (s.setDevByte a v).addrKind (a + 1 + j) = .store := hshift j ▸ hkind (j + 1) (by omega)
      rw [hshift]
      exact ih hmap' hrest (by omega)

theorem devBytes_regs (s : State) (a : Nat) (bs : List Byte) : (s.devBytes a bs).regs = s.regs := by
  induction bs generalizing s a with
  | nil => rfl
  | cons v rest ih => exact ih ..

theorem devBytes_host (s : State) (a : Nat) (bs : List Byte) : (s.devBytes a bs).host = s.host := by
  induction bs generalizing s a with
  | nil => rfl
  | cons v rest ih => exact ih ..

/-- What a write does beyond its bytes, in the caches and the codewords, no byte shows. -/
theorem devByte_devWrite (s : State) (a : Nat) (bs : List Byte) (b : Nat) : (s.devWrite a bs).devByte b = (s.devBytes a bs).devByte b := rfl

/-- Settles O57: the keys by `memKey_inj`, the write byte by byte. -/
theorem memoryMap : Obligations.MemoryMap := by
  unfold Obligations.MemoryMap
  refine fun s hmap => ⟨fun a b ha hb => memKey_inj hmap ha hb, fun a bs hkind => ⟨?_, fun b hout => ?_, ?_, ?_⟩⟩
  · refine List.ext_getElem (by simp [State.devRead]) fun i hi hi' => ?_
    simpa [State.devRead, devByte_devWrite] using devByte_devBytes_self hmap hkind hi'
  · exact (devByte_devWrite ..).trans (devByte_devBytes_other hmap hout)
  · exact devBytes_host ..
  · exact devBytes_regs ..

end Sys2Proof.Machine
end

section
/-! SUPPORT. The stacked memory's commands (R322, R335 to R350): what each comes to where it has its effect, and what an event leaves. -/

namespace Sys2Proof.Machine

variable {s : State}

-- # What an event leaves

/-- An event of the device changes no field outside its ring's EXC_EVQ_STATE. -/
theorem fld_raise_device (s : State) {f : Field} (hf : f.reg ≠ .EXC_EVQ_STATE) {i : Nat} (hi : i < 1048576) (code sev source detail : Nat) :
    (s.raise .device code sev source detail).fld f i = s.fld f i :=
  congrArg f.of (reg_deliver hf hi (by decide) s _)

theorem raise_linkRuns (s : State) (sc : Scope) (code sev source detail : Nat) : (s.raise sc code sev source detail).linkRuns = s.linkRuns := by
  rw [raise_told s sc code sev source detail]

theorem raiseLimited_linkRuns (s : State) (key interval : Nat) (sc : Scope) (code sev source detail : Nat) :
    (s.raiseLimited key interval sc code sev source detail).linkRuns = s.linkRuns := by
  unfold State.raiseLimited
  dsimp only
  split
  · exact raise_linkRuns ..
  · rfl

-- # Regions (R322)

/-- Regions that fit are written while no context is enabled. -/
theorem writeRegionCfg_fits {fn : Nat} {h : Half} {v : Word} (hgo : s.reach fn .MEM_REGION_CFG 0 = .go)
    (hoff : ((List.range 256).any s.ctxOn) = false)
    (hfits : 4 * (0x30000000 * F.MEM_REGION_CFG_LOCAL_768M.of (RegName.MEM_REGION_CFG.written h (s.reg .MEM_REGION_CFG 0) v)) +
      0xC0000000 * F.MEM_REGION_CFG_AFF_3G.of (RegName.MEM_REGION_CFG.written h (s.reg .MEM_REGION_CFG 0) v) ≤ s.visibleEnd) :
    s.writeRegionCfg fn h v =
      (s.setReg .MEM_REGION_CFG 0 (RegName.MEM_REGION_CFG.written h (s.reg .MEM_REGION_CFG 0) v)).setFld F.MEM_REGION_CFG_ERR 0 0 := by
  rw [State.writeRegionCfg, State.reaching_go hgo, hoff]
  exact if_neg (Nat.not_lt.mpr hfits)

-- # The scrub (R335)

theorem spoil_poison (s : State) (key : Nat) (errs : SymErrs) : (s.spoil key errs).poison = s.poison := by
  unfold State.spoil
  split <;> rfl

theorem spoil_slotAddr (s : State) (key : Nat) (errs : SymErrs) (c t : Nat) : (s.spoil key errs).slotAddr c t = s.slotAddr c t := by
  unfold State.spoil
  split <;> rfl

/-- The scrub reads a codeword of an active channel. -/
theorem execScrubRead_active {ch : Fin 384} {slot : BitVec 23} (word : Fin 8) (errs : SymErrs) (hruns : s.memRuns = true)
    (hhours : s.fld F.MEM_SCRUB_CFG_HOURS 0 ≠ 0) (hactive : s.fld F.MEM_CH_STATE_STATE ch < 2) (hslot : slot.toNat < 4194304) :
    let p := s.nominal ch slot.toNat
    let key := (slotsPerChannel * p.1 + p.2) * 8 + word.val
    exec (.scrubRead ch slot word errs) s =
      .next ((s.spoil key errs).readWord ch key (((s.spoil key errs).slotAddr p.1 p.2).map fun x => x + 32 * word.val)) := by
  intro p key
  have hslots : slot.toNat < if s.fld F.HIF_ID_ORDER 0 == 2 then 4194304 else 6291456 := by split <;> omega
  have hgoes : (!s.memRuns || s.fld F.MEM_SCRUB_CFG_HOURS 0 == 0 || decide (2 ≤ s.fld F.MEM_CH_STATE_STATE ch) ||
      decide ((if s.fld F.HIF_ID_ORDER 0 == 2 then 4194304 else 6291456) ≤ slot.toNat)) = false := by
    simp only [hruns, beq_eq_false_iff_ne.mpr hhours, decide_eq_false (Nat.not_le.mpr hactive), decide_eq_false (Nat.not_le.mpr hslots),
      Bool.not_true, Bool.or_false]
  rw [spoil_slotAddr]
  exact if_neg (by rw [hgoes]; decide)

section
variable {ch key : Nat} {a : Option Nat} (hsound : s.poison.contains key = false)
include hsound

theorem readWord_clean (hfate : s.fate key = .clean) : s.readWord ch key a = s := by
  simp only [State.readWord, hsound, hfate, Bool.false_eq_true, if_false]

theorem readWord_corrected (hfate : s.fate key = .corrected) : s.readWord ch key a = (s.mend key).countCe ch := by
  simp only [State.readWord, hsound, hfate, Bool.false_eq_true, if_false]

theorem readWord_bad (hfate : s.fate key = .bad) : s.readWord ch key a = (s.leaveStored key).scrubBad ch key a := by
  simp only [State.readWord, hsound, hfate, Bool.false_eq_true, if_false]

end

-- # Calibration (R336 to R339)

/-- What the end of a slice leaves before its pins are judged and the lost margin: the pass ends with the last slice or the 96th. -/
def State.sliceEnded (s : State) (ch : Fin 384) (pins : List (Fin 36)) (margin : Option (BitVec 8)) (last : Bool) (pc : Nat) : State :=
  let x := s.calPass ch
  let t := s.setFld F.MEM_CH_STATE_STATE ch 0
  let t := if last = true ∨ 96 ≤ x.slices then
      let t := { t with calPasses := NMap.set t.calPasses ch { x with slices := 0, temp := some (t.fld F.MEM_THERM_T_MAX (ch.val / 32)) } }
      (t.noteMargin ch margin).setFld F.MEM_CH_STATE_LAST_CAL ch (s.now / ms)
    else t
  t.each pins fun p t => t.weakPin ch pc p

/-- The end of a slice under way. -/
theorem execCalSliceDone_running {ch : Fin 384} {pins : List (Fin 36)} {margin : Option (BitVec 8)} {last : Bool} {pc since : Nat}
    (hslice : NMap.get? s.slices ch = some (pc, since)) (hstate : s.fld F.MEM_CH_STATE_STATE ch = 1) :
    let t := s.sliceEnded ch pins margin last pc
    exec (.calSliceDone ch pins margin last) s =
      .next (t.when (margin.isNone && t.fld F.MEM_CH_STATE_STATE ch != 4) fun s => s.loseChannel ch 1) := by
  have hends : (last || decide (96 ≤ (s.calPass ch).slices)) = decide (last = true ∨ 96 ≤ (s.calPass ch).slices) := by
    rw [Bool.decide_or, Bool.decide_eq_true]
  change execCalSliceDone ch pins margin last s = _
  rw [execCalSliceDone, hslice]
  simp only [hstate, ne_eq, not_true_eq_false, if_false, hends, State.when, decide_eq_true_eq]
  rfl

-- # Channel commands (R342)

theorem memCmdWord_go (op ch : Nat) : F.MEM_CH_CMD_GO.of (memCmdWord op ch) = 1 := by
  rw [memCmdWord, Field.of_put_other (by decide) (.inr (by decide)), Field.of_put_other (by decide) (.inr (by decide)), Field.of_put _ (by decide)]
  rfl

theorem memCmdWord_op {op : Nat} (hop : op < 256) (ch : Nat) : F.MEM_CH_CMD_OP.of (memCmdWord op ch) = op := by
  rw [memCmdWord, Field.of_put_other (by decide) (.inr (by decide)), Field.of_put _ (by decide)]
  exact Nat.mod_eq_of_lt hop

theorem memCmdWord_channel (op : Nat) (ch : BitVec 9) : F.MEM_CH_CMD_CHANNEL.of (memCmdWord op ch.toNat) = ch.toNat := by
  rw [memCmdWord, Field.of_put _ (by decide)]
  exact Nat.mod_eq_of_lt ch.isLt

/-- A command to a channel shows its channel and its error. -/
def State.memCmdShown (s : State) (err ch : Nat) : State := (s.setFld F.MEM_CMD_STATUS_ERR 0 err).setFld F.MEM_CMD_STATUS_CHANNEL 0 ch

theorem fld_memCmdShown (s : State) {f : Field} (hf : f.reg ≠ .MEM_CMD_STATUS) {i : Nat} (hi : i < 1048576) (err ch : Nat) :
    (s.memCmdShown err ch).fld f i = s.fld f i :=
  (fld_setFld_reg _ _ (RegName.key_ne hi (by decide) hf)).trans (fld_setFld_reg _ _ (RegName.key_ne hi (by decide) hf))

/-- A channel whose retirement nothing refuses is there and neither retired nor lost. -/
theorem retireErr_eq_zero {ch : Nat} (h : s.retireErr ch = 0) : ch < 384 ∧ s.fld F.MEM_CH_STATE_STATE ch < 2 := by
  unfold State.retireErr at h
  split at h
  · exact absurd h (by decide)
  · split at h
    · exact absurd h (by decide)
    · omega

/-- A retirement of a channel that is not lost goes on. -/
theorem retireIn_of_ne {ch : Nat} (h : s.fld F.MEM_CH_STATE_STATE ch ≠ 4) (trigger : Nat) : s.retireIn ch trigger = s.retire ch trigger :=
  if_neg fun hlost => h hlost.1

section
variable {fn : Nat} {ch : BitVec 9} (hgo : s.reach fn .MEM_CH_CMD 0 = .go) (hidle : s.flag F.MEM_CMD_STATUS_BUSY 0 = false)
include hgo hidle

/-- A retirement that nothing refuses. -/
theorem writeMemCmd_retire (herr : s.retireErr ch.toNat = 0) :
    s.writeMemCmd fn .whole (memCmdWord 1 ch.toNat) = (s.memCmdShown 0 ch.toNat).retire ch.toNat 4 := by
  obtain ⟨hch, hstate⟩ := retireErr_eq_zero herr
  have hkept : (s.memCmdShown 0 ch.toNat).fld F.MEM_CH_STATE_STATE ch.toNat ≠ 4 := by
    rw [fld_memCmdShown s (by decide) (by omega)]
    omega
  rw [State.writeMemCmd, State.reaching_go hgo]
  simp only [Half.part_whole, Field.hit, memCmdWord_go, memCmdWord_op (op := 1) (by decide), memCmdWord_channel, hidle, herr]
  exact retireIn_of_ne hkept 4

/-- A clearing of a channel's counts. -/
theorem writeMemCmd_clear (hch : ch.toNat < 384) : s.writeMemCmd fn .whole (memCmdWord 2 ch.toNat) =
    { (s.memCmdShown 0 ch.toNat).setReg .MEM_CH_WINDOW ch.toNat 0#64 with
      ceTimes := NMap.erase s.ceTimes ch.toNat, ueTimes := NMap.erase s.ueTimes ch.toNat } := by
  rw [State.writeMemCmd, State.reaching_go hgo]
  simp only [Half.part_whole, Field.hit, memCmdWord_go, memCmdWord_op (op := 2) (by decide), memCmdWord_channel, hidle,
    if_neg (Nat.not_le.mpr hch)]
  rfl

end

-- # Migration (R343)

/-- The watermark of a migration that ends stays: neither the states shown nor the event touch it. -/
theorem watermark_migrated (u : State) (st : Fin 12) {ch : Nat} (hch : ch < 1048576) (code sev source detail : Nat) :
    ((((u.setFld F.MEM_SPARE_STATE st 2).setFld F.MEM_CH_STATE_STATE ch 3).raise .device code sev source detail).endOf migration st).fld
      F.MEM_SPARE_WATERMARK st = u.fld F.MEM_SPARE_WATERMARK st := by
  have hst : (st : Nat) < 1048576 := by omega
  have hend (v : State) : (v.endOf migration st).fld F.MEM_SPARE_WATERMARK st = v.fld F.MEM_SPARE_WATERMARK st := rfl
  rw [hend, fld_raise_device _ (by decide) hst, fld_setFld_reg _ _ (RegName.key_ne hst hch (by decide)),
    fld_setFld_apart u (f := F.MEM_SPARE_STATE) (g := F.MEM_SPARE_WATERMARK) (by decide) (.inl (by decide)) rfl]

/-- A slot of a stack that migrates moves: the watermark goes on to the next one. -/
theorem execMigrationSlotMove_watermark {st : Fin 12} (errs : List (Fin 8 × SymErrs)) (hruns : s.memRuns = true)
    (hmigrates : s.fld F.MEM_SPARE_STATE st = 1) (hfirst : s.beganAt slotTimer st = none)
    (hwidth : s.fld F.MEM_SPARE_WATERMARK st + 1 < 2 ^ F.MEM_SPARE_WATERMARK.width) : ∃ t, exec (.migrationSlotMove st errs) s = .next t ∧
      t.fld F.MEM_SPARE_WATERMARK st = s.fld F.MEM_SPARE_WATERMARK st + 1 := by
  have hgoes : (!s.memRuns || s.fld F.MEM_SPARE_STATE st != 1 ||
      (s.beganAt slotTimer st).elim false fun t => decide (s.now < t + ceilDiv 2560 s.moveRate)) = false := by
    simp [hruns, hmigrates, hfirst]
  have hset (u : State) : (u.setFld F.MEM_SPARE_WATERMARK st (s.fld F.MEM_SPARE_WATERMARK st + 1)).fld F.MEM_SPARE_WATERMARK st =
      s.fld F.MEM_SPARE_WATERMARK st + 1 := (fld_setFld_self u _ (by decide) ..).trans (Nat.mod_eq_of_lt hwidth)
  have hch : 32 * st.val + s.fld F.MEM_SPARE_CHANNEL st < 1048576 := by
    have hchannel : s.fld F.MEM_SPARE_CHANNEL st < 32 := s.fld_lt F.MEM_SPARE_CHANNEL st
    omega
  change ∃ t, execMigrationSlotMove st errs s = .next t ∧ _
  simp only [execMigrationSlotMove, hgoes, Bool.false_eq_true, if_false]
  split
  · exact ⟨_, rfl, hset _⟩
  · exact ⟨_, rfl, (watermark_migrated _ st hch ..).trans (hset _)⟩

-- # Link retries (R46, R346)

theorem execDieLinkRetry_first (l : Fin 10) (hruns : s.inReset = false) :
    ∃ t, exec (.dieLinkRetry l false) s = .next t ∧ NMap.getD t.linkRuns l 0 = 1 := by
  change ∃ t, execDieLinkRetry l false s = .next t ∧ _
  simp only [execDieLinkRetry, hruns, Bool.false_eq_true, if_false]
  refine ⟨_, rfl, ?_⟩
  split
  · rw [raiseLimited_linkRuns]
    exact NMap.getD_set_self ..
  · exact NMap.getD_set_self ..

-- # Throttling (R347, R350)

/-- The bandwidth of Table 9-8 fits its field. -/
theorem throttlePct_lt (t : Nat) : throttlePct t < 256 := by
  unfold throttlePct
  split
  · decide
  · split <;> omega

/-- What a tick shows of a stack: both temperatures and the bandwidth. -/
def State.heatShown (s : State) (st tMax tBase pct : Nat) : State :=
  (((s.beginAt throttleTimer st).setFld F.MEM_THERM_T_MAX st tMax).setFld F.MEM_THERM_T_BASE st tBase).setFld F.MEM_THERM_BW_PCT st pct

/-- What a tick reports of a stack: another bandwidth, and more than a second at 95 °C or above. -/
def State.heatTold (s : State) (st tMax was pct : Nat) : State :=
  let s := s.when (pct != was) fun s => s.raise .device 0x010A 1 st (tMax * 256 + pct)
  if tMax < 95 then (s.endOf hotTimer st).endOf hotTold st
  else
    match s.beganAt hotTimer st with
    | none => s.beginAt hotTimer st
    | some x =>
      s.when (decide (x + sec < s.now) && (s.beganAt hotTold st).isNone) fun s => (s.beginAt hotTold st).raise .device 0x010B 2 st tMax

section
variable {f : Field} (hf : f.reg ≠ .EXC_EVQ_STATE) {i : Nat} (hi : i < 1048576)
include hf hi

theorem fld_heatTold (s : State) (st tMax was pct : Nat) : (s.heatTold st tMax was pct).fld f i = s.fld f i := by
  have hpct (v : State) : (v.when (pct != was) fun s => s.raise .device 0x010A 1 st (tMax * 256 + pct)).fld f i = v.fld f i :=
    State.when_keeps v (fun t => t.fld f i) fun t => fld_raise_device t hf hi ..
  have hhot (v : State) (c : Bool) : (v.when c fun s => (s.beginAt hotTold st).raise .device 0x010B 2 st tMax).fld f i = v.fld f i :=
    State.when_keeps v (fun t => t.fld f i) fun t => fld_raise_device (t.beginAt hotTold st) hf hi ..
  unfold State.heatTold
  dsimp only
  split
  · exact hpct s
  · split
    · exact hpct s
    · exact (hhot ..).trans (hpct s)

end

/-- The three fields of a stack's MEM_THERM hold what a tick shows. -/
theorem fld_heatShown (s : State) (st : Nat) (tMax tBase : BitVec 8) {pct : Nat} (hpct : pct < 256) :
    let u := s.heatShown st tMax.toNat tBase.toNat pct
    u.fld F.MEM_THERM_T_MAX st = tMax.toNat ∧ u.fld F.MEM_THERM_T_BASE st = tBase.toNat ∧ u.fld F.MEM_THERM_BW_PCT st = pct := by
  intro u
  have hmax (v : State) (n : Nat) : (v.setFld F.MEM_THERM_T_BASE st n).fld F.MEM_THERM_T_MAX st = v.fld F.MEM_THERM_T_MAX st :=
    fld_setFld_apart v (f := F.MEM_THERM_T_BASE) (g := F.MEM_THERM_T_MAX) (by decide) (.inr (by decide)) rfl st n
  have hpctMax (v : State) (n : Nat) : (v.setFld F.MEM_THERM_BW_PCT st n).fld F.MEM_THERM_T_MAX st = v.fld F.MEM_THERM_T_MAX st :=
    fld_setFld_apart v (f := F.MEM_THERM_BW_PCT) (g := F.MEM_THERM_T_MAX) (by decide) (.inr (by decide)) rfl st n
  have hpctBase (v : State) (n : Nat) : (v.setFld F.MEM_THERM_BW_PCT st n).fld F.MEM_THERM_T_BASE st = v.fld F.MEM_THERM_T_BASE st :=
    fld_setFld_apart v (f := F.MEM_THERM_BW_PCT) (g := F.MEM_THERM_T_BASE) (by decide) (.inr (by decide)) rfl st n
  refine ⟨(hpctMax ..).trans ((hmax ..).trans ?_), (hpctBase ..).trans ?_, ?_⟩
  · exact (fld_setFld_self _ F.MEM_THERM_T_MAX (by decide) ..).trans (Nat.mod_eq_of_lt tMax.isLt)
  · exact (fld_setFld_self _ F.MEM_THERM_T_BASE (by decide) ..).trans (Nat.mod_eq_of_lt tBase.isLt)
  · exact (fld_setFld_self _ F.MEM_THERM_BW_PCT (by decide) ..).trans (Nat.mod_eq_of_lt hpct)

/-- A tick of a stack below its trip. -/
theorem execMemThrottleTick_cool {st : Fin 12} {tMax tBase : BitVec 8} (hruns : s.inReset = false) (hfirst : s.beganAt throttleTimer st = none)
    (hcool : tMax.toNat < 105) :
    let was := s.fld F.MEM_THERM_BW_PCT st
    let pct := throttlePct (throttleNext (throttleAt was) tMax.toNat)
    exec (.memThrottleTick st tMax tBase) s =
      .next ((((s.heatShown st tMax.toNat tBase.toNat pct).heatTold st tMax.toNat was pct).extraPasses st tMax.toNat).memHot.showBound) := by
  have hgoes : (s.inReset || (s.beganAt throttleTimer st).elim false fun t => decide (s.now < t + ms)) = false := by
    simp [hruns, hfirst]
  have htrip : decide (105 ≤ tMax.toNat) = false := decide_eq_false (Nat.not_le.mpr hcool)
  change execMemThrottleTick st tMax tBase s = _
  simp only [execMemThrottleTick, hgoes, htrip, Bool.false_eq_true, if_false]
  rfl

/-- Settles O30, command by command. That a pass which gives no margin loses its channel is the model's choice (log 69). -/
theorem memorySystem : Obligations.MemorySystem := by
  unfold Obligations.MemorySystem
  refine ⟨?region, fun s ch hruns => ⟨?slice, ?silent, ?scrub⟩, ?sliceDone, ?commands, ?migration, ?retry, ?throttle,
    fun s rail => rfl, fun s rail hruns => ?rail⟩
  case region =>
    intro s fn v hgo hoff new hfits
    exact congrArg Host.Outcome.next (writeRegionCfg_fits hgo hoff hfits)
  case slice => exact fun pc hopen => if_pos (by rw [hruns, hopen]; rfl)
  case silent => exact fun hthere => if_neg (by simp [hruns, hthere])
  case scrub =>
    intro slot word errs hhours hactive hslot at' key t hsound
    have hsound' : t.poison.contains key = false := (spoil_poison s key errs).symm ▸ hsound
    have hexec := execScrubRead_active word errs hruns hhours hactive hslot
    exact ⟨fun hfate => hexec.trans (congrArg Host.Outcome.next (readWord_clean hsound' hfate)),
      fun hfate => hexec.trans (congrArg Host.Outcome.next (readWord_corrected hsound' hfate)),
      fun hfate => hexec.trans (congrArg Host.Outcome.next (readWord_bad hsound' hfate))⟩
  case sliceDone =>
    intro s ch pins margin last pc since hslice hstate
    have hexec := execCalSliceDone_running (pins := pins) (margin := margin) (last := last) hslice hstate
    refine ⟨fun hkept => hexec.trans (congrArg Host.Outcome.next (if_neg ?_)),
      fun hnone hthere => hexec.trans (congrArg Host.Outcome.next (if_pos ?_))⟩
    · rw [Bool.and_eq_true, Option.isNone_iff_eq_none, bne_iff_ne]
      exact fun h => hkept.elim (absurd h.1) (absurd · h.2)
    · rw [Bool.and_eq_true, Option.isNone_iff_eq_none, bne_iff_ne]
      exact ⟨hnone, hthere⟩
  case commands =>
    intro s fn ch hgo hidle
    refine ⟨fun herr => congrArg Host.Outcome.next (writeMemCmd_retire hgo hidle herr), fun hch => ?_⟩
    exact ⟨_, congrArg Host.Outcome.next (writeMemCmd_clear hgo hidle hch), reg_setReg_self .., NMap.get?_erase_self .., NMap.get?_erase_self ..⟩
  case migration => exact fun s st errs hruns hmigrates hfirst hwidth => execMigrationSlotMove_watermark errs hruns hmigrates hfirst hwidth
  case retry => exact fun s l hruns => execDieLinkRetry_first l hruns
  case throttle =>
    intro s st tMax tBase hruns hfirst hcool
    obtain ⟨hmax, hbase, hpct⟩ := fld_heatShown s st tMax tBase (throttlePct_lt _)
    have htold {f : Field} (hf : f.reg ≠ .EXC_EVQ_STATE) := fld_heatTold hf (i := st) (by omega)
    exact ⟨_, execMemThrottleTick_cool hruns hfirst hcool, (htold (by decide) ..).trans hmax, (htold (by decide) ..).trans hbase,
      (htold (by decide) ..).trans hpct⟩
  case rail => exact if_neg (by rw [hruns]; decide)

end Sys2Proof.Machine
end

section
/-! SUPPORT. The parts of a coded block (R356 to R358): its bytes, bitmaps, elements and planes, and that SPARSE and PLANE payloads give back what they
were made of. -/

namespace Sys2Proof.Machine

-- # Numbers and their bytes (R23, R368)

@[simp] theorem length_leBytes (n v : Nat) : (leBytes n v).length = n := by
  induction n generalizing v with
  | zero => rfl
  | succ n ih => exact congrArg (· + 1) (ih _)

theorem leNat_leBytes (n v : Nat) : leNat (leBytes n v) = v % 256 ^ n := by
  induction n generalizing v with
  | zero => rw [Nat.pow_zero, Nat.mod_one]; rfl
  | succ n ih =>
    have hlow : (BitVec.ofNat 8 v).toNat = v % 256 := BitVec.toNat_ofNat ..
    rw [leBytes, leNat, ih, hlow, Nat.pow_succ', Nat.mod_mul]

theorem crc32cBit_lt {c : Nat} (hc : c < 2 ^ 32) : crc32cBit c < 2 ^ 32 := by
  have hhalf : c / 2 < 2 ^ 32 := lt_of_le_of_lt (Nat.div_le_self ..) hc
  unfold crc32cBit
  split
  · exact Nat.xor_lt_two_pow hhalf (by decide)
  · exact hhalf

theorem eight_crc32cBit_lt {c : Nat} (hc : c < 2 ^ 32) : eight crc32cBit c < 2 ^ 32 := by
  unfold eight
  iterate 8 refine crc32cBit_lt ?_
  exact hc

/-- The code has 32 bits, as the CRC field of a header has (R354). -/
theorem crc32c_lt (bs : List Byte) : crc32c bs < 2 ^ 32 := by
  refine Nat.xor_lt_two_pow (List.foldlRecOn bs _ (motive := (· < 2 ^ 32)) (by decide) fun c hc b _ => ?_) (by decide)
  exact eight_crc32cBit_lt (Nat.xor_lt_two_pow hc (lt_trans b.isLt (by decide)))

-- # Bitmaps (R356)

/-- A bitmap is the number whose bits are those of the list, one bit a lane. -/
theorem bitmapBytes_eq (bits : List Bool) : bitmapBytes bits = leBytes (bits.length / 8) (packed 1 (bits.map b2n)) := by
  rw [bitmapBytes, packed, List.foldr_map]
  refine congrArg (fun f => leBytes _ (bits.foldr f 0)) (funext fun b => funext fun acc => ?_)
  cases b <;> exact congrArg (· + _) (Nat.mul_comm ..)

@[simp] theorem length_bitmapBytes (bits : List Bool) : (bitmapBytes bits).length = bits.length / 8 := length_leBytes ..

theorem bitmapBits_leBytes (n v : Nat) : bitmapBits (leBytes n v) = (List.range (8 * n)).map v.testBit := by
  induction n generalizing v with
  | zero => rfl
  | succ n ih =>
    have hlow : (List.range 8).map (fun i => (BitVec.ofNat 8 v).getLsbD i) = (List.range 8).map v.testBit :=
      List.map_congr_left fun i hi => by rw [BitVec.getLsbD_ofNat, decide_eq_true (List.mem_range.mp hi), Bool.true_and]
    have hhigh (i : Nat) : (v / 256).testBit i = v.testBit (8 + i) := by
      rw [Nat.add_comm, ← Nat.testBit_div_two_pow]
    rw [leBytes, bitmapBits, List.flatMap_cons, hlow, ← bitmapBits, ih, Nat.mul_succ, Nat.add_comm, List.range_add, List.map_append, List.map_map]
    exact congrArg (_ ++ ·) (List.map_congr_left fun i _ => hhigh i)

theorem bitmapBits_bitmapBytes {bits : List Bool} (hwhole : bits.length % 8 = 0) : bitmapBits (bitmapBytes bits) = bits := by
  rw [bitmapBytes_eq, bitmapBits_leBytes, Nat.mul_div_cancel' (Nat.dvd_of_mod_eq_zero hwhole)]
  refine List.ext_getElem (by simp) fun i _ hi => ?_
  have hbit := testBit_packed (w := 1) (bits.map b2n) (i := i) (j := 0) (by simpa using hi) Nat.zero_lt_one
  rw [List.getElem_map, List.getElem_range]
  rw [Nat.one_mul, Nat.add_zero, List.getElem_map] at hbit
  rw [hbit]
  cases bits[i] <;> rfl

theorem fillMarked_false {α : Type} (zero : α) (bits : List Bool) (xs : List α) :
    fillMarked zero (false :: bits) xs = zero :: fillMarked zero bits xs := rfl

/-- Putting the marked elements back undoes taking them out, where every element that is not marked is the filler. -/
theorem fillMarked_filter {α : Type} {zero : α} {marked : α → Bool} {xs : List α} (hfiller : ∀ x ∈ xs, marked x = false → x = zero) :
    fillMarked zero (xs.map marked) (xs.filter marked) = xs := by
  induction xs with
  | nil => rfl
  | cons x xs ih =>
    obtain ⟨hx, hxs⟩ := List.forall_mem_cons.mp hfiller
    cases hmark : marked x with
    | true => simpa [hmark, fillMarked] using ih hxs
    | false => rw [List.map_cons, List.filter_cons_of_neg (by simp [hmark]), hmark, fillMarked_false, ih hxs, hx hmark]

theorem countP_id_map {α : Type} (marked : α → Bool) (xs : List α) : (xs.map marked).countP id = (xs.filter marked).length := by
  rw [List.countP_map, List.countP_eq_length_filter]
  rfl

-- # Elements (R356)

theorem elements_flatten {w : Nat} (hw : 0 < w) {n : Nat} {es : List (List Byte)} (hes : ∀ e ∈ es, e.length = w) (hn : es.length ≤ n) :
    elements w n es.flatten = es := by
  induction es generalizing n with
  | nil => cases n <;> rfl
  | cons e es ih =>
    obtain ⟨he, hrest⟩ := List.forall_mem_cons.mp hes
    obtain ⟨n, rfl⟩ : ∃ m, n = m + 1 := Nat.exists_eq_succ_of_ne_zero (by rintro rfl; cases hn)
    have hsome : (e ++ es.flatten).isEmpty = false := by
      cases e with
      | nil => exact absurd hw (by rw [← he]; decide)
      | cons b e => rfl
    rw [List.flatten_cons, elements, hsome, if_neg Bool.false_ne_true, List.take_left' he, List.drop_left' he, ih hrest (Nat.le_of_succ_le_succ hn)]

theorem flatten_elements {w : Nat} (hw : 0 < w) {n : Nat} {bs : List Byte} (hn : bs.length ≤ n) : (elements w n bs).flatten = bs := by
  induction n generalizing bs with
  | zero => rw [List.length_eq_zero_iff.mp (Nat.le_zero.mp hn)]; rfl
  | succ n ih =>
    cases bs with
    | nil => rfl
    | cons b bs =>
      have hdrop : ((b :: bs).drop w).length ≤ n := by rw [List.length_drop]; omega
      rw [elements, List.isEmpty_cons, if_neg Bool.false_ne_true, List.flatten_cons, ih hdrop, List.take_append_drop]

theorem length_of_mem_elements {w n : Nat} {bs : List Byte} (hwhole : w ∣ bs.length) : ∀ e ∈ elements w n bs, e.length = w := by
  induction n generalizing bs with
  | zero => exact fun _ he => nomatch he
  | succ n ih =>
    cases bs with
    | nil => exact fun _ he => nomatch he
    | cons b bs =>
      have hle : w ≤ (b :: bs).length := Nat.le_of_dvd (Nat.succ_pos _) hwhole
      rw [elements, List.isEmpty_cons, if_neg Bool.false_ne_true]
      refine List.forall_mem_cons.mpr ⟨List.length_take_of_le hle, ih ?_⟩
      rw [List.length_drop]
      exact Nat.dvd_sub hwhole (Nat.dvd_refl w)

/-- The elements of a block at one width, as R356 cuts it: together they are the block, each has the width, and whole bytes of bitmap mark them. -/
structure CutInto (plain : List Byte) (w : Nat) (es : List (List Byte)) : Prop where
  pos     : 0 < w
  flatten : es.flatten = plain
  width   : ∀ e ∈ es, e.length = w
  eights  : es.length % 8 = 0

theorem length_flatten_of_width {w : Nat} {es : List (List Byte)} (hes : ∀ e ∈ es, e.length = w) : es.flatten.length = w * es.length := by
  rw [List.length_flatten, List.map_congr_left hes, List.map_const', List.sum_replicate, smul_eq_mul, Nat.mul_comm]

theorem CutInto.length_eq {plain : List Byte} {w : Nat} {es : List (List Byte)} (hcut : CutInto plain w es) : plain.length / w = es.length := by
  rw [← hcut.flatten, length_flatten_of_width hcut.width, Nat.mul_div_cancel_left _ hcut.pos]

theorem elements_cut {plain : List Byte} (hplain : plain.length % 64 = 0) {wlog : Nat} (hwlog : wlog < 3) :
    CutInto plain (2 ^ wlog) (elements (2 ^ wlog) plain.length plain) := by
  have hw : 8 * 2 ^ wlog ∣ plain.length := by
    refine Nat.dvd_trans ?_ (Nat.dvd_of_mod_eq_zero hplain)
    interval_cases wlog <;> decide
  have hpos := Nat.two_pow_pos wlog
  have hflat := flatten_elements hpos (Nat.le_refl plain.length)
  have hwidth := length_of_mem_elements (n := plain.length) (Nat.dvd_trans (Nat.dvd_mul_left ..) hw)
  refine ⟨hpos, hflat, hwidth, Nat.mod_eq_zero_of_dvd ?_⟩
  rw [← hflat, length_flatten_of_width hwidth, Nat.mul_comm 8] at hw
  exact Nat.dvd_of_mul_dvd_mul_left hpos hw

theorem eq_replicate_of_zeroElem {e : List Byte} (hzero : zeroElem e = true) : e = List.replicate e.length 0 :=
  List.eq_replicate_of_mem fun b hb => by simpa using List.all_eq_true.mp hzero b hb

-- # SPARSE payloads (R357)

theorem decodeSparse_sparseCand {plain : List Byte} (hplain : plain.length % 64 = 0) {wlog : Nat} (hwlog : wlog < 3) :
    decodeSparse (sparseCand plain wlog).payload (2 ^ wlog) plain.length = some plain := by
  have hcut := elements_cut hplain hwlog
  generalize hes : elements (2 ^ wlog) plain.length plain = es at hcut
  have hstored : ∀ e ∈ es.filter (!zeroElem ·), e.length = 2 ^ wlog := fun e he => hcut.width e (List.mem_of_mem_filter he)
  have hmarked : (es.filter (!zeroElem ·)).any zeroElem = false := by simp
  have hfilled : fillMarked (List.replicate (2 ^ wlog) 0) (es.map (!zeroElem ·)) (es.filter (!zeroElem ·)) = es :=
    fillMarked_filter fun e he hmark => by
      rw [← hcut.width e he]
      exact eq_replicate_of_zeroElem (by simpa using hmark)
  have hbits : bitmapBits (bitmapBytes (es.map (!zeroElem ·))) = es.map (!zeroElem ·) := bitmapBits_bitmapBytes (by simpa using hcut.eights)
  have hmap : (bitmapBytes (es.map (!zeroElem ·))).length = es.length / 8 := by simp
  simp only [decodeSparse, sparseCand, hes, hcut.length_eq, List.take_left' hmap, List.drop_left' hmap, hbits, countP_id_map, List.length_append, hmap,
    length_flatten_of_width hstored, elements_flatten hcut.pos hstored (Nat.le_refl _), hmarked, hfilled, hcut.flatten]
  simp

-- # PLANE payloads (R357, R358)

/-- The planes of a block that is cut into elements. -/
def planesOf (w : Nat) (es : List (List Byte)) : List (List Byte) := (List.range w).map fun p => es.map fun e => e.getD p 0

@[simp] theorem length_planesOf (w : Nat) (es : List (List Byte)) : (planesOf w es).length = w := by simp [planesOf]

theorem length_of_mem_planesOf {w : Nat} {es : List (List Byte)} : ∀ p ∈ planesOf w es, p.length = es.length := by
  simp [planesOf]

theorem map_getD_range {α : Type} (l : List α) (d : α) : (List.range l.length).map (fun i => l.getD i d) = l :=
  List.ext_getElem (by simp) fun i _ hi => by simp [hi]

/-- Byte `i` of each plane, plane by plane, is element `i`. -/
theorem flatMap_planesOf {w : Nat} {es : List (List Byte)} (hes : ∀ e ∈ es, e.length = w) :
    ((List.range es.length).flatMap fun i => (planesOf w es).map fun p => p.getD i 0) = es.flatten := by
  have helem : ∀ i ∈ List.range es.length, ((planesOf w es).map fun p => p.getD i 0) = es.getD i [] := fun i hi => by
    have hi := List.mem_range.mp hi
    have hwidth := hes _ (List.getElem_mem hi)
    rw [planesOf, List.map_map, List.getD_eq_getElem _ _ hi]
    conv_rhs => rw [← map_getD_range es[i] 0, hwidth]
    exact List.map_congr_left fun p _ => by simp [hi]
  rw [List.flatMap, List.map_congr_left helem, map_getD_range]

theorem planePayload_coded {p : List Byte} (hcoded : planeCoded p.length (p.filter (· != dominant p)).length = true) :
    planePayload p = (dominant p :: (bitmapBytes (p.map (· != dominant p)) ++ p.filter (· != dominant p)), true) := if_pos hcoded

theorem planePayload_plain {p : List Byte} (hplain : planeCoded p.length (p.filter (· != dominant p)).length = false) :
    planePayload p = (p, false) := if_neg (by rw [hplain]; decide)

/-- The decoder takes the first plane off the payload, in the form that its PMASK bit names. -/
theorem decodePlanes_cons {p : List Byte} (heights : p.length % 8 = 0) {pmask at' : Nat} (hmask : pmask.testBit at' = (planePayload p).2) (k : Nat)
    (rest : List Byte) : decodePlanes p.length pmask (k + 1) at' ((planePayload p).1 ++ rest) =
      (decodePlanes p.length pmask k (at' + 1) rest).map fun q => (p :: q.1, q.2) := by
  cases hform : planeCoded p.length (p.filter (· != dominant p)).length with
  | false =>
    rw [planePayload_plain hform] at hmask ⊢
    simp [decodePlanes, hmask]
  | true =>
    have hbits : bitmapBits (bitmapBytes (p.map (· != dominant p))) = p.map (· != dominant p) := bitmapBits_bitmapBytes (by simpa using heights)
    have hfilled : fillMarked (dominant p) (p.map (· != dominant p)) (p.filter (· != dominant p)) = p :=
      fillMarked_filter fun b _ hmark => by simpa using hmark
    have hmap : (bitmapBytes (p.map (· != dominant p))).length = p.length / 8 := by simp
    rw [planePayload_coded hform] at hmask ⊢
    rw [List.cons_append, List.append_assoc, decodePlanes, Nat.add_comm 1, List.drop_succ_cons]
    simp only [hmask, List.headD_cons, List.drop_succ_cons, List.drop_zero, List.take_left' hmap, List.drop_left' hmap, hbits, countP_id_map,
      List.take_left, List.drop_left, hfilled, hform]
    simp

/-- The decoder takes planes off the payload one by one and leaves what follows them. -/
theorem decodePlanes_planes {n : Nat} (heights : n % 8 = 0) {ps : List (List Byte)} (hps : ∀ p ∈ ps, p.length = n) {pmask at' : Nat}
    (hmask : ∀ i, (h : i < ps.length) → pmask.testBit (at' + i) = (planePayload ps[i]).2) (rest : List Byte) :
    decodePlanes n pmask ps.length at' ((ps.map fun p => (planePayload p).1).flatten ++ rest) = some (ps, rest) := by
  induction ps generalizing at' with
  | nil => rfl
  | cons p ps ih =>
    obtain ⟨rfl, hrest⟩ := List.forall_mem_cons.mp hps
    have hlater := ih (at' := at' + 1) hrest fun i hi => by
      rw [Nat.add_assoc, Nat.add_comm 1]
      exact hmask (i + 1) (Nat.succ_lt_succ hi)
    rw [List.map_cons, List.flatten_cons, List.append_assoc, List.length_cons, decodePlanes_cons heights (at' := at') (hmask 0 (Nat.succ_pos _)), hlater]
    rfl

/-- The PMASK of flags, bit `p` for plane `p` (Table 10-1). -/
def maskOf (w : Nat) (flag : Nat → Bool) : Nat := ((List.range w).map fun p => b2n (flag p) * 2 ^ p).foldl (· + ·) 0

theorem maskOf_succ (w : Nat) (flag : Nat → Bool) : maskOf (w + 1) flag = 2 ^ w * b2n (flag w) + maskOf w flag := by
  simp [maskOf, List.range_succ, Nat.mul_comm, Nat.add_comm]

theorem maskOf_lt (w : Nat) (flag : Nat → Bool) : maskOf w flag < 2 ^ w := by
  induction w with
  | zero => exact Nat.zero_lt_one
  | succ w ih =>
    have hbit := Nat.mul_le_mul_left (2 ^ w) (b2n_le_one (flag w))
    rw [maskOf_succ, Nat.pow_succ]
    omega

theorem testBit_maskOf {w p : Nat} (flag : Nat → Bool) (hp : p < w) : (maskOf w flag).testBit p = flag p := by
  induction w with
  | zero => cases hp
  | succ w ih =>
    rw [maskOf_succ, Nat.testBit_two_pow_mul_add _ (maskOf_lt w flag)]
    split
    case isTrue hlt => exact ih hlt
    case isFalse hge =>
      obtain rfl : p = w := by omega
      rw [Nat.sub_self]
      cases flag p <;> rfl

/-- A plane is coded by its dominant byte. -/
def planeFlag (ps : List (List Byte)) (p : Nat) : Bool := ((ps.map planePayload).getD p ([], false)).2

theorem planeCand_eq (plain : List Byte) (wlog : Nat) :
    planeCand plain wlog =
      let ps := planesOf (2 ^ wlog) (elements (2 ^ wlog) plain.length plain)
      ⟨3, wlog, maskOf (2 ^ wlog) (planeFlag ps), (ps.map fun p => (planePayload p).1).flatten⟩ := by
  simp only [planeCand, planesOf, planeFlag, maskOf, List.map_map]
  rfl

theorem decodePlane_planeCand {plain : List Byte} (hplain : plain.length % 64 = 0) {wlog : Nat} (hwlog : wlog < 3) :
    decodePlane (planeCand plain wlog).payload (2 ^ wlog) (planeCand plain wlog).pmask plain.length = some plain := by
  have hcut := elements_cut hplain hwlog
  rw [planeCand_eq]
  generalize elements (2 ^ wlog) plain.length plain = es at hcut
  have hplanes := decodePlanes_planes hcut.eights length_of_mem_planesOf (at' := 0) (pmask := maskOf (2 ^ wlog) (planeFlag (planesOf (2 ^ wlog) es)))
    (fun i hi => by
      rw [Nat.zero_add, testBit_maskOf _ (by simpa using hi)]
      simp only [planeFlag, List.getD_eq_getElem _ _ (List.length_map planePayload ▸ hi), List.getElem_map]) []
  rw [length_planesOf, List.append_nil] at hplanes
  simp only [decodePlane, hcut.length_eq, hplanes, flatMap_planesOf hcut.width, hcut.flatten]

end Sys2Proof.Machine
end

section
/-! SUPPORT. The codec is lossless (R352): the candidate that codes a block, the header that names it, the checks that the block passes, and streams of
blocks. -/

namespace Sys2Proof.Machine

-- # The chosen candidate (R359)

/-- The plain bytes that a payload of length `len` gives under its mode (Table 10-2). -/
def Candidate.decoded (c : Candidate) (len nb : Nat) : Option (List Byte) :=
  match c.mode with
  | 0 => if len = nb then some c.payload else none
  | 1 => if len = 0 then some (List.replicate nb 0) else none
  | 2 => decodeSparse c.payload (2 ^ c.wlog) nb
  | _ => decodePlane c.payload (2 ^ c.wlog) c.pmask nb

/-- A candidate for a block: its fields are ones that a header may hold (Table 10-1, Table 10-2), and its payload gives the block. -/
structure Candidate.Codes (c : Candidate) (plain : List Byte) : Prop where
  mode  : c.mode < 4
  wlog  : c.wlog < 3
  width : c.mode < 2 → c.wlog = 0
  pmask : c.pmask < 2 ^ 2 ^ c.wlog
  plane : c.mode ≠ 3 → c.pmask = 0
  gives : c.decoded c.payload.length plain.length = some plain

theorem rawCand_codes (plain : List Byte) : (⟨0, 0, 0, plain⟩ : Candidate).Codes plain where
  mode := Nat.zero_lt_succ _
  wlog := Nat.zero_lt_succ _
  width _ := rfl
  pmask := Nat.two_pow_pos _
  plane _ := rfl
  gives := if_pos rfl

theorem zeroCand_codes {plain : List Byte} (hzero : zeroElem plain = true) : (⟨1, 0, 0, []⟩ : Candidate).Codes plain where
  mode := by decide
  wlog := by decide
  width _ := rfl
  pmask := by decide
  plane _ := rfl
  gives := congrArg some (eq_replicate_of_zeroElem hzero).symm

theorem sparseCand_codes {plain : List Byte} (hplain : plain.length % 64 = 0) {wlog : Nat} (hwlog : wlog < 3) : (sparseCand plain wlog).Codes plain where
  mode := by change 2 < 4; decide
  wlog := hwlog
  width h := absurd h (by change ¬ 2 < 2; decide)
  pmask := Nat.two_pow_pos _
  plane _ := rfl
  gives := decodeSparse_sparseCand hplain hwlog

theorem planeCand_codes {plain : List Byte} (hplain : plain.length % 64 = 0) {wlog : Nat} (hwlog : wlog < 3) : (planeCand plain wlog).Codes plain where
  mode := by change 3 < 4; decide
  wlog := hwlog
  width h := absurd h (by change ¬ 3 < 2; decide)
  pmask := by rw [planeCand_eq]; exact maskOf_lt ..
  plane h := absurd rfl h
  gives := decodePlane_planeCand hplain hwlog

theorem codes_of_mem_candidates {plain : List Byte} (hplain : plain.length % 64 = 0) {c : Candidate} (hc : c ∈ candidates plain) : c.Codes plain := by
  simp only [candidates, List.mem_append, List.mem_cons, List.mem_map, List.mem_range] at hc
  obtain ((rfl | hzero) | ⟨wlog, hwlog, rfl⟩) | ⟨wlog, hwlog, rfl⟩ := hc
  · exact rawCand_codes plain
  · split at hzero
    case isTrue h => exact List.mem_singleton.mp hzero ▸ zeroCand_codes h
    case isFalse => cases hzero
  · exact sparseCand_codes hplain hwlog
  · exact planeCand_codes hplain hwlog

/-- The choice is one of the candidates and no longer than the first. -/
theorem bestCand_spec (l : List Candidate) (d : Candidate) : bestCand l d ∈ d :: l ∧ (bestCand l d).payload.length ≤ d.payload.length := by
  induction l generalizing d with
  | nil => exact ⟨List.mem_cons_self, Nat.le_refl _⟩
  | cons c l ih =>
    rw [bestCand, List.foldl_cons, ← bestCand]
    split
    case isTrue hshort => exact ⟨List.mem_cons_of_mem _ (ih c).1, Nat.le_trans (ih c).2 (Nat.le_of_lt hshort)⟩
    case isFalse => exact ⟨List.cons_subset_cons d (List.subset_cons_self c l) (ih d).1, (ih d).2⟩

/-- The candidate by which a block is coded. -/
def chosen (plain : List Byte) : Candidate := bestCand (candidates plain) ⟨0, 0, 0, plain⟩

theorem chosen_codes {plain : List Byte} (hplain : plain.length % 64 = 0) : (chosen plain).Codes plain := by
  obtain hraw | hcand := List.mem_cons.mp (bestCand_spec (candidates plain) ⟨0, 0, 0, plain⟩).1
  · exact (congrArg (Candidate.Codes · plain) hraw).mpr (rawCand_codes plain)
  · exact codes_of_mem_candidates hplain hcand

theorem length_chosen_le (plain : List Byte) : (chosen plain).payload.length ≤ plain.length := (bestCand_spec ..).2

-- # A block and its header (R353, R354)

/-- The header bytes of a block that its CRC covers. -/
def headOf (plain : List Byte) : List Byte :=
  blockHead (chosen plain).payload.length (chosen plain).pmask (chosen plain).wlog (chosen plain).mode plain.length

theorem encodeBlock_eq (plain : List Byte) :
    encodeBlock plain = headOf plain ++ leBytes 4 (crc32c (headOf plain ++ plain)) ++ (chosen plain).payload ++
      List.replicate (storedLen (chosen plain).payload.length - 8 - (chosen plain).payload.length) 0 := rfl

theorem length_headOf (plain : List Byte) : (headOf plain).length = 4 := rfl

theorem le_storedLen (len : Nat) : 8 + len ≤ storedLen len := by
  unfold storedLen ceilDiv
  omega

theorem length_encodeBlock (plain : List Byte) : (encodeBlock plain).length = storedLen (chosen plain).payload.length := by
  have hfit := le_storedLen (chosen plain).payload.length
  simp only [encodeBlock_eq, List.length_append, length_headOf, length_leBytes, List.length_replicate]
  omega

/-- The length that the header of a block gives its payload. -/
def lenAt (bs : List Byte) : Nat := leNat (bs.take 2) % 8192

/-- The candidate that a block names by its header, with its payload. -/
def candAt (bs : List Byte) : Candidate :=
  let b2 := (bs.getD 2 0).toNat
  ⟨b2 % 4, b2 / 4 % 4, b2 / 16, (bs.drop 8).take (lenAt bs)⟩

/-- What R367 holds against the header of a block. -/
def headBad (bs : List Byte) (nb : Nat) : Prop :=
  let c := candAt bs
  let b3 := (bs.getD 3 0).toNat
  8192 ≤ leNat (bs.take 2) ∨ 64 ≤ b3 ∨ c.wlog = 3 ∨ (c.mode < 2 ∧ c.wlog ≠ 0) ∨ (c.pmask ≠ 0 ∧ (c.mode ≠ 3 ∨ 2 ^ 2 ^ c.wlog ≤ c.pmask)) ∨
    blockSize < lenAt bs ∨ b3 ≠ nb / 64 - 1 ∨ bs.length < 8 + lenAt bs

/-- What becomes of a payload that gives plain bytes, or does not (R367, R368). -/
def checked (bs : List Byte) (len : Nat) : Option (List Byte) → Decoded
  | none => .damaged 1
  | some p =>
    if crc32c (bs.take 4 ++ p) ≠ leNat ((bs.drop 4).take 4) then .damaged 2
    else if (encodeBlock p).take (8 + len) ≠ bs.take (8 + len) then .damaged 1
    else .plain p (storedLen len)

theorem decodeBlock_headed {bs : List Byte} {nb : Nat} (hwhole : 8 ≤ bs.length) (hhead : ¬ headBad bs nb) :
    decodeBlock bs nb = checked bs (lenAt bs) ((candAt bs).decoded (lenAt bs) nb) := by
  rw [decodeBlock, if_neg (Nat.not_lt.mpr hwhole)]
  refine if_neg ?_
  exact hhead

theorem checked_accepts {bs plain : List Byte} {len : Nat} (hcrc : crc32c (bs.take 4 ++ plain) = leNat ((bs.drop 4).take 4))
    (hmade : (encodeBlock plain).take (8 + len) = bs.take (8 + len)) : checked bs len (some plain) = .plain plain (storedLen len) :=
  (if_neg (not_not.mpr hcrc)).trans (if_neg (not_not.mpr hmade))

-- # Decoding what was coded (R352)

theorem encodeBlock_append (plain after : List Byte) : encodeBlock plain ++ after =
    headOf plain ++ (leBytes 4 (crc32c (headOf plain ++ plain)) ++ ((chosen plain).payload ++
      (List.replicate (storedLen (chosen plain).payload.length - 8 - (chosen plain).payload.length) 0 ++ after))) := by
  simp only [encodeBlock_eq, List.append_assoc]

theorem toNat_byte_of_lt {n : Nat} (hn : n < 256) : (BitVec.ofNat 8 n).toNat = n := BitVec.toNat_ofNat .. ▸ Nat.mod_eq_of_lt hn

section
variable {plain : List Byte} (after : List Byte)

theorem leNat_lenField (hle : plain.length ≤ blockSize) : leNat ((encodeBlock plain ++ after).take 2) = (chosen plain).payload.length := by
  have hpay := Nat.le_trans (length_chosen_le plain) hle
  have htake : (encodeBlock plain ++ after).take 2 = leBytes 2 (chosen plain).payload.length := rfl
  rw [htake, leNat_leBytes]
  exact Nat.mod_eq_of_lt (Nat.lt_of_le_of_lt hpay (by decide))

theorem lenAt_encodeBlock (hle : plain.length ≤ blockSize) : lenAt (encodeBlock plain ++ after) = (chosen plain).payload.length := by
  rw [lenAt, leNat_lenField after hle]
  exact Nat.mod_eq_of_lt (Nat.lt_of_le_of_lt (Nat.le_trans (length_chosen_le plain) hle) (by decide))

/-- MODE, WLOG and PMASK share a byte of the header, and the block names the candidate that it was coded by. -/
theorem candAt_encodeBlock (hplain : plain.length % 64 = 0) (hle : plain.length ≤ blockSize) : candAt (encodeBlock plain ++ after) = chosen plain := by
  obtain ⟨hmode, hwlog, -, hpmask, -, -⟩ := chosen_codes hplain
  have hsmall : 2 ^ 2 ^ (chosen plain).wlog ≤ 2 ^ 2 ^ 2 :=
    Nat.pow_le_pow_right Nat.zero_lt_two (Nat.pow_le_pow_right Nat.zero_lt_two (Nat.le_of_lt_succ hwlog))
  have hfits : (chosen plain).pmask * 16 + (chosen plain).wlog * 4 + (chosen plain).mode < 256 := by omega
  have hbyte : ((encodeBlock plain ++ after).getD 2 0).toNat = (chosen plain).pmask * 16 + (chosen plain).wlog * 4 + (chosen plain).mode :=
    toNat_byte_of_lt hfits
  have hdrop : (encodeBlock plain ++ after).drop 8 = (chosen plain).payload ++
      (List.replicate (storedLen (chosen plain).payload.length - 8 - (chosen plain).payload.length) 0 ++ after) := by
    rw [encodeBlock_append]
    rfl
  rw [candAt, hbyte, hdrop, lenAt_encodeBlock after hle, List.take_left, Candidate.mk.injEq]
  exact ⟨by omega, by omega, by omega, rfl⟩

theorem headBad_encodeBlock (hpos : 0 < plain.length) (hplain : plain.length % 64 = 0) (hle : plain.length ≤ blockSize) :
    ¬ headBad (encodeBlock plain ++ after) plain.length := by
  obtain ⟨hmode, hwlog, hwidth, hpmask, hplane, -⟩ := chosen_codes hplain
  have hpay := Nat.le_trans (length_chosen_le plain) hle
  have hfit := le_storedLen (chosen plain).payload.length
  have hdlen : ((encodeBlock plain ++ after).getD 3 0).toNat = plain.length / 64 - 1 :=
    toNat_byte_of_lt (by unfold blockSize at hle; omega)
  rw [headBad, candAt_encodeBlock after hplain hle, lenAt_encodeBlock after hle, leNat_lenField after hle, hdlen, List.length_append, length_encodeBlock]
  unfold blockSize at *
  rintro (h | h | h | ⟨hlow, hwide⟩ | ⟨hmask, hnot | hover⟩ | h | h | h)
  · omega
  · omega
  · omega
  · exact hwide (hwidth hlow)
  · exact hmask (hplane hnot)
  · omega
  · omega
  · exact h rfl
  · omega

theorem decodeBlock_encodeBlock (hpos : 0 < plain.length) (hplain : plain.length % 64 = 0) (hle : plain.length ≤ blockSize) :
    decodeBlock (encodeBlock plain ++ after) plain.length = .plain plain (encodeBlock plain).length := by
  have hfit := le_storedLen (chosen plain).payload.length
  have hwhole : 8 ≤ (encodeBlock plain ++ after).length := by
    rw [List.length_append, length_encodeBlock]
    omega
  have hcrc : crc32c (headOf plain ++ plain) = leNat (leBytes 4 (crc32c (headOf plain ++ plain))) := by
    rw [leNat_leBytes]
    exact (Nat.mod_eq_of_lt (crc32c_lt _)).symm
  have hmade : (encodeBlock plain).take (8 + (chosen plain).payload.length) =
      (encodeBlock plain ++ after).take (8 + (chosen plain).payload.length) :=
    (List.take_append_of_le_length (length_encodeBlock plain ▸ hfit)).symm
  rw [decodeBlock_headed hwhole (headBad_encodeBlock after hpos hplain hle), candAt_encodeBlock after hplain hle, lenAt_encodeBlock after hle,
    (chosen_codes hplain).gives, length_encodeBlock]
  exact checked_accepts hcrc hmade

end

/-- A stream of blocks decodes to its plain bytes (R353). -/
theorem decodeAll_encodeStream {n : Nat} {plain : List Byte} (hplain : plain.length % 64 = 0) (hn : plain.length ≤ blockSize * n) :
    decodeAll n (encodeStream n plain) plain.length = some plain := by
  induction n generalizing plain with
  | zero => rw [List.length_eq_zero_iff.mp (Nat.le_zero.mp hn)]; rfl
  | succ n ih =>
    by_cases hempty : plain = []
    · rw [hempty]; rfl
    have hpos : 0 < plain.length := List.length_pos_iff.mpr hempty
    have hblock : (plain.take blockSize).length = min blockSize plain.length := List.length_take ..
    have hrest : (plain.drop blockSize).length = plain.length - (plain.take blockSize).length := by
      rw [List.length_drop, hblock]
      omega
    have hlater := ih (plain := plain.drop blockSize) (by rw [List.length_drop]; unfold blockSize; omega)
      (by rw [List.length_drop]; unfold blockSize at hn ⊢; omega)
    have hfirst := decodeBlock_encodeBlock (plain := plain.take blockSize) (encodeStream n (plain.drop blockSize))
      (by rw [hblock]; unfold blockSize; omega) (by rw [hblock]; unfold blockSize; omega) (by rw [hblock]; exact Nat.min_le_left ..)
    rw [encodeStream, List.isEmpty_eq_false_iff.mpr hempty, if_neg Bool.false_ne_true, decodeAll, if_neg (Nat.ne_of_gt hpos), ← hblock, hfirst]
    simp only [List.drop_left, ← hrest, hlater, Option.map_some, List.take_append_drop]

/-- Settles O49: a stream block by block, with its length a whole number of 64 bytes (R353). -/
theorem codecLossless : Obligations.CodecLossless := by
  unfold Obligations.CodecLossless
  refine ⟨fun plain hplain => decodeAll_encodeStream hplain ?_, fun plain after hpos hle hplain => decodeBlock_encodeBlock after hpos hplain hle⟩
  unfold ceilDiv blockSize
  omega

end Sys2Proof.Machine
end

section
/-! SUPPORT. The links of the site fabric (R377 to R388): what a port and its registers keep while flits move, what a flit brings to a live link, and
how a link comes UP. -/

namespace Sys2Proof.Machine

variable {s t u : State}

-- # The ports

theorem port_modPort_self (s : State) (p : Nat) (f : Port → Port) : (s.modPort p f).port p = f (s.port p) := NMap.getD_set_self ..

/-- What a change of one port keeps of it, every port keeps. -/
theorem port_modPort_keeps {β : Type} (g : Port → β) (s : State) (p : Nat) {f : Port → Port} (h : ∀ x, g (f x) = g x) (i : Nat) :
    g ((s.modPort p f).port i) = g (s.port i) := by
  by_cases hi : i = p
  · rw [hi, port_modPort_self, h]
  · exact congrArg g (NMap.getD_set_other s.ports _ _ hi)

theorem port_of_ports (h : t.ports = s.ports) (i : Nat) : t.port i = s.port i := congrArg (NMap.getD · i Port.fresh) h

theorem raise_ports (s : State) (sc : Scope) (code sev source detail : Nat) : (s.raise sc code sev source detail).ports = s.ports := by
  rw [raise_told s sc code sev source detail]

-- # What the traffic of the links leaves as it was

/-- A port keeps its link's state, its control register and the peer that it has met. -/
structure State.keepsLink (p : Fin 7) (s t : State) : Prop where
  state : t.reg .FAB_PORT_STATE p = s.reg .FAB_PORT_STATE p
  ctl : t.reg .FAB_PORT_CTL p = s.reg .FAB_PORT_CTL p
  met : (t.port p).met = (s.port p).met

section
variable {p : Fin 7}

theorem State.keepsLink.refl : State.keepsLink p s s := ⟨rfl, rfl, rfl⟩

theorem State.keepsLink.of_same (hregs : t.regs = s.regs) (hports : t.ports = s.ports) : State.keepsLink p s t :=
  ⟨congrArg (NMap.getD · _ _) hregs, congrArg (NMap.getD · _ _) hregs, congrArg Port.met (port_of_ports hports p)⟩

theorem State.keepsLink.trans (h : State.keepsLink p s t) (h' : State.keepsLink p t u) : State.keepsLink p s u :=
  ⟨h'.state.trans h.state, h'.ctl.trans h.ctl, h'.met.trans h.met⟩

theorem State.keepsLink.fld (h : State.keepsLink p s t) (f : Field) (hf : f.reg = .FAB_PORT_STATE) : t.fld f p = s.fld f p := by
  rw [State.fld, State.fld, hf, h.state]

theorem State.keepsLink.portState (h : State.keepsLink p s t) : t.portState p = s.portState p := h.fld _ rfl

theorem State.keepsLink.disabled (h : State.keepsLink p s t) : t.flag F.FAB_PORT_CTL_DISABLE p = s.flag F.FAB_PORT_CTL_DISABLE p :=
  congrArg (fun w => F.FAB_PORT_CTL_DISABLE.of w != 0) h.ctl

theorem when_keepsLink {c : Bool} {f : State → State} (h : State.keepsLink p s (f s)) : State.keepsLink p s (s.when c f) := by
  cases c with
  | false => exact .refl
  | true => exact h

theorem each_keepsLink {α : Type} {l : List α} {f : α → State → State} (h : ∀ x t, State.keepsLink p t (f x t)) :
    State.keepsLink p s (s.each l f) := by
  induction l generalizing s with
  | nil => exact .refl
  | cons x rest ih => exact (h x s).trans ih

variable (s) (p)

theorem setFld_keepsLink {f : Field} (hstate : f.reg ≠ .FAB_PORT_STATE) (hctl : f.reg ≠ .FAB_PORT_CTL) {i : Nat} (hi : i < 1048576) (v : Nat) :
    State.keepsLink p s (s.setFld f i v) :=
  ⟨reg_setFld_other s v (RegName.key_ne (by omega) hi hstate.symm), reg_setFld_other s v (RegName.key_ne (by omega) hi hctl.symm), rfl⟩

theorem modPort_keepsLink (q : Nat) {f : Port → Port} (h : ∀ x, (f x).met = x.met) : State.keepsLink p s (s.modPort q f) :=
  ⟨rfl, rfl, port_modPort_keeps Port.met s q h p⟩

theorem raise_keepsLink (code sev source detail : Nat) : State.keepsLink p s (s.raise .device code sev source detail) :=
  ⟨reg_deliver (by decide) (by omega) (by decide) s _, reg_deliver (by decide) (by omega) (by decide) s _,
    congrArg Port.met (port_of_ports (raise_ports ..) p)⟩

theorem noteLimit_keepsLink (key : Nat) : State.keepsLink p s (s.noteLimit key) := .of_same rfl rfl

theorem raiseLimited_keepsLink (key interval code sev source detail : Nat) :
    State.keepsLink p s (s.raiseLimited key interval .device code sev source detail) := by
  unfold State.raiseLimited
  dsimp only
  split
  · exact (noteLimit_keepsLink ..).trans (raise_keepsLink ..)
  · exact .refl

theorem putFlit_keepsLink (q : Nat) (f : Flit) (lseq : Nat) (nak : Bool) : State.keepsLink p s (s.putFlit q f lseq nak) := .of_same rfl rfl

/-- A port after it has sent a sequenced flit. -/
def Port.sends (f : Flit) (x : Port) : Port := { x with next := (x.next + 1) % 4096, buffer := x.buffer ++ [(x.next, f)] }

theorem sendFlit_keepsLink (q : Nat) (f : Flit) : State.keepsLink p s (s.sendFlit q f) :=
  (modPort_keepsLink s p q (f := Port.sends f) fun _ => rfl).trans (putFlit_keepsLink ..)

theorem giveBack_keepsLink (came : Option (Nat × Nat)) : State.keepsLink p s (s.giveBack came) := by
  unfold State.giveBack
  split
  · exact putFlit_keepsLink ..
  · exact .refl

theorem drain_keepsLink (n q : Nat) : State.keepsLink p s (State.drain n s q) := by
  induction n generalizing s with
  | zero => exact .refl
  | succ n ih =>
    unfold State.drain
    dsimp only
    split
    · exact .refl
    · split
      · exact .refl
      · refine State.keepsLink.trans ?_ (ih _)
        refine State.keepsLink.trans ?_ (giveBack_keepsLink ..)
        refine State.keepsLink.trans ?_ (sendFlit_keepsLink ..)
        exact modPort_keepsLink s p q fun _ => rfl

theorem drainPort_keepsLink (q : Nat) : State.keepsLink p s (s.drainPort q) := drain_keepsLink s p _ q

theorem enqueue_keepsLink (q : Nat) (f : Flit) (came : Option (Nat × Nat)) : State.keepsLink p s (s.enqueue q f came) :=
  modPort_keepsLink s p q fun _ => rfl

theorem unreachable_keepsLink (q dst : Nat) : State.keepsLink p s (s.unreachable q dst) :=
  ((setFld_keepsLink s p (by decide) (by decide) (by decide) _).trans (setFld_keepsLink _ p (by decide) (by decide) (by decide) _)).trans
    (raiseLimited_keepsLink ..)

theorem sendOn_keepsLink (f : Flit) (came : Option (Nat × Nat)) : State.keepsLink p s (s.sendOn f came) := by
  have hon (q : Nat) (f : Flit) : State.keepsLink p s ((s.enqueue q f came).drainPort q) :=
    (enqueue_keepsLink ..).trans (drainPort_keepsLink ..)
  unfold State.sendOn
  dsimp only
  split
  · exact hon ..
  · split
    · exact hon ..
    · exact hon ..
    · exact (unreachable_keepsLink ..).trans (giveBack_keepsLink ..)
    · exact .refl

theorem rehome_keepsLink (q : Nat) : State.keepsLink p s (s.rehome q) := by
  unfold State.rehome
  split
  · exact .refl
  · refine State.keepsLink.trans ?_ (each_keepsLink fun _ t => sendOn_keepsLink t p ..)
    exact modPort_keepsLink s p q fun _ => rfl

theorem dropHidden_keepsLink (q : Nat) : State.keepsLink p s (s.dropHidden q) := by
  unfold State.dropHidden
  refine State.keepsLink.trans ?_ (each_keepsLink fun _ t => (unreachable_keepsLink t p ..).trans (giveBack_keepsLink ..))
  exact modPort_keepsLink s p q fun _ => rfl

theorem sayHello_keepsLink : State.keepsLink p s s.sayHello := by
  unfold State.sayHello State.postMir State.carryMir
  split
  · exact .refl
  · split
    · exact .of_same rfl rfl
    · refine State.keepsLink.trans (State.keepsLink.trans ?_ (drainPort_keepsLink ..)) (.of_same rfl rfl)
      exact State.keepsLink.trans (t := { s with posted := s.posted + 1 }) (.of_same rfl rfl) (each_keepsLink fun _ t => enqueue_keepsLink t p ..)

theorem showRole_keepsLink (held : Bool) : State.keepsLink p s (s.showRole held) := by
  unfold State.showRole
  exact (setFld_keepsLink s p (by decide) (by decide) (by decide) _).trans
    (when_keepsLink (setFld_keepsLink _ p (by decide) (by decide) (by decide) _))

theorem showTime_keepsLink : State.keepsLink p s s.showTime := showRole_keepsLink ..

end

-- # A link comes UP (R381, R383)

/-- A field above the one that is written stays. -/
theorem fld_setFld_below (s : State) {f g : Field} (hreg : g.reg = f.reg) (hfit : f.lo + f.width ≤ 64) (h : f.lo + f.width ≤ g.lo) (i v : Nat) :
    (s.setFld f i v).fld g i = s.fld g i := fld_setFld_apart s hfit (.inr h) hreg i v

/-- What a link that comes UP shows of itself, before anything is sent over it. -/
def State.linkShown (s : State) (p id b : Nat) : State :=
  (((s.setFld F.FAB_PORT_STATE_STATE p 3).setFld F.FAB_PORT_STATE_B p b).setFld F.FAB_PORT_STATE_PEER p id).bumpFld F.FAB_PORT_STATE_UPS p 1

theorem linkShown_portState (s : State) (p id b : Nat) : (s.linkShown p id b).portState p = 3 := by
  simp (disch := decide) only [State.linkShown, State.bumpFld, State.portState, fld_setFld_below, fld_setFld_self]
  rfl

theorem linkShown_peer (s : State) (p : Nat) (id : BitVec 16) (b : Nat) :
    (s.linkShown p id.toNat b).fld F.FAB_PORT_STATE_PEER p = id.toNat := by
  simp (disch := decide) only [State.linkShown, State.bumpFld, fld_setFld_below, fld_setFld_self]
  exact Nat.mod_eq_of_lt id.isLt

/-- The link has come UP, and its event is told. -/
def State.linkTold (s : State) (p id b : Nat) : State :=
  let t := s.linkShown p id b
  (t.raise .device 0x0202 0 p
    (2 ^ 48 * id + 2 ^ 40 * b + 2 ^ 32 * t.fld F.FAB_PORT_STATE_RATE p + t.fld F.FAB_PORT_STATE_LOSS p)).showTime

/-- The port begins anew: nothing is owed from before, and the four credits that the peer gives are free values (R380). -/
def State.linkRenewed (s : State) (p id b : Nat) : State :=
  let t := s.linkTold p id b
  let c (i : Nat) : Nat := Config.freeNat (t.draws + i) % 4096
  ({ t with draws := t.draws + 4 } : State).modPort p fun x =>
    { x with credits := [c 0, c 1, c 2, c 3], time := none, timed := none, nakked := false, upAt := t.now }

theorem linkUp_keepsLink (s : State) (p : Fin 7) (id b : Nat) (fresh : Bool) :
    State.keepsLink p (s.linkShown p id b) (s.linkUp p id b fresh) := by
  unfold State.linkUp
  refine State.keepsLink.trans ?_ (drainPort_keepsLink ..)
  refine State.keepsLink.trans ?_ (dropHidden_keepsLink ..)
  refine State.keepsLink.trans ?_ (when_keepsLink ?hello)
  case hello =>
    exact ((setFld_keepsLink _ p (by decide) (by decide) (by decide) _).trans (when_keepsLink (raise_keepsLink ..))).trans
      (when_keepsLink (sayHello_keepsLink ..))
  have htold : State.keepsLink p (s.linkShown p id b) (s.linkTold p id b) := (raise_keepsLink ..).trans (showTime_keepsLink ..)
  have hrenewed : State.keepsLink p (s.linkTold p id b) (s.linkRenewed p id b) := by
    unfold State.linkRenewed
    refine State.keepsLink.trans (t := { s.linkTold p id b with draws := (s.linkTold p id b).draws + 4 }) (.of_same rfl rfl) ?_
    exact modPort_keepsLink _ p p fun _ => rfl
  cases fresh with
  | true => exact (htold.trans hrenewed).trans (each_keepsLink fun _ t => sendFlit_keepsLink t p ..)
  | false => exact (htold.trans hrenewed).trans (each_keepsLink fun _ t => putFlit_keepsLink t p ..)


/-- The two ends of a link have met: with another peer than before they agree on new numbers. -/
def State.meetsPeer (s : State) (p : Fin 7) (t : Trailer) (id peer : Nat) : State :=
  s.modPort p fun x => { x with
    good := s.now, met := some (id, peer)
    expect := if (s.port p).met ≠ some (id, peer) then (t.lseq.toNat + 1) % 4096
      else if t.lseq.toNat = x.expect then (x.expect + 1) % 4096 else x.expect }

theorem meetsPeer_buffer (s : State) (p : Fin 7) (t : Trailer) (id peer : Nat) :
    ((s.meetsPeer p t id peer).port p).buffer = (s.port p).buffer := by
  rw [State.meetsPeer, port_modPort_self]

theorem meetsPeer_met (s : State) (p : Fin 7) (t : Trailer) (id peer : Nat) : ((s.meetsPeer p t id peer).port p).met = some (id, peer) := by
  rw [State.meetsPeer, port_modPort_self]

/-- What is left in a replay buffer when what waited there has been sent again under new numbers: of the DISCOVER flits the last. -/
def Port.renumbered (old x : Port) : Port :=
  let own := old.buffer.filter fun y => y.2.typ == 4
  let rest := old.buffer.filter fun y => y.2.typ != 4
  { x with buffer := own.drop (own.length - 1) ++ x.buffer.filter fun y => y.2.typ != 4 && !rest.contains y }

/-- A DISCOVER of the right peer brings the link UP. -/
theorem execFlitDiscover_right {p peer : Fin 7} {t : Trailer} {id : BitVec 16} {dx dy : BitVec 5} {dz : BitVec 6} (hdiscover : s.portState p = 2)
    (hright : p = 6 ∨ (s.heldWhy p id.toNat peer (dx.toNat + 1, dy.toNat + 1, dz.toNat + 1)).1 = 0) : ∃ b fresh,
      exec (.flitDiscover p t id peer dx dy dz) s =
        .next (((s.meetsPeer p t id.toNat peer).linkUp p id.toNat b fresh).when fresh fun u => u.modPort p (s.port p).renumbered) := by
  have hwhy : ∃ b, (if p.val = 6 then (0, 0)
      else (s.meetsPeer p t id.toNat peer).heldWhy p id.toNat peer (dx.toNat + 1, dy.toNat + 1, dz.toNat + 1)) = (0, b) := by
    split
    case isTrue => exact ⟨0, rfl⟩
    case isFalse hp => exact ⟨_, Prod.ext (hright.resolve_left fun h => hp (congrArg Fin.val h)) rfl⟩
  obtain ⟨b, hb⟩ := hwhy
  have hbuffer := meetsPeer_buffer s p t id.toNat peer
  refine ⟨b, decide ((s.port p).met ≠ some (id.toNat, peer.val)), ?_⟩
  unfold State.meetsPeer at hb hbuffer
  change execFlitDiscover p t id peer dx dy dz s = _
  simp only [execFlitDiscover, State.meetsPeer, hdiscover, ne_eq, not_true_eq_false, if_false, decide_eq_true_eq, hb, hbuffer]
  rfl

/-- A torus link of the right peer, and MIR of any, goes UP and shows the peer that it has met. -/
theorem execFlitDiscover_up {p peer : Fin 7} {t : Trailer} {id : BitVec 16} {dx dy : BitVec 5} {dz : BitVec 6} (hdiscover : s.portState p = 2)
    (hright : p = 6 ∨ (s.heldWhy p id.toNat peer (dx.toNat + 1, dy.toNat + 1, dz.toNat + 1)).1 = 0) : ∃ u,
      exec (.flitDiscover p t id peer dx dy dz) s = .next u ∧ u.portState p = 3 ∧ u.fld F.FAB_PORT_STATE_PEER p = id.toNat ∧
        (u.port p).met = some (id.toNat, peer.val) := by
  obtain ⟨b, fresh, hexec⟩ := execFlitDiscover_right hdiscover hright
  have hkept : State.keepsLink p ((s.meetsPeer p t id.toNat peer).linkShown p id.toNat b)
      (((s.meetsPeer p t id.toNat peer).linkUp p id.toNat b fresh).when fresh fun u => u.modPort p (s.port p).renumbered) :=
    (linkUp_keepsLink ..).trans (when_keepsLink (modPort_keepsLink _ p p fun _ => rfl))
  refine ⟨_, hexec, hkept.portState.trans (linkShown_portState ..), ?_, hkept.met.trans (meetsPeer_met ..)⟩
  exact (hkept.fld F.FAB_PORT_STATE_PEER rfl).trans (linkShown_peer ..)

-- # A live link and flits in order (R378, R379)

section
variable {p : Fin 7} (hlive : s.portLive p = true)
include hlive

theorem execFlitIdle_live (t : Trailer) : exec (.flitIdle p t) s = .next (s.heard p t) := if_pos hlive

theorem execFlitBadCrc_live : exec (.flitBadCrc p) s = .next ((s.bumpFld F.FAB_PORT_CNT_CRC_ERR p 1).sendNak p) := if_pos hlive

theorem execFlitLink_live (t : Trailer) (vc : Fin 4) (n : BitVec 16) : exec (.flitLink p t vc n) s = .next ((s.modPort p fun x =>
    { x with credits := x.credits.zipIdx.map fun c => if c.2 = vc.val then c.1 + n.toNat else c.1 }).heard p t) :=
  if_neg (by rw [hlive]; decide)

/-- A flit in order is accepted and acknowledged before it has its effect. -/
theorem next_inOrder {t : Trailer} (horder : t.lseq.toNat = ((s.heard p t).port p).expect) (f : State → State) :
    let v := ((s.heard p t).modPort p Port.accept).sendIdle p false
    (.next (s.inOrder p t f) : Answer) = .next (f (v.when (p == 6 && v.pairBeats) State.fromTwin)) := by
  have hmir : (p == 6) = (p.val == 6) := Bool.eq_iff_iff.mpr (by rw [beq_iff_eq, beq_iff_eq, Fin.ext_iff]; rfl)
  rw [State.inOrder, hlive, hmir]
  exact congrArg Host.Outcome.next (if_pos horder)

end

-- # Time flits (R390 to R392)

theorem showRole_ports (s : State) (held : Bool) : (s.showRole held).ports = s.ports :=
  State.when_keeps (s.setFld ..) State.ports fun _ => rfl

theorem timeBack_ports (s : State) (seen : Nat → Bool) : (s.timeBack seen).ports = s.ports := by
  unfold State.timeBack State.takeMaster
  dsimp only
  repeat' split
  · rfl
  · exact showRole_ports ..
  · exact showRole_ports ..
  · rfl

theorem correctTime_ports (s : State) (step : Bool) (d : Int) : (s.correctTime step d).ports = s.ports := by
  unfold State.correctTime
  dsimp only
  split <;> rfl

theorem takeOffset_port_time (s : State) (p : Nat) (o : Int) (i : Nat) : ((s.takeOffset p o).port i).time = (s.port i).time := by
  have hstep (t : State) (c : Bool) : (t.when c fun s => s.beginAt stepped 0).ports = t.ports := t.when_keeps State.ports fun _ => rfl
  have htold (t : State) (c : Bool) : (t.when c fun s => s.raise .device 0x0208 2 p (unsignedOf 64 o)).ports = t.ports :=
    t.when_keeps State.ports fun _ => raise_ports ..
  unfold State.takeOffset
  refine (congrArg Port.time (port_of_ports ((correctTime_ports ..).trans ((hstep ..).trans (htold ..))) i)).trans ?_
  refine port_modPort_keeps Port.time _ p ?_ i
  exact fun _ => rfl

/-- What a TIME flit that is not a replay does once it is accepted. -/
def State.takeTime (p : Fin 7) (t1 t3 t4 : Nat) (s : State) : State :=
  let t := s.modPort p fun x => { x with time := some (t1, s.now) }
  let u := t.timeBack fun m => t.route m == some p.val
  if (s.port p).timed.isSome && u.fld F.FAB_TIME_STATE_ROLE 0 == 0 && u.fld F.FAB_TIME_STATE_UP_PORT 0 == p.val then
    u.takeOffset p (timeOffset t1 u.now t3 t4)
  else u

/-- The port keeps the time that the flit brought, with the time at which it came. -/
theorem takeTime_port_time (s : State) (p : Fin 7) (t1 t3 t4 : Nat) : ((State.takeTime p t1 t3 t4 s).port p).time = some (t1, s.now) := by
  have hback (t : State) (seen : Nat → Bool) : ((t.timeBack seen).port p).time = (t.port p).time :=
    congrArg Port.time (port_of_ports (timeBack_ports t seen) p)
  unfold State.takeTime
  dsimp only
  split
  · rw [takeOffset_port_time, hback, port_modPort_self]
  · rw [hback, port_modPort_self]

/-- Settles O32. That an accepted flit is acknowledged by an IDLE flit of its own is the model's choice (log 72). -/
theorem flits : Obligations.Flits := by
  unfold Obligations.Flits
  intro s p t
  refine ⟨fun hlive => ⟨execFlitIdle_live hlive t, execFlitBadCrc_live hlive, execFlitLink_live hlive t, fun horder => ?_⟩,
    fun id peer dx dy dz hdiscover hright => execFlitDiscover_up hdiscover hright⟩
  exact ⟨fun h payload => ⟨next_inOrder hlive horder _, next_inOrder hlive horder _⟩,
    fun t1 t3 t4 => ⟨next_inOrder hlive horder _,
      _, next_inOrder hlive horder (State.takeTime p t1.toNat t3.toNat t4.toNat), takeTime_port_time ..⟩⟩

end Sys2Proof.Machine
end

section
/-! SUPPORT. The fabric's other commands (R379 to R395, R405, R406): links that train, go down and are disabled, the time of the site, the
bypasses, and what holds a collective up. -/

namespace Sys2Proof

/-- A change of every entry of a map that leaves the default as it is. -/
theorem NMap.getD_map {α : Type} (m : NMap α) {f : α → α} {d : α} (hd : f d = d) (i : Nat) :
    NMap.getD (m.map fun x => (x.1, f x.2)) i d = f (NMap.getD m i d) := by
  induction m with
  | nil => exact hd.symm
  | cons x rest ih =>
    simp only [NMap.getD, List.map_cons, NMap.get?] at ih ⊢
    split
    · rfl
    · exact ih

end Sys2Proof

namespace Sys2Proof.Machine

variable {s : State}

-- # The registers of a port

/-- A write of a part of a register stores a plain field that lies in the part. -/
theorem RegName.of_written_part {r : RegName} {row : FieldRow} (hrow : row ∈ r.rows) (hrw : row.acc = .rw) {h : Half}
    (hmask : ∀ k, row.lo ≤ k → k < row.lo + row.width → h.mask.getLsbD k = true) (old v : Word) :
    (row.field r).of (r.written h old v) = (row.field r).of v := by
  refine Field.of_congr fun k hlo hhi => ?_
  rw [r.getLsbD_written h old v hrow hlo hhi, hrw, hmask k hlo hhi, if_pos rfl, Access.stores]

/-- A write of a register leaves the fields of the others. -/
theorem fld_writeReg_other (s : State) {f : Field} {r : RegName} (hf : f.reg ≠ r) {i j : Nat} (hi : i < 1048576) (hj : j < 1048576) (h : Half)
    (v : Word) : (s.writeReg r i h v).fld f j = s.fld f j :=
  congrArg f.of (reg_setReg_other s _ (RegName.key_ne hj hi hf))

theorem fld_writeReg_self (s : State) (f : Field) (i : Nat) (h : Half) (v : Word) :
    (s.writeReg f.reg i h v).fld f i = f.of (f.reg.written h (s.reg f.reg i) v) := congrArg f.of (reg_setReg_self ..)

/-- A write of the upper half of FAB_PORT_CTL stores DISABLE. -/
theorem disabled_writePortCtl (s : State) (p : Nat) (v : Word) :
    (s.writeReg .FAB_PORT_CTL p .high v).flag F.FAB_PORT_CTL_DISABLE p = (F.FAB_PORT_CTL_DISABLE.of v != 0) := by
  have hupper : ∀ k, 63 ≤ k → k < 63 + 1 → Half.high.mask.getLsbD k = true := fun k hlo hhi =>
    (Nat.le_antisymm (Nat.le_of_lt_succ hhi) hlo) ▸ by decide
  have hstored := RegName.of_written_part (r := .FAB_PORT_CTL) (row := ⟨63, 1, .rw, 0⟩) (by decide) rfl hupper (s.reg .FAB_PORT_CTL p) v
  exact congrArg (· != 0) ((fld_writeReg_self s F.FAB_PORT_CTL_DISABLE p .high v).trans hstored)

-- # A port that goes out of service (R56, R379, R381)

/-- A port whose waiting flits owe nothing to a port. -/
def Port.forgets (q : Nat) (x : Port) : Port := { x with queue := x.queue.map fun c => (c.1, c.2.filter fun x => x.1 != q) }

theorem port_forgetCame (s : State) (q i : Nat) : (s.forgetCame q).port i = (s.port i).forgets q :=
  NMap.getD_map s.ports (f := Port.forgets q) (d := Port.fresh) rfl i

theorem forgetCame_keepsLink (s : State) (p : Fin 7) (q : Nat) : State.keepsLink p s (s.forgetCame q) :=
  ⟨rfl, rfl, (congrArg Port.met (port_forgetCame s q p)).trans rfl⟩

/-- What a port that is out of service shows. -/
def State.deadShown (s : State) (p st : Nat) : State :=
  ((((s.setFld F.FAB_PORT_STATE_STATE p st).setFld F.FAB_PORT_STATE_RATE p 0).setFld F.FAB_PORT_STATE_LANES p 0).setFld
    F.FAB_PORT_STATE_B p 0).setFld F.FAB_PORT_STATE_HELD_WHY p 0

theorem deadShown_portState (s : State) (p : Nat) {st : Nat} (hst : st < 8) : (s.deadShown p st).portState p = st := by
  simp (disch := decide) only [State.deadShown, State.portState, fld_setFld_below, fld_setFld_self]
  exact Nat.mod_eq_of_lt hst

theorem deadShown_disabled (s : State) (p st : Nat) : (s.deadShown p st).flag F.FAB_PORT_CTL_DISABLE p = s.flag F.FAB_PORT_CTL_DISABLE p := by
  simp (disch := decide) only [State.deadShown, State.flag, fld_setFld_of_reg_ne]

/-- When the link was lost, where it carried flits or was HELD. -/
def State.lossNoted (s : State) (p : Nat) : State :=
  s.when (decide (3 ≤ s.portState p)) fun s => s.modPort p fun x => { x with lostAt := s.now }

theorem portDead_keepsLink (s : State) (p : Fin 7) (st : Nat) : State.keepsLink p ((s.lossNoted p).deadShown p st) (s.portDead p st) := by
  unfold State.portDead
  refine State.keepsLink.trans ?_ (when_keepsLink (rehome_keepsLink ..))
  refine State.keepsLink.trans ?_ (showTime_keepsLink ..)
  refine State.keepsLink.trans ?_ (when_keepsLink (setFld_keepsLink _ p (by decide) (by decide) (by decide) _))
  exact forgetCame_keepsLink ..

theorem portDead_portState (s : State) (p : Fin 7) {st : Nat} (hst : st < 8) : (s.portDead p st).portState p = st :=
  (portDead_keepsLink s p st).portState.trans (deadShown_portState _ p hst)

theorem portDead_disabled (s : State) (p : Fin 7) (st : Nat) :
    (s.portDead p st).flag F.FAB_PORT_CTL_DISABLE p = s.flag F.FAB_PORT_CTL_DISABLE p :=
  (portDead_keepsLink s p st).disabled.trans ((deadShown_disabled ..).trans
    (s.when_keeps (fun t => t.flag F.FAB_PORT_CTL_DISABLE p) fun _ => rfl))

-- # Commands of a port
section
variable {p : Fin 7}

theorem execLinkSilenceTimeout_silent (hlive : s.portLive p = true) (hsilent : (s.port p).good + 2000 ≤ s.now) :
    exec (.linkSilenceTimeout p) s = .next (s.linkDown p 2) :=
  if_pos (by rw [← State.portLive, hlive, decide_eq_true hsilent]; rfl)

/-- What a link that has trained shows: DISCOVER, its rate and its lanes (R381, R383). -/
def State.trainedShown (s : State) (p loss rate lanes : Nat) : State :=
  (((s.setFld F.FAB_PORT_STATE_LOSS p loss).setFld F.FAB_PORT_STATE_STATE p 2).setFld F.FAB_PORT_STATE_RATE p rate).setFld
    F.FAB_PORT_STATE_LANES p lanes

theorem trainedShown_fields (s : State) (p loss : Nat) {rate lanes : Nat} (hrate : rate < 4) (hlanes : lanes < 32) :
    let u := s.trainedShown p loss rate lanes
    u.portState p = 2 ∧ u.fld F.FAB_PORT_STATE_RATE p = rate ∧ u.fld F.FAB_PORT_STATE_LANES p = lanes := by
  simp (disch := decide) only [State.trainedShown, State.portState, fld_setFld_below, fld_setFld_self]
  exact ⟨rfl, Nat.mod_eq_of_lt hrate, Nat.mod_eq_of_lt hlanes⟩

/-- A link that takes the full rate, or trains at the lower one, is shown so, and its DISCOVER flit is sent. -/
theorem execLinkTrainDone_shown {loss : BitVec 16} {trains full : Bool} (htrain : s.portState p = 1)
    (hfull : full = (decide (5 ≤ s.stage) && decide (loss.toNat ≤ s.fld F.FAB_LINK_CFG_FULL_BUDGET 0))) (htakes : full = true ∨ trains = true) :
    ∃ t, exec (.linkTrainDone p loss trains) s = .next t ∧ State.keepsLink p (s.trainedShown p loss.toNat (if full then 2 else 1)
      (if decide (s.stage < 5) then 1 else if p.val = 6 then 16 else 8)) t := by
  have hlow : decide (5 ≤ s.stage) = !decide (s.stage < 5) := by
    rw [← decide_not]
    exact decide_eq_decide.mpr Nat.not_lt.symm
  have hgoes : (!full && !trains) = false := by rcases htakes with rfl | rfl <;> simp
  change ∃ t, execLinkTrainDone p loss trains s = _ ∧ _
  rw [execLinkTrainDone, if_neg (not_not_intro htrain)]
  dsimp only
  rw [← hlow, ← hfull, hgoes, if_neg Bool.false_ne_true]
  split
  · exact ⟨_, rfl, (modPort_keepsLink _ p p (f := fun x => { x with good := s.now }) fun _ => rfl).trans (putFlit_keepsLink ..)⟩
  · exact ⟨_, rfl, (modPort_keepsLink _ p p (f := fun x => { x with good := s.now }) fun _ => rfl).trans (sendFlit_keepsLink ..)⟩

theorem execLinkTrainDone_trains {loss : BitVec 16} {trains full : Bool} (htrain : s.portState p = 1)
    (hfull : full = (decide (5 ≤ s.stage) && decide (loss.toNat ≤ s.fld F.FAB_LINK_CFG_FULL_BUDGET 0))) (htakes : full = true ∨ trains = true) :
    ∃ t, exec (.linkTrainDone p loss trains) s = .next t ∧ t.portState p = 2 ∧
        t.fld F.FAB_PORT_STATE_RATE p = (if full then 2 else 1) ∧
        t.fld F.FAB_PORT_STATE_LANES p = (if s.stage < 5 then 1 else if p = 6 then 16 else 8) := by
  have hlanes : (if decide (s.stage < 5) then 1 else if p.val = 6 then 16 else 8) = if s.stage < 5 then 1 else if p = 6 then 16 else 8 := by
    simp only [decide_eq_true_eq, Fin.ext_iff]
    rfl
  obtain ⟨t, hexec, hkept⟩ := execLinkTrainDone_shown htrain hfull htakes
  rw [hlanes] at hkept
  obtain ⟨hstate, hrateShown, hlanesShown⟩ := trainedShown_fields s p loss.toNat (rate := if full then 2 else 1)
    (lanes := if s.stage < 5 then 1 else if p = 6 then 16 else 8) (by split_ifs <;> decide) (by split_ifs <;> decide)
  exact ⟨t, hexec, hkept.portState.trans hstate, (hkept.fld F.FAB_PORT_STATE_RATE rfl).trans hrateShown,
    (hkept.fld F.FAB_PORT_STATE_LANES rfl).trans hlanesShown⟩

theorem execLinkTrainRetry_due (hdown : s.portState p = 0) (hmay : s.portMay p = true) (hdue : (s.port p).tried + 100 * ms ≤ s.now) :
    exec (.linkTrainRetry p) s = .next (s.train p) := if_pos ⟨hdown, hmay, hdue⟩

theorem sendFlit_port_timed (s : State) (q : Nat) (f : Flit) (i : Nat) : ((s.sendFlit q f).port i).timed = (s.port i).timed :=
  port_modPort_keeps (f := Port.sends f) Port.timed s q (fun _ => rfl) i

theorem execTimeFlitSend_up (hup : s.portState p = 3) (htimed : (s.port p).timed = none) (hroom : (s.port p).buffer.length < 1023) :
    ∃ t, exec (.timeFlitSend p) s = .next t ∧ (t.port p).timed = some s.now := by
  have hgoes : ¬ (s.portState p ≠ 3 ∨ (s.port p).timed.elim false (fun t => decide (s.now < t + 125000)) = true ∨
      replayRoom ≤ (s.port p).buffer.length) := by
    rw [hup, htimed]
    exact fun h => h.elim (absurd rfl) fun h => h.elim Bool.false_ne_true (Nat.not_le.mpr hroom)
  have hsent (u : State) (f : Flit) : (((u.modPort p fun x => { x with timed := some u.now }).sendFlit p f).port p).timed = some u.now := by
    rw [sendFlit_port_timed, port_modPort_self]
  change ∃ t, execTimeFlitSend p s = _ ∧ _
  rw [execTimeFlitSend, if_neg hgoes]
  cases (s.port p).time with
  | none => exact ⟨_, rfl, hsent { s with draws := s.draws + 2 } _⟩
  | some x => exact ⟨_, rfl, hsent s _⟩

variable {fn : Fin 64} (hgo : s.reach fn .FAB_PORT_CTL p = .go)
include hgo

theorem execPortDisable_on (henabled : s.flag F.FAB_PORT_CTL_DISABLE p = false) : ∃ t,
    exec (.portDisable fn p true) s = .next t ∧ t.portState p = 5 ∧ t.flag F.FAB_PORT_CTL_DISABLE p = true := by
  have hstored : (s.writeReg .FAB_PORT_CTL p .high (F.FAB_PORT_CTL_DISABLE.put 0#64 1)).flag F.FAB_PORT_CTL_DISABLE p = true :=
    (disabled_writePortCtl ..).trans (by decide)
  refine ⟨_, congrArg Host.Outcome.next ?_, portDead_portState _ p (by decide), (portDead_disabled ..).trans hstored⟩
  rw [State.writePortCtl, State.reaching_go hgo, henabled]
  exact if_pos hstored

theorem execPortDisable_off (hdisabled : s.flag F.FAB_PORT_CTL_DISABLE p = true) : ∃ t : State,
    exec (.portDisable fn p false) s = .next ((t.portDead p 0).train p) ∧ t.flag F.FAB_PORT_CTL_DISABLE p = false ∧
      ∀ i, t.port i = s.port i := by
  have hstored : (s.writeReg .FAB_PORT_CTL p .high (F.FAB_PORT_CTL_DISABLE.put 0#64 0)).flag F.FAB_PORT_CTL_DISABLE p = false :=
    (disabled_writePortCtl ..).trans (by decide)
  refine ⟨_, congrArg Host.Outcome.next ?_, hstored, fun i => rfl⟩
  rw [State.writePortCtl, State.reaching_go hgo, hdisabled]
  exact if_neg (Bool.eq_false_iff.mp hstored)

theorem execRetrain_enabled (henabled : s.flag F.FAB_PORT_CTL_DISABLE p = false) : ∃ t : State,
    exec (.retrain fn p) s = .next (if s.portState p = 0 then t.train p else t.linkDown p 4) ∧ ∀ i, t.port i = s.port i := by
  have hzero : s.fld F.FAB_PORT_CTL_DISABLE p = 0 := by simpa [State.flag] using henabled
  have hstored : (s.writeReg .FAB_PORT_CTL p .high (F.FAB_PORT_CTL_RETRAIN.put (F.FAB_PORT_CTL_DISABLE.put 0#64 0) 1)).flag
      F.FAB_PORT_CTL_DISABLE p = false := (disabled_writePortCtl ..).trans (by decide)
  have hhit : F.FAB_PORT_CTL_RETRAIN.hit .high (F.FAB_PORT_CTL_RETRAIN.put (F.FAB_PORT_CTL_DISABLE.put 0#64 0) 1) = true := by decide
  have hport (h : Half) (v : Word) : (s.writeReg .FAB_PORT_CTL p h v).portState p = s.portState p :=
    fld_writeReg_other s (by decide) (by omega) (by omega) h v
  refine ⟨s.writeReg .FAB_PORT_CTL p .high (F.FAB_PORT_CTL_RETRAIN.put (F.FAB_PORT_CTL_DISABLE.put 0#64 0) 1), ?_, fun i => rfl⟩
  change execRetrain fn p s = _
  rw [execRetrain, State.writePortCtl, State.reaching_go hgo, hzero, henabled]
  simp only [hstored, hhit, hport, State.when, Bool.false_eq_true, if_false, if_true]

end

-- # The time of the site (R390, R393)

/-- No TIME flit has come from the master's side for 1 ms: the backup is the master. -/
theorem execTimeMasterTimeout_backup (hruns : s.inReset = false) (hstage : 3 ≤ s.stage)
    (hother : s.fld F.FAB_TIME_STATE_MASTER_NOW 0 ≠ s.deviceId)
    (hsilent : ∀ p, s.route (s.fld F.FAB_TIME_STATE_MASTER_NOW 0) = some p → (s.port p).time.elim (s.port p).upAt (·.2) + ms ≤ s.now)
    (hbackup : s.fld F.FAB_TIME_STATE_MASTER_NOW 0 ≠ s.fld F.FAB_TIME_CFG_BACKUP 0) : exec .timeMasterTimeout s =
      .next ((s.takeMaster (s.fld F.FAB_TIME_CFG_BACKUP 0)).raise .device 0x0209 1 0 (s.fld F.FAB_TIME_CFG_BACKUP 0)) := by
  have hsilence : (match s.route (s.fld F.FAB_TIME_STATE_MASTER_NOW 0) with
      | none => true
      | some p => decide ((s.port p).time.elim (s.port p).upAt (·.2) + ms ≤ s.now)) = true := by
    split
    · rfl
    · exact decide_eq_true (hsilent _ ‹_›)
  have hgoes : (s.inReset || decide (s.stage < 3) || s.fld F.FAB_TIME_STATE_MASTER_NOW 0 == s.deviceId) = false := by
    rw [hruns, decide_eq_false (Nat.not_lt.mpr hstage), beq_eq_false_iff_ne.mpr hother]
    rfl
  refine (if_neg ?_).trans (if_pos hbackup)
  rw [hgoes, Bool.false_or, Bool.not_eq_true, Bool.not_eq_false']
  exact hsilence

/-- An edge of 1PPS is timestamped. -/
def State.ppsShown (s : State) : State :=
  ((s.setFld F.FAB_PPS_TIME_TIME 0 s.now).setFld F.FAB_TIME_STATE_PPS_SEEN 0 1).endOf ppsTold 0

theorem reg_correctTime (s : State) (step : Bool) (d : Int) (r : RegName) (i : Nat) : (s.correctTime step d).reg r i = s.reg r i := by
  unfold State.correctTime
  dsimp only
  split <;> rfl

theorem fld_endOf (s : State) (kind i : Nat) (f : Field) (j : Nat) : (s.endOf kind i).fld f j = s.fld f j := rfl

theorem ppsShown_time (s : State) : s.ppsShown.fld F.FAB_PPS_TIME_TIME 0 = s.now % 2 ^ 64 := by
  rw [State.ppsShown, fld_endOf, fld_setFld_of_reg_ne _ (by decide)]
  exact fld_setFld_self s F.FAB_PPS_TIME_TIME (by decide) ..

theorem ppsShown_seen (s : State) : s.ppsShown.flag F.FAB_TIME_STATE_PPS_SEEN 0 = true := by
  rw [State.ppsShown, State.flag, fld_endOf, fld_setFld_self _ _ (by decide)]
  rfl

theorem execPpsEdge_regs (hruns : s.inReset = false) : ∃ t, exec .ppsEdge s = .next t ∧ ∀ r i, t.reg r i = s.ppsShown.reg r i := by
  change ∃ t, execPpsEdge s = _ ∧ _
  rw [execPpsEdge, hruns, if_neg Bool.false_ne_true]
  dsimp only
  split
  · exact ⟨_, rfl, reg_correctTime _ _ _⟩
  · exact ⟨_, rfl, fun _ _ => rfl⟩

theorem execPpsEdge_shown (hruns : s.inReset = false) : ∃ t,
    exec .ppsEdge s = .next t ∧ t.fld F.FAB_PPS_TIME_TIME 0 = s.now % 2 ^ 64 ∧ t.flag F.FAB_TIME_STATE_PPS_SEEN 0 = true := by
  obtain ⟨t, hexec, hregs⟩ := execPpsEdge_regs hruns
  exact ⟨t, hexec, (congrArg F.FAB_PPS_TIME_TIME.of (hregs ..)).trans (ppsShown_time s),
    (congrArg (fun w => F.FAB_TIME_STATE_PPS_SEEN.of w != 0) (hregs ..)).trans (ppsShown_seen s)⟩

theorem execPpsTimeout_shown (hruns : s.inReset = false) (hdue : s.fld F.FAB_PPS_TIME_TIME 0 + 2 * sec ≤ s.now) :
    ∃ t, exec .ppsTimeout s = .next t ∧ t.flag F.FAB_TIME_STATE_PPS_SEEN 0 = false := by
  have hunseen : (s.setFld F.FAB_TIME_STATE_PPS_SEEN 0 0).flag F.FAB_TIME_STATE_PPS_SEEN 0 = false :=
    congrArg (· != 0) (fld_setFld_self s F.FAB_TIME_STATE_PPS_SEEN (by decide) ..)
  have hgoes : (s.inReset || decide (s.now < s.fld F.FAB_PPS_TIME_TIME 0 + 2 * sec)) = false := by
    rw [hruns, decide_eq_false (Nat.not_lt.mpr hdue)]
    rfl
  change ∃ t, execPpsTimeout s = _ ∧ _
  rw [execPpsTimeout, hgoes, if_neg Bool.false_ne_true]
  dsimp only
  split
  · exact ⟨_, rfl, (congrArg (· != 0) (fld_raise_device _ (by decide) (by decide) ..)).trans hunseen⟩
  · exact ⟨_, rfl, hunseen⟩

-- # The bypasses (R385)

/-- A write of FAB_BYP_CTL stores MASK. -/
theorem mask_writeBypCtl (s : State) (w : Word) (mask : BitVec 3) :
    (s.writeReg .FAB_BYP_CTL 0 .whole (F.FAB_BYP_CTL_MASK.put w mask.toNat)).fld F.FAB_BYP_CTL_MASK 0 = mask.toNat := by
  have hstored := RegName.of_written_rw (r := .FAB_BYP_CTL) (row := ⟨0, 3, .rw, 0⟩) (by decide) rfl (s.reg .FAB_BYP_CTL 0)
    (F.FAB_BYP_CTL_MASK.put w mask.toNat)
  refine (fld_writeReg_self s F.FAB_BYP_CTL_MASK 0 ..).trans (hstored.trans ?_)
  exact (Field.of_put F.FAB_BYP_CTL_MASK (by decide) ..).trans (Nat.mod_eq_of_lt mask.isLt)

section
variable {fn : Fin 64} (hgo : s.reach fn .FAB_BYP_CTL 0 = .go) (mask : BitVec 3)
include hgo

theorem writeBypCtl_close : s.writeBypCtl fn .whole (F.FAB_BYP_CTL_MASK.put (F.FAB_BYP_CTL_CLOSE.put 0#64 1) mask.toNat) =
    (s.writeReg .FAB_BYP_CTL 0 .whole (F.FAB_BYP_CTL_MASK.put (F.FAB_BYP_CTL_CLOSE.put 0#64 1) mask.toNat)).closeBypass mask.toNat 3 := by
  have hclose : F.FAB_BYP_CTL_CLOSE.hit .whole (F.FAB_BYP_CTL_MASK.put (F.FAB_BYP_CTL_CLOSE.put 0#64 1) mask.toNat) = true := by
    rw [Field.hit, Half.part_whole, Field.of_put_other (by decide) (.inr (by decide))]
    decide
  rw [State.writeBypCtl, State.reaching_go hgo]
  simp only [hclose, mask_writeBypCtl, if_true]

theorem writeBypCtl_release (hstage : 4 ≤ s.stage) :
    s.writeBypCtl fn .whole (F.FAB_BYP_CTL_MASK.put (F.FAB_BYP_CTL_RELEASE.put 0#64 1) mask.toNat) =
      (s.writeReg .FAB_BYP_CTL 0 .whole (F.FAB_BYP_CTL_MASK.put (F.FAB_BYP_CTL_RELEASE.put 0#64 1) mask.toNat)).releaseBypass mask.toNat 2 := by
  have hrelease : F.FAB_BYP_CTL_RELEASE.hit .whole (F.FAB_BYP_CTL_MASK.put (F.FAB_BYP_CTL_RELEASE.put 0#64 1) mask.toNat) = true := by
    rw [Field.hit, Half.part_whole, Field.of_put_other (by decide) (.inr (by decide))]
    decide
  have hclose : F.FAB_BYP_CTL_CLOSE.hit .whole (F.FAB_BYP_CTL_MASK.put (F.FAB_BYP_CTL_RELEASE.put 0#64 1) mask.toNat) = false := by
    rw [Field.hit, Half.part_whole, Field.of_put_other (by decide) (.inr (by decide))]
    decide
  have hkept (v : Word) : (s.writeReg .FAB_BYP_CTL 0 .whole v).stage = s.stage :=
    fld_writeReg_other s (by decide) (by decide) (by decide) ..
  rw [State.writeBypCtl, State.reaching_go hgo]
  simp only [hclose, hrelease, hkept, mask_writeBypCtl, decide_eq_true hstage, State.when, Bool.false_eq_true, Bool.and_self, if_false, if_true]

theorem execBypassClose_go : ∃ t : State, exec (.bypassClose fn mask) s = .next (t.closeBypass mask.toNat 3) ∧
    ∀ f : Field, f.reg ≠ .FAB_BYP_CTL → ∀ i, i < 1048576 → t.fld f i = s.fld f i :=
  ⟨_, congrArg Host.Outcome.next (writeBypCtl_close hgo mask), fun _ hf _ hi => fld_writeReg_other s hf (by decide) hi ..⟩

theorem execBypassRelease_go (hstage : 4 ≤ s.stage) : ∃ t : State, exec (.bypassRelease fn mask) s = .next (t.releaseBypass mask.toNat 2) ∧
    ∀ f : Field, f.reg ≠ .FAB_BYP_CTL → ∀ i, i < 1048576 → t.fld f i = s.fld f i :=
  ⟨_, congrArg Host.Outcome.next (writeBypCtl_release hgo mask hstage), fun _ hf _ hi => fld_writeReg_other s hf (by decide) hi ..⟩

end

-- # Collectives (R395, R405, R406)

theorem execCollStallTimeout_late {ctx : Fin 256} {tag : BitVec 32} {x : Coll}
    (hlate : s.colls.find? (fun x => x.ctx == ctx.val && x.desc.tag == tag.toNat && !x.stalled &&
      decide (x.since + ms * s.fld F.FAB_COLL_CFG_STALL_MS 0 ≤ s.now)) = some x) :
    exec (.collStallTimeout ctx tag) s = .next (({ s with colls := s.colls.map fun y => if y.id = x.id then { y with stalled := true } else y } :
      State).raise (.context ctx) 0x020B 2 x.desc.groupNum x.desc.tag) := by
  change execCollStallTimeout ctx tag s = _
  rw [execCollStallTimeout, hlate]

theorem execMemberRewrite_changes {ctx : Fin 256} {group rank dev : BitVec 16} {g : Group} (hgroup : s.group? ctx group.toNat = some g)
    (hrank : rank.toNat < g.size) (hdev : g.members.getD rank.toNat 0 ≠ dev.toNat) : exec (.memberRewrite ctx group rank dev) s =
      .next ((s.setMember g rank.toNat dev.toNat).restartColls ctx fun x => x.desc.groupNum == group.toNat) := by
  change execMemberRewrite ctx group rank dev s = _
  rw [execMemberRewrite, hgroup]
  exact if_neg fun h => h.elim (Nat.not_le.mpr hrank) hdev

/-- Settles O33, command by command. That the time-out of the master is judged by the TIME flits of the upstream port is the model's choice
(log 74). -/
theorem fabricCommands : Obligations.FabricCommands := by
  unfold Obligations.FabricCommands
  exact ⟨fun s p => ⟨fun hlive hsilent => execLinkSilenceTimeout_silent hlive hsilent,
      fun loss trains htrain htakes => execLinkTrainDone_trains htrain rfl htakes,
      fun hdown hmay hdue => execLinkTrainRetry_due hdown hmay hdue, fun hup htimed hroom => execTimeFlitSend_up hup htimed hroom,
      fun fn hgo henabled => ⟨execPortDisable_on hgo henabled, execRetrain_enabled hgo henabled⟩,
      fun fn hgo hdisabled => execPortDisable_off hgo hdisabled⟩,
    fun s hruns => ⟨fun hstage hother hsilent hbackup => execTimeMasterTimeout_backup hruns hstage hother hsilent hbackup,
      execPpsEdge_shown hruns, execPpsTimeout_shown hruns⟩,
    fun s => ⟨rfl, rfl, fun fn mask hgo => ⟨execBypassClose_go hgo mask, execBypassRelease_go hgo mask⟩⟩,
    fun s ctx tag x hlate => execCollStallTimeout_late hlate,
    fun s ctx group rank dev g hgroup hrank hdev => execMemberRewrite_changes hgroup hrank hdev⟩

end Sys2Proof.Machine
end

section
/-! SUPPORT. The cipher (R424, R562): a sealed plaintext opens, and a ciphertext with another tag does not. -/

namespace Sys2Proof.Machine

variable (key iv aad : List Byte)

@[simp] theorem length_gcmTagOf (ct : List Byte) : (gcmTagOf key iv aad ct).length = 16 :=
  List.length_reverse.trans (length_leBytes ..)

@[simp] theorem length_gcmMask (bytes : List Byte) : (gcmMask key iv bytes).length = bytes.length := by simp [gcmMask]

/-- Two passes under one key stream give the bytes back. -/
theorem gcmMask_gcmMask (bytes : List Byte) : gcmMask key iv (gcmMask key iv bytes) = bytes := by
  refine List.ext_getElem (by simp) fun i _ _ => ?_
  simp [gcmMask]

theorem length_gcmSeal (plain : List Byte) : (gcmSeal key iv aad plain).length = plain.length + 16 := by simp [gcmSeal]

/-- A ciphertext opens by its last 16 bytes alone. -/
theorem gcmOpen_append (ct tag : List Byte) (htag : tag.length = 16) :
    gcmOpen key iv aad (ct ++ tag) = if tag = gcmTagOf key iv aad ct then some (gcmMask key iv ct) else none := by
  have hlen : (ct ++ tag).length - 16 = ct.length := by simp [htag]
  have hlong : 16 ≤ (ct ++ tag).length := by simp [htag]
  simp only [gcmOpen, hlen, List.take_left, List.drop_left, hlong, true_and]

/-- Settles O50: what seals and opens is one key stream, and the tag is compared whole. -/
theorem sealOpens : Obligations.SealOpens := by
  refine fun key iv aad plain => ⟨?opens, length_gcmSeal .., fun ct tag hlen hne => ?other⟩
  case opens => rw [gcmSeal, gcmOpen_append _ _ _ _ _ (length_gcmTagOf ..), if_pos rfl, gcmMask_gcmMask]
  case other => rw [gcmOpen_append _ _ _ _ _ hlen, if_neg hne]

end Sys2Proof.Machine
end

section
/-! SUPPORT. The mailboxes (R519 to R526) and the driver session (R535 to R538): a message in order is served, and what a response leaves as it was. -/

namespace Sys2Proof.Machine

variable {s : State}

-- # A message in order (R522, R525)

/-- A message in order has its effect. -/
theorem message_served {fn id stage : Nat} (hin : s.messageIn fn id stage) {pf : Bool} (hpf : pf = true → fn = 0) (f : State → State) :
    s.message fn id pf stage none none f = f s := by
  obtain ⟨hbusy, hid, hstage, hhead, hruns, hscan⟩ := hin
  have hwaits : (!s.mbxBusy fn || s.headField fn 6 2 != id || s.restarting || s.secure.scanned) = false := by
    simp [hbusy, hid, hruns, hscan]
  have hmay : (pf && fn != 0) = false := by
    cases pf with
    | false => rfl
    | true => simp [hpf rfl]
  simp [State.message, hwaits, hmay, Nat.not_lt.mpr hstage, hhead]

/-- A message to the physical function whose fields are in order. -/
theorem message_served_pf {id stage : Nat} (hin : s.messageIn 0 id stage) {deny : Option (State → State)} (hdeny : deny = none)
    {bad : Option Nat} (hbad : bad = none) (f : State → State) : s.message 0 id true stage deny bad f = f s := by
  rw [hdeny, hbad, message_served hin (fun _ => rfl)]

/-- The session's token denies nothing. -/
theorem needToken_good {fn : Nat} (h : s.tokenGood fn = true) : s.needToken fn = none := if_pos h

-- # A response (R521, R524)

/-- The second state has the firmware, the keys, the event rings and the memories of the first, and is quiesced where the first is. -/
structure State.responded (s t : State) : Prop where
  firmware : t.firmware = s.firmware
  secure : t.secure = s.secure
  quiesce : t.quiesce = s.quiesce
  rings : t.rings = s.rings
  mem : t.mem = s.mem
  host : t.host = s.host

theorem State.responded.trans {s t u : State} (h : s.responded t) (h' : t.responded u) : s.responded u :=
  ⟨h'.firmware.trans h.firmware, h'.secure.trans h.secure, h'.quiesce.trans h.quiesce, h'.rings.trans h.rings, h'.mem.trans h.mem,
    h'.host.trans h.host⟩

theorem msix_responded (s : State) (fn vector : Nat) : s.responded (s.msix fn vector) := by
  unfold State.msix
  split <;> exact ⟨rfl, rfl, rfl, rfl, rfl, rfl⟩

/-- The mailbox serves its request no longer. -/
def State.unserved (s : State) (fn : Nat) : State := { s with serving := NMap.erase s.serving fn }

theorem fld_unserved (s : State) (fn : Nat) (f : Field) (i : Nat) : (s.unserved fn).fld f i = s.fld f i := rfl

/-- The response stands: DONE, and the mailbox is free. -/
def State.mbxShown (s : State) (fn : Nat) : State :=
  (((s.setFld F.MBX_STATUS_DONE fn 1).setFld F.MBX_STATUS_BUSY fn 0).setFld F.MBX_STATUS_SEQ fn (s.headField fn 8 4)).unserved fn

theorem mbxDone_eq (s : State) (fn : Nat) : s.mbxDone fn =
    (s.mbxShown fn).when ((s.mbxShown fn).flag F.MBX_IRQ_IRQ_EN fn) fun t => t.msix fn (t.fld F.MBX_IRQ_VECTOR fn) := rfl

theorem mbxShown_responded (s : State) (fn : Nat) : s.responded (s.mbxShown fn) := ⟨rfl, rfl, rfl, rfl, rfl, rfl⟩

theorem mbxDone_responded (s : State) (fn : Nat) : s.responded (s.mbxDone fn) := by
  rw [mbxDone_eq, State.when]
  split
  · exact (mbxShown_responded s fn).trans (msix_responded ..)
  · exact mbxShown_responded s fn

/-- The response is written, and noted for a repeat of the request. -/
def State.responseWritten (s : State) (fn status detail : Nat) (fields : List Byte) : State :=
  let word := leBytes 2 status ++ leBytes 2 0 ++ leBytes 4 detail
  let m := mbxMessage (s.fld F.MBX_VERSION_MINOR fn) (s.headField fn 6 2) (s.headField fn 8 4) (word ++ if status = St.ok then fields else [])
  { s with
    response := memWrite s.response (4096 * fn) m
    answered := NMap.set s.answered fn (s.headField fn 8 4, s.headField fn 28 4) }

theorem respond_eq (s : State) (fn status detail : Nat) (fields : List Byte) :
    s.respond fn status detail fields = (s.responseWritten fn status detail fields).mbxDone fn := rfl

theorem respond_responded (s : State) (fn status detail : Nat) (fields : List Byte) : s.responded (s.respond fn status detail fields) := by
  have hwritten : s.responded (s.responseWritten fn status detail fields) := ⟨rfl, rfl, rfl, rfl, rfl, rfl⟩
  exact hwritten.trans (mbxDone_responded ..)

/-- A response changes no register but its MBX_STATUS. -/
theorem fld_respond {f : Field} (hf : f.reg ≠ .MBX_STATUS) {fn i : Nat} (hfn : fn < 1048576) (hi : i < 1048576) (s : State) (status detail : Nat)
    (fields : List Byte) : (s.respond fn status detail fields).fld f i = s.fld f i := by
  have hset (t : State) {g : Field} (hg : g.reg = .MBX_STATUS) (v : Nat) : (t.setFld g fn v).fld f i = t.fld f i :=
    fld_setFld_reg t v (RegName.key_ne hi hfn (by rw [hg]; exact hf))
  have hshown (t : State) : (t.mbxShown fn).fld f i = t.fld f i := by
    rw [State.mbxShown, fld_unserved, hset _ rfl, hset _ rfl, hset _ rfl]
  have hwritten : (s.responseWritten fn status detail fields).fld f i = s.fld f i := rfl
  rw [respond_eq, mbxDone_eq]
  exact (State.when_keeps _ (fun t => t.fld f i) fun t => congrArg f.of (reg_msix ..)).trans ((hshown _).trans hwritten)

-- # The driver session (R535 to R538)

/-- The state of a session during orphan hold once its driver has come back with the token. -/
def State.holdEnded (s : State) : State :=
  let t := s.raise .device 0x0808 0 0 ((s.now - s.firmware.session.held) / ms)
  (t.modSession fun x => { x with beat := t.now }).setFld F.HIF_STATUS_DRIVER 0 0

section
variable (hin : s.messageIn 0 0x0010 3) (hforce : s.reqField 0 40 1 < 2) (hres : s.reservedBad 0 41 7 = none)
include hin hforce hres

/-- DRIVER_ATTACH in order, where a session that stands has its token or is forced to end. -/
theorem execDriverAttach_served
    (hmay : ((s.driver == 0 || s.driver == 2) && !s.tokenGood 0 && !(s.reqField 0 40 4).testBit 0) = false) :
    exec (.driverAttach 0) s = .next (
      if !(s.driver == 0 || s.driver == 2) then s.openSession.attached 0
      else if !s.tokenGood 0 then s.shutdown true
      else if s.driver = 2 then s.holdEnded.attached 0 else s.attached 0) := by
  refine congrArg Host.Outcome.next (message_served_pf hin ?_ ?_ _)
  · exact if_neg (Bool.eq_false_iff.mp hmay)
  · exact (if_neg (Nat.not_le.mpr hforce)).trans hres

theorem execDriverAttach_new (hfree : s.driver ≠ 0) (hnoHold : s.driver ≠ 2) :
    exec (.driverAttach 0) s = .next (s.openSession.attached 0) := by
  rw [execDriverAttach_served hin hforce hres] <;> simp [hfree, hnoHold]

theorem execDriverAttach_again (hdriver : s.driver = 0) (htoken : s.tokenGood 0 = true) : exec (.driverAttach 0) s = .next (s.attached 0) := by
  rw [execDriverAttach_served hin hforce hres] <;> simp [hdriver, htoken]

theorem execDriverAttach_held (hdriver : s.driver = 2) (htoken : s.tokenGood 0 = true) :
    exec (.driverAttach 0) s = .next (s.holdEnded.attached 0) := by
  rw [execDriverAttach_served hin hforce hres] <;> simp [hdriver, htoken]

theorem execDriverAttach_forced (hdriver : s.driver = 0 ∨ s.driver = 2) (htoken : s.tokenGood 0 = false)
    (hbit : (s.reqField 0 40 4).testBit 0 = true) : exec (.driverAttach 0) s = .next (s.shutdown true) := by
  rw [execDriverAttach_served hin hforce hres] <;> rcases hdriver with h | h <;> simp [h, htoken, hbit]

end

theorem driver_attached (s : State) : (s.attached 0).driver = s.driver := fld_respond (by decide) (by decide) (by decide) ..

theorem holdEnded_driver (s : State) : s.holdEnded.driver = 0 := fld_setFld_self _ F.HIF_STATUS_DRIVER (by decide) ..

theorem holdEnded_fatal (s : State) : s.holdEnded.flag F.HIF_STATUS_FATAL 0 = s.flag F.HIF_STATUS_FATAL 0 := by
  have hraise := fld_raise_device s (f := F.HIF_STATUS_FATAL) (by decide) (i := 0) (by decide) 0x0808 0 0
    ((s.now - s.firmware.session.held) / ms)
  exact congrArg (· != 0)
    ((fld_setFld_below _ (f := F.HIF_STATUS_DRIVER) (g := F.HIF_STATUS_FATAL) rfl (by decide) (by decide) 0 0).trans hraise)

/-- The session goes on with its token, its watchdog armed now; a quiesce and a SCAN stay as they were. -/
theorem holdEnded_keeps (s : State) : s.holdEnded.firmware.session = { s.firmware.session with beat := s.now } ∧
    s.holdEnded.quiesce = s.quiesce ∧ s.holdEnded.secure = s.secure := by
  unfold State.holdEnded
  rw [raise_told s .device 0x0808 0 0 ((s.now - s.firmware.session.held) / ms)]
  exact ⟨rfl, rfl, rfl⟩

/-- The device fetches commands once the hold is over, where nothing else holds it. -/
theorem dispatches_attached (hfatal : s.flag F.HIF_STATUS_FATAL 0 = false) (hquiet : s.quiesce = false) (hscan : s.secure.scanned = false) :
    (s.holdEnded.attached 0).dispatches = true := by
  have hresponse : s.holdEnded.responded (s.holdEnded.attached 0) := respond_responded ..
  obtain ⟨-, hquiesce', hsecure'⟩ := holdEnded_keeps s
  have hdriver : (s.holdEnded.attached 0).fld F.HIF_STATUS_DRIVER 0 = 0 := (driver_attached _).trans (holdEnded_driver s)
  have hfatal' : (s.holdEnded.attached 0).flag F.HIF_STATUS_FATAL 0 = false :=
    (congrArg (· != 0) (fld_respond (by decide) (by decide) (by decide) ..)).trans ((holdEnded_fatal s).trans hfatal)
  rw [State.dispatches, hdriver, hfatal', hresponse.quiesce, hquiesce', hquiet, hresponse.secure, hsecure', hscan]
  rfl

/-- Settles O59: what ends the hold is `holdEnded`, and the answer touches none of it. -/
theorem orphanHoldEnds : Obligations.OrphanHoldEnds := by
  intro s hin hforce hres hdriver htoken
  have hscan : s.secure.scanned = false := hin.2.2.2.2.2
  have hresponse : s.holdEnded.responded (s.holdEnded.attached 0) := respond_responded ..
  obtain ⟨hsession, -⟩ := holdEnded_keeps s
  have hsession' : (s.holdEnded.attached 0).firmware.session = { s.firmware.session with beat := s.now } :=
    (congrArg Firmware.session hresponse.firmware).trans hsession
  exact ⟨_, execDriverAttach_held hin hforce hres hdriver htoken, (driver_attached _).trans (holdEnded_driver s),
    (congrArg Session.beat hsession').trans rfl, (congrArg Session.token hsession').trans rfl, fun hfatal hquiet => dispatches_attached hfatal hquiet hscan,
    _, rfl, hresponse.rings, hresponse.mem, hresponse.host⟩

-- # The other messages (Table 15-3)

section
variable (htoken : s.tokenGood 0 = true)
include htoken

theorem execDriverDetach_served (hin : s.messageIn 0 0x0011 3) : exec (.driverDetach 0) s =
    .next (((s.modSession fun x => { x with token := none }).setFld F.HIF_STATUS_DRIVER 0 1).respond 0 St.ok 0 []) :=
  congrArg Host.Outcome.next (message_served_pf hin (needToken_good htoken) rfl _)

theorem execSetOrphan_served (hin : s.messageIn 0 0x0012 3) (hlow : 10 ≤ s.reqField 0 40 4) (hhigh : s.reqField 0 40 4 ≤ 86400)
    (hres : s.reservedBad 0 44 4 = none) : exec (.setOrphan 0) s =
      .next ((s.modSession fun x => { x with orphan := s.reqField 0 40 4 }).respond 0 St.ok 0 []) := by
  have hfits : ¬ (s.reqField 0 40 4 < 10 ∨ 86400 < s.reqField 0 40 4) := by omega
  exact congrArg Host.Outcome.next (message_served_pf hin (needToken_good htoken) ((if_neg hfits).trans hres) _)

theorem execFwStage_served (hin : s.messageIn 0 0x0020 3) (hpos : 0 < s.reqField 0 48 4) (hmax : s.reqField 0 48 4 ≤ 48 * 1048576)
    (hres : s.reservedBad 0 52 4 = none) (hidle : s.firmware.staging = none) : exec (.fwStage 0) s =
      .next ((s.beginStage (s.reqField 0 40 8) (s.reqField 0 48 4)).respond 0 St.ok 0 (leBytes 1 s.spareSlot ++ leBytes 7 0)) := by
  have hfits : ¬ (s.reqField 0 48 4 = 0 ∨ bundleMax < s.reqField 0 48 4) := not_or.mpr ⟨Nat.ne_of_gt hpos, Nat.not_lt.mpr hmax⟩
  refine congrArg Host.Outcome.next ((message_served_pf hin (needToken_good htoken) ((if_neg hfits).trans hres) _).trans (if_neg ?_))
  simp [hidle]

theorem execFwActivate_served (hin : s.messageIn 0 0x0021 6) (hslot : s.activatable (s.reqField 0 40 1) = true)
    (hflags : s.reqField 0 41 1 = 0) (hidle : s.firmware.act = none)
    (hwait : s.reqField 0 44 4 = 0 ∨ (100 ≤ s.reqField 0 44 4 ∧ s.reqField 0 44 4 ≤ 600000)) : exec (.fwActivate 0) s =
      .next ((s.beginActivation (s.reqField 0 40 1) (if s.reqField 0 42 2 = 0 then 600 else s.reqField 0 42 2)
        (if s.reqField 0 44 4 = 0 then 10000 else s.reqField 0 44 4)).respond 0 St.ok 0 []) := by
  have hfits : ¬ (s.reqField 0 44 4 ≠ 0 ∧ (s.reqField 0 44 4 < 100 ∨ 600000 < s.reqField 0 44 4)) := by omega
  refine congrArg Host.Outcome.next ((message_served_pf hin (needToken_good htoken) ?_ _).trans (if_neg ?_))
  · exact (if_neg (by simp [hslot])).trans ((if_neg (not_not_intro hflags)).trans (if_neg hfits))
  · simp [hidle]

theorem execDiagRun_served (hin : s.messageIn 0 0x0030 3) (hidle : s.firmware.diag = none) (hlow : 1 ≤ s.reqField 0 40 4)
    (hhigh : s.reqField 0 40 4 ≤ 4) (hport : s.reqField 0 40 4 = 3 → s.reqField 0 44 4 ≤ 6)
    (hstack : s.reqField 0 40 4 = 4 → s.reqField 0 44 4 ≤ 11) (hctx : 3 ≤ s.reqField 0 40 4 → s.anyCtxOn = false) : exec (.diagRun 0) s =
      .next (({ s with firmware := { s.firmware with diag := some (s.reqField 0 40 4, s.reqField 0 44 4) } } : State).respond 0 St.ok 0 []) := by
  have hknown : ¬ (s.reqField 0 40 4 = 0 ∨ 4 < s.reqField 0 40 4) := by omega
  have hunit : ¬ ((s.reqField 0 40 4 = 3 ∧ 6 < s.reqField 0 44 4) ∨ (s.reqField 0 40 4 = 4 ∧ 11 < s.reqField 0 44 4)) := by omega
  refine congrArg Host.Outcome.next ((message_served_pf hin (needToken_good htoken) ((if_neg hknown).trans (if_neg hunit)) _).trans (if_neg ?_))
  simpa [hidle] using hctx

end

/-- Settles O40, message by message. That an attached driver's ATTACH with the current token goes on also where FORCE is 1 is the model's choice
(log 57). -/
theorem mailboxMessages : Obligations.MailboxMessages := by
  unfold Obligations.MailboxMessages
  refine ⟨fun s fn => ⟨?version, ?telemetry⟩, fun s => ⟨?query, ?attach, fun htoken => ⟨?detach, ?orphan, ?stage, ?activate, ?diag⟩⟩⟩
  case version => exact fun hin => congrArg Host.Outcome.next (message_served hin (fun h => absurd h Bool.false_ne_true) _)
  case telemetry => exact fun hin => congrArg Host.Outcome.next (message_served hin (fun h => absurd h Bool.false_ne_true) _)
  case query => exact fun hin => congrArg Host.Outcome.next (message_served_pf hin rfl rfl _)
  case attach =>
    exact fun hin hforce hres => ⟨execDriverAttach_new hin hforce hres, execDriverAttach_again hin hforce hres,
      execDriverAttach_held hin hforce hres, execDriverAttach_forced hin hforce hres⟩
  case detach => exact execDriverDetach_served htoken
  case orphan => exact execSetOrphan_served htoken
  case stage => exact execFwStage_served htoken
  case activate => exact execFwActivate_served htoken
  case diag => exact execDiagRun_served htoken

end Sys2Proof.Machine
end

section
/-! SUPPORT. What the firmware does later (R526 to R538): staging, the steps of an activation, the driver's watchdog, orphan hold, diagnostics, and
what it serves to the board management controller. -/

namespace Sys2Proof.Machine

variable {s : State}

-- # Activation (R530 to R533)

/-- A test that passes on the value, where there is one. -/
theorem elim_decide_of_forall {α : Type} {o : Option α} {p : α → Prop} [DecidablePred p] (h : ∀ a, o = some a → p a) :
    (o.elim true fun a => decide (p a)) = true := by
  cases o with
  | none => rfl
  | some a => exact decide_eq_true (h a rfl)

section
variable {a : Activation} (hact : s.firmware.act = some a)
include hact

/-- No cause has been active for a second: quiesce begins. -/
theorem execActivationClearWait_clear (hstep : a.step = 1) (hcauses : s.causes = 0) (hclear : ∀ t, s.beganAt clearTimer 0 = some t → t + sec ≤ s.now) :
    exec .activationClearWait s = .next ({ s.setAct (some { a with step := 2, quiesced := s.now }) with quiesce := true }) := by
  change execActivationClearWait s = _
  rw [execActivationClearWait, hact]
  exact if_pos ⟨hstep, hcauses, elim_decide_of_forall hclear⟩

theorem execActivationQuiesced_quiet (hstep : a.step = 2) (hquiet : s.quiet = true) :
    exec .activationQuiesced s = .next (s.setAct (some { a with step := 5, released := s.now })) := by
  change execActivationQuiesced s = _
  rw [execActivationQuiesced, hact]
  exact if_pos ⟨hstep, hquiet⟩

theorem execActivationQuiesceTimeout_due (hstep : a.step = 2) (hdue : a.quiesced + a.wait ≤ s.now) :
    exec .activationQuiesceTimeout s = .next (s.abandonAct a 2) := by
  change execActivationQuiesceTimeout s = _
  rw [execActivationQuiesceTimeout, hact]
  exact if_pos ⟨hstep, hdue⟩

theorem execActivationDeferTimeout_due (hstep : a.step ≤ 2) (hdue : a.accepted + a.maxDefer ≤ s.now) :
    exec .activationDeferTimeout s = .next (s.abandonAct a 1) := by
  change execActivationDeferTimeout s = _
  rw [execActivationDeferTimeout, hact]
  exact if_pos ⟨hstep, hdue⟩

/-- The state of a device whose firmware runs from an activated slot. -/
def State.activated (s : State) (a : Activation) : State :=
  let t := ((s.setAct none).writeDirectory (s.directory.activated a.slot)).runBundle (s.slotBytes a.slot)
  (t.raise .device 0x0803 0 a.slot ((t.now - a.accepted) / ms)).resumeDispatch

/-- Every core has reported in time: the slot is ACTIVE where its bundle still verifies. -/
theorem execActivationHealth_inTime (hstep : a.step = 5) (htime : s.now ≤ a.released + 3 * sec / 2) {u : State} {d : Option Nat}
    (hfloor : (s.activated a).raiseFloor (s.slotBytes a.slot) = (u, d)) : exec .activationHealth s =
      .next (if s.verifies (s.slotBytes a.slot) = true then d.elim u fun d => u.raise .device 0x0908 1 0 d else s) := by
  have hbody : exec .activationHealth s =
      if a.step = 5 ∧ s.verifies (s.slotBytes a.slot) = true ∧ s.now ≤ a.released + 3 * sec / 2 then
        match (s.activated a).raiseFloor (s.slotBytes a.slot) with
        | (s, some d) => .next (s.raise .device 0x0908 1 0 d)
        | (s, none) => .next s
      else .next s := by
    change execActivationHealth s = _
    rw [execActivationHealth, hact]
    rfl
  rw [hbody, hfloor]
  by_cases hverifies : s.verifies (s.slotBytes a.slot) = true
  · rw [if_pos ⟨hstep, hverifies, htime⟩, if_pos hverifies]
    cases d <;> rfl
  · rw [if_neg fun h => hverifies h.2.1, if_neg hverifies]

theorem execCoreHealthTimeout_due (core : Fin 4) (hstep : a.step = 5) (hdue : a.released + sec ≤ s.now) :
    let t := ((s.setAct none).writeDirectory (s.directory.withState a.slot 1)).raise .device 0x0806 2 a.slot (core + 1)
    exec (.coreHealthTimeout core) s =
      .next (if a.before ≤ 1 ∧ t.verifies (t.slotBytes a.before) = true then t.resumeDispatch else t.fatal) := by
  change execCoreHealthTimeout core s = _
  rw [execCoreHealthTimeout, hact]
  exact (if_pos ⟨hstep, hdue⟩).trans (apply_ite ..).symm

end

-- # Staging, diagnostics and the driver session (R526, R528, R536 to R538)

theorem execFwStageDone_staging {slot addr len : Nat} (hstaging : s.firmware.staging = some (slot, addr, len)) (readOk : Bool) :
    exec (.fwStageDone readOk) s = if readOk then .next (s.finishStage slot (memRead s.host addr len)) else .next (s.stageFails slot 1) := by
  change execFwStageDone readOk s = _
  rw [execFwStageDone, hstaging]

theorem execDiagDone_running {test p : Nat} (hdiag : s.firmware.diag = some (test, p)) (result : BitVec 32) : exec (.diagDone result) s =
    .next (({ s with firmware := { s.firmware with diag := none } } : State).raise .device 0x080F 0 test result.toNat) := by
  change execDiagDone result s = _
  rw [execDiagDone, hdiag]

-- # The board management controller (R527)

theorem execPldmFirmwareUpdate_served (hserved : s.bmcServed = true) {bundle : List Byte} (hstaging : s.firmware.staging = none)
    (hact : s.firmware.act = none) (hsome : bundle ≠ []) (hmax : bundle.length ≤ 48 * 1048576) :
    let t := (s.beginStage 0 bundle.length).finishStage s.spareSlot bundle
    exec (.pldmFirmwareUpdate bundle) s =
      .next (if t.stage = 6 ∧ t.activatable s.spareSlot = true then t.beginActivation s.spareSlot 600 10000 else t) := by
  intro t
  have hgoes : (!s.bmcServed || s.firmware.staging.isSome || s.firmware.act.isSome || bundle.isEmpty || decide (bundleMax < bundle.length)) = false := by
    have hfits : decide (bundleMax < bundle.length) = false := decide_eq_false (Nat.not_lt.mpr hmax)
    simp [hserved, hstaging, hact, hsome, hfits]
  have hboth : (decide (t.stage = 6) && t.activatable s.spareSlot) = decide (t.stage = 6 ∧ t.activatable s.spareSlot = true) := by
    rw [Bool.decide_and, Bool.decide_eq_true]
  refine (if_neg (Bool.eq_false_iff.mp hgoes)).trans (congrArg Host.Outcome.next ?_)
  change t.when (decide (t.stage = 6) && t.activatable s.spareSlot) _ = _
  rw [hboth, State.when]
  simp only [decide_eq_true_eq]

/-- Settles O41, command by command. That the cores report in one step, and that a PLDM update is staged and activated in one command, is the
model's choice (log 58). -/
theorem firmwareEvents : Obligations.FirmwareEvents := by
  unfold Obligations.FirmwareEvents
  refine ⟨fun s slot addr len hstaging => ⟨execFwStageDone_staging hstaging true, execFwStageDone_staging hstaging false⟩,
    fun s a hact => ⟨execActivationClearWait_clear hact, execActivationQuiesced_quiet hact, execActivationQuiesceTimeout_due hact,
      execActivationDeferTimeout_due hact, ?health, execCoreHealthTimeout_due hact⟩,
    fun s test p result hdiag => execDiagDone_running hdiag result, ?session,
    fun s hserved => ⟨fun q => if_pos hserved, fun bundle => execPldmFirmwareUpdate_served hserved⟩⟩
  case health => exact fun hstep htime u d hfloor => execActivationHealth_inTime hact hstep htime hfloor
  case session =>
    exact fun s htoken => ⟨fun hdriver hlate => if_pos ⟨hdriver, htoken, hlate⟩, fun hdriver hdue => if_pos ⟨hdriver, htoken, hdue⟩⟩

end Sys2Proof.Machine
end

section
/-! SUPPORT. Power and temperature (R348, R349, R539 to R546): what a period of the loop, a sample of the rails and a junction temperature show. -/

namespace Sys2Proof.Machine

variable {s : State}

-- # Fields and events

/-- A field below the one that is written stays. -/
theorem fld_setFld_above (s : State) {f g : Field} (hreg : g.reg = f.reg) (hfit : f.lo + f.width ≤ 64) (h : g.lo + g.width ≤ f.lo) (i v : Nat) :
    (s.setFld f i v).fld g i = s.fld g i := fld_setFld_apart s hfit (.inl h) hreg i v

/-- A limited event of the device changes no field outside its ring's EXC_EVQ_STATE. -/
theorem fld_raiseLimited_device (s : State) {f : Field} (hf : f.reg ≠ .EXC_EVQ_STATE) {i : Nat} (hi : i < 1048576)
    (key interval code sev source detail : Nat) : (s.raiseLimited key interval .device code sev source detail).fld f i = s.fld f i := by
  unfold State.raiseLimited
  dsimp only
  split
  · exact fld_raise_device (s.noteLimit _) hf hi ..
  · rfl

theorem raise_power (s : State) (sc : Scope) (code sev source detail : Nat) : (s.raise sc code sev source detail).power = s.power := by
  rw [raise_told s sc code sev source detail]

theorem raiseLimited_power (s : State) (key interval : Nat) (sc : Scope) (code sev source detail : Nat) :
    (s.raiseLimited key interval sc code sev source detail).power = s.power := by
  unfold State.raiseLimited
  dsimp only
  split
  · exact raise_power ..
  · rfl

-- # The power loop (R539 to R542)

theorem fTop_le (s : State) : s.fTop ≤ 2100 := by
  unfold State.fTop
  split <;> decide

/-- The next clock does not pass the highest one, and the next memory limit neither the last one nor 100 %. -/
theorem powerNext_le (f pct avg cap top : Nat) (floor : Bool) :
    (powerNext f pct avg cap top floor).1 ≤ top ∧ (powerNext f pct avg cap top floor).2 ≤ max pct 100 := by
  unfold powerNext
  repeat' split
  all_goals constructor <;> dsimp only <;> omega

/-- What a period of the power loop shows: the averages, the next clock and the next memory limit. -/
def State.loopShown (s : State) (p1 p100 f pct floor : Nat) : State :=
  let t : State := { s with power := { s.power with period := s.now / ms + 1, floor := floor } }
  (((t.setFld F.PWR_STATUS_P_1MS 0 p1).setFld F.PWR_STATUS_P_100MS 0 p100).setFld F.PWR_STATUS_F_PWR 0 f).setFld F.PWR_STATUS_MEM_PCT 0 pct

/-- What a period of the power loop reports: a clock that falls from the highest one, and a memory limit that falls. -/
def State.loopTold (s : State) (f was top cap pct wasPct : Nat) : State :=
  let t := s.when (decide (f < was) && decide (top ≤ was) && decide (f < top)) fun s => s.raiseLimited 0 sec .device 0x080A 1 0 (2 ^ 48 * f + cap)
  t.when (decide (pct < wasPct)) fun s => s.raise .device 0x080B 2 0 pct

theorem fld_loopTold (s : State) {f : Field} (hf : f.reg ≠ .EXC_EVQ_STATE) (n was top cap pct wasPct : Nat) :
    (s.loopTold n was top cap pct wasPct).fld f 0 = s.fld f 0 :=
  (State.when_keeps _ (fun t => t.fld f 0) fun t => fld_raise_device t hf (by decide) ..).trans
    (State.when_keeps _ (fun t => t.fld f 0) fun t => fld_raiseLimited_device t hf (by decide) ..)

theorem loopTold_power (s : State) (n was top cap pct wasPct : Nat) : (s.loopTold n was top cap pct wasPct).power = s.power :=
  (State.when_keeps _ State.power fun _ => raise_power ..).trans (State.when_keeps _ State.power fun _ => raiseLimited_power ..)

theorem fld_loopShown (s : State) (p1 p100 : BitVec 16) {f pct : Nat} (hf : f < 2 ^ 16) (hpct : pct < 2 ^ 8) (floor : Nat) :
    let u := s.loopShown p1.toNat p100.toNat f pct floor
    u.fld F.PWR_STATUS_P_1MS 0 = p1.toNat ∧ u.fld F.PWR_STATUS_P_100MS 0 = p100.toNat ∧ u.fld F.PWR_STATUS_F_PWR 0 = f ∧
      u.fld F.PWR_STATUS_MEM_PCT 0 = pct := by
  simp (disch := decide) only [State.loopShown, fld_setFld_below, fld_setFld_self]
  exact ⟨Nat.mod_eq_of_lt p1.isLt, Nat.mod_eq_of_lt p100.isLt, Nat.mod_eq_of_lt hf, Nat.mod_eq_of_lt hpct⟩

/-- A period of the loop: its limits are shown and told, and OVER_POWER is judged. -/
theorem execPowerControlPeriod_due {p1 p100 : BitVec 16} (hruns : s.inReset = false) (hstage : 3 ≤ s.stage) (hms : s.now % ms = 0)
    (hdue : s.power.period ≤ s.now / ms) :
    let floor := if s.fld F.PWR_STATUS_F_PWR 0 = 800 then s.power.floor + 1 else 0
    let cap := s.stagedFld F.PWR_CAP_CAP_W 0 .power
    let next := powerNext (s.fld F.PWR_STATUS_F_PWR 0) (s.fld F.PWR_STATUS_MEM_PCT 0) p1.toNat cap s.fTop (decide (10 ≤ floor))
    let u := (s.loopShown p1.toNat p100.toNat next.1 next.2 floor).loopTold next.1 (s.fld F.PWR_STATUS_F_PWR 0) s.fTop cap next.2
      (s.fld F.PWR_STATUS_MEM_PCT 0)
    exec (.powerControlPeriod p1 p100) s =
      .next (if 2600 < p1.toNat then u.setCause 4 true else if p1.toNat < 2300 then u.setCause 4 false else u).showBound := by
  have hgoes : (s.inReset || decide (s.stage < 3) || s.now % ms != 0 || decide (s.now / ms < s.power.period)) = false := by
    simp [hruns, hms, Nat.not_lt.mpr hstage, Nat.not_lt.mpr hdue]
  exact if_neg (Bool.eq_false_iff.mp hgoes)

-- # The rails (R544)

/-- What a sample shows of one rail. -/
def State.railShown (alert : Bool) (s : State) (x : (BitVec 16 × BitVec 16 × BitVec 16 × Bool) × Nat) : State :=
  let s := (s.setFld F.PWR_RAIL_VOUT x.2 x.1.1.toNat).setFld F.PWR_RAIL_IOUT x.2 x.1.2.1.toNat
  (s.setFld F.PWR_RAIL_PIN x.2 x.1.2.2.1.toNat).setFld F.PWR_RAIL_WARN x.2 (b2n (alert && x.1.2.2.2))

/-- The fields of a rail in a state. -/
def State.showsRail (s : State) (alert : Bool) (k : Nat) (r : BitVec 16 × BitVec 16 × BitVec 16 × Bool) : Prop :=
  s.fld F.PWR_RAIL_VOUT k = r.1.toNat ∧ s.fld F.PWR_RAIL_IOUT k = r.2.1.toNat ∧
    s.fld F.PWR_RAIL_PIN k = r.2.2.1.toNat ∧ s.flag F.PWR_RAIL_WARN k = (alert && r.2.2.2)

theorem railShown_showsRail (alert : Bool) (s : State) (r : BitVec 16 × BitVec 16 × BitVec 16 × Bool) (k : Nat) :
    (s.railShown alert (r, k)).showsRail alert k r := by
  simp (disch := decide) only [State.railShown, State.showsRail, State.flag, fld_setFld_below, fld_setFld_self]
  refine ⟨Nat.mod_eq_of_lt r.1.isLt, Nat.mod_eq_of_lt r.2.1.isLt, Nat.mod_eq_of_lt r.2.2.1.isLt, ?_⟩
  cases alert && r.2.2.2 <;> rfl

theorem reg_railShown_other (alert : Bool) (s : State) (x : (BitVec 16 × BitVec 16 × BitVec 16 × Bool) × Nat) {k : Nat} (hk : k ≠ x.2) :
    (s.railShown alert x).reg .PWR_RAIL k = s.reg .PWR_RAIL k := by
  have hset (t : State) (f : Field) (hf : f.reg = .PWR_RAIL) (v : Nat) : (t.setFld f x.2 v).reg .PWR_RAIL k = t.reg .PWR_RAIL k :=
    reg_setFld_other t v (by rw [hf]; exact fun h => hk (Nat.add_left_cancel h))
  rw [State.railShown, hset _ _ rfl, hset _ _ rfl, hset _ _ rfl, hset _ _ rfl]

/-- A sample of so many rails, the first of them numbered `n`. -/
def State.railsShown (alert : Bool) (s : State) (l : List (BitVec 16 × BitVec 16 × BitVec 16 × Bool)) (n : Nat) : State :=
  (l.zipIdx n).foldl (State.railShown alert) s

section
variable (alert : Bool) (l : List (BitVec 16 × BitVec 16 × BitVec 16 × Bool))

theorem railsShown_power (s : State) (n : Nat) : (s.railsShown alert l n).power = s.power := by
  induction l generalizing s n with
  | nil => rfl
  | cons r rest ih => exact ih (s.railShown alert (r, n)) (n + 1)

theorem reg_railsShown_below (s : State) {n k : Nat} (hk : k < n) : (s.railsShown alert l n).reg .PWR_RAIL k = s.reg .PWR_RAIL k := by
  induction l generalizing s n with
  | nil => rfl
  | cons r rest ih => exact (ih (s.railShown alert (r, n)) (Nat.lt_succ_of_lt hk)).trans (reg_railShown_other alert s (r, n) (Nat.ne_of_lt hk))

theorem showsRail_of_reg {t : State} {k : Nat} {r : BitVec 16 × BitVec 16 × BitVec 16 × Bool} (h : t.reg .PWR_RAIL k = s.reg .PWR_RAIL k)
    (hshows : s.showsRail alert k r) : t.showsRail alert k r := by
  have hfld (f : Field) (hf : f.reg = .PWR_RAIL) : t.fld f k = s.fld f k := by rw [State.fld, State.fld, hf, h]
  obtain ⟨hvout, hiout, hpin, hwarn⟩ := hshows
  exact ⟨(hfld _ rfl).trans hvout, (hfld _ rfl).trans hiout, (hfld _ rfl).trans hpin, (congrArg (· != 0) (hfld _ rfl)).trans hwarn⟩

/-- Each rail that was read is shown. -/
theorem railsShown_showsRail (s : State) (n : Nat) {k : Nat} {r : BitVec 16 × BitVec 16 × BitVec 16 × Bool} (hr : l[k]? = some r) :
    (s.railsShown alert l n).showsRail alert (n + k) r := by
  induction l generalizing s n k with
  | nil => cases hr
  | cons x rest ih =>
    cases k with
    | zero =>
      cases hr
      exact showsRail_of_reg alert (reg_railsShown_below alert rest (s.railShown alert (r, n)) (Nat.lt_succ_self n)) (railShown_showsRail ..)
    | succ k =>
      have hrest := ih (s.railShown alert (x, n)) (n + 1) hr
      rwa [Nat.add_right_comm] at hrest

end

/-- The first sample of the rails. -/
theorem execPmbAlertSample_first (hruns : s.inReset = false) (hfirst : s.power.sampled = none) (alert : Bool)
    (rails : List (BitVec 16 × BitVec 16 × BitVec 16 × Bool)) : exec (.pmbAlertSample alert rails) s =
      .next (({ s with power := { s.power with sampled := some s.now } } : State).railsShown alert (rails.take 16) 0).vrFault := by
  have hgoes : (s.inReset || s.power.sampled.elim false fun t => decide (s.now < t + 100000)) = false := by rw [hruns, hfirst]; rfl
  exact if_neg (Bool.eq_false_iff.mp hgoes)

-- # Junctions (R349, R546)

theorem dieLimit_lt (tj : Nat) : dieLimit tj < 2 ^ 16 := by
  unfold dieLimit
  split
  · decide
  · split <;> omega

theorem execDieThrottleUpdate_shows (hruns : s.inReset = false) (d : Fin 4) (tj : BitVec 12) : ∃ u : State,
    exec (.dieThrottleUpdate d tj) s = .next (u.setTj d tj.toNat).showBound ∧ u.fld F.PWR_DIE_THERM_F_THERM d = dieLimit tj.toNat := by
  refine ⟨_, if_neg (by rw [hruns]; decide), ?_⟩
  refine (State.when_keeps _ (fun t => t.fld F.PWR_DIE_THERM_F_THERM d) fun t => fld_raiseLimited_device t (by decide) (by omega) ..).trans ?_
  exact (fld_setFld_self s F.PWR_DIE_THERM_F_THERM (by decide) ..).trans (Nat.mod_eq_of_lt (dieLimit_lt _))

/-- A source at its trip temperature trips. -/
theorem execThermalTrip_hot (hruns : s.inReset = false) {source temp : BitVec 8}
    (hhot : (source.toNat ≤ 4 ∧ 115 ≤ temp.toNat) ∨ (16 ≤ source.toNat ∧ source.toNat < 28 ∧ 105 ≤ temp.toNat)) :
    exec (.thermalTrip source temp) s = .next (s.thermTrip source.toNat temp.toNat) := by
  refine if_pos ?_
  rw [hruns]
  simp only [Bool.not_false, Bool.true_and, Bool.or_eq_true, Bool.and_eq_true, decide_eq_true_eq]
  rwa [and_assoc]

/-- Settles O31, command by command. -/
theorem powerCommands : Obligations.PowerCommands := by
  unfold Obligations.PowerCommands
  refine ⟨?loop, ?rails, fun s hruns => ?signals⟩
  case loop =>
    intro s p1 p100 hruns hstage hms hdue floor next
    obtain ⟨hclock, hmem⟩ := powerNext_le (s.fld F.PWR_STATUS_F_PWR 0) (s.fld F.PWR_STATUS_MEM_PCT 0) p1.toNat
      (s.stagedFld F.PWR_CAP_CAP_W 0 .power) s.fTop (decide (10 ≤ floor))
    have hpct : s.fld F.PWR_STATUS_MEM_PCT 0 < 2 ^ 8 := s.fld_lt F.PWR_STATUS_MEM_PCT 0
    obtain ⟨h1, h100, hf, hm⟩ := fld_loopShown s p1 p100 (f := next.1) (pct := next.2)
      (Nat.lt_of_le_of_lt (hclock.trans (fTop_le s)) (by decide)) (Nat.lt_of_le_of_lt hmem (by omega)) floor
    have htold {f : Field} (hreg : f.reg ≠ .EXC_EVQ_STATE) := fld_loopTold (s.loopShown p1.toNat p100.toNat next.1 next.2 floor) hreg
    exact ⟨_, execPowerControlPeriod_due hruns hstage hms hdue, (htold (by decide) ..).trans h1, (htold (by decide) ..).trans h100,
      (htold (by decide) ..).trans hf, (htold (by decide) ..).trans hm, congrArg PowerRest.period (loopTold_power ..),
      congrArg PowerRest.floor (loopTold_power ..)⟩
  case rails =>
    intro s alert rails hruns hfirst
    refine ⟨_, execPmbAlertSample_first hruns hfirst alert rails, congrArg PowerRest.sampled (railsShown_power ..), fun k r hr => ?_⟩
    have hshown := railsShown_showsRail alert (rails.take 16) ({ s with power := { s.power with sampled := some s.now } } : State) 0 hr
    rwa [Nat.zero_add] at hshown
  case signals =>
    have hgo : ¬ s.inReset = true := by rw [hruns]; decide
    exact ⟨if_neg hgo, if_neg hgo, if_neg hgo, if_neg hgo, fun tj => if_neg hgo, execDieThrottleUpdate_shows hruns,
      fun source temp hhot => execThermalTrip_hot hruns hhot⟩

end Sys2Proof.Machine
end

section
/-! SUPPORT. The SPDM responder and IDE (R552 to R554, R560), keys, alarms and field access (R555 to R559, R564, R567, R568), and the TAP (R566). -/

namespace Sys2Proof.Machine

variable {s : State}

-- # The SPDM responder (R552 to R554)

/-- A request in its order is served. -/
theorem spdmServe_on (hon : s.spdmOn = true) {phase : Nat} (hphase : phase ≤ s.secure.spdm.phase) (f : State → State) :
    s.spdmServe phase f = f s := by
  rw [State.spdmServe, hon]
  exact if_neg (Nat.not_lt.mpr hphase)

section
variable (hon : s.spdmOn = true) (hphase : 3 ≤ s.secure.spdm.phase)
include hon hphase

/-- The two chains that the responder holds are in slots 0 and 1. -/
theorem spdmServe_slot {slot : Fin 8} (hslot : slot.val < 2) (f : State → State) :
    (s.spdmServe 3 fun s => if 2 ≤ slot.val then s.spdmError else f s) = f s := by
  rw [spdmServe_on hon hphase]
  exact if_neg (Nat.not_le.mpr hslot)

/-- A request of an open session. -/
theorem spdmServe_session {session : BitVec 32} (hopen : s.spdmSession session.toNat true = true) (f : State → State) :
    (s.spdmServe 3 fun s => if s.spdmSession session.toNat true then f s else s.spdmError) = f s := by
  rw [spdmServe_on hon hphase]
  exact if_pos hopen

theorem execSpdmKeyExchange_free {slot : Fin 8} (hslot : slot.val < 2) (exchange : List Byte) {id : Nat}
    (hroom : s.secure.spdm.sessions.length < 4)
    (hid : (List.range 5).find? (fun k => !s.secure.spdm.sessions.any fun x => x.1 == k) = some id) :
    exec (.spdmKeyExchange slot exchange) s = .next ((s.modSpdm fun x => { x with sessions := x.sessions ++ [(id, false)] }).spdmReply
      SpdmCode.keyExchangeRsp (leBytes 4 id ++ exchange)) := by
  have hgoes : (decide (2 ≤ slot.val) || decide (4 ≤ s.secure.spdm.sessions.length)) = false := by
    rw [decide_eq_false (Nat.not_le.mpr hslot), decide_eq_false (Nat.not_le.mpr hroom)]
    rfl
  refine congrArg Host.Outcome.next ((spdmServe_on hon hphase _).trans ((if_neg (Bool.eq_false_iff.mp hgoes)).trans ?_))
  rw [hid]
  rfl

/-- One measurement block, signed where the requester asks for it. -/
theorem execSpdmGetMeasurements_block {index : BitVec 8} (hlow : 1 ≤ index.toNat) (hhigh : index.toNat ≤ 9) (signed : Bool) (nonce : List Byte) :
    let body := leBytes 1 index.toNat ++ s.measurement index.toNat
    exec (.spdmGetMeasurements index signed nonce) s = .next (s.spdmReply SpdmCode.measurements
      (leBytes 1 9 ++ body ++ if signed then Config.aliasSign s.secDigest (body ++ nonce) else [])) := by
  have hnone : ¬ index.toNat = 0 := Nat.ne_of_gt hlow
  have hall : ¬ index.toNat = 0xFF := by omega
  have hknown : ¬ (9 < index.toNat ∧ index.toNat ≠ 0xFF) := by omega
  refine congrArg Host.Outcome.next ((spdmServe_on hon hphase _).trans ?_)
  dsimp only
  rw [if_neg hknown, if_neg hnone, if_neg hall]

theorem execSpdmFinish_verified {session : BitVec 32} (hopen : s.spdmSession session.toNat false = true) :
    exec (.spdmFinish session true) s = .next ((s.modSpdm fun x => { x with
      sessions := x.sessions.map fun y => if y.1 = session.toNat then (session.toNat, true) else y }).spdmReply SpdmCode.finishRsp []) := by
  refine congrArg Host.Outcome.next ((spdmServe_on hon hphase _).trans ((if_neg ?_).trans (if_pos rfl)))
  rw [hopen]
  decide

end

-- # IDE (R560)

/-- A TLP whose MAC verifies is taken. -/
theorem execIdeTlpReceive_verified {stream : Fin 4} {sub : Fin 3} {set : Fin 2} {iv aad sealed plain : List Byte} {k : KeySlot}
    (hkey : s.keyIn (ideSlot stream false sub set) 3 0 = some k) (hopens : gcmOpen k.key iv aad sealed = some plain) :
    exec (.ideTlpReceive stream sub set iv aad sealed) s = .next s := by
  refine if_pos ?_
  simp [hkey, hopens]

/-- A TLP that does not verify makes its stream insecure. -/
theorem execIdeTlpReceive_refused {stream : Fin 4} {sub : Fin 3} {set : Fin 2} {iv aad sealed : List Byte} (hruns : s.inReset = false)
    (hsecure : s.secure.insecure.contains stream.val = false)
    (hfails : ∀ k, s.keyIn (ideSlot stream false sub set) 3 0 = some k → gcmOpen k.key iv aad sealed = none) :
    exec (.ideTlpReceive stream sub set iv aad sealed) s =
      .next ((s.modSecure fun x => { x with insecure := stream.val :: x.insecure }).raise .device 0x090A 2 stream sub) := by
  have hbad : ((s.keyIn (ideSlot stream false sub set) 3 0).any fun k => (gcmOpen k.key iv aad sealed).isSome) = false := by
    cases hkey : s.keyIn (ideSlot stream false sub set) 3 0 with
    | none => rfl
    | some k => exact congrArg Option.isSome (hfails k hkey)
  refine if_neg ?_
  rw [hbad, hsecure, hruns]
  decide

/-- The slot of a key for what a stream receives. -/
theorem ideSlot_receive (stream sub set : Nat) : ideSlot stream false sub set = 4032 + 12 * stream + 2 * sub + set := rfl

/-- Settles O42, request by request. The codes and the order of SPDM (log 23), the least free session number (log 62), and that no event is told of
a key that IDE_KM installs (log 60) are the model's choices. -/
theorem spdmAndIde : Obligations.SpdmAndIde := by
  unfold Obligations.SpdmAndIde
  refine ⟨fun s hon => ⟨?version, ?capabilities, ?algorithms, fun hphase => ⟨?digests, fun slot hslot => ⟨?certificate, ?challenge, ?exchange⟩,
    ?measurements, fun session => ⟨?finish, fun hopen => ⟨?update, ?heartbeat, ?ends, ?key⟩⟩⟩⟩, fun s stream sub set iv aad sealed => ⟨?taken, ?refused⟩⟩
  case version => exact congrArg Host.Outcome.next (spdmServe_on hon (Nat.zero_le _) _)
  case capabilities => exact fun hphase => congrArg Host.Outcome.next (spdmServe_on hon hphase _)
  case algorithms => exact fun hphase => congrArg Host.Outcome.next (spdmServe_on hon hphase _)
  case digests => exact congrArg Host.Outcome.next (spdmServe_on hon hphase _)
  case certificate => exact fun offset length => congrArg Host.Outcome.next (spdmServe_slot hon hphase hslot _)
  case challenge => exact fun nonce => congrArg Host.Outcome.next (spdmServe_slot hon hphase hslot _)
  case exchange => exact fun exchange id hroom hid => execSpdmKeyExchange_free hon hphase hslot exchange hroom hid
  case measurements =>
    intro index nonce hlow hhigh body
    exact ⟨execSpdmGetMeasurements_block hon hphase hlow hhigh true nonce,
      (execSpdmGetMeasurements_block hon hphase hlow hhigh false nonce).trans
        (congrArg (fun own => Host.Outcome.next (s.spdmReply SpdmCode.measurements own)) (List.append_nil _))⟩
  case finish => exact execSpdmFinish_verified hon hphase
  case update => exact congrArg Host.Outcome.next (spdmServe_session hon hphase hopen _)
  case heartbeat => exact congrArg Host.Outcome.next (spdmServe_session hon hphase hopen _)
  case ends => exact congrArg Host.Outcome.next (spdmServe_session hon hphase hopen _)
  case key => exact fun stream tx sub set key => if_pos (by rw [hon, hopen]; rfl)
  case taken => exact fun k plain hkey hopens => execIdeTlpReceive_verified hkey hopens
  case refused => exact fun hruns hsecure hfails => execIdeTlpReceive_refused hruns hsecure hfails

-- # Keys (R557 to R559)

theorem keyCmd_go (op slot : Nat) : F.SEC_KEY_CMD_GO.of (keyCmd op slot) = 1 := by
  rw [keyCmd, Field.of_put_other (by decide) (.inr (by decide)), Field.of_put_other (by decide) (.inr (by decide)), Field.of_put _ (by decide)]
  rfl

theorem keyCmd_op {op : Nat} (hop : op < 256) (slot : Nat) : F.SEC_KEY_CMD_OP.of (keyCmd op slot) = op := by
  rw [keyCmd, Field.of_put_other (by decide) (.inr (by decide)), Field.of_put _ (by decide)]
  exact Nat.mod_eq_of_lt hop

theorem keyCmd_slot (op : Nat) (slot : BitVec 12) : F.SEC_KEY_CMD_SLOT.of (keyCmd op slot.toNat) = slot.toNat := by
  rw [keyCmd, Field.of_put _ (by decide)]
  exact Nat.mod_eq_of_lt slot.isLt

section
variable {fn : Fin 64} (hgo : s.reach fn .SEC_KEY_CMD 0 = .go) (hidle : s.flag F.SEC_KEY_STATUS_BUSY 0 = false)
include hgo hidle

theorem writeKeyCmd_load : s.writeKeyCmd fn .whole (keyCmd 1 0) = s.keyLoad := by
  rw [State.writeKeyCmd, State.reaching_go hgo]
  simp [Half.part_whole, Field.hit, keyCmd_go, keyCmd_op, hidle]

theorem writeKeyCmd_erase (slot : BitVec 12) : s.writeKeyCmd fn .whole (keyCmd 2 slot.toNat) = s.keyErase slot.toNat := by
  rw [State.writeKeyCmd, State.reaching_go hgo]
  simp [Half.part_whole, Field.hit, keyCmd_go, keyCmd_op, keyCmd_slot, hidle]

end

-- # Field access (R567, R568)

/-- A word that sets one bit of SEC_FA_CTL sets no other. -/
theorem faCtl_hits : (F.SEC_FA_CTL_CHALLENGE.hit .whole (F.SEC_FA_CTL_CHALLENGE.put 0#64 1) = true ∧
      F.SEC_FA_CTL_SUBMIT.hit .whole (F.SEC_FA_CTL_CHALLENGE.put 0#64 1) = false ∧
      F.SEC_FA_CTL_CLOSE.hit .whole (F.SEC_FA_CTL_CHALLENGE.put 0#64 1) = false) ∧
    (F.SEC_FA_CTL_CHALLENGE.hit .whole (F.SEC_FA_CTL_SUBMIT.put 0#64 1) = false ∧
      F.SEC_FA_CTL_SUBMIT.hit .whole (F.SEC_FA_CTL_SUBMIT.put 0#64 1) = true ∧
      F.SEC_FA_CTL_CLOSE.hit .whole (F.SEC_FA_CTL_SUBMIT.put 0#64 1) = false) ∧
    (F.SEC_FA_CTL_CHALLENGE.hit .whole (F.SEC_FA_CTL_CLOSE.put 0#64 1) = false ∧
      F.SEC_FA_CTL_SUBMIT.hit .whole (F.SEC_FA_CTL_CLOSE.put 0#64 1) = false ∧
      F.SEC_FA_CTL_CLOSE.hit .whole (F.SEC_FA_CTL_CLOSE.put 0#64 1) = true) := by decide

section
variable {fn : Fin 64} (hgo : s.reach fn .SEC_FA_CTL 0 = .go)
include hgo

theorem execChallenge_go : exec (.challenge fn) s = .next s.faChallenge := by
  obtain ⟨⟨hchallenge, hsubmit, hclose⟩, -, -⟩ := faCtl_hits
  refine congrArg Host.Outcome.next ((State.reaching_go hgo _).trans ?_)
  simp only [State.faCtl, hchallenge, hsubmit, hclose, State.when, if_true, Bool.false_eq_true, if_false]

theorem execSubmit_go : exec (.submit fn) s = .next s.faSubmit := by
  obtain ⟨-, ⟨hchallenge, hsubmit, hclose⟩, -⟩ := faCtl_hits
  refine congrArg Host.Outcome.next ((State.reaching_go hgo _).trans ?_)
  simp only [State.faCtl, hchallenge, hsubmit, hclose, State.when, if_true, Bool.false_eq_true, if_false]

theorem execClose_go : exec (.close fn) s = .next (s.closeScopes 0xF 2) := by
  obtain ⟨-, -, ⟨hchallenge, hsubmit, hclose⟩⟩ := faCtl_hits
  refine congrArg Host.Outcome.next ((State.reaching_go hgo _).trans ?_)
  simp only [State.faCtl, hchallenge, hsubmit, hclose, State.when, if_true, Bool.false_eq_true, if_false]

end

/-- One word of the nonce is drawn. -/
def State.drawNonce (i : Nat) (s : State) : State :=
  let (v, s) := s.draw (2 ^ 64)
  s.setReg .SEC_FA_NONCE i (BitVec.ofNat 64 v)

/-- The nonce stands, and a response to it is awaited. -/
def State.nonceDrawn (s : State) : State := (s.setFld F.SEC_FA_STATE_PENDING 0 1).modSecure fun x => { x with drawn := s.now }

/-- Each word of the nonce takes one free value, and no device time. -/
theorem each_drawNonce (s : State) (l : List Nat) :
    (s.each l State.drawNonce).draws = s.draws + l.length ∧ (s.each l State.drawNonce).now = s.now := by
  induction l generalizing s with
  | nil => exact ⟨rfl, rfl⟩
  | cons i rest ih =>
    obtain ⟨hdraws, hnow⟩ := ih (s.drawNonce i)
    have hone : (s.drawNonce i).draws = s.draws + 1 := rfl
    refine ⟨hdraws.trans ?_, hnow⟩
    rw [hone, List.length_cons]
    omega

theorem fld_modSecure (s : State) (g : Secure → Secure) (f : Field) (i : Nat) : (s.modSecure g).fld f i = s.fld f i := rfl

/-- A nonce is drawn, and a response to it is awaited. -/
theorem faChallenge_pending (hopen : s.flag F.SEC_FA_STATE_LOCKED 0 = false) :
    s.faChallenge.flag F.SEC_FA_STATE_PENDING 0 = true ∧ s.faChallenge.secure.drawn = s.now ∧ s.faChallenge.draws = s.draws + 6 := by
  obtain ⟨hdraws, hnow⟩ := each_drawNonce s (List.range 6)
  have hdrawn : s.faChallenge = (s.each (List.range 6) State.drawNonce).nonceDrawn := if_neg (Bool.eq_false_iff.mp hopen)
  rw [hdrawn]
  refine ⟨?_, hnow, hdraws⟩
  rw [State.flag, State.nonceDrawn, fld_modSecure, fld_setFld_self _ F.SEC_FA_STATE_PENDING (by decide)]
  rfl

/-- A response in time, under a key that stands, for scopes that may open. -/
theorem faSubmit_live (hpending : s.flag F.SEC_FA_STATE_PENDING 0 = true) (htime : s.now < s.secure.drawn + 60 * sec)
    (hkey : (s.fld F.SEC_STATE_FA_REVOKED 0).testBit (s.fld F.SEC_FA_REQ_KEY_IDX 0) = false)
    (hscan : (s.fld F.SEC_FA_REQ_SCOPES 0 % 16).testBit 3 = true → s.anyCtxOn = false) :
    let t := s.setFld F.SEC_FA_STATE_PENDING 0 0
    s.faSubmit = if ecdsa384 (Config.faKey (s.fld F.SEC_FA_REQ_KEY_IDX 0)) s.faStatement s.faSignature = true then
      t.openScopes (s.fld F.SEC_FA_REQ_SCOPES 0 % 16) (s.fld F.SEC_FA_REQ_MINUTES 0) else t.faRefuse true 1 := by
  intro t
  have hlive : (s.flag F.SEC_FA_STATE_PENDING 0 && decide (s.now < s.secure.drawn + 60 * sec)) = true := by
    rw [hpending, decide_eq_true htime]
    rfl
  have hother (f : Field) (hf : f.reg ≠ .SEC_FA_STATE) : t.fld f 0 = s.fld f 0 := fld_setFld_of_reg_ne s hf 0 0
  have hctx : (List.range 256).any t.ctxOn = s.anyCtxOn := by
    have hon {n : Nat} (hn : n < 1048576) : t.ctxOn n = s.ctxOn n :=
      congrArg (· != 0) (fld_setFld_reg s 0 (RegName.key_ne hn (by decide) (by decide)))
    rw [State.anyCtxOn, Bool.eq_iff_iff, List.any_eq_true, List.any_eq_true]
    refine exists_congr fun n => and_congr_right fun hn => ?_
    rw [hon (Nat.lt_of_lt_of_le (List.mem_range.mp hn) (by decide))]
  have hmay : ((s.fld F.SEC_FA_REQ_SCOPES 0 % 16).testBit 3 && s.anyCtxOn) = false := by
    cases hbit : (s.fld F.SEC_FA_REQ_SCOPES 0 % 16).testBit 3 with
    | false => rfl
    | true => rw [hscan hbit]; rfl
  unfold State.faSubmit
  dsimp only
  rw [hlive, hother _ (by decide), hkey, hctx, hmay, hother _ (by decide)]
  cases ecdsa384 (Config.faKey (s.fld F.SEC_FA_REQ_KEY_IDX 0)) s.faStatement s.faSignature <;> rfl

/-- Settles O43, command by command. That a key command is BUSY until the units that took the old key have completed (log 60), and which bits of
SCOPES name a scope and when SEC_FA_REQ is read (log 61), are the model's choices. -/
theorem keysAndFieldAccess : Obligations.KeysAndFieldAccess := by
  unfold Obligations.KeysAndFieldAccess
  refine ⟨fun s fn hgo hidle => ⟨?load, ?erase⟩, fun s slot => ⟨?emptied, ?installed⟩, ?alarm, fun s fn hgo => ⟨?challenge, ?submit, execClose_go hgo⟩,
    fun s => ⟨?nonce, ?scope⟩⟩
  case load =>
    refine congrArg Host.Outcome.next ((writeKeyCmd_load hgo hidle).trans ?_)
    unfold State.keyLoad
    dsimp only
    split <;> rename_i hblob <;> rw [hblob]
  case erase =>
    exact fun slot hslot => congrArg Host.Outcome.next ((writeKeyCmd_erase hgo hidle slot).trans (if_neg (Nat.not_le.mpr hslot)))
  case emptied =>
    intro hdue
    change execKeySlotUpdate s = _
    rw [execKeySlotUpdate, hdue]
  case installed =>
    intro k hdue
    change execKeySlotUpdate s = _
    rw [execKeySlotUpdate, hdue]
    rfl
  case alarm =>
    intro s mask corrected link t
    refine congrArg Host.Outcome.next ?_
    by_cases hmask : mask = 0
    · rw [if_pos hmask, hmask]
      rfl
    · rw [if_neg hmask]
      exact if_pos (bne_iff_ne.mpr hmask)
  case challenge => exact fun hopen => ⟨_, execChallenge_go hgo, faChallenge_pending hopen⟩
  case submit =>
    exact fun hpending htime hkey hscan => (execSubmit_go hgo).trans (congrArg Host.Outcome.next (faSubmit_live hpending htime hkey hscan))
  case nonce => exact fun hpending hlate => if_pos (by rw [hpending, decide_eq_true hlate]; rfl)
  case scope => exact fun scope till htill hover => if_pos (by rw [htill]; exact decide_eq_true hover)

-- # The TAP (R566)

/-- Settles O44: an instruction that drives the boundary cells does so in reset alone, and SEC_FA asks for nothing. That bit 0 of IDCODE is 1 is
the model's choice (log 62). -/
theorem tapCommands : Obligations.TapCommands := by
  unfold Obligations.TapCommands
  intro s
  have hdrive (i : TapInstr) : (s.inReset = true → s.tapDrive i = s.tapTo i) ∧ (s.inReset = false → s.tapDrive i = s.tapTo .bypass) :=
    ⟨fun h => by rw [State.tapDrive, h, if_pos rfl], fun h => by rw [State.tapDrive, h, if_neg Bool.false_ne_true]⟩
  refine ⟨rfl, rfl, fun cells => rfl, fun hreset => ⟨?_, ?_, ?_⟩, fun hruns => ⟨?_, ?_, ?_⟩, fun v => rfl, fun v => rfl, fun i v => rfl⟩
  · exact congrArg Host.Outcome.next ((hdrive .extest).1 hreset)
  · exact congrArg Host.Outcome.next ((hdrive .extestPulse).1 hreset)
  · exact congrArg Host.Outcome.next ((hdrive .extestTrain).1 hreset)
  · exact congrArg Host.Outcome.next ((hdrive .extest).2 hruns)
  · exact congrArg Host.Outcome.next ((hdrive .extestPulse).2 hruns)
  · exact congrArg Host.Outcome.next ((hdrive .extestTrain).2 hruns)

end Sys2Proof.Machine
end

section
/-! SUPPORT. The state of the boot through all that a change of an emergency's causes can set off, the messages of the twin that an activation held
among it (R534, R545): each operation leaves it as it was, one lemma an operation. -/

namespace Sys2Proof.Machine

-- # Changes along a list

@[simp] theorem ite_boot (c : Prop) [Decidable c] (s t : State) : (if c then s else t).boot = if c then s.boot else t.boot := apply_ite ..

@[simp] theorem each_boot {α : Type} {s : State} {l : List α} {f : α → State → State} (h : ∀ x t, (f x t).boot = t.boot) :
    (s.each l f).boot = s.boot := s.each_keeps State.boot h

/-- A pass that carries something beside the state. -/
theorem foldl_fst_boot {α β : Type} {p : State × α} {l : List β} {f : State × α → β → State × α}
    (h : ∀ q x, (f q x).1.boot = q.1.boot) : (l.foldl f p).1.boot = p.1.boot := by
  induction l generalizing p with
  | nil => rfl
  | cons x rest ih => exact (ih (p := f p x)).trans (h p x)

-- # Memories, events, steps and links

@[simp] theorem draw_boot (s : State) (n : Nat) : (s.draw n).2.boot = s.boot := by simp [State.draw]

@[simp] theorem cacheAccess_boot (s : State) (write : Bool) (hint a n : Nat) : (s.cacheAccess write hint a n).boot = s.boot := by
  simp [State.cacheAccess]

@[simp] theorem raiseLimited_boot (s : State) (key interval : Nat) (sc : Scope) (code sev source detail : Nat) :
    (s.raiseLimited key interval sc code sev source detail).boot = s.boot := by
  simp [State.raiseLimited]

@[simp] theorem outside_boot (s : State) (agent : Nat) (ctx : Option Nat) (a : Nat) : (s.outside agent ctx a).boot = s.boot := by
  unfold State.outside
  exact (raiseLimited_boot ..).trans (when_boot fun _ => rfl)

@[simp] theorem modStep_boot (s : State) (ctx : Nat) (f : Step → Step) : (s.modStep ctx f).boot = s.boot := by
  unfold State.modStep
  split <;> simp

@[simp] theorem modPort_boot (s : State) (p : Nat) (f : Port → Port) : (s.modPort p f).boot = s.boot := by simp [State.modPort]

@[simp] theorem putFlit_boot (s : State) (p : Nat) (f : Flit) (lseq : Nat) (nak : Bool) : (s.putFlit p f lseq nak).boot = s.boot := by
  simp [State.putFlit]

@[simp] theorem giveBack_boot (s : State) (came : Option (Nat × Nat)) : (s.giveBack came).boot = s.boot := by
  unfold State.giveBack
  split <;> simp

@[simp] theorem drain_boot (n : Nat) (s : State) (p : Nat) : (State.drain n s p).boot = s.boot := by
  induction n generalizing s with
  | zero => rfl
  | succ n ih =>
    unfold State.drain
    dsimp only
    repeat' split
    all_goals simp [ih, State.sendFlit]

@[simp] theorem postMir_boot (s : State) (o : Out) : (s.postMir o).boot = s.boot := by
  unfold State.postMir State.carryMir
  repeat' split
  all_goals simp [State.drainPort, State.enqueue]

@[simp] theorem modXch_boot (s : State) (ctx : Nat) (f : Xch → Xch) : (s.modXch ctx f).boot = s.boot := by simp [State.modXch]

-- # The symbol code and memory errors

@[simp] theorem writeRepairs_boot (s : State) (l : List Repair) : (s.writeRepairs l).boot = s.boot := by
  simp [State.writeRepairs, State.writeRecord]

@[simp] theorem garble_boot (s : State) (key : Nat) : (s.garble key).boot = s.boot :=
  each_boot (s := s.mend key) (f := fun i t => { (t.draw 256).2 with mem := memSet (t.draw 256).2.mem (32 * key + i) (BitVec.ofNat 8 (t.draw 256).1) })
    fun _ _ => rfl

@[simp] theorem retireAuto_boot (s : State) (ch trigger : Nat) : (s.retireAuto ch trigger).boot = s.boot := by
  have hretire : (s.retire ch trigger).boot = s.boot := by
    unfold State.retire
    dsimp only
    split <;> simp [State.noteRetired, State.addRepair]
  simp [State.retireAuto, State.retireIn, hretire]

@[simp] theorem countUe_boot (s : State) (ch : Nat) : (s.countUe ch).boot = s.boot := by
  unfold State.countUe
  dsimp only
  repeat' split
  all_goals simp

@[simp] theorem countCe_boot (s : State) (ch : Nat) : (s.countCe ch).boot = s.boot := by
  unfold State.countCe
  dsimp only
  repeat' split
  all_goals simp

@[simp] theorem decodeWord_boot (s : State) (k : Nat) : (s.decodeWord k).boot = s.boot := by
  unfold State.decodeWord
  split <;> simp [State.leaveStored, State.mend, State.poisonKey]

@[simp] theorem readReport_boot (s : State) (agent : Nat) (ctx : Option Nat) (a n : Nat) : (s.readReport agent ctx a n).1.boot = s.boot := by
  simp [State.readReport, State.readHinted, State.decodeRange, State.uncorrectable, State.poisonWord, State.poisonKey]

-- # Engine passes

@[simp] theorem showBase_boot (s : State) (st : Nat) : (s.showBase st).boot = s.boot := by
  unfold State.showBase
  dsimp only
  split <;> simp

@[simp] theorem startPasses_boot (s : State) (ks : List Nat) (ctx : Nat) (x : Shard) (kind : PassKind) :
    (s.startPasses ks ctx x kind).boot = s.boot := by
  simp [State.startPasses, State.startPass, State.checkPlanes, State.reachMemory]

@[simp] theorem startApplies_boot (s : State) (ctx r : Nat) : (s.startApplies ctx r).boot = s.boot := by
  unfold State.startApplies
  refine each_boot fun n t => ?_
  split
  · unfold State.startApply
    repeat' split
    all_goals simp
  · rfl

-- # Comparisons of a twin pair

@[simp] theorem writeParts_boot (s : State) (l : List (Nat × Nat)) (bs : List Byte) : (s.writeParts l bs).boot = s.boot := by
  induction l generalizing s bs with
  | nil => rfl
  | cons p rest ih => exact (ih ..).trans (devWrite_boot ..)

@[simp] theorem unmark_boot (s : State) (x : Shard) (b : Nat) : (s.unmark x b).boot = s.boot := by simp [State.unmark]

@[simp] theorem deriveBlock_boot (s : State) (x : Shard) (b : Nat) : (s.deriveBlock x b).boot = s.boot := by
  simp [State.deriveBlock, State.deriveElem]

@[simp] theorem endCmp_boot (s : State) (c : PairCmp) : (s.endCmp c).boot = s.boot := by simp [State.endCmp]

@[simp] theorem setCmp_boot (s : State) (c : PairCmp) : (s.setCmp c).boot = s.boot := by simp [State.setCmp]

@[simp] theorem unmended_boot (s : State) (ctx shard b : Nat) : (s.unmended ctx shard b).boot = s.boot := by simp [State.unmended]

@[simp] theorem askBlock_boot (s : State) (c : PairCmp) (x : Shard) (b : Nat) : (s.askBlock c x b).boot = s.boot := by simp [State.askBlock]

@[simp] theorem settleMirror_boot (s : State) (ctx : Nat) (x : Shard) : (s.settleMirror ctx x).boot = s.boot := by
  unfold State.settleMirror
  split
  · rfl
  · simp [State.dropCmp]

@[simp] theorem diverge_boot (s : State) (c : PairCmp) (x : Shard) (b kind : Nat) (mirror : Bool) : (s.diverge c x b kind mirror).boot = s.boot := by
  unfold State.diverge State.countDiv
  refine (when_boot fun t => setFld_boot ..).trans ?_
  repeat' split
  all_goals simp

@[simp] theorem readBlock_boot (s : State) (ctx : Nat) (x : Shard) (b : Nat) : (s.readBlock ctx x b).boot = s.boot := by simp [State.readBlock, State.touch]

@[simp] theorem sendRepair_boot (s : State) (ctx : Nat) (x : Shard) (b : Nat) : (s.sendRepair ctx x b).boot = s.boot := by simp [State.sendRepair]

@[simp] theorem compareBlock_boot (x : Shard) (a : State × PairCmp) (b : Nat) : (State.compareBlock x a b).1.boot = a.1.boot := by
  obtain ⟨s, c⟩ := a
  unfold State.compareBlock
  dsimp only
  repeat' split
  all_goals simp

@[simp] theorem compare_boot (s : State) (c : PairCmp) (x : Shard) (blocks : List Nat) : (s.compare c x blocks).boot = s.boot := by
  have hblocks : (blocks.foldl (State.compareBlock x) (s, c)).1.boot = s.boot := foldl_fst_boot fun a b => compareBlock_boot x a b
  unfold State.compare
  generalize blocks.foldl (State.compareBlock x) (s, c) = r at hblocks ⊢
  obtain ⟨t, d⟩ := r
  dsimp only at hblocks ⊢
  split <;> simp [State.confirmCopy, hblocks]

@[simp] theorem takeDigests_boot (s : State) (ctx : Nat) (x : Shard) (pass : DigestPass) (step first : Nat) (digests marks : List Nat) :
    (s.takeDigests ctx x pass step first digests marks).boot = s.boot := by
  unfold State.takeDigests
  dsimp only
  repeat' split
  all_goals simp

@[simp] theorem takeRepair_boot (s : State) (ctx : Nat) (x : Shard) (b : Nat) (bytes : List Byte) : (s.takeRepair ctx x b bytes).boot = s.boot := by
  unfold State.takeRepair
  dsimp only
  repeat' split
  all_goals simp

-- # Messages of the twin

@[simp] theorem answerHello_boot (s : State) (pst : Nat) : (s.answerHello pst).boot = s.boot := by simp [State.answerHello, State.sayHello]

@[simp] theorem serveHello_boot (s : State) (order stepping dev pos pst : Nat) : (s.serveHello order stepping dev pos pst).boot = s.boot := by
  unfold State.serveHello
  split <;> simp

@[simp] theorem serveGradient_boot (s : State) (ctx : Nat) (x : Shard) (grad gexp : List Byte) :
    (s.serveGradient ctx x grad gexp).boot = s.boot := by
  simp [State.serveGradient]

@[simp] theorem serveDelta_boot (s : State) (ctx : Nat) (x : Shard) (round : Nat) (dlt : List Nat) : (s.serveDelta ctx x round dlt).boot = s.boot := by
  simp [State.serveDelta]

@[simp] theorem serveCopy_boot (s : State) (ctx : Nat) (x : Shard) (block : Nat) (bytes : List Byte) :
    (s.serveCopy ctx x block bytes).boot = s.boot := by
  rw [State.serveCopy_eq]
  split
  · rw [when_boot, ite_boot, deriveBlock_boot, ite_self, unmark_boot, writeParts_boot]
    exact fun _ => rfl
  · rfl

theorem forShard_boot {s : State} {ctx shard : Nat} {f : Shard → State} (h : ∀ x, (f x).boot = s.boot) :
    (s.forShard ctx shard f).boot = s.boot := by
  unfold State.forShard
  split
  · cases s.shard? ctx shard with
    | none => rfl
    | some x => exact h x
  · rfl

theorem forShard_ite_boot {s : State} {ctx shard : Nat} {p : Shard → Prop} [DecidablePred p] {f : Shard → State} (h : ∀ x, (f x).boot = s.boot) :
    (s.forShard ctx shard fun x => if p x then f x else s).boot = s.boot :=
  forShard_boot fun x => (ite_boot ..).trans (by rw [h x, ite_self])

/-- A message is brought into the form of `State.forShard` by an equation of states, as in `servePair_now`. -/
@[simp] theorem servePair_boot (s : State) (m : PairMsg) : (s.servePair m).boot = s.boot := by
  cases m with
  | hello order stepping dev pos pst =>
    have heq : s.servePair (.hello order stepping dev pos pst) = if s.pairLive then s.serveHello order stepping dev pos pst else s := rfl
    rw [heq, ite_boot, serveHello_boot, ite_self]
  | gradient ctx shard grad gexp =>
    have heq : s.servePair (.gradient ctx shard grad gexp) = s.forShard ctx shard fun x => s.serveGradient ctx x grad gexp := rfl
    rw [heq, forShard_boot fun x => serveGradient_boot ..]
  | decision ctx step d =>
    unfold State.servePair
    dsimp only
    split
    · exact modStep_boot ..
    · rfl
  | delta ctx shard round dlt =>
    have heq : s.servePair (.delta ctx shard round dlt) = s.forShard ctx shard fun x => s.serveDelta ctx x round dlt := rfl
    rw [heq, forShard_boot fun x => serveDelta_boot ..]
  | digest ctx shard pass step first digests marks =>
    have heq : s.servePair (.digest ctx shard pass step first digests marks) =
        s.forShard ctx shard fun x => s.takeDigests ctx x pass step first digests marks := rfl
    rw [heq, forShard_boot fun x => takeDigests_boot ..]
  | repair ctx shard block bytes =>
    have heq : s.servePair (.repair ctx shard block bytes) = s.forShard ctx shard fun x =>
        if block < x.digestBlocks ∧ bytes.length = (s.blockBytes x block).length then s.takeRepair ctx x block bytes else s := rfl
    rw [heq]
    exact forShard_ite_boot fun x => takeRepair_boot ..
  | copy ctx shard block bytes =>
    have heq : s.servePair (.copy ctx shard block bytes) = s.forShard ctx shard fun x => s.serveCopy ctx x block bytes := rfl
    rw [heq, forShard_boot fun x => serveCopy_boot ..]

@[simp] theorem resumeDispatch_boot (s : State) : s.resumeDispatch.boot = s.boot := by simp [State.resumeDispatch]

-- # Emergencies

@[simp] theorem deferActivation_boot (s : State) : s.deferActivation.boot = s.boot := by
  unfold State.deferActivation
  split <;> simp [State.abandonAct]

@[simp] theorem showBound_boot (s : State) : s.showBound.boot = s.boot := by simp [State.showBound]

@[simp] theorem setCause_boot (s : State) (bit : Nat) (on : Bool) : (s.setCause bit on).boot = s.boot := by
  simp [State.setCause]

@[simp] theorem vrFault_boot (s : State) : s.vrFault.boot = s.boot := by simp [State.vrFault]

end Sys2Proof.Machine
end

section
/-! SUPPORT. Resets and bring-up (R494, R570 to R583, R602): which reset an input calls for, what leaving one leaves, the stages and the recovery. -/

namespace Sys2Proof.Machine

variable {s : State}

-- # Which reset the inputs call for (R494, R570)

theorem inputChanged_enters (h : s.boot.kind < s.resetWanted) (cause : Nat) : s.inputChanged cause = s.enterReset s.resetWanted cause := by
  unfold State.inputChanged
  dsimp only
  rw [if_neg (Nat.ne_of_gt (Nat.lt_of_le_of_lt (Nat.zero_le _) h)), if_pos h]

theorem inputChanged_leaves (h : s.resetWanted = 0) (cause : Nat) : s.inputChanged cause = s.tryLeave := if_pos h

/-- A cold input wins over every other. -/
theorem inputChanged_cold {b : Boot} (hkind : b.kind < 3) (hcold : b.pwrLow = true ∨ b.coldN = true) (cause : Nat) :
    ({ s with boot := b } : State).inputChanged cause = ({ s with boot := b } : State).enterReset 3 cause := by
  have hwanted : ({ s with boot := b } : State).resetWanted = 3 := resetWanted_of_cold hcold
  have henters := inputChanged_enters (s := { s with boot := b }) (hwanted.symm ▸ hkind) cause
  rwa [hwanted] at henters

theorem resetWanted_of_warm (hpower : s.boot.pwrLow = false) (hcold : s.boot.coldN = false) (hheld : s.pair.holdN = false) :
    s.resetWanted = if s.boot.warmN || s.boot.perstN || s.boot.linkOff then 1 else 0 := by
  unfold State.resetWanted
  dsimp only
  rw [hpower, hcold, hheld]
  rfl

/-- A warm input resets a device that no other holds. -/
theorem inputChanged_warm {b : Boot} (hkind : b.kind = 0) (hpower : b.pwrLow = false) (hcold : b.coldN = false) (hheld : s.pair.holdN = false)
    (hwarm : (b.warmN || b.perstN || b.linkOff) = true) (cause : Nat) :
    ({ s with boot := b } : State).inputChanged cause = ({ s with boot := b } : State).enterReset 1 cause := by
  have hwanted : ({ s with boot := b } : State).resetWanted = 1 :=
    (resetWanted_of_warm (s := { s with boot := b }) hpower hcold hheld).trans (if_pos hwarm)
  have henters := inputChanged_enters (s := { s with boot := b }) (by rw [hwanted, hkind]; decide) cause
  rwa [hwanted] at henters

-- # Leaving a reset (R570, R571)

theorem takeStraps_boot (s : State) : s.takeStraps.boot = s.boot := by
  unfold State.takeStraps
  extract_lets v bit straps pos small size sized
  refine (each_boot fun st t => setFld_boot ..).trans ?_
  rw [setFld_boot, setFld_boot, setFld_boot, setFld_boot, setFld_boot, setFld_boot, setFld_boot, setFld_boot]

theorem tapAfterReset_boot (s : State) : s.tapAfterReset.boot = s.boot := by
  unfold State.tapAfterReset
  split <;> rfl

/-- A device in reset that nothing holds leaves it, and nothing more changes in its inputs and straps. -/
theorem tryLeave_boot (hreset : s.boot.kind ≠ 0) (hwanted : s.resetWanted = 0) :
    s.tryLeave.boot = { s.boot with kind := 0, t0 := if s.boot.kind = 3 then 0 else s.now } := by
  have hleaves : s.inReset = true ∧ s.resetWanted = 0 := ⟨bne_iff_ne.mpr hreset, hwanted⟩
  unfold State.tryLeave
  rw [if_pos hleaves]
  dsimp only
  rw [vrFault_boot, when_boot fun t => setCause_boot ..]
  split
  · rw [setFld_boot, takeStraps_boot, setFld_boot, setFld_boot, tapAfterReset_boot]
  · rw [bumpFld_boot, setFld_boot, setFld_boot, tapAfterReset_boot]

/-- An input that was the last to hold the device lets it leave. -/
theorem inputChanged_last {b : Boot} (hreset : b.kind ≠ 0) (hpower : b.pwrLow = false) (hcold : b.coldN = false) (hheld : s.pair.holdN = false)
    (hwarm : (b.warmN || b.perstN || b.linkOff) = false) (cause : Nat) :
    let u : State := { s with boot := b }
    u.inputChanged cause = u.tryLeave ∧ u.tryLeave.inReset = false ∧ u.tryLeave.boot.straps = b.straps := by
  intro u
  have hwanted : u.resetWanted = 0 := (resetWanted_of_warm (s := u) hpower hcold hheld).trans (if_neg (Bool.eq_false_iff.mp hwarm))
  have hboot := tryLeave_boot (s := u) hreset hwanted
  have hstraps := congrArg Boot.straps hboot
  exact ⟨inputChanged_leaves hwanted cause, congrArg (fun c : Boot => c.kind != 0) hboot, hstraps⟩

theorem execWarm_go {fn : Fin 64} (hgo : s.reach fn .BOOT_CTL 0 = .go) : exec (.warm fn) s = .next (s.enterReset 1 6).tryLeave := by
  have hwarm : F.BOOT_CTL_WARM.hit .whole (F.BOOT_CTL_WARM.put 0#64 1) = true := by decide
  refine congrArg Host.Outcome.next ((State.reaching_go hgo _).trans ?_)
  rw [hwarm, if_pos rfl]

/-- Settles O45, by which reset the inputs call for after each of them changes. -/
theorem resetInputs : Obligations.ResetInputs := by
  unfold Obligations.ResetInputs
  intro s b
  refine ⟨fun hkind => ⟨?power, ?cold⟩, fun hkind hpower hcold hheld => ⟨?warm, ?perst, ?hot⟩, fun fn hgo => execWarm_go hgo,
    fun hkind hheld => ⟨?rise, ?release⟩, fun hpower straps => if_neg (Bool.eq_false_iff.mp hpower)⟩
  case power => exact congrArg Host.Outcome.next (inputChanged_cold (b := { b with pwrLow := true }) hkind (.inl rfl) 1)
  case cold => exact congrArg Host.Outcome.next (inputChanged_cold (b := { b with coldN := true }) hkind (.inr rfl) 2)
  case warm =>
    exact congrArg Host.Outcome.next (inputChanged_warm (b := { b with warmN := true }) hkind hpower hcold hheld rfl 3)
  case perst =>
    exact congrArg Host.Outcome.next
      (inputChanged_warm (b := { b with perstN := true }) hkind hpower hcold hheld (by rw [Bool.or_true, Bool.true_or]) 4)
  case hot =>
    exact congrArg Host.Outcome.next (inputChanged_warm (b := { b with linkOff := true }) hkind hpower hcold hheld (Bool.or_true _) 5)
  case rise =>
    intro straps hpower hcold hwarm hperst hlink
    obtain ⟨hleaves, hout, hstraps⟩ := inputChanged_last (s := s) (b := { b with pwrLow := false, straps := straps.toNat }) hkind rfl hcold hheld
      (by rw [hwarm, hperst, hlink]; rfl) 1
    exact ⟨_, (if_pos hpower).trans (congrArg Host.Outcome.next hleaves), hout, hstraps, rfl⟩
  case release =>
    intro hpower
    obtain ⟨hleaves, hout, -⟩ := inputChanged_last (s := s) (b := { b with coldN := false, warmN := false, perstN := false, linkOff := false }) hkind
      hpower rfl hheld rfl 0
    exact ⟨_, congrArg Host.Outcome.next hleaves, hout, rfl⟩

-- # Bring-up (R572 to R583)

theorem execStageReached_s6 (hat : s.at_ 5 = true) (hsettled : s.settled = true) :
    let t : State := { s.enterStage 6 with boot := { s.boot with served := true } }
    exec (.stageReached .s6) s = .next (if s.flag F.PAIR_CFG_EN 0 then t else t.setFld F.PAIR_STATE_STATE 0 1) := by
  intro t
  have hgoes : (s.at_ 5 && s.settled) = true := by rw [hat, hsettled]; rfl
  have hserves : s.fullService = if s.flag F.PAIR_CFG_EN 0 then t else t.setFld F.PAIR_STATE_STATE 0 1 := by
    change t.when (!s.flag F.PAIR_CFG_EN 0) _ = _
    cases s.flag F.PAIR_CFG_EN 0 <;> rfl
  exact congrArg Host.Outcome.next ((if_pos hgoes).trans hserves)

theorem execStageBoundTimeout_late {b : Nat} (hbound : s.stageBound = some b) (hat : s.at_ s.stage = true) (hlate : s.boot.t0 + ms * b < s.now) :
    exec .stageBoundTimeout s = .next (s.halt 7 (s.stage + 1)) := by
  change execStageBoundTimeout s = _
  rw [execStageBoundTimeout, hbound]
  exact if_pos (by rw [hat, decide_eq_true hlate]; rfl)

theorem execRecover_go {fn : Fin 64} (hgo : s.reach fn .BOOT_CTL 0 = .go) (hwaits : s.awaitsRecovery = true)
    (hidle : s.fld F.BOOT_RECOV_STATUS_STATE 0 ≠ 2) :
    let len := s.fld F.BOOT_RECOV_LEN_LEN 0
    exec (.recover fn) s =
      .next (if len = 0 ∨ 48 * 1048576 < len then s.setRecov 4 4 else (s.setRecov 2 0).setFld F.BOOT_RECOV_STATUS_BYTES 0 0) := by
  have hwarm : F.BOOT_CTL_WARM.hit .whole (F.BOOT_CTL_RECOVER.put 0#64 1) = false := by decide
  have hrecover : F.BOOT_CTL_RECOVER.hit .whole (F.BOOT_CTL_RECOVER.put 0#64 1) = true := by decide
  have hgoes : (!s.awaitsRecovery || s.fld F.BOOT_RECOV_STATUS_STATE 0 == 2) = false := by
    rw [hwaits, beq_eq_false_iff_ne.mpr hidle]
    rfl
  refine congrArg Host.Outcome.next ((State.reaching_go hgo _).trans ?_)
  rw [hwarm, if_neg Bool.false_ne_true, hrecover]
  exact if_neg (Bool.eq_false_iff.mp hgoes)

/-- A read that fails ends the recovery after so many bytes. -/
theorem execRecoveryFetchDone_failed (hfetching : s.fld F.BOOT_RECOV_STATUS_STATE 0 = 2) (n : BitVec 32) :
    exec (.recoveryFetchDone (some n)) s = .next ((s.setRecov 4 1).setFld F.BOOT_RECOV_STATUS_BYTES 0 n.toNat) :=
  if_neg (not_not_intro hfetching)

/-- Settles O46, stage by stage. That a recovery clears the halt, the state that the other slot then has, and reason 1 for the loss of SDS1 are the
model's choices (log 63). -/
theorem bringUp : Obligations.BringUp := by
  unfold Obligations.BringUp
  refine ⟨fun s => ⟨?s1, ?s2, ?s3, ?s4, ?s5, execStageReached_s6, fun b => execStageBoundTimeout_late⟩, fun s fn hgo => execRecover_go hgo, ?fetched,
    fun s hruns => ?clocks⟩
  case s1 => exact fun flash hat => congrArg Host.Outcome.next (if_pos hat)
  case s2 => exact fun hat hflash => congrArg Host.Outcome.next (if_pos (by rw [hat, hflash]; rfl))
  case s3 => exact fun hat => congrArg Host.Outcome.next (if_neg (by rw [hat]; decide))
  case s4 => exact fun bad hat => congrArg Host.Outcome.next (if_pos hat)
  case s5 => exact fun hat => congrArg Host.Outcome.next (if_pos hat)
  case fetched =>
    intro s hfetching len b k t
    refine ⟨execRecoveryFetchDone_failed hfetching, ?_⟩
    intro d d' u u'
    refine (if_neg (not_not_intro hfetching)).trans ?_
    by_cases hfault : t.recovFault b = 0
    · rw [if_pos hfault]
      exact if_neg (not_not_intro hfault)
    · rw [if_neg hfault]
      exact if_pos hfault
  case clocks =>
    have hgo : ¬ s.inReset = true := by rw [hruns]; decide
    exact ⟨if_neg hgo, if_neg hgo, if_neg hgo, if_neg hgo⟩

end Sys2Proof.Machine
end

section
/-! SUPPORT. One step: the front of the queue, the passing of time, and a tile's fetch (R43, R96, R97). -/

namespace Sys2Proof.Machine

variable {s : State}

/-- What one nanosecond does to device time and to what is left to slew: at most one nanosecond more than it passes, and at most one less to slew. -/
theorem advanceTime_bounds (s : State) :
    (s.now ≤ s.advanceTime.now ∧ s.advanceTime.now ≤ s.now + 2) ∧ s.advanceTime.slew.left.natAbs ≤ s.slew.left.natAbs := by
  unfold State.advanceTime
  dsimp only
  split
  case isTrue => exact ⟨⟨Nat.le_add_right .., Nat.le_succ _⟩, Nat.le_refl _⟩
  split
  case isTrue => exact ⟨⟨Nat.le_add_right .., Nat.le_succ _⟩, Nat.le_refl _⟩
  split
  case isTrue =>
    split
    · exact ⟨⟨Nat.le_add_right .., Nat.le_refl _⟩, Nat.le_refl _⟩
    · exact ⟨⟨Nat.le_refl _, Nat.le_add_right ..⟩, Nat.le_refl _⟩
  split
  · exact ⟨⟨Nat.le_add_right .., Nat.le_refl _⟩, by dsimp only; omega⟩
  · exact ⟨⟨Nat.le_refl _, Nat.le_add_right ..⟩, by dsimp only; omega⟩

theorem advanceTime_steady (hleft : s.slew.left = 0) (hfreq : s.slew.freq = 0) : s.advanceTime = { s with now := s.now + 1 } :=
  if_pos ⟨hleft, hfreq⟩

theorem nextTile_none (hnone : ∀ t, t < 512 → s.fetches t = false) (start : Nat) : s.nextTile start = none := by
  refine List.find?_eq_none.mpr fun t ht => ?_
  obtain ⟨k, -, rfl⟩ := List.mem_map.mp ht
  exact Bool.eq_false_iff.mp (hnone _ (Nat.mod_lt _ (by decide)))

theorem fetchBundle_decoded {t : Nat} {l : Launch} {cs : List Instr} (hl : s.tileLaunch t = some l) (hbound : (s.tile t).bundle < l.bundles)
    (hcs : bundleCommands (Fin.ofNat 512 t) (bundleOf (s.storeRead t (codeBase l.key + 32 * (s.tile t).bundle) 32)) (s.collOp t) (s.tile t).used =
      some cs) : s.fetchBundle t = { s with pending := s.pending ++ cs } := by
  unfold State.fetchBundle
  dsimp only
  rw [hl]
  dsimp only
  rw [if_neg (Nat.not_le.mpr hbound), hcs]

/-- Settles O1. That an idle step lets 1 ns pass and the next tile fetch is the model's choice (logs 1 and 89); so is how far one that is corrected
takes device time, from not at all to 2 ns (log 92). -/
theorem stepTakesFront : Obligations.StepTakesFront := by
  unfold Obligations.StepTakesFront
  refine ⟨fun s i rest => rfl, fun s hidle => ?idle, fun s => ⟨advanceTime_steady, advanceTime_bounds s⟩, fun s => ⟨fun hnone => ?none, ?fetch⟩⟩
  case idle =>
    unfold step
    rw [hidle]
  case none =>
    unfold State.fetchNext
    rw [nextTile_none hnone]
  case fetch =>
    intro t l cs hnext hl hbound hcs
    unfold State.fetchNext
    rw [hnext]
    exact fetchBundle_decoded hl hbound hcs

end Sys2Proof.Machine
end

section
/-! SUPPORT. The twin pair (R494 to R516): the messages that are served while the heartbeat runs, and PAIR_CTL. -/

namespace Sys2Proof.Machine

variable {s : State}

-- # A message from the twin

theorem fld_fromTwin {g : Field} (h : g.reg ≠ .PAIR_LAST_HB) : s.fromTwin.fld g 0 = s.fld g 0 := fld_setFld_of_reg_ne s h 0 _

theorem fromTwin_pairLive : s.fromTwin.pairLive = s.pairLive := by
  unfold State.pairLive State.flag State.stage State.inReset
  rw [fld_fromTwin (by decide), fld_fromTwin (by decide), fld_fromTwin (by decide)]
  rfl

theorem fromTwin_pairBeats : s.fromTwin.pairBeats = s.pairBeats := by
  unfold State.pairBeats State.pairState
  rw [fromTwin_pairLive, fld_fromTwin (by decide)]

theorem pairLive_of_beats (hbeats : s.pairBeats = true) : s.pairLive = true := (Bool.and_eq_true_iff.mp hbeats).1

/-- While no activation holds dispatch, what comes from the twin is served at once. -/
theorem pairMsg_served (hlive : s.pairLive = true) (hruns : s.quiesce = false) (m : PairMsg) : s.pairMsg m = s.fromTwin.servePair m := by
  have hquiet : s.fromTwin.quiesce = false := hruns
  unfold State.pairMsg
  dsimp only
  rw [hlive, hquiet]
  rfl

/-- While the heartbeat runs, what names a shard of this device acts on it. -/
theorem onShard_eq {ctx shard : Nat} {x : Shard} (hbeats : s.pairBeats = true) (hx : s.shard? ctx shard = some x) (f : Shard → State) :
    (if s.pairBeats then (s.shard? ctx shard).elim s f else s) = f x := by
  rw [if_pos hbeats, hx]
  rfl

theorem execHello_served (hlive : s.pairLive = true) (hruns : s.quiesce = false) (order stepping : BitVec 8) (serial : BitVec 40) (dev : BitVec 16)
    (pos : Fin 2) (pst : Fin 5) :
    exec (.hello order stepping serial dev pos pst) s = .next (s.fromTwin.serveHello order.toNat stepping.toNat dev.toNat pos pst) :=
  congrArg Host.Outcome.next ((pairMsg_served hlive hruns _).trans (if_pos (fromTwin_pairLive.trans hlive)))

section
variable (hbeats : s.pairBeats = true) (hruns : s.quiesce = false) (ctx : Fin 256)
include hbeats hruns

theorem execDecision_served (step : BitVec 64) (sum norm kappa : BitVec 32) (reason : Fin 4) (k : List (BitVec 32)) :
    let d : Decision := ⟨sum.toNat, norm.toNat, kappa.toNat, reason, k.map (·.toNat)⟩
    exec (.decision ctx step sum norm kappa reason k) s =
      .next (s.fromTwin.modStep ctx fun p => if p.index = step.toNat then { p with mirror := some d } else p) :=
  congrArg Host.Outcome.next ((pairMsg_served (pairLive_of_beats hbeats) hruns _).trans (if_pos (fromTwin_pairBeats.trans hbeats)))

variable {shard : BitVec 24} {x : Shard} (hx : s.fromTwin.shard? ctx shard.toNat = some x)
include hx

/-- A message about a shard of this device is served as it says for that shard. -/
theorem pairMsg_shard (m : PairMsg) (f : Shard → State)
    (hm : s.fromTwin.servePair m = if s.fromTwin.pairBeats then (s.fromTwin.shard? ctx shard.toNat).elim s.fromTwin f else s.fromTwin) :
    s.pairMsg m = f x :=
  ((pairMsg_served (pairLive_of_beats hbeats) hruns m).trans hm).trans (onShard_eq (fromTwin_pairBeats.trans hbeats) hx f)

theorem execGradient_served (grad gexp : List Byte) :
    exec (.gradient ctx shard grad gexp) s = .next (s.fromTwin.serveGradient ctx x grad gexp) :=
  congrArg Host.Outcome.next (pairMsg_shard hbeats hruns ctx hx (.gradient ctx shard.toNat grad gexp)
    (fun x => s.fromTwin.serveGradient ctx x grad gexp) rfl)

theorem execDelta_served (round : BitVec 32) (dlt : List (BitVec 32)) :
    exec (.delta ctx shard round dlt) s = .next (s.fromTwin.serveDelta ctx x round.toNat (dlt.map (·.toNat))) := by
  have hserves := pairMsg_shard hbeats hruns ctx hx (.delta ctx shard.toNat round.toNat (dlt.map (·.toNat))) _ rfl
  exact congrArg Host.Outcome.next hserves

theorem execDigest_served (of_ : DigestOf) (first : Nat) (digests : List (BitVec 64)) (marks : List Nat) :
    exec (.digest ctx shard of_ first digests marks) s =
      .next (s.fromTwin.takeDigests ctx x of_.pass of_.step.toNat first (digests.map (·.toNat)) marks) := by
  have hserves := pairMsg_shard hbeats hruns ctx hx
    (.digest ctx shard.toNat of_.pass of_.step.toNat first (digests.map (·.toNat)) marks) _ rfl
  exact congrArg Host.Outcome.next hserves

section
variable {block : Nat} {bytes : List Byte} (hblock : block < x.digestBlocks) (hbytes : bytes.length = (s.fromTwin.blockBytes x block).length)
include hblock hbytes

theorem execRepair_served : exec (.repair ctx shard block bytes) s = .next (s.fromTwin.takeRepair ctx x block bytes) :=
  congrArg Host.Outcome.next ((pairMsg_shard hbeats hruns ctx hx (.repair ctx shard.toNat block bytes)
    (fun x => if block < x.digestBlocks ∧ bytes.length = (s.fromTwin.blockBytes x block).length then s.fromTwin.takeRepair ctx x block bytes
      else s.fromTwin) rfl).trans (if_pos ⟨hblock, hbytes⟩))

/-- The receiver of a reintegration takes a block of a shard that it mirrors; the last one completes the shard's copy. -/
theorem execCopy_served (hstate : s.fromTwin.pairState = 4) (hmirrors : s.fromTwin.mirrors x = true) :
    exec (.copy ctx shard block bytes) s =
      .next (let u := (s.fromTwin.writeParts (x.blockParts block) bytes).unmark x block
        let u := if x.planeOf block ≤ 1 then u.deriveBlock x block else u
        if block + 1 = x.digestBlocks then { u with copied := (ctx.val, x.num) :: u.copied } else u) := by
  have htakes : (s.fromTwin.pairState == 4 && s.fromTwin.mirrors x && decide (block < x.digestBlocks) &&
      bytes.length == (s.fromTwin.blockBytes x block).length) = true := by
    rw [hstate, hmirrors, decide_eq_true hblock, hbytes, beq_self_eq_true, beq_self_eq_true]
    rfl
  refine congrArg Host.Outcome.next ((pairMsg_shard hbeats hruns ctx hx (.copy ctx shard.toNat block bytes)
    (fun x => s.fromTwin.serveCopy ctx x block bytes) rfl).trans ((if_pos htakes).trans ?_))
  dsimp only
  generalize (if x.planeOf block ≤ 1 then _ else _ : State) = u
  by_cases hlast : block + 1 = x.digestBlocks
  · exact (if_pos (beq_iff_eq.mpr hlast)).trans (if_pos hlast).symm
  · exact (if_neg (mt beq_iff_eq.mp hlast)).trans (if_neg hlast).symm

end

end

-- # The pair's timers (R496, R506, R507)

theorem execHelloSend_due (hlive : s.pairLive = true) (hrate : s.fld F.PAIR_STATE_MIR_RATE 0 ≠ 0) (hfirst : s.beganAt helloTimer 0 = none)
    (hforming : s.pairState = 0) : exec .helloSend s =
      .next ((s.beginAt helloTimer 0).postMir (.hello (s.fld F.HIF_ID_ORDER 0) (s.fld F.HIF_ID_STEPPING 0) (s.fld F.HIF_SERIAL_SERIAL 0) s.deviceId
        (s.fld F.PAIR_CFG_POS 0) 0)) := by
  change execHelloSend s = _
  unfold execHelloSend
  dsimp only
  rw [hfirst, hlive, hforming, bne_iff_ne.mpr hrate]
  exact congrArg (fun n => Host.Outcome.next ((s.beginAt helloTimer 0).postMir (.hello (s.fld F.HIF_ID_ORDER 0) (s.fld F.HIF_ID_STEPPING 0)
    (s.fld F.HIF_SERIAL_SERIAL 0) s.deviceId (s.fld F.PAIR_CFG_POS 0) n))) hforming

theorem execPairTimeout_due (hlive : s.pairLive = true) (hforming : s.pairState = 0) (hfirst : s.pair.late = false)
    (hdue : s.fld F.BOOT_STAGE_T_TIME 6 + 60 * sec ≤ s.now) : exec .pairTimeout s =
      .next (({ s with pair := { s.pair with late := true } } : State).raise .device 0x0402 2 s.twinId 3) := by
  have hgoes : (s.pairLive && s.pairState == 0 && !s.pair.late && decide (s.fld F.BOOT_STAGE_T_TIME 6 + 60 * sec ≤ s.now)) = true := by
    rw [hlive, hforming, hfirst, decide_eq_true hdue]
    rfl
  exact if_pos hgoes

theorem execHeartbeatSend_due (hbeats : s.pairBeats = true) (hrate : s.fld F.PAIR_STATE_MIR_RATE 0 ≠ 0) (hfirst : s.beganAt beatTimer 0 = none) :
    let t := (s.beginAt beatTimer 0).postMir (.heartbeat s.pair.beats s.now s.pairState false)
    exec .heartbeatSend s = .next { t with pair := { t.pair with beats := t.pair.beats + 1 } } := by
  intro t
  have hgoes : (s.pairBeats && s.fld F.PAIR_STATE_MIR_RATE 0 != 0 && (s.beganAt beatTimer 0).elim true fun t => decide (t + 2000 ≤ s.now)) = true := by
    rw [hbeats, bne_iff_ne.mpr hrate, hfirst]
    rfl
  exact if_pos hgoes

theorem execHeartbeat_beats (hbeats : s.pairBeats = true) (seq time : BitVec 64) (pst : Fin 5) (fatal : Bool) :
    exec (.heartbeat seq time pst fatal) s = .next (if fatal then s.fromTwin.twinFails 2 else s.fromTwin) := by
  refine (if_pos (pairLive_of_beats hbeats)).trans ?_
  rw [hbeats, Bool.and_true]
  rfl

theorem execTwinSilenceTimeout_due (hbeats : s.pairBeats = true) (hdue : s.fld F.PAIR_LAST_HB_TIME 0 + 20000 ≤ s.now) :
    exec .twinSilenceTimeout s = .next (s.twinFails 1) :=
  if_pos (Bool.and_eq_true_iff.mpr ⟨hbeats, decide_eq_true hdue⟩)

-- # Adoption and the hold (R494, R508)

theorem execAdoption_due {since : Nat} (hdue : s.pair.adoptDue = some since) : exec .adoption s =
    .next (({ s with pair := { s.pair with adoptDue := none } } : State).each (List.range 256) fun n t => t.adoptCtx t.twinId since n) := by
  change execAdoption s = _
  unfold execAdoption
  rw [hdue]

theorem execPairHold_ignored (hfirst : s.fld F.PAIR_CFG_POS 0 = 0) (hdrives : s.flag F.PAIR_STATE_DRIVING 0 = true) :
    exec .pairHold s = .next (({ s with pair := { s.pair with holdN := true } } : State).setFld F.PAIR_STATE_HOLD 0 1) :=
  if_pos (Bool.and_eq_true_iff.mpr ⟨beq_iff_eq.mpr hfirst, hdrives⟩)

theorem execPairHold_held (hobeys : s.fld F.PAIR_CFG_POS 0 ≠ 0 ∨ s.flag F.PAIR_STATE_DRIVING 0 = false) :
    exec .pairHold s = .next (({ s with pair := { s.pair with holdN := true } } : State).inputChanged 7) := by
  refine if_neg fun hignores => ?_
  obtain ⟨hfirst, hdrives⟩ := Bool.and_eq_true_iff.mp hignores
  exact hobeys.elim (fun h => h (beq_iff_eq.mp hfirst)) fun h => Bool.false_ne_true (h.symm.trans hdrives)

-- # PAIR_CTL (R505, R514, R515)

/-- A word that sets one of the bits of PAIR_CTL sets no other. -/
theorem pairCtl_hits : (F.PAIR_CTL_RELEASE.hit .whole (F.PAIR_CTL_RELEASE.put 0#64 1) = true ∧
      F.PAIR_CTL_REINTEGRATE.hit .whole (F.PAIR_CTL_RELEASE.put 0#64 1) = false ∧
      F.PAIR_CTL_HANDBACK.hit .whole (F.PAIR_CTL_RELEASE.put 0#64 1) = false ∧
      F.PAIR_CTL_CONTINUE.hit .whole (F.PAIR_CTL_RELEASE.put 0#64 1) = false) ∧
    (F.PAIR_CTL_RELEASE.hit .whole (F.PAIR_CTL_REINTEGRATE.put 0#64 1) = false ∧
      F.PAIR_CTL_REINTEGRATE.hit .whole (F.PAIR_CTL_REINTEGRATE.put 0#64 1) = true ∧
      F.PAIR_CTL_HANDBACK.hit .whole (F.PAIR_CTL_REINTEGRATE.put 0#64 1) = false ∧
      F.PAIR_CTL_CONTINUE.hit .whole (F.PAIR_CTL_REINTEGRATE.put 0#64 1) = false) ∧
    (F.PAIR_CTL_RELEASE.hit .whole (F.PAIR_CTL_HANDBACK.put 0#64 1) = false ∧
      F.PAIR_CTL_REINTEGRATE.hit .whole (F.PAIR_CTL_HANDBACK.put 0#64 1) = false ∧
      F.PAIR_CTL_HANDBACK.hit .whole (F.PAIR_CTL_HANDBACK.put 0#64 1) = true ∧
      F.PAIR_CTL_CONTINUE.hit .whole (F.PAIR_CTL_HANDBACK.put 0#64 1) = false) := by decide

/-- A word that continues a context's step names the context, and asks for nothing else. -/
theorem continue_hits (ctx : Fin 256) :
    let v := F.PAIR_CTL_CTX.put (F.PAIR_CTL_CONTINUE.put 0#64 1) ctx
    (F.PAIR_CTL_RELEASE.hit .whole v = false ∧ F.PAIR_CTL_REINTEGRATE.hit .whole v = false ∧ F.PAIR_CTL_HANDBACK.hit .whole v = false ∧
      F.PAIR_CTL_CONTINUE.hit .whole v = true) ∧ F.PAIR_CTL_CTX.of (Half.whole.part v) = ctx := by
  have hhit (g : Field) (habove : 8 ≤ g.lo) :
      g.hit .whole (F.PAIR_CTL_CTX.put (F.PAIR_CTL_CONTINUE.put 0#64 1) ctx) = g.hit .whole (F.PAIR_CTL_CONTINUE.put 0#64 1) := by
    unfold Field.hit
    rw [Half.part_whole, Half.part_whole, Field.of_put_other (f := F.PAIR_CTL_CTX) (by decide) (.inr habove)]
  refine ⟨⟨(hhit _ (by decide)).trans (by decide), (hhit _ (by decide)).trans (by decide), (hhit _ (by decide)).trans (by decide),
    (hhit _ (by decide)).trans (by decide)⟩, ?_⟩
  rw [Half.part_whole, Field.of_put _ (by decide)]
  exact Nat.mod_eq_of_lt ctx.isLt

section
variable {fn : Fin 64} (hgo : s.reach fn .PAIR_CTL 0 = .go)
include hgo

theorem execRelease_go : exec (.release fn) s = .next s.pairRelease := by
  obtain ⟨⟨hrelease, hreintegrate, hhandback, hcontinue⟩, -, -⟩ := pairCtl_hits
  refine congrArg Host.Outcome.next ((State.reaching_go hgo _).trans ?_)
  simp only [hrelease, hreintegrate, hhandback, hcontinue, State.when, if_true, Bool.false_eq_true, if_false]

theorem execReintegrate_go : exec (.reintegrate fn) s = .next s.pairReintegrate := by
  obtain ⟨-, ⟨hrelease, hreintegrate, hhandback, hcontinue⟩, -⟩ := pairCtl_hits
  refine congrArg Host.Outcome.next ((State.reaching_go hgo _).trans ?_)
  simp only [hrelease, hreintegrate, hhandback, hcontinue, State.when, if_true, Bool.false_eq_true, if_false]

theorem execHandback_go : exec (.handback fn) s = .next s.pairHandback := by
  obtain ⟨-, -, ⟨hrelease, hreintegrate, hhandback, hcontinue⟩⟩ := pairCtl_hits
  refine congrArg Host.Outcome.next ((State.reaching_go hgo _).trans ?_)
  simp only [hrelease, hreintegrate, hhandback, hcontinue, State.when, if_true, Bool.false_eq_true, if_false]

theorem execContinueStep_go (ctx : Fin 256) : exec (.continueStep fn ctx) s = .next (s.setFld F.PAIR_CTX_STATE_HELD ctx 0) := by
  obtain ⟨⟨hrelease, hreintegrate, hhandback, hcontinue⟩, hctx⟩ := continue_hits ctx
  refine congrArg Host.Outcome.next ((State.reaching_go hgo _).trans ?_)
  simp only [hrelease, hreintegrate, hhandback, hcontinue, hctx, State.when, if_true, Bool.false_eq_true, if_false]

end

/-- Settles O39. That a shard is copied with its last block, and that a message needs MIR_RATE, are the model's choice (log 54). -/
theorem pairCommands : Obligations.PairCommands := by
  unfold Obligations.PairCommands
  refine ⟨fun s hlive => ⟨execHelloSend_due hlive, execPairTimeout_due hlive, fun order stepping serial dev pos pst hruns => ?hello⟩,
    fun s hbeats => ⟨execHeartbeatSend_due hbeats, execHeartbeat_beats hbeats, execTwinSilenceTimeout_due hbeats, fun hruns ctx => ?twin⟩,
    fun s since hdue => execAdoption_due hdue, fun s ctx failed adopter replica other drop back => rfl,
    fun s => ⟨⟨execPairHold_ignored, execPairHold_held⟩, rfl⟩, fun s fn hgo => ⟨?release, ?reintegrate, ?handback, execContinueStep_go hgo⟩⟩
  case hello => exact execHello_served hlive hruns order stepping serial dev pos pst
  case twin =>
    refine ⟨execDecision_served hbeats hruns ctx, fun shard x hx => ⟨execGradient_served hbeats hruns ctx hx, execDelta_served hbeats hruns ctx hx,
      execDigest_served hbeats hruns ctx hx, fun block bytes hblock hbytes => ⟨?_, ?_⟩⟩⟩
    · exact execRepair_served hbeats hruns ctx hx hblock hbytes
    · exact execCopy_served hbeats hruns ctx hx hblock hbytes
  case release => exact fun hstate => (execRelease_go hgo).trans (congrArg Host.Outcome.next (if_pos hstate))
  case reintegrate =>
    exact fun hstate hsender => (execReintegrate_go hgo).trans (congrArg Host.Outcome.next (if_pos ⟨hstate, Bool.eq_false_iff.mp hsender⟩))
  case handback => exact fun hstate hcopied => (execHandback_go hgo).trans (congrArg Host.Outcome.next (if_pos ⟨hstate, hcopied⟩))

end Sys2Proof.Machine
end

section
/-! SUPPORT. The ledger: reports, the close of a round, entries, and the apply (R411, R436 to R443). -/

namespace Sys2Proof.Machine

variable {s : State} {ctx : Fin 256}

-- # Reports and the close of a round (R438, R439, R442)

section
variable (hon : s.xOn ctx = true) (hledger : s.isLedger ctx = true)
include hon hledger

/-- A ledger device of an enabled context takes a report. -/
theorem reportTaken {a b : Answer} : (if !s.xOn ctx || !s.isLedger ctx then a else b) = b := by
  rw [hon, hledger]
  rfl

theorem execContributionReport_ledger (dev : BitVec 16) (site : Fin 64) (round : BitVec 32) :
    let t := (dev.toNat, site.val, round.toNat)
    let u := s.modXch ctx fun x => { x with owners := if x.owners.contains t then x.owners else t :: x.owners }
    exec (.contributionReport ctx dev site round) s = .next (if u.siteHasIt ctx (site, round.toNat) then u.sendReport ctx else u) :=
  reportTaken hon hledger

theorem execSiteReport_ledger (body : List Byte) :
    exec (.siteReport ctx body) s = .next ((s.modXch ctx fun x => x.takeReport (readReport body)).tryClose ctx) :=
  reportTaken hon hledger

end

/-- A canonical device of a site without the token may leave for the provisional mode. -/
theorem provisionalAsked {a b : Answer} (hon : s.xOn ctx = true) (hcanonical : s.xmode ctx = 1) (hother : s.flag F.XCH_STATE_HOLDER ctx = false) :
    (if !s.xOn ctx || s.xmode ctx != 1 || s.flag F.XCH_STATE_HOLDER ctx then a else b) = b := by
  rw [hon, hcanonical, hother]
  rfl

section
variable {q : Round} (hnext : s.nextClose ctx = some q)
include hnext

theorem execLedgerDeadline_due (hcloses : s.closes ctx = true) (hdue : q.time + ms * s.roundCfg F.XCH_TIMING_DEADLINE_MS ctx q.round ≤ s.now) :
    exec (.ledgerDeadline ctx) s = .next (s.closeNow ctx q.round) := by
  change execLedgerDeadline ctx s = _
  unfold execLedgerDeadline
  rw [hnext]
  exact if_pos (Bool.and_eq_true_iff.mpr ⟨hcloses, decide_eq_true hdue⟩)

section
variable (hon : s.xOn ctx = true) (hcanonical : s.xmode ctx = 1) (hother : s.flag F.XCH_STATE_HOLDER ctx = false)
include hon hcanonical hother

theorem execProvisionalTimeout_ledger (hledger : s.isLedger ctx = true)
    (hdue : q.time + ms * (s.roundCfg F.XCH_TIMING_DEADLINE_MS ctx q.round + s.roundCfg F.XCH_TIMING_GRACE_MS ctx q.round) ≤ s.now) (told : Bool) :
    exec (.provisionalTimeout ctx told) s =
      .next (((s.goProvisional ctx q.round).post s.siteOthers (.provisional ctx q.round)).sendReport ctx) := by
  refine (provisionalAsked hon hcanonical hother).trans ((if_pos hledger).trans ?_)
  rw [hnext]
  exact if_pos hdue

theorem execProvisionalTimeout_told (hmember : s.isLedger ctx = false) :
    exec (.provisionalTimeout ctx true) s = .next (s.goProvisional ctx q.round) := by
  refine (provisionalAsked hon hcanonical hother).trans ((if_neg (Bool.eq_false_iff.mp hmember)).trans ?_)
  rw [hnext]
  rfl

end

end

-- # Entries (R439, R442)

theorem execLedgerEntry_read {e : Entry} (hon : s.xOn ctx = true) (hread : readEntry e.bytes = some e) :
    exec (.ledgerEntry ctx e.bytes) s =
      .next (let t := if s.isLedger ctx then s.post s.siteOthers (.entry ctx e.bytes) else s
        if e.prov then t.adoptProvisional ctx e else t.adoptCanonical ctx e) := by
  change execLedgerEntry ctx e.bytes s = _
  unfold execLedgerEntry State.takeEntry
  rw [hread, hon]
  rfl

-- # The apply of a round (R411)

/-- What the shard table says does not depend on the rounds. -/
theorem shards_setXch (s : State) (c : Nat) (x : Xch) (ctx : Nat) : (s.setXch c x).shards ctx = s.shards ctx := by
  have htable : (s.setXch c x).shardTable ctx = s.shardTable ctx := rfl
  have hbytes (a n : Nat) : (s.setXch c x).devNat a n = s.devNat a n := rfl
  have hentry (a : Nat) : (s.setXch c x).shardAt a = s.shardAt a := by
    unfold State.shardAt
    simp only [hbytes]
  unfold State.shards
  rw [htable]
  exact List.map_congr_left fun i _ => hentry _

theorem myExchanged_setXch (s : State) (c : Nat) (x : Xch) (ctx : Nat) : (s.setXch c x).myExchanged ctx = s.myExchanged ctx := by
  unfold State.myExchanged
  rw [shards_setXch]
  rfl

/-- Nothing holds the apply of the round that the opening step waits for. -/
theorem applyFree {r since : Nat} (hwaits : (s.xchOf ctx).waitSince = some since) (hidle : (s.xchOf ctx).applying = none)
    (hnew : ((roundField (s.fld F.XCH_ROUND_LAST_APPLIED ctx)).any fun a => decide (r ≤ a)) = false) (hruns : s.quiesce = false)
    (hckpt : ctx.val ∉ s.ckptDue) : ((s.xchOf ctx).waitSince.isNone || (s.xchOf ctx).applying.isSome ||
    ((roundField (s.fld F.XCH_ROUND_LAST_APPLIED ctx)).any fun a => decide (r ≤ a)) || s.quiesce || s.ckptDue.contains ctx.val) = false := by
  rw [hwaits, hidle, hnew, hruns, List.contains_eq_mem, decide_eq_false hckpt]
  rfl

section
variable {l : Launch} {r since : Nat} (hopening : s.openingLaunch ctx = some l) (happlies : s.appliedAt ctx l.step = some r)
  (hwaits : (s.xchOf ctx).waitSince = some since)
include hopening happlies hwaits

section
variable (hidle : (s.xchOf ctx).applying = none)
  (hnew : ((roundField (s.fld F.XCH_ROUND_LAST_APPLIED ctx)).any fun a => decide (r ≤ a)) = false)
  (hruns : s.quiesce = false) (hckpt : ctx.val ∉ s.ckptDue)
include hidle hnew hruns hckpt

theorem execRoundApply_snapshots {m : Nat} (hsnap : (s.xchOf ctx).snapFor = some m) (hwhole : (s.xchOf ctx).snaps.all Snap.whole = true) :
    exec (.roundApply ctx) s = .next (s.applySnapshots ctx r l.step (m == 3)) := by
  change execRoundApply ctx s = _
  unfold execRoundApply
  rw [hopening]
  dsimp only
  rw [happlies]
  refine (if_neg (Bool.eq_false_iff.mp (applyFree hwaits hidle hnew hruns hckpt))).trans ?_
  rw [hsnap]
  exact if_pos hwhole

theorem execRoundApply_entry {e : Entry} (hplain : (s.xchOf ctx).snapFor = none)
    (hentry : (s.xchOf ctx).entries.find? (fun e => e.round == r) = some e) (hhave : e.recs.all (s.haveContrib ctx) = true) :
    let t := s.setXch ctx { s.xchOf ctx with applying := some r, applied := [], passQueue := (s.myExchanged ctx).map (·.num) }
    exec (.roundApply ctx) s = .next (if (s.myExchanged ctx).isEmpty then t.roundApplied ctx r else (t.beginHold ctx r).startApplies ctx r) := by
  intro t
  change execRoundApply ctx s = _
  unfold execRoundApply
  rw [hopening]
  dsimp only
  rw [happlies]
  refine (if_neg (Bool.eq_false_iff.mp (applyFree hwaits hidle hnew hruns hckpt))).trans ?_
  split
  case h_1 m hsnap => exact nomatch hplain.symm.trans hsnap
  rw [hentry]
  dsimp only
  rw [hhave, Bool.not_true, if_neg Bool.false_ne_true, myExchanged_setXch]
  by_cases hnone : (s.myExchanged ctx).isEmpty = true
  · rw [if_pos hnone, if_pos hnone]
  · rw [if_neg hnone, if_neg hnone]

end

theorem execApplyStallTimer_due (hfirst : (s.xchOf ctx).stalled = false) (hdue : since + ms < s.now) :
    exec (.applyStallTimer ctx) s =
      .next ((s.setXch ctx { s.xchOf ctx with stalled := true }).raise (.context ctx) 0x070F 1 0
        (2 ^ 32 * r + (s.now - since) / 1000 % 2 ^ 32)) := by
  change execApplyStallTimer ctx s = _
  unfold execApplyStallTimer
  dsimp only
  rw [hwaits, hopening]
  dsimp only
  rw [happlies, hfirst]
  exact if_pos (Bool.and_eq_true_iff.mpr ⟨rfl, decide_eq_true hdue⟩)

end

/-- Settles O35, clause by clause from what each command does where its condition holds. -/
theorem ledgerCommands : Obligations.LedgerCommands := by
  unfold Obligations.LedgerCommands
  refine ⟨fun s ctx hon hledger => ⟨execContributionReport_ledger hon hledger, execSiteReport_ledger hon hledger⟩,
    fun s ctx q hnext => ⟨execLedgerDeadline_due hnext, fun hon hcanonical hother =>
      ⟨execProvisionalTimeout_ledger hnext hon hcanonical hother, execProvisionalTimeout_told hnext hon hcanonical hother⟩⟩,
    fun s ctx e hon hread => execLedgerEntry_read hon hread,
    fun s ctx l r since hopening happlies hwaits => ⟨fun hidle hnew hruns hckpt => ⟨fun m hsnap hwhole => ?snapshots, fun e hplain hentry hhave => ?entry⟩,
      execApplyStallTimer_due hopening happlies hwaits⟩⟩
  case snapshots => exact execRoundApply_snapshots hopening happlies hwaits hidle hnew hruns hckpt hsnap hwhole
  case entry => exact execRoundApply_entry hopening happlies hwaits hidle hnew hruns hckpt hplain hentry hhave

end Sys2Proof.Machine
end

section
/-! SUPPORT. Snapshots and the commands of XCH_CMD (R441, R446 to R449). -/

namespace Sys2Proof.Machine

variable {s : State} {ctx : Fin 256}

-- # The exchange's records and staged fields

theorem xchOf_setXch (s : State) (ctx : Nat) (x : Xch) : (s.setXch ctx x).xchOf ctx = x := NMap.getD_set_self ..

/-- A field that the exchange has adopted is not touched by a write to another register. -/
theorem xcfg_setFld {f g : Field} (h : f.reg ≠ g.reg) (ctx v : Nat) : (s.setFld g ctx v).xcfg f ctx = s.xcfg f ctx := by
  have hreg : (s.setFld g ctx v).reg f.reg ctx = s.reg f.reg ctx := reg_setFld_other s v (RegName.key_ne_of_ne h ctx)
  unfold State.xcfg State.staged
  rw [hreg]
  rfl

/-- An event of a context changes no field outside the rings' EXC_EVQ_STATE. -/
theorem fld_raise_context (s : State) {f : Field} (hf : f.reg ≠ .EXC_EVQ_STATE) {i : Nat} (hi : i < 1048576) (n code sev source detail : Nat) :
    (s.raise (.context n) code sev source detail).fld f i = s.fld f i := by
  have hfn : s.ctxFn n < 1048576 := Nat.lt_of_lt_of_le (s.fld_lt F.QUE_CTX_CFG_FUNCTION n) (by decide)
  exact congrArg f.of ((State.when_keeps _ (fun t : State => t.reg f.reg i) fun t => reg_deliver hf hi (by decide) t _).trans
    (reg_deliver hf hi hfn s _))

-- # A source answers (R446, R447)

/-- The chunk numbers of a request for one chunk of the shard. -/
theorem oneChunk {k n : Nat} (hk : k < n) : ((List.range 1).map (k + ·)).filter (fun i => decide (i < n)) = [k] := by
  simp [hk]

section
variable {frm : Fin 64} {dev : BitVec 16} {body : List Byte} {h : Shard} (hshard : (s.myExchanged ctx).find? (fun h => h.num == beAt body 0 4) = some h)
include hshard

/-- A request for the manifest: the CRC-64 of each chunk goes, and the fetch is noted under the round last applied. -/
theorem execSnapReq_manifest (hall : beAt body 4 4 = 0xFFFFFFFF) :
    let n := beAt body 0 4
    let who := 65536 * frm.val + dev.toNat
    let r := s.fld F.XCH_ROUND_LAST_APPLIED ctx
    ∃ t : State, exec (.snapReq ctx frm dev body) s = .next (t.queueMsg ctx frm 7 dev.toNat
        (beBytes 4 n ++ beBytes 4 r ++ beBytes 4 h.chunks ++ beBytes 4 0 ++ (List.range h.chunks).flatMap fun i =>
          beBytes 8 (crc64 ((s.each (List.range h.chunks) fun j u => u.touchChunk ctx h j).chunkBytes h i)))) ∧
      ∃ v ∈ (t.xchOf ctx).serves, v.dev = who ∧ v.shard = n ∧ v.round = r := by
  intro n who r
  have hexec : exec (.snapReq ctx frm dev body) s = execSnapReq ctx frm dev body s := rfl
  rw [hexec]
  unfold execSnapReq
  dsimp only
  rw [hshard]
  refine ⟨_, if_pos hall, ?_⟩
  rw [xchOf_setXch]
  exact ⟨_, List.mem_cons_self, rfl, rfl, rfl⟩

/-- A request for one chunk: it goes, and the last one ends the fetch. -/
theorem execSnapReq_chunk (hone : beAt body 4 4 ≠ 0xFFFFFFFF) (hk : beAt body 4 4 < h.chunks) (hcount : beAt body 8 4 = 1) :
    let n := beAt body 0 4
    let k := beAt body 4 4
    let who := 65536 * frm.val + dev.toNat
    let r := s.fld F.XCH_ROUND_LAST_APPLIED ctx
    let u := s.touchChunk ctx h k
    let t := u.queueMsg ctx frm 8 dev.toNat (beBytes 4 n ++ beBytes 4 r ++ beBytes 4 k ++ beBytes 4 0 ++ u.chunkBytes h k)
    exec (.snapReq ctx frm dev body) s = .next (if k + 1 = h.chunks then
      (t.modXch ctx fun x => { x with serves := x.serves.map fun v => if v.dev = who ∧ v.shard = n then { v with sent := true } else v }).goOnApplying
        ctx else t) := by
  intro n k who r u t
  have hexec : exec (.snapReq ctx frm dev body) s = execSnapReq ctx frm dev body s := rfl
  rw [hexec]
  unfold execSnapReq
  dsimp only
  rw [hshard]
  refine (if_neg hone).trans ?_
  rw [hcount, oneChunk hk, State.each_cons, State.each_nil, State.when]
  by_cases hlast : k + 1 = h.chunks
  · have hcontains : [k].contains (h.chunks - 1) = true := by rw [← hlast]; simp
    rw [hcontains, if_pos rfl, if_pos hlast]
  · have hcontains : [k].contains (h.chunks - 1) = false := by
      simp only [List.contains_cons, List.contains_nil, Bool.or_false, beq_eq_false_iff_ne]
      omega
    rw [hcontains, if_neg Bool.false_ne_true, if_neg hlast]

end

-- # A fetch goes on (R446, R447)

theorem execSnapManifest_first {dev : BitVec 16} {role : Fin 3} {body : List Byte}
    (hopen : ((s.xchOf ctx).snaps.any fun y => y.shard == beAt body 0 4 && y.round.isNone) = true) :
    let m := (dev.toNat, beAt body 4 4, (List.range (beAt body 8 4)).map fun i => beAt body (16 + 8 * i) 8)
    exec (.snapManifest ctx dev role body) s = .next ((s.setXch ctx ((s.xchOf ctx).modSnap (beAt body 0 4) fun y =>
      if role.val = 1 then { y with twin := some m } else { y with source := some m })).weighManifest ctx (beAt body 0 4) (role.val == 2)) :=
  if_pos hopen

theorem execSnapChunk_good {dev : BitVec 16} {body : List Byte} {y : Snap} {r : Nat} {a : Nat × Nat × List Nat}
    (hy : (s.xchOf ctx).snaps.find? (fun y => y.shard == beAt body 0 4) = some y) (hround : y.round = some r) (hsource : y.source = some a)
    (hsame : beAt body 4 4 = r) (hnew : NMap.get? y.got (beAt body 8 4) = none) (hlisted : beAt body 8 4 < a.2.2.length)
    (hcrc : crc64 (body.drop 16) = a.2.2.getD (beAt body 8 4) 0) :
    exec (.snapChunk ctx dev body) s = .next (s.modXch ctx fun x => x.modSnap (beAt body 0 4) fun y =>
      { y with got := NMap.set y.got (beAt body 8 4) (body.drop 16) }) := by
  have hexec : exec (.snapChunk ctx dev body) s = execSnapChunk ctx dev body s := rfl
  have hfirst : ¬ ((NMap.get? y.got (beAt body 8 4)).isSome = true ∨ a.2.2.length ≤ beAt body 8 4) := by
    rw [hnew]
    exact not_or.mpr ⟨Bool.false_ne_true, Nat.not_le.mpr hlisted⟩
  rw [hexec]
  unfold execSnapChunk
  dsimp only
  rw [hy]
  dsimp only
  rw [hround, hsource]
  exact (if_neg (not_not.mpr hsame)).trans ((if_neg hfirst).trans (if_pos hcrc))

theorem goOnApplying_none (hidle : (s.xchOf ctx).applying = none) : s.goOnApplying ctx = s := by
  unfold State.goOnApplying
  rw [hidle]

theorem goOnApplying_some {r : Nat} (happlies : (s.xchOf ctx).applying = some r) : s.goOnApplying ctx = s.startApplies ctx r := by
  unfold State.goOnApplying
  rw [happlies]

-- # XCH_CMD (R441, R448, R449)

/-- A word that performs an operation of XCH_CMD gives it and its target. -/
theorem xchOp_fields {op target : Nat} (hop : op < 256) (htarget : target < 64) :
    F.XCH_CMD_GO.hit .whole (xchOp op target) = true ∧ F.XCH_CMD_OP.of (Half.whole.part (xchOp op target)) = op ∧
      F.XCH_CMD_TARGET.of (Half.whole.part (xchOp op target)) = target := by
  have hgo : F.XCH_CMD_GO.of (xchOp op target) = 1 :=
    (Field.of_put_other (f := F.XCH_CMD_TARGET) (by decide) (.inr (by decide)) _ _).trans
      ((Field.of_put_other (f := F.XCH_CMD_OP) (by decide) (.inr (by decide)) _ _).trans (by decide))
  have hopOf : F.XCH_CMD_OP.of (xchOp op target) = op % 256 :=
    (Field.of_put_other (f := F.XCH_CMD_TARGET) (by decide) (.inr (by decide)) _ _).trans (Field.of_put _ (by decide) _ _)
  have htargetOf : F.XCH_CMD_TARGET.of (xchOp op target) = target % 64 := Field.of_put _ (by decide) _ _
  unfold Field.hit
  rw [Half.part_whole, hgo, hopOf, htargetOf]
  exact ⟨rfl, Nat.mod_eq_of_lt hop, Nat.mod_eq_of_lt htarget⟩

/-- What an operation of XCH_CMD performs. -/
def State.xchPerform (s : State) (ctx op target : Nat) : State :=
  match op with
  | 1 => s.handover ctx target
  | 2 => s.claim ctx
  | 3 => s.joinLate ctx
  | 4 => s.resume ctx
  | _ => s

section
variable {fn : Fin 64} (hgo : s.reach fn .XCH_CMD ctx = .go) (hen : s.flag F.XCH_CFG_EN ctx = true)
include hgo hen

/-- In an enabled context the word's operation is performed. -/
theorem writeXchCmd_op {op target : Nat} (hop : op < 256) (htarget : target < 64) :
    s.writeXchCmd fn ctx .whole (xchOp op target) = s.xchPerform ctx op target := by
  obtain ⟨hhit, hopOf, htargetOf⟩ := xchOp_fields hop htarget
  refine (State.reaching_go hgo _).trans ((if_pos hhit).trans ((if_neg (not_not.mpr hen)).trans ?_))
  rw [hopOf, htargetOf] <;> rfl

theorem execHandover_go {target : Fin 64} (hcanonical : s.xmode ctx = 1) (hholder : s.flag F.XCH_STATE_HOLDER ctx = true)
    (hledger : s.isLedger ctx = true) :
    exec (.handover fn ctx target) s = .next ((s.xchErr ctx 0).modXch ctx fun x => { x with handTo := some target.val }) :=
  congrArg Host.Outcome.next ((writeXchCmd_op hgo hen (by decide) target.isLt).trans ((if_neg (not_not.mpr hcanonical)).trans
    (if_neg (not_not.mpr (Bool.and_eq_true_iff.mpr ⟨hholder, hledger⟩)))))

theorem execClaim_go (hledger : s.isLedger ctx = true) (hforms : s.xmode ctx ≠ 0) (hjoined : s.xmode ctx ≠ 3) :
    let t := ((s.xchErr ctx 0).setFld F.XCH_STATE_EPOCH ctx (s.fld F.XCH_STATE_EPOCH ctx + 1)).setToken ctx (s.ownSite ctx)
    exec (.claim fn ctx) s = .next
      ((t.setFld F.XCH_STATE_MODE ctx 1).raise (.context ctx) 0x070E 1 (t.ownSite ctx) (2 ^ 32 * t.fld F.XCH_STATE_EPOCH ctx + 2)) :=
  congrArg Host.Outcome.next ((writeXchCmd_op hgo hen (by decide) (by decide)).trans ((if_neg (not_not.mpr hledger)).trans
    (if_neg (not_or.mpr ⟨hforms, hjoined⟩))))

theorem execJoin_go (hmode : s.xmode ctx = 0 ∨ s.xmode ctx = 1) :
    exec (.join fn ctx) s = .next (((s.xchErr ctx 0).setFld F.XCH_STATE_MODE ctx 3).fetchAll ctx 3) :=
  congrArg Host.Outcome.next ((writeXchCmd_op hgo hen (by decide) (by decide)).trans (if_pos hmode))

theorem execResume_go (hmode : s.xmode ctx = 0) (hlevel : s.fld F.XCH_ROUND_LAST_FORMED ctx = s.fld F.XCH_ROUND_LAST_APPLIED ctx) :
    exec (.resume fn ctx) s =
      .next (((s.xchErr ctx 0).setFld F.XCH_STATE_MODE ctx 1).setToken ctx (s.fld F.XCH_STATE_TOKEN_SITE ctx)) :=
  congrArg Host.Outcome.next ((writeXchCmd_op hgo hen (by decide) (by decide)).trans ((if_neg (not_not.mpr hmode)).trans
    (if_neg (not_not.mpr hlevel))))

end

/-- The token stands at the site itself. -/
theorem flag_setToken_own : (s.setToken ctx (s.ownSite ctx)).flag F.XCH_STATE_HOLDER ctx = true := by
  unfold State.setToken
  rw [beq_self_eq_true]
  exact flag_setFld_one _ (by decide) rfl _

theorem fld_setToken_epoch (site : Nat) : (s.setToken ctx site).fld F.XCH_STATE_EPOCH ctx = s.fld F.XCH_STATE_EPOCH ctx :=
  (fld_setFld_apart _ (f := F.XCH_STATE_HOLDER) (g := F.XCH_STATE_EPOCH) (by decide) (.inl (by decide)) rfl _ _).trans
    (fld_setFld_apart _ (f := F.XCH_STATE_TOKEN_SITE) (g := F.XCH_STATE_EPOCH) (by decide) (.inl (by decide)) rfl _ _)

/-- A context's mode, epoch and holder as a claim leaves them. -/
theorem claimed (s : State) (ctx : Fin 256) (he : s.fld F.XCH_STATE_EPOCH ctx + 1 < 2 ^ F.XCH_STATE_EPOCH.width) (source detail : Nat) :
    let e := s.fld F.XCH_STATE_EPOCH ctx + 1
    let t := ((((s.xchErr ctx 0).setFld F.XCH_STATE_EPOCH ctx e).setToken ctx (s.ownSite ctx)).setFld F.XCH_STATE_MODE ctx 1).raise (.context ctx)
      0x070E 1 source detail
    t.fld F.XCH_STATE_EPOCH ctx = e ∧ t.flag F.XCH_STATE_HOLDER ctx = true ∧ t.xmode ctx = 1 := by
  intro e t
  have hctx : ctx.val < 1048576 := by omega
  have hown : ((s.xchErr ctx 0).setFld F.XCH_STATE_EPOCH ctx e).ownSite ctx = s.ownSite ctx :=
    (xcfg_setFld (by decide) _ _).trans (xcfg_setFld (by decide) _ _)
  refine ⟨?epoch, ?holder, ?mode⟩
  case epoch =>
    refine (fld_raise_context _ (by decide) hctx ..).trans ((fld_setFld_apart _ (f := F.XCH_STATE_MODE) (g := F.XCH_STATE_EPOCH) (by decide)
      (.inl (by decide)) rfl _ _).trans ((fld_setToken_epoch _).trans ((fld_setFld_self _ _ (by decide) _ _).trans (Nat.mod_eq_of_lt he))))
  case holder =>
    refine (congrArg (· != 0) ((fld_raise_context _ (by decide) hctx ..).trans
      (fld_setFld_apart _ (f := F.XCH_STATE_MODE) (g := F.XCH_STATE_HOLDER) (by decide) (.inl (by decide)) rfl _ _))).trans ?_
    rw [← hown]
    exact flag_setToken_own
  case mode => exact (fld_raise_context _ (by decide) hctx ..).trans (fld_setFld_self _ F.XCH_STATE_MODE (by decide) _ _)

/-- Settles O36. That a message's body is big-endian (log 47), the modes in which JOIN and HANDOVER are taken (log 49) and what a source takes for a
fetch that has been served (log 50) are the model's choice. -/
theorem snapshotsAndToken : Obligations.SnapshotsAndToken := by
  unfold Obligations.SnapshotsAndToken
  refine ⟨fun s ctx frm dev body h hshard => ⟨execSnapReq_manifest hshard, execSnapReq_chunk hshard⟩,
    fun s ctx dev role body hopen => execSnapManifest_first hopen,
    fun s ctx dev body y r a => execSnapChunk_good,
    fun s ctx => ⟨fun hidle => congrArg Host.Outcome.next (goOnApplying_none hidle), fun r hr => congrArg Host.Outcome.next (goOnApplying_some hr)⟩,
    fun s fn ctx hgo hen => ⟨fun target => execHandover_go hgo hen, fun hledger hforms hjoined he => ?claim, execJoin_go hgo hen,
      fun hmode hlevel => ?resume⟩⟩
  case claim => exact ⟨_, execClaim_go hgo hen hledger hforms hjoined, claimed s ctx he _ _⟩
  case resume =>
    have htoken : ((s.xchErr ctx 0).setFld F.XCH_STATE_MODE ctx 1).fld F.XCH_STATE_TOKEN_SITE ctx = s.fld F.XCH_STATE_TOKEN_SITE ctx :=
      (fld_setFld_apart _ (f := F.XCH_STATE_MODE) (g := F.XCH_STATE_TOKEN_SITE) (by decide) (.inl (by decide)) rfl _ _).trans
        (fld_setFld_of_reg_ne s (f := F.XCH_CMD_STATUS_ERR) (by decide) _ _)
    rw [htoken]
    exact execResume_go hgo hen hmode hlevel

end Sys2Proof.Machine
end

section
/-! SUPPORT. A DATA segment of 47 bytes whose tag holds: its frame is discarded, as shorter than a header and a tag (R457). -/

namespace Sys2Proof.Machine

-- # A gateway with one path, and a segment one byte too short for it

def shortKey : List Byte := List.replicate 32 0

/-- The entry of path 0 of context 0: site 1, gateway 7, the key in slot 5. -/
def shortEntry : PathEntry := ⟨1, 1, 7, 0, 0, 0, List.replicate 6 0, List.replicate 12 0 ++ [10, 0, 0, 9], 5, 0, true⟩

/-- The bytes of that entry before its CRC (Table 13-4). -/
def shortEntryBytes : List Byte := [1, 1, 7, 0] ++ List.replicate 24 0 ++ [10, 0, 0, 9, 5, 0] ++ List.replicate 26 0

/-- Far port 0 is UP at 10.0.0.1 with that path, on which nothing has come. -/
def shortPort : State :=
  let s : State := { State.reset with keys := [(5, ⟨1, 0, 1, shortKey⟩)], paths := [(0, { Path.fresh with ends := shortEntry.endsAt })] }
  let s := ((s.setFld F.FAR_PATH_BASE_ADDR 0 0x1C0).setFld F.FAR_PATH_COUNT_COUNT 0 1).setFld F.FAR_PORT_STATE_UP 0 1
  let s := ((s.setFld F.FAR_PORT_ADDR_LO_ADDR 0 0x0A000001).setFld F.FAR_FWD_BASE_ADDR 0 0x1D0).setFld F.FAR_FWD_COUNT_COUNT 0 1
  (s.setFld F.FAR_PORT_CFG_IPV6 0 0).devBytes 0x7000 (shortEntryBytes ++ leBytes 4 (crc32c shortEntryBytes))

/-- A header without its last byte, the low one of XSEQ: that byte is the first of the tag, which holds for it. -/
def shortHead : List Byte := [17, 0, 1, 0, 0, 7, 0, 0, 0, 0, 0, 0, 0, 0, 0, 1, 0, 0, 0, 1, 0, 0, 0, 1, 0, 0, 0, 0, 0, 0, 0]

def shortTag : List Byte := [167, 149, 161, 22, 193, 202, 112, 251, 11, 161, 143, 154, 15, 95, 69, 8]

def shortSegment : List Byte := shortHead ++ shortTag

/-- The frame: Ethernet, IPv4, UDP, the segment, one byte beyond the IP packet, which makes the length that LEN gives, and the FCS. -/
def shortFrame : List Byte :=
  [0, 0, 0, 0, 0, 0, 2, 0, 0, 0, 0, 9, 8, 0] ++ [69, 2, 0, 75, 0, 0, 64, 0, 64, 17, 38, 151, 10, 0, 0, 9, 10, 0, 0, 1] ++
    [192, 1, 174, 72, 0, 55, 85, 183] ++ shortSegment ++ [0] ++ [140, 44, 199, 12]

-- # The tag of the segment (SP 800-38D): each block of the cipher and each product by itself

/-- The hash key: the cipher's value of a block of zeros. -/
theorem shortKey_zeros : aesBlock (aesKeys shortKey) (List.replicate 16 0) =
    [220, 149, 192, 120, 162, 64, 137, 137, 173, 72, 162, 20, 146, 132, 32, 135] := by decide +kernel

theorem shortKey_counter : aesBlock (aesKeys shortKey) [0, 7, 1, 0, 0, 0, 0, 0, 0, 0, 0, 167, 0, 0, 0, 1] =
    [246, 70, 119, 117, 222, 158, 79, 122, 159, 104, 219, 111, 233, 178, 183, 34] := by decide +kernel

theorem shortCounter : (segIv 7 1 0 167 ++ beBytes 4 1).map (·.toNat) = [0, 7, 1, 0, 0, 0, 0, 0, 0, 0, 0, 167, 0, 0, 0, 1] := by decide +kernel

theorem shortHead_blocks : gcmBlocks shortHead ++ gcmBlocks [] ++ [2 ^ 64 * (8 * shortHead.length) + 8 * ([] : List Byte).length] =
    [22596896210761635971772446376240087041, 79228162532711081667253501952, 4574792530279968800768] := by decide +kernel

theorem shortHash : ghash 293207715084841176535342243128575008903 shortHead [] = 108767390584668189677217379161174045226 := by
  have hfirst : gcmMul (0 ^^^ 22596896210761635971772446376240087041) 293207715084841176535342243128575008903 =
    18060968846817049122397329452256018891 := by decide +kernel
  have hsecond : gcmMul (18060968846817049122397329452256018891 ^^^ 79228162532711081667253501952) 293207715084841176535342243128575008903 =
    125659596372514838368456356244858420943 := by decide +kernel
  have hthird : gcmMul (125659596372514838368456356244858420943 ^^^ 4574792530279968800768) 293207715084841176535342243128575008903 =
    108767390584668189677217379161174045226 := by decide +kernel
  unfold ghash
  rw [shortHead_blocks, List.foldl_cons, List.foldl_cons, List.foldl_cons, List.foldl_nil, hfirst, hsecond, hthird]

/-- The tag from the cipher's two blocks and the hash. -/
theorem gcmTag_of_blocks {key iv aad ct : List Byte} {zeros counter : List Nat} {mask : Nat} (hzeros : aesBlock (aesKeys key) (List.replicate 16 0) = zeros)
    (hcounter : aesBlock (aesKeys key) ((iv ++ beBytes 4 1).map (·.toNat)) = counter) (hmask : counter.foldl (fun a x => 256 * a + x) 0 = mask) :
    gcmTag key iv aad ct = ghash (zeros.foldl (fun a x => 256 * a + x) 0) aad ct ^^^ mask := by
  unfold gcmTag gcmBlock
  dsimp only
  rw [hzeros, hcounter, hmask]

theorem shortTag_holds : gcmTagOf shortKey (segIv 7 1 0 167) shortHead [] = shortTag := by
  have hcounter := (congrArg (aesBlock (aesKeys shortKey)) shortCounter).trans shortKey_counter
  have hzeros : [220, 149, 192, 120, 162, 64, 137, 137, 173, 72, 162, 20, 146, 132, 32, 135].foldl (fun a x => 256 * a + x) 0 =
      293207715084841176535342243128575008903 := by decide +kernel
  have hmask : [246, 70, 119, 117, 222, 158, 79, 122, 159, 104, 219, 111, 233, 178, 183, 34].foldl (fun a x => 256 * a + x) 0 = 327355970688521649174820932223914653474 := by
    decide +kernel
  have htag : gcmTag shortKey (segIv 7 1 0 167) shortHead [] = 222757994798943746771439211741343335688 := by
    rw [gcmTag_of_blocks shortKey_zeros hcounter hmask, hzeros, shortHash]
    decide +kernel
  have hbytes : beBytes 16 222757994798943746771439211741343335688 = shortTag := by decide +kernel
  exact (congrArg (beBytes 16) htag).trans hbytes

-- # What the model does with the frame

theorem shortFrame_arrives : shortPort.rxFrame 0 shortFrame = some ⟨shortSegment, false, 1⟩ := by decide +kernel

theorem shortSegment_head : segHead shortSegment = ⟨1, 0, 1, 0, 7, 0, 0, 0, 1, 1, 1, 167, 1⟩ := by decide +kernel

theorem shortSegment_opens : openSegment shortKey ⟨1, 0, 1, 0, 7, 0, 0, 0, 1, 1, 1, 167, 1⟩ shortSegment = some [] := by
  have htag : gcmOpen shortKey (segIv 7 1 0 167) shortHead ([] ++ shortTag) = some [] := by
    rw [gcmOpen_append _ _ _ _ _ rfl, if_pos shortTag_holds.symm]
    rfl
  exact congrArg (Option.map fun _ => []) htag

theorem shortPort_watched : shortPort.watchPath 0 0 = shortPort :=
  watchPath_same (e := shortEntry) (p := { Path.fresh with ends := shortEntry.endsAt }) (by decide +kernel) rfl rfl

/-- A segment whose path's key opens it, by the header that its bytes spell. -/
theorem opens_of_key {s : State} {e : PathEntry} {h : SegHead} {phase : Bool} {key seg payload : List Byte} (hhead : segHead seg = h)
    (hphase : h.phase = phase) (hkey : s.pathKey e phase = some key) (hopens : openSegment key h seg = some payload) :
    ((s.pathKey e (segHead seg).phase).bind fun k => openSegment k (segHead seg) seg) = some payload := by
  rw [hhead, hphase, hkey]
  exact hopens

/-- The frame passes every check up to its tag and its header. -/
theorem shortPort_takes : shortPort.takesSegment 0 1 shortFrame 0 0 shortEntry ⟨shortSegment, false, 1⟩ [] := by
  have hkey : shortPort.pathKey shortEntry false = some shortKey := by decide +kernel
  have hopens := opens_of_key (phase := false) shortSegment_head (by decide) hkey shortSegment_opens
  exact ⟨by decide +kernel, shortFrame_arrives, by decide +kernel, by decide +kernel, hopens, by decide +kernel, shortPort_watched⟩

/-- The segment is shorter than a header and a tag, and its frame is discarded. -/
theorem shortFrame_discarded : exec (.dataSegment 0 shortFrame) shortPort = .next (shortPort.rxDiscard 0) := by
  have hup : ¬ (!shortPort.portUp 0) = true := by decide +kernel
  refine congrArg Host.Outcome.next ((if_neg hup).trans ?_)
  rw [Fin.val_zero, shortFrame_arrives]
  exact if_pos (by decide)

/-- Refutes O38: a DATA segment of 47 bytes can pass the checks that `State.takesSegment` names, and the model discards its frame, which counts no
segment as received. -/
theorem not_farReceiving : ¬ Obligations.FarReceiving := by
  unfold Obligations.FarReceiving
  rintro ⟨hsegments, -⟩
  obtain ⟨-, -, hdata, -⟩ := hsegments shortPort 0 shortFrame 0 0 shortEntry ⟨shortSegment, false, 1⟩ []
  have htaken := hdata shortPort_takes ⟨by decide +kernel, by decide +kernel⟩ 0 0 (by decide +kernel)
  rw [shortFrame_discarded] at htaken
  have hstate := Host.Outcome.next.inj htaken
  have hreceived := congrArg (fun t : State => (t.path 0 0).rcvd) hstate
  exact absurd hreceived (by decide +kernel)

end Sys2Proof.Machine
end

section
/-! SUPPORT. A gateway's sending side (R453, R459 to R471, R476 to R482): items, timers, pacing, drops, ports and key phases. -/

namespace Sys2Proof.Machine

variable {s : State}

-- # Whether a far port is UP, and what leaves it so

theorem portUp_giveBack (s : State) (came : Option (Nat × Nat)) (p : Nat) : (s.giveBack came).portUp p = s.portUp p := by
  cases came <;> rfl

theorem portUp_drain (n : Nat) (s : State) (q p : Nat) : (State.drain n s q).portUp p = s.portUp p := by
  induction n generalizing s with
  | zero => rfl
  | succ n ih =>
    unfold State.drain
    dsimp only
    split
    · rfl
    · split
      · rfl
      · exact (ih _).trans (portUp_giveBack ..)

section
variable (s) {p : Nat} (hp : p < 2)
include hp

theorem portUp_setFld {f : Field} (hf : f.reg ≠ .FAR_PORT_STATE) {i : Nat} (hi : i < 1048576) (v : Nat) : (s.setFld f i v).portUp p = s.portUp p :=
  congrArg (· != 0) (fld_setFld_reg s v (RegName.key_ne (by omega) hi hf.symm))

theorem portUp_raise_device (code sev source detail : Nat) : (s.raise .device code sev source detail).portUp p = s.portUp p :=
  congrArg (· != 0) (fld_raise_device s (by decide) (by omega) ..)

theorem portUp_raise_context (n code sev source detail : Nat) : (s.raise (.context n) code sev source detail).portUp p = s.portUp p :=
  congrArg (· != 0) (fld_raise_context s (by decide) (by omega) ..)

theorem portUp_unreachable (q dst : Nat) : (s.unreachable q dst).portUp p = s.portUp p := by
  have hcounted : ((s.bumpFld F.FAB_UNREACH_COUNT 0 1).setFld F.FAB_UNREACH_LAST_DST 0 dst).portUp p = s.portUp p :=
    (portUp_setFld _ hp (by decide) (by decide) _).trans (portUp_setFld s hp (by decide) (by decide) _)
  unfold State.unreachable State.raiseLimited
  dsimp only
  split
  · exact (portUp_raise_device _ hp ..).trans hcounted
  · exact hcounted

theorem portUp_sendOn (f : Flit) (came : Option (Nat × Nat)) : (s.sendOn f came).portUp p = s.portUp p := by
  have hon (q : Nat) (g : Flit) : ((s.enqueue q g came).drainPort q).portUp p = s.portUp p := portUp_drain ..
  unfold State.sendOn
  dsimp only
  split
  · exact hon ..
  · split
    · exact hon ..
    · exact hon ..
    · exact (portUp_giveBack ..).trans (portUp_unreachable s hp _ _)
    · rfl

theorem portUp_post (dsts : List Nat) (o : Out) : (s.post dsts o).portUp p = s.portUp p := by
  have hcarry : (s.carry dsts o).portUp p = s.portUp p := by
    unfold State.carry
    split
    · rfl
    · exact State.each_keeps _ (fun t : State => t.portUp p) fun d t => State.each_keeps _ (fun t : State => t.portUp p) fun f t => portUp_sendOn t hp f none
  unfold State.post
  split
  · rfl
  · exact hcarry

theorem portUp_setPath (ctx i : Nat) (q : Path) : (s.setPath ctx i q).portUp p = s.portUp p := by
  unfold State.setPath State.showPath
  dsimp only
  repeat rw [portUp_setFld _ hp (by decide) (by decide)]
  rfl

theorem portUp_pathDown (ctx i : Nat) (e : PathEntry) : (s.pathDown ctx i e).portUp p = s.portUp p := by
  unfold State.pathDown State.announceFrom
  dsimp only
  repeat' split
  · rfl
  · exact (portUp_raise_context _ hp ..).trans (portUp_setPath s hp ..)
  · exact (portUp_post _ hp ..).trans ((portUp_raise_context _ hp ..).trans (portUp_setPath s hp ..))

end

/-- A port that goes DOWN is DOWN, whatever its paths do. -/
theorem portUp_portDown (s : State) {p : Nat} (hp : p < 2) (why : Nat) : (s.portDown p why).portUp p = false := by
  unfold State.portDown
  split
  case isTrue hdown => exact Bool.not_eq_true' _ |>.mp hdown
  case isFalse =>
    refine (State.each_keeps _ (fun t : State => t.portUp p) fun c t => State.each_keeps _ (fun t : State => t.portUp p) fun q t =>
      portUp_pathDown t hp ..).trans ((portUp_raise_device _ hp ..).trans ?_)
    exact flag_setFld_zero s (by decide) p

-- # Items (R459, R462, R482)

section
variable {ctx : Fin 256} {dev : BitVec 16} {site : Fin 64} {rep : Bool} {dst : BitVec 16} {bytes : List Byte}

theorem execGatewayItemReceive_soredium :
    let h := soredHead bytes
    exec (.gatewayItemReceive ctx dev site rep 0 dst bytes) s = .next ((s.modGate ctx fun g => { g with
      queue := g.queue ++ [⟨site, h.src, rep, 1, some h.round, bytes⟩], owed := g.owed ++ [(dev.toNat, site.val, 1)] }).grantCredits ctx) := rfl

theorem execGatewayItemReceive_message {kind : Fin 9} (hkind : kind ≠ 0) :
    exec (.gatewayItemReceive ctx dev site rep kind dst bytes) s = .next ((s.modGate ctx fun g => { g with
      queue := g.queue ++ (fragments kind dev.toNat dst.toNat g.msgId bytes).map fun f =>
        ⟨site, dev.toNat, rep, 3, if kind.val = 1 then some (beAt bytes 8 8) else none, f⟩
      msgId := (g.msgId + 1) % 2 ^ 32
      owed := g.owed ++ [(dev.toNat, site.val, (fragments kind dev.toNat dst.toNat (s.gate ctx).msgId bytes).length)] }).grantCredits ctx) := by
  have hval : kind.val ≠ 0 := fun h => hkind (Fin.ext h)
  change execGatewayItemReceive ctx dev site rep kind dst bytes s = _
  unfold execGatewayItemReceive State.modGate
  dsimp only
  rw [if_neg hval, if_neg hval, List.length_map]

end

-- # A path's timers (R467 to R471, R476 to R480)

theorem path_setPath (s : State) (ctx i : Nat) (p : Path) : (s.setPath ctx i p).path ctx i = p := NMap.getD_set_self ..

section
variable {ctx : Fin 256} {i : Fin 128} {e : PathEntry} (hon : s.pathOn? ctx i = some e) (hwatch : s.watchPath ctx i = s)
include hon hwatch

theorem execSegmentSend_lost {x : Seg} (hup : (s.path ctx i).up = true) (hpace : (s.path ctx i).paceAt ≤ s.now)
    (hlost : (s.path ctx i).segs.find? (·.lost) = some x) : exec (.segmentSend ctx i) s = .next (s.resend ctx i e x) := by
  have hsends : (!(s.path ctx i).up || decide (s.now < (s.path ctx i).paceAt)) = false := by
    rw [hup, decide_eq_false (Nat.not_lt.mpr hpace)]
    rfl
  change execSegmentSend ctx i s = _
  unfold execSegmentSend
  dsimp only
  rw [hwatch, hon]
  dsimp only
  rw [hsends, hlost]
  rfl

theorem execSegmentSend_new {k : Nat} {it : GateItem} (hup : (s.path ctx i).up = true) (hpace : (s.path ctx i).paceAt ≤ s.now)
    (hlost : (s.path ctx i).segs.find? (·.lost) = none) (hroom : (s.path ctx i).segs.length < 2097151)
    (hnext : s.nextItem ctx i = some (k, it)) : exec (.segmentSend ctx i) s = .next (s.sendNew ctx i e k it) := by
  have hsends : (!(s.path ctx i).up || decide (s.now < (s.path ctx i).paceAt)) = false := by
    rw [hup, decide_eq_false (Nat.not_lt.mpr hpace)]
    rfl
  change execSegmentSend ctx i s = _
  unfold execSegmentSend
  dsimp only
  rw [hwatch, hon]
  dsimp only
  rw [hsends, hlost, hnext]
  exact if_neg (Nat.not_le.mpr hroom)

theorem execAckDelayTimeout_due {since : Nat} (hpend : (s.path ctx i).pendAt = some since)
    (hdue : since + 1000 * s.fld F.FAR_AXT_CFG_ACK_US 0 ≤ s.now) : exec (.ackDelayTimeout ctx i) s = .next (s.sendAck ctx i e) := by
  change execAckDelayTimeout ctx i s = _
  unfold execAckDelayTimeout
  dsimp only
  rw [hwatch, hon, hpend]
  exact if_pos hdue

theorem execRtoTimeout_due {x : Seg} {rest : List Seg} (hsegs : (s.path ctx i).segs = x :: rest) (hkept : x.lost = false)
    (hdue : x.sentAt + (s.path ctx i).timeout < s.now) : exec (.rtoTimeout ctx i) s =
      .next (s.setPath ctx i { s.path ctx i with
        segs := { x with lost := true } :: rest, rto := min 2000000000 (2 * (s.path ctx i).rto), loss := true }) := by
  change execRtoTimeout ctx i s = _
  unfold execRtoTimeout
  dsimp only
  rw [hwatch, hon]
  dsimp only
  rw [hsegs]
  exact if_pos ⟨hkept, hdue⟩

theorem execProbeTimer_down {t : State} (hdown : (s.path ctx i).up = false) (hdue : (s.path ctx i).probed + 100 * ms ≤ s.now)
    (hsends : s.transmit ctx i e 4 4 0 [] = some t) : exec (.probeTimer ctx i) s =
      .next (t.modPath ctx i fun p => { (if p.up then p.await t.now else p) with idle := t.now, probed := t.now, probing := p.up }) := by
  change execProbeTimer ctx i s = _
  unfold execProbeTimer
  dsimp only
  rw [hwatch, hon]
  dsimp only
  rw [hdown, if_neg Bool.false_ne_true, decide_eq_true hdue, hsends]
  rfl

theorem execPathDeadTimeout_due {since : Nat} (hquiet : (s.path ctx i).quiet = some since)
    (hdue : since + ms * s.fld F.FAR_AXT_CFG_DEAD_MS 0 ≤ s.now) : exec (.pathDeadTimeout ctx i) s = .next (s.pathDown ctx i e) := by
  change execPathDeadTimeout ctx i s = _
  unfold execPathDeadTimeout
  dsimp only
  rw [hwatch, hon, hquiet]
  exact if_pos hdue

/-- After a loss the interval lowers the rate to seven tenths, and not below RMIN. -/
theorem execPaceInterval_loss (hup : (s.path ctx i).up = true) (hdue : (s.path ctx i).interval + max 1000000 (s.path ctx i).srtt ≤ s.now)
    (hloss : (s.path ctx i).loss = true) : ∃ t, exec (.paceInterval ctx i) s = .next t ∧
      (t.path ctx i).rate = max (s.fld F.FAR_PACE_CFG_RMIN 0 : Rat) ((s.path ctx i).rate * 7 / 10) ∧ (t.path ctx i).loss = false ∧
      (t.path ctx i).interval = s.now := by
  have hpaces : (!(s.path ctx i).up || decide (s.now < (s.path ctx i).interval + max 1000000 (s.path ctx i).srtt)) = false := by
    rw [hup, decide_eq_false (Nat.not_lt.mpr hdue)]
    rfl
  have hexec : exec (.paceInterval ctx i) s = execPaceInterval ctx i s := rfl
  rw [hexec]
  unfold execPaceInterval
  dsimp only
  rw [hwatch, hon]
  dsimp only
  rw [hpaces, hloss, if_pos rfl]
  refine ⟨_, if_neg Bool.false_ne_true, ?_⟩
  rw [path_setPath]
  exact ⟨rfl, rfl, rfl⟩

theorem execSegmentDrop_some (hdrops : ∃ x ∈ (s.path ctx i).segs, s.dropsSeg ctx x = true) :
    let p := s.path ctx i
    let out := p.segs.filter (s.dropsSeg ctx)
    let data := out.countP fun x => x.typ == 1
    let t := s.setPath ctx i (p.dropping (s.dropsSeg ctx) s.now)
    exec (.segmentDrop ctx i) s =
      .next (((t.raise (.context ctx) 0x0309 1 i (2 ^ 32 * data + (out.length - data))).showBuf e.port).roomAgain e.port |>.grantCredits ctx) := by
  intro p out data t
  obtain ⟨x, hx, hdrop⟩ := hdrops
  have hmem : x ∈ out := List.mem_filter.mpr ⟨hx, hdrop⟩
  have hsome : ¬ out.isEmpty = true := fun hnone => List.not_mem_nil (List.isEmpty_iff.mp hnone ▸ hmem)
  change execSegmentDrop ctx i s = _
  unfold execSegmentDrop
  dsimp only
  rw [hwatch, hon]
  exact if_neg hsome

end

-- # Far ports (R453, R468, R469)

section
variable {port : Fin 2}

theorem execBufferFullTimer_due {since : Nat} (hfull : s.bufFull port = true) (hsince : s.beganAt 30 port = some since)
    (hdue : since + 10 * ms ≤ s.now) : exec (.bufferFullTimer port) s =
      .next ((s.endOf 30 port).raise .device 0x0308 1 port (ceilDiv (s.bufUsed port) 1048576)) := by
  have hroom : s.roomAgain port = s := if_pos hfull
  change execBufferFullTimer port s = _
  unfold execBufferFullTimer
  dsimp only
  rw [hroom, hsince]
  exact if_pos hdue

theorem execFarPortEnable_go {fn : Fin 64} {v : Word} (hgo : s.reach fn .FAR_PORT_CFG port = .go) (hoff : s.fld F.FAR_PORT_CFG_EN port = 0)
    (hstage : 6 ≤ s.stage) (hboots : s.fld F.SEC_STATE_BOOTS 0 ≠ 0xFFFF) :
    let t := s.setReg .FAR_PORT_CFG port (RegName.FAR_PORT_CFG.written .whole (s.reg .FAR_PORT_CFG port) v)
    t.fld F.FAR_PORT_CFG_EN port = 1 → t.bufPlaced port = true → exec (.farPortEnable fn port v) s = .next (t.setFld F.FAR_PORT_CFG_ERR port 0) := by
  intro t henables hplaced
  have hwas : ¬ F.FAR_PORT_CFG_EN.of (s.reg .FAR_PORT_CFG port) = 1 := fun h => absurd (hoff.symm.trans h) (by decide)
  have hnew : F.FAR_PORT_CFG_EN.of (RegName.FAR_PORT_CFG.written .whole (s.reg .FAR_PORT_CFG port) v) = 1 :=
    (congrArg F.FAR_PORT_CFG_EN.of (reg_setReg_self ..).symm).trans henables
  refine congrArg Host.Outcome.next ((State.reaching_go hgo _).trans ?_)
  dsimp only
  rw [if_neg hwas, decide_eq_false (Nat.not_lt.mpr hstage), Bool.false_and, Bool.false_or, beq_eq_false_iff_ne.mpr hboots, Bool.false_and,
    if_neg Bool.false_ne_true, hnew, if_pos ⟨rfl, hwas⟩]
  change t.setFld F.FAR_PORT_CFG_ERR port (b2n (!t.bufPlaced port)) = _
  rw [hplaced]
  rfl

section
variable (hen : s.flag F.FAR_PORT_CFG_EN port = true) (hdown : s.portUp port = false)
include hen hdown

theorem execFarPortUp_misplaced (hplaced : s.bufPlaced port = false) : exec (.farPortUp port) s = .next (s.setFld F.FAR_PORT_CFG_ERR port 1) := by
  have hfaults : (s.flag F.FAR_PORT_CFG_EN port && !s.portUp port && !s.bufPlaced port) = true := by
    rw [hen, hdown, hplaced]
    rfl
  exact if_pos hfaults

theorem execFarPortUp_placed (hplaced : s.bufPlaced port = true) (herr : s.fld F.FAR_PORT_CFG_ERR port = 0) (hstage : 6 ≤ s.stage) :
    ∃ t, exec (.farPortUp port) s = .next t ∧ t.portUp port = true := by
  have hsound : (s.flag F.FAR_PORT_CFG_EN port && !s.portUp port && !s.bufPlaced port) = false := by
    rw [hplaced]
    exact Bool.and_false _
  have hcomes : (s.flag F.FAR_PORT_CFG_EN port && s.fld F.FAR_PORT_CFG_ERR port == 0 && decide (6 ≤ s.stage) && !s.portUp port) = true := by
    rw [hen, hdown, herr, decide_eq_true hstage]
    rfl
  refine ⟨_, (if_neg (Bool.eq_false_iff.mp hsound)).trans (if_pos hcomes), (portUp_raise_device _ port.isLt ..).trans ?_⟩
  have hkept (t : State) {f : Field} (hreg : f.reg = .FAR_PORT_STATE) (hlow : f.lo + f.width ≤ 63) (v : Nat) :
      (t.setFld f port v).portUp port = t.portUp port :=
    congrArg (· != 0) (fld_setFld_apart t (by omega) (.inr hlow) hreg.symm _ _)
  exact (hkept _ rfl (by decide) _).trans ((hkept _ rfl (by decide) _).trans ((hkept _ rfl (by decide) _).trans (flag_setFld_one s (by decide) rfl _)))

end

end

-- # Key phases and messages that stay incomplete (R466, R482)

/-- A word that switches the key phase of a path names its context and its path. -/
theorem switchWord (ctx : Fin 256) (i : Fin 128) :
    let v := F.FAR_PATH_SEL_OP.put (F.FAR_PATH_SEL_CTX.put (F.FAR_PATH_SEL_PATH.put 0#64 i) ctx) 1
    F.FAR_PATH_SEL_OP.of v = 1 ∧ F.FAR_PATH_SEL_CTX.of v = ctx ∧ F.FAR_PATH_SEL_PATH.of v = i := by
  intro v
  have hop : F.FAR_PATH_SEL_OP.of v = 1 % 256 := Field.of_put _ (by decide) _ _
  have hctx : F.FAR_PATH_SEL_CTX.of v = ctx % 256 :=
    (Field.of_put_other (f := F.FAR_PATH_SEL_OP) (by decide) (.inl (by decide)) _ _).trans (Field.of_put _ (by decide) _ _)
  have hpath : F.FAR_PATH_SEL_PATH.of v = i % 256 :=
    (Field.of_put_other (f := F.FAR_PATH_SEL_OP) (by decide) (.inl (by decide)) _ _).trans
      ((Field.of_put_other (f := F.FAR_PATH_SEL_CTX) (by decide) (.inl (by decide)) _ _).trans (Field.of_put _ (by decide) _ _))
  exact ⟨hop, hctx.trans (Nat.mod_eq_of_lt ctx.isLt), hpath.trans (Nat.mod_eq_of_lt (by omega))⟩

theorem execKeyPhaseSwitch_go {fn : Fin 64} {ctx : Fin 256} {i : Fin 128} (hgo : s.reach fn .FAR_PATH_SEL 0 = .go) :
    let v := F.FAR_PATH_SEL_OP.put (F.FAR_PATH_SEL_CTX.put (F.FAR_PATH_SEL_PATH.put 0#64 i) ctx) 1
    let t := s.setReg .FAR_PATH_SEL 0 (RegName.FAR_PATH_SEL.written .whole (s.reg .FAR_PATH_SEL 0) v)
    (t.pathOn? ctx i).isSome = true → t.watchPath ctx i = t →
      exec (.keyPhaseSwitch fn ctx i) s = .next (t.modPath ctx i fun p => { p with phase := !p.phase }) := by
  intro v t hon hwatch
  obtain ⟨hop, hctx, hpath⟩ := switchWord ctx i
  have hselCtx : t.fld F.FAR_PATH_SEL_CTX 0 = ctx := (congrArg F.FAR_PATH_SEL_CTX.of (reg_setReg_self ..)).trans
    ((RegName.of_written_rw (r := .FAR_PATH_SEL) (row := ⟨8, 8, .rw, 0⟩) (by decide) rfl _ v).trans hctx)
  have hselPath : t.fld F.FAR_PATH_SEL_PATH 0 = i := (congrArg F.FAR_PATH_SEL_PATH.of (reg_setReg_self ..)).trans
    ((RegName.of_written_rw (r := .FAR_PATH_SEL) (row := ⟨0, 8, .rw, 0⟩) (by decide) rfl _ v).trans hpath)
  refine congrArg Host.Outcome.next ((State.reaching_go hgo _).trans ?_)
  have hselects : F.FAR_PATH_SEL_OP.of (Half.whole.part v) = 1 ∧ (t.pathOn? ctx i).isSome = true := ⟨(congrArg _ (Half.part_whole v)).trans hop, hon⟩
  have hwrites : s.writeReg .FAR_PATH_SEL 0 .whole v = t := rfl
  dsimp only
  rw [hwrites, hselCtx, hselPath, hwatch]
  exact if_pos hselects

theorem execMsgTtlExpiry_due {ctx : Fin 256} {site : Fin 64} {gw : BitVec 16} {id : BitVec 32} {a : Assembly}
    (ha : (s.gate ctx).asm.find? (fun a => a.site == site.val && a.gw == gw.toNat && a.id == id.toNat) = some a)
    (hdue : a.since + sec * s.fld F.FAR_AXT_CFG_MSG_TTL_S 0 ≤ s.now) : exec (.msgTtlExpiry ctx site gw id) s =
      .next ((s.modGate ctx fun g => { g with asm := g.asm.filter fun a => !(a.site == site.val && a.gw == gw.toNat && a.id == id.toNat) }).raise
        (.context ctx) 0x030E 1 a.path id.toNat) := by
  change execMsgTtlExpiry ctx site gw id s = _
  unfold execMsgTtlExpiry
  dsimp only
  rw [ha]
  exact if_pos hdue

/-- Settles O37. The exact rates (log 51), and that a message is cut into its segments where it is received and its credits owed in segments (log 52),
are the model's choice. -/
theorem farSending : Obligations.FarSending := by
  unfold Obligations.FarSending
  refine ⟨fun s ctx dev site rep dst bytes => ⟨execGatewayItemReceive_soredium, fun kind => execGatewayItemReceive_message⟩,
    fun s ctx i e hon hwatch => ⟨fun hup hpace => ⟨fun x t hlost _ => ?lost, fun k it hlost hroom hnext _ => ?new⟩,
      fun since t hpend hdue _ => ?ack, fun x rest => execRtoTimeout_due hon hwatch, fun t => execProbeTimer_down hon hwatch,
      fun since => execPathDeadTimeout_due hon hwatch, execPaceInterval_loss hon hwatch, execSegmentDrop_some hon hwatch⟩,
    fun s port => ⟨fun since => execBufferFullTimer_due, fun fn v hgo hoff hstage hboots => ?enable,
      fun hen hdown => ⟨execFarPortUp_misplaced hen hdown, execFarPortUp_placed hen hdown⟩, fun remote => ?down⟩,
    fun s fn ctx i hgo => execKeyPhaseSwitch_go hgo, fun s ctx site gw id a => execMsgTtlExpiry_due⟩
  case lost => exact execSegmentSend_lost hon hwatch hup hpace hlost
  case new => exact execSegmentSend_new hon hwatch hup hpace hlost hroom hnext
  case ack => exact execAckDelayTimeout_due hon hwatch hpend hdue
  case enable => exact execFarPortEnable_go hgo hoff hstage hboots
  case down => exact ⟨_, rfl, portUp_portDown _ port.isLt _⟩

end Sys2Proof.Machine
end
